-- ==== Sys2Proof/Word.lean ====
section
/-! DEFINITION. The words of the Cerdoyx CX-512: bytes and register words, and little-endian byte strings (R7). -/

namespace Sys2Proof

/-- One byte. -/
abbrev Byte := BitVec 8

/-- One 32-bit control-space or BAR0 register word. -/
abbrev W32 := BitVec 32

/-- A SHA-384 digest. -/
abbrev Digest := BitVec 384

/-- The host data of one 4 KiB unit, byte 0 in bits [7:0]. -/
abbrev UnitData := BitVec 32768

end Sys2Proof
end

