-- ==== Sys2Proof/Types.lean ====
section
/-! DEFINITION. The operand and record types that commands and State share: names for ports, functions, modes,
flits, map entries, media units and what the media return. Every type is plain data. -/

namespace Sys2Proof.Machine

/-- The two host ports (R95). -/
inductive Port where
  | a | b
deriving DecidableEq, Repr

/-- A PCIe function: a PF, or VF `n` (1 to 512) of a port's PF (Table 04-2). -/
inductive Fn where
  | pf (p : Port)
  | vf (p : Port) (n : Nat)
deriving DecidableEq, Repr

/-- How a host-to-device transfer fails (R49, R142, R474). -/
inductive DmaFault where
  | timeout | completerAbort | unsupported | poisoned | ideFailed
deriving DecidableEq, Repr

/-- What a host-to-device transfer brought: the bytes, or the fault that ended it. -/
inductive DmaIn where
  | ok (bytes : List Byte)
  | fault (f : DmaFault)
deriving DecidableEq, Repr

/-- A Kyster command packet less its opcode byte, which the command's own name fixes (Table 02-4).
`params` holds bytes 63:8. -/
structure KmbPkt where
  flags  : Byte
  tag    : BitVec 16
  rsv    : W32
  params : BitVec 448
deriving DecidableEq, Repr

/-- The twelve operating modes (Table 02-6). -/
inductive Mode where
  | off | dormant | awaitImage | verify | assemble | serve | serveLimited | serveDegraded
  | readOnly | idle | holdup | halted
deriving DecidableEq, Repr

/-- Power-domain states (Table 01-6). -/
inductive Pd where
  | off | trans | gated | on
deriving DecidableEq, Repr

/-- Who makes a control-space access (R12, R372). -/
inductive Requester where
  | warden
  | lp (k : Nat)
deriving DecidableEq, Repr

/-- The register a REGISTER_WRITE names: a control-space word, a BAR0 dword of a function, or a
configuration-space item of a function. -/
inductive RegTarget where
  | csr (req : Requester) (addr : Nat)
  | bar0 (fn : Fn) (off : Nat)
  | busMaster (fn : Fn)
  | vfEnable (p : Port)
  | numVfs (p : Port)
  | msixEnable (fn : Fn)
  | msixMask (fn : Fn) (vec : Nat)
  | msiEnable (p : Port)
deriving DecidableEq, Repr

/-- The eight kinds of work that move units between places (R179, R231, R245). -/
inductive MoveKind where
  | fold | gc | rebuild | respread | release | refresh
deriving DecidableEq, Repr

/-- A map entry (Table 06-2). -/
inductive MapEntry where
  | unwritten
  | mapped (pua : Nat)
  | lost
  | dealloc
deriving DecidableEq, Repr

/-- Zone states, as the Zoned Namespace Command Set encodes them. -/
inductive ZState where
  | empty | implOpen | explOpen | closed | readOnly | full | offline
deriving DecidableEq, Repr

/-- A journal record's content (Table 06-7, R443). -/
inductive JBody where
  | mapRun (ns first : Nat) (puas : List Nat)
  | deallocRun (ns first count : Nat)
  | lostRun (ns first count : Nat)
  | zoneImage (ns zone : Nat)
  | release (quire sb : Nat)
  | erased (quire sb wear : Nat)
  | retired (pua reason : Nat)
  | checkpoint (seg capture : Nat)
  | generation (ns ctr : Nat)
  | keyChange (ns gen openSeq : Nat)
deriving DecidableEq, Repr

/-- A journal record with its sequence number (R175). -/
structure JRec where
  seq  : Nat
  body : JBody
deriving DecidableEq, Repr

/-- A decoded codeword frame of Table 07-1 without its LDPC parity. -/
structure Frame where
  cipher : UnitData
  hmeta  : BitVec 512
  hdr    : BitVec 256
  tag    : BitVec 128
deriving DecidableEq, Repr

/-- The outcome of one LDPC decode: `sw` is the raw syndrome weight, `up` and `down` the corrections per read
level of R218 (level 1 first). -/
structure DecodeIn where
  frame : Option Frame
  sw    : Nat
  up    : List Nat
  down  : List Nat
deriving DecidableEq, Repr

/-- Operation kinds on a die (Table 09-8). -/
inductive OpKind where
  | readQlc | readSlc | progQlc | progSlc | erase | suspend | resume | status | resetDie
deriving DecidableEq, Repr

/-- Why an operation is asked for. `rid` names a leaf read. -/
inductive Purpose where
  | hostRead (rid : Nat)
  | peerRead (rid : Nat)
  | softSense (rid : Nat)
  | readRetry (rid : Nat)
  | hostProg (furrow : Nat)
  | rowParity (furrow : Nat)
  | dirtyDrain (furrow : Nat)
  | holdup
  | move (k : MoveKind) (quire : Nat)
  | moveParity (k : MoveKind) (quire : Nat)
  | patrol (quire : Nat)
  | sbErase (quire sb : Nat)
  | jmirror (quire : Nat)
  | jregion
  | metadata (quire : Nat)
  | softDecode (host : Bool)
  | zeroBurst (awaited : Bool)
  | freshFill
  | joinErase
deriving DecidableEq, Repr

/-- A unit that a PROGRAM carries: its target and what it holds. `tag` is the write-buffer entry it came from,
or the PUA it was copied from. -/
structure ProgUnit where
  pua   : Nat
  ns    : Nat
  iu    : Nat
  gen   : Nat
  keyGen : Nat
  src   : Nat
deriving DecidableEq, Repr

/-- A request for a Sluice grant, and the operation it would start (Tables 09-7, 14-1). `soft` and `burst`
are the charges that no die takes part in. -/
structure OpReq where
  kind    : OpKind
  soft    : Bool
  burst   : Bool
  slot    : Nat
  die     : Nat
  block   : Nat
  page    : Nat
  count   : Nat
  cwMask  : Nat
  purpose : Purpose
  units   : List ProgUnit
deriving DecidableEq, Repr

/-- A CPL flit's payload (Table 09-9). `rsvOk` is false when a reserved field is not 0. -/
structure Cpl where
  opcode    : Nat
  status    : Nat
  tag       : Nat
  die       : Nat
  suspends  : Nat
  busy      : Nat
  suspended : Nat
  dieState  : Nat
  rsvOk     : Bool
deriving DecidableEq, Repr

/-- An LCTL flit's payload (Table 09-6). -/
structure Lctl where
  ack    : Option Nat
  nak    : Option Nat
  ret0   : Nat
  ret1   : Nat
  ret2   : Nat
  lpReq  : Bool
  lpAck  : Bool
  rsvOk  : Bool
deriving DecidableEq, Repr

/-- A module INIT flit's payload (Table 09-5). -/
structure InitPl where
  version  : Nat
  role     : Nat
  fresh    : Bool
  peerSeen : Bool
  nextFseq : Nat
  vc0      : Nat
  vc1      : Nat
  vc2      : Nat
  maxTags  : Nat
  slot     : Nat
  rsvOk    : Bool
deriving DecidableEq, Repr

/-- One event as a source offers it: code, source byte and payload bytes (R416, R418). -/
structure EvOffer where
  code    : Nat
  src     : Nat
  payload : List Byte
deriving DecidableEq, Repr

/-- DRAM service classes (Table 13-3). -/
inductive DClass where
  | rt | lat | bulk | bg
deriving DecidableEq, Repr

/-- What the DRAM patrol or a read found at a word (R362). -/
inductive EccResult where
  | clean
  | corrected (dev cwMask : Nat)
  | poisoned
  | uncorrectable
deriving DecidableEq, Repr

/-- A waiting DRAM request (R356 to R361). `word` is 64 × local page + word; `part` is what the read of a partial write's merge
finds (R366), none for a read or a write of the whole word. -/
structure DReq where
  id      : Nat
  port    : Nat
  rank    : Nat
  arrival : Nat
  rowHit  : Bool
  isWrite : Bool
  word    : Nat
  promoted : Bool
  keepOpen : Bool
  part    : Option EccResult
deriving DecidableEq, Repr

/-- The position of a DRAM word (R353, R363). -/
structure DWord where
  page  : Nat
  word  : Nat
  subch : Nat
  rank  : Nat
  bg    : Nat
  bank  : Nat
  row   : Nat
deriving DecidableEq, Repr

/-- How the capacitor test ended (R392). -/
inductive HuOutcome where
  | measured (v0 va ticks : Nat)
  | notCharged
  | timeout
deriving DecidableEq, Repr

/-- How a channel's training ended (Table 13-2): `list` is the retirement list found for the channel, the local pages listed
under the list's key, and `soft` those of them that step 7 soft-repaired. -/
inductive TrainRes where
  | trained (list : Option (Digest × List Nat)) (soft : List Nat)
  | failed (step : Nat)
deriving DecidableEq, Repr

/-- A range of logical blocks. -/
structure LbaRange where
  slba : Nat
  nlb  : Nat
deriving DecidableEq, Repr

/-- A namespace (R151 to R157, R434). -/
structure Nsp where
  kind      : Nat      -- 0 conventional, 1 FDP, 2 zoned (R316)
  lbaf      : Nat
  nsze      : Nat
  iu16      : Bool
  pi        : Nat      -- protection information type, 0 none
  zoneShift : Nat
  mar       : Nat
  quire     : Nat
  handles   : List Nat -- FDP reclaim unit handles, by placement handle
  attached  : List Nat -- CNTLIDs
  gen       : Nat
  keyGen    : Nat
  keySeq    : Nat
  formatting : Option Nat -- the number of the first fetch that a running format refuses
  deleting  : Bool
  ndasReset : Bool     -- set until a format ends No-Deallocate After Sanitize for it (R446)
deriving DecidableEq, Repr

/-- A zone's extent (R161). -/
structure Extent where
  sb    : Nat
  row   : Nat
  rows  : Nat
  quire : Nat
deriving DecidableEq, Repr

/-- A zone entry (Table 06-4). -/
structure Zone where
  state    : ZState
  foldPend : Bool
  rehomed  : Bool
  furrow   : Option Nat
  wp       : Nat
  dataEnd  : Nat
  folded   : Nat
  gen      : Nat
  extents  : List Extent
deriving DecidableEq, Repr

/-- Superblock states: `closed` ones may be victims; `released` ones wait on the erase gate (R179). -/
inductive SbState where
  | free | open | closed | released | erasing | retired
deriving DecidableEq, Repr

/-- A superblock of a Quire (R159, R229). `members` are member indices in list order. -/
structure Superblock where
  st      : SbState
  slc     : Bool
  furrow  : Nat
  members : List Nat
  openSeq : Nat
  row     : Nat
  valid   : Nat
  written : Nat
  wear    : Nat
  flagged : Bool
  relSeq  : Nat
  relEpoch : Nat
deriving DecidableEq, Repr

/-- A journal slot's descriptor (Table 08-3) for the row a Furrow has open. `mirA` and `mirB` are the written bits of the
records last programmed to journal hosts A and B. -/
structure JSlot where
  quire    : Nat
  width    : Nat
  parity   : Nat
  written  : Nat
  mirA     : Nat
  mirB     : Nat
  sb       : Nat
  row      : Nat
  jseq     : Nat
  parityFailed : Bool
deriving DecidableEq, Repr

/-- Furrow states (Table 06-5). -/
inductive FState where
  | free | open | paused | draining
deriving DecidableEq, Repr

/-- A unit packed into a Furrow's SLC row and not yet known to be programmed. -/
structure Packed where
  pua  : Nat
  ns   : Nat
  iu   : Nat
  gen  : Nat
  tag  : Nat
  done : Bool
deriving DecidableEq, Repr

/-- A Furrow (R168 and the TC_FURROW window). -/
structure Furrow where
  st     : FState
  kind   : Nat
  quire  : Nat
  ns     : Option Nat
  slcSb  : Option Nat
  qlcSb  : Option Nat
  slcRow : Nat
  qlcRow : Nat
  pack   : List Packed
  nextUnit : Nat
  staged : List ProgUnit
  binding : Nat
  unitsWritten : Nat
  unitsFolded  : Nat
  reopen : Bool
deriving DecidableEq, Repr

/-- What a ring image on media says (Table 17-2), and the superblocks that hold it, by Quire. -/
structure RingImg where
  seq      : Nat
  hmacOk   : Bool
  unwrapOk : Bool
  sanRunning : Bool
  sanAction  : Nat
  ndas     : Bool
  sanFailed : Bool
  gens     : List (Nat × Nat × Nat)   -- namespace, key generation, key_change_seq
  places   : List (Nat × Nat)
deriving DecidableEq, Repr

/-- A unit the full scan found (R177). -/
structure ScanUnit where
  ns      : Nat
  iu      : Nat
  gen     : Nat
  openSeq : Nat
  pua     : Nat
  keyGen  : Nat
  checkOk : Bool
  staged  : Bool
deriving DecidableEq, Repr

/-- A checkpoint segment as loaded (R176). -/
structure CkptSeg where
  idx     : Nat
  capture : Nat
  entries : List (Nat × MapEntry)
deriving DecidableEq, Repr

/-- What the superblock tables record of a Quire (R226, R156, R304). -/
structure QuireRec where
  quire    : Nat
  width    : Nat
  serials  : List (BitVec 128)
  geoms    : List Digest
  slcShare : Nat
  opPm     : Nat
  ucapUnits : Nat
  spares   : List (Nat × Nat)
  sparesFirst : Nat
  seqNum   : Option Nat
  hosts    : List Nat
  released : List Nat
deriving DecidableEq, Repr

/-- A tenant contract record (Table 05-4). `none` rates are unlimited. -/
structure Contract where
  cls        : Nat
  save       : Bool
  readRate   : Option Nat
  writeRate  : Option Nat
  readBurst  : Nat
  writeBurst : Nat
  slotReserve : Nat
  slotCap    : Nat
  writeOwner : Nat
  weight     : Nat
deriving DecidableEq, Repr

/-- A record of Table 16-1, less its length and CRC, which its fields determine. -/
structure LRec where
  seq     : Nat
  code    : Nat
  src     : Nat
  ts      : Nat
  payload : List Byte
deriving DecidableEq, Repr

/-- Everything ASSEMBLE read back from the media for the map restore (R176, R177, R220, R226, R240, R436). `sbs`, `zones` and
`retired` are the tables after the replay of the RELEASE, ERASED, RETIRED and ZONE_IMAGE records, the valid counts of `sbs`
counting zoned data alone; `units` lists the units that
the restored tables and summaries name, `scan` those that the full scan of R177 found in superblocks opened later, `jrnl`
the records in order, and `regions` the journal region blocks in use: block key, pages written, order begun, and records by Furrow and jseq. -/
structure RestoreIn where
  sealed    : Bool
  scanOk    : Bool
  segs      : List CkptSeg
  jrnl      : List JRec
  units     : List ScanUnit
  scan      : List ScanUnit
  nss       : List (Nat × Nsp)
  zones     : List (Nat × Zone)
  sbs       : List (Nat × Superblock)
  furrows   : List (Nat × Furrow)
  quires    : List QuireRec
  ring      : List RingImg
  retired   : List (Nat × Nat)
  feats     : List (Nat × W32)
  apst      : List Byte
  contracts : List (Nat × Contract)
  jslots    : List (Nat × JSlot)
  jslotsScanned : List (Nat × JSlot)
  regions   : List (Nat × Nat × Nat × List (Nat × Nat))
  vrefs     : List (Nat × BitVec 128)
  jseq      : Nat
  openSeq   : Nat
  orphans   : List Nat
  lost      : List (Nat × LbaRange)
  volume    : Nat
  vol       : List LRec
  volOver   : Nat
  volFull   : Bool
  prevVol   : List LRec
  prevOver  : Nat
deriving DecidableEq, Repr

/-- What a patrolled codeword of a row showed: data leaf index `k` (the width less 1 is the parity), codeword
position, rung reached (0 hard, 1 soft-2, 2 soft-3, 3 retry, 4 unresolved) and whether its checks passed. -/
structure PatrolCw where
  k    : Nat
  cw   : Nat
  rung : Nat
  tagOk : Bool
  iuNs : Nat
  iu   : Nat
  pua  : Nat
  recon : Bool
deriving DecidableEq, Repr

/-- A module's monitor region (Table 10-5), the two temperatures in 0.25 °C. -/
structure MonRegion where
  nand    : Int
  bridge  : Int
  current : Nat
  voltage : Nat
  aux     : Nat
  count   : Nat
deriving DecidableEq, Repr

/-- Who a DRAM read serves, for Table 13-5: host data DMA of a command, a codec encoding a unit for a program, a load of a
management core, the map walker for a leaf read, the Signature journal port for a Furrow's slot, or a consumer that
carries the mark onward. -/
inductive DramReader where
  | hostDma (cs : Nat)
  | encode (pua : Nat)
  | core (lp : Nat)
  | mapWalk (rid : Nat)
  | journal (furrow : Nat)
  | other
deriving DecidableEq, Repr

/-- A duplicated engine (R404): the domain it sits in and its number there. -/
structure EngineUnit where
  dom  : Nat
  unit : Nat
deriving DecidableEq, Repr

/-- An SPDM request as received: the version byte, Param1 and Param2, the bytes after them, the session it came in, and
whether its authentication (AEAD tag, or the HMAC of FINISH) verifies. -/
structure SpdmReq where
  version : Nat
  param1  : Nat
  param2  : Nat
  body    : List Byte
  session : Option Nat
  authOk  : Bool
deriving DecidableEq, Repr

/-- The IDE_KM objects that control keys (R102). -/
inductive IdeOp where
  | query | keyProg | setGo | setStop
deriving DecidableEq, Repr

/-- An IDE_KM request: the session it came in, the object, the stream, the key set, whether it is for the receive direction,
the sub-stream, and whether the key material is well formed. -/
structure IdeKm where
  session : Option Nat
  op      : IdeOp
  stream  : Nat
  keySet  : Nat
  rx      : Bool
  sub     : Nat
  keyOk   : Bool
deriving DecidableEq, Repr

/-- An NVMe-MI request message: its two dwords and its data. -/
structure MiReq where
  dw0  : W32
  dw1  : W32
  body : List Byte
deriving DecidableEq, Repr

/-- The transport an SPDM request came by (R103, R120). -/
inductive SpdmVia where
  | doe (p : Port)
  | mctp
deriving DecidableEq, Repr

/-- The transport an NVMe-MI request came by (R121). -/
inductive MiVia where
  | mctp
  | inBand (cs : Nat)
deriving DecidableEq, Repr

/-- A sparse table: key and value pairs with strictly rising keys. What an unlisted key means is said by each
operation that reads the table. -/
abbrev Tbl (α : Type) := List (Nat × α)

/-- What an SQ_FETCH_COMPLETE brings: the 64-byte entries as fetched, or a fetch that failed (R143). -/
inductive FetchRes where
  | entries (l : List (BitVec 512))
  | failed
deriving DecidableEq, Repr

/-- A completion queue entry as the device posts it, less the queue identifiers and phase (R133, R475). -/
structure Cqe where
  sct  : Nat
  sc   : Nat
  dnr  : Bool
  crd  : Nat
  dw0  : W32
  dw1  : W32
deriving DecidableEq, Repr

/-- The sources of the system reference clock (R26). -/
inductive RefSel where
  | boot | a | b
deriving DecidableEq, Repr

end Sys2Proof.Machine
end

