-- ==== Sys2Proof/Syntax.lean ====
section
/-! DEFINITION. The commands of the Cerdoyx CX-512, one constructor for each row of spec/opcode_table.json.
Operands are what the command brings with it; a row without operands acts on State alone. The rows
without operands stand last. -/

namespace Sys2Proof

open Sys2Proof.Machine

/-- The 257 commands. Each docstring gives the row's summary and the rule of spec/ it names. -/
inductive Instr where
  /-- `POR_N_DEASSERT` (R36): Deassertion of POR_N starts the power-up of AON, WDN, fuse sensing and SB0, which ends
  in AWAIT_IMAGE with the 600 s window running. -/
  | porNDeassert (straps : BitVec 4)
  /-- `PERST_ASSERT` (R94): Assertion of PERST_A_N or PERST_B_N resets that port's PHY, link and functions; in
  AWAIT_IMAGE or VERIFY on the boot port it discards staged material and releases the boot port role. -/
  | perstAssert (p : Port)
  /-- `PERST_DEASSERT` (R94): Deassertion of a port's PERST_x_N starts its link training afresh. -/
  | perstDeassert (p : Port)
  /-- `LINK_DL_ACTIVE` (R37): A host port reaches DL_Active; the first to do so after its PERST_x_N deassertion
  becomes the boot port and its PF enumerates. -/
  | linkDlActive (p : Port) (rate : Nat) (width : Nat) (flit : Bool)
  /-- `SURPRISE_LINK_DOWN` (R94): A host port goes to DL_Down without PERST_x_N; commands on it end as for a port
  loss and its functions return to their configuration-reset state. -/
  | surpriseLinkDown (p : Port)
  /-- `REFCLK_LOST` (R26): The reference monitor sees no edge for 1 µs; the PLLs enter holdover and the multiplexer
  switches to the other reference if it is present. -/
  | refclkLost (p : Port)
  /-- `TEMP_SAMPLE` (R382): Every 32 AON ticks each sensor is converted, outliers are excluded or readmitted, and
  region and junction temperatures are recomputed. -/
  | tempSample (temps : List Int)
  /-- `RAIL_SAMPLE` (R381): Every 1 ms the rail monitors measure package power from IMON_CORE and IMON_AUX. -/
  | railSample (vcore : Nat) (icore : Nat) (iaux : Nat)
  /-- `HELLO` (R48): Mailbox HELLO reports device identity and limits, records the nonce in AWAIT_IMAGE on the boot
  port, and in DORMANT starts a new AWAIT_IMAGE window. -/
  | hello (p : Port) (k : KmbPkt)
  /-- `BEGIN_IMAGE` (R50): Mailbox BEGIN_IMAGE discards any partly staged Folio and starts staging one of the given
  folio_size. -/
  | beginImage (p : Port) (k : KmbPkt)
  /-- `WRITE_CHUNK` (R50): Mailbox WRITE_CHUNK stages a 4 KiB-aligned chunk of the Folio from host memory into SB0.
  -/
  | writeChunk (p : Port) (k : KmbPkt) (dma : DmaIn)
  /-- `END_IMAGE` (R55): Mailbox END_IMAGE, given an accepted Imposition and a fully staged Folio, enters VERIFY and
  starts verification. -/
  | endImage (p : Port) (k : KmbPkt)
  /-- `PUT_IMPOSITION` (R477): Mailbox PUT_IMPOSITION stages and checks the Imposition, measures it on acceptance,
  and powers the enabled slots to match. -/
  | putImposition (p : Port) (k : KmbPkt) (dma : DmaIn)
  /-- `GET_STATUS` (R48): Mailbox GET_STATUS reports the last failure and boot progress, from the AON copy in
  DORMANT. -/
  | getStatus (p : Port) (k : KmbPkt)
  /-- `GET_COLOPHON` (R479): Mailbox GET_COLOPHON writes a range of the signed Boot Colophon to host memory. -/
  | getColophon (p : Port) (k : KmbPkt)
  /-- `GET_LEDGER` (R479): Mailbox GET_LEDGER writes whole ledger records from the main ledger or the AON early
  buffer to host memory. -/
  | getLedger (p : Port) (k : KmbPkt)
  /-- `ENROLL_OWNER_ENROL` (R57): Mailbox ENROLL_OWNER with action 0 checks the blob and blows the fuses that enrol
  an owner slot. -/
  | enrollOwnerEnrol (p : Port) (k : KmbPkt) (dma : DmaIn)
  /-- `ENROLL_OWNER_REVOKE` (R57): Mailbox ENROLL_OWNER with action 1 checks the blob and blows the revoked fuse of
  an active owner slot. -/
  | enrollOwnerRevoke (p : Port) (k : KmbPkt) (dma : DmaIn)
  /-- `ABORT_LOAD` (R50): Mailbox ABORT_LOAD discards and zeroes the staged Folio and Imposition. -/
  | abortLoad (p : Port) (k : KmbPkt)
  /-- `DRAM_TRAINING_DONE` (R354): Training of a DRAM channel ends, leaving it in service or excluded until the next
  boot. -/
  | dramTrainingDone (ch : Nat) (res : TrainRes)
  /-- `COLOPHON_READ_DONE` (R299): The Module Colophon read of a slot finishes and the colophon is validated against
  the checks of Table 10-3. -/
  | colophonReadDone (slot : Nat) (bytes : Option (List Byte))
  /-- `COLOPHON_READ_RETRY` (R294): The 10 ms retry timer of a colophon read expires while the bridge has not yet
  answered, up to 100 ms after GRST_N deassertion. -/
  | colophonReadRetry (slot : Nat) (answered : Bool)
  /-- `MAP_RESTORE_DONE` (R176): Map restore from the sealed checkpoints and journal, or from the full scan,
  finishes in ASSEMBLE. -/
  | mapRestoreDone (r : RestoreIn)
  /-- `HU_TEST_DONE` (R392): The capacitor discharge test ends with a result, and the dirty ceiling is recomputed.
  -/
  | huTestDone (o : HuOutcome)
  /-- `PD_REQUEST` (R24): A write of go to WDN_PD_REQ submits a power-domain request, which the sequencer carries
  out or refuses. -/
  | pdRequest (domain : Nat) (target : Nat)
  /-- `DOMAIN_POWER_UP_DONE` (R20): A domain finishes its ramp or wake and reports ON, waiting work proceeds, and
  the next waiting ramp starts. -/
  | domainPowerUpDone (dom : Nat)
  /-- `DOMAIN_DRAIN_DONE` (R21): A domain going OFF has finished every accepted operation and its power is removed.
  -/
  | domainDrainDone (dom : Nat)
  /-- `IDLE_GATE_TIMEOUT` (R82): A Demand domain outside the warm floor has been without work for idle_gate_us and
  is gated. -/
  | idleGateTimeout (dom : Nat)
  /-- `DOMAIN_FAILED` (R404): A unit disagrees a third time within 1 ms, or a domain fails to power up, and its
  domain is declared failed and taken OFF. -/
  | domainFailed (dom : Nat)
  /-- `WARM_FLOOR_WRITE` (R87): A write to WDN_WARM_FLOOR sets the explicit warm floor, or is ignored under the
  automatic policy or when out of range. -/
  | warmFloorWrite (v : W32)
  /-- `IDLE_GATE_WRITE` (R87): A write to WDN_IDLE_GATE sets idle_gate_us, or is ignored when out of range. -/
  | idleGateWrite (v : W32)
  /-- `APST_TRANSITION` (R79): An autonomous power state transition selects PS3 or PS4 after its idle time. -/
  | apstTransition (ps : Nat)
  /-- `CONTROLLER_ENABLE` (R39): A write of CC.EN = 1 enables a controller, held until the entry mode is reached and
  failing with CSTS.CFS on bad entry sizes. -/
  | controllerEnable (fn : Fn) (cc : W32)
  /-- `CONTROLLER_RESET` (R139): A write of CC.EN = 0 stops fetching, ends uncommitted commands, discards
  completions and clears CSTS.RDY once the slots are free. -/
  | controllerReset (fn : Fn) (cc : W32)
  /-- `SHUTDOWN_NOTIFICATION` (R140): A write of CC.SHN stops fetching for the controller, lets its commands finish,
  persists the ledger on a PF, and sets CSTS.SHST. -/
  | shutdownNotification (fn : Fn) (cc : W32)
  /-- `FUNCTION_LEVEL_RESET` (R119): A Function Level Reset resets a VF controller, or a PF controller with all its
  VFs, as a controller reset. -/
  | functionLevelReset (fn : Fn)
  /-- `SQ_TAIL_DOORBELL` (R123): A submission tail doorbell write marks a queue non-empty, or is discarded as
  invalid, and ends IDLE. -/
  | sqTailDoorbell (fn : Fn) (qid : Nat) (v : Nat)
  /-- `CQ_HEAD_DOORBELL` (R135): A completion head doorbell write frees completion queue space so held completions
  can be posted. -/
  | cqHeadDoorbell (fn : Fn) (qid : Nat) (v : Nat)
  /-- `SQ_FETCH_COMPLETE` (R123): Fetched submission entries arrive and each takes a command slot, or a failed fetch
  sets CSTS.CFS on that controller. -/
  | sqFetchComplete (fn : Fn) (qid : Nat) (res : FetchRes)
  /-- `COMMAND_CLASSIFIED` (R324): The classification search returns tenant and namespace for a command, or a miss
  ends it with Invalid Namespace or Format. -/
  | commandClassified (cs : Nat) (lost : Bool)
  /-- `DELETE_IO_SQ` (R107): Admin Delete I/O Submission Queue removes an I/O submission queue. -/
  | deleteIoSq (cs : Nat)
  /-- `CREATE_IO_SQ` (R107): Admin Create I/O Submission Queue creates an I/O submission queue of IDs 1 to 128 on a
  PF or 1 to 16 on a VF. -/
  | createIoSq (cs : Nat)
  /-- `GET_LOG_PAGE` (R111): Admin Get Log Page returns a supported log page, including the vendor pages 0xC0 to
  0xC5. -/
  | getLogPage (cs : Nat)
  /-- `DELETE_IO_CQ` (R107): Admin Delete I/O Completion Queue removes an I/O completion queue. -/
  | deleteIoCq (cs : Nat)
  /-- `CREATE_IO_CQ` (R107): Admin Create I/O Completion Queue creates an I/O completion queue. -/
  | createIoCq (cs : Nat)
  /-- `IDENTIFY` (R105): Admin Identify returns the controller, namespace and list structures of the supported CNS
  values. -/
  | identify (cs : Nat)
  /-- `ABORT` (R137): Admin Abort looks up the named command and aborts it if it has not reached its commit point.
  -/
  | abort (cs : Nat)
  /-- `SET_FEATURES` (R110): Admin Set Features sets a supported feature, device-wide for subsystem scope, with
  saving where saveable. -/
  | setFeatures (cs : Nat) (dma : DmaIn)
  /-- `GET_FEATURES` (R110): Admin Get Features returns the current, default or saved value of a supported feature.
  -/
  | getFeatures (cs : Nat)
  /-- `ASYNC_EVENT_REQUEST` (R115): Admin Asynchronous Event Request is held until a pending or new enabled event
  completes it. -/
  | asyncEventRequest (cs : Nat)
  /-- `NAMESPACE_CREATE` (R157): Namespace Management create admits a namespace against the map budget, Quire
  capacity, Furrows and zone checks, and homes it on a Quire. -/
  | namespaceCreate (cs : Nat) (dma : DmaIn)
  /-- `NAMESPACE_DELETE` (R443): Namespace Management delete detaches the namespace from every controller and
  performs a key change that erases it. -/
  | namespaceDelete (cs : Nat)
  /-- `NAMESPACE_ATTACH` (R145): Namespace Attachment attach binds a namespace to PF controllers or one tenant's two
  controllers and writes its classification entry. -/
  | namespaceAttach (cs : Nat) (dma : DmaIn)
  /-- `NAMESPACE_DETACH` (R324): Namespace Attachment detach removes the namespace's classification entry before
  completing. -/
  | namespaceDetach (cs : Nat) (dma : DmaIn)
  /-- `FIRMWARE_IMAGE_DOWNLOAD` (R114): Admin Firmware Image Download stages a 4 KiB-aligned piece of a Folio in the
  DRAM staging area. -/
  | firmwareImageDownload (cs : Nat) (dma : DmaIn)
  /-- `FIRMWARE_COMMIT` (R114): Admin Firmware Commit with action 0b011 checks the staged Folio, raises Firmware
  Activation Starting and starts the drain of a runtime activation. -/
  | firmwareCommit (cs : Nat)
  /-- `DEVICE_SELF_TEST` (R107): Admin Device Self-test starts a short or extended test of link, LDPC and DRAM
  patrol checks. -/
  | deviceSelfTest (cs : Nat)
  /-- `DEVICE_SELF_TEST_DONE` (R107): A running device self-test ends and its result is logged. -/
  | deviceSelfTestDone (ok : Bool)
  /-- `VIRTUALIZATION_MANAGEMENT` (R107): Admin Virtualization Management brings a secondary controller online or
  offline. -/
  | virtualizationManagement (cs : Nat)
  /-- `NVME_MI_SEND` (R121): Admin NVMe-MI Send carries an in-band NVMe-MI request of the supported subset. -/
  | nvmeMiSend (cs : Nat) (dma : DmaIn)
  /-- `NVME_MI_RECEIVE` (R121): Admin NVMe-MI Receive returns an in-band NVMe-MI response of the supported subset.
  -/
  | nvmeMiReceive (cs : Nat)
  /-- `FORMAT_NVM` (R443): Admin Format NVM formats one namespace, with a key change for SES 0b010, and applies its
  new LBA format. -/
  | formatNvm (cs : Nat)
  /-- `SANITIZE_CRYPTO_ERASE` (R446): Sanitize Crypto Erase changes the keys of every namespace and completes once a
  ring image marked running is durable. -/
  | sanitizeCryptoErase (cs : Nat)
  /-- `SANITIZE_BLOCK_ERASE` (R446): Sanitize Block Erase performs a crypto erase and then erases every block of
  every admitted Gathering in the background. -/
  | sanitizeBlockErase (cs : Nat)
  /-- `SANITIZE_EXIT_FAILURE_MODE` (R448): Sanitize Exit Failure Mode leaves sanitize failure mode where AUSE allows
  it. -/
  | sanitizeExitFailureMode (cs : Nat)
  /-- `SANITIZE_DONE` (R447): A background Sanitize ends with a durable ring image, in success or in failure mode.
  -/
  | sanitizeDone (ok : Bool)
  /-- `GET_LBA_STATUS` (R107): Admin Get LBA Status reports unrecoverable LBAs listed after a double fault. -/
  | getLbaStatus (cs : Nat)
  /-- `LEDGER_NEW_VOLUME` (R429): Vendor Ledger New Volume persists the ledger, discards the previous volume, clears
  the main ledger and starts a new volume. -/
  | ledgerNewVolume (cs : Nat)
  /-- `TENANT_CONTRACT_SET` (R146): Vendor Tenant Contract Set checks and applies a tenant's contract within 10 µs,
  saving it when asked. -/
  | tenantContractSet (cs : Nat) (dma : DmaIn)
  /-- `TENANT_CONTRACT_GET` (R144): Vendor Tenant Contract Get returns a tenant's contract in force. -/
  | tenantContractGet (cs : Nat)
  /-- `QUIRE_PATROL_NOW` (R255): Quire Control action 0x01 runs the rest of the current patrol pass at the highest
  background rate. -/
  | quirePatrolNow (cs : Nat) (dma : DmaIn)
  /-- `QUIRE_SET_PERIOD` (R255): Quire Control action 0x02 sets patrol_hours and shortens the effective period if
  needed. -/
  | quireSetPeriod (cs : Nat) (dma : DmaIn)
  /-- `QUIRE_SET_MODE` (R207): Quire Control action 0x03 sets a Quire to Throughput or Strict mode. -/
  | quireSetMode (cs : Nat) (dma : DmaIn)
  /-- `QUIRE_RELEASE_MEMBER` (R253): Quire Control action 0x04 starts the release of a member. -/
  | quireReleaseMember (cs : Nat) (dma : DmaIn)
  /-- `QUIRE_START_RESPREAD` (R252): Quire Control action 0x05 starts a re-spread, or a rebuild held for lack of
  spare. -/
  | quireStartRespread (cs : Nat) (dma : DmaIn)
  /-- `QUIRE_CANCEL_RELEASE` (R255): Quire Control action 0x06 returns a RELEASING member to ACTIVE. -/
  | quireCancelRelease (cs : Nat) (dma : DmaIn)
  /-- `HOLD_UP_TEST_NOW` (R392): Vendor Hold-Up Test Now runs the capacitor test and resets the 24 h interval. -/
  | holdUpTestNow (cs : Nat)
  /-- `FLUSH` (R138): I/O Flush completes within 5 µs of classification once earlier completed writes are in the
  protected buffer. -/
  | flush (cs : Nat)
  /-- `WRITE` (R28): I/O Write is charged, obtains buffer space and transfers its data, commits at its Collation
  insertion and completes. -/
  | write (cs : Nat)
  /-- `READ` (R29): I/O Read is charged, served from the write buffer by overlap search and otherwise from media,
  and completes after its data DMA. -/
  | read (cs : Nat)
  /-- `WRITE_ZEROES` (R184): I/O Write Zeroes writes zeros or, with Deallocate on a conventional namespace,
  deallocates the range. -/
  | writeZeroes (cs : Nat)
  /-- `DATASET_MANAGEMENT` (R184): I/O Dataset Management deallocates up to 256 ranges of a conventional namespace.
  -/
  | datasetManagement (cs : Nat) (dma : DmaIn)
  /-- `VERIFY` (R108): I/O Verify reads, decodes and checks tags of a range without transfer. -/
  | verify (cs : Nat)
  /-- `IO_MANAGEMENT_RECEIVE` (R166): I/O Management Receive returns Reclaim Unit Handle Status of an FDP namespace.
  -/
  | ioManagementReceive (cs : Nat)
  /-- `IO_MANAGEMENT_SEND` (R166): I/O Management Send performs Reclaim Unit Handle Update, folding the Furrow's
  staging and closing its superblock. -/
  | ioManagementSend (cs : Nat) (dma : DmaIn)
  /-- `ZONE_OPEN` (R164): Zone Management Send Open opens a zone and gives it a Furrow. -/
  | zoneOpen (cs : Nat)
  /-- `ZONE_CLOSE` (R164): Zone Management Send Close closes a zone and pauses its Furrow. -/
  | zoneClose (cs : Nat)
  /-- `ZONE_FINISH` (R164): Zone Management Send Finish sets wp to ZCAP and drains the zone's Furrow. -/
  | zoneFinish (cs : Nat)
  /-- `ZONE_RESET` (R164): Zone Management Send Reset invalidates a zone's data and returns its Furrow to FREE. -/
  | zoneReset (cs : Nat)
  /-- `ZONE_OFFLINE` (R108): Zone Management Send Offline takes a zone offline. -/
  | zoneOffline (cs : Nat)
  /-- `ZONE_MANAGEMENT_RECEIVE` (R108): Zone Management Receive returns Report Zones data. -/
  | zoneManagementReceive (cs : Nat)
  /-- `ZONE_APPEND` (R163): I/O Zone Append is placed at the zone's wp at its Collation insertion and returns that
  LBA. -/
  | zoneAppend (cs : Nat)
  /-- `WRITE_DATA_RECEIVED` (R134): All data of a write is in the buffer, so its range entries are inserted and
  activated, which is its commit point. -/
  | writeDataReceived (cs : Nat) (dma : DmaIn)
  /-- `COLLATION_REMOVE` (R322): A range entry is removed by tag after its map update, oldest overlapping first. -/
  | collationRemove (tag : Nat)
  /-- `READER_RELEASE` (R322): A read finishes copying from a buffered entry and its reader count falls, releasing
  the buffer when a removed entry reaches 0. -/
  | readerRelease (cs : Nat) (tag : Nat)
  /-- `MAP_WALK_DONE` (R199): The map walk returns a leaf's PUA and the read path decides direct, suspend or read-
  around. -/
  | mapWalkDone (rid : Nat)
  /-- `REDECIDE_TIMER` (R204): A direct read still queued 10 µs past its predicted start is decided once more. -/
  | redecideTimer (rid : Nat)
  /-- `SUSPEND_WINDOW_TIMEOUT` (R203): sus_window passes since an operation was suspended, and it is resumed. -/
  | suspendWindowTimeout (slot : Nat) (die : Nat)
  /-- `PROG_DEFER_TIMEOUT` (R197): A granted program or erase held back behind deadline reads has waited
  prog_defer_max and is issued. -/
  | progDeferTimeout (id : Nat)
  /-- `DIE_WARM_TIMER` (R221): 60 s after a die's first operation it becomes warm. -/
  | dieWarmTimer (slot : Nat) (die : Nat)
  /-- `STRICT_WRITE_WINDOW` (R209): A 100 ms window of a Strict Quire's host write rate ends and LC0 reads are
  counted outside the conditions if it exceeded 20 % of W_strict. -/
  | strictWriteWindow (q : Nat)
  /-- `DECODE_DONE` (R210): A codeword decode ends; on failure the next rung of the ladder starts, and on success
  the tag and binding checks follow. -/
  | decodeDone (rid : Nat) (cw : Nat) (d : DecodeIn)
  /-- `RECONSTRUCTION_DONE` (R214): The XOR of the row's other codewords yields the unit, which is tag-checked and
  served or fails. -/
  | reconstructionDone (rid : Nat) (cw : Nat) (f : Option Frame)
  /-- `FOLD_START` (R174): A fold starts on a Quire when its SLC pool falls below the weir, a Furrow drains, or it
  has been idle of writes for 100 ms. -/
  | foldStart (q : Nat)
  /-- `GC_START` (R178): Garbage collection starts on a Quire when its free QLC superblocks fall to gc_start and
  picks a victim. -/
  | gcStart (q : Nat)
  /-- `ERASE_GATE_RELEASE` (R179): A released superblock's RELEASE record is durable and its readers have finished,
  so the erase gate issues its erase. -/
  | eraseGateRelease (q : Nat) (sb : Nat)
  /-- `GC_WEIR_WRITE` (R178): A write to TC_GC_WEIR sets the collection and fold weirs, or is ignored when
  inconsistent. -/
  | gcWeirWrite (v : W32)
  /-- `REBUILD_START` (R245): Within 1 s of a member loss the rebuild of the Quire starts if the present members can
  hold its data. -/
  | rebuildStart (q : Nat)
  /-- `JOURNAL_REGION_RECLAIM` (R238): With less than a quarter of a host's journal region free, live records of its
  oldest block are rewritten and the block erased. -/
  | journalRegionReclaim (slot : Nat)
  /-- `PATROL_ROW_DUE` (R243): The patrol rate timer brings the next row of a pass to be read, decoded, tag-checked
  and compared with parity. -/
  | patrolRowDue (q : Nat) (sb : Nat) (row : Nat) (cws : List PatrolCw) (mismatch : Bool)
  /-- `PATROL_PERIOD_END` (R243): A patrol period ends with its pass unfinished and EV_SIG_PATROL_LATE is recorded.
  -/
  | patrolPeriodEnd (q : Nat)
  /-- `CPL_RECEIVED` (R271): A CPL flit completes an operation; its status is acted on, its tag freed when its data
  is in, and its Sluice grant returned. -/
  | cplReceived (slot : Nat) (c : Cpl)
  /-- `DATA_FLIT_RECEIVED` (R273): A DATA flit of a READ is accepted into staging, or its count or shape is a
  protocol violation. -/
  | dataFlitReceived (slot : Nat) (tag : Nat) (last : Bool) (shapeOk : Bool)
  /-- `LCTL_RECEIVED` (R267): An LCTL flit carries cumulative acknowledgement, NAK, credit returns or low-power
  handshake bits. -/
  | lctlReceived (slot : Nat) (m : Lctl)
  /-- `INIT_RECEIVED` (R266): An INIT flit from the module is checked and, once both ends have seen each other, the
  link becomes ACTIVE and resends from the named fseq. -/
  | initReceived (slot : Nat) (m : InitPl)
  /-- `FLIT_CRC_ERROR` (R264): A flit fails its CRC or arrives out of sequence; it is discarded and a NAK naming the
  last accepted fseq is sent. -/
  | flitCrcError (slot : Nat)
  /-- `PONG_RECEIVED` (R279): A PONG MGMT message answers a PING and counts as forward progress. -/
  | pongReceived (slot : Nat)
  /-- `AUTH_RESPONSE_RECEIVED` (R280): An AUTH_RESPONSE is verified against the colophon's key, the session secret
  formed and AUTH_CONFIRM sent. -/
  | authResponseReceived (slot : Nat) (qm : BitVec 776) (sig : BitVec 768)
  /-- `AUTH_CONFIRM_RECEIVED` (R280): The module's AUTH_CONFIRM is checked and the link is authenticated. -/
  | authConfirmReceived (slot : Nat) (hmac : Digest)
  /-- `REAUTH_RESPONSE_RECEIVED` (R281): A REAUTH_RESPONSE HMAC is checked after a training through DETECT. -/
  | reauthResponseReceived (slot : Nat) (hmac : Digest)
  /-- `NOTICE_RECEIVED` (R279): A module NOTICE reports a die fault, handled as DIE_FAULT, or an internal error that
  is recorded. -/
  | noticeReceived (slot : Nat) (code : Nat) (die : Nat)
  /-- `ACK_TIMER` (R264): 500 ns pass with flits unacknowledged and an LCTL carrying the last accepted fseq is sent.
  -/
  | ackTimer (slot : Nat)
  /-- `REPLAY_TIMER` (R264): The replay timer expires without an advancing acknowledgement and every unacknowledged
  flit is resent; the fourth in a row moves the link to RECOVERY. -/
  | replayTimer (slot : Nat)
  /-- `SILENCE_TIMER` (R275): No flit is received for 1 µs and the link enters RECOVERY. -/
  | silenceTimer (slot : Nat)
  /-- `BLOCK_LOCK_LOST` (R260): Block lock is lost on a lane and the link enters RECOVERY. -/
  | blockLockLost (slot : Nat) (lane : Nat)
  /-- `LOCK_REGAINED` (R260): Lock is regained at the same width in RECOVERY and the link returns to ACTIVE. -/
  | lockRegained (slot : Nat)
  /-- `RECOVERY_TIMER` (R260): 50 µs in RECOVERY without success move the link to TRAIN. -/
  | recoveryTimer (slot : Nat)
  /-- `PARTNER_DETECTED` (R260): The partner receiver is detected and the link moves from DETECT to TRAIN. -/
  | partnerDetected (slot : Nat)
  /-- `TRAINING_DONE` (R260): Bit lock, block alignment and equalisation finish on the widest working lane set and
  the link enters INIT. -/
  | trainingDone (slot : Nat) (width : Nat) (reversed : Bool)
  /-- `TRAINING_TIMEOUT` (R260): TRAIN or INIT exceeds its bound and the link returns to DETECT. -/
  | trainingTimeout (slot : Nat)
  /-- `INIT_RESEND_TIMER` (R266): Every 1 µs in INIT the controller sends an INIT flit again. -/
  | initResendTimer (slot : Nat)
  /-- `LOW_POWER_EXIT` (R290): Either end sends the exit pattern and the link returns to ACTIVE within 40 µs. -/
  | lowPowerExit (slot : Nat)
  /-- `OPERATION_TIMER` (R277): An operation's timer expires; STATUS is issued and the die is declared failed on a
  second expiry or a faulted answer. -/
  | operationTimer (slot : Nat) (tag : Nat)
  /-- `PROGRESS_PROBE_TIMER` (R275): 1 ms without forward progress while operations are outstanding sends a MGMT
  PING. -/
  | progressProbeTimer (slot : Nat)
  /-- `UNRESPONSIVE_TIMER` (R278): 5 ms without forward progress declare the module unresponsive, its member LOST,
  and its slot reset and powered off. -/
  | unresponsiveTimer (slot : Nat)
  /-- `UNRESPONSIVE_POWER_CYCLE` (R278): 1 s after an unresponsive module was powered off, its slot is powered again
  once. -/
  | unresponsivePowerCycle (slot : Nat)
  /-- `AUTH_TIMEOUT` (R282): An authentication or re-authentication response misses its timer and the link is
  quarantined. -/
  | authTimeout (slot : Nat)
  /-- `LINK_RETRAIN` (R291): A write of retrain to GL_LNK_CMD moves an ACTIVE link to RECOVERY. -/
  | linkRetrain (slot : Nat)
  /-- `LINK_QUARANTINE_REQUEST` (R284): A write of quarantine to GL_LNK_CMD requests quarantine with reason 0x6,
  refused if it would break a Quire. -/
  | linkQuarantineRequest (slot : Nat)
  /-- `SLOT_POWER_ON` (R291): GL_SB_CMD action 0b01 powers a slot on, unless refused. -/
  | slotPowerOn (slot : Nat)
  /-- `SLOT_POWER_OFF` (R291): GL_SB_CMD action 0b10 powers a slot off, unless refused. -/
  | slotPowerOff (slot : Nat)
  /-- `SLOT_RESET_PULSE` (R291): GL_SB_CMD action 0b11 pulses a slot's GRST_N for 10 ms and discards its session
  secret. -/
  | slotResetPulse (slot : Nat)
  /-- `SLOT_RESET_RELEASE_TIMER` (R286): 20 ms after GPWREN, or at the end of a reset pulse, a slot's GRST_N is
  deasserted. -/
  | slotResetReleaseTimer (slot : Nat)
  /-- `SLOT_INSERTION` (R287): GPRSNT_N held low for 100 ms is accepted as an insertion, which powers, reads,
  trains, authenticates and admits the module. -/
  | slotInsertion (slot : Nat)
  /-- `SLOT_REMOVAL` (R288): GPRSNT_N held high for 1 ms declares a removal; the slot is powered off and the loss
  handled. -/
  | slotRemoval (slot : Nat)
  /-- `QUARANTINE_RELEASE_TIMER` (R285): GPRSNT_N released for 1 s frees a quarantined or refused slot. -/
  | quarantineReleaseTimer (slot : Nat)
  /-- `MODULE_ALERT` (R307): A module asserts GALERT_N; its alert status is read and cleared and each bit acted on.
  -/
  | moduleAlert (slot : Nat) (bits : BitVec 32)
  /-- `ALERT_STUCK_TIMER` (R307): GALERT_N stays asserted 100 ms after its bits were cleared and is masked for the
  slot. -/
  | alertStuckTimer (slot : Nat)
  /-- `MONITOR_POLL` (R306): Every poll_ms the monitor region of each admitted module is read and the module weirs
  evaluated. -/
  | monitorPoll (slot : Nat) (r : Option MonRegion)
  /-- `MODULE_THROTTLE_STEP_TIMER` (R387): The rise or fall timer of a module's throttle count changes k_s by one.
  -/
  | moduleThrottleStepTimer (slot : Nat)
  /-- `I3C_BUS_STUCK` (R308): A sideband bus holds SDA low and bus recovery starts. -/
  | i3cBusStuck (bus : Nat)
  /-- `I3C_BUS_RECOVERY_TIMEOUT` (R308): A stuck bus is not recovered within 10 ms and is marked failed. -/
  | i3cBusRecoveryTimeout (bus : Nat)
  /-- `GRANT_REQUEST` (R379): An operation asks the Sluice for its charge and is granted from the floor or general
  part or waits in its rank. -/
  | grantRequest (r : OpReq)
  /-- `SLUICE_WAIT_LIMIT` (R378): A request has waited 2 ms and from then blocks later requests of its rank and
  lower on the budgets it needs. -/
  | sluiceWaitLimit (id : Nat)
  /-- `COL_SEARCH` (R334): COL_WIN_CMD op 0x1 searches a group with the window key. -/
  | colSearch (v : W32) (lost : Bool)
  /-- `COL_STEP` (R334): COL_WIN_CMD op 0x2 steps a range walk to the next match. -/
  | colStep (v : W32) (lost : Bool)
  /-- `COL_INSERT` (R334): COL_WIN_CMD op 0x3 inserts the window entry at the lowest free index of the
  classification or general group. -/
  | colInsert (v : W32)
  /-- `COL_REMOVE` (R334): COL_WIN_CMD op 0x4 removes an entry by index. -/
  | colRemove (v : W32)
  /-- `COL_READ` (R334): COL_WIN_CMD op 0x5 reads an entry by index with shadow comparison. -/
  | colRead (v : W32) (lost : Bool)
  /-- `COL_WRITE` (R334): COL_WIN_CMD op 0x6 writes an entry by index. -/
  | colWrite (v : W32)
  /-- `COL_INJECT` (R334): A write of inject to COL_CTRL flips one array bit of an entry without touching its
  shadow. -/
  | colInject (v : W32)
  /-- `COL_PART_WRITE` (R313): A write of gen_pairs to COL_PART starts draining tiles for reassignment between
  groups. -/
  | colPartWrite (v : W32)
  /-- `SCRUB_PASS_DONE` (R331): A tile completes a scrub pass, refilling mismatches and confirming the misses of
  reads searched before it. -/
  | scrubPassDone (tile : Nat)
  /-- `ALLOCATION_REQUEST` (R340): A port asks for a buffer for an owner and is granted a handle or told EMPTY,
  AT_CAP, UNAVAILABLE or a fault status. -/
  | allocationRequest (port : Nat) (owner : Nat) (dram : Bool) (size : Nat)
  /-- `FREE_REQUEST` (R342): A port frees a buffer, which moves to ZEROING or is rejected. -/
  | freeRequest (port : Nat) (handle : W32)
  /-- `ZEROING_DONE` (R342): An SRAM buffer's written units are zeroed and it becomes FREE, raising ready signals.
  -/
  | zeroingDone (pool : Nat) (idx : Nat)
  /-- `ZEROING_BURST_DONE` (R343): A Sluice-granted zeroing burst fills an owed DRAM unit and any write waiting on
  it proceeds. -/
  | zeroingBurstDone (pool : Nat) (idx : Nat) (unit : Nat)
  /-- `REFRESH_INTERVAL` (R359): A tREFI passes without a refresh and the rank's owed count rises, forcing refreshes
  at 4. -/
  | refreshInterval (ch : Nat) (rank : Nat)
  /-- `MR4_POLL` (R359): Every 32 µs each rank's MR4 is read and a temperature crossing doubles or halves its owed
  count. -/
  | mr4Poll (ch : Nat) (rank : Nat) (hot : Bool)
  /-- `DRAM_REQUEST_AGE_LIMIT` (R357): A DRAM request waits longer than age_limit and is promoted to RT. -/
  | dramRequestAgeLimit (id : Nat)
  /-- `DRAM_UNCORRECTABLE_READ` (R364): A DRAM read is uncorrectable; the data is delivered with a poison mark. -/
  | dramUncorrectableRead (ch : Nat) (w : DWord) (rd : DramReader)
  /-- `DRAM_PATROL_TICK` (R368): The DRAM patrol reads the next word at the rate that the 24 h pass requires. -/
  | dramPatrolTick (e : EccResult)
  /-- `FRESH_GRANULE_FILLED` (R367): Every word of a FILLING granule is written or filled and the granule leaves the
  bitmap, freeing its slot. -/
  | freshGranuleFilled (g : Nat)
  /-- `DMC_REWRITE_WORD` (R369): DMC_FIX_CMD op 0b01 reads, corrects, rewrites and reads back a DRAM word. -/
  | dmcRewriteWord (v : W32) (back : EccResult)
  /-- `DMC_RETIRE_PAGE` (R370): DMC_FIX_CMD op 0b10 copies a page to the spare area and remaps it. -/
  | dmcRetirePage (v : W32)
  /-- `DMC_RELEASE_REMAP` (R374): DMC_FIX_CMD op 0b11 releases a remap entry. -/
  | dmcReleaseRemap (v : W32)
  /-- `CE_LOG_POP` (R374): A write of pop to DMC_CE_LOG removes the oldest correctable-error entry. -/
  | ceLogPop (ch : Nat)
  /-- `LEDGER_RECORD_OFFER` (R420): A source offers a record to its holding queue, which drops it if full or
  suppresses it if over rate. -/
  | ledgerRecordOffer (e : EvOffer)
  /-- `SUPPRESSION_SECOND_END` (R422): A suppression second ends and one EV_EVL_SUPPRESSED record is stored. -/
  | suppressionSecondEnd (code : Nat) (src : Nat)
  /-- `LEDGER_LATCH` (R424): A write of latch to EVL_RD_LATCH captures the head and volume for a reader context. -/
  | ledgerLatch (ctx : Nat)
  /-- `LEDGER_CURSOR_WRITE` (R424): A write to EVL_RD_CURSOR looks up the record at that sequence number into the
  window. -/
  | ledgerCursorWrite (ctx : Nat) (seq : Nat)
  /-- `LEDGER_NEXT` (R424): A write of next to EVL_RD_STAT moves the cursor to the following record. -/
  | ledgerNext (ctx : Nat)
  /-- `LEDGER_PERSIST_DONE` (R427): A ledger persist to the Quires' ledger areas ends in success or failure. -/
  | ledgerPersistDone (quires : Nat)
  /-- `LOCKSTEP_MISMATCH` (R409): A pair comparator detects divergence; the pair is fenced and the standby starts
  its takeover. -/
  | lockstepMismatch (pair : Nat)
  /-- `TAKEOVER_COMPLETE` (R409): The standby has loaded and replayed the failed pair's checkpoint and becomes
  ACTIVE with its tasks. -/
  | takeoverComplete (pair : Nat)
  /-- `PAIR_SELF_TEST_DONE` (R410): A failed pair's self-test ends and it is restored as healthy with roles
  migrated, or retired. -/
  | pairSelfTestDone (pair : Nat) (ok : Bool)
  /-- `ENGINE_MISMATCH` (R404): Duplicated engine datapaths disagree and the operation is run again. -/
  | engineMismatch (u : EngineUnit)
  /-- `IDE_CHECK_FAILED` (R102): A received TLP fails its IDE integrity check; it is dropped, the stream goes
  insecure and the owning command fails. -/
  | ideCheckFailed (p : Port) (stream : Nat) (cs : Option Nat)
  /-- `SPDM_GET_VERSION` (R103): SPDM GET_VERSION returns the supported versions. -/
  | spdmGetVersion (via : SpdmVia) (m : SpdmReq)
  /-- `SPDM_GET_CAPABILITIES` (R103): SPDM GET_CAPABILITIES returns the responder's capabilities. -/
  | spdmGetCapabilities (via : SpdmVia) (m : SpdmReq)
  /-- `SPDM_NEGOTIATE_ALGORITHMS` (R103): SPDM NEGOTIATE_ALGORITHMS selects ECDSA P-384, SHA-384, secp384r1 and
  AES-256-GCM. -/
  | spdmNegotiateAlgorithms (via : SpdmVia) (m : SpdmReq)
  /-- `SPDM_GET_DIGESTS` (R103): SPDM GET_DIGESTS returns the digest of certificate slot 0. -/
  | spdmGetDigests (via : SpdmVia) (m : SpdmReq)
  /-- `SPDM_GET_CERTIFICATE` (R103): SPDM GET_CERTIFICATE returns the slot 0 certificate chain. -/
  | spdmGetCertificate (via : SpdmVia) (m : SpdmReq)
  /-- `SPDM_CHALLENGE` (R103): SPDM CHALLENGE proves possession of the ECDSA alias key. -/
  | spdmChallenge (via : SpdmVia) (m : SpdmReq)
  /-- `SPDM_GET_MEASUREMENTS` (R71): SPDM GET_MEASUREMENTS returns the boot measurements and the complete Boot
  Colophon. -/
  | spdmGetMeasurements (via : SpdmVia) (m : SpdmReq)
  /-- `SPDM_KEY_EXCHANGE` (R103): SPDM KEY_EXCHANGE starts a secure session. -/
  | spdmKeyExchange (via : SpdmVia) (m : SpdmReq)
  /-- `SPDM_FINISH` (R103): SPDM FINISH completes a secure session handshake. -/
  | spdmFinish (via : SpdmVia) (m : SpdmReq)
  /-- `SPDM_HEARTBEAT` (R103): SPDM HEARTBEAT keeps a secure session alive. -/
  | spdmHeartbeat (via : SpdmVia) (m : SpdmReq)
  /-- `SPDM_KEY_UPDATE` (R103): SPDM KEY_UPDATE updates a session's keys. -/
  | spdmKeyUpdate (via : SpdmVia) (m : SpdmReq)
  /-- `SPDM_END_SESSION` (R103): SPDM END_SESSION ends a secure session. -/
  | spdmEndSession (via : SpdmVia) (m : SpdmReq)
  /-- `IDE_KM_REQUEST` (R102): An IDE_KM VENDOR_DEFINED_REQUEST in a secure session programs or controls an IDE
  stream's keys. -/
  | ideKmRequest (via : SpdmVia) (m : IdeKm)
  /-- `MCTP_SET_ENDPOINT_ID` (R120): MCTP Set Endpoint ID from the bus owner assigns the endpoint ID. -/
  | mctpSetEndpointId (eid : Nat)
  /-- `I3C_ENTDAA` (R120): ENTDAA from an I3C controller assigns a dynamic address and makes the management
  interface an I3C target. -/
  | i3cEntdaa (addr : Nat)
  /-- `MI_READ_DATA_STRUCTURE` (R121): NVMe-MI Read NVMe-MI Data Structure returns a management data structure. -/
  | miReadDataStructure (via : MiVia) (m : MiReq)
  /-- `MI_SUBSYSTEM_HEALTH_POLL` (R121): NVMe-MI NVM Subsystem Health Status Poll reports subsystem health and the
  mode, clearing MGMT_ALERT_N when asked. -/
  | miSubsystemHealthPoll (via : MiVia) (m : MiReq)
  /-- `MI_CONTROLLER_HEALTH_POLL` (R121): NVMe-MI Controller Health Status Poll reports controller health. -/
  | miControllerHealthPoll (via : MiVia) (m : MiReq)
  /-- `MI_CONFIGURATION_SET` (R121): NVMe-MI Configuration Set sets bus frequency, health status change or
  transmission unit size. -/
  | miConfigurationSet (via : MiVia) (m : MiReq)
  /-- `MI_CONFIGURATION_GET` (R121): NVMe-MI Configuration Get returns a configuration value. -/
  | miConfigurationGet (via : MiVia) (m : MiReq)
  /-- `HG_CTRL_WRITE` (R149): A write to HG_CTRL sets fetching, drain and token controls, with fetch_en ignored
  before the entry mode. -/
  | hgCtrlWrite (v : W32)
  /-- `CSR_DOMAIN_OFF_ACCESS` (R13): A control-space access to a register of an OFF domain completes without
  reaching it and is recorded. -/
  | csrDomainOffAccess (req : Requester) (addr : Nat) (write : Bool)
  /-- `CSR_UNASSIGNED_ACCESS` (R9): A control-space access to an unassigned address reads 0 or is discarded and is
  recorded. -/
  | csrUnassignedAccess (req : Requester) (addr : Nat) (write : Bool)
  /-- `JTAG_SAMPLE_PRELOAD` (R471): JTAG SAMPLE/PRELOAD instruction samples or preloads the boundary-scan chain. -/
  | jtagSamplePreload (sampled : BitVec 64) (preload : BitVec 64)
  /-- `REGISTER_WRITE` (R10): A write to a register without a row of its own takes effect by its access code, or is
  ignored in whole when out of range. -/
  | registerWrite (t : RegTarget) (v : W32)
  /-- `REFCLK_RETURN` (R26): A lost system reference clock shows edges again; the return is recorded and the
  multiplexer does not switch back. -/
  | refclkReturn (p : Port)
  /-- `DOMAIN_GATED` (R21): A domain finishes gating, its state reads GATED and any demand that waited on the
  transition wakes it. -/
  | domainGated (dom : Nat)
  /-- `I3C_BUS_RECOVERED` (R308): A stuck sideband bus is recovered and waiting polls and insertions on it proceed.
  -/
  | i3cBusRecovered (bus : Nat)
  /-- `DRAM_COMMAND_CYCLE` (R357): In each DRAM command cycle the scheduler picks a forced refresh, a panicking
  port, a request by class, or an owed refresh on an idle rank. -/
  | dramCommandCycle (ch : Nat) (sub : Nat) (rank : Nat) (arrivals : List DReq) (fifos : List (Nat × Nat × Bool))
  /-- `HOST_MEMORY_FAULT` (R142): A host-to-device read for write data, metadata or a PRP or SGL list ends in
  completion timeout, UR, CA or poison, and the command completes with Data Transfer Error. -/
  | hostMemoryFault (cs : Nat) (f : DmaFault)
  /-- `BAD_OPCODE` (R47): A mailbox ring latches an undefined opcode and the command ends with BAD_OPCODE. -/
  | badOpcode (p : Port) (op : Byte) (k : KmbPkt)
  /-- `INTERRUPT_AGGREGATION_TIME` (R101): The Feature 0x08 aggregation time of a coalesced vector runs out and its
  pending completions are signalled. -/
  | interruptAggregationTime (fn : Fn) (vec : Nat)
  /-- `INVALID_FLIT_RECEIVED` (R263): A flit with a reserved kind, a non-zero reserved field, or a kind the module
  may not send (for example CMD) arrives and the link is quarantined for protocol violation. -/
  | invalidFlitReceived (slot : Nat)
  /-- `POR_N_ASSERT` (R74): Assertion of POR_N, or the AON supply falling below its monitor level, takes the device
  to OFF at once from any mode. -/
  | porNAssert
  /-- `CRYSTAL_STABLE` (R36): The crystal becomes stable and the AON clock switches to it without a missing tick. -/
  | crystalStable
  /-- `MAILBOX_READY` (R38): The mailbox on the boot port becomes ready, KMB_MODE reads AWAIT_IMAGE, and any ring
  latched earlier starts to execute. -/
  | mailboxReady
  /-- `PWRFAIL_N_ASSERT` (R395): A filtered assertion of PWRFAIL_N in a serving mode or IDLE starts the Hold-Up
  sequence; in DORMANT, AWAIT_IMAGE or VERIFY it is only recorded, and in ASSEMBLE it leads to HALTED. -/
  | pwrfailNAssert
  /-- `PWRFAIL_N_DEASSERT` (R75): Deassertion of PWRFAIL_N during HOLDUP changes nothing; the sequence still runs to
  HALTED. -/
  | pwrfailNDeassert
  /-- `HOLDUP_SEAL_WRITTEN` (R395): The seal has been programmed to every data-holding Quire after the dirty data,
  journal, contexts and ledger snapshot, and the device enters HALTED with cause 0x03 or 0x02. -/
  | holdupSealWritten
  /-- `CORE_RAIL_OUT_OF_LIMITS` (R465): VDD_CORE lies outside 0.69 V to 0.85 V for 20 µs, and the device enters
  HALTED with cause 0x0A, or 0x04 during Hold-Up. -/
  | coreRailOutOfLimits
  /-- `DIE_THROTTLE_STEP_TIMER` (R385): The 50 ms rise or 500 ms fall timer of the die throttle count changes k_d by
  one. -/
  | dieThrottleStepTimer
  /-- `RAIL_STEP_TIMER` (R381): The 10 ms rise or 500 ms restore timer of the rail step count changes k_r by one. -/
  | railStepTimer
  /-- `RAIL_LIMIT_CLEAR_TIMER` (R77): The rail steps have stayed at 0 for 1 s and rail_limit clears. -/
  | railLimitClearTimer
  /-- `NO_PLACEMENT_CLEAR_TIMER` (R77): Placement has been possible for 1 s without interruption and no_placement
  clears. -/
  | noPlacementClearTimer
  /-- `FOLIO_VERIFY_DONE` (R55): Verification of the staged Folio ends; on success TC0 is powered, LP0 released and
  ASSEMBLE entered, otherwise the mode returns to AWAIT_IMAGE. -/
  | folioVerifyDone
  /-- `AWAIT_IMAGE_TIMEOUT` (R40): The 600 s AWAIT_IMAGE window expires; staged material is discarded, SB0 zeroed
  and the device enters DORMANT. -/
  | awaitImageTimeout
  /-- `ASSEMBLE_ENTRY_DECISION` (R76): At the end of ASSEMBLE the minimum service set is judged, the sequence number
  is sealed, and the entry mode is decided. -/
  | assembleEntryDecision
  /-- `HU_TEST_DUE` (R392): The 24 h test interval, or the 10 s retry after an inconclusive test, expires and a
  capacitor test starts. -/
  | huTestDue
  /-- `IDLE_ENTRY` (R79): With PS3 or PS4 selected and no command outstanding on any controller, IDLE entry starts:
  no new background work, erases suspended. -/
  | idleEntry
  /-- `IDLE_ENTRY_COMPLETE` (R79): Programs in flight have completed and the domains are set for the IDLE column, so
  the mode becomes IDLE. -/
  | idleEntryComplete
  /-- `FETCH_DECISION` (R132): Each fabric cycle the Headgate chooses one eligible submission queue by admin
  interval, starvation and class priority, and fetches up to 8 entries. -/
  | fetchDecision
  /-- `TOKEN_REFILL` (R130): Every 1 µs each token bucket gains rate/1,000,000 units and paced commands whose bucket
  is above 0 are charged in fetch order. -/
  | tokenRefill
  /-- `ACTIVATION_DRAINED` (R141): Every I/O slot has drained during an activation; the firmware swaps, a Boot
  Colophon record is appended, fetching resumes and Firmware Commit completes. -/
  | activationDrained
  /-- `CHECKPOINT_SEGMENT_DUE` (R176): The metadata Furrow writes the next 64 MiB map checkpoint segment of its
  rotation. -/
  | checkpointSegmentDue
  /-- `FURROW_WINDOW_LOAD` (R188): A write of load to TC_FURROW_CMD latches a Furrow context into the window. -/
  | furrowWindowLoad
  /-- `CFG_LOCK` (R337): A write of cfg_lock to BPM_CTRL checks the pool configuration and locks it, or sets
  cfg_error. -/
  | cfgLock
  /-- `INJECT_ARM` (R371): A write of arm to DMC_INJ_CTRL arms the flip mask for the next write bursts of the
  channel. -/
  | injectArm
  /-- `INJECT_LOCK` (R372): The Warden sets DMC_INJ_CTRL.lock, fixing the injection fields and cancelling an armed
  injection. -/
  | injectLock
  /-- `LEDGER_INTAKE` (R420): Every 4 fabric cycles the ledger takes the oldest queued record, numbers it and stores
  it, or counts it as overflow. -/
  | ledgerIntake
  /-- `STANDBY_TEST_DUE` (R411): Every 24 h the standby pair is woken and self-tested. -/
  | standbyTestDue
  /-- `WARDEN_MISMATCH` (R405): The Warden comparator detects divergence and the device enters HALTED with cause
  0x08. -/
  | wardenMismatch
  /-- `BOOKS_AUDIT` (R415): Every 1 ms the auditor compares the conserved counters and records any disagreement. -/
  | booksAudit
  /-- `CONTRACT_LOAD` (R146): A write of load to HG_CONTRACT_CMD copies a tenant's contract into the window. -/
  | contractLoad
  /-- `CONTRACT_APPLY` (R146): A write of apply to HG_CONTRACT_CMD range-checks the window and applies it to the
  tenant. -/
  | contractApply
  /-- `JTAG_BYPASS` (R471): JTAG BYPASS instruction. -/
  | jtagBypass
  /-- `JTAG_IDCODE` (R471): JTAG IDCODE instruction returns 0xB512_04B5. -/
  | jtagIdcode
  /-- `JTAG_EXTEST` (R471): JTAG EXTEST drives the boundary-scan chain while POR_N is asserted, and acts as BYPASS
  otherwise. -/
  | jtagExtest
  /-- `JTAG_CLAMP` (R471): JTAG CLAMP holds outputs while POR_N is asserted, and acts as BYPASS otherwise. -/
  | jtagClamp
  /-- `JTAG_HIGHZ` (R471): JTAG HIGHZ floats outputs while POR_N is asserted, and acts as BYPASS otherwise. -/
  | jtagHighz
deriving DecidableEq, Repr

end Sys2Proof
end

