-- ==== Sys2Proof/Config.lean ====
section
/-! DEFINITION. What one part fixes and the spec leaves open: the part's identity, the cryptographic functions that
the spec names and does not define, and the free values. Every constant is opaque: no proof can see its value. -/

namespace Sys2Proof.Config

/-- The device serial of this part (R48, R57). -/
opaque serial : BitVec 128

/-- The ROM version of this part (R48). -/
opaque romVersion : Nat

/-- The SHA-384 digest of the boot ROM (R36, R71). -/
opaque romDigest : Digest

/-- The unique device secret (R63). -/
opaque uds : List Byte

/-- The SHA-384 digests of the two Zeska vendor key sets in ROM (R54). -/
opaque vendorDigest : Nat → Digest

/-- SHA-384. -/
opaque sha384 : List Byte → Digest

/-- ECDSA P-384 verification: public key field, message digest, signature field. -/
opaque ecdsaOk : List Byte → Digest → List Byte → Bool

/-- ML-DSA-65 verification with an empty context string: public key field, message, signature field. -/
opaque mldsaOk : List Byte → Digest → List Byte → Bool

/-- HMAC-SHA-384: key and message. -/
opaque hmac384 : List Byte → List Byte → Digest

/-- HKDF-SHA-384 with an empty salt: key and info string. -/
opaque hkdf384 : List Byte → List Byte → List Byte

/-- The public key fields of the DeviceID pairs (R63, R66). -/
opaque deviceIdKeys : Digest → List Byte

/-- The signature part of the Boot Colophon: CDI_1 and the digest signed (R63, R66). -/
opaque attestSign : Digest → Digest → List Byte

/-- The SPDM certificate chain of slot 0: CDI_0, CDI_1 and the DER chain of section 0x000A (R63). -/
opaque certChain : Digest → Digest → List Byte → List Byte

/-- An ECDSA P-384 signature by the alias key of CDI_1 over a message (R64). -/
opaque aliasSign : Digest → List Byte → List Byte

/-- The session secret S of R280 that the controller's ephemeral key and nonce, named by the challenge's number, form
with the module's public key. -/
opaque sessionSecret : Nat → List Byte → Digest

/-- The 128-bit tag of R439 under a namespace's tag key, named by namespace, key generation and key_change_seq: IV,
plaintext binding header, frame bytes 0 to 4,095 and 4,096 to 4,159. -/
opaque gmac : Nat → Nat → Nat → BitVec 96 → BitVec 256 → UnitData → BitVec 512 → BitVec 128

/-- The binding header decrypted under K_hdr, the stored tag being the tweak (R439). -/
opaque hdrOpen : BitVec 128 → BitVec 256 → BitVec 256

/-- XTS decryption under a namespace's data key (R437): namespace, key generation, key_change_seq and tweak. -/
opaque xtsOpen : Nat → Nat → Nat → BitVec 128 → UnitData → BitVec 512 → UnitData × BitVec 512

/-- The globally unique identifier of a namespace, by namespace index: the spec gives no value. -/
opaque nguid : Nat → BitVec 128

/-- The checkpoint segment that holds a map entry, by the entry's key: the spec does not place entries in segments (R176). -/
opaque segmentOf : Nat → Nat

/-- A free value for every use: the step's counter and the width wanted. -/
opaque freeBits : Nat → (w : Nat) → BitVec w

/-- A free yes or no. -/
opaque freeBool : Nat → Bool

/-- A free number. -/
opaque freeNat : Nat → Nat

/-- Free bytes. -/
opaque freeBytes : Nat → List Byte

end Sys2Proof.Config
end

