-- ==== Sys2Proof/Machine/Events.lean ====
section
/-! DEFINITION. The event codes of Table 16-3: 0x8000 × critical + 0x0800 × subsystem + number (R431). -/

namespace Sys2Proof.Machine

/-- EV_WDN_MODE_CHANGE (Table 16-3). -/
def evWdnModeChange : Nat := 0x8001
/-- EV_WDN_BOOT_FAIL (Table 16-3). -/
def evWdnBootFail : Nat := 0x8002
/-- EV_WDN_PROMISE_CHANGE (Table 16-3). -/
def evWdnPromiseChange : Nat := 0x8003
/-- EV_WDN_DOMAIN_FAILED (Table 16-3). -/
def evWdnDomainFailed : Nat := 0x8004
/-- EV_WDN_BOOKS_MISMATCH (Table 16-3). -/
def evWdnBooksMismatch : Nat := 0x8005
/-- EV_WDN_HU_TEST (Table 16-3). -/
def evWdnHuTest : Nat := 0x8006
/-- EV_WDN_PWRFAIL_EARLY (Table 16-3). -/
def evWdnPwrfailEarly : Nat := 0x0007
/-- EV_WDN_PD_REFUSED (Table 16-3). -/
def evWdnPdRefused : Nat := 0x0008
/-- EV_WDN_CSR_DOMAIN_OFF (Table 16-3). -/
def evWdnCsrDomainOff : Nat := 0x0009
/-- EV_WDN_CSR_UNASSIGNED (Table 16-3). -/
def evWdnCsrUnassigned : Nat := 0x000A
/-- EV_WDN_KMB_RING_BUSY (Table 16-3). -/
def evWdnKmbRingBusy : Nat := 0x000B
/-- EV_WDN_OWNER_ENROLLED (Table 16-3). -/
def evWdnOwnerEnrolled : Nat := 0x800C
/-- EV_WDN_OWNER_REVOKED (Table 16-3). -/
def evWdnOwnerRevoked : Nat := 0x800D
/-- EV_WDN_SVN_COMMITTED (Table 16-3). -/
def evWdnSvnCommitted : Nat := 0x800E
/-- EV_WDN_SVN_FUSE_FAIL (Table 16-3). -/
def evWdnSvnFuseFail : Nat := 0x800F
/-- EV_WDN_WARM_FLOOR_SHORT (Table 16-3). -/
def evWdnWarmFloorShort : Nat := 0x0010
/-- EV_WDN_WARM_FLOOR_BAD (Table 16-3). -/
def evWdnWarmFloorBad : Nat := 0x0011
/-- EV_WDN_REFCLK_LOST (Table 16-3). -/
def evWdnRefclkLost : Nat := 0x8012
/-- EV_WDN_REFCLK_SWITCH (Table 16-3). -/
def evWdnRefclkSwitch : Nat := 0x0013
/-- EV_WDN_REFCLK_RETURN (Table 16-3). -/
def evWdnRefclkReturn : Nat := 0x0014
/-- EV_WDN_PARAM_BAD (Table 16-3). -/
def evWdnParamBad : Nat := 0x0015
/-- EV_WDN_COND_CHANGE (Table 16-3). -/
def evWdnCondChange : Nat := 0x0016
/-- EV_HPC_LINK_DOWN (Table 16-3). -/
def evHpcLinkDown : Nat := 0x8801
/-- EV_HPC_LINK_UP (Table 16-3). -/
def evHpcLinkUp : Nat := 0x0802
/-- EV_HG_SQ_FETCH_FAIL (Table 16-3). -/
def evHgSqFetchFail : Nat := 0x1001
/-- EV_HG_DRAIN_LATE (Table 16-3). -/
def evHgDrainLate : Nat := 0x1002
/-- EV_HG_CONTRACT_SET (Table 16-3). -/
def evHgContractSet : Nat := 0x1003
/-- EV_HG_DEFAULT_REFUSED (Table 16-3). -/
def evHgDefaultRefused : Nat := 0x1004
/-- EV_HG_CQ_FULL (Table 16-3). -/
def evHgCqFull : Nat := 0x1005
/-- EV_COL_SOFT_ERROR (Table 16-3). -/
def evColSoftError : Nat := 0x1801
/-- EV_COL_SCRUB_MISMATCH (Table 16-3). -/
def evColScrubMismatch : Nat := 0x1802
/-- EV_COL_ENTRY_LOST (Table 16-3). -/
def evColEntryLost : Nat := 0x9803
/-- EV_COL_SCRUB_OFF (Table 16-3). -/
def evColScrubOff : Nat := 0x1804
/-- EV_COL_PART_CHANGE (Table 16-3). -/
def evColPartChange : Nat := 0x1805
/-- EV_COL_RANGE_FULL (Table 16-3). -/
def evColRangeFull : Nat := 0x1806
/-- EV_COL_PARAM_BAD (Table 16-3). -/
def evColParamBad : Nat := 0x1807
/-- EV_TC_LP_TAKEOVER (Table 16-3). -/
def evTcLpTakeover : Nat := 0xA001
/-- EV_TC_LP_RETIRED (Table 16-3). -/
def evTcLpRetired : Nat := 0xA002
/-- EV_TC_SEAL_MISSING (Table 16-3). -/
def evTcSealMissing : Nat := 0xA003
/-- EV_TC_DIRTY_DRAIN (Table 16-3). -/
def evTcDirtyDrain : Nat := 0x2004
/-- EV_TC_FOLD_HELD (Table 16-3). -/
def evTcFoldHeld : Nat := 0x2005
/-- EV_TC_ERASE_REFUSED (Table 16-3). -/
def evTcEraseRefused : Nat := 0x2006
/-- EV_TC_ORPHAN_RECLAIMED (Table 16-3). -/
def evTcOrphanReclaimed : Nat := 0x2007
/-- EV_TC_BLOCK_RETIRED (Table 16-3). -/
def evTcBlockRetired : Nat := 0x2008
/-- EV_TC_REHOME (Table 16-3). -/
def evTcRehome : Nat := 0x2009
/-- EV_TC_WEIR_BAD (Table 16-3). -/
def evTcWeirBad : Nat := 0x200A
/-- EV_TC_PARAM_BAD (Table 16-3). -/
def evTcParamBad : Nat := 0x200B
/-- EV_GL_QUARANTINE (Table 16-3). -/
def evGlQuarantine : Nat := 0xA801
/-- EV_GL_DIE_FAILED (Table 16-3). -/
def evGlDieFailed : Nat := 0xA802
/-- EV_GL_COLOPHON_REFUSED (Table 16-3). -/
def evGlColophonRefused : Nat := 0xA803
/-- EV_GL_SERIAL_DUPLICATE (Table 16-3). -/
def evGlSerialDuplicate : Nat := 0xA804
/-- EV_GL_LINK_FAULT (Table 16-3). -/
def evGlLinkFault : Nat := 0x2805
/-- EV_GL_LINK_NARROW (Table 16-3). -/
def evGlLinkNarrow : Nat := 0x2806
/-- EV_GL_SLOT_PRESENT (Table 16-3). -/
def evGlSlotPresent : Nat := 0x2807
/-- EV_GL_SLOT_DISABLED (Table 16-3). -/
def evGlSlotDisabled : Nat := 0x2808
/-- EV_GL_MODULE_NOTICE (Table 16-3). -/
def evGlModuleNotice : Nat := 0x2809
/-- EV_GL_MODULE_ALERT (Table 16-3). -/
def evGlModuleAlert : Nat := 0x280A
/-- EV_GL_ALERT_STUCK (Table 16-3). -/
def evGlAlertStuck : Nat := 0x280B
/-- EV_GL_MONITOR_FAULT (Table 16-3). -/
def evGlMonitorFault : Nat := 0x280C
/-- EV_GL_SUSPEND_REFUSED (Table 16-3). -/
def evGlSuspendRefused : Nat := 0x280D
/-- EV_GL_STRICT_ACTIVE (Table 16-3). -/
def evGlStrictActive : Nat := 0x280E
/-- EV_GL_DIES_WARM (Table 16-3). -/
def evGlDiesWarm : Nat := 0x280F
/-- EV_GL_RP_PARAM_BAD (Table 16-3). -/
def evGlRpParamBad : Nat := 0x2810
/-- EV_GL_PARAM_BAD (Table 16-3). -/
def evGlParamBad : Nat := 0x2811
/-- EV_MC_READ_UNRECOVERED (Table 16-3). -/
def evMcReadUnrecovered : Nat := 0xB001
/-- EV_MC_TAG_FAIL (Table 16-3). -/
def evMcTagFail : Nat := 0x3002
/-- EV_MC_REFRESH_FLAG (Table 16-3). -/
def evMcRefreshFlag : Nat := 0x3003
/-- EV_MC_ENGINE_MISMATCH (Table 16-3). -/
def evMcEngineMismatch : Nat := 0x3004
/-- EV_MC_PARAM_BAD (Table 16-3). -/
def evMcParamBad : Nat := 0x3005
/-- EV_SIG_MEMBER_LOST (Table 16-3). -/
def evSigMemberLost : Nat := 0xB801
/-- EV_SIG_UNITS_LOST (Table 16-3). -/
def evSigUnitsLost : Nat := 0xB802
/-- EV_SIG_REBUILD_DONE (Table 16-3). -/
def evSigRebuildDone : Nat := 0xB803
/-- EV_SIG_REBUILD_NO_SPARE (Table 16-3). -/
def evSigRebuildNoSpare : Nat := 0xB804
/-- EV_SIG_JHOST_SINGLE (Table 16-3). -/
def evSigJhostSingle : Nat := 0xB805
/-- EV_SIG_MEMBER_RELEASED (Table 16-3). -/
def evSigMemberReleased : Nat := 0x3806
/-- EV_SIG_MEMBER_MOVED (Table 16-3). -/
def evSigMemberMoved : Nat := 0x3807
/-- EV_SIG_RESPREAD_DONE (Table 16-3). -/
def evSigRespreadDone : Nat := 0x3808
/-- EV_SIG_REBUILD_PROGRESS (Table 16-3). -/
def evSigRebuildProgress : Nat := 0x3809
/-- EV_SIG_JHOST_CHANGE (Table 16-3). -/
def evSigJhostChange : Nat := 0x380A
/-- EV_SIG_JOURNAL_RECOMPUTE (Table 16-3). -/
def evSigJournalRecompute : Nat := 0x380B
/-- EV_SIG_PATROL_REPAIR (Table 16-3). -/
def evSigPatrolRepair : Nat := 0x380C
/-- EV_SIG_PATROL_PARITY (Table 16-3). -/
def evSigPatrolParity : Nat := 0x380D
/-- EV_SIG_PATROL_PASS (Table 16-3). -/
def evSigPatrolPass : Nat := 0x380E
/-- EV_SIG_PATROL_LATE (Table 16-3). -/
def evSigPatrolLate : Nat := 0x380F
/-- EV_SIG_ENGINE_MISMATCH (Table 16-3). -/
def evSigEngineMismatch : Nat := 0x3810
/-- EV_SIG_PARAM_BAD (Table 16-3). -/
def evSigParamBad : Nat := 0x3811
/-- EV_BPM_BUFFERS_LOST (Table 16-3). -/
def evBpmBuffersLost : Nat := 0xC001
/-- EV_BPM_PORT_RESET (Table 16-3). -/
def evBpmPortReset : Nat := 0xC002
/-- EV_BPM_CFG_BAD (Table 16-3). -/
def evBpmCfgBad : Nat := 0x4003
/-- EV_BPM_FREE_REJECTED (Table 16-3). -/
def evBpmFreeRejected : Nat := 0x4004
/-- EV_BPM_ACCESS_REFUSED (Table 16-3). -/
def evBpmAccessRefused : Nat := 0x4005
/-- EV_BPM_SRAM_CE (Table 16-3). -/
def evBpmSramCe : Nat := 0x4006
/-- EV_BPM_PARAM_BAD (Table 16-3). -/
def evBpmParamBad : Nat := 0x4007
/-- EV_DMC_UE (Table 16-3). -/
def evDmcUe : Nat := 0xC801
/-- EV_DMC_DEVICE_FAILED (Table 16-3). -/
def evDmcDeviceFailed : Nat := 0xC802
/-- EV_DMC_TRAIN_FAIL (Table 16-3). -/
def evDmcTrainFail : Nat := 0xC803
/-- EV_DMC_CE (Table 16-3). -/
def evDmcCe : Nat := 0x4804
/-- EV_DMC_CE_SOFT (Table 16-3). -/
def evDmcCeSoft : Nat := 0x4805
/-- EV_DMC_REMAP_FULL (Table 16-3). -/
def evDmcRemapFull : Nat := 0x4806
/-- EV_DMC_RETIRE_LIST_DISCARDED (Table 16-3). -/
def evDmcRetireListDiscarded : Nat := 0x4807
/-- EV_DMC_PATROL_LATE (Table 16-3). -/
def evDmcPatrolLate : Nat := 0x4808
/-- EV_DMC_INJECT (Table 16-3). -/
def evDmcInject : Nat := 0x4809
/-- EV_DMC_PARAM_BAD (Table 16-3). -/
def evDmcParamBad : Nat := 0x480A
/-- EV_SLU_PARAM_BAD (Table 16-3). -/
def evSluParamBad : Nat := 0x5001
/-- EV_THM_COLD_LIMIT (Table 16-3). -/
def evThmColdLimit : Nat := 0xD801
/-- EV_THM_MODULE_ABS_MAX (Table 16-3). -/
def evThmModuleAbsMax : Nat := 0xD802
/-- EV_THM_STEP (Table 16-3). -/
def evThmStep : Nat := 0x5803
/-- EV_THM_HOT_WARN (Table 16-3). -/
def evThmHotWarn : Nat := 0x5804
/-- EV_THM_COLD_WARN (Table 16-3). -/
def evThmColdWarn : Nat := 0x5805
/-- EV_THM_SENSOR_EXCLUDED (Table 16-3). -/
def evThmSensorExcluded : Nat := 0x5806
/-- EV_THM_SENSOR_RESTORED (Table 16-3). -/
def evThmSensorRestored : Nat := 0x5807
/-- EV_THM_MODULE_WEIR (Table 16-3). -/
def evThmModuleWeir : Nat := 0x5808
/-- EV_THM_WEIR_CLAMPED (Table 16-3). -/
def evThmWeirClamped : Nat := 0x5809
/-- EV_THM_PARAM_BAD (Table 16-3). -/
def evThmParamBad : Nat := 0x580A
/-- EV_EVL_SESSION (Table 16-3). -/
def evEvlSession : Nat := 0xE001
/-- EV_EVL_VOLUME_NEW (Table 16-3). -/
def evEvlVolumeNew : Nat := 0xE002
/-- EV_EVL_EARLY_COPIED (Table 16-3). -/
def evEvlEarlyCopied : Nat := 0x6003
/-- EV_EVL_SUPPRESSED (Table 16-3). -/
def evEvlSuppressed : Nat := 0x6004
/-- EV_EVL_PERSIST_DONE (Table 16-3). -/
def evEvlPersistDone : Nat := 0x6005
/-- EV_EVL_PERSIST_FAIL (Table 16-3). -/
def evEvlPersistFail : Nat := 0xE006
/-- EV_EVL_VOLUME_FULL (Table 16-3). -/
def evEvlVolumeFull : Nat := 0xE007
/-- EV_EVL_PARAM_BAD (Table 16-3). -/
def evEvlParamBad : Nat := 0x6008

end Sys2Proof.Machine
end

