-- ==== Sys2Proof/Machine/State.lean ====
section
/-! DEFINITION. The state of the Cerdoyx CX-512 as plain data: every register, queue, buffer, table and pin the
spec names, the fuses that survive POR_N, and the queue of commands that wait. Sparse tables list only what differs
from what an unlisted key reads as. -/

namespace Sys2Proof.Machine

/-- Why the block stops. No meaning raises one: every command of the table has an effect, or leaves the state as
it is where what it reports cannot have happened (assumption log, entry 1). -/
inductive Fault where
  /-- Reserved: raised by no command. Safe, since a stop proves nothing about the part. -/
  | none
deriving DecidableEq, Repr

/-- Why a command has no meaning here. -/
inductive Refusal where
  /-- Raised by `exec` for a command the model does not reach yet. Safe: nothing follows from it. -/
  | notModelled (mnemonic : String)
deriving DecidableEq, Repr

/-! ### Clocks, domains, modes (chapters 01 and 03) -/

/-- The clocks (R25, R26, R36, R417). `ns64` is the device timestamp in 1/64 ns. -/
structure Clk where
  ns64     : Nat
  crystal  : Bool
  refSel   : RefSel
  lostA    : Bool
  lostB    : Bool
  holdover : Bool
deriving DecidableEq, Repr

/-- A power domain (R18 to R22). In TRANSITION, `up` is the state it moves to; `ramp` says that it is in
power-up ramp, `wait` that it waits for one; `want` that a demand waits for its transition to finish. -/
structure Dom where
  st     : Pd
  up     : Pd
  ramp   : Bool
  wait   : Bool
  want   : Bool
  failed : Bool
  offReq : Bool
deriving DecidableEq, Repr

/-- The sequencer (R18 to R24). `busyDom` is the domain and target of the request that WDN_PD_REQ shows busy;
`wakeAt` says when each domain last left OFF. -/
structure Pwr where
  doms   : Tbl Dom
  busy   : Option (Nat × Pd)
  result : Nat
  wakeAt : Tbl Nat
deriving DecidableEq, Repr

/-- The operating mode and its registers (R73 to R91). `settle` lists the domains a transition changes, with the
state each must reach before in_transition falls (R74); `leaving` says that the exit from IDLE is under way, and `before` lists
the domains that were ON or GATED at the entry to IDLE, which the exit brings back (R79, R82). -/
structure Modes where
  mode      : Mode
  prev      : Mode
  hostPs    : Nat
  selPs     : Nat
  lastOpPs  : Nat
  idleEntry : Bool
  leaving   : Bool
  before    : List Nat
  settle    : List (Nat × Pd)
  cond      : BitVec 12
  haltCause : Nat
  haltUnit  : Nat
  haltMode  : Nat
  promise   : BitVec 5
deriving DecidableEq, Repr

/-- The pins (chapter 18), true while asserted. -/
structure Pins where
  por      : Bool
  perstA   : Bool
  perstB   : Bool
  pwrfail  : Bool
  thermtrip : Bool
  mgmtAlert : Bool
  straps   : BitVec 4
deriving DecidableEq, Repr

/-! ### The Event Ledger (chapter 16) -/

/-- A record that waits in its source's holding queue (R420). -/
structure Held where
  code    : Nat
  src     : Nat
  ts      : Nat
  payload : List Byte
deriving DecidableEq, Repr

/-- The offers of one code from one source in the running suppression second (R422). -/
structure Supp where
  code       : Nat
  src        : Nat
  offered    : Nat
  suppressed : Nat
deriving DecidableEq, Repr

/-- A reader context (R424). `stale` is set by Ledger New Volume until the next latch. -/
structure RCtx where
  latched : Bool
  head    : Nat
  volume  : Nat
  cursor  : Nat
  stale   : Bool
deriving DecidableEq, Repr

/-- Why a persist runs (R427). -/
inductive PersistFor where
  | holdup
  | shutdown (fn : Fn)
  | newVolume (cs : Nat)
deriving DecidableEq, Repr

/-- The Event Ledger (chapter 16). `queues` holds every source's holding queue, oldest record first. -/
structure Evl where
  queues     : List Held
  supp       : List Supp
  next       : Nat
  mainOn     : Bool
  main       : List LRec
  mainFull   : Bool
  overflow   : Nat
  removed    : Nat
  early      : List LRec
  earlyFull  : Bool
  earlyOver  : Nat
  volume     : Nat
  curVol     : List LRec
  prevVol    : List LRec
  curOver    : Nat
  prevOver   : Nat
  volFull    : Bool
  volBytes   : Nat
  persistNext : Nat
  persisting : Option (PersistFor × Nat)
  waiting    : List PersistFor
  lastFailed : Bool
  ctxs       : Tbl RCtx
deriving DecidableEq, Repr

/-! ### Boot and the mailbox (chapter 02) -/

/-- An owner slot of the fuse array (R56). -/
structure Owner where
  ecdsa    : Digest
  mldsa    : Digest
  enrolled : Bool
  revoked  : Bool
deriving DecidableEq, Repr

/-- The fuses that commands can blow (R54, R56, R58), which survive POR_N. `svn` is the thermometer code. -/
structure Fuses where
  set0Revoked : Bool
  svn         : BitVec 128
  owners      : Tbl Owner
  injLock     : Bool
  jtagLock    : Bool
deriving DecidableEq, Repr

/-- One PF's Kyster mailbox (R42 to R46, R478): the packets, busy, a ring latched before the mailbox was ready,
and KMB_INT. -/
structure Kmb where
  cmd     : BitVec 512
  busy    : Bool
  held    : Option Instr
  op      : Nat
  status  : Nat
  tag     : BitVec 16
  mode    : Nat
  detail  : Nat
  uptime  : Nat
  await   : Nat
  results : List Byte
  done    : Bool
  changed : Bool
  doneEn  : Bool
  modeEn  : Bool
deriving DecidableEq, Repr

/-- The accepted Imposition (R59, R60): its section bodies by type, and what its header says. -/
structure Impo where
  digest     : Digest
  revision   : Nat
  board      : BitVec 256
  ownerSigned : Bool
  ownerSlot  : Nat
  verified   : Bool
  sections   : Tbl (List Byte)
deriving DecidableEq, Repr

/-- What the running Folio's header says (Table 02-9), once it has been verified. -/
structure RunFolio where
  mv        : Digest
  svn       : Nat
  commitSvn : Bool
  activatable : Bool
  vendorSet : Nat
  ownerSlot : Nat
  coSigned  : Bool
  entry     : Nat
  pairPlan  : Nat
  buildId   : List Byte
deriving DecidableEq, Repr

/-- A Folio being staged (R50, R114): its size, the bytes that are not 0, and the 4 KiB pages staged. -/
structure Staged where
  size  : Nat
  cells : Tbl Byte
  pages : List Nat
deriving DecidableEq, Repr

/-- Boot progress (R36 to R50, R62, R68, R80). `tProg` is tPROG_max in µs. `windowNs` is what is left of the 600 s window. -/
structure Boot where
  port      : Option Port
  t0        : Option Nat
  t0Port    : Tbl Nat
  mboxReady : Bool
  nonce     : Option (BitVec 256)
  folio     : Option Staged
  impo      : Option Impo
  windowNs64 : Option Nat
  verifying : Option Port
  lastStatus : Nat
  lastDetail : Nat
  folioOk   : Bool
  dramDone  : Bool
  linksDone : Bool
  mapDone   : Bool
  mapPm     : Nat
  mapFailed : Bool
  sealed    : Bool
  run       : Option RunFolio
  seqNum    : Nat
  seqState  : Nat
  seqLacking : Nat
  seqOlder  : Nat
  svnAtBoot : Nat
  mRom      : Option Digest
  mMv       : Option Digest
  mImpo     : Option Digest
  mInv      : Option Digest
  cdi0      : Option Digest
  cdi1      : Option Digest
  devId     : Digest
  chain     : List Byte
  inv       : List Byte
  entryMs   : Nat
  tProg     : Nat
deriving DecidableEq, Repr

/-- The Boot Colophon (R65 to R70). `head` holds the bytes before the appended records as first signed. -/
structure Bcol where
  signed  : Bool
  gen     : Nat
  head    : List Byte
  records : List (List Byte)
  full    : Bool
deriving DecidableEq, Repr

/-! ### Host ports, functions and the Headgate (chapters 04 and 05) -/

/-- An IDE stream of a port (R102): stream 0 is the Link IDE stream, 1 to 4 the Selective ones. -/
inductive IdeSt where
  | insecure | keyed | secure
deriving DecidableEq, Repr

/-- An SPDM session of a transport (R103). -/
inductive SessSt where
  | handshaking | established
deriving DecidableEq, Repr

/-- An SPDM session: its state and how often its keys have been updated. -/
structure Sess where
  st      : SessSt
  updates : Nat
deriving DecidableEq, Repr

/-- The responder's connection on one transport (R64, R103, R120): 0 before GET_VERSION, then 1, 2, 3 after
GET_VERSION, GET_CAPABILITIES and NEGOTIATE_ALGORITHMS. -/
structure Spdm where
  phase    : Nat
  sessions : Tbl Sess
deriving DecidableEq, Repr

/-- A host port (R92 to R97, R102). `ana` counts its ANA changes (R116). -/
structure HPort where
  dl     : Bool
  rate   : Nat
  width  : Nat
  flit   : Bool
  vfEn   : Bool
  numVfs : Nat
  ana    : Nat
  ide    : Tbl IdeSt
  spdm   : Spdm
deriving DecidableEq, Repr

/-- A submission queue. `bells` holds the doorbell writes that still wait for fetch, oldest first: the tail each wrote and
when (R132). -/
structure Sq where
  base  : Nat
  size  : Nat
  cqid  : Nat
  head  : Nat
  tail  : Nat
  bells : List (Nat × Nat)
deriving DecidableEq, Repr

/-- A completion that waits for space in its queue or on its order (R135). -/
structure CqWait where
  cs  : Nat
  cqe : Cqe
deriving DecidableEq, Repr

/-- A completion queue. `held` lists the slots whose completions wait for space, oldest first. -/
structure Cq where
  base   : Nat
  size   : Nat
  head   : Nat
  tail   : Nat
  phase  : Bool
  vector : Nat
  ien    : Bool
  held   : List CqWait
  fullSeen : Bool
deriving DecidableEq, Repr

/-- An asynchronous event (R115): type, information and log page. -/
structure AEvent where
  typ  : Nat
  info : Nat
  lid  : Nat
deriving DecidableEq, Repr

/-- An Error Information entry, as far as the spec's chapters give one (Table 04-10). -/
structure ErrEnt where
  sqid : Nat
  cid  : Nat
  sct  : Nat
  sc   : Nat
deriving DecidableEq, Repr

/-- A controller: the configuration and BAR0 registers of its function, its queues, events and features. -/
structure FnSt where
  bme     : Bool
  msix    : Bool
  msixMask : List Nat
  msi     : Bool
  cc      : W32
  rdy     : Bool
  cfs     : Bool
  shst    : Nat
  aqa     : W32
  asq     : BitVec 64
  acq     : BitVec 64
  resetting : Bool
  sqs     : Tbl Sq
  cqs     : Tbl Cq
  aers    : List Nat
  events  : List AEvent
  pba     : List Nat
  feats   : Tbl W32
  errs    : List ErrEnt
  errCount : Nat
  coal    : Tbl Nat
  online  : Bool
  changedNs : List Nat
  changedZones : List (Nat × Nat)
deriving DecidableEq, Repr

/-- The command state word of a slot in use (Table 05-2). -/
inductive SlSt where
  | fetched | paced | executing | committed | ending | aborted
deriving DecidableEq, Repr

/-- What a paced or executing command waits on (R131, R118, R14). -/
inductive SlWait where
  | nothing | tokens | buffer | dirty | range | sequencer | event | data | drain | units | persist | test
deriving DecidableEq, Repr

/-- One 4 KiB unit of a read on its way to the host (Table 01-9). `newer` gives the 512-byte blocks of it that the write
buffer holds newer than the rest, with the unit's handle, 0 for zeros (R315). -/
structure RdUnit where
  iu     : Nat
  src    : Nat      -- 0 undecided, 1 write buffer, 2 media, 3 deallocated or unwritten, 4 done
  tag    : Nat
  rid    : Nat
  newer  : List (Nat × W32)
deriving DecidableEq, Repr

/-- A command slot in use (R123, Table 05-2). `order` numbers the fetches; `t0` is when its doorbell made it
visible. -/
structure CSlot where
  st     : SlSt
  wait   : SlWait
  fn     : Fn
  sqid   : Nat
  cid    : Nat
  sqe    : BitVec 512
  order  : Nat
  t0     : Nat
  tenant : Nat
  classified : Bool
  charged : Bool
  pacedAt : Option Nat
  wasPaced : Bool
  discard : Bool
  bufs   : List W32
  tags   : List Nat
  units  : List RdUnit
  want   : Nat
  rsv    : Nat
  commitAt : Nat
  stage  : Nat
  cqe    : Option Cqe
deriving DecidableEq, Repr

/-- A token bucket (R130): its level in 4 KiB units and the fraction carried, in millionths of a unit. -/
structure Bucket where
  level : Int
  frac  : Nat
deriving DecidableEq, Repr

/-- A tenant's counters of Table 05-9. -/
structure TStat where
  readsCharged  : Nat
  writesCharged : Nat
  unitsRead     : Nat
  unitsWritten  : Nat
  pacedUs       : Nat
  conform       : Nat
  late          : Nat
  outside       : Nat
  hist          : Tbl Nat
  discardA      : Nat
  discardB      : Nat
  aborted       : Nat
  notAborted    : Nat
  most          : Nat
deriving DecidableEq, Repr

/-- A fetch of submission entries that is outstanding. -/
structure Fetch where
  fn   : Fn
  qid  : Nat
  n    : Nat
deriving DecidableEq, Repr

/-- The Headgate (chapter 05). -/
structure Hg where
  slots    : Tbl CSlot
  fetches  : List Fetch
  order    : Nat
  sinceAdmin : Nat
  rrAdmin  : Nat
  drr      : Tbl Nat
  deficit  : Tbl Int
  rrSq     : Tbl Nat
  contracts : Tbl Contract
  saved    : Tbl Contract
  rbucket  : Tbl Bucket
  wbucket  : Tbl Bucket
  stats    : Tbl TStat
  cmdResult : Nat
  commits  : Nat
deriving DecidableEq, Repr

/-- The admin sequencer, subsystem features, firmware staging and self-test (R110, R114, R118). `activating` holds when an
activation began and what its Folio's header says; `selfTest` the code of the test that runs, `selfLog` codes and results,
newest first. -/
structure Adm where
  running  : Option Nat
  feats    : Tbl W32
  saved    : Tbl W32
  tsBase   : Nat
  tsAt     : Nat
  tsSet    : Bool
  apst     : List Byte
  apstSaved : List Byte
  fw       : Tbl Byte
  fwPages  : List Nat
  fwEnd    : Nat
  activating : Option (Nat × RunFolio)
  lateSeen : Bool
  selfTest : Option Nat
  selfLog  : List (Nat × Nat)
deriving DecidableEq, Repr

/-- Sideband management (R120, R121): the bus address, the endpoint, and health status change. -/
structure Mgmt where
  i3cAddr : Option Nat
  eid     : Nat
  mtu     : Nat
  freq    : Nat
  healthEn : Nat
  health  : Nat
  ctlHealth : Tbl Nat
  spdm    : Spdm
deriving DecidableEq, Repr

/-- The JTAG instructions of R471. -/
inductive JtagInstr where
  | bypass | idcode | samplePreload | extest | clamp | highz
deriving DecidableEq, Repr

/-- The TAP (R471): the instruction in force, the data register that it selects, and the boundary-scan chain. -/
structure Jtag where
  instr : JtagInstr
  dr    : BitVec 64
  chain : BitVec 64
deriving DecidableEq, Repr

/-- What leaves the block towards the host, the modules' sideband or the management bus. The list of these is the
model's own record, newest first (assumption log). -/
inductive Out where
  | hostWrite (fn : Fn) (cs : Nat) (bytes : List Byte)
  | kmbWrite (p : Port) (addr : Nat) (bytes : List Byte)
  | readData (fn : Fn) (cs : Nat) (iu : Nat) (data : Option UnitData)
  | cqe (fn : Fn) (cqid sqid cid sqhd : Nat) (e : Cqe)
  | msix (fn : Fn) (vec : Nat)
  | msi (p : Port)
  | fetch (fn : Fn) (qid first n : Nat)
  | spdm (p : Option Port) (code : Nat) (body : List Byte)
  | mi (status : Nat) (body : List Byte)
  | mctp (body : List Byte)
  | tdo (v : BitVec 64)
  | bpm (port status : Nat) (handle : W32)
  | bpmReady (port owner pool : Nat)
  | flit (slot kind tag n : Nat)
  | lctl (slot : Nat) (ack nak : Option Nat) (lpReq : Bool)
  | mgmtMsg (slot typ : Nat) (bytes : List Byte)
deriving DecidableEq, Repr

/-! ### Gathering Links and module identity (chapters 09 and 10) -/

/-- The link states of Table 09-1. -/
inductive LinkSt where
  | disabled | detect | train | init | active | recovery | lowPower | quarantine
deriving DecidableEq, Repr

/-- An operation on a link, under its tag (R269 to R272). `flits` counts the DATA flits accepted, `cpl` is a
completion that waits for them; `tries` counts operation-timer expiries; `gid` names its Sluice grant; `target` is the
tag that a SUSPEND, RESUME or STATUS concerns. Times are device timestamps in ns. -/
structure TagEnt where
  op     : OpReq
  flits  : Nat
  gotLast : Bool
  cpl    : Option Cpl
  tries  : Nat
  issued : Nat
  gid    : Option Nat
  target : Option Nat
deriving DecidableEq, Repr

/-- What a sequenced flit carries. -/
inductive TxWhat where
  | cmd (tag : Nat)
  | data (tag : Nat)
  | mgmt (typ : Nat)
deriving DecidableEq, Repr

/-- Flits that wait to be sent on a channel: `n` of them. -/
structure TxItem where
  vc   : Nat
  n    : Nat
  what : TxWhat
deriving DecidableEq, Repr

/-- Flits sent and kept for replay: `n` of them from fseq `first` on (R264). -/
structure TxRun where
  first : Nat
  n     : Nat
  vc    : Nat
  what  : TxWhat
deriving DecidableEq, Repr

/-- A link (R259 to R290). Times are device timestamps in ns. -/
structure Link where
  st       : LinkSt
  width    : Nat
  reversed : Bool
  oldWidth : Nat
  eqSaved  : Bool
  viaDetect : Bool
  since    : Nat
  auth     : Nat
  authStep : Nat
  nonce    : Nat
  session  : Option Digest
  authT    : Digest
  quar     : Nat
  tags     : Tbl TagEnt
  txNext   : Nat
  txQueue  : List TxItem
  replay   : List TxRun
  stuck    : Nat
  resent   : Nat
  rxNext   : Nat
  rxUnacked : Nat
  ackSent  : Nat
  nakSent  : Option Nat
  adv      : List Nat
  sent     : List Nat
  ret      : List Nat
  freed    : List Nat
  maxTags  : Nat
  peerSeen : Bool
  gotInit  : Bool
  initSent : Nat
  ping     : Bool
  lpReq    : Bool
  recovAt  : List Nat
  detectAt : List Nat
  tagFailAt : List Nat
  diesFailed : List Nat
  progressAt : Nat
  cmdResult : Nat
deriving DecidableEq, Repr

/-- The dwell of one weir (R383): crossed or not, and the consecutive samples that point the other way. -/
structure Weir where
  crossed : Bool
  run     : Nat
deriving DecidableEq, Repr

/-- A module slot: its sideband pins, its colophon and admission, its monitor and its weirs (R286 to R310, R386).
Temperatures are in 0.25 °C. -/
structure SlotSt where
  present  : Bool
  pwren    : Bool
  rst      : Bool
  alert    : Bool
  blocked  : Bool
  outcome  : Nat
  check    : Nat
  validated : Bool
  colo     : Option (List Byte)
  reading  : Bool
  crcAgain : Bool
  admitted : Bool
  admittedAt : Nat
  inserting : Bool
  pulse    : Bool
  releasedAt : Nat
  cycled   : Bool
  nand     : Int
  nandMax  : Int
  bridge   : Int
  current  : Nat
  voltage  : Nat
  aux      : Nat
  count    : Option Nat
  faults   : Nat
  goods    : Nat
  excluded : Bool
  alertMasked : Bool
  wThrottle : Int
  wDefer   : Int
  wCold    : Int
  cold     : Weir
  opMin    : Weir
  throttle : Weir
  defer    : Weir
  opMax    : Weir
  absMax   : Weir
  kS       : Nat
deriving DecidableEq, Repr

/-- The sideband buses and the links' and slots' shared registers (R291, R292, R308, R310). `logs` holds the counters of log
page 0xC5 by 4 × slot + 0 CRC, 1 recoveries, 2 trainings through DETECT, 3 slow completions (R309). -/
structure Gl where
  links    : Tbl Link
  slots    : Tbl SlotSt
  changed  : BitVec 64
  sbResult : Nat
  busFailed : BitVec 8
  busStuck : BitVec 8
  logs     : Tbl Nat
deriving DecidableEq, Repr

/-! ### Dies and leaf reads (chapter 07) -/

/-- A predictor of R194, in 0.1 µs. -/
structure Pred where
  avg : Int
  dev : Int
deriving DecidableEq, Repr

/-- A read queued for a die or sensing on it: its ordering time and, once issued, its tag (R196). -/
structure DieRead where
  ord  : Nat
  rid  : Option Nat
  dl   : Bool
  tag  : Option Nat
  slc  : Bool
deriving DecidableEq, Repr

/-- A die (R194 to R203, R221, R277). `hold` is the tag of the program or erase it holds. `ranNs` is the running time
up to `runAt`, the moment it last started or resumed. `batch` counts the reads served in the running suspension. -/
structure Die where
  hold     : Option Nat
  kind     : OpKind
  susp     : Bool
  susTag   : Option Nat
  suspends : Nat
  ranNs    : Nat
  runAt    : Nat
  refused  : Bool
  susAt    : Nat
  batch    : Nat
  reads    : List DieRead
  preds    : Tbl Pred
  done     : Nat
  firstAt  : Option Nat
  warm     : Bool
  failed   : Bool
  acceptAt : Nat
deriving DecidableEq, Repr

/-- The paths of R199. `wait` is a read that no path serves yet; `recon` a parity reconstruction of the last rung or
of R214. -/
inductive Path where
  | none | direct | suspend | around | wait | recon
deriving DecidableEq, Repr

/-- The rungs of Table 07-5. -/
inductive Rung where
  | hard | soft2 | soft3 | retry | recon
deriving DecidableEq, Repr

/-- A codeword of a leaf read: the rung it is on, the senses that this rung still waits for, the retry entries tried, the
frame once it is resolved, whether a reconstruction runs beside it, and whether it failed its tag or binding check. -/
structure CwSt where
  rung   : Rung
  need   : Nat
  tries  : Nat
  frame  : Option Frame
  passed : Bool
  early  : Bool
  failed : Bool
deriving DecidableEq, Repr

/-- A leaf read (R192, R199). `parent` names the read that it is a peer of. `pua` is the leaf's, unit bits 0; `units`
lists the command's units with their codeword positions. Times are in ns. -/
structure LeafRead where
  cs       : Option Nat
  parent   : Option Nat
  ns       : Nat
  cls      : Nat
  units    : List (Nat × Nat)
  walked   : Bool
  pua      : Nat
  slc      : Bool
  path     : Path
  decidedAt : Nat
  startAt  : Nat
  deadline : Option Nat
  redecided : Bool
  noAround : Bool
  noSuspend : Bool
  issued   : Bool
  epoch    : Nat
  peers    : List Nat
  cws      : Tbl CwSt
deriving DecidableEq, Repr

/-- The read path. `nextRid` numbers leaf reads; `epoch` is the read epoch of R179. -/
structure Rp where
  dies    : Tbl Die
  reads   : Tbl LeafRead
  nextRid : Nat
  epoch   : Nat
  vref    : Tbl (BitVec 128)
  acc     : Tbl Int
deriving DecidableEq, Repr

/-! ### Quires (chapter 08) -/

/-- Member states (Table 08-2). -/
inductive MemSt where
  | unused | active | lost | joining | releasing | released
deriving DecidableEq, Repr

/-- A member index of a Quire: its state, the slot it is or was last in, the serial and geometry digest recorded (R304),
and its die positions and leaves per QLC block. -/
structure Member where
  st     : MemSt
  slot   : Option Nat
  serial : BitVec 128
  geom   : Digest
  dies   : Nat
  bq     : Nat
deriving DecidableEq, Repr

/-- The relocation that makes a Quire Rebuilding (R245, R250, R252, R253). -/
inductive Work where
  | rebuild | recovery | respread | release (m : Nat)
deriving DecidableEq, Repr

/-- A Quire (R223 to R258). `held` is no_rebuild_spare; `due` says that a loss waits for its rebuild to start;
`patSb` and `patRow` are where the pass stands. -/
structure Quire where
  width    : Nat
  strict   : Bool
  active   : Bool
  autoRespread : Bool
  members  : Tbl Member
  slcShare : Nat
  opPm     : Nat
  spareFloor : Nat
  hours    : Nat
  effective : Nat
  gcReserve : Nat
  rebuildShare : Nat
  ucap     : Nat
  spares   : Tbl Nat
  sparesFirst : Nat
  held     : Bool
  due      : Bool
  work     : Option Work
  workSince : Nat
  workDone : Nat
  workTotal : Nat
  hostA    : Option Nat
  hostB    : Option Nat
  patRows  : Nat
  patTotal : Nat
  patCws   : Nat
  patBeyond : Nat
  patNow   : Bool
  patLate  : Bool
  passAt   : Nat
  passes   : Nat
  lastPass : Nat
  repaired : Nat
  misparity : Nat
  lostUnits : Nat
  rehomedTo : Option Nat
  foldHeld : Bool
  folding  : Option Nat
  victim   : Option Nat
  refreshing : Option Nat
  winUnits : Nat
  winReads : List (Nat × Nat)
  lastWrite : Nat
  debt     : Int
deriving DecidableEq, Repr

/-! ### Translation (chapter 06) -/

/-- What the summaries say of a programmed unit (R159). -/
structure UnitRec where
  ns     : Nat
  iu     : Nat
  gen    : Nat
  keyGen : Nat
deriving DecidableEq, Repr

/-- A block of a journal region in use (R237): pages written, the order in which blocks were begun, and the records that
its descriptor pages list, each by Furrow and jseq. -/
structure RBlk where
  used  : Nat
  first : Nat
  recs  : List (Nat × Nat)
deriving DecidableEq, Repr

/-- The Translation Core. `segBusy` is the checkpoint segment being written with its capture; `regions` is keyed by
block. `map` is keyed 2^40 × namespace + IU, `zones` 2^20 × namespace + zone, `sbs` 2^22 × Quire +
superblock; `jrnl` is the ring with the journal's records, oldest first, and `durable` counts what is programmed.
`unpacked` lists committed units that no superblock takes yet. `lost` is the lost-range table. -/
structure Tc where
  nss      : Tbl Nsp
  map      : Tbl MapEntry
  zones    : Tbl Zone
  sbs      : Tbl Superblock
  summ     : Tbl UnitRec
  furrows  : Tbl Furrow
  jslots   : Tbl JSlot
  jrnl     : List JRec
  head     : Nat
  programmed : Nat
  jseq     : Nat
  openSeq  : Nat
  segs     : Tbl Nat
  segBusy  : Option (Nat × Nat)
  regions  : Tbl RBlk
  lost     : List (Nat × LbaRange)
  retired  : Tbl Nat
  window   : Furrow
  budget   : Nat
  ceiling  : Nat
  draining : Bool
  unpacked : List Packed
  fdpEvents : List (Nat × Nat)
deriving DecidableEq, Repr

/-! ### The Sluice, thermal management and Hold-Up (chapter 14) -/

/-- The part of the global floor that a grant drew on (R379). -/
inductive FloorPart where
  | general | rest | soft
deriving DecidableEq, Repr

/-- A grant held: its request, its charge, and the floors it drew on. -/
structure Grant where
  req    : OpReq
  charge : Nat
  gpart  : FloorPart
  sfloor : Bool
deriving DecidableEq, Repr

/-- A request that waits (R378): since when, and whether its long wait has been counted. -/
structure SluWait where
  id    : Nat
  since : Nat
  req   : OpReq
  long  : Bool
deriving DecidableEq, Repr

/-- A program or erase granted and held back for reads (R197). -/
structure Deferred where
  gid   : Nat
  since : Nat
deriving DecidableEq, Repr

/-- The Sluice. `power` is the package power last measured, in mW (R381). `longs` counts the requests that waited more than 2 ms, for log page 0xC2 (R398). -/
structure Slu where
  held    : Tbl Grant
  waiting : List SluWait
  defer   : List Deferred
  nextId  : Nat
  kD      : Nat
  kR      : Nat
  power   : Nat
  longs   : Nat
deriving DecidableEq, Repr

/-- A die temperature sensor (R382), in 0.25 °C. `hot` counts its consecutive samples of 120 °C or more (R389). -/
structure Sensor where
  temp     : Int
  excluded : Bool
  off      : Nat
  good     : Nat
  hot      : Nat
deriving DecidableEq, Repr

/-- The thermal manager: `top` is the junction temperature, `topMax` the highest since ASSEMBLE (R398). -/
structure Thm where
  sensors  : Tbl Sensor
  top      : Int
  topMax   : Int
  hotWarn  : Weir
  throttle : Weir
  critical : Weir
  shutdown : Weir
  coldWarn : Weir
  coldLimit : Weir
deriving DecidableEq, Repr

/-- The capacitor test and the Hold-Up sequence (R392 to R396). `sealed` says that the seal has been written;
`thermal` that the sequence was started under R388; `failed` that a step cannot finish. -/
structure Hu where
  busy    : Bool
  result  : Nat
  passed  : Bool
  cUf     : Nat
  esr     : Nat
  ceil    : Nat
  ran     : Bool
  esrBad  : Bool
  started : Nat
  due     : Nat
  waiters : List Nat
  sealed  : Bool
  thermal : Bool
  stuck   : Bool
deriving DecidableEq, Repr

/-! ### The Collation Engine (chapter 11) -/

/-- An entry: key, don't-care mask and result word, as the shadow SRAM holds them; unpaired tiles use the low 96 bits.
Range entries have the key of Table 11-3. -/
structure CEnt where
  key  : BitVec 192
  mask : BitVec 192
  res  : BitVec 64
deriving DecidableEq, Repr

/-- The Collation Engine. Entries are listed by group index; `flips` gives the array bits that differ from the shadow,
keyed 65536 × group + index. `tz` and `tg` are the partition being moved to. `readers` counts readers by tag; `dying`
lists the buffers of removed entries that readers still hold; `log` lists the tags inserted since the last clean pass;
`walk` is the window's query: group, key and last index. -/
structure Col where
  cls     : Tbl CEnt
  rng     : Tbl CEnt
  zone    : Tbl CEnt
  gen     : Tbl CEnt
  flips   : Tbl (BitVec 96)
  z       : Nat
  g       : Nat
  tz      : Nat
  tg      : Nat
  busy    : Bool
  seq     : Nat
  resv    : Nat
  fullSeen : Bool
  maxShift : Nat
  readers : Tbl Nat
  dying   : Tbl (List W32)
  remWait : List Nat
  log     : List Nat
  walk    : Option (Nat × BitVec 192 × Nat)
  result  : Nat
  multi   : Bool
  hit     : Nat
deriving DecidableEq, Repr

/-! ### The Buffer Pool Manager (chapter 12) -/

/-- A buffer that is not FREE with clean masks. `st` is 0 FREE, 1 OWNED, 2 ZEROING; `written` and `owed` are masks
of 4 KiB units (R342). -/
structure Buf where
  st      : Nat
  owner   : Nat
  holder  : Nat
  written : Nat
  owed    : Nat
deriving DecidableEq, Repr

/-- A waiting mark (R341). -/
structure BpmWait where
  port  : Nat
  owner : Nat
  pool  : Nat
deriving DecidableEq, Repr

/-- The Buffer Pool Manager. Buffers are keyed 2^19 × pool + index; `data` holds what was written into units, by
handle; an unlisted unit reads zeros. -/
structure Bpm where
  lock    : Bool
  error   : Bool
  bufs    : Tbl Buf
  mins    : Tbl Nat
  caps    : Tbl Nat
  waiting : List BpmWait
  data    : Tbl (List Byte)
  rejects : List (Nat × Nat)
  lastHandle : W32
  lastPort : Nat
  lastReason : Nat
  dramTotal : Nat
  offHalf : Nat
deriving DecidableEq, Repr

/-! ### The DRAM subsystem (chapter 13) -/

/-- The channel states of DMC_CH_STATE. -/
inductive ChSt where
  | absent | training | inService | selfRefresh | failed
deriving DecidableEq, Repr

/-- A rank: whether it reports above 85 °C, its owed count, and whether a forced refresh runs until it is 0 (R359). -/
structure DRank where
  hot    : Bool
  owed   : Nat
  forced : Bool
deriving DecidableEq, Repr

/-- An entry of the correctable-error log (R363). -/
structure CeEnt where
  w      : DWord
  dev    : Nat
  cwMask : Nat
deriving DecidableEq, Repr

/-- A channel: its state and training step, its ranks, its error log, oldest entry first, its remap entries by local page
with the spare page of each, and the words stored poisoned, by 64 × local page + word (R352 to R370). -/
structure DChan where
  st     : ChSt
  step   : Nat
  ranks  : Tbl DRank
  log    : List CeEnt
  remap  : Tbl Nat
  poison : List Nat
deriving DecidableEq, Repr

/-- A DRAM port: its class where DMC_PORT_CFG has changed it, its weir in KiB, its FIFO's bytes and whether it streams, and
whether it is in panic (R356, R358). -/
structure DPort where
  cls    : Option DClass
  weir   : Nat
  fifo   : Nat
  stream : Bool
  panic  : Bool
deriving DecidableEq, Repr

/-- A request that waits at a rank of a subchannel. -/
structure DWait where
  ch  : Nat
  sub : Nat
  req : DReq
deriving DecidableEq, Repr

/-- A correctable error that firmware remembers for its policy (R369): when, channel, rank, row and device. -/
structure CeSeen where
  time : Nat
  ch   : Nat
  rank : Nat
  row  : Nat
  dev  : Nat
deriving DecidableEq, Repr

/-- The DRAM subsystem. `order` lists the channels of the interleave; `used` the granules that have left the fresh
bitmap; `fills` the granules FILLING with the mask of their words written or filled; `hits` the row hits served in a row past
an older request; `retired` the retirement list, by channel and local page, under `listKey`. -/
structure Dmc where
  chans   : Tbl DChan
  order   : List Nat
  used    : List Nat
  fills   : Tbl Nat
  ports   : Tbl DPort
  waiting : List DWait
  hits    : Tbl Nat
  patrolAt : Nat
  patrolSince : Nat
  patrolLate : Bool
  armed0  : Bool
  armed1  : Bool
  fixResult : Nat
  retired : List (Nat × Nat)
  listKey : Digest
  seen    : List CeSeen
  devFailed : List (Nat × Nat)
deriving DecidableEq, Repr

/-! ### Fault containment (chapter 15) -/

/-- The states of a lockstep pair (TC_LP_STATE). -/
inductive LpSt where
  | off | active | standby | taking | selfTest | retired
deriving DecidableEq, Repr

/-- A lockstep pair: its state, the times of its mismatches, and the pair whose tasks it takes over. -/
structure LPair where
  st     : LpSt
  misses : List Nat
  takes  : Option Nat
deriving DecidableEq, Repr

/-- Fault containment: the pairs, the pair of the last mismatch, and the recent disagreements of each engine unit, by
256 × domain + unit (R404, R407). -/
structure Fc where
  pairs   : Tbl LPair
  last    : Nat
  engines : Tbl (List Nat)
deriving DecidableEq, Repr

/-! ### The key ring and Sanitize (chapter 17) -/

/-- What waits for a ring image: the key change of a command, or the start or the end of a Sanitize. -/
inductive RingFor where
  | format (cs : Nat)
  | delete (cs : Nat)
  | sanitize (cs : Nat)
  | sanEnd (ok : Bool)
deriving DecidableEq, Repr

/-- The key ring: the newest image, whether it is durable, the Quires that hold it, the superblocks that hold it and those
of older images that await erasure, namespaces that wait under R436, and what waits for the image. -/
structure Ring where
  seq     : Nat
  durable : Bool
  written : List Nat
  cur     : List (Nat × Nat)
  old     : List (Nat × Nat)
  pending : List Nat
  waits   : Option RingFor
deriving DecidableEq, Repr

/-- Sanitize: the action running or last run, whether one runs, failure mode, the attributes given, and what the log
reports of the last one: 0 never, 1 success, 2 running, 3 failed. -/
structure San where
  action  : Nat
  running : Bool
  failure : Bool
  ndas    : Bool
  ause    : Bool
  cdw10   : W32
  status  : Nat
deriving DecidableEq, Repr

/-! ### The whole device -/

/-- Everything the device holds but its fuses. A POR_N assertion returns all of it to `Dev.reset`. -/
structure Dev where
  clk   : Clk
  pins  : Pins
  pwr   : Pwr
  modes : Modes
  csr   : Tbl W32
  cnt   : Tbl Nat
  evl   : Evl
  kmb   : Tbl Kmb
  boot  : Boot
  bcol  : Bcol
  ports : Tbl HPort
  fns   : Tbl FnSt
  hg    : Hg
  adm   : Adm
  mgmt  : Mgmt
  jtag  : Jtag
  gl    : Gl
  rp    : Rp
  quires : Tbl Quire
  tc    : Tc
  slu   : Slu
  thm   : Thm
  hu    : Hu
  col   : Col
  bpm   : Bpm
  dmc   : Dmc
  fc    : Fc
  ring  : Ring
  san   : San
  out   : List Out
  free  : Nat
deriving DecidableEq, Repr

/-- The machine: the commands that wait, first in first out, the fuses, and the device. -/
structure State where
  pending : List Instr
  fuse    : Fuses
  dev     : Dev
deriving DecidableEq, Repr

/-! ### Reset values -/

/-- The timestamp starts at 0 (R417), on the boot oscillator (R26, R36). -/
def Clk.reset : Clk := ⟨0, false, .boot, false, false, false⟩

/-- POR_N asserted, the resets of both ports asserted, every other pin released (R466). -/
def Pins.reset : Pins := ⟨true, true, true, false, false, false, 0⟩

/-- An OFF domain. -/
def Dom.off : Dom := ⟨.off, .off, false, false, false, false, false⟩

/-- A domain that is ON. -/
def Dom.on : Dom := { Dom.off with st := .on, up := .on }

/-- AON is ON and every other domain OFF (R23). -/
def Pwr.reset : Pwr := ⟨[(0, Dom.on)], none, 0, []⟩

/-- The mode is OFF until POR_N deasserts; every register reads 0 but WDN_MODE.mode (Table 03-2). -/
def Modes.reset : Modes := ⟨.off, .off, 0, 0, 0, false, false, [], [], 0, 0, 0, 0, 0⟩

/-- A reader context as reset: cursor at or above the latched head (R432). -/
def RCtx.reset : RCtx := ⟨false, 0, 0, 0, false⟩

/-- An empty ledger (R419, R432). -/
def Evl.reset : Evl :=
  ⟨[], [], 0, false, [], false, 0, 0, [], false, 0, 0, [], [], 0, 0, false, 0, 0, none, [], false, []⟩

/-- A mailbox after reset (R43, R44): its mode field reads AWAIT_IMAGE. -/
def Kmb.reset : Kmb := ⟨0, false, none, 0, 0, 0, 2, 0, 0, 0, [], false, false, false, false⟩

/-- A fuse slot that has never been enrolled (R56). -/
def Owner.blank : Owner := ⟨0, 0, false, false⟩

/-- The fuses of a part that has never been enrolled and whose injection-lock fuse is intact; B0 parts have the
JTAG-lock fuse blown (R471). DESIGN CHOICE: the spec fixes no other fuse value (assumption log). -/
def Fuses.reset : Fuses := ⟨false, 0, [], false, true⟩

/-- A boot that has not begun. -/
def Boot.reset : Boot :=
  ⟨none, none, [], false, none, none, none, none, none, 0, 0, false, false, false, false, 0, false, false, none, 0, 0, 0, 0,
   0, none, none, none, none, none, none, 0, [], [], 0, 0⟩

/-- No Boot Colophon. -/
def Bcol.reset : Bcol := ⟨false, 0, [], [], false⟩

/-- An untrained port. -/
def HPort.reset : HPort := ⟨false, 0, 0, false, false, 0, 0, [], ⟨0, []⟩⟩

/-- A function in its configuration-reset state. -/
def FnSt.reset : FnSt :=
  ⟨false, false, [], false, 0, false, false, 0, 0, 0, 0, false, [], [], [], [], [], [], [], 0, [], true, [], []⟩

/-- An empty token bucket. -/
def Bucket.reset : Bucket := ⟨0, 0⟩

/-- A tenant's counters at 0. -/
def TStat.reset : TStat := ⟨0, 0, 0, 0, 0, 0, 0, 0, [], 0, 0, 0, 0, 0⟩

/-- An idle Headgate. -/
def Hg.reset : Hg := ⟨[], [], 0, 0, 0, [], [], [], [], [], [], [], [], 0, 0⟩

/-- An idle admin sequencer. -/
def Adm.reset : Adm := ⟨none, [], [], 0, 0, false, [], [], [], [], 0, none, false, none, []⟩

/-- The management interface as an SMBus target without an endpoint ID; the transmission unit is 64 bytes and the
bus runs at 100 kHz (R120). -/
def Mgmt.reset : Mgmt := ⟨none, 0, 64, 1, 0, 0, [], ⟨0, []⟩⟩

/-- The TAP holds IDCODE after reset, as IEEE 1149.1 has it. -/
def Jtag.reset : Jtag := ⟨.idcode, 0, 0⟩

/-- A link after reset: DISABLED, nothing outstanding. -/
def Link.reset : Link where
  st := .disabled
  width := 0
  reversed := false
  oldWidth := 0
  eqSaved := false
  viaDetect := false
  since := 0
  auth := 0
  authStep := 0
  nonce := 0
  session := none
  authT := 0
  quar := 0
  tags := []
  txNext := 0
  txQueue := []
  replay := []
  stuck := 0
  resent := 0
  rxNext := 0
  rxUnacked := 0
  ackSent := 0
  nakSent := none
  adv := [0, 0, 0]
  sent := [0, 0, 0]
  ret := [0, 0, 0]
  freed := [0, 0, 0]
  maxTags := 0
  peerSeen := false
  gotInit := false
  initSent := 0
  ping := false
  lpReq := false
  recovAt := []
  detectAt := []
  tagFailAt := []
  diesFailed := []
  progressAt := 0
  cmdResult := 0

/-- A weir not crossed. -/
def Weir.reset : Weir := ⟨false, 0⟩

/-- An empty slot. -/
def SlotSt.reset : SlotSt where
  present := false
  pwren := false
  rst := true
  alert := false
  blocked := false
  outcome := 0
  check := 0
  validated := false
  colo := none
  reading := false
  crcAgain := false
  admitted := false
  admittedAt := 0
  inserting := false
  pulse := false
  releasedAt := 0
  cycled := false
  nand := 0
  nandMax := 0
  bridge := 0
  current := 0
  voltage := 0
  aux := 0
  count := none
  faults := 0
  goods := 0
  excluded := false
  alertMasked := false
  wThrottle := 0
  wDefer := 0
  wCold := 0
  cold := .reset
  opMin := .reset
  throttle := .reset
  defer := .reset
  opMax := .reset
  absMax := .reset
  kS := 0

/-- No link trained, no slot occupied. -/
def Gl.reset : Gl := ⟨[], [], 0, 0, 0, 0, []⟩

/-- An idle die without history. -/
def Die.reset : Die := ⟨none, .readQlc, false, none, 0, 0, 0, false, 0, 0, [], [], 0, none, false, false, 0⟩

/-- No read in progress. -/
def Rp.reset : Rp := ⟨[], [], 0, 0, [], []⟩

/-- A FREE Furrow: no superblock, no namespace (the reset values of the TC_FURROW window). -/
def Furrow.reset : Furrow :=
  ⟨.free, 0, 0, none, none, none, 0, 0, [], 0, [], 0, 0, 0, false⟩

/-- A Translation Core without namespaces. -/
def Tc.reset : Tc where
  nss := []
  map := []
  zones := []
  sbs := []
  summ := []
  furrows := []
  jslots := []
  jrnl := []
  head := 0
  programmed := 0
  jseq := 0
  openSeq := 0
  segs := []
  segBusy := none
  regions := []
  lost := []
  retired := []
  window := Furrow.reset
  budget := 0
  ceiling := 0
  draining := false
  unpacked := []
  fdpEvents := []

/-- A Sluice that has granted nothing. -/
def Slu.reset : Slu := ⟨[], [], [], 0, 0, 0, 0, 0⟩

/-- A sensor before its first sample. -/
def Sensor.reset : Sensor := ⟨0, false, 0, 0, 0⟩

/-- The thermal manager before its first sample. -/
def Thm.reset : Thm := ⟨[], 0, 0, .reset, .reset, .reset, .reset, .reset, .reset⟩

/-- No capacitor test yet. -/
def Hu.reset : Hu := ⟨false, 0, false, 0, 0, 0, false, false, 0, 0, [], false, false, false⟩

/-- An empty Collation Engine with 63 range tiles. -/
def Col.reset : Col :=
  ⟨[], [], [], [], [], 0, 0, 0, 0, false, 0, 0, false, 0, [], [], [], [], none, 0, false, 0⟩

/-- Unlocked pools without buffers. -/
def Bpm.reset : Bpm := ⟨false, false, [], [], [], [], [], [], 0, 0, 0, 0, 0⟩

/-- A channel that is absent. -/
def DChan.reset : DChan := ⟨.absent, 0, [], [], [], []⟩

/-- A rank that owes no refresh. -/
def DRank.reset : DRank := ⟨false, 0, false⟩

/-- A port in its default class with the default weir of 8 KiB (R358). -/
def DPort.reset : DPort := ⟨none, 8, 0, false, false⟩

/-- Untrained DRAM. -/
def Dmc.reset : Dmc where
  chans := []
  order := []
  used := []
  fills := []
  ports := []
  waiting := []
  hits := []
  patrolAt := 0
  patrolSince := 0
  patrolLate := false
  armed0 := false
  armed1 := false
  fixResult := 0
  retired := []
  listKey := 0
  seen := []
  devFailed := []

/-- A pair that is OFF. -/
def LPair.reset : LPair := ⟨.off, [], none⟩

/-- No pair running. -/
def Fc.reset : Fc := ⟨[], 0, []⟩

/-- No ring image read yet. -/
def Ring.reset : Ring := ⟨0, false, [], [], [], [], none⟩

/-- No Sanitize. -/
def San.reset : San := ⟨0, false, false, false, false, 0, 0⟩

/-- The device with POR_N asserted. -/
def Dev.reset : Dev where
  clk := .reset
  pins := .reset
  pwr := .reset
  modes := .reset
  csr := []
  cnt := []
  evl := .reset
  kmb := []
  boot := .reset
  bcol := .reset
  ports := []
  fns := []
  hg := .reset
  adm := .reset
  mgmt := .reset
  jtag := .reset
  gl := .reset
  rp := .reset
  quires := []
  tc := .reset
  slu := .reset
  thm := .reset
  hu := .reset
  col := .reset
  bpm := .reset
  dmc := .reset
  fc := .reset
  ring := .reset
  san := .reset
  out := []
  free := 0

/-- The machine right after reset: OFF, POR_N asserted, no command waiting. -/
def State.reset : State := ⟨[], .reset, .reset⟩

end Sys2Proof.Machine
end

