-- ==== Sys2Proof/Machine/Tbl.lean ====
section
/-! DEFINITION. Reading and writing sparse tables. Writing keeps the keys strictly rising, and a table that says
what an unlisted key reads as lists no entry equal to it, so equal tables are equal data. -/

namespace Sys2Proof.Machine

/-- The entry listed under `k`, if any. -/
def Tbl.get? {α : Type} : Tbl α → Nat → Option α
  | [], _ => none
  | (k', v) :: t, k => if k = k' then some v else Tbl.get? t k

/-- List `v` under `k`, or take the entry under `k` away. -/
def Tbl.set? {α : Type} : Tbl α → Nat → Option α → Tbl α
  | [], k, some v => [(k, v)]
  | [], _, none => []
  | (k', v') :: t, k, some v =>
    if k < k' then (k, v) :: (k', v') :: t
    else if k = k' then (k, v) :: t
    else (k', v') :: Tbl.set? t k (some v)
  | (k', v') :: t, k, none => if k = k' then Tbl.set? t k none else (k', v') :: Tbl.set? t k none

/-- Reading a table whose unlisted keys read as `dflt`. -/
def Tbl.get {α : Type} (dflt : α) (t : Tbl α) (k : Nat) : α := (Tbl.get? t k).getD dflt

/-- Writing a table whose unlisted keys read as `dflt`. -/
def Tbl.put {α : Type} [DecidableEq α] (dflt : α) (t : Tbl α) (k : Nat) (v : α) : Tbl α :=
  Tbl.set? t k (if v = dflt then none else some v)

/-- Adding an entry, replacing one already listed. -/
def Tbl.ins {α : Type} (t : Tbl α) (k : Nat) (v : α) : Tbl α := Tbl.set? t k (some v)

/-- Taking an entry away. -/
def Tbl.del {α : Type} (t : Tbl α) (k : Nat) : Tbl α := Tbl.set? t k none

/-- Whether an entry is listed. -/
def Tbl.has {α : Type} (t : Tbl α) (k : Nat) : Bool := (Tbl.get? t k).isSome

/-- Changing a listed entry; nothing where none is listed. -/
def Tbl.upd {α : Type} (t : Tbl α) (k : Nat) (f : α → α) : Tbl α :=
  match Tbl.get? t k with
  | some v => Tbl.set? t k (some (f v))
  | none => t

/-- Changing the value a key reads as, in a table whose unlisted keys read as `dflt`. -/
def Tbl.mod {α : Type} [DecidableEq α] (dflt : α) (t : Tbl α) (k : Nat) (f : α → α) : Tbl α :=
  Tbl.put dflt t k (f (Tbl.get dflt t k))

/-- The canonical form: strictly rising keys. -/
def Tbl.wf {α : Type} : Tbl α → Bool
  | [] => true
  | [_] => true
  | (k, _) :: (k', v') :: t => decide (k < k') && Tbl.wf ((k', v') :: t)

end Sys2Proof.Machine
end

