-- ==== Sys2Proof/Machine/Ops.lean ====
section
/-! DEFINITION. The named operations that the meanings share: numbers and bytes, the device timestamp, offering a
record to the ledger, what leaves the block, and counters. -/

namespace Sys2Proof.Machine

/-! ### Ports and functions as keys -/

/-- A port's number: 0 A, 1 B. -/
def Port.num : Port → Nat
  | .a => 0
  | .b => 1

/-- The other port. -/
def Port.other : Port → Port
  | .a => .b
  | .b => .a

/-- A function's key: 2n for Port A and 2n + 1 for Port B, with n = 0 for the PF. -/
def Fn.key : Fn → Nat
  | .pf p => p.num
  | .vf p n => 2 * n + p.num

/-- A function's port. -/
def Fn.port : Fn → Port
  | .pf p => p
  | .vf p _ => p

/-- The function with a key. -/
def Fn.ofKey (k : Nat) : Fn :=
  let p := if k % 2 = 0 then Port.a else Port.b
  if k / 2 = 0 then .pf p else .vf p (k / 2)

/-- The controller identifier of a function (Table 04-2). -/
def Fn.cntlid : Fn → Nat
  | .pf p => p.num + 1
  | .vf .a n => 0x1000 + n
  | .vf .b n => 0x2000 + n

/-- Whether a function is a PF. -/
def Fn.isPf : Fn → Bool
  | .pf _ => true
  | .vf _ _ => false

/-- The tenant a function serves: VF n serves tenant n − 1, the PFs together tenant 512 (R95, R128). -/
def Fn.tenant : Fn → Nat
  | .pf _ => 512
  | .vf _ n => n - 1


/-- Running a change of the device as a command's outcome. The queue and the fuses are as before. -/
def State.onDev (s : State) (f : Dev → Dev) : State := { s with dev := f s.dev }

/-! ### Numbers and bytes -/

/-- Bits `hi` to `lo` of a number. -/
def bitsOf (v hi lo : Nat) : Nat := v / 2 ^ lo % 2 ^ (hi + 1 - lo)

/-- Bit `i` of a number. -/
def bitOf (v i : Nat) : Bool := v / 2 ^ i % 2 = 1

/-- A number of at most `n` bits: it stops at the largest (R10). -/
def sat (n v : Nat) : Nat := min v (2 ^ n - 1)

/-- Division rounded up. -/
def ceilDiv (a b : Nat) : Nat := (a + b - 1) / b

/-- The `n` bytes of a number, bits [7:0] first (R7). -/
def leBytes : Nat → Nat → List Byte
  | 0, _ => []
  | n + 1, v => BitVec.ofNat 8 v :: leBytes n (v / 256)

/-- The number that bytes spell, bits [7:0] first (R7). -/
def leNat : List Byte → Nat
  | [] => 0
  | b :: l => b.toNat + 256 * leNat l

/-- `n` bytes of a list from offset `o`; bytes beyond its end read 0. -/
def slice (l : List Byte) (o n : Nat) : List Byte :=
  let m := (l.drop o).take n
  m ++ List.replicate (n - m.length) 0

/-- The number at offset `o` in `n` bytes. -/
def fieldAt (l : List Byte) (o n : Nat) : Nat := leNat (slice l o n)

/-- Whether every byte from offset `o`, `n` bytes long, is 0. -/
def zeroAt (l : List Byte) (o n : Nat) : Bool := (slice l o n).all (· = 0)

/-- A signed number of `n` bytes as its bits. -/
def twos (n : Nat) (v : Int) : Nat := (v % 2 ^ (8 * n)).toNat

/-- The signed reading of `n` bits. -/
def signed (n v : Nat) : Int := if v % 2 ^ n < 2 ^ (n - 1) then (v % 2 ^ n : Nat) else (v % 2 ^ n : Nat) - (2 ^ n : Nat)

/-- A Bool as a bit. -/
def bit (b : Bool) : Nat := if b then 1 else 0

/-- A set of bits given by the indexes below `n` that a test picks. -/
def maskOf : Nat → (Nat → Bool) → Nat
  | 0, _ => 0
  | n + 1, f => maskOf n f + (if f n then 2 ^ n else 0)

/-! ### CRC-32C (R416) -/

/-- One bit of CRC-32C, reflected polynomial 0x82F63B78. -/
def crc32cBit (c : BitVec 32) : BitVec 32 := if c.getLsbD 0 then (c >>> 1) ^^^ 0x82F63B78#32 else c >>> 1

/-- One byte of CRC-32C. -/
def crc32cByte (c : BitVec 32) (b : Byte) : BitVec 32 :=
  let c := c ^^^ b.zeroExtend 32
  crc32cBit (crc32cBit (crc32cBit (crc32cBit (crc32cBit (crc32cBit (crc32cBit (crc32cBit c)))))))

/-- CRC-32C of a byte string. -/
def crc32c (l : List Byte) : BitVec 32 := ~~~ (l.foldl crc32cByte 0xFFFFFFFF#32)

/-! ### Time (R417) -/

/-- The device timestamp, rounded to the nanosecond: 64 bits. -/
def Dev.now (d : Dev) : Nat := (d.clk.ns64 + 32) / 64 % 2 ^ 64

/-- The timestamp in milliseconds. -/
def Dev.nowMs (d : Dev) : Nat := d.clk.ns64 / 64000000

/-! ### Finding a function; ports, functions and mailboxes in the state -/

/-- The function with a controller identifier, if there is one. -/
def fnOfCntlid (c : Nat) : Option Fn :=
  if c = 1 then some (.pf .a)
  else if c = 2 then some (.pf .b)
  else if 0x1001 ≤ c ∧ c ≤ 0x1200 then some (.vf .a (c - 0x1000))
  else if 0x2001 ≤ c ∧ c ≤ 0x2200 then some (.vf .b (c - 0x2000))
  else none

/-- A port's state. -/
def Dev.hport (d : Dev) (p : Port) : HPort := d.ports.get .reset p.num

/-- Changing a port's state. -/
def Dev.modPort (d : Dev) (p : Port) (f : HPort → HPort) : Dev :=
  { d with ports := d.ports.mod .reset p.num f }

/-- A function's state. -/
def Dev.fnst (d : Dev) (f : Fn) : FnSt := d.fns.get .reset f.key

/-- Changing a function's state. -/
def Dev.modFn (d : Dev) (f : Fn) (g : FnSt → FnSt) : Dev := { d with fns := d.fns.mod .reset f.key g }

/-- A PF's mailbox. -/
def Dev.box (d : Dev) (p : Port) : Kmb := d.kmb.get .reset p.num

/-- Changing a PF's mailbox. -/
def Dev.modBox (d : Dev) (p : Port) (f : Kmb → Kmb) : Dev := { d with kmb := d.kmb.mod .reset p.num f }

/-! ### What leaves the block, free values and counters -/

/-- Recording what leaves the block. -/
def Dev.emit (d : Dev) (o : Out) : Dev := { d with out := o :: d.out }

/-- The step of the counter that free values are taken from. -/
def Dev.tickFree (d : Dev) : Dev := { d with free := d.free + 1 }

/-- Adding to the RC counter of `w` bits that starts at bit `lo` of the register at `a`; it saturates (R10). -/
def Dev.count (d : Dev) (a lo w : Nat) (n : Nat := 1) : Dev :=
  { d with cnt := d.cnt.put 0 (32 * a + lo) (sat w (d.cnt.get 0 (32 * a + lo) + n)) }

/-- An RC counter's value. -/
def Dev.counter (d : Dev) (a lo : Nat) : Nat := d.cnt.get 0 (32 * a + lo)

/-! ### Offering a record to the ledger (R418, R420, R422) -/

/-- A payload field: a register or structure field of `w` bytes, or a byte string. -/
inductive PField where
  | num (w v : Nat)
  | str (l : List Byte)
deriving DecidableEq, Repr

/-- The padding that brings an offset to a multiple of `n`. -/
def padTo (n : Nat) (l : List Byte) : List Byte := l ++ List.replicate ((n - l.length % n) % n) 0

/-- The payload that fields make, each aligned to its width, strings to 4 bytes, the whole padded to a multiple of
4 (R418). -/
def payloadOf (fs : List PField) : List Byte :=
  padTo 4 (fs.foldl (fun acc f =>
    match f with
    | .num w v => padTo w acc ++ leBytes w v
    | .str l => padTo 4 acc ++ l) [])

/-- Whether an event code is critical (R418). -/
def codeCritical (code : Nat) : Bool := bitOf code 15

/-- The subsystem of an event code (R418). -/
def codeSub (code : Nat) : Nat := bitsOf code 14 11

/-- Where EVL_DROPS sits (R432). -/
def aEvlDrops : Nat := 0x4B000010

/-- The offers of a code from a source in the running second. -/
def Evl.suppOf (e : Evl) (code src : Nat) : Option Supp := e.supp.find? (fun x => x.code = code ∧ x.src = src)

/-- Counting an offer (R422): the second is counted from the first of them. -/
def Evl.countOffer (e : Evl) (code src sup : Nat) : Evl :=
  match e.suppOf code src with
  | none => { e with supp := ⟨code, src, 1, 0⟩ :: e.supp }
  | some _ => { e with supp := e.supp.map (fun x =>
      if x.code = code ∧ x.src = src then ⟨x.code, x.src, x.offered + 1, x.suppressed + sup⟩ else x) }

/-- How many records wait in a source's holding queue (R420). -/
def Evl.holding (e : Evl) (src : Nat) : Nat := (e.queues.filter (fun h => h.src = src)).length

/-- Offering a record with its payload bytes: a non-critical code offered more than 64 times in a second is
suppressed (R422), and a record that meets a full holding queue is dropped (R420). -/
def Dev.offer (d : Dev) (code src : Nat) (payload : List Byte) : Dev :=
  let n := match d.evl.suppOf code src with
    | some x => x.offered
    | none => 0
  if codeCritical code = false ∧ 64 ≤ n then
    { (d.count aEvlDrops 16 16) with evl := d.evl.countOffer code src 1 }
  else
    let e := if codeCritical code then d.evl else d.evl.countOffer code src 0
    if 8 ≤ e.holding src then { (d.count aEvlDrops 0 16) with evl := e }
    else { d with evl := { e with queues := e.queues ++ [⟨code, src, d.now, payload.take 236⟩] } }

/-- Recording an event of instance `inst` of its subsystem with the fields named (R416, R418). -/
def Dev.ev (d : Dev) (code inst : Nat) (fs : List PField := []) : Dev :=
  d.offer code (16 * codeSub code + inst % 16) (payloadOf fs)

end Sys2Proof.Machine
end

