-- ==== Sys2Proof/Machine/Imposition.lean ====
section
/-! DEFINITION. Reading and checking the Imposition (R59 to R61, R477): its framing, its owner signature, and the
format of each section body as its own chapter gives it. A check answers `none` when it passes, and otherwise the
mailbox status and detail. -/

namespace Sys2Proof.Machine

/-! ### Contract records (Table 05-4) -/

/-- 0xFFFF_FFFF. -/
def allOnes32 : Nat := 0xFFFFFFFF

/-- Whether a rate field is in range; unlimited is not allowed where `lim` holds. -/
def rateOk (v : Nat) (lim : Bool) : Bool :=
  (decide (1 ≤ v) && decide (v ≤ 8000000)) || (decide (v = allOnes32) && !lim)

/-- Whether a burst field is in range; it is ignored when its rate is unlimited. -/
def burstOk (rate v : Nat) : Bool := decide (rate = allOnes32) || (decide (1 ≤ v) && decide (v ≤ 1048576))

/-- Whether a 64-byte contract record is in the ranges of Table 05-4. `impo` admits tenant 0xFFFF and requires flags
0 (R147). -/
def contractOk (b : List Byte) (impo : Bool) : Bool :=
  let tenant := fieldAt b 0 2
  let cls := fieldAt b 2 1
  let flags := fieldAt b 3 1
  let rr := fieldAt b 4 4
  let wr := fieldAt b 8 4
  let rsv := fieldAt b 20 2
  let cap := fieldAt b 22 2
  (decide (tenant ≤ 512) || (impo && decide (tenant = 0xFFFF)))
  && decide (cls ≤ 3)
  && (if impo then decide (flags = 0) else decide (flags ≤ 1))
  && rateOk rr (decide (cls ≤ 1)) && rateOk wr false
  && burstOk rr (fieldAt b 12 4) && burstOk wr (fieldAt b 16 4)
  && decide (rsv ≤ 4096) && decide (rsv ≤ cap)
  && (if tenant = 512 then decide (1 ≤ cap) && decide (cap ≤ 32768) else decide (cap ≤ 16384))
  && decide (16 ≤ fieldAt b 24 1) && decide (fieldAt b 24 1 ≤ 63)
  && decide (1 ≤ fieldAt b 25 1) && zeroAt b 26 38

/-- A rate as a contract holds it. -/
def rateOf (v : Nat) : Option Nat := if v = allOnes32 then none else some v

/-- The contract that a record spells. -/
def parseContract (b : List Byte) : Contract :=
  ⟨fieldAt b 2 1, bitOf (fieldAt b 3 1) 0, rateOf (fieldAt b 4 4), rateOf (fieldAt b 8 4), fieldAt b 12 4, fieldAt b 16 4,
   fieldAt b 20 2, fieldAt b 22 2, fieldAt b 24 1, fieldAt b 25 1⟩

/-- The record that spells a contract. -/
def contractBytes (tenant : Nat) (c : Contract) (saved : Bool) : List Byte :=
  leBytes 2 tenant ++ leBytes 1 c.cls ++ leBytes 1 (bit saved)
  ++ leBytes 4 (c.readRate.getD allOnes32) ++ leBytes 4 (c.writeRate.getD allOnes32)
  ++ leBytes 4 c.readBurst ++ leBytes 4 c.writeBurst ++ leBytes 2 c.slotReserve ++ leBytes 2 c.slotCap
  ++ leBytes 1 c.writeOwner ++ leBytes 1 c.weight ++ List.replicate 38 0

/-- The built-in default contract (R129). -/
def builtinContract : Contract := ⟨3, false, none, none, 1, 1, 0, 1024, 16, 1⟩

/-! ### Section bodies -/

/-- Whether no value stands twice in a list. -/
def distinct {α : Type} [DecidableEq α] : List α → Bool
  | [] => true
  | x :: l => !(l.contains x) && distinct l

/-- A range test. -/
def within (v lo hi : Nat) : Bool := decide (lo ≤ v) && decide (v ≤ hi)

/-- 0x0001, the slot map (R300). -/
def slotMapOk (b : List Byte) : Bool :=
  decide (b.length = 264) && decide (fieldAt b 0 1 = 1) && zeroAt b 1 7
  && (List.range 64).all (fun s =>
    let v := fieldAt b (8 + 4 * s) 4
    decide (v ≤ 3) && decide (v ≠ 2))

/-- The slots a slot map enables. -/
def mapEnables (b : List Byte) (s : Nat) : Bool := bitOf (fieldAt b (8 + 4 * s) 1) 0

/-- The member slots of a Quire record (Table 08-1). -/
def recMembers (b : List Byte) (o : Nat) : List Nat := (List.range (fieldAt b (o + 1) 1)).map (fun k => fieldAt b (o + 4 + k) 1)

/-- One Quire record of the layout section, in range (Table 08-1, R225). -/
def quireRecOk (smap b : List Byte) (o : Nat) : Bool :=
  let w := fieldAt b (o + 1) 1
  within (fieldAt b o 1) 0 15 && within w 4 16 && within (fieldAt b (o + 2) 1) 0 1 && within (fieldAt b (o + 3) 1) 0 1
  && (recMembers b o).all (fun s => decide (s < 64) && mapEnables smap s)
  && (List.range (16 - w)).all (fun k => decide (fieldAt b (o + 4 + w + k) 1 = 0xFF))
  && within (fieldAt b (o + 20) 1) 4 64 && zeroAt b (o + 21) 1
  && within (fieldAt b (o + 22) 2) 50 500 && decide (ceilDiv 1000 (w - 1) + 20 ≤ fieldAt b (o + 22) 2)
  && within (fieldAt b (o + 24) 2) 0 1000 && within (fieldAt b (o + 26) 2) 24 336
  && within (fieldAt b (o + 28) 2) 16 4096 && within (fieldAt b (o + 30) 1) 10 100 && zeroAt b (o + 31) 17

/-- 0x0002, the layout (R224, R225). -/
def layoutOk (smap b : List Byte) : Bool :=
  let n := fieldAt b 1 1
  let os := (List.range n).map (fun i => 8 + 48 * i)
  let members := os.flatMap (recMembers b)
  decide (fieldAt b 0 1 = 1) && within n 1 16 && decide (b.length = 8 + 48 * n) && zeroAt b 2 6
  && os.all (quireRecOk smap b)
  && distinct (os.map (fun o => fieldAt b o 1)) && distinct members
  && decide (2 ≤ ((List.range 64).filter (fun s => mapEnables smap s && !(members.contains s))).length)

/-- 0x0003, the power budgets (Table 14-2). -/
def powerOk (b : List Byte) : Bool :=
  let ps0 := fieldAt b 4 4
  let ps1 := fieldAt b 8 4
  let ps2 := fieldAt b 12 4
  let rf := fieldAt b 20 4
  decide (b.length = 288) && decide (fieldAt b 0 1 = 1) && zeroAt b 1 3
  && within ps0 10000 1000000 && within ps1 10000 ps0 && within ps2 10000 ps1 && within (fieldAt b 16 4) 1000 ps0
  && within rf 100 (ps2 / 2) && within (fieldAt b 24 4) 0 (rf / 2) && within (fieldAt b 28 1) 1 64 && zeroAt b 29 3
  && (List.range 64).all (fun s => decide (fieldAt b (32 + 4 * s) 4 ≤ 65535))

/-- Set bits below `n`. -/
def popCount (v : Nat) : Nat → Nat
  | 0 => 0
  | n + 1 => popCount v n + bit (bitOf v n)

/-- 0x0004, the DRAM population (Table 13-1, R350, R351). -/
def dramOk (b : List Byte) : Bool :=
  let ranks := fieldAt b 2 1
  let dens := fieldAt b 3 1
  let ch := fieldAt b 8 2
  decide (b.length = 32) && decide (fieldAt b 0 1 = 1) && within (fieldAt b 1 1) 1 2 && within ranks 1 2 && within dens 0 2
  && (decide (dens = 0) || decide (ranks = 1)) && within (fieldAt b 4 1) 0 3 && within (fieldAt b 5 1) 0 1 && zeroAt b 6 2
  && decide (ch < 4096) && decide (6 ≤ popCount ch 12) && zeroAt b 10 6 && !(zeroAt b 16 16)

/-- 0x0005, the hold-up bank (Table 14-6). -/
def holdupOk (b : List Byte) : Bool :=
  let vf := fieldAt b 8 2
  let drop := fieldAt b 12 2
  decide (b.length = 40) && decide (fieldAt b 0 1 = 1) && zeroAt b 1 3
  && within (fieldAt b 4 4) 1000 10000000 && within vf 5000 60000
  && within (fieldAt b 10 2) 1000 (vf - 2 * drop) && within drop 100 2000
  && decide (ceilDiv vf 2 ≤ fieldAt b 14 2) && decide (fieldAt b 14 2 ≠ 0)
  && within (fieldAt b 16 4) 1000 1000000 && within (fieldAt b 20 4) 1000 1000000
  && within (fieldAt b 24 2) 500 1000 && within (fieldAt b 26 2) 0 500 && within (fieldAt b 28 2) 500 1000
  && within (fieldAt b 30 2) 1 10000 && zeroAt b 32 8

/-- 0x0006, the trust policy (R301). -/
def trustOk (b : List Byte) : Bool :=
  let n := fieldAt b 3 1
  let m := fieldAt b 4 2
  decide (fieldAt b 0 1 = 1) && within (fieldAt b 1 1) 0 1 && within (fieldAt b 2 1) 0 1 && within n 0 8 && within m 0 64
  && zeroAt b 6 2 && decide (b.length = 8 + 48 * n + 16 * m)
  && !(decide (fieldAt b 1 1 = 0) && decide (n = 0) && decide (m = 0))
  && distinct ((List.range n).map (fun i => slice b (8 + 48 * i) 48))
  && distinct ((List.range m).map (fun i => slice b (8 + 48 * n + 16 * i) 16))

/-- 0x0007, the module weirs (R386). -/
def weirsOk (b : List Byte) : Bool :=
  decide (b.length = 264) && decide (fieldAt b 0 1 = 1) && zeroAt b 1 7
  && (List.range 64).all (fun s => zeroAt b (8 + 4 * s + 3) 1)

/-- 0x0008, the tenant defaults (R147). -/
def tenantsOk (b : List Byte) : Bool :=
  let n := fieldAt b 1 2
  decide (fieldAt b 0 1 = 1) && within n 1 514 && zeroAt b 3 5 && decide (b.length = 8 + 64 * n)
  && (List.range n).all (fun i => contractOk (slice b (8 + 64 * i) 64) true)
  && distinct ((List.range n).map (fun i => fieldAt b (8 + 64 * i) 2))

/-- 0x0009, the warm floor (R85). -/
def warmOk (b : List Byte) : Bool :=
  let g := fieldAt b 8 4
  decide (b.length = 16) && decide (fieldAt b 0 1 = 1) && within (fieldAt b 1 1) 0 1
  && (if fieldAt b 1 1 = 1 then
        within (fieldAt b 2 1) 0 8 && within (fieldAt b 3 1) 0 4 && within (fieldAt b 4 1) 1 4 && within (fieldAt b 5 1) 0 1
      else zeroAt b 2 5)
  && zeroAt b 7 1 && (decide (g = 0) || within g 10 10000) && zeroAt b 12 4

/-- The length that the outer DER header at an offset declares, header included; none when it runs past the body. -/
def derLen (b : List Byte) (o : Nat) : Option Nat :=
  let l0 := fieldAt b (o + 1) 1
  if b.length < o + 2 then none
  else if l0 < 0x80 then (if o + 2 + l0 ≤ b.length then some (2 + l0) else none)
  else
    let k := l0 - 0x80
    if k = 0 ∨ 4 < k ∨ b.length < o + 2 + k then none
    else
      let v := leNat (slice b (o + 2) k).reverse
      if o + 2 + k + v ≤ b.length then some (2 + k + v) else none

/-- Where the chain of a certificate body ends (R476): certificates stand end to end, from offset `o`, until fewer
than 4 bytes remain that do not start one. -/
def chainEnd (b : List Byte) : Nat → Nat → Option Nat
  | 0, _ => none
  | n + 1, o =>
    if b.length ≤ o then some o
    else if decide (b.length - o ≤ 3) && zeroAt b o (b.length - o) then some o
    else match derLen b o with
      | none => none
      | some l => chainEnd b n (o + l)

/-- 0x000A, the DeviceID chain (R476). -/
def chainOk (b : List Byte) : Bool :=
  match chainEnd b (b.length + 1) 0 with
  | some o => decide (0 < o)
  | none => false

/-- The DeviceID chain without its padding. -/
def chainBytes (b : List Byte) : List Byte := b.take ((chainEnd b (b.length + 1) 0).getD 0)

/-- The types that Table 02-12 defines. -/
def knownType (t : Nat) : Bool := within t 1 10

/-- A section body against its chapter's format. -/
def bodyOk (secs : Tbl (List Byte)) (t : Nat) (b : List Byte) : Bool :=
  if t = 1 then slotMapOk b
  else if t = 2 then layoutOk (secs.get [] 1) b
  else if t = 3 then powerOk b
  else if t = 4 then dramOk b
  else if t = 5 then holdupOk b
  else if t = 6 then trustOk b
  else if t = 7 then weirsOk b
  else if t = 8 then tenantsOk b
  else if t = 9 then warmOk b
  else if t = 10 then chainOk b
  else true

/-! ### Framing (R59, R477) -/

/-- The sections from offset `o` up to `stop`: their bodies and count, or the detail of the first fault. -/
def parseSections (b : List Byte) (stop : Nat) : Nat → Nat → Tbl (List Byte) → Nat → Tbl (List Byte) × Nat × Option Nat
  | 0, _, acc, n => (acc, n, some 0)
  | fuel + 1, o, acc, n =>
    if o = stop then (acc, n, none)
    else if stop < o + 8 then (acc, n, some 0)
    else
      let t := fieldAt b o 2
      let l := fieldAt b (o + 4) 4
      if fieldAt b (o + 2) 2 ≠ 0 ∨ l % 4 ≠ 0 ∨ stop < o + 8 + l ∨ acc.has t ∨ (knownType t = false ∧ t < 0x8000) then
        (acc, n, some (t % 256))
      else parseSections b stop fuel (o + 8 + l) (acc.ins t (slice b (o + 8) l)) (n + 1)

/-- The first required type that is missing. -/
def firstMissing (secs : Tbl (List Byte)) : Option Nat := [1, 2, 3, 4, 5, 6].find? (fun t => !(secs.has t))

/-- Whether an owner slot is active (R56). -/
def Owner.active (o : Owner) : Bool := o.enrolled && !o.revoked

/-- An owner slot. -/
def Fuses.owner (f : Fuses) (k : Nat) : Owner := f.owners.get .blank k

/-- Whether any owner slot is active. -/
def Fuses.anyActive (f : Fuses) : Bool := (List.range 4).any (fun k => (f.owner k).active)

/-- HELLO's owner slot byte: [3:0] enrolled, [7:4] revoked. -/
def Fuses.slotByte (f : Fuses) : Nat :=
  maskOf 4 (fun k => (f.owner k).enrolled) + 16 * maskOf 4 (fun k => (f.owner k).revoked)

/-- The digests of the two public key fields of a signature part (Table 02-10, R57). -/
def partDigests (part : List Byte) : Digest × Digest :=
  (Config.sha384 (slice part 0 128), Config.sha384 (slice part 0x100 2048))

/-- The owner signature of an Imposition (R61). -/
def ownerSigCheck (fuse : Fuses) (b : List Byte) (signed : Bool) (slot : Nat) : Option (Nat × Nat) :=
  if !fuse.anyActive then none
  else if !signed then some (0x22, 0)
  else
    let o := fuse.owner slot
    let part := b.drop (b.length - 8192)
    let msg := Config.sha384 (b.take (b.length - 8192))
    if !o.active then some (0x21, 1)
    else if partDigests part ≠ (o.ecdsa, o.mldsa) then some (0x21, 2)
    else if !(Config.ecdsaOk (slice part 0 128) msg (slice part 0x80 128)) then some (0x21, 3)
    else if !(Config.mldsaOk (slice part 0x100 2048) msg (slice part 0x900 3584)) then some (0x21, 4)
    else none

/-- The header of an Imposition of the length the command gave (R59, R477). -/
def impoHeaderOk (b : List Byte) : Bool :=
  let flags := fieldAt b 6 2
  decide (fieldAt b 0 4 = 0x504D4924) && decide (fieldAt b 4 2 = 1) && within flags 0 1
  && decide (fieldAt b 8 4 = b.length) && zeroAt b 18 14
  && (if flags = 1 then within (fieldAt b 16 1) 0 3 && decide (64 + 8192 ≤ b.length) else decide (fieldAt b 16 1 = 0xFF))

/-- Every check of R477 after the DMA, in its order; the accepted Imposition when all pass. -/
def checkImposition (fuse : Fuses) (b : List Byte) : Option Impo × Nat × Nat :=
  if !impoHeaderOk b then (none, 0x20, 0)
  else
    let signed := fieldAt b 6 2 = 1
    let stop := if signed then b.length - 8192 else b.length
    let (secs, n, bad) := parseSections b stop (b.length + 1) 64 [] 0
    match bad with
    | some t => (none, 0x20, t)
    | none =>
      if n ≠ fieldAt b 17 1 then (none, 0x20, 0)
      else match firstMissing secs with
        | some t => (none, 0x20, t)
        | none =>
          match ownerSigCheck fuse b signed (fieldAt b 16 1) with
          | some (st, dt) => (none, st, dt)
          | none =>
            match secs.find? (fun x => !(bodyOk secs x.1 x.2)) with
            | some x => (none, 0x20, x.1 % 256)
            | none =>
              (some ⟨Config.sha384 b, fieldAt b 12 4, BitVec.ofNat 256 (leNat (slice b 32 32)), signed, fieldAt b 16 1,
                fuse.anyActive, secs⟩, 0, 0)

end Sys2Proof.Machine
end

