-- ==== Sys2Proof/Machine/Folio.lean ====
section
/-! DEFINITION. Staging and verifying a Folio (R50 to R56, R58, Table 02-11). A check answers `none` when it passes,
and otherwise the mailbox status and detail. -/

namespace Sys2Proof.Machine

/-- The 4 KiB page size of staging. -/
def pageSize : Nat := 4096

/-- Writing bytes into a sparse store from an address on. -/
def storeBytes (c : Tbl Byte) : Nat → List Byte → Tbl Byte
  | _, [] => c
  | a, b :: l => storeBytes (c.put 0 a b) (a + 1) l

/-- Reading `n` bytes of a sparse store. -/
def loadBytes (c : Tbl Byte) (a : Nat) : Nat → List Byte
  | 0 => []
  | n + 1 => c.get 0 a :: loadBytes c (a + 1) n

/-- A little-endian number of a sparse store. -/
def loadNat (c : Tbl Byte) (a n : Nat) : Nat := leNat (loadBytes c a n)

/-- Adding the pages of a chunk to the pages staged, each once. -/
def addPages (pages : List Nat) (first : Nat) : Nat → List Nat
  | 0 => pages
  | n + 1 =>
    let ps := addPages pages first n
    if ps.contains (first + n) then ps else (first + n) :: ps

/-- Staging a chunk: it replaces staged bytes that it overlaps (R50). -/
def Staged.write (s : Staged) (off : Nat) (bytes : List Byte) : Staged :=
  { s with cells := storeBytes s.cells off bytes, pages := addPages s.pages (off / pageSize) (bytes.length / pageSize) }

/-- Whether every 4 KiB of the Folio has been staged. -/
def Staged.complete (s : Staged) : Bool := decide (s.pages.length * pageSize = s.size)

/-- Whether every byte of a range of a sparse store is 0. -/
def zeroRange (c : Tbl Byte) (lo hi : Nat) : Bool := c.all (fun x => decide (x.1 < lo) || decide (hi ≤ x.1))

/-! ### The segment table (R52) -/

/-- A segment entry. -/
structure Seg where
  off  : Nat
  len  : Nat
  load : Nat
  typ  : Nat
  digest : Digest
deriving DecidableEq, Repr

/-- Entry `i` of the segment table. -/
def segAt (c : Tbl Byte) (i : Nat) : Seg :=
  let o := 0x100 + 64 * i
  ⟨loadNat c o 4, loadNat c (o + 4) 4, loadNat c (o + 8) 4, loadNat c (o + 12) 2, BitVec.ofNat 384 (loadNat c (o + 16) 48)⟩

/-- The segments of a Folio. -/
def segments (c : Tbl Byte) : List Seg := (List.range (loadNat c 0x16 2)).map (segAt c)

/-- Whether two segments overlap. -/
def segsApart : List Seg → Bool
  | [] => true
  | s :: l => l.all (fun t => decide (s.off + s.len ≤ t.off) || decide (t.off + t.len ≤ s.off)) && segsApart l

/-- R52's rules for the segment table. -/
def segmentsOk (c : Tbl Byte) (size : Nat) : Bool :=
  let n := loadNat c 0x16 2
  let ss := segments c
  let entry := loadNat c 0x18 4
  let asm := ss.filter (fun s => s.typ = 1)
  within n 1 32
  && ss.all (fun s => decide (s.off % 4096 = 0) && decide (0x1000 ≤ s.off) && decide (s.len % 4096 = 0)
      && decide (4096 ≤ s.len) && decide (s.off + s.len ≤ size - 0x4000) && within s.typ 1 3)
  && segsApart ss && decide ((ss.map (·.len)).sum ≤ 0x2000000)
  && decide (asm.length = 1) && asm.all (fun s => decide (s.load ≤ entry) && decide (entry < s.load + s.len))

/-- Zero padding and reserved bytes of a signature part at `o` (Table 02-10). -/
def partPadOk (c : Tbl Byte) (o : Nat) : Bool :=
  zeroRange c (o + 97) (o + 0x80) && zeroRange c (o + 0xE0) (o + 0x100) && zeroRange c (o + 0x100 + 1952) (o + 0x900)
  && zeroRange c (o + 0x900 + 3309) (o + 0x2000)

/-- Every padding and reserved byte of a Folio is 0 (R51 to R53). -/
def paddingOk (c : Tbl Byte) (size : Nat) : Bool :=
  let n := loadNat c 0x16 2
  let sig := size - 0x4000
  let ss := segments c
  decide (loadNat c 0x06 2 < 8) && zeroRange c 0x1D 0x20 && zeroRange c 0x40 0x100
  && zeroRange c (0x100 + 64 * n) 0x1000
  && (List.range n).all (fun i => decide (loadNat c (0x100 + 64 * i + 14) 2 = 0))
  && c.all (fun x => decide (x.1 < 0x1000) || decide (sig ≤ x.1)
      || ss.any (fun s => decide (s.off ≤ x.1) && decide (x.1 < s.off + s.len)))
  && partPadOk c sig
  && (if bitOf (loadNat c 0x06 2) 0 then partPadOk c (sig + 0x2000) else zeroRange c (sig + 0x2000) (sig + 0x4000))

/-! ### Table 02-11 -/

/-- The fused minimum SVN: the fuses blown from the first without a gap (R58). -/
def countFuses (v : BitVec 128) : Nat → Nat → Nat
  | 0, k => k
  | n + 1, k => if v.getLsbD k then countFuses v n (k + 1) else k

/-- The fused minimum SVN of the part. -/
def Fuses.minSvn (f : Fuses) : Nat := countFuses f.svn 128 0

/-- Check 1. -/
def folioFormat (c : Tbl Byte) (size : Nat) : Option (Nat × Nat) :=
  let flags := loadNat c 0x06 2
  let slot := loadNat c 0x15 1
  let plan := loadNat c 0x1C 1
  if loadNat c 0 4 ≠ 0x4F4C4F46 then some (0x10, 1)
  else if loadNat c 4 2 ≠ 1 then some (0x10, 2)
  else if loadNat c 8 4 ≠ size then some (0x10, 3)
  else if !segmentsOk c size then some (0x10, 4)
  else if !paddingOk c size then some (0x10, 5)
  else if plan % 2 ≠ 1 ∨ 16 ≤ plan then some (0x10, 6)
  else if 128 < loadNat c 0x0C 4 ∨ (bitOf flags 0 = true ∧ 3 < slot) ∨ (bitOf flags 0 = false ∧ slot ≠ 0xFF) then some (0x10, 7)
  else none

/-- The two signatures of a part over a message: ECDSA, then ML-DSA. -/
def partSigs (part : List Byte) (msg : Digest) (who : Nat) : Option (Nat × Nat) :=
  if !(Config.ecdsaOk (slice part 0 128) msg (slice part 0x80 128)) then some (0x12, who)
  else if !(Config.mldsaOk (slice part 0x100 2048) msg (slice part 0x900 3584)) then some (0x13, who)
  else none

/-- Mv, the digest of the header (R53). -/
def folioMv (c : Tbl Byte) : Digest := Config.sha384 (loadBytes c 0 0x1000)

/-- Check 5: the owner's co-signature, where any owner slot is active. -/
def folioOwner (fuse : Fuses) (c : Tbl Byte) (size : Nat) : Option (Nat × Nat) :=
  if !fuse.anyActive then none
  else if !(bitOf (loadNat c 0x06 2) 0) then some (0x15, 0)
  else
    let o := fuse.owner (loadNat c 0x15 1)
    let part := loadBytes c (size - 0x2000) 0x2000
    if !o.active || decide (partDigests part ≠ (o.ecdsa, o.mldsa)) then some (0x16, 0)
    else partSigs part (Config.sha384 (loadBytes c 0 0x1000 ++ loadBytes c (size - 0x4000) 0x2000)) 1

/-- Check 7: the first segment whose digest differs. -/
def folioDigests (c : Tbl Byte) : Option (Nat × Nat) :=
  match (List.range (loadNat c 0x16 2)).find? (fun i =>
      let s := segAt c i
      decide (Config.sha384 (loadBytes c s.off s.len) ≠ s.digest)) with
  | some i => some (0x11, i)
  | none => none

/-- The first answer of a list of checks that fails. -/
def firstFailure : List (Option (Nat × Nat)) → Option (Nat × Nat)
  | [] => none
  | none :: l => firstFailure l
  | some x :: _ => some x

/-- Table 02-11, in order. -/
def folioCheck (fuse : Fuses) (c : Tbl Byte) (size : Nat) : Option (Nat × Nat) :=
  let set := loadNat c 0x14 1
  let vpart := loadBytes c (size - 0x4000) 0x2000
  let keys := slice vpart 0 128 ++ slice vpart 0x100 2048
  firstFailure
    [folioFormat c size,
     if Config.romVersion < loadNat c 0x10 4 then some (0x18, 0) else none,
     if decide (1 < set) || (decide (set = 0) && fuse.set0Revoked) || decide (Config.sha384 keys ≠ Config.vendorDigest set)
       then some (0x14, 0) else none,
     partSigs vpart (folioMv c) 0,
     folioOwner fuse c size,
     if loadNat c 0x0C 4 < fuse.minSvn then some (0x17, 0) else none,
     folioDigests c]

/-- What the header of a verified Folio says. -/
def runFolioOf (fuse : Fuses) (c : Tbl Byte) : RunFolio :=
  let flags := loadNat c 0x06 2
  ⟨folioMv c, loadNat c 0x0C 4, bitOf flags 1, bitOf flags 2, loadNat c 0x14 1, loadNat c 0x15 1, fuse.anyActive,
   loadNat c 0x18 4, loadNat c 0x1C 1, loadBytes c 0x20 32⟩

/-! ### ENROLL_OWNER (R57, Table 02-18) -/

/-- The blob checks of Table 02-18; `enrol` is action 0. -/
def enrolCheck (fuse : Fuses) (b : List Byte) (enrol : Bool) (slot : Nat) : Option (Nat × Nat) :=
  let auth := fieldAt b 6 1
  let part := b.drop 128
  let dg : Digest × Digest := (BitVec.ofNat 384 (fieldAt b 32 48), BitVec.ofNat 384 (fieldAt b 80 48))
  let msg := Config.sha384 (b.take 128)
  let a := fuse.owner auth
  let selfOk := enrol && !fuse.anyActive && decide (auth = 0xFF) && decide (partDigests part = dg)
  let slotOk := (fuse.anyActive || !enrol) && decide (auth ≤ 3) && a.active && decide (partDigests part = (a.ecdsa, a.mldsa))
  if fieldAt b 0 4 ≠ 0x4C4E524F ∨ fieldAt b 4 1 ≠ bit (!enrol) ∨ fieldAt b 5 1 ≠ slot ∨ fieldAt b 7 1 ≠ 0
      ∨ zeroAt b 24 8 = false ∨ ¬ (auth ≤ 3 ∨ auth = 0xFF) ∨ zeroAt b 32 96 = enrol
      ∨ zeroAt part 97 31 = false ∨ zeroAt part 0xE0 0x20 = false ∨ zeroAt part (0x100 + 1952) 96 = false
      ∨ zeroAt part (0x900 + 3309) 19 = false then some (0x41, 1)
  else if fieldAt b 8 16 ≠ Config.serial.toNat then some (0x41, 2)
  else if enrol ∧ (List.range 4).all (fun k => (fuse.owner k).enrolled) then some (0x40, 0)
  else if (enrol ∧ (fuse.owner slot).enrolled) ∨ (¬ enrol ∧ ¬ (fuse.owner slot).active) then some (0x41, 3)
  else if !(selfOk || slotOk) then some (0x41, 4)
  else if !(Config.ecdsaOk (slice part 0 128) msg (slice part 0x80 128)) then some (0x41, 5)
  else if !(Config.mldsaOk (slice part 0x100 2048) msg (slice part 0x900 3328)) then some (0x41, 6)
  else none

/-- The fuses after an ENROLL_OWNER that passed. -/
def Fuses.enrolled (f : Fuses) (b : List Byte) (enrol : Bool) (slot : Nat) : Fuses :=
  let o := f.owner slot
  if enrol then
    let n : Owner := ⟨BitVec.ofNat 384 (fieldAt b 32 48), BitVec.ofNat 384 (fieldAt b 80 48), true, o.revoked⟩
    { f with owners := f.owners.put .blank slot n }
  else { f with owners := f.owners.put .blank slot { o with revoked := true } }

end Sys2Proof.Machine
end

