-- ==== Sys2Proof/Machine/Regs.lean ====
section
/-! DEFINITION. The control space (R11): the registers with fields that software writes, where each register's state
sits, and reading and writing fields. A register holds its reset value until it is written. -/

namespace Sys2Proof.Machine

/-- A register with writable fields: the bits that RW, RWL and W1S fields cover, and its reset value. -/
structure RegDesc where
  addr : Nat
  rw   : W32
  rwl  : W32
  w1s  : W32
  rst  : W32
deriving DecidableEq, Repr

/-! ### Addresses -/

def aPdReq : Nat := 0x40000410
def aWarmFloor : Nat := 0x40000430
def aIdleGate : Nat := 0x40000434
def aHuCtrl : Nat := 0x40000500
def aNsKeyIdx : Nat := 0x40000610
def aHgCtrl : Nat := 0x42000000
def aHgSlotAdmin : Nat := 0x42000014
def aHgStarve : Nat := 0x42000020
def aHgContractIdx : Nat := 0x42000100
def aHgContractData : Nat := 0x42000104
def aHgContractCmd : Nat := 0x42000144
def aHgAbortCnt : Nat := 0x42000200
def aHgCqStall : Nat := 0x42000204
def aColCtrl : Nat := 0x43000000
def aColPart : Nat := 0x43000004
def aColErr : Nat := 0x43000030
def aColErr2 : Nat := 0x43000034
def aColShift : Nat := 0x43000038
def aColKey : Nat := 0x43000100
def aColMask : Nat := 0x43000120
def aColRes : Nat := 0x43000140
def aColIdx : Nat := 0x43000148
def aColCmd : Nat := 0x4300014C
def aTcEraseGate : Nat := 0x44000030
def aTcGcWeir : Nat := 0x44000040
def aTcFurrowIdx : Nat := 0x44000100
def aTcFurrowCmd : Nat := 0x44000124
def aTcQuireIdx : Nat := 0x44000200
def aTcLpCkpt : Nat := 0x44000304
def aTcLpCnt : Nat := 0x44000308
def aGlCtrl : Nat := 0x45000000
def aGlTimer : Nat := 0x45000004
def aRpDeadline0 : Nat := 0x4500F000
def aRpDeadline1 : Nat := 0x4500F004
def aRpCtrl : Nat := 0x4500F008
def aRpDieIdx : Nat := 0x4500F010
def aRpCnt : Nat := 0x4500F020
def aRpCeilIdx : Nat := 0x4500F044
def aLnk (slot : Nat) : Nat := 0x45010000 + 0x100 * slot
def aSbChg : Nat := 0x45080020
def aSbCmd : Nat := 0x45080030
def aI3cCtrl : Nat := 0x45080040
def aI3cBus : Nat := 0x45080044
def aColoIdx : Nat := 0x45080050
def aLadderCtrl : Nat := 0x46000100
def aVrefCtrl : Nat := 0x46000104
def aLadderCnt : Nat := 0x46000110
def aTagFail : Nat := 0x46000130
def aTagReason : Nat := 0x46000200
def aSigCtrl : Nat := 0x47000000
def aPatrolTrend : Nat := 0x47000020
def aSigQIdx : Nat := 0x47000100
def aSigCnt : Nat := 0x47000200
def aBpmCtrl : Nat := 0x48000000
def aBpmSbRsv : Nat := 0x48000004
def aBpmPoolCnt : Nat := 0x48000100
def aBpmPoolSb1 : Nat := 0x48000120
def aBpmPoolFail : Nat := 0x48000180
def aBpmOwnIdx : Nat := 0x48000200
def aBpmOwnMin : Nat := 0x48000204
def aBpmOwnCap : Nat := 0x48000208
def aBpmMisfree : Nat := 0x48000300
def aBpmMisfreePort : Nat := 0x48000308
def aDmcCtrl : Nat := 0x49000000
def aDmcPortIdx : Nat := 0x49000010
def aDmcPortCfg : Nat := 0x49000014
def aDmcPanic : Nat := 0x49000018
def aDmcRefForced : Nat := 0x49000140
def aDmcUeCnt : Nat := 0x49000144
def aDmcCeLog (c : Nat) : Nat := 0x49000200 + 0x20 * c
def aDmcFix : Nat := 0x49000400
def aDmcFixCmd : Nat := 0x49000404
def aDmcInjMask : Nat := 0x49000500
def aDmcInjCtrl : Nat := 0x4900050C
def aSluCharge : Nat := 0x4A00000C
def aSluWait : Nat := 0x4A000010
def aSluSlotIdx : Nat := 0x4A000100
def aThmSensorIdx : Nat := 0x4A800010
def aEvlCtx (k : Nat) : Nat := 0x4B001000 + 0x400 * k

/-- `n` like registers from address `a`, `stride` bytes apart. -/
def regRun (n a stride : Nat) (rw rwl rst : W32) : List RegDesc :=
  (List.range n).map (fun i => ⟨a + stride * i, rw, rwl, 0, rst⟩)

/-- The writable registers of the Warden, the Headgate and the Collation Engine. -/
def regsFront : List RegDesc :=
  [⟨aPdReq, 0x33F, 0, 0, 0⟩, ⟨aWarmFloor, 0xFFFFF, 0, 0, 0x80⟩, ⟨aIdleGate, 0x3FFF, 0, 0, 0xC8⟩,
   ⟨aNsKeyIdx, 0x3FF, 0, 0, 0⟩, ⟨aHgCtrl, 0xFB, 0, 0, 0xF0⟩, ⟨aHgSlotAdmin, 0x7FF, 0, 0, 0x400⟩,
   ⟨aHgStarve, 0xFFFFFFFF, 0, 0, 0x01F43205⟩, ⟨aHgContractIdx, 0x3FF, 0, 0, 0⟩]
  ++ regRun 16 aHgContractData 4 0xFFFFFFFF 0 0
  ++ [⟨aColCtrl, 0x1FD, 0, 0, 1⟩, ⟨aColPart, 0x18, 0, 0, 0⟩]
  ++ regRun 6 aColKey 4 0xFFFFFFFF 0 0 ++ regRun 6 aColMask 4 0xFFFFFFFF 0 0
  ++ regRun 2 aColRes 4 0xFFFFFFFF 0 0
  ++ [⟨aColIdx, 0xFFFF, 0, 0, 0⟩, ⟨aColCmd, 0x3F, 0, 0, 0⟩]

/-- The writable registers of the Translation Core, the links, the codec and the Signature Engine. -/
def regsMedia : List RegDesc :=
  [⟨aTcGcWeir, 0xFFFFFF, 0, 0, 0x800308⟩, ⟨aTcFurrowIdx, 0xFFF, 0, 0, 0⟩, ⟨aTcQuireIdx, 0xF, 0, 0, 0⟩,
   ⟨aTcLpCkpt, 0x3FF, 0, 0, 0x1F4⟩, ⟨aGlCtrl, 0xFFFF03, 0, 0, 0x080803⟩, ⟨aGlTimer, 0xFFF, 0, 0, 0x514⟩,
   ⟨aRpDeadline0, 0xFFFFFFFF, 0, 0, 0x0190005A⟩, ⟨aRpDeadline1, 0xFFFF, 0, 0, 0x640⟩,
   ⟨aRpCtrl, 0x3FFFFF3, 0, 0, 0x321483⟩, ⟨aRpDieIdx, 0xFFF, 0, 0, 0⟩, ⟨aRpCeilIdx, 0xF, 0, 0, 0⟩,
   ⟨aSbCmd, 0x33F, 0, 0, 0⟩, ⟨aI3cCtrl, 0xFF03, 0, 0, 0xA00⟩, ⟨aColoIdx, 0x3F, 0, 0, 0⟩,
   ⟨aLadderCtrl, 0x1FFF3, 0, 0, 0x8603⟩, ⟨aVrefCtrl, 0xFF, 0, 0, 0x40⟩, ⟨aSigCtrl, 0x7, 0, 0, 0x7⟩,
   ⟨aPatrolTrend, 0xFFFFFFFF, 0, 0, 0x10064⟩, ⟨aSigQIdx, 0xF, 0, 0, 0⟩]

/-- The writable registers of the buffer pools, the DRAM, the Sluice and the thermal manager. BPM_OWN_MIN and
BPM_OWN_CAP, DMC_PORT_CFG and the reader contexts show indexed state and have no word of their own. -/
def regsBack : List RegDesc :=
  [⟨aBpmCtrl, 0x4, 0, 1, 4⟩, ⟨aBpmSbRsv, 0, 0x3F, 0, 0⟩]
  ++ regRun 8 aBpmPoolCnt 4 0 0x7FFFF 0 ++ regRun 4 aBpmPoolSb1 4 0 0x7FFFF 0
  ++ [⟨aBpmOwnIdx, 0x73F, 0, 0, 0⟩, ⟨aDmcCtrl, 0xFFF01, 0, 0, 0x41401⟩, ⟨aDmcPortIdx, 0x3F, 0, 0, 0⟩,
      ⟨aDmcFix, 0x3FFFFFFF, 0, 0, 0⟩, ⟨aDmcFixCmd, 0x3F, 0, 0, 0⟩, ⟨aDmcInjMask, 0, 0xFFFFFFFF, 0, 0⟩,
      ⟨aDmcInjMask + 4, 0, 0xFFFFFFFF, 0, 0⟩, ⟨aDmcInjMask + 8, 0, 0xFFFF, 0, 0⟩, ⟨aDmcInjCtrl, 0, 0xFF, 0x400, 0⟩,
      ⟨aSluCharge, 0xFFFFFFFF, 0, 0, 0x00FA0096⟩, ⟨aSluSlotIdx, 0x3F, 0, 0, 0⟩, ⟨aThmSensorIdx, 0x3F, 0, 0, 0⟩]

/-- Every register with fields that software writes. -/
def regTable : List RegDesc := regsFront ++ regsMedia ++ regsBack

/-- The descriptor of the register at an address. -/
def regDesc (a : Nat) : Option RegDesc := regTable.find? (fun r => r.addr = a)

/-- The value a register resets to. -/
def regReset (a : Nat) : W32 :=
  match regDesc a with
  | some r => r.rst
  | none => 0

/-- The power domain that holds a register (R11, Table 01-1). -/
def regDomain (a : Nat) : Nat :=
  if a < 0x40000600 then 0
  else if a < 0x41000000 then 1
  else if a < 0x43010000 then 2
  else if a < 0x43010100 then 5 + (a - 0x43010000) / 64
  else if a < 0x45010000 then 2
  else if a < 0x45014000 then 13 + (a - 0x45010000) / 0x800
  else if a < 0x45080000 then 2
  else if a < 0x46000000 then 0
  else if a < 0x47000000 then 21
  else if a < 0x48000000 then 29
  else if a < 0x49000100 then 2
  else if a < 0x49000140 then 30 + (a - 0x49000100) / 12
  else if a < 0x49000200 then 2
  else if a < 0x49000380 then 30 + (a - 0x49000200) / 0x60
  else if a < 0x4A800000 then 2
  else if a < 0x4B000000 then 0
  else if a = 0x4B000020 then 0
  else 2

/-- The stored word of a register. -/
def Dev.csrW (d : Dev) (a : Nat) : W32 := d.csr.get (regReset a) a

/-- The field in bits `hi` to `lo` of a register. -/
def Dev.reg (d : Dev) (a hi lo : Nat) : Nat := bitsOf (d.csrW a).toNat hi lo

/-- Storing a register's word. -/
def Dev.setCsr (d : Dev) (a : Nat) (w : W32) : Dev := { d with csr := d.csr.put (regReset a) a w }

/-- Storing one field of a register. -/
def Dev.setField (d : Dev) (a hi lo v : Nat) : Dev :=
  let w := (d.csrW a).toNat
  d.setCsr a (BitVec.ofNat 32 (w - 2 ^ lo * bitsOf w hi lo + 2 ^ lo * (v % 2 ^ (hi + 1 - lo))))

/-- The injection registers (R371). -/
def isInj (a : Nat) : Bool := decide (aDmcInjMask ≤ a) && decide (a ≤ aDmcInjCtrl)

/-- The power domain that holds the register at an address; the injection registers sit with the channel they name (R374). -/
def Dev.csrDomain (d : Dev) (a : Nat) : Nat := if isInj a then 30 + d.reg aDmcInjCtrl 3 0 / 3 else regDomain a

/-- DMC_INJ_CTRL.lock. -/
def Dev.injLocked (d : Dev) : Bool := decide (d.reg aDmcInjCtrl 10 10 = 1)

/-- A domain that goes OFF loses the registers and counters it holds (R18); locked injection registers keep their values until
POR_N (R372). -/
def Dev.loseRegs (d : Dev) (dom : Nat) : Dev :=
  { d with
    csr := d.csr.filter (fun x => decide (d.csrDomain x.1 ≠ dom) || (isInj x.1 && d.injLocked))
    cnt := d.cnt.filter (fun x => regDomain (x.1 / 32) ≠ dom) }

end Sys2Proof.Machine
end

