-- ==== Sys2Proof/Machine/Complete.lean ====
section
/-! DEFINITION. Interrupts, asynchronous events, and posting completions and freeing command slots (R101, R115,
R123, R134 to R136, R475). -/

namespace Sys2Proof.Machine

/-! ### Statuses (Table 05-8, Table 04-13 and the NVMe codes the chapters name) -/

/-- A completion with a status and no result. -/
def Cqe.of (sct sc : Nat) (dnr : Bool) : Cqe := ⟨sct, sc, dnr, 0, 0, 0⟩

/-- Successful Completion. -/
def cqeOk : Cqe := Cqe.of 0 0 false
/-- Successful Completion with a Dword 0. -/
def cqeDw0 (v : W32) : Cqe := ⟨0, 0, false, 0, v, 0⟩
def cqeInvalidOpcode : Cqe := Cqe.of 0 0x01 true
def cqeInvalidField : Cqe := Cqe.of 0 0x02 true
def cqeDataTransfer : Cqe := Cqe.of 0 0x04 false
def cqeInternal : Cqe := Cqe.of 0 0x06 false
def cqeAborted : Cqe := Cqe.of 0 0x07 false
def cqeInvalidNs : Cqe := Cqe.of 0 0x0B true
def cqeSequence : Cqe := Cqe.of 0 0x0C true
def cqeSanitizeFailed : Cqe := Cqe.of 0 0x1C false
def cqeSanitizing : Cqe := Cqe.of 0 0x1D false
def cqeWriteProtected : Cqe := Cqe.of 0 0x20 true
def cqeLbaRange : Cqe := Cqe.of 0 0x80 true
def cqeFormatting : Cqe := Cqe.of 0 0x84 false
def cqeUnrecovered : Cqe := Cqe.of 2 0x81 false
def cqeDeallocated : Cqe := Cqe.of 2 0x87 true
/-- A vendor-specific status with the DNR of Table 04-13 (R475). -/
def cqeVendor (sc : Nat) : Cqe := Cqe.of 7 sc (sc ≠ 0xC5 && sc ≠ 0xCA)

/-! ### Modes -/

/-- The mode codes (Table 02-6). -/
def modeCode : Mode → Nat
  | .off => 0 | .dormant => 1 | .awaitImage => 2 | .verify => 3 | .assemble => 4 | .serve => 5 | .serveLimited => 6
  | .serveDegraded => 7 | .readOnly => 8 | .idle => 9 | .holdup => 10 | .halted => 11

/-- The four serving modes (R73). -/
def servingMode : Mode → Bool
  | .serve | .serveLimited | .serveDegraded | .readOnly => true
  | _ => false

/-- The modes in which host I/O is taken: a serving mode or IDLE. -/
def hostMode (m : Mode) : Bool := servingMode m || m = .idle

/-! ### Interrupts (R43, R101) -/

/-- Signalling a vector: MSI-X if enabled, or a pending bit if that vector is masked; else a PF's MSI if enabled;
else nothing. -/
def Dev.signal (d : Dev) (f : Fn) (vec : Nat) : Dev :=
  let s := d.fnst f
  if s.bme then
    if s.msix then
      if vec ∈ s.msixMask then d.modFn f (fun s => { s with pba := vec :: s.pba.filter (· ≠ vec) })
      else d.emit (.msix f vec)
    else if f.isPf && s.msi then d.emit (.msi f.port)
    else d
  else d

/-- The mailbox interrupt (R43): MSI-X vector 0 if MSI-X is enabled and the vector unmasked, otherwise MSI if
enabled, otherwise none. -/
def Dev.kmbSignal (d : Dev) (p : Port) : Dev :=
  let s := d.fnst (.pf p)
  if s.msix && (0 ∉ s.msixMask) then d.emit (.msix (.pf p) 0)
  else if s.msi then d.emit (.msi p)
  else d

/-- The coalescing settings of Feature 0x08: threshold in bits [7:0], time in bits [15:8] in 100 µs (R110). -/
def FnSt.coalesces (s : FnSt) (vec : Nat) : Bool :=
  let v := (s.feats.get 0 0x08).toNat
  decide (vec ≠ 0) && decide (bitsOf v 15 8 ≠ 0) && !(bitOf (s.feats.get 0 (0x900 + vec)).toNat 16)

/-- The interrupt of one posted completion (R101): at once, or counted towards the threshold of Feature 0x08. -/
def Dev.cqInterrupt (d : Dev) (f : Fn) (vec : Nat) : Dev :=
  let s := d.fnst f
  if s.coalesces vec then
    let n := s.coal.get 0 vec + 1
    if bitsOf (s.feats.get 0 0x08).toNat 7 0 + 1 ≤ n then
      (d.modFn f (fun s => { s with coal := s.coal.put 0 vec 0 })).signal f vec
    else d.modFn f (fun s => { s with coal := s.coal.put 0 vec n })
  else d.signal f vec

/-! ### Slots -/

/-- The HG_SLOT_FREE count (R124). -/
def Dev.slotsFree (d : Dev) : Nat := 0x10000 - d.hg.slots.length

/-- Changing a slot in use. -/
def Dev.modSlot (d : Dev) (cs : Nat) (f : CSlot → CSlot) : Dev :=
  { d with hg := { d.hg with slots := d.hg.slots.upd cs f } }

/-- Slots that a function's commands hold. -/
def Dev.slotsOf (d : Dev) (f : Fn) : List (Nat × CSlot) := d.hg.slots.filter (fun x => x.2.fn = f)

/-- Slots that a tenant's I/O commands hold, on both ports (R124). -/
def Dev.heldBy (d : Dev) (t : Nat) : Nat :=
  (d.hg.slots.filter (fun x => x.2.sqid ≠ 0 ∧ x.2.fn.tenant = t)).length

/-- Slots that admin commands hold. -/
def Dev.adminHeld (d : Dev) : Nat := (d.hg.slots.filter (fun x => x.2.sqid = 0)).length

/-- Slots that I/O commands hold. -/
def Dev.ioHeld (d : Dev) : Nat := (d.hg.slots.filter (fun x => x.2.sqid ≠ 0)).length

/-- Changing a tenant's counters. -/
def Dev.modStat (d : Dev) (t : Nat) (f : TStat → TStat) : Dev :=
  { d with hg := { d.hg with stats := d.hg.stats.mod .reset t f } }

/-- What a slot's release settles for its function: CSTS.RDY falls once a reset controller's slots are free (R139),
CSTS.SHST reads 0b10 once a shut-down VF's slots are free; a PF's waits for its ledger persist too (R140, R427). -/
def Dev.settleFn (d : Dev) (f : Fn) : Dev :=
  if (d.slotsOf f).isEmpty then
    let d := if (d.fnst f).resetting then
        d.modFn f (fun s => { s with resetting := false, rdy := false }) else d
    if (d.fnst f).shst = 1 && !(d.evl.waiting.contains (.shutdown f))
        && decide ((d.evl.persisting.map (·.1)) ≠ some (.shutdown f)) then
      d.modFn f (fun s => { s with shst := 2 })
    else d
  else d

/-- Freeing a slot (stage 7 of Table 05-1). A sequencer command that ends leaves the sequencer (R118). -/
def Dev.freeSlot (d : Dev) (cs : Nat) : Dev :=
  match d.hg.slots.get? cs with
  | none => d
  | some s =>
    let d := { d with
      hg := { d.hg with slots := d.hg.slots.del cs }
      adm := { d.adm with running := if d.adm.running = some cs then none else d.adm.running } }
    d.settleFn s.fn

/-! ### Posting completions (R135) -/

/-- A completion discarded with its port or controller (R117, R139): counted in the tenant's entry of log page
0xC0. -/
def Dev.discardCpl (d : Dev) (s : CSlot) : Dev :=
  d.modStat s.fn.tenant (fun t =>
    match s.fn.port with
    | .a => { t with discardA := sat 32 (t.discardA + 1) }
    | .b => { t with discardB := sat 32 (t.discardB + 1) })

/-- An Error Information entry for a completion that reports an error; 64 entries are kept (Table 04-6). -/
def FnSt.logErr (s : FnSt) (sqid cid : Nat) (e : Cqe) : FnSt :=
  if e.sct = 0 ∧ e.sc = 0 then s
  else { s with errs := (⟨sqid, cid, e.sct, e.sc⟩ :: s.errs).take 64, errCount := s.errCount + 1 }

/-- Entries free in a completion queue. -/
def Cq.room (q : Cq) : Bool := decide ((q.tail + 1) % q.size ≠ q.head)

/-- The completion entry is written, the interrupt signalled and the slot freed. -/
def Dev.post (d : Dev) (cs : Nat) (s : CSlot) (qid : Nat) (q : Cq) (e : Cqe) : Dev :=
  let sqhd := match (d.fnst s.fn).sqs.get? s.sqid with
    | some x => x.head
    | none => 0
  let d := d.emit (.cqe s.fn qid s.sqid s.cid sqhd e)
  let d := d.modFn s.fn (fun t =>
    { t.logErr s.sqid s.cid e with
      cqs := t.cqs.ins qid { q with tail := (q.tail + 1) % q.size, phase := if (q.tail + 1) % q.size = 0 then !q.phase else q.phase } })
  let d := if q.ien then d.cqInterrupt s.fn q.vector else d
  d.freeSlot cs

/-- The completion queue of a submission queue. -/
def Dev.cqOf (d : Dev) (f : Fn) (sqid : Nat) : Option (Nat × Cq) :=
  match (d.fnst f).sqs.get? sqid with
  | none => none
  | some q =>
    match (d.fnst f).cqs.get? q.cqid with
    | none => none
    | some c => some (q.cqid, c)

/-- A command's outcome is known (stage 7): its completion is discarded, waits in its slot for space in a full
queue (counted in HG_CQ_STALL), or is posted (R135, R139). A function whose Bus Master Enable is clear cannot be
written to, so its completion is discarded (R474). -/
def Dev.complete (d : Dev) (cs : Nat) (e : Cqe) : Dev :=
  match d.hg.slots.get? cs with
  | none => d
  | some s =>
    let d := { d with adm := { d.adm with running := if d.adm.running = some cs then none else d.adm.running } }
    if s.cqe.isSome then d
    else if s.discard then (d.discardCpl s).freeSlot cs
    else if !(d.fnst s.fn).bme then d.freeSlot cs
    else
      match d.cqOf s.fn s.sqid with
      | none => d.freeSlot cs
      | some (qid, q) =>
        if q.room && q.held.isEmpty then d.post cs s qid q e
        else
          let d := d.count aHgCqStall 0 32
          let d := if q.fullSeen then d else d.ev evHgCqFull 0 [.num 2 s.fn.cntlid, .num 2 qid]
          let d := d.modSlot cs (fun s => { s with st := .ending, cqe := some e })
          d.modFn s.fn (fun t => { t with cqs := t.cqs.ins qid { q with held := q.held ++ [⟨cs, e⟩], fullSeen := true } })

/-- Posting the completions that waited for space, oldest first, while there is space (R135). -/
def Dev.postHeld (d : Dev) (f : Fn) (qid : Nat) : Nat → Dev
  | 0 => d
  | n + 1 =>
    match (d.fnst f).cqs.get? qid with
    | none => d
    | some q =>
      match q.held with
      | [] => d
      | w :: rest =>
        if q.room then
          match d.hg.slots.get? w.cs with
          | none => (d.modFn f (fun t => { t with cqs := t.cqs.ins qid { q with held := rest } })).postHeld f qid n
          | some s => (d.post w.cs s qid { q with held := rest } w.cqe).postHeld f qid n
        else d

/-! ### Asynchronous events (R115, Table 04-12) -/

/-- The Feature 0x0B bit that enables an event, as NVMe Base has it; none for events that are always enabled. -/
def AEvent.enableBit (e : AEvent) (warn : Option Nat) : Option Nat :=
  match e.typ, warn with
  | 1, some b => some b
  | 2, _ =>
    if e.info = 0 then some 8 else if e.info = 1 then some 9 else if e.info = 3 then some 11
    else if e.info = 5 then some 13 else if e.info = 0xEF then some 27 else none
  | _, _ => none

/-- Completing the oldest outstanding Asynchronous Event Request with the oldest pending event. -/
def Dev.pumpAer (d : Dev) (f : Fn) : Dev :=
  let s := d.fnst f
  match s.aers, s.events with
  | cs :: aers, e :: events =>
    (d.modFn f (fun s => { s with aers := aers, events := events })).complete cs
      (cqeDw0 (BitVec.ofNat 32 (e.typ + 0x100 * e.info + 0x10000 * e.lid)))
  | _, _ => d

/-- An event reaches a controller that has enabled it: it completes an outstanding request or is kept. -/
def Dev.aen (d : Dev) (f : Fn) (e : AEvent) (warn : Option Nat := none) : Dev :=
  let s := d.fnst f
  let enabled := match e.enableBit warn with
    | some b => bitOf (s.feats.get 0 0x0B).toNat b
    | none => true
  if s.rdy && enabled then
    (d.modFn f (fun s => { s with events := s.events ++ [e] })).pumpAer f
  else d

/-- The functions with a controller that is ready. -/
def Dev.readyFns (d : Dev) : List Fn := (d.fns.filter (fun x => x.2.rdy)).map (fun x => Fn.ofKey x.1)

/-- An event sent to every controller that a test picks. -/
def Dev.aenAll (d : Dev) (e : AEvent) (warn : Option Nat := none) (pick : Fn → Bool := fun _ => true) : Dev :=
  (d.readyFns.filter pick).foldl (fun d f => d.aen f e warn) d

/-- SMART / Health: NVM Subsystem Reliability. -/
def aeReliability : AEvent := ⟨1, 0, 0x02⟩
/-- SMART / Health: Temperature Threshold. -/
def aeTemperature : AEvent := ⟨1, 1, 0x02⟩
/-- SMART / Health: Spare Below Threshold. -/
def aeSpare : AEvent := ⟨1, 2, 0x02⟩
/-- Error: Invalid Doorbell Write. -/
def aeDoorbell : AEvent := ⟨0, 1, 0x01⟩
/-- Notice: Namespace Attribute Changed. -/
def aeNsChanged : AEvent := ⟨2, 0, 0x04⟩
/-- Notice: Firmware Activation Starting. -/
def aeActivation : AEvent := ⟨2, 1, 0x03⟩
/-- Notice: ANA Change. -/
def aeAna : AEvent := ⟨2, 3, 0x0C⟩
/-- Notice: LBA Status Information Alert. -/
def aeLbaStatus : AEvent := ⟨2, 5, 0x0E⟩
/-- Notice: Zone Descriptor Changed. -/
def aeZone : AEvent := ⟨2, 0xEF, 0xBF⟩
/-- Vendor specific, log page 0xC1: 0 Quire broken, 1 rebuild finished, 2 Gathering added, 3 Gathering lost. -/
def aeVendor (i : Nat) : AEvent := ⟨7, i, 0xC1⟩

end Sys2Proof.Machine
end

