-- ==== Sys2Proof/Machine/Power.lean ====
section
/-! DEFINITION. Power domains, operating modes and conditions (chapters 01 and 03): the sequencer's ramps, wakes and
drains, the columns of Table 03-6, mode transitions and the serving-mode decision. -/

namespace Sys2Proof.Machine

/-! ### Domains (R18 to R22) -/

/-- A domain's state. -/
def Dev.dom (d : Dev) (k : Nat) : Dom := d.pwr.doms.get .off k

/-- Changing a domain's state. -/
def Dev.modDom (d : Dev) (k : Nat) (f : Dom → Dom) : Dev :=
  { d with pwr := { d.pwr with doms := d.pwr.doms.mod .off k f } }

/-- Domains in power-up ramp (R22). -/
def Pwr.ramps (p : Pwr) : Nat := ((List.range 36).filter (fun k => (p.doms.get .off k).ramp)).length

/-- The first domain, in ascending index, that waits for a ramp (R22). -/
def Pwr.nextWaiting (p : Pwr) : Option Nat := (List.range 36).find? (fun k => (p.doms.get .off k).wait)

/-- Starting a ramp, or waiting for one while 4 domains ramp (R22). -/
def Dev.startRamp (d : Dev) (k : Nat) : Dev :=
  let d := { d with pwr := { d.pwr with wakeAt := if (d.dom k).wait then d.pwr.wakeAt else d.pwr.wakeAt.ins k d.now } }
  if d.pwr.ramps < 4 then
    d.modDom k (fun x => { x with st := .trans, up := .on, ramp := true, wait := false, want := false, offReq := false })
  else d.modDom k (fun x => { x with wait := true, offReq := false })

/-- Powering a domain up or waking it: OFF ramps, GATED wakes without a ramp (R83), and a domain that gates or drains
is woken or powered when it gets there (R19, R21). A failed domain stays OFF (R82). -/
def Dev.powerOn (d : Dev) (k : Nat) : Dev :=
  let x := d.dom k
  if x.failed then d
  else
    match x.st with
    | .on => d
    | .gated => d.modDom k (fun x => { x with st := .trans, up := .on })
    | .off => if x.wait then d else d.startRamp k
    | .trans => if x.up = .on then d else d.modDom k (fun x => { x with want := true, offReq := false })

/-- Gating a domain that is ON (R21). -/
def Dev.gateDom (d : Dev) (k : Nat) : Dev :=
  if (d.dom k).st = .on then d.modDom k (fun x => { x with st := .trans, up := .gated, want := false }) else d

/-- Taking a domain OFF: dispatch stops and its accepted work drains (R21). A domain that waits for a ramp waits no
longer. -/
def Dev.drainDom (d : Dev) (k : Nat) : Dev :=
  match (d.dom k).st with
  | .off => d.modDom k (fun x => { x with wait := false })
  | _ => d.modDom k (fun x => { x with st := .trans, up := .off, ramp := false, want := false })

/-- Whether a domain accepts work: ON or GATED, or in TRANSITION towards either (R19). -/
def Dev.domUsable (d : Dev) (k : Nat) : Bool :=
  let x := d.dom k
  x.st = .on || x.st = .gated || (x.st = .trans && x.up ≠ .off)

/-! ### Table 03-6 -/

/-- What Table 03-6 says of a domain in a mode. `holdOn` covers ON and Populated where populated. -/
inductive DomRule where
  | holdOn | demand | gated | off | kept
deriving DecidableEq, Repr

/-- Populated: ON where the mask of populated domains has the bit, OFF otherwise (R82). -/
def rulePopulated (mask i : Nat) : DomRule := if bitOf mask i then .holdOn else .off

/-- The column of Table 03-6 for a mode, with the masks of populated GL and DR domains and of the Folio's pair_plan.
The host port domains follow their PERST_x_N alone (R94) and read as kept. -/
def domRule (m : Mode) (ps popGl popDr plan k : Nat) : DomRule :=
  if k = 0 then .holdOn
  else if k = 3 ∨ k = 4 then .kept
  else
    match m with
    | .off => .off
    | .dormant => if k = 1 then .gated else .off
    | .awaitImage | .verify => if k = 1 ∨ k = 2 ∨ k = 34 then .holdOn else .off
    | .halted => if k = 1 ∨ k = 2 then .holdOn else .off
    | .assemble =>
      if 10 ≤ k ∧ k ≤ 12 then rulePopulated plan (k - 9)
      else if 13 ≤ k ∧ k ≤ 20 then rulePopulated popGl (k - 13)
      else if 30 ≤ k ∧ k ≤ 33 then rulePopulated popDr (k - 30)
      else .holdOn
    | .serve | .serveLimited | .serveDegraded | .readOnly =>
      if k = 1 ∨ k = 2 ∨ k = 9 ∨ k = 29 ∨ k = 34 then .holdOn
      else if 13 ≤ k ∧ k ≤ 20 then (if bitOf popGl (k - 13) then .demand else .off)
      else if 30 ≤ k ∧ k ≤ 33 then rulePopulated popDr (k - 30)
      else .demand
    | .idle =>
      if k = 1 ∨ k = 2 then .holdOn
      else if ps = 3 then
        if k = 9 ∨ k = 34 then .holdOn
        else if 30 ≤ k ∧ k ≤ 33 then rulePopulated popDr (k - 30)
        else .gated
      else
        if (5 ≤ k ∧ k ≤ 9) ∨ k = 21 ∨ k = 29 ∨ k = 34 then .gated
        else if 30 ≤ k ∧ k ≤ 33 then (if bitOf popDr (k - 30) then .gated else .off)
        else .off
    | .holdup =>
      if k = 1 ∨ k = 2 ∨ k = 9 ∨ k = 29 ∨ k = 34 then .holdOn
      else if 30 ≤ k ∧ k ≤ 33 then (if bitOf popDr (k - 30) then .holdOn else .kept)
      else .kept

/-- A section body of the accepted Imposition; empty where it has none. -/
def Dev.section (d : Dev) (ty : Nat) : List Byte :=
  match d.boot.impo with
  | none => []
  | some i => i.sections.get [] ty

/-- Whether the slot map enables a slot (R300). -/
def Dev.slotEnabled (d : Dev) (s : Nat) : Bool := bitOf (fieldAt (d.section 1) (8 + 4 * s) 1) 0

/-- The channels that section 0x0004 declares populated (Table 13-1). -/
def Dev.popChannels (d : Dev) : Nat := fieldAt (d.section 4) 8 2

/-- The GL domains that serve a declared slot (R82). -/
def Dev.popGl (d : Dev) : Nat := maskOf 8 (fun k => (List.range 8).any (fun i => d.slotEnabled (8 * k + i)))

/-- The DR domains that serve a declared channel (R82). -/
def Dev.popDr (d : Dev) : Nat := maskOf 4 (fun j => decide (bitsOf d.popChannels (3 * j + 2) (3 * j) ≠ 0))

/-- The TC domains that the running Folio's pair_plan names (R51). -/
def Dev.pairPlan (d : Dev) : Nat :=
  match d.boot.run with
  | none => 1
  | some r => r.pairPlan

/-- What Table 03-6 says of a domain in the current mode. -/
def Dev.ruleOf (d : Dev) (k : Nat) : DomRule :=
  domRule d.modes.mode d.modes.hostPs d.popGl d.popDr d.pairPlan k

/-- A demand for a domain (R19): a GATED domain wakes; an OFF one is powered only where the mode's column allows it
and neither a failure nor a request keeps it OFF. -/
def Dev.demand (d : Dev) (k : Nat) : Dev :=
  let x := d.dom k
  if x.failed || x.offReq then d
  else if x.st = .off then
    match d.ruleOf k with
    | .holdOn | .demand => d.powerOn k
    | _ => d
  else d.powerOn k

/-- Whether a domain takes work now, waking it on demand otherwise. -/
def Dev.domReady (d : Dev) (k : Nat) : Bool := (d.dom k).st = .on

/-! ### Transitions (R74, R75) -/

/-- Starting what a column asks of one domain. -/
def Dev.applyRule (d : Dev) (k : Nat) : Dev :=
  match d.ruleOf k with
  | .holdOn => d.powerOn k
  | .gated => d.gateDom k
  | .off => d.drainDom k
  | .demand | .kept => d

/-- The state a transition still has to bring a domain to, if any (R74). -/
def Dev.unsettled (d : Dev) (k : Nat) : Option (Nat × Pd) :=
  let x := d.dom k
  if x.failed then none
  else
    match d.ruleOf k with
    | .holdOn => if x.st = .on then none else some (k, .on)
    | .gated => if x.st = .trans then some (k, .gated) else none
    | .off => if x.st = .off then none else some (k, .off)
    | .demand | .kept => none

/-- The domains other than AON and the host ports'. -/
def switchable : List Nat := (List.range 36).filter (fun k => k ≠ 0 ∧ k ≠ 3 ∧ k ≠ 4)

/-- Setting every domain as the current mode's column says, and listing what has yet to settle. -/
def Dev.applyColumn (d : Dev) : Dev :=
  let d := switchable.foldl (fun d k => d.applyRule k) d
  { d with modes := { d.modes with settle := switchable.filterMap d.unsettled } }

/-- WDN_MODE.in_transition (R74). -/
def Dev.inTransition (d : Dev) : Bool := !d.modes.settle.isEmpty || d.modes.idleEntry

/-- WDN_MODE_COND as a number. -/
def Dev.condWord (d : Dev) : Nat := d.modes.cond.toNat

/-- KMB_INT.mode_changed on both PFs, signalled where enabled (R43, R75). -/
def Dev.modeChanged (d : Dev) : Dev :=
  [Port.a, Port.b].foldl (fun d p =>
    let d := d.modBox p (fun b => { b with changed := true })
    if (d.box p).modeEn then d.kmbSignal p else d) d

/-- Entering a mode: WDN_MODE, EV_WDN_MODE_CHANGE with the old mode, the new mode and the conditions word,
KMB_INT.mode_changed, and the domains of the mode's column (R74, R75, R82). HALTED is left only through OFF. -/
def Dev.enterMode (d : Dev) (m : Mode) : Dev :=
  if d.modes.mode = .halted then d
  else
    let old := d.modes.mode
    let d := { d with modes := { d.modes with mode := m, prev := old, idleEntry := false } }
    let d := d.ev evWdnModeChange 0 [.num 1 (modeCode old), .num 1 (modeCode m), .num 4 d.condWord]
    d.modeChanged.applyColumn

/-! ### Conditions and the serving mode (R76, R77) -/

/-- A condition's bit. -/
def Dev.cond (d : Dev) (i : Nat) : Bool := d.modes.cond.getLsbD i

/-- The serving mode that the conditions give (R76); before the Boot Colophon is signed step 3 is not applied. -/
def Dev.servingFor (d : Dev) (step3 : Bool) : Mode :=
  if d.cond 6 then .readOnly
  else if d.cond 3 || d.cond 4 || d.cond 5 then .serveDegraded
  else if step3 && (d.cond 0 || d.cond 1 || d.cond 2) then .serveLimited
  else .serve

/-- Deciding the serving mode again, in a serving mode. -/
def Dev.decideServing (d : Dev) : Dev :=
  if servingMode d.modes.mode && decide (d.servingFor true ≠ d.modes.mode) then d.enterMode (d.servingFor true) else d

/-- The asynchronous event that goes with a condition being set (Table 04-12). -/
def condEvent : Nat → Option (AEvent × Nat)
  | 0 => some (aeTemperature, 1)
  | 3 => some (aeReliability, 2)
  | 5 => some (aeReliability, 2)
  | 6 => some (aeReliability, 3)
  | 7 => some (aeSpare, 0)
  | 8 => some (aeReliability, 4)
  | _ => none

/-- A health status change that the BMC may have enabled: MGMT_ALERT_N follows (R120). -/
def Dev.healthChange (d : Dev) : Dev :=
  let d := { d with mgmt := { d.mgmt with health := 1 } }
  if d.mgmt.healthEn ≠ 0 then { d with pins := { d.pins with mgmtAlert := true } } else d

/-- Setting or clearing a condition of WDN_MODE_COND: in a serving mode the mode is decided again, and a change that
brings no transition is recorded as EV_WDN_COND_CHANGE (R75 to R78). -/
def Dev.setCond (d : Dev) (i : Nat) (v : Bool) : Dev :=
  if d.cond i = v then d
  else
    let old := d.condWord
    let c := if v then d.modes.cond ||| BitVec.ofNat 12 (2 ^ i) else d.modes.cond &&& ~~~ BitVec.ofNat 12 (2 ^ i)
    let d := { d with modes := { d.modes with cond := c } }
    let m := d.modes.mode
    let d := d.decideServing
    let d := if d.modes.mode = m then d.ev evWdnCondChange 0 [.num 1 (modeCode m), .num 4 old, .num 4 d.condWord] else d
    let d := d.healthChange
    match v, condEvent i with
    | true, some (e, w) => d.aenAll e (some w)
    | _, _ => d

/-! ### The sequencer's events -/

/-- WDN_PD_REQ shows a request done when its domain has reached the state asked for (R24). -/
def Dev.settlePdReq (d : Dev) (k : Nat) : Dev :=
  match d.pwr.busy with
  | some (k', t) => if k' = k && (d.dom k).st = t then { d with pwr := { d.pwr with busy := none, result := 0 } } else d
  | none => d

/-- After IDLE's exit has brought up every domain it needs, the serving mode of R76 is entered (R79), and a rebuild that IDLE paused runs again (R81). -/
def Dev.settleMode (d : Dev) : Dev :=
  let d := { d with modes := { d.modes with settle := d.modes.settle.filter (fun x =>
    (d.dom x.1).st ≠ x.2 && !(d.dom x.1).failed) } }
  if d.modes.mode = .idle && d.modes.leaving && d.modes.settle.isEmpty then
    ({ d with modes := { d.modes with leaving := false, before := [] } }.enterMode (d.servingFor true)).setCond 10 false
  else d

/-- The next waiting ramp starts (R22). -/
def Dev.nextRamp (d : Dev) : Dev :=
  match d.pwr.nextWaiting with
  | none => d
  | some k => if d.pwr.ramps < 4 then d.startRamp k else d

/-- A domain that has gated or gone OFF with a demand waiting is woken or powered again (R19, R21). -/
def Dev.wakeWanted (d : Dev) (k : Nat) : Dev :=
  if (d.dom k).want then (d.modDom k (fun x => { x with want := false })).powerOn k else d

end Sys2Proof.Machine
end

