-- ==== Sys2Proof/Machine/Bcol.lean ====
section
/-! DEFINITION. The Boot Colophon (R65 to R71): its bytes, signing it, appending to it, and the entry into HALTED. -/

namespace Sys2Proof.Machine

/-- The bytes of a digest. -/
def digestBytes (d : Digest) : List Byte := leBytes 48 d.toNat

/-- An optional digest, 0 while not known. -/
def digestOr (d : Option Digest) : List Byte := digestBytes (d.getD 0)

/-- The Gatherings present: inventory entries whose outcome is not "slot empty" (R66, R67). -/
def invPresent (inv : List Byte) : Nat := ((List.range 64).filter (fun s => fieldAt inv (80 * s + 1) 1 ≠ 0)).length

/-- Bytes 0x010 to 0x15FF of the Boot Colophon as they stand at the first signing (Table 02-14). -/
def bcolTail (d : Dev) (fuse : Fuses) (entry : Nat) : List Byte :=
  let b := d.boot
  let run := b.run
  leBytes 16 Config.serial.toNat ++ digestOr b.mRom ++ digestOr b.mMv ++ digestOr b.mImpo ++ digestBytes b.devId
  ++ leBytes 32 ((b.nonce.getD 0).toNat) ++ leBytes 4 ((run.map (·.svn)).getD 0) ++ leBytes 4 b.svnAtBoot
  ++ leBytes 8 b.seqNum ++ leBytes 1 b.seqState ++ leBytes 1 b.seqLacking ++ leBytes 1 b.seqOlder
  ++ leBytes 1 ((b.port.map Port.num).getD 0) ++ leBytes 1 ((run.map (·.vendorSet)).getD 0) ++ leBytes 1 fuse.slotByte
  ++ leBytes 1 ((run.map (fun r => if r.coSigned then r.ownerSlot else 0xFF)).getD 0xFF) ++ leBytes 1 entry
  ++ leBytes 4 Config.romVersion ++ leBytes 4 ((b.impo.map (·.revision)).getD 0)
  ++ slice ((run.map (·.buildId)).getD []) 0 32 ++ leBytes 4 b.entryMs ++ leBytes 1 (invPresent b.inv) ++ leBytes 3 0
  ++ digestOr b.mInv ++ List.replicate 136 0 ++ slice b.inv 0 5120

/-- Flags [0], [2] and [3] as they stand at the first signing. -/
def bcolFlags (d : Dev) : Nat :=
  bit d.boot.nonce.isSome + 4 * bit ((d.boot.impo.map (·.verified)).getD false)
  + 8 * bit ((d.boot.run.map (·.coSigned)).getD false)

/-- The length: 0x1600 + 128 × n + 0xE00 (R66). -/
def Bcol.length (c : Bcol) : Nat := 0x1600 + 128 * c.records.length + 0xE00

/-- The signed bytes: the head with its counts brought up to date, and the appended records. `head` holds the flags in
its first byte and then bytes 0x010 to 0x15FF. -/
def Bcol.signedBytes (c : Bcol) : List Byte :=
  let flags := fieldAt c.head 0 1 + 2 * bit c.full
  let tail := c.head.drop 1
  leBytes 4 0x4C4F4342 ++ leBytes 2 1 ++ leBytes 2 flags ++ leBytes 4 c.length ++ leBytes 4 c.gen
  ++ tail.take 0x135 ++ leBytes 1 c.records.length ++ tail.drop 0x136 ++ c.records.flatten

/-- The Boot Colophon as every reader gets it, byte for byte (R71). -/
def Dev.bcolBytes (d : Dev) : List Byte :=
  let s := d.bcol.signedBytes
  s ++ slice (Config.attestSign (d.boot.cdi1.getD 0) (Config.sha384 s)) 0 0xE00

/-- Signing the Boot Colophon with the entry mode (R65); a boot that has not passed verification has no key. -/
def Dev.signBcol (d : Dev) (fuse : Fuses) (entry : Mode) : Dev :=
  if d.bcol.signed || d.boot.cdi1.isNone then d
  else { d with bcol := ⟨true, 0, leBytes 1 (bcolFlags d) ++ bcolTail d fuse (modeCode entry), [], false⟩ }

/-- Appending a record (R70): the generation rises and the colophon is signed again; after 64 records no more are
taken. -/
def Dev.appendBcol (d : Dev) (typ status : Nat) (digest : Digest) (word : Nat) (serial : List Byte) (build : List Byte) : Dev :=
  let c := d.bcol
  if c.signed && decide (c.records.length < 64) then
    let r := leBytes 1 typ ++ leBytes 1 status ++ List.replicate 6 0 ++ leBytes 8 d.now ++ digestBytes digest
      ++ leBytes 4 word ++ slice serial 0 16 ++ slice build 0 32 ++ List.replicate 12 0
    { d with bcol := { c with gen := c.gen + 1, records := c.records ++ [r], full := decide (c.records.length = 63) } }
  else d

/-! ### Failures and HALTED -/

/-- A boot failure is recorded with status and detail, and becomes the last failure (R48, R72). -/
def Dev.bootFail (d : Dev) (status detail : Nat) : Dev :=
  { d with boot := { d.boot with lastStatus := status, lastDetail := detail } }.ev evWdnBootFail 0
    [.num 1 status, .num 1 detail]

/-- Entering HALTED (R74, R91): the cause and the mode at the halt are kept; a boot that ends here sets CSTS.CFS on
both PFs (R39), and once verification has passed the Boot Colophon is signed with entry mode HALTED (R65). -/
def Dev.halt (d : Dev) (fuse : Fuses) (cause : Nat) (unit : Nat := 0) : Dev :=
  if d.modes.mode = .halted ∨ d.modes.mode = .off then d
  else
    let m := d.modes.mode
    let d := { d with modes := { d.modes with haltCause := cause, haltUnit := unit, haltMode := modeCode m } }
    let d := if hostMode m || m = .holdup then d
      else [Port.a, Port.b].foldl (fun d p => d.modFn (.pf p) (fun s => { s with cfs := true })) d
    (d.signBcol fuse .halted).enterMode .halted

/-- Asserting THERMTRIP_N, which only POR_N releases (R467). -/
def Dev.thermtrip (d : Dev) : Dev := { d with pins := { d.pins with thermtrip := true } }

end Sys2Proof.Machine
end

