-- ==== Sys2Proof/Machine/Bpm.lean ====
section
/-! DEFINITION. The Buffer Pool Manager (chapter 12): handles, owners, granting, zeroing, rejected frees, and the
memory halves. -/

namespace Sys2Proof.Machine

/-! ### Pools and handles (R335, R336) -/

/-- The units of 4 KiB in a buffer of a pool (Table 12-1). -/
def poolUnits (p : Nat) : Nat :=
  match p with
  | 0 => 1 | 1 => 4 | 2 => 16 | 3 => 64 | 4 => 4 | 5 => 16 | 6 => 64 | _ => 512

/-- A handle. -/
def mkHandle (pool idx unit : Nat) : W32 := BitVec.ofNat 32 (2 ^ 31 + 2 ^ 28 * pool + 512 * idx + unit)

def hPool (h : W32) : Nat := bitsOf h.toNat 30 28
def hIdx (h : W32) : Nat := bitsOf h.toNat 27 9
def hUnit (h : W32) : Nat := bitsOf h.toNat 8 0
/-- Whether a handle names a buffer: bit 31. -/
def hNames (h : W32) : Bool := h.msb

/-- A buffer's key. -/
def bufKey (pool idx : Nat) : Nat := 2 ^ 19 * pool + idx

/-- A FREE buffer with clear masks. -/
def Buf.free : Buf := ⟨0, 0, 0, 0, 0⟩

/-- A buffer's state. -/
def Bpm.buf (b : Bpm) (pool idx : Nat) : Buf := b.bufs.get .free (bufKey pool idx)

/-- Changing a buffer's state. -/
def Dev.modBuf (d : Dev) (pool idx : Nat) (f : Buf → Buf) : Dev :=
  { d with bpm := { d.bpm with bufs := d.bpm.bufs.mod .free (bufKey pool idx) f } }

/-- Buffers that a pool holds. -/
def Dev.poolCount (d : Dev) (p : Nat) : Nat := d.reg (aBpmPoolCnt + 4 * p) 18 0

/-- Buffers of an SRAM pool in SB1; the rest, with the lower indexes, lie in SB0. -/
def Dev.poolSb1 (d : Dev) (p : Nat) : Nat := if p < 4 then d.reg (aBpmPoolSb1 + 4 * p) 18 0 else 0

/-- The half that holds a buffer of an SRAM pool: 0 SB0, 1 SB1. -/
def Dev.bufHalf (d : Dev) (p i : Nat) : Nat := if i < d.poolCount p - d.poolSb1 p then 0 else 1

/-- Whether the memory of a buffer is powered and in service (R347). -/
def Dev.bufPowered (d : Dev) (p i : Nat) : Bool :=
  if p < 4 then
    let h := d.bufHalf p i
    let x := d.dom (34 + h)
    !(bitOf d.bpm.offHalf h) && decide (x.st ≠ .off) && !(decide (x.st = .trans) && decide (x.up = .off))
  else true

/-- The index range of a pool that is in service: first and count. -/
def Dev.poolSpan (d : Dev) (p : Nat) : Nat × Nat :=
  if p < 4 then
    let c := d.poolCount p
    let n0 := c - d.poolSb1 p
    let a := d.bufPowered p 0 && decide (0 < n0)
    let b := d.bufPowered p n0 && decide (n0 < c)
    if a && b then (0, c) else if a then (0, n0) else if b then (n0, c - n0) else (0, 0)
  else (0, d.poolCount p)

/-- Listed buffers of a pool in a state. -/
def Bpm.inState (b : Bpm) (p st : Nat) : List (Nat × Buf) :=
  b.bufs.filter (fun x => decide (x.1 / 2 ^ 19 = p) && decide (x.2.st = st))

/-- FREE buffers of a pool that are in service. -/
def Dev.poolFree (d : Dev) (p : Nat) : Nat :=
  let (o, n) := d.poolSpan p
  n - (d.bpm.bufs.filter (fun x => decide (x.1 / 2 ^ 19 = p) && decide (x.2.st ≠ 0)
    && decide (o ≤ x.1 % 2 ^ 19) && decide (x.1 % 2 ^ 19 < o + n))).length

/-- ZEROING buffers of a pool. -/
def Dev.poolZero (d : Dev) (p : Nat) : Nat := (d.bpm.inState p 2).length

/-- Buffers that an owner holds in a pool. -/
def Dev.ownHeld (d : Dev) (o p : Nat) : Nat := ((d.bpm.inState p 1).filter (fun x => x.2.owner = o)).length

/-- min_o,p and cap_o,p (R339). -/
def Dev.ownMin (d : Dev) (o p : Nat) : Nat := d.bpm.mins.get 0 (8 * o + p)
def Dev.ownCap (d : Dev) (o p : Nat) : Nat := d.bpm.caps.get 0x7FFFF (8 * o + p)

/-- What other owners' minima still reserve. -/
def Dev.ownReserve (d : Dev) (o p : Nat) : Nat :=
  ((List.range 64).map (fun u => if u = o then 0 else d.ownMin u p - d.ownHeld u p)).sum

/-! ### Ports and owners (Table 12-2) -/

/-- Whether a port may allocate for an owner. -/
def mayAlloc (port o : Nat) : Bool :=
  match o with
  | 0 => within port 0x10 0x17
  | 1 => within port 0x08 0x0F
  | 2 => within port 0x10 0x17
  | 3 => port = 0x18
  | 4 => port = 0x19
  | 5 => port = 0x19
  | 6 => within port 0x20 0x27
  | 7 => port = 0x28
  | _ => within o 16 63 && decide (port = 0x00)

/-- Whether a port may free for an owner; the Headgate frees a tenant's share only before commit, which the Headgate
itself keeps. -/
def mayFree (port o : Nat) : Bool :=
  match o with
  | 0 => port = 0x00
  | 1 => within port 0x10 0x17 || decide (port = 0x18)
  | 2 => within port 0x08 0x0F
  | 3 => port = 0x18
  | 4 => decide (port = 0x19) || within port 0x08 0x0F
  | 5 => port = 0x19
  | 6 => within port 0x20 0x27
  | 7 => port = 0x28
  | _ => within o 16 63 && decide (port ≤ 0x01)

/-- Whether an owner may hold buffers of a pool (Table 12-2). -/
def ownerPool (o p : Nat) : Bool :=
  match o with
  | 0 => decide (p ≤ 1)
  | 1 => p = 2
  | 2 => decide (p = 2) || decide (p = 3)
  | 3 => decide (p = 2) || decide (p = 3)
  | 4 => decide (p = 2) || decide (p = 3) || decide (p = 6) || decide (p = 7)
  | 5 => within p 5 7
  | 6 => true
  | 7 => decide (p ≤ 3)
  | _ => within p 4 7

/-! ### Requests (R340, R341) -/

/-- The smallest pool of a kind that fits a size. -/
def poolFor (dram : Bool) (size : Nat) : Option Nat :=
  let ps := if dram then [4, 5, 6, 7] else [0, 1, 2, 3]
  if size = 0 then none else ps.find? (fun p => decide (size ≤ 4096 * poolUnits p))

/-- The lowest FREE index from `i` on. -/
def Bpm.firstFree (b : Bpm) (p : Nat) : Nat → Nat → Nat
  | 0, i => i
  | n + 1, i => if (b.buf p i).st = 0 then i else b.firstFree p n (i + 1)

/-- The status of an allocation (Table 12-3) for an owner from a pool: 0 GRANTED, 1 EMPTY, 2 AT_CAP, 5 UNAVAILABLE. -/
def Dev.grantStatus (d : Dev) (o p : Nat) : Nat :=
  if !d.bpm.lock || decide ((d.poolSpan p).2 = 0) then 5
  else if d.ownCap o p ≤ d.ownHeld o p then 2
  else
    let free := d.poolFree p
    if free = 0 then 1
    else if d.ownHeld o p < d.ownMin o p ∨ d.ownReserve o p ≤ free - 1 then 0
    else 1

/-- The status of a request before its pool is known to grant it, and its pool. -/
def allocPool (port owner : Nat) (dram : Bool) (size : Nat) : Nat ⊕ Nat :=
  match poolFor dram size with
  | none => .inl 3
  | some p => if mayAlloc port owner && ownerPool owner p then .inr p else .inl 4

/-- A waiting mark for the owner and pool (R341). -/
def Dev.bpmMark (d : Dev) (port o p : Nat) : Dev :=
  if d.bpm.waiting.contains ⟨port, o, p⟩ then d
  else { d with bpm := { d.bpm with waiting := d.bpm.waiting ++ [⟨port, o, p⟩] } }

/-- An allocation: its status, and the handle when granted. Failures of the pool are counted and marked. -/
def Dev.alloc (d : Dev) (port owner : Nat) (dram : Bool) (size : Nat) : Dev × Nat × W32 :=
  match allocPool port owner dram size with
  | .inl st => (d, st, 0)
  | .inr p =>
    let st := d.grantStatus owner p
    if st = 0 then
      let i := d.bpm.firstFree p (d.bpm.bufs.length + 1) (d.poolSpan p).1
      let d := d.modBuf p i (fun b => { b with st := 1, owner := owner, holder := port, written := 0 })
      let w := d.bpm.waiting.filter (fun w => !(decide (w = ⟨port, owner, p⟩)))
      ({ d with bpm := { d.bpm with waiting := w } }, 0, mkHandle p i 0)
    else ((d.count (aBpmPoolFail + 4 * p) 0 32).bpmMark port owner p, st, 0)

/-- ALLOCATION_REQUEST (R340): the answer leaves on the port. -/
def allocationRequest (port owner : Nat) (dram : Bool) (size : Nat) (d : Dev) : Dev :=
  let (d, st, h) := d.alloc port owner dram size
  d.emit (.bpm port st h)

def execAllocationRequest (port owner : Nat) (dram : Bool) (size : Nat) (s : State) :
    Host.Outcome State Fault Refusal :=
  .next (s.onDev (allocationRequest port owner dram size))

/-- The first waiting mark that a free or a change of caps allows is told so (R341). -/
def Dev.bpmReady (d : Dev) (p : Nat) : Dev :=
  match d.bpm.waiting.find? (fun w => decide (w.pool = p) && decide (d.grantStatus w.owner w.pool = 0)) with
  | none => d
  | some w => d.emit (.bpmReady w.port w.owner w.pool)

/-! ### Frees and zeroing (R342, R343) -/

/-- A buffer goes into zeroing: an SRAM buffer until ZEROING_DONE; a DRAM buffer owes its written units and is FREE
again in the next cycle, which ZEROING_DONE stands for. -/
def Dev.bufRelease (d : Dev) (p i : Nat) : Dev := d.modBuf p i (fun b => { b with st := 2, owner := 0, holder := 0 })

/-- Taking away the data of a buffer's units. -/
def Bpm.dropData (b : Bpm) (p i : Nat) : Bpm :=
  { b with data := b.data.filter (fun x => !(decide (hPool (BitVec.ofNat 32 x.1) = p) && decide (hIdx (BitVec.ofNat 32 x.1) = i))) }

/-- ZEROING_DONE (R342): the buffer becomes FREE; a DRAM buffer's written units are now owed. -/
def zeroingDone (p i : Nat) (d : Dev) : Dev :=
  if p < 8 ∧ (d.bpm.buf p i).st = 2 then
    let d := { d with bpm := d.bpm.dropData p i }
    let d := d.modBuf p i (fun b => { b with st := 0, written := 0, owed := if p < 4 then 0 else b.owed ||| b.written })
    d.bpmReady p
  else d

def execZeroingDone (pool idx : Nat) (s : State) : Host.Outcome State Fault Refusal := .next (s.onDev (zeroingDone pool idx))

/-- A rejection at a port (R345, R346): 16 within 1 s reset the port. -/
def Dev.bpmRejectAt (d : Dev) (port : Nat) : Dev :=
  let t := d.now
  let rs := d.bpm.rejects.filter (fun x => decide (x.1 = port) && decide (t < x.2 + 1000000000))
  let d := { d with bpm := { d.bpm with rejects := (port, t) :: d.bpm.rejects.filter (fun x => decide (t < x.2 + 1000000000)) } }
  if rs.length + 1 < 16 then d
  else
    let d := { d with bpm := { d.bpm with rejects := d.bpm.rejects.filter (fun x => decide (x.1 ≠ port)) } }
    let d := (d.count aBpmMisfreePort 16 8).ev evBpmPortReset 0 [.num 1 port]
    let mine := d.bpm.bufs.filter (fun x => decide (x.2.st = 1) && decide (x.2.holder = port) && decide (x.2.owner < 16))
    mine.foldl (fun d x => d.bufRelease (x.1 / 2 ^ 19) (x.1 % 2 ^ 19)) d

/-- Whether a handle names a buffer that its pool holds. -/
def Dev.handleOk (d : Dev) (h : W32) : Bool := hNames h && decide (hIdx h < d.poolCount (hPool h))

/-- The status of a free (Table 12-3): FREE_FOREIGN for a handle that names no buffer or an owner the port may not free
for, FREE_STATE for a buffer that is not OWNED. -/
def Dev.freeStatus (d : Dev) (port : Nat) (h : W32) : Nat :=
  if !(d.handleOk h) then 7
  else
    let b := d.bpm.buf (hPool h) (hIdx h)
    if b.st ≠ 1 then 6 else if mayFree port b.owner then 0 else 7

/-- FREE_REQUEST (R342, R345): an accepted free starts zeroing in the same cycle; a rejected one leaves the pool, the
buffer and every count as they are. -/
def freeRequest (port : Nat) (h : W32) (d : Dev) : Dev :=
  let st := d.freeStatus port h
  if st = 0 then (d.bufRelease (hPool h) (hIdx h)).emit (.bpm port 0 h)
  else
    let b := d.bpm.buf (hPool h) (hIdx h)
    let d := { d with bpm := { d.bpm with lastHandle := h, lastPort := port, lastReason := st } }.count aBpmMisfree 0 16
    let d := d.ev evBpmFreeRejected 0 [.num 1 port, .num 4 h.toNat, .num 1 b.owner, .num 1 b.st]
    (d.bpmRejectAt port).emit (.bpm port st h)

def execFreeRequest (port : Nat) (handle : W32) (s : State) : Host.Outcome State Fault Refusal :=
  .next (s.onDev (freeRequest port handle))

/-- The Collation Engine's and the Headgate's own frees, which R16 and R345 cannot reject. -/
def Dev.freeBufs (d : Dev) (hs : List W32) : Dev :=
  hs.foldl (fun d h =>
    if (d.bpm.buf (hPool h) (hIdx h)).st = 1 then d.bufRelease (hPool h) (hIdx h) else d) d

/-- Writing a whole unit: its bytes stand in the buffer, its written bit is set and its owed bit clears (R342, R343). -/
def Dev.bufWrite (d : Dev) (h : W32) (bytes : List Byte) : Dev :=
  let u := 2 ^ hUnit h
  let d := d.modBuf (hPool h) (hIdx h) (fun b =>
    { b with written := b.written ||| u, owed := b.owed &&& (2 ^ 512 - 1 - u) })
  { d with bpm := { d.bpm with data := d.bpm.data.ins h.toNat bytes } }

/-- Writing the units of a transfer, in order, from a handle on. -/
def Dev.bufFill (d : Dev) (h : W32) (bytes : List Byte) : Nat → Dev
  | 0 => d
  | n + 1 =>
    let d := d.bufFill h bytes n
    d.bufWrite (h + BitVec.ofNat 32 n) (slice bytes (4096 * n) 4096)

/-- A unit as it reads: zeros where nothing was written or where it is owed (R343). -/
def Dev.bufRead (d : Dev) (h : W32) : List Byte :=
  if bitOf (d.bpm.buf (hPool h) (hIdx h)).owed (hUnit h) then List.replicate 4096 0
  else (d.bpm.data.get? h.toNat).getD (List.replicate 4096 0)

/-- ZEROING_BURST_DONE (R343): the owed unit has been overwritten with zeros and is owed no more; its Sluice charge is
returned by `giveBack`. -/
def zeroBurstDone (giveBack : Dev → Dev) (p i u : Nat) (d : Dev) : Dev :=
  if 4 ≤ p ∧ p < 8 ∧ u < 512 ∧ bitOf (d.bpm.buf p i).owed u = true then
    giveBack (d.modBuf p i (fun b => { b with owed := b.owed &&& (2 ^ 512 - 1 - 2 ^ u) }))
  else d

/-- Owed 4 KiB units (BPM_OWED). -/
def Bpm.owedUnits (b : Bpm) : Nat := (b.bufs.map (fun x => (List.range 512).countP (fun u => bitOf x.2.owed u))).sum

/-! ### The lock (R337) -/

/-- The 4 KiB units of SRAM that a half's buffers take. -/
def Dev.halfUnits (d : Dev) (h : Nat) : Nat :=
  ((List.range 4).map (fun p =>
    (if h = 1 then d.poolSb1 p else d.poolCount p - d.poolSb1 p) * poolUnits p)).sum

/-- The checks of R337. -/
def Dev.cfgOk (d : Dev) : Bool :=
  decide (d.halfUnits 0 + 256 * d.reg aBpmSbRsv 5 0 ≤ 48 * 256) && decide (d.halfUnits 1 ≤ 48 * 256)
  && (List.range 8).all (fun p => decide (((List.range 64).map (fun o => d.ownMin o p)).sum ≤ d.poolCount p))

/-- dram_pools in 4 KiB units (R155, R337). -/
def Dev.dramPools (d : Dev) : Nat := ((List.range 4).map (fun k => d.poolCount (4 + k) * poolUnits (4 + k))).sum

/-- CFG_LOCK (R337): the configuration locks if its checks pass. -/
def cfgLock (d : Dev) : Dev :=
  if !(d.domReady 2) || d.bpm.lock then d
  else if d.cfgOk then
    let b := { d.bpm with lock := true, error := false, dramTotal := ceilDiv d.dramPools 256 }
    (List.range 8).foldl (fun d p => d.bpmReady p) { d with bpm := b }
  else { d with bpm := { d.bpm with error := true } }.ev evBpmCfgBad 0 []

def execCfgLock (s : State) : Host.Outcome State Fault Refusal := .next (s.onDev cfgLock)

/-! ### Memory halves (R347) -/

/-- A half that fails loses every buffer in it, and the loss is recorded for each pool. -/
def Dev.loseHalf (d : Dev) (h : Nat) : Dev :=
  (List.range 4).foldl (fun d p =>
    let lost := d.bpm.bufs.filter (fun x =>
      decide (x.1 / 2 ^ 19 = p) && decide (d.bufHalf p (x.1 % 2 ^ 19) = h) && decide (x.2.st ≠ 0))
    let bufs := d.bpm.bufs.filter (fun x => !(decide (x.1 / 2 ^ 19 = p) && decide (d.bufHalf p (x.1 % 2 ^ 19) = h)))
    let d := { d with bpm := { d.bpm with bufs := bufs } }
    if lost.isEmpty then d else d.ev evBpmBuffersLost 0 [.num 1 p, .num 4 lost.length]) d

/-- Whether a half holds a buffer that is OWNED or ZEROING, for which taking it OFF waits. -/
def Dev.halfBusy (d : Dev) (h : Nat) : Bool :=
  d.bpm.bufs.any (fun x => decide (x.1 / 2 ^ 19 < 4) && decide (x.2.st ≠ 0)
    && decide (d.bufHalf (x.1 / 2 ^ 19) (x.1 % 2 ^ 19) = h))

/-- Withdrawing the FREE buffers of a half from allocation, or letting them rejoin (R347). -/
def Dev.withdrawHalf (d : Dev) (h : Nat) (out : Bool) : Dev :=
  { d with bpm := { d.bpm with offHalf := maskOf 2 (fun k => if k = h then out else bitOf d.bpm.offHalf k) } }

end Sys2Proof.Machine
end

