-- ==== Sys2Proof/Machine/Ledger.lean ====
section
/-! DEFINITION. The Event Ledger (chapter 16): numbering and storing records, the early buffer, suppression, the
reader contexts, and persists. -/

namespace Sys2Proof.Machine

/-- A record's bytes before its CRC (Table 16-1). -/
def LRec.body (r : LRec) : List Byte :=
  let p := padTo 4 r.payload
  leBytes 1 ((20 + p.length) / 4) ++ leBytes 2 r.code ++ leBytes 1 r.src ++ leBytes 4 r.seq ++ leBytes 8 r.ts ++ p

/-- A record's length in bytes: 20 to 256 (R416). -/
def LRec.len (r : LRec) : Nat := 20 + (padTo 4 r.payload).length

/-- A record as readers see it (Table 16-1). -/
def LRec.bytes (r : LRec) : List Byte := r.body ++ leBytes 4 (crc32c r.body).toNat

/-- Bytes that records use. -/
def usedBy (l : List LRec) : Nat := l.foldl (fun n r => n + r.len) 0

/-- The main ledger's size, 512 KiB (R432). -/
def mainSize : Nat := 524288

/-- The early buffer's size, 16 KiB. -/
def earlySize : Nat := 16384

/-- Storing a record in the early buffer alone: with no room it is counted in EVL_EARLY.overflow and takes no number
(R419, R421, R423). -/
def Evl.storeEarly (e : Evl) (h : Held) : Evl :=
  let r : LRec := ⟨e.next, h.code, h.src, h.ts, h.payload⟩
  if e.earlyFull || decide (earlySize < usedBy e.early + r.len) then
    { e with earlyFull := true, earlyOver := sat 16 (e.earlyOver + 1) }
  else { e with early := e.early ++ [r], next := (e.next + 1) % 2 ^ 32 }

/-- Storing a record in the main ledger, with a copy of a critical one in the early buffer (R419, R421, R423). -/
def Evl.storeMain (e : Evl) (h : Held) : Evl :=
  let r : LRec := ⟨e.next, h.code, h.src, h.ts, h.payload⟩
  if e.mainFull || decide (mainSize < usedBy e.main + r.len) then
    { e with mainFull := true, overflow := sat 32 (e.overflow + 1) }
  else
    let e := { e with main := e.main ++ [r], next := (e.next + 1) % 2 ^ 32 }
    if codeCritical h.code then
      if e.earlyFull || decide (earlySize < usedBy e.early + r.len) then { e with earlyFull := true }
      else { e with early := e.early ++ [r] }
    else e

/-- Numbering and storing one record. -/
def Evl.store (e : Evl) (h : Held) : Evl := if e.mainOn then e.storeMain h else e.storeEarly h

/-- Storing every queued record at once, as a mode that stops the intake needs. -/
def Evl.drainQueues (e : Evl) : Evl := (e.queues.foldl (fun e h => e.store h) { e with queues := [] })

/-- The main ledger starts: the early buffer is copied in sequence order before any later record, the copy is
recorded, and the early buffer is emptied, its overflow kept (R17, R423). -/
def Dev.startLedger (d : Dev) : Dev :=
  if d.evl.mainOn then d
  else
    let e := d.evl
    let n := e.early.length
    let d := { d with evl := { e with mainOn := true, main := e.early, mainFull := false, early := [], earlyFull := false } }
    d.ev evEvlEarlyCopied 0 [.num 4 n, .num 2 e.earlyOver]

/-- The main ledger is lost with FAB: records go to the early buffer again (R423, R430). -/
def Dev.loseLedger (d : Dev) : Dev :=
  { d with evl := { d.evl with mainOn := false, main := [], mainFull := false, overflow := 0, ctxs := [], persisting := none,
                               waiting := [] } }

/-! ### Readers (R424) -/

/-- A reader context. -/
def Evl.ctx (e : Evl) (k : Nat) : RCtx := e.ctxs.get .reset k

/-- The record at a sequence number in the main ledger. -/
def Evl.recordAt (e : Evl) (seq : Nat) : Option LRec := e.main.find? (fun r => r.seq = seq)

/-- EVL_RD_STAT.status: 3 volume changed since the latch, 1 cursor at or above the latched head, 0 record in the
window, 2 record removed. -/
def Evl.ctxStatus (e : Evl) (k : Nat) : Nat :=
  let c := e.ctx k
  if c.latched && c.stale then 3
  else if !c.latched || decide (c.head ≤ c.cursor) then 1
  else match e.recordAt c.cursor with
    | some _ => 0
    | none => 2

/-- The record in a context's window, if its status is 0. -/
def Evl.window (e : Evl) (k : Nat) : Option LRec :=
  if e.ctxStatus k = 0 then e.recordAt (e.ctx k).cursor else none

/-- Changing a reader context. -/
def Dev.modCtx (d : Dev) (k : Nat) (f : RCtx → RCtx) : Dev :=
  { d with evl := { d.evl with ctxs := d.evl.ctxs.mod .reset k f } }

/-- The first stored record above a sequence number. -/
def Evl.nextAfter (e : Evl) (seq : Nat) : Option LRec := e.main.find? (fun r => seq < r.seq)

/-! ### Meanings -/

/-- LEDGER_INTAKE (R420): the oldest queued record is numbered and stored, or counted as overflow. -/
def ledgerIntake (d : Dev) : Dev :=
  match d.evl.queues with
  | [] => d
  | h :: rest => { d with evl := { d.evl with queues := rest }.store h }

def execLedgerIntake (s : State) : Host.Outcome State Fault Refusal := .next (s.onDev ledgerIntake)

/-- LEDGER_RECORD_OFFER (R420, R422): a source offers a record. -/
def execLedgerRecordOffer (e : EvOffer) (s : State) : Host.Outcome State Fault Refusal :=
  .next (s.onDev (fun d => d.offer (e.code % 0x10000) (e.src % 256) (padTo 4 e.payload)))

/-- SUPPRESSION_SECOND_END (R422): the second of a code and source ends, and one record gives the code, the source
and the number suppressed. -/
def suppressionEnd (code src : Nat) (d : Dev) : Dev :=
  match d.evl.suppOf code src with
  | none => d
  | some x =>
    let d := { d with evl := { d.evl with supp := d.evl.supp.filter (fun y => ¬ (y.code = code ∧ y.src = src)) } }
    if x.suppressed = 0 then d
    else d.ev evEvlSuppressed 0 [.num 2 code, .num 1 src, .num 4 x.suppressed]

def execSuppressionSecondEnd (code src : Nat) (s : State) : Host.Outcome State Fault Refusal :=
  .next (s.onDev (suppressionEnd code src))

/-- LEDGER_LATCH (R424): head and volume are captured. -/
def ledgerLatch (k : Nat) (d : Dev) : Dev :=
  if k < 4 ∧ d.evl.mainOn then
    d.modCtx k (fun c => { c with latched := true, head := d.evl.next, volume := d.evl.volume, stale := false })
  else d

def execLedgerLatch (k : Nat) (s : State) : Host.Outcome State Fault Refusal := .next (s.onDev (ledgerLatch k))

/-- LEDGER_CURSOR_WRITE (R424): the cursor names the record in the window. -/
def ledgerCursor (k seq : Nat) (d : Dev) : Dev :=
  if k < 4 ∧ d.evl.mainOn then d.modCtx k (fun c => { c with cursor := seq % 2 ^ 32 }) else d

def execLedgerCursorWrite (k seq : Nat) (s : State) : Host.Outcome State Fault Refusal :=
  .next (s.onDev (ledgerCursor k seq))

/-- LEDGER_NEXT (R424): the cursor moves to the following record, or past the last one. -/
def ledgerNext (k : Nat) (d : Dev) : Dev :=
  if k < 4 ∧ d.evl.mainOn then
    d.modCtx k (fun c => { c with cursor := ((d.evl.nextAfter c.cursor).map (·.seq)).getD ((c.cursor + 1) % 2 ^ 32) })
  else d

def execLedgerNext (k : Nat) (s : State) : Host.Outcome State Fault Refusal := .next (s.onDev (ledgerNext k))

/-! ### Persists (R427) -/

/-- A volume's size, 64 MiB (R427). -/
def volumeSize : Nat := 67108864

/-- Starting a persist, or waiting for the one that runs. The records from next_seq to the head latched now are
persisted. -/
def Dev.startPersist (d : Dev) (w : PersistFor) : Dev :=
  match d.evl.persisting with
  | none => { d with evl := { d.evl with persisting := some (w, d.evl.next) } }
  | some _ => { d with evl := { d.evl with waiting := d.evl.waiting ++ [w] } }

/-- The records of a persist: from next_seq up to the head latched at its start. -/
def Evl.toPersist (e : Evl) (head : Nat) : List LRec :=
  e.main.filter (fun r => decide (e.persistNext ≤ r.seq) && decide (r.seq < head))

/-- Records that fit in what is left of a volume, those that do not, and the bytes then used. -/
def fitVolume : List LRec → Nat → Bool → List LRec × Nat × Nat × Bool
  | [], used, full => ([], 0, used, full)
  | r :: l, used, full =>
    if full || decide (volumeSize < used + r.len) then
      let (a, n, u, _) := fitVolume l used true
      (a, n + 1, u, true)
    else
      let (a, n, u, f) := fitVolume l (used + r.len) false
      (r :: a, n, u, f)

/-- A persist that `quires` Quires took (R427): EVL_PERSIST.next_seq moves to the latched head; a full volume takes
nothing more, counts what it does not take, and is recorded once. With none, nothing moves. -/
def Dev.endPersist (d : Dev) (head quires : Nat) : Dev :=
  let e := d.evl
  if quires = 0 then
    { d with evl := { e with lastFailed := true } }.ev evEvlPersistFail 0 []
  else
    let l := e.toPersist head
    let (a, n, u, full) := fitVolume l e.volBytes e.volFull
    let first := match l with
      | [] => e.persistNext
      | r :: _ => r.seq
    let last := match l.getLast? with
      | none => (head + 2 ^ 32 - 1) % 2 ^ 32
      | some r => r.seq
    let d := { d with evl := { e with
      persistNext := head, lastFailed := false, curVol := e.curVol ++ a, volBytes := u, volFull := full,
      curOver := e.curOver + n } }
    let d := d.ev evEvlPersistDone 0 [.num 4 first, .num 4 last, .num 1 quires]
    if full && !e.volFull then d.ev evEvlVolumeFull 0 [.num 4 e.volume] else d

/-- Steps 2 to 4 of Ledger New Volume (R429), `head` being the head latched at its step 1. -/
def Dev.newVolume (d : Dev) (head : Nat) : Dev :=
  let e := d.evl
  let old := e.volume
  let lost := e.overflow
  let d := { d with evl := { e with
    prevVol := e.curVol, prevOver := e.curOver, curVol := [], curOver := 0, volBytes := 0, volFull := false
    main := e.main.filter (fun r => head ≤ r.seq), mainFull := false, overflow := 0, removed := head
    volume := (old + 1) % 2 ^ 32
    ctxs := e.ctxs.map (fun (c : Nat × RCtx) => (c.1, { c.2 with stale := c.2.latched })) } }
  d.ev evEvlVolumeNew 0 [.num 4 old, .num 4 lost, .num 4 ((head + 2 ^ 32 - 1) % 2 ^ 32)]

/-- EVL_OLDEST (R432): the first stored record, or after a new volume the head latched at its step 1. -/
def Evl.oldest (e : Evl) : Nat :=
  match e.main with
  | r :: _ => r.seq
  | [] => if e.removed = 0 then 0 else e.removed

end Sys2Proof.Machine
end

