-- ==== Sys2Proof/Machine/Collation.lean ====
section
/-! DEFINITION. The Collation Engine (chapter 11): tiles and groups, searches verified against the shadow, insertion
by priority, removal by tag, the partition, and the command window. -/

namespace Sys2Proof.Machine

/-! ### Fields of a range entry (Table 11-3) -/

def CEnt.first (e : CEnt) : Nat := bitsOf e.key.toNat 37 0
def CEnt.count (e : CEnt) : Nat := bitsOf e.key.toNat 46 38 + 1
def CEnt.ns (e : CEnt) : Nat := bitsOf e.key.toNat 56 47
def CEnt.kind (e : CEnt) : Nat := bitsOf e.key.toNat 59 57
def CEnt.pending (e : CEnt) : Bool := bitOf e.key.toNat 60
def CEnt.tag (e : CEnt) : Nat := bitsOf e.key.toNat 76 61
def CEnt.blocks (e : CEnt) : Nat := bitsOf e.key.toNat 84 77
/-- The buffer handle of the first unit; 0 names no buffer (R315, R336). -/
def CEnt.handle (e : CEnt) : W32 := e.res.truncate 32

/-- A range key: everything but the pending bit as given. -/
def rangeKey (first count ns kind tag blocks : Nat) (pending : Bool) : BitVec 192 :=
  BitVec.ofNat 192 (first % 2 ^ 38 + 2 ^ 38 * ((count - 1) % 512) + 2 ^ 47 * (ns % 1024) + 2 ^ 57 * (kind % 8)
    + 2 ^ 60 * bit pending + 2 ^ 61 * (tag % 65536) + 2 ^ 77 * (blocks % 256))

/-- The pending bit of a range key. -/
def pendingBit : BitVec 192 := BitVec.ofNat 192 (2 ^ 60)

/-- Key bits [95:47], which a range search compares where its mask does not exclude them. -/
def rangeRest : BitVec 192 := BitVec.ofNat 192 (2 ^ 96 - 2 ^ 47)

/-! ### Groups and tiles (R312, R313) -/

/-- A group's entries, by code: 0 classification, 1 range, 2 zone, 3 general. -/
def Col.grp (c : Col) (g : Nat) : Tbl CEnt :=
  if g = 0 then c.cls else if g = 1 then c.rng else if g = 2 then c.zone else c.gen

/-- Replacing a group's entries. -/
def Col.setGrp (c : Col) (g : Nat) (t : Tbl CEnt) : Col :=
  if g = 0 then { c with cls := t } else if g = 1 then { c with rng := t }
  else if g = 2 then { c with zone := t } else { c with gen := t }

/-- Tiles in the range group, draining ones included. -/
def Col.rangeTiles (c : Col) : Nat := 63 - c.z - 2 * c.g

/-- Range tiles that are not draining: those that stay in the group under the partition being moved to. -/
def Col.liveTiles (c : Col) : Nat := min c.rangeTiles (63 - c.tz - 2 * c.tg)

/-- A group's first tile and its number of tiles. -/
def Col.tiles (c : Col) (g : Nat) : Nat × Nat :=
  if g = 0 then (0, 1) else if g = 1 then (1, c.rangeTiles) else if g = 2 then (64 - 2 * c.g - c.z, c.z)
  else (64 - 2 * c.g, 2 * c.g)

/-- The tile that holds a group index. -/
def Col.tileOf (c : Col) (g i : Nat) : Nat := (c.tiles g).1 + i / 1024

/-- Whether an index exists in a group; a general entry lies in the low tile of its pair. -/
def Col.idxOk (c : Col) (g i : Nat) : Bool :=
  decide (i < 1024 * (c.tiles g).2) && (decide (g ≠ 3) || decide (i / 1024 % 2 = 0))

/-- The range capacity (R326). -/
def Col.capacity (c : Col) : Nat := 1024 * c.liveTiles - 512

/-- Valid entries in a tile. -/
def Col.tileValid (c : Col) (t : Nat) : Nat :=
  ((List.range 4).map (fun g => ((c.grp g).filter (fun x => decide (c.idxOk g x.1) && decide (c.tileOf g x.1 = t))).length)).sum

/-- The group a tile belongs to. -/
def Col.tileGroup (c : Col) (t : Nat) : Nat :=
  if t = 0 then 0 else if t ≤ c.rangeTiles then 1 else if t < 64 - 2 * c.g then 2 else 3

/-- The match mode of a group (Table 11-2): general tiles hold the ternary mode. -/
def groupMode (g : Nat) : Nat := if g = 1 then 1 else if g = 2 then 2 else 0

/-! ### Matching (Table 11-1) -/

/-- Whether a stored key matches a query. Range entries match when their units overlap the query's and every other
bit that the masks leave is equal; a pending entry matches nothing. -/
def keyMatch (g : Nat) (k m q qm : BitVec 192) : Bool :=
  if g = 1 then
    let a := k.toNat
    let b := q.toNat
    decide (bitsOf a 37 0 ≤ bitsOf b 37 0 + bitsOf b 46 38) && decide (bitsOf b 37 0 ≤ bitsOf a 37 0 + bitsOf a 46 38)
    && !(bitOf a 60) && decide ((k ^^^ q) &&& rangeRest &&& ~~~ (m ||| qm) = 0)
  else decide ((k ^^^ q) &&& ~~~ ((if g = 2 then 0 else m) ||| qm) = 0)

/-- The key that the array holds at an index. -/
def Col.arrKey (c : Col) (g i : Nat) (e : CEnt) : BitVec 192 := e.key ^^^ (c.flips.get 0 (65536 * g + i)).zeroExtend 192

/-- The matches of a query in the array, in index order. -/
def Col.arrHits (c : Col) (g : Nat) (q qm : BitVec 192) : List (Nat × CEnt) :=
  (c.grp g).filter (fun x => keyMatch g (c.arrKey g x.1 x.2) x.2.mask q qm)

/-- The matches of a query in the shadow, in index order. -/
def Col.hits (c : Col) (g : Nat) (q qm : BitVec 192) : List (Nat × CEnt) :=
  (c.grp g).filter (fun x => keyMatch g x.2.key x.2.mask q qm)

/-- Refilling an entry from the shadow. -/
def Dev.colRefill (d : Dev) (g i : Nat) : Dev := { d with col := { d.col with flips := d.col.flips.del (65536 * g + i) } }

/-- The shadow comparison of results (R328): every index that the array returns and the shadow does not is refilled
and recorded, and the search is issued again. -/
def Dev.colVerify (d : Dev) (g : Nat) (q qm : BitVec 192) : Dev :=
  (d.col.arrHits g q qm).foldl (fun d x =>
    if keyMatch g x.2.key x.2.mask q qm then d
    else (d.colRefill g x.1).count aColErr 0 16 |>.ev evColSoftError 0 [.num 1 (d.col.tileOf g x.1), .num 2 x.1]) d

/-- A verified search: the state after the shadow comparisons, and the verified matches. Misses stand once a scrub
pass confirms them (R331), so the matches are those of the shadow. -/
def Dev.colSearch (d : Dev) (g : Nat) (q qm : BitVec 192) : Dev × List (Nat × CEnt) :=
  let d := d.colVerify g q qm
  (d, d.col.hits g q qm)

/-- The mask with which a range search of the hardware leaves kind, tag and blocks out. -/
def walkMask : BitVec 192 := BitVec.ofNat 192 (2 ^ 96 - 2 ^ 57)

/-- The valid entries of a namespace that overlap an interval, newest first (R325). -/
def Col.overlaps (c : Col) (ns first count : Nat) : List (Nat × CEnt) :=
  c.hits 1 (rangeKey first count ns 0 0 0 false) walkMask

/-! ### Insertion (R320, R321) -/

/-- The lowest free index among those below `n` (R320). -/
def lowestFree (t : Tbl CEnt) : Nat → Nat → Nat
  | 0, i => i
  | n + 1, i => if t.has i then lowestFree t n (i + 1) else i

/-- Live tags: those of entries, and those that readers still hold. -/
def Col.tagLive (c : Col) (tag : Nat) : Bool := c.rng.any (fun x => x.2.tag = tag) || c.dying.has tag

/-- The lowest tag that no live entry has. -/
def Col.freeTag (c : Col) : Nat → Nat → Nat
  | 0, i => i
  | n + 1, i => if c.tagLive i then c.freeTag n (i + 1) else i

/-- Placing one range entry: at the lowest free index, or at the first entry it overlaps, with those between moved
down by one. Any array bits that differed in what is rewritten go with the move. -/
def Dev.colPlace (d : Dev) (e : CEnt) : Dev :=
  let c := d.col
  let m := (c.overlaps e.ns e.first e.count).head?
  let f := lowestFree c.rng (c.rng.length + 1) 0
  match m with
  | some (m, _) =>
    if m < f then
      let t := c.rng.map (fun x => if m ≤ x.1 ∧ x.1 < f then (x.1 + 1, x.2) else x)
      let fl := c.flips.filter (fun x => !(decide (65536 + m ≤ x.1) && decide (x.1 ≤ 65536 + f)))
      let col := { c with rng := Tbl.ins t m e, flips := fl, maxShift := max c.maxShift (f - m) }
      { d with col := col }.count aColShift 0 16
    else { d with col := { c with rng := c.rng.ins f e } }
  | none => { d with col := { c with rng := c.rng.ins f e } }

/-- What one entry of a command covers. -/
structure RSpec where
  first  : Nat
  count  : Nat
  ns     : Nat
  kind   : Nat
  blocks : Nat
  handle : W32
deriving DecidableEq, Repr

/-- Placing a command's entries, pending, each under a tag of its own; the tags placed. -/
def Dev.colInsert (d : Dev) : List RSpec → Dev × List Nat
  | [] => (d, [])
  | r :: l =>
    let tag := d.col.freeTag 65536 0
    let e : CEnt := ⟨rangeKey r.first r.count r.ns r.kind tag r.blocks true, 0,
      BitVec.ofNat 64 (r.handle.toNat + 2 ^ 32 * (d.col.seq % 2 ^ 32))⟩
    let d := d.colPlace e
    let d := { d with col := { d.col with seq := (d.col.seq + 1) % 2 ^ 32, log := tag :: d.col.log } }
    let (d, tags) := Dev.colInsert d l
    (d, tag :: tags)

/-- Activation: pending clears on every entry of the command in one cycle (R320). -/
def Dev.colActivate (d : Dev) (tags : List Nat) : Dev :=
  { d with col := { d.col with rng := d.col.rng.map (fun x =>
      if x.2.tag ∈ tags then (x.1, { x.2 with key := x.2.key &&& ~~~ pendingBit }) else x) } }

/-- Reserved and valid range entries, and those a command needs: whether they fit the capacity (R326). -/
def Col.fits (c : Col) (n : Nat) : Bool := decide (c.resv + c.rng.length + n ≤ c.capacity)

/-! ### Removal (R322) -/

/-- Whether a valid entry at a higher index overlaps the entry of a tag. -/
def Col.blockedBy (c : Col) (tag : Nat) : Bool :=
  match c.rng.find? (fun x => x.2.tag = tag) with
  | none => false
  | some (i, e) => (c.overlaps e.ns e.first e.count).any (fun x => decide (i < x.1))

/-- The buffer that an entry's handle names, less the unit. -/
def bufBase (h : W32) : W32 := h &&& 0xFFFFFE00#32

/-- Whether a live entry other than `tag`'s, or one that readers hold, still refers to a buffer. -/
def Col.bufUsed (c : Col) (b : W32) : Bool :=
  c.rng.any (fun x => decide (bufBase x.2.handle = b)) || c.dying.any (fun x => x.2.contains b)

/-- Clearing every index that holds a tag; the buffers that no entry or reader refers to any more are the releases
sent to the Buffer Pool Manager. -/
def Dev.colRemoveTag (d : Dev) (tag : Nat) : Dev × List W32 :=
  match d.col.rng.find? (fun x => x.2.tag = tag) with
  | none => (d, [])
  | some (i, e) =>
    let c := { d.col with rng := d.col.rng.del i, flips := d.col.flips.del (65536 + i) }
    let b := bufBase e.handle
    if b = 0 then ({ d with col := c }, [])
    else if c.readers.get 0 tag = 0 then ({ d with col := c }, if c.bufUsed b then [] else [b])
    else ({ d with col := { c with dying := c.dying.ins tag [b] } }, [])

/-- A reader finishes with a tag (R322): at 0, the buffers of a removed entry are released. -/
def Dev.colReaderDone (d : Dev) (tag : Nat) : Dev × List W32 :=
  let c := { d.col with readers := d.col.readers.put 0 tag (d.col.readers.get 0 tag - 1) }
  if c.readers.get 0 tag = 0 then
    match c.dying.get? tag with
    | none => ({ d with col := c }, [])
    | some bs =>
      let c := { c with dying := c.dying.del tag }
      ({ d with col := c }, bs.filter (fun b => !(c.bufUsed b)))
  else ({ d with col := c }, [])

/-- A reader takes a tag; false when the count is 255 and the read waits. -/
def Dev.colReader (d : Dev) (tag : Nat) : Option Dev :=
  let n := d.col.readers.get 0 tag
  if 255 ≤ n then none else some { d with col := { d.col with readers := d.col.readers.put 0 tag (n + 1) } }

/-! ### The partition (R313) -/

/-- A Namespace Management create that waits in the sequencer for tiles completes once they are reassigned (R313). -/
def Dev.createSettle (d : Dev) : Dev :=
  match d.adm.running with
  | none => d
  | some cs =>
    match d.hg.slots.get? cs with
    | none => d
    | some s => if s.st = .committed ∧ s.wait = .range then d.complete cs (cqeDw0 (BitVec.ofNat 32 s.want)) else d

/-- Reassigning drained tiles: once no range entry lies in a tile that leaves the range group, the partition moves
and the change is recorded; entries of tiles that leave another group are gone. -/
def Dev.colSettle (d : Dev) : Dev :=
  let c := d.col
  if c.busy && c.rng.all (fun x => decide (x.1 < 1024 * c.liveTiles)) then
    let c := { c with z := c.tz, g := c.tg, busy := false
                      zone := c.zone.filter (fun x => decide (x.1 < 1024 * c.tz))
                      gen := c.gen.filter (fun x => decide (x.1 < 2048 * c.tg)) }
    { d with col := c }.ev evColPartChange 0 [] |>.createSettle
  else d

/-- Moving to a partition. -/
def Dev.colRepart (d : Dev) (z g : Nat) : Dev :=
  if z = d.col.tz ∧ g = d.col.tg then d
  else { d with col := { d.col with tz := z, tg := g, busy := true } }.colSettle

/-- COL_PART_WRITE (R313, R334): firmware sets the pairs of general tiles; 3 is out of range. -/
def colPartWrite (v : W32) (d : Dev) : Dev :=
  let g := bitsOf v.toNat 4 3
  if !(d.domReady 2) then d
  else if g = 3 then d.ev evColParamBad 0 [.num 4 aColPart]
  else (d.setField aColPart 4 3 g).colRepart d.col.tz g

def execColPartWrite (v : W32) (s : State) : Host.Outcome State Fault Refusal := .next (s.onDev (colPartWrite v))

/-! ### Scrubbing (R330 to R332) -/

/-- Moving a logged entry below an older overlapping one to that one's index (R332). -/
def Dev.colRecheck (d : Dev) (tag : Nat) : Dev :=
  match d.col.rng.find? (fun x => x.2.tag = tag) with
  | none => d
  | some (i, e) =>
    let older := (d.col.overlaps e.ns e.first e.count).filter (fun x => decide (x.1 < i) &&
      decide ((bitsOf e.res.toNat 63 32 + 2 ^ 32 - bitsOf x.2.res.toNat 63 32) % 2 ^ 32 < 2 ^ 31) && decide (x.2.tag ≠ tag))
    match older.head? with
    | none => d
    | some (m, _) =>
      let t := (d.col.rng.del i).map (fun x => if m ≤ x.1 ∧ x.1 < i then (x.1 + 1, x.2) else x)
      { d with col := { d.col with rng := Tbl.ins t m e } }.count aColErr2 8 8

/-- SCRUB_PASS_DONE (R330 to R332): every entry of the tile that differs from its shadow is refilled and recorded;
after a refill in the range group the entries logged since the last clean pass are searched again. -/
def scrubPass (t : Nat) (d : Dev) : Dev :=
  if !(bitOf (d.csrW aColCtrl).toNat 0) || !(d.domReady (5 + t / 16)) then d
  else
    let c := d.col
    let g := c.tileGroup t
    let bad := (c.grp g).filter (fun x => decide (c.tileOf g x.1 = t) && c.flips.has (65536 * g + x.1))
    let d := bad.foldl (fun d x =>
      (d.colRefill g x.1).count aColErr 16 16 |>.ev evColScrubMismatch 0 [.num 1 t, .num 2 x.1]) d
    if g = 1 then
      if bad.isEmpty then { d with col := { d.col with log := [] } }
      else d.col.log.foldl (fun d tag => d.colRecheck tag) d
    else d

def execScrubPassDone (tile : Nat) (s : State) : Host.Outcome State Fault Refusal := .next (s.onDev (scrubPass tile))

/-! ### The command window (R334) -/

/-- The 192-bit word of six window registers. -/
def Dev.winWord (d : Dev) (a : Nat) : BitVec 192 :=
  BitVec.ofNat 192 (leNat ((List.range 6).flatMap (fun i => leBytes 4 (d.csrW (a + 4 * i)).toNat)))

/-- The result word of the window. -/
def Dev.winRes (d : Dev) : BitVec 64 := BitVec.ofNat 64 ((d.csrW aColRes).toNat + 2 ^ 32 * (d.csrW (aColRes + 4)).toNat)

/-- Showing a result word in the window. -/
def Dev.showRes (d : Dev) (r : BitVec 64) : Dev :=
  (d.setCsr aColRes (r.truncate 32)).setCsr (aColRes + 4) ((r >>> 32).truncate 32)

/-- Showing a key and mask in the window. -/
def Dev.showEnt (d : Dev) (e : CEnt) : Dev :=
  ((List.range 6).foldl (fun d i =>
    (d.setCsr (aColKey + 4 * i) ((e.key >>> (32 * i)).truncate 32)).setCsr (aColMask + 4 * i)
      ((e.mask >>> (32 * i)).truncate 32)) d).showRes e.res

/-- The outcome of a window operation. -/
def Dev.winEnd (d : Dev) (result : Nat) : Dev := { d with col := { d.col with result := result } }

/-- Storing COL_WIN_CMD's op and group; the window runs only with FAB powered and go = 1. -/
def Dev.winStart (d : Dev) (v : W32) (op : Nat) (run : Nat → Dev → Dev) : Dev :=
  if !(d.domReady 2) then d
  else
    let d := d.setCsr aColCmd (v &&& 0x3F#32)
    if !(bitOf v.toNat 8) || decide (bitsOf v.toNat 3 0 ≠ op) then d
    else
      let g := bitsOf v.toNat 5 4
      if (d.col.tiles g).2 = 0 then d.winEnd 3 else run g d

/-- An entry lost in both copies (R329): it is cleared and recorded; firmware rebuilds a range, classification or zone
entry from its tables, so those stand again, and a general entry stays cleared. -/
def Dev.colLost (d : Dev) (g i : Nat) : Dev :=
  let c := if g = 3 then d.col.setGrp g ((d.col.grp g).del i) else d.col
  { d with col := { c with flips := c.flips.del (65536 * g + i) } }.count aColErr2 0 8
    |>.ev evColEntryLost 0 [.num 1 (d.col.tileOf g i), .num 2 i]

/-- A hit shown in the window. -/
def Dev.winHit (d : Dev) (g : Nat) (q : BitVec 192) (x : Nat × CEnt) (multi : Bool) : Dev :=
  let d := { d with col := { d.col with multi := multi, hit := x.1, walk := some (g, q, x.1) } }
  (d.showRes x.2.res).winEnd 0

/-- A verified search; where `lost` holds, the first index returned is found lost in both copies and the search is
issued again after R329. -/
def Dev.colSearchL (d : Dev) (lost : Bool) (g : Nat) (q qm : BitVec 192) : Dev × List (Nat × CEnt) :=
  let (d, l) := d.colSearch g q qm
  match lost, l with
  | true, x :: _ => (d.colLost g x.1).colSearch g q qm
  | _, _ => (d, l)

/-- COL_SEARCH (R334): the first verified match of the window's key. -/
def colSearchCmd (v : W32) (lost : Bool) (d : Dev) : Dev :=
  d.winStart v 1 (fun g d =>
    let q := d.winWord aColKey
    let (d, l) := d.colSearchL lost g q (d.winWord aColMask)
    match l with
    | [] => { d with col := { d.col with walk := none, multi := false } }.winEnd 1
    | x :: l => d.winHit g q x (!l.isEmpty))

def execColSearch (v : W32) (lost : Bool) (s : State) : Host.Outcome State Fault Refusal :=
  .next (s.onDev (colSearchCmd v lost))

/-- COL_STEP (R318): the next match of the window's walk; only the range group steps. -/
def colStepCmd (v : W32) (lost : Bool) (d : Dev) : Dev :=
  d.winStart v 2 (fun g d =>
    if g ≠ 1 then d.winEnd 3
    else
      match d.col.walk with
      | none => d.winEnd 1
      | some (g', q, i) =>
        if g' ≠ 1 then d.winEnd 1
        else
          let (d, l) := d.colSearch 1 q (d.winWord aColMask)
          let l := l.filter (fun x => decide (i < x.1))
          let d := match lost, l with
            | true, x :: _ => d.colLost 1 x.1
            | _, _ => d
          match l with
          | [] => { d with col := { d.col with walk := none } }.winEnd 1
          | x :: _ => d.winHit 1 q x d.col.multi)

def execColStep (v : W32) (lost : Bool) (s : State) : Host.Outcome State Fault Refusal :=
  .next (s.onDev (colStepCmd v lost))

/-- The lowest free index of a group that exists, if one does. -/
def Col.freeIdx (c : Col) (g : Nat) : Option Nat :=
  (List.range (1024 * (c.tiles g).2)).find? (fun i => c.idxOk g i && !((c.grp g).has i))

/-- The entry that the window's registers spell; an unpaired group has 96 key bits. -/
def Dev.winEnt (d : Dev) (g : Nat) : CEnt :=
  let m : BitVec 192 := if g = 3 then ~~~ 0 else BitVec.ofNat 192 (2 ^ 96 - 1)
  ⟨d.winWord aColKey &&& m, d.winWord aColMask &&& m, d.winRes⟩

/-- COL_INSERT (R334): the lowest free index of the classification or general group. -/
def colInsertCmd (v : W32) (d : Dev) : Dev :=
  d.winStart v 3 (fun g d =>
    if g = 1 ∨ g = 2 then d.winEnd 2
    else match d.col.freeIdx g with
      | none => d.winEnd 1
      | some i =>
        { d with col := { (d.col.setGrp g ((d.col.grp g).ins i (d.winEnt g))) with hit := i } }.winEnd 0)

def execColInsert (v : W32) (s : State) : Host.Outcome State Fault Refusal := .next (s.onDev (colInsertCmd v))

/-- COL_REMOVE (R334): the entry at the window's index goes. -/
def colRemoveCmd (v : W32) (d : Dev) : Dev :=
  d.winStart v 4 (fun g d =>
    let i := d.reg aColIdx 15 0
    if g = 1 ∨ g = 2 then d.winEnd 2
    else if !(d.col.idxOk g i) then d.winEnd 3
    else
      let c := d.col.setGrp g ((d.col.grp g).del i)
      { d with col := { c with flips := c.flips.del (65536 * g + i) } }.winEnd (if (d.col.grp g).has i then 0 else 1))

def execColRemove (v : W32) (s : State) : Host.Outcome State Fault Refusal := .next (s.onDev (colRemoveCmd v))

/-- COL_READ (R334): the entry at the window's index, after its shadow comparison. -/
def colReadCmd (v : W32) (lost : Bool) (d : Dev) : Dev :=
  d.winStart v 5 (fun g d =>
    let i := d.reg aColIdx 15 0
    if !(d.col.idxOk g i) then d.winEnd 3
    else
      let d := if lost && (d.col.grp g).has i then d.colLost g i else d
      match (d.col.grp g).get? i with
      | none => d.winEnd 1
      | some e =>
        let d := if d.col.flips.has (65536 * g + i) then
            (d.colRefill g i).count aColErr 0 16 |>.ev evColSoftError 0 [.num 1 (d.col.tileOf g i), .num 2 i]
          else d
        (d.showEnt e).winEnd 0)

def execColRead (v : W32) (lost : Bool) (s : State) : Host.Outcome State Fault Refusal :=
  .next (s.onDev (colReadCmd v lost))

/-- COL_WRITE (R334): the window's entry is written at its index. -/
def colWriteCmd (v : W32) (d : Dev) : Dev :=
  d.winStart v 6 (fun g d =>
    let i := d.reg aColIdx 15 0
    if g = 1 ∨ g = 2 then d.winEnd 2
    else if !(d.col.idxOk g i) then d.winEnd 3
    else
      let c := d.col.setGrp g ((d.col.grp g).ins i (d.winEnt g))
      { d with col := { c with flips := c.flips.del (65536 * g + i) } }.winEnd 0)

def execColWrite (v : W32) (s : State) : Host.Outcome State Fault Refusal := .next (s.onDev (colWriteCmd v))

/-- COL_INJECT (R334): COL_CTRL.inject flips one array bit of the entry at the window's index and group, without
touching the shadow. The write stores scrub_en and inject_bit too; an inject_bit above 95 is out of range, and clearing
scrub_en is recorded. -/
def colInjectCmd (v : W32) (d : Dev) : Dev :=
  if !(d.domReady 2) then d
  else if 95 < bitsOf v.toNat 8 2 then d.ev evColParamBad 0 [.num 4 aColCtrl]
  else
    let was := bitOf (d.csrW aColCtrl).toNat 0
    let d := d.setCsr aColCtrl (v &&& 0x1FD#32)
    let d := if was && !(bitOf v.toNat 0) then d.ev evColScrubOff 0 [] else d
    let g := d.reg aColCmd 5 4
    let i := d.reg aColIdx 15 0
    if bitOf v.toNat 1 && (d.col.grp g).has i then
      let m := BitVec.ofNat 96 (2 ^ bitsOf v.toNat 8 2)
      { d with col := { d.col with flips := d.col.flips.mod 0 (65536 * g + i) (· ^^^ m) } }
    else d

def execColInject (v : W32) (s : State) : Host.Outcome State Fault Refusal := .next (s.onDev (colInjectCmd v))

/-! ### Classification and zone entries (R316, R317) -/

/-- The controller key of a function. -/
def ctlKey (f : Fn) : Nat :=
  match f with
  | .pf p => 0x4000 + p.num
  | .vf _ n => 0x8000 + (n - 1)

/-- Writing the classification entry of a namespace attachment: `key` with bit 0 don't-care where `both`. -/
def Dev.classInsert (d : Dev) (key : Nat) (both : Bool) (nsid tenant ns kind lbaf : Nat) : Dev :=
  match d.col.freeIdx 0 with
  | none => d
  | some i =>
    let e : CEnt := ⟨BitVec.ofNat 192 (key + 65536 * nsid), if both then 1 else 0,
      BitVec.ofNat 64 (tenant + 2 ^ 10 * ns + 2 ^ 20 * kind + 2 ^ 22 * lbaf)⟩
    { d with col := { d.col with cls := d.col.cls.ins i e } }

/-- Removing every classification entry of a namespace. -/
def Dev.classRemove (d : Dev) (ns : Nat) : Dev :=
  { d with col := { d.col with cls := d.col.cls.filter (fun x => decide (bitsOf x.2.res.toNat 19 10 ≠ ns)) } }

/-- The zone entry of a zone, if it is active: its index, write pointer and capacity. -/
def Col.zoneEnt (c : Col) (ns zone : Nat) : Option (Nat × Nat × Nat) :=
  (c.zone.find? (fun x => decide (x.2.key = BitVec.ofNat 192 (zone + 2 ^ 32 * ns)))).map
    (fun x => (x.1, bitsOf x.2.res.toNat 31 0, bitsOf x.2.res.toNat 63 32))

/-- Writing a zone's entry through the zone port. -/
def Dev.zoneEntPut (d : Dev) (ns zone wp zcap : Nat) : Dev :=
  let i := match d.col.zoneEnt ns zone with
    | some (i, _, _) => i
    | none => lowestFree d.col.zone (d.col.zone.length + 1) 0
  let e : CEnt := ⟨BitVec.ofNat 192 (zone + 2 ^ 32 * ns), 0, BitVec.ofNat 64 (wp + 2 ^ 32 * zcap)⟩
  { d with col := { d.col with zone := d.col.zone.ins i e } }

/-- Removing a zone's entry. -/
def Dev.zoneEntDel (d : Dev) (ns zone : Nat) : Dev :=
  match d.col.zoneEnt ns zone with
  | some (i, _, _) => { d with col := { d.col with zone := d.col.zone.del i } }
  | none => d

/-- A COL quad that has been OFF comes up empty (R314). -/
def Dev.colLoseQuad (d : Dev) (quad : Nat) : Dev :=
  let c := d.col
  let keep (g : Nat) := (c.grp g).filter (fun x => decide (c.tileOf g x.1 / 16 ≠ quad))
  { d with col := { c with
      cls := keep 0, rng := keep 1, zone := keep 2, gen := keep 3
      flips := c.flips.filter (fun x => decide (c.tileOf (x.1 / 65536) (x.1 % 65536) / 16 ≠ quad)) } }

/-- Whether WDN_PD_REQ must refuse to take a quad OFF (R314). -/
def Dev.colQuadBusy (d : Dev) (quad : Nat) : Bool :=
  (List.range 16).any (fun k =>
    let t := 16 * quad + k
    decide (d.col.tileValid t ≠ 0) || decide (d.col.tileGroup t = 0) || decide (d.col.tileGroup t = 2))

end Sys2Proof.Machine
end

