-- ==== Sys2Proof/Machine/Colophon.lean ====
section
/-! DEFINITION. The Module Colophon (R295 to R298): its fields, the form every field must have, and how a leaf index
becomes a die, block and page. -/

namespace Sys2Proof.Machine

/-! ### Fields (Table 10-1) -/

/-- A colophon as read: its bytes. -/
structure Colo where
  bytes : List Byte
deriving DecidableEq, Repr

/-- A field of `n` bytes at offset `o`. -/
def Colo.f (c : Colo) (o n : Nat) : Nat := fieldAt c.bytes o n

def Colo.signed (c : Colo) : Bool := bitOf (c.f 6 2) 0
def Colo.hasKey (c : Colo) : Bool := bitOf (c.f 6 2) 1
def Colo.serial (c : Colo) : BitVec 128 := BitVec.ofNat 128 (c.f 0x10 16)
def Colo.chans (c : Colo) : Nat := c.f 0x50 1
def Colo.perChan (c : Colo) : Nat := c.f 0x51 1
/-- P, the die positions (R296). -/
def Colo.dies (c : Colo) : Nat := c.chans * c.perChan
def Colo.blocks (c : Colo) : Nat := c.f 0x54 4
def Colo.bq (c : Colo) : Nat := c.f 0x58 2
def Colo.bs (c : Colo) : Nat := c.f 0x5A 2
def Colo.nq (c : Colo) : Nat := c.f 0x5C 1
def Colo.nslc (c : Colo) : Nat := c.f 0x5D 1
def Colo.rawGib (c : Colo) : Nat := c.f 0x64 4
/-- Nominal and maximum time `i` of the seven, in µs. -/
def Colo.tNom (c : Colo) (i : Nat) : Nat := c.f (0x70 + 4 * i) 2
def Colo.tMax (c : Colo) (i : Nat) : Nat := c.f (0x72 + 4 * i) 2
def Colo.susMax (c : Colo) (erase : Bool) : Nat := c.f (if erase then 0x8D else 0x8C) 1
def Colo.susRun (c : Colo) (erase : Bool) : Nat := c.f (if erase then 0x90 else 0x8E) 2
/-- Charge `i`: QLC read, SLC read, QLC program, SLC program, erase. -/
def Colo.charge (c : Colo) (i : Nat) : Nat := c.f (0xA0 + 2 * i) 2
def Colo.maxShares (c : Colo) : Nat := c.f 0xAC 4
/-- A signed temperature of the thermal field, in °C. -/
def Colo.temp (c : Colo) (i : Nat) : Int := Sys2Proof.Machine.signed 8 (c.f (0xC0 + i) 1)
def Colo.peQlc (c : Colo) : Nat := c.f 0xD0 4
def Colo.peSlc (c : Colo) : Nat := c.f 0xD4 4
def Colo.maxOffset (c : Colo) : Nat := c.f 0xDA 1
def Colo.retries (c : Colo) : Nat := c.f 0xDB 1
/-- The nominal offsets, and retry entry `i`, in the layout of R217. -/
def Colo.nominal (c : Colo) : BitVec 128 := BitVec.ofNat 128 (c.f 0xE0 16)
def Colo.retry (c : Colo) (i : Nat) : BitVec 128 := BitVec.ofNat 128 (c.f (0xF0 + 16 * i) 16)
def Colo.badCount (c : Colo) : Nat := c.f 0x200 4
/-- Bad-block entry `i`: die position and block. -/
def Colo.bad (c : Colo) (i : Nat) : Nat × Nat := let v := c.f (0x204 + 4 * i) 4; (bitsOf v 5 0, bitsOf v 31 6)
/-- The listed bad blocks. -/
def Colo.bads (c : Colo) : List (Nat × Nat) := (List.range c.badCount).map c.bad
/-- SHA-384 of bytes 0x0050 to 0x006F (R304). -/
def Colo.geomDigest (c : Colo) : Digest := Config.sha384 (slice c.bytes 0x50 0x20)
/-- SHA-384 of the colophon as read (R280, R309). -/
def Colo.digest (c : Colo) : Digest := Config.sha384 c.bytes

/-- The index of an operation kind in the times of Table 10-1, and of the predictors of R194: QLC read, SLC read,
QLC program, SLC program, erase, suspend. -/
def opIdx : OpKind → Nat
  | .readQlc => 0 | .readSlc => 1 | .progQlc => 2 | .progSlc => 3 | .erase => 4 | _ => 5

/-- Usable blocks of a die (R150, R296). -/
def Colo.usable (c : Colo) : Nat := min c.blocks (2 ^ 30 / (c.dies * c.bq))

/-! ### Leaf indexes (R296) -/

/-- The page, die position and block of a leaf index. -/
def Colo.pageOf (c : Colo) (leaf : Nat) : Nat := leaf % c.bq
def Colo.dieOf (c : Colo) (leaf : Nat) : Nat := leaf / c.bq % c.dies
def Colo.blockOf (c : Colo) (leaf : Nat) : Nat := leaf / (c.bq * c.dies)

/-! ### PUAs (R150) -/

/-- A PUA from its slot, leaf index and unit. -/
def mkPua (slot leaf unit : Nat) : Nat := 2 ^ 32 * slot + 4 * leaf + unit
def puaSlot (p : Nat) : Nat := bitsOf p 37 32
def puaLeaf (p : Nat) : Nat := bitsOf p 31 2
def puaUnit (p : Nat) : Nat := p % 4
/-- The PUA of unit 0 of the leaf. -/
def puaBase (p : Nat) : Nat := p - p % 4

/-! ### Form (Table 10-3, checks 2 and 3) -/

/-- The length of a colophon of version 0x0001. -/
def coloLen : Nat := 5248

/-- CRC-32C of bytes 0x0000 to 0x147F with the crc field 0. -/
def Colo.crc (c : Colo) : Nat :=
  (crc32c (slice c.bytes 0 0x0C ++ List.replicate 4 0 ++ slice c.bytes 0x10 0x1470)).toNat

/-- Check 2 but for the crc. -/
def Colo.headOk (c : Colo) : Bool :=
  decide (c.f 0 4 = 0x4C4F434D) && decide (c.f 4 2 = 1) && decide (c.f 8 4 = coloLen)

/-- Whether the crc field is right. -/
def Colo.crcOk (c : Colo) : Bool := decide (c.f 0x0C 4 = c.crc)

/-- A key field: 0x04 first and zeros after byte 97 when present, all 0 when absent (R295). -/
def Colo.keyForm (c : Colo) (o : Nat) (present : Bool) : Bool :=
  if present then decide (c.f o 1 = 4) && zeroAt c.bytes (o + 97) 31 else zeroAt c.bytes o 128

/-- The geometry and timing fields of Table 10-1 in range. -/
def Colo.geomOk (c : Colo) : Bool :=
  decide (c.serial ≠ 0) && decide (c.f 0x48 2 = 0x100) && within c.chans 1 8 && within c.perChan 1 8
  && within c.blocks 64 (2 ^ 24) && within c.bq 256 16384 && decide (c.bq % 4 = 0)
  && within c.nq 1 64 && within c.nslc 1 64 && decide (c.bq % c.nq = 0)
  && decide (c.bs = c.bq / 4) && decide (c.bs % c.nslc = 0) && decide (18816 ≤ c.f 0x60 4)
  && decide (c.rawGib = c.dies * c.blocks * c.bq * 16384 / 2 ^ 30)
  && (List.range 7).all (fun i => decide (1 ≤ c.tNom i) && decide (c.tNom i ≤ c.tMax i))
  && decide (c.susMax false ≤ 16) && decide (c.susMax true ≤ 16) && within (c.f 0x92 2) 400 9600

/-- The power, thermal, wear and read-level fields of Table 10-1 in range. -/
def Colo.limitsOk (c : Colo) : Bool :=
  let big := (List.range 5).foldl (fun m i => max m (c.charge i)) 0
  decide (c.f 0xAA 2 + c.dies * big / 4 ≤ c.maxShares)
  && decide (c.temp 0 < c.temp 5) && decide (c.temp 5 ≤ c.temp 6) && decide (c.temp 6 < c.temp 3)
  && decide (c.temp 3 ≤ c.temp 4) && decide (c.temp 4 < c.temp 1) && decide (c.temp 1 < c.temp 2)
  && decide (100 ≤ c.peQlc) && decide (c.peQlc ≤ c.peSlc) && within (c.f 0xD8 1) 1 100 && within (c.f 0xD9 1) 1 32
  && within c.maxOffset 4 127 && decide (2 * c.f 0xD9 1 ≤ c.maxOffset) && decide (c.retries ≤ 16)
  && zeroAt c.bytes (0xF0 + 16 * c.retries) (256 - 16 * c.retries)

/-- The bad-block list (R298). -/
def Colo.badsOk (c : Colo) : Bool :=
  decide (c.badCount ≤ 1024) && zeroAt c.bytes (0x204 + 4 * c.badCount) (4096 - 4 * c.badCount)
  && c.bads.all (fun x => decide (x.1 < c.dies) && decide (2 ≤ x.2) && decide (x.2 < c.blocks)) && distinct c.bads

/-- Check 3: every field within Table 10-1, reserved bytes 0, key fields in form. -/
def Colo.fieldsOk (c : Colo) : Bool :=
  decide (c.f 6 2 < 4) && c.geomOk && c.limitsOk && c.badsOk
  && zeroAt c.bytes 0x4A 6 && zeroAt c.bytes 0x52 2 && zeroAt c.bytes 0x5E 2 && zeroAt c.bytes 0x68 8
  && zeroAt c.bytes 0x94 12 && zeroAt c.bytes 0xB0 16 && zeroAt c.bytes 0xC7 9 && zeroAt c.bytes 0xDC 4
  && zeroAt c.bytes 0x1F0 16 && zeroAt c.bytes 0x1204 252
  && c.keyForm 0x1300 c.hasKey && c.keyForm 0x1380 c.signed
  && (if c.signed then zeroAt c.bytes (0x1400 + 96) 32 else zeroAt c.bytes 0x1400 128)

/-- Check 5: the signature over bytes 0x0000 to 0x137F with the crc field 0. -/
def Colo.sigOk (c : Colo) : Bool :=
  Config.ecdsaOk (slice c.bytes 0x1380 128)
    (Config.sha384 (slice c.bytes 0 0x0C ++ List.replicate 4 0 ++ slice c.bytes 0x10 0x1370)) (slice c.bytes 0x1400 128)

/-- Check 7 (R302): the outcome that the trust policy gives. -/
def Colo.trust (c : Colo) (policy : List Byte) : Nat :=
  let n := fieldAt policy 3 1
  let m := fieldAt policy 4 2
  let signer := Config.sha384 (slice c.bytes 0x1380 128)
  let listed := (List.range n).any (fun i => decide (BitVec.ofNat 384 (fieldAt policy (8 + 48 * i) 48) = signer))
  let excepted := (List.range m).any (fun i => decide (BitVec.ofNat 128 (fieldAt policy (8 + 48 * n + 16 * i) 16) = c.serial))
  if c.signed && listed && (c.hasKey || decide (bitOf (fieldAt policy 2 1) 0 = false)) then 0x01
  else if fieldAt policy 1 1 = 1 ∨ excepted then 0x02
  else 0x03

/-! ### Links, slots and dies in the state -/

def Dev.link (d : Dev) (s : Nat) : Link := d.gl.links.get .reset s
def Dev.slot (d : Dev) (s : Nat) : SlotSt := d.gl.slots.get .reset s
def Dev.modLink (d : Dev) (s : Nat) (f : Link → Link) : Dev :=
  { d with gl := { d.gl with links := d.gl.links.mod .reset s f } }
def Dev.modSt (d : Dev) (s : Nat) (f : SlotSt → SlotSt) : Dev :=
  { d with gl := { d.gl with slots := d.gl.slots.mod .reset s f } }

/-- The validated colophon of a slot. -/
def Dev.colo (d : Dev) (s : Nat) : Option Colo :=
  if (d.slot s).validated then (d.slot s).colo.map Colo.mk else none

/-- A slot's die positions; 0 without a colophon. -/
def Dev.diesOf (d : Dev) (s : Nat) : Nat := ((d.colo s).map Colo.dies).getD 0

/-- A die's key: 64 × slot + die position. -/
def dieKey (s k : Nat) : Nat := 64 * s + k

def Dev.die (d : Dev) (s k : Nat) : Die := d.rp.dies.get .reset (dieKey s k)
def Dev.modDie (d : Dev) (s k : Nat) (f : Die → Die) : Dev :=
  { d with rp := { d.rp with dies := d.rp.dies.mod .reset (dieKey s k) f } }

/-- The GL domain that serves a slot. -/
def glDom (s : Nat) : Nat := 13 + s / 8

end Sys2Proof.Machine
end

