-- ==== Sys2Proof/Machine/LinkOps.lean ====
section
/-! DEFINITION. The Gathering Links' shared operations (R262 to R274): sequence numbers and replay, credits, sending
operations as CMD and DATA flits, management messages, and what a link that becomes ACTIVE does. -/

namespace Sys2Proof.Machine

/-! ### Lists indexed by channel -/

/-- Entry `i` of a list of numbers; 0 beyond its end. -/
def nth (l : List Nat) (i : Nat) : Nat := (l[i]?).getD 0

/-- Replacing entry `i`. -/
def setNth (l : List Nat) (i v : Nat) : List Nat := (List.range (max l.length (i + 1))).map (fun k => if k = i then v else nth l k)

/-! ### Sending (R264, R267) -/

/-- A link counter of 16 bits rises, with its counter in log page 0xC5: `i` is 0 CRC, 1 recoveries, 2 trainings through
DETECT, 3 slow completions (R291, R309). -/
def Dev.countLink (d : Dev) (s off lo i : Nat) : Dev :=
  let d := d.count (aLnk s + off) lo 16
  { d with gl := { d.gl with logs := d.gl.logs.put 0 (4 * s + i) (sat 32 (d.gl.logs.get 0 (4 * s + i) + 1)) } }

/-- Flits sent and not acknowledged. -/
def Link.unacked (l : Link) : Nat := (l.replay.map (·.n)).sum

/-- Credits available on a channel. -/
def Link.credits (l : Link) (vc : Nat) : Nat := (nth l.adv vc + nth l.ret vc + 65536 - nth l.sent vc % 65536) % 65536

/-- The flit kind of Table 09-4 that an item goes out as. -/
def TxWhat.kind : TxWhat → Nat
  | .cmd _ => 3 | .data _ => 5 | .mgmt _ => 6

/-- The number that tells an item: its tag, or its message type. -/
def TxWhat.arg : TxWhat → Nat
  | .cmd t => t | .data t => t | .mgmt t => t

/-- Sending what the replay buffer of 256 flits and the credits allow, in order within each channel. `blocked` lists
the channels with an earlier item left. -/
def sendItems (slot : Nat) : List TxItem → List Nat → Link → List TxItem × Link × List Out
  | [], _, l => ([], l, [])
  | it :: rest, blocked, l =>
    let n := if it.vc ∈ blocked then 0 else min it.n (min (l.credits it.vc) (256 - l.unacked))
    let l1 := if n = 0 then l else { l with
      replay := l.replay ++ [⟨l.txNext, n, it.vc, it.what⟩], txNext := (l.txNext + n) % 1024
      sent := setNth l.sent it.vc (nth l.sent it.vc + n) }
    let o := if n = 0 then [] else [Out.flit slot it.what.kind it.what.arg n]
    if n = it.n then
      let (q, l2, os) := sendItems slot rest blocked l1
      (q, l2, o ++ os)
    else
      let (q, l2, os) := sendItems slot rest (it.vc :: blocked) l1
      ({ it with n := it.n - n } :: q, l2, o ++ os)

/-- Sending from a link's queue while it is ACTIVE. -/
def Dev.linkPump (d : Dev) (s : Nat) : Dev :=
  let l := d.link s
  if l.st = .active then
    let (q, l, os) := sendItems s l.txQueue [] l
    let d := d.modLink s (fun _ => { l with txQueue := q })
    os.foldl Dev.emit d
  else d

/-- Queueing flits. -/
def Dev.linkQueue (d : Dev) (s : Nat) (items : List TxItem) : Dev :=
  (d.modLink s (fun l => { l with txQueue := l.txQueue ++ items })).linkPump s

/-- Dropping acknowledged flits from the front of the replay buffer. -/
def dropAcked : Nat → List TxRun → List TxRun
  | _, [] => []
  | n, r :: l => if r.n ≤ n then dropAcked (n - r.n) l else { r with first := (r.first + n) % 1024, n := r.n - n } :: l

/-- Taking an acknowledgement of every flit up to a sequence number (R264). An acknowledgement that advances ends a run
of replays. -/
def Link.ack (l : Link) (fseq : Nat) : Link :=
  match l.replay with
  | [] => l
  | r :: _ =>
    let n := (fseq + 1 + 1024 - r.first) % 1024
    if 1 ≤ n ∧ n ≤ l.unacked then { l with replay := dropAcked n l.replay, stuck := 0, resent := 0 } else l

/-- Resending every unacknowledged flit in order (R264). -/
def Dev.linkResend (d : Dev) (s : Nat) : Dev :=
  (d.link s).replay.foldl (fun d r => d.emit (.flit s r.what.kind r.what.arg r.n)) d

/-- Sending an LCTL: the last fseq accepted, and a NAK where asked (R264). -/
def Dev.sendLctl (d : Dev) (s : Nat) (nak lp : Bool) : Dev :=
  let l := d.link s
  let last := (l.rxNext + 1023) % 1024
  (d.modLink s (fun l => { l with rxUnacked := 0, ackSent := d.now, nakSent := if nak then some last else l.nakSent })).emit
    (.lctl s (some last) (if nak then some last else none) lp)

/-- Accepting a sequenced flit on a channel: its credit is freed, and every 32 flits are acknowledged (R264, R267). -/
def Dev.acceptFlit (d : Dev) (s vc : Nat) : Dev :=
  let d := d.modLink s (fun l => { l with
    rxNext := (l.rxNext + 1) % 1024, rxUnacked := l.rxUnacked + 1, nakSent := none
    freed := setNth l.freed vc (nth l.freed vc + 1) })
  if 32 ≤ (d.link s).rxUnacked then d.sendLctl s false false else d

/-- Forward progress: a CPL, credit return or PONG accepted (R275). -/
def Dev.linkProgress (d : Dev) (s : Nat) : Dev := d.modLink s (fun l => { l with progressAt := d.now, ping := false })

/-! ### Operations (R269 to R272) -/

/-- The opcode of an operation (Table 09-8). -/
def OpCode : OpKind → Nat
  | .readQlc | .readSlc => 1 | .progQlc | .progSlc => 2 | .erase => 3 | .suspend => 4 | .resume => 5 | .status => 6
  | .resetDie => 7

def isRead (k : OpKind) : Bool := k = .readQlc || k = .readSlc
def isProg (k : OpKind) : Bool := k = .progQlc || k = .progSlc
/-- A program or erase, which makes a die busy. -/
def isBusyOp (k : OpKind) : Bool := isProg k || k = .erase
def isSlc (k : OpKind) : Bool := k = .readSlc || k = .progSlc

/-- Codewords that a mask of four selects. -/
def maskCount (m : Nat) : Nat := bit (bitOf m 0) + bit (bitOf m 1) + bit (bitOf m 2) + bit (bitOf m 3)

/-- DATA flits of a READ of `k` codewords: ⌈4,704k / 118⌉ (R273). -/
def dataFlits (k : Nat) : Nat := ceilDiv (4704 * k) 118

/-- The lowest tag not allocated. -/
def Link.freeTag (l : Link) : Nat → Nat → Nat
  | 0, i => i
  | n + 1, i => if l.tags.has i then l.freeTag n (i + 1) else i

/-- Whether operations other than MGMT may be issued: ACTIVE, with the exchange of R280 done where it is due. -/
def Link.opsOk (l : Link) : Bool := l.st = .active && (l.auth = 1 || l.auth = 2) && l.authStep = 0

/-- Whether a tag is free. -/
def Link.tagRoom (l : Link) : Bool := decide (l.tags.length < l.maxTags)

/-- An operation that no charge and no data go with. -/
def OpReq.bare (kind : OpKind) (slot die : Nat) (p : Purpose) : OpReq :=
  ⟨kind, false, false, slot, die, 0, 0, 0, 0, p, []⟩

/-- Issuing an operation under the lowest free tag: one CMD flit, and a PROGRAM's data of 160 flits a leaf on VC1. -/
def Dev.issueOp (d : Dev) (op : OpReq) (gid target : Option Nat) : Dev × Nat :=
  let s := op.slot
  let l := d.link s
  let tag := l.freeTag (l.tags.length + 1) 0
  let t : TagEnt := ⟨op, 0, false, none, 0, d.now, gid, target⟩
  let d := d.modLink s (fun l => { l with
    tags := l.tags.ins tag t, progressAt := if l.tags.isEmpty then d.now else l.progressAt })
  let data := if isProg op.kind then [(⟨1, 160 * op.count, .data tag⟩ : TxItem)] else []
  (d.linkQueue s (⟨0, 1, .cmd tag⟩ :: data), tag)

/-- A tag's entry. -/
def Dev.tagEnt (d : Dev) (s tag : Nat) : Option TagEnt := (d.link s).tags.get? tag

/-- Freeing a tag: the flits of its operation that were not sent go too. -/
def Dev.freeTag (d : Dev) (s tag : Nat) : Dev :=
  d.modLink s (fun l => { l with
    tags := l.tags.del tag
    txQueue := l.txQueue.filter (fun i => decide (i.what ≠ .data tag) && decide (i.what ≠ .cmd tag)) })

/-! ### Management messages (R279 to R281) -/

/-- Flits of a message: one per 114 bytes of content. -/
def mgmtFlits (n : Nat) : Nat := max 1 (ceilDiv n 114)

/-- Sending a management message. -/
def Dev.sendMgmt (d : Dev) (s typ : Nat) (content : List Byte) : Dev :=
  (d.emit (.mgmtMsg s typ content)).linkQueue s [⟨2, mgmtFlits content.length, .mgmt typ⟩]

/-- The nonce of a challenge: a free value. -/
def nonceOf (n : Nat) : List Byte := leBytes 32 (Config.freeBits n 256).toNat

/-- The controller's ephemeral public key Qc for a challenge: a free value. -/
def ephemeralOf (n : Nat) : List Byte := leBytes 97 (Config.freeBits (n + 1) 776).toNat

/-- AUTH_CHALLENGE (Table 09-14, step 1). -/
def Dev.authChallenge (d : Dev) (s : Nat) : Dev :=
  let n := d.free
  let d := d.tickFree.tickFree
  (d.modLink s (fun l => { l with authStep := 1, nonce := n, auth := 0 })).sendMgmt s 0x10 (nonceOf n ++ ephemeralOf n)

/-- REAUTH_CHALLENGE (R281). -/
def Dev.reauthChallenge (d : Dev) (s : Nat) : Dev :=
  let n := d.free
  (d.tickFree.modLink s (fun l => { l with authStep := 3, nonce := n })).sendMgmt s 0x13 (nonceOf n)

/-- What a link owes once it is ACTIVE (R280, R281): re-authentication after a training through DETECT where it holds a
session secret, the full exchange where its colophon declares a key, and nothing where it declares none. Before the
colophon has been read the exchange waits. -/
def Dev.linkAuth (d : Dev) (s : Nat) : Dev :=
  let l := d.link s
  if l.session.isSome then
    if l.viaDetect then d.reauthChallenge s else d
  else match d.colo s with
    | none => d
    | some c => if c.hasKey then d.authChallenge s else d.modLink s (fun l => { l with auth := 2, authStep := 0 })

/-- A link becomes ACTIVE: what it owes, and what waits to be sent. -/
def Dev.linkActive (d : Dev) (s : Nat) (auth : Bool) : Dev :=
  let d := d.modLink s (fun l => { l with st := .active, since := d.now, stuck := 0 })
  let d := if auth then d.linkAuth s else d
  (d.modLink s (fun l => { l with viaDetect := false })).linkPump s

/-- Sending an INIT flit (R266). -/
def Dev.sendInit (d : Dev) (s : Nat) : Dev :=
  d.emit (.flit s 2 (bit (d.link s).gotInit) 1) |>.modLink s (fun l => { l with initSent := l.initSent + 1 })

/-- DISABLED to DETECT (Table 09-2): domain ON, links enabled, GRST_N deasserted, slot powered and in the slot map. -/
def Dev.linkEnable (d : Dev) (s : Nat) : Dev :=
  let l := d.link s
  let x := d.slot s
  if l.st = .disabled && d.domReady (glDom s) && bitOf (d.csrW aGlCtrl).toNat 0 && x.pwren && !x.rst && d.slotEnabled s then
    d.modLink s (fun l => { l with st := .detect, since := d.now })
  else d

/-- DISABLED: transmitters idle, nothing kept for replay (Table 09-1). `forget` discards the saved equalisation. -/
def Dev.linkDisable (d : Dev) (s : Nat) (forget : Bool) : Dev :=
  d.modLink s (fun l =>
    if l.st = .quarantine then l
    else { l with
      st := .disabled, width := 0, reversed := false, txQueue := [], replay := [], stuck := 0, lpReq := false
      viaDetect := false, gotInit := false, since := d.now
      eqSaved := l.eqSaved && !forget, oldWidth := if forget then 0 else l.oldWidth })

end Sys2Proof.Machine
end

