-- ==== Sys2Proof/Machine/Quire.lean ====
section
/-! DEFINITION. Quires and their superblocks (R158 to R161, R178 to R185, R223 to R231): geometry, Signature layout, the
state of a Quire and the conditions that follow it, allocation and placement. -/

namespace Sys2Proof.Machine

/-! ### Members -/

/-- Whether a member counts towards the present width (R223). -/
def Member.present (m : Member) : Bool := m.st = .active || m.st = .joining

/-- The member indexes whose members a test picks. -/
def Quire.pick (q : Quire) (f : Member → Bool) : List Nat := (q.members.filter (fun x => f x.2)).map (·.1)

/-- The present width (R223). -/
def Quire.presentWidth (q : Quire) : Nat := (q.pick Member.present).length

/-- A member's state. -/
def Quire.memSt (q : Quire) (m : Nat) : MemSt :=
  match q.members.get? m with
  | some x => x.st
  | none => .unused

/-- Changing a member. -/
def Quire.modMember (q : Quire) (m : Nat) (f : Member → Member) : Quire := { q with members := q.members.upd m f }

/-- Whether any member is in a state. -/
def Quire.anyIn (q : Quire) (s : MemSt) : Bool := q.members.any (fun x => x.2.st = s)

def Dev.quire (d : Dev) (q : Nat) : Option Quire := d.quires.get? q
def Dev.modQuire (d : Dev) (q : Nat) (f : Quire → Quire) : Dev := { d with quires := d.quires.upd q f }

/-- The Quire and member index that a slot serves or last served, LOST members and those RELEASED excluded where `live`
holds. -/
def Dev.memberAt (d : Dev) (slot : Nat) (live : Bool) : Option (Nat × Nat) :=
  d.quires.findSome? (fun x =>
    (x.2.members.find? (fun y => decide (y.2.slot = some slot)
      && (!live || decide (y.2.st ≠ .lost) && decide (y.2.st ≠ .released)))).map (fun y => (x.1, y.1)))

/-- The Quires that a slot is a journal host of. -/
def Dev.hostOf (d : Dev) (slot : Nat) : List Nat :=
  (d.quires.filter (fun x => decide (x.2.hostA = some slot) || decide (x.2.hostB = some slot))).map (·.1)

/-! ### Geometry -/

/-- P of a Quire: the smallest number of die positions among its present members (R208, R229). -/
def Quire.dies (q : Quire) : Nat := ((q.members.filter (fun x => x.2.dies ≠ 0)).map (·.2.dies)).foldl min 64

/-- Leaves per QLC block of a Quire: the smallest its members declare. -/
def Quire.bq (q : Quire) : Nat := ((q.members.filter (fun x => x.2.bq ≠ 0)).map (·.2.bq)).foldl min 16384

/-- Rows of a superblock in a mode (R159). -/
def Quire.rows (q : Quire) (slc : Bool) : Nat := if slc then q.bq / 4 else q.bq

/-- D: the largest number of data rows with D + ⌈D / 256⌉ + 1 ≤ R (R159). -/
def dataRows (r : Nat) : Nat := (r - 1) - ceilDiv (r - 1) 257

/-- The 4 KiB units that a superblock of width `w` holds in a mode. -/
def Quire.sbUnits (q : Quire) (slc : Bool) (w : Nat) : Nat := dataRows (q.rows slc) * (w - 1) * 4

/-- Blocks that every member can use for superblocks: all but block indexes 0 and 1 (R229). -/
def Dev.qBlocks (d : Dev) (q : Quire) : Nat :=
  let us := q.members.filterMap (fun x => (x.2.slot.bind d.colo).map Colo.usable)
  us.foldl min (2 ^ 30 / (q.dies * q.bq)) - 2

/-- Superblocks of a Quire. -/
def Dev.qTotal (d : Dev) (q : Quire) : Nat := q.dies * d.qBlocks q

/-- A superblock's key. -/
def sbKey (q s : Nat) : Nat := 2 ^ 22 * q + s

/-- A superblock that has never been opened is FREE. -/
def Superblock.fresh : Superblock := ⟨.free, false, 0, [], 0, 0, 0, 0, 0, false, 0, 0⟩

def Dev.sb (d : Dev) (q s : Nat) : Superblock := d.tc.sbs.get Superblock.fresh (sbKey q s)
def Dev.modSb (d : Dev) (q s : Nat) (f : Superblock → Superblock) : Dev :=
  { d with tc := { d.tc with sbs := d.tc.sbs.mod Superblock.fresh (sbKey q s) f } }

/-- The listed superblocks of a Quire. -/
def Dev.sbsOf (d : Dev) (q : Nat) : List (Nat × Superblock) :=
  (d.tc.sbs.filter (fun x => x.1 / 2 ^ 22 = q)).map (fun x => (x.1 % 2 ^ 22, x.2))

/-- The superblocks of the staging pool, and how many run in SLC mode (R173). -/
def Dev.slcPool (d : Dev) (q : Quire) : Nat := d.qTotal q * q.slcShare / 256
def Dev.slcUsed (d : Dev) (q : Nat) : Nat := ((d.sbsOf q).filter (fun x => x.2.slc && decide (x.2.st ≠ .free) && decide (x.2.st ≠ .retired))).length
def Dev.slcFree (d : Dev) (q : Nat) : Nat :=
  match d.quire q with
  | none => 0
  | some x => d.slcPool x - d.slcUsed q

/-- Free QLC superblocks. -/
def Dev.qlcFree (d : Dev) (q : Nat) : Nat :=
  match d.quire q with
  | none => 0
  | some x => d.qTotal x - d.slcPool x
      - ((d.sbsOf q).filter (fun y => (!y.2.slc && decide (y.2.st ≠ .free)) || decide (y.2.st = .retired))).length

/-! ### Signature layout (R230) -/

/-- The list position of a row's parity leaf. -/
def parityPos (w row b dp : Nat) : Nat := (row + b + dp) % w

/-- The list position of data leaf `k`. -/
def dataPos (w row b dp k : Nat) : Nat := (row + b + dp + 1 + k) % w

/-- The data leaf at a list position; w − 1 for the parity leaf. -/
def leafAt (w row b dp pos : Nat) : Nat := (pos + 2 * w - 1 - (row + b + dp) % w) % w

/-- The leaf index of superblock `s`'s row on a member (R296). -/
def Member.leaf (m : Member) (p s row : Nat) : Nat := (m.dies * (s / p) + s % p) * m.bq + row

/-- The PUA of unit `u` of the leaf at a list position of a row; none where the member has no slot. -/
def Dev.rowPua (d : Dev) (q s row pos u : Nat) : Option Nat :=
  match d.quire q with
  | none => none
  | some x =>
    match ((d.sb q s).members[pos]?).bind (fun m => x.members.get? m) with
    | none => none
    | some m => m.slot.map (fun sl => mkPua sl (m.leaf x.dies s row) u)

/-- Where a PUA lies: Quire, superblock, row, member index, list position and data leaf (w − 1 for parity). -/
structure Place where
  q   : Nat
  s   : Nat
  row : Nat
  m   : Nat
  pos : Nat
  k   : Nat
deriving DecidableEq, Repr

/-- The place of a PUA, if it lies in a superblock. -/
def Dev.place (d : Dev) (pua : Nat) : Option Place :=
  match d.memberAt (puaSlot pua) false with
  | none => none
  | some (q, m) =>
    match d.quire q with
    | none => none
    | some x =>
      match x.members.get? m with
      | none => none
      | some mem =>
        if mem.bq = 0 ∨ mem.dies = 0 then none
        else
          let n := puaLeaf pua / mem.bq
          let row := puaLeaf pua % mem.bq
          let b := n / mem.dies
          let dp := n % mem.dies
          let s := x.dies * b + dp
          let ms := (d.sb q s).members
          let pos := ms.idxOf m
          if dp < x.dies ∧ pos < ms.length then some ⟨q, s, row, m, pos, leafAt ms.length row b dp pos⟩ else none

/-! ### The state of a Quire (R228) -/

/-- LOST members on a superblock's list. -/
def Quire.lostOn (q : Quire) (b : Superblock) : Nat := (b.members.filter (fun m => q.memSt m = .lost)).length

/-- Whether some superblock with valid data has at least `n` LOST members. -/
def Dev.lossesAt (d : Dev) (q : Nat) (x : Quire) (n : Nat) : Bool :=
  (d.sbsOf q).any (fun y => decide (0 < y.2.valid) && decide (n ≤ x.lostOn y.2))

/-- A Quire's state code: 0 Unused, 1 Normal, 2 Degraded, 3 Rebuilding, 4 Broken; a present width below 3 breaks it too
(R223). -/
def Dev.quireState (d : Dev) (q : Nat) : Nat :=
  match d.quire q with
  | none => 0
  | some x =>
    if d.lossesAt q x 2 ∨ (x.presentWidth < 3 ∧ (d.sbsOf q).any (fun y => decide (0 < y.2.valid)) = true) then 4
    else if x.work.isSome then 3
    else if d.lossesAt q x 1 then 2
    else 1

/-- Whether a Quire is Rebuilding because of a loss. -/
def Quire.lossWork (q : Quire) : Bool := q.work = some .rebuild || q.work = some .recovery

/-- Whether a Quire can place a write (R185). -/
def Dev.placeable (d : Dev) (q : Nat) : Bool :=
  match d.quire q with
  | none => false
  | some x =>
    let w := x.presentWidth
    let closed := (d.sbsOf q).filter (fun y => y.2.st = .closed)
    let invalid := (closed.map (fun y => y.2.written - y.2.valid)).sum
    decide (d.quireState q ≠ 4)
    && (decide (x.gcReserve < d.qlcFree q) || decide (0 < x.sbUnits false w ∧ x.sbUnits false w ≤ invalid))

/-- Spare blocks left in a Quire (R183). -/
def Quire.sparesLeft (q : Quire) : Nat := (q.spares.map (·.2)).sum

/-- Whether a Quire's spare blocks are below the floor of its layout section. -/
def Quire.spareLow (q : Quire) : Bool := decide (1000 * q.sparesLeft < q.spareFloor * q.sparesFirst)

/-- The conditions of WDN_MODE_COND that follow the Quires: member_missing, rebuild_running, quire_broken, no_placement
and spare_low (R77, R183, R186, R228). no_placement clears by its own timer. -/
def Dev.quireConds (d : Dev) : Dev :=
  let qs := d.quires.map (·.1)
  let st := fun q => d.quireState q
  let missing := d.quires.any (fun x => decide (st x.1 = 2) || decide (st x.1 = 4) || (decide (st x.1 = 3) && x.2.lossWork))
  let d1 := d.setCond 3 missing
  let d2 := d1.setCond 4 (qs.any (fun q => st q = 3))
  let d3 := d2.setCond 5 (qs.any (fun q => st q = 4))
  let d4 := d3.setCond 7 (d.quires.any (fun x => x.2.spareLow))
  if !qs.isEmpty && qs.all (fun q => !(d.placeable q)) && servingMode d.modes.mode then d4.setCond 6 true else d4

/-! ### Allocation (R182) -/

/-- The first block index at a die position whose superblock is not listed. -/
def Dev.firstFresh (d : Dev) (q p dp : Nat) : Nat → Nat → Nat
  | 0, b => b
  | n + 1, b => if d.tc.sbs.has (sbKey q (p * b + dp)) then d.firstFresh q p dp n (b + 1) else b

/-- Superblocks open at a die position. -/
def openAt (l : List (Nat × Superblock)) (p dp : Nat) : Nat :=
  (l.filter (fun x => decide (x.1 % p = dp) && decide (x.2.st = .open))).length

/-- Whether no present member's die at a die position has failed: a failed die's blocks are retired (R277). -/
def Dev.dpSound (d : Dev) (x : Quire) (dp : Nat) : Bool :=
  x.members.all (fun m => match m.2.slot with
    | some s => !(m.2.present && (d.die s dp).failed)
    | none => true)

/-- The free superblock of least wear; on a tie the one whose die position hosts the fewest open superblocks, then the
lowest index (R182). -/
def Dev.bestFree (d : Dev) (q : Nat) (x : Quire) : Option Nat :=
  let l := d.sbsOf q
  let p := x.dies
  let n := l.length + 1
  let top := d.qBlocks x + 2
  let fresh := ((List.range p).filter (d.dpSound x)).filterMap (fun dp =>
    let b := d.firstFresh q p dp n 2
    if b < top then some (p * b + dp) else none)
  let listed := (l.filter (fun y => decide (y.2.st = .free) && decide (y.1 / p < top) && d.dpSound x (y.1 % p))).map (·.1)
  let cost := fun s => ((d.sb q s).wear, openAt l p (s % p), s)
  (fresh ++ listed).foldl (fun best s =>
    match best with
    | none => some s
    | some t =>
      let (a1, a2, a3) := cost s
      let (b1, b2, b3) := cost t
      if a1 < b1 ∨ (a1 = b1 ∧ (a2 < b2 ∨ (a2 = b2 ∧ a3 < b3))) then some s else some t) none

/-- Opening a superblock for a Furrow over the members present (R223, R229); GC Furrows may take the reserve (R178). -/
def Dev.openSb (d : Dev) (q : Nat) (slc : Bool) (furrow : Nat) : Dev × Option Nat :=
  match d.quire q with
  | none => (d, none)
  | some x =>
    let room := if slc then decide (0 < d.slcFree q)
      else if furrow < 16 then decide (0 < d.qlcFree q) else decide (x.gcReserve < d.qlcFree q)
    let ms := x.pick Member.present
    if !room || decide (ms.length < 3) then (d, none)
    else
      match d.bestFree q x with
      | none => (d, none)
      | some s =>
        let n := d.tc.openSeq + 1
        let d := { d with tc := { d.tc with openSeq := n } }
        (d.modSb q s (fun b => { b with
          st := .open, slc := slc, furrow := furrow, members := ms, openSeq := n, row := 1, valid := 0, written := 0
          flagged := false }), some s)

end Sys2Proof.Machine
end

