-- ==== Sys2Proof/Machine/Translation.lean ====
section
/-! DEFINITION. The Translation Core's shared operations (R150 to R188): the journal, the map and its two kinds of
update, zones, lost ranges, Furrows and packing, the Signature journal, and freeing superblocks. -/

namespace Sys2Proof.Machine

/-! ### The journal (R175) -/

/-- The 16-byte steps of a record: one, with the 256-byte zone entry after a ZONE_IMAGE. -/
def JBody.steps : JBody → Nat
  | .zoneImage _ _ => 17
  | .generation _ _ => 1
  | _ => 1

/-- Appending a record: its sequence number is the head's. -/
def Dev.jrnl (d : Dev) (b : JBody) : Dev :=
  { d with tc := { d.tc with jrnl := d.tc.jrnl ++ [⟨d.tc.head, b⟩], head := (d.tc.head + b.steps) % 2 ^ 32 } }

/-- TC_JRNL_DURABLE: the head while write_through is 0, else what is programmed. -/
def Dev.durable (d : Dev) : Nat := if d.cond 8 then d.tc.programmed else d.tc.head

/-- `a` below `b`, modulo 2^32. -/
def seqBelow (a b : Nat) : Bool := decide (a ≠ b) && decide ((b + 2 ^ 32 - a) % 2 ^ 32 < 2 ^ 31)

/-- Journal bytes that are not programmed. -/
def Tc.unprogrammed (t : Tc) : Nat := 16 * ((t.head + 2 ^ 32 - t.programmed) % 2 ^ 32)

/-! ### Namespaces -/

def Dev.nsp (d : Dev) (n : Nat) : Option Nsp := d.tc.nss.get? n
def Dev.modNsp (d : Dev) (n : Nat) (f : Nsp → Nsp) : Dev := { d with tc := { d.tc with nss := d.tc.nss.upd n f } }

/-- Bytes of a logical block (Table 04-7): format 3 has 512-byte blocks, the others 4 KiB. -/
def lbaBytes (lbaf : Nat) : Nat := if lbaf = 3 then 512 else 4096
/-- Logical blocks in a 4 KiB unit. -/
def lbasPerUnit (lbaf : Nat) : Nat := 4096 / lbaBytes lbaf
/-- 4 KiB units of a namespace. -/
def Nsp.units (n : Nsp) : Nat := ceilDiv n.nsze (lbasPerUnit n.lbaf)
/-- 4 KiB units in an indirection unit. -/
def Nsp.iuUnits (n : Nsp) : Nat := if n.iu16 then 4 else 1

/-- Zone size, capacity and number in logical blocks (R160). -/
def Nsp.zoneLbas (n : Nsp) : Nat := 2 ^ n.zoneShift / lbaBytes n.lbaf
def Dev.zcap (d : Dev) (n : Nsp) : Nat :=
  match d.quire n.quire with
  | none => 0
  | some q =>
    let row := (q.width - 1) * 16384
    2 ^ n.zoneShift / row * row / lbaBytes n.lbaf
def Nsp.zones (n : Nsp) : Nat := if n.zoneShift = 0 then 0 else n.nsze / n.zoneLbas

/-! ### The map (R151 to R153) -/

def mapKey (ns iu : Nat) : Nat := 2 ^ 40 * ns + iu
def Dev.mapGet (d : Dev) (ns iu : Nat) : MapEntry := d.tc.map.get .unwritten (mapKey ns iu)
def Dev.mapSet (d : Dev) (ns iu : Nat) (e : MapEntry) : Dev :=
  { d with tc := { d.tc with map := d.tc.map.put .unwritten (mapKey ns iu) e } }

/-- Appending RELEASE for a closed superblock whose valid count is 0 (R179 step 4), stamped with the read epoch. -/
def Dev.releaseIfEmpty (d : Dev) (q s : Nat) : Dev :=
  let b := d.sb q s
  if b.st = .closed ∧ b.valid = 0 then
    let seq := d.tc.head
    let ep := d.rp.epoch
    let d := d.jrnl (.release q s)
    let d := { d with rp := { d.rp with epoch := ep + 1 } }
    d.modSb q s (fun b => { b with st := .released, relSeq := seq, relEpoch := ep, row := 0 })
  else d

/-- A unit becomes invalid: the valid count of its superblock falls. -/
def Dev.unmapUnits (d : Dev) (pua n : Nat) : Dev :=
  match d.place pua with
  | none => d
  | some p => (d.modSb p.q p.s (fun b => { b with valid := b.valid - n })).releaseIfEmpty p.q p.s

/-- Units become valid. -/
def Dev.mapUnits (d : Dev) (pua n : Nat) : Dev :=
  match d.place pua with
  | none => d
  | some p => d.modSb p.q p.s (fun b => { b with valid := b.valid + n })

/-- The IU units of a namespace, 1 for one that is gone. -/
def Dev.iuUnits (d : Dev) (ns : Nat) : Nat := ((d.nsp ns).map Nsp.iuUnits).getD 1

/-- Replacing a map entry, with the valid counts of the old and new places. -/
def Dev.mapPut (d : Dev) (ns iu : Nat) (e : MapEntry) : Dev :=
  let n := d.iuUnits ns
  let old := d.mapGet ns iu
  let d := d.mapSet ns iu e
  let d := match e with
    | .mapped p => d.mapUnits p n
    | _ => d
  match old with
  | .mapped p => d.unmapUnits p n
  | _ => d

/-- A relocation update: a compare-and-swap that is applied only if the entry still holds the PUA replaced; its MAP_RUN
record comes first (R153, R179). -/
def Dev.mapCas (d : Dev) (ns iu old new : Nat) : Dev :=
  let d := d.jrnl (.mapRun ns iu [new])
  if d.mapGet ns iu = .mapped old then d.mapPut ns iu (.mapped new) else d

/-- The superblock's summary takes a programmed unit (R159). -/
def Dev.summPut (d : Dev) (pua : Nat) (r : UnitRec) : Dev := { d with tc := { d.tc with summ := d.tc.summ.ins pua r } }

/-! ### LOST units (R151, R187, R249) -/

/-- Notifying every controller a namespace is attached to, where it is enabled. -/
def Dev.aenNs (d : Dev) (ns : Nat) (e : AEvent) : Dev :=
  let at' := ((d.nsp ns).map (·.attached)).getD []
  d.aenAll e none (fun f => at'.contains f.cntlid)

/-- The Changed Namespace List of every controller a namespace is attached to takes it, with the notice (R115). -/
def Dev.nsChanged (d : Dev) (ns : Nat) (cntlids : List Nat) : Dev :=
  let fs : List Fn := d.readyFns.filter (fun f => cntlids.contains f.cntlid)
  fs.foldl (fun (d : Dev) (f : Fn) =>
    (d.modFn f (fun s => { s with changedNs := ns :: s.changedNs.filter (fun x => decide (x ≠ ns)) })).aen f aeNsChanged) d

/-- A zone's descriptor changed: the Changed Zone Lists take it, with the notice (R115). -/
def Dev.zoneNotice (d : Dev) (ns z : Nat) : Dev :=
  let ids := ((d.nsp ns).map (·.attached)).getD []
  let fs : List Fn := d.readyFns.filter (fun f => ids.contains f.cntlid)
  fs.foldl (fun (d : Dev) (f : Fn) =>
    (d.modFn f (fun s => { s with changedZones := (ns, z) :: s.changedZones.filter (fun x => decide (x ≠ (ns, z))) })).aen f aeZone) d

/-- The LBA range of an IU. -/
def Nsp.iuRange (n : Nsp) (iu : Nat) : LbaRange :=
  ⟨iu * n.iuUnits * lbasPerUnit n.lbaf, n.iuUnits * lbasPerUnit n.lbaf⟩

/-- A zone's key, entry and changes. -/
def zoneKey (ns z : Nat) : Nat := 2 ^ 20 * ns + z
/-- A zone that has never been used: Empty. -/
def Zone.fresh : Zone := ⟨.empty, false, false, none, 0, 0, 0, 0, []⟩
def Dev.zone (d : Dev) (ns z : Nat) : Zone := d.tc.zones.get Zone.fresh (zoneKey ns z)
def Dev.modZone (d : Dev) (ns z : Nat) (f : Zone → Zone) : Dev :=
  { d with tc := { d.tc with zones := d.tc.zones.mod Zone.fresh (zoneKey ns z) f } }

/-- A zone's new entry is journalled. -/
def Dev.putZone (d : Dev) (ns z : Nat) (f : Zone → Zone) : Dev := (d.modZone ns z f).jrnl (.zoneImage ns z)

/-- An IU, or a unit of a zone, is lost: the map says LOST with a LOST_RUN record, or the lost-range table takes the
range; a zone whose ranges do not fit is set Offline. The alert and EV_SIG_UNITS_LOST follow. -/
def Dev.loseIu (d : Dev) (ns iu : Nat) : Dev :=
  match d.nsp ns with
  | none => d
  | some n =>
    let r := n.iuRange iu
    let d :=
      if n.kind = 2 then
        if d.tc.lost.length < 65536 then { d with tc := { d.tc with lost := d.tc.lost ++ [(ns, r)] } }
        else
          let z := r.slba / n.zoneLbas
          (((d.putZone ns z (fun x => { x with state := .offline, furrow := none })).zoneEntDel ns z).zoneNotice ns z)
      else ((d.jrnl (.lostRun ns iu 1)).mapPut ns iu .lost)
    let d := (d.aenNs ns aeLbaStatus).aenAll aeReliability (some 2)
    d.ev evSigUnitsLost 0 [.num 2 ns, .num 8 r.slba, .num 4 r.nlb]

/-- A rewrite or a Zone Reset clears the lost ranges that it covers (R187). -/
def Dev.clearLost (d : Dev) (ns slba nlb : Nat) : Dev :=
  { d with tc := { d.tc with lost := d.tc.lost.filter (fun x =>
      !(decide (x.1 = ns) && decide (slba ≤ x.2.slba) && decide (x.2.slba + x.2.nlb ≤ slba + nlb))) } }

/-! ### Where a unit is (R151, R162) -/

/-- What the map walker finds for a 4 KiB unit: a map state, with the PUA of the unit where it is mapped. -/
def Dev.walk (d : Dev) (ns unit : Nat) : MapEntry :=
  match d.nsp ns with
  | none => .unwritten
  | some n =>
    if n.kind = 2 then
      let zu := 2 ^ n.zoneShift / 4096
      let z := d.zone ns (unit / zu)
      let per := lbasPerUnit n.lbaf
      let o := unit % zu
      if d.tc.lost.any (fun x => decide (x.1 = ns) && decide (x.2.slba ≤ unit * per) && decide (unit * per < x.2.slba + x.2.nlb)) then .lost
      else if z.dataEnd ≤ o * per then .unwritten
      else if o * per < z.folded then
        let rec go : List Extent → Nat → MapEntry
          | [], _ => .unwritten
          | e :: l, o =>
            let w := (d.sb e.quire e.sb).members.length
            let perRow := (w - 1) * 4
            if perRow = 0 then .unwritten
            else if o < e.rows * perRow then
              match d.quire e.quire with
              | none => .unwritten
              | some q =>
                let row := e.row + o / perRow
                let k := o % perRow / 4
                match d.rowPua e.quire e.sb row (dataPos w row (e.sb / q.dies) (e.sb % q.dies) k) (o % 4) with
                | some p => .mapped p
                | none => .lost
            else go l (o - e.rows * perRow)
        go z.extents o
      else
        match (z.furrow.bind (fun f => d.tc.furrows.get? f)) with
        | none => .unwritten
        | some f =>
          match f.staged.reverse.find? (fun u => decide (u.ns = ns) && decide (u.iu = unit)) with
          | some u => .mapped u.pua
          | none => .unwritten
    else
      match d.mapGet ns (unit / n.iuUnits) with
      | .mapped p => .mapped (p + (if n.iu16 then unit % 4 else 0))
      | e => e

/-! ### Furrows (R167, R168) -/

def Dev.furrow (d : Dev) (f : Nat) : Furrow := d.tc.furrows.get Furrow.reset f
def Dev.modFurrow (d : Dev) (f : Nat) (g : Furrow → Furrow) : Dev :=
  { d with tc := { d.tc with furrows := d.tc.furrows.mod Furrow.reset f g } }

/-- The host Furrow bound to a namespace, or to a handle on a Quire: kind and binding tell it. -/
def Dev.boundFurrow (d : Dev) (kind quire : Nat) (ns : Option Nat) (binding : Nat) : Option Nat :=
  (d.tc.furrows.find? (fun x => decide (64 ≤ x.1) && decide (x.2.st ≠ .free) && decide (x.2.kind = kind)
    && decide (x.2.quire = quire) && decide (x.2.ns = ns) && decide (x.2.binding = binding))).map (·.1)

/-- The lowest FREE host Furrow. -/
def Dev.freeFurrow (d : Dev) : Nat → Nat → Nat
  | 0, f => f
  | n + 1, f => if (d.furrow f).st = .free then f else d.freeFurrow n (f + 1)

/-- Taking a host Furrow from the pool (Table 06-6). -/
def Dev.takeFurrow (d : Dev) (kind quire : Nat) (ns : Option Nat) (binding : Nat) : Dev × Nat :=
  match d.boundFurrow kind quire ns binding with
  | some f => (d.modFurrow f (fun x => { x with st := if x.st = .paused then .open else x.st }), f)
  | none =>
    let f := d.freeFurrow (d.tc.furrows.length + 1) 64
    (d.modFurrow f (fun x => { x with st := .open, kind := kind, quire := quire, ns := ns, binding := binding
                                      unitsWritten := 0, unitsFolded := 0 }), f)

/-- Closing a superblock: its summary is written; one with no valid data is released at once. -/
def Dev.closeSb (d : Dev) (q s : Nat) : Dev :=
  (d.modSb q s (fun b => if b.st = .open then { b with st := .closed } else b)).releaseIfEmpty q s

/-- A Furrow returns to FREE. -/
def Dev.dropFurrow (d : Dev) (f : Nat) : Dev :=
  let x := d.furrow f
  let d := match x.slcSb with
    | some s => d.closeSb x.quire s
    | none => d
  let d := match x.qlcSb with
    | some s => d.closeSb x.quire s
    | none => d
  { d with tc := { d.tc with furrows := d.tc.furrows.put Furrow.reset f Furrow.reset, jslots := d.tc.jslots.del f } }

/-- A DRAINING Furrow whose staging is empty goes FREE, or OPEN again after a handle update (Table 06-6). -/
def Dev.furrowDrained (d : Dev) (f : Nat) : Dev :=
  let x := d.furrow f
  if x.st = .draining ∧ x.staged = [] ∧ x.pack = [] then
    if x.reopen then
      let d := match x.qlcSb with
        | some s => d.closeSb x.quire s
        | none => d
      d.modFurrow f (fun x => { x with st := .open, reopen := false, qlcSb := none, qlcRow := 0 })
    else d.dropFurrow f
  else d

/-! ### Packing (R171) -/

/-- The next unit position of a Furrow's SLC row, opening a superblock where it has none. -/
def Dev.slcNext (d : Dev) (f : Nat) : Dev × Option Nat :=
  let x := d.furrow f
  let (d, s) := match x.slcSb with
    | some s => (d, some s)
    | none =>
      let (d, s) := d.openSb x.quire true f
      (match s with
       | some s => d.modFurrow f (fun x => { x with slcSb := some s, slcRow := 1, nextUnit := 0 })
       | none => d, s)
  match s, d.quire x.quire with
  | some s, some q =>
    let x := d.furrow f
    let b := d.sb x.quire s
    let w := b.members.length
    let k := x.nextUnit / 4
    (d, d.rowPua x.quire s x.slcRow (dataPos w x.slcRow (s / q.dies) (s % q.dies) k) (x.nextUnit % 4))
  | _, _ => (d, none)

/-- Moving a Furrow's SLC position past `n` units: a full row starts the next, a full superblock is closed. -/
def Dev.slcAdvance (d : Dev) (f n : Nat) : Dev :=
  let x := d.furrow f
  match x.slcSb, d.quire x.quire with
  | some s, some q =>
    let w := (d.sb x.quire s).members.length
    let u := x.nextUnit + n
    if u < (w - 1) * 4 then d.modFurrow f (fun x => { x with nextUnit := u })
    else if x.slcRow + 1 ≤ dataRows (q.rows true) then d.modFurrow f (fun x => { x with nextUnit := 0, slcRow := x.slcRow + 1 })
    else (d.closeSb x.quire s).modFurrow f (fun x => { x with nextUnit := 0, slcRow := 0, slcSb := none })
  | _, _ => d

/-- Packing one committed unit or 16 KiB IU into a Furrow; where no superblock can be opened it waits. -/
def Dev.packUnit (d : Dev) (f ns iu gen tag : Nat) : Dev :=
  let n := d.iuUnits ns
  let (d, p) := d.slcNext f
  match p with
  | none => { d with tc := { d.tc with unpacked := d.tc.unpacked ++ [⟨f, ns, iu, gen, tag, false⟩] } }
  | some pua =>
    let d := d.modFurrow f (fun x => { x with
      pack := x.pack ++ [⟨if n = 4 then puaBase pua else pua, ns, iu, gen, tag, false⟩], unitsWritten := sat 32 (x.unitsWritten + n) })
    d.slcAdvance f n

/-- Packing units again that waited, each into the Furrow it was meant for. -/
def Dev.packWaiting (d : Dev) : Dev :=
  let l := d.tc.unpacked
  l.foldl (fun d u => d.packUnit u.pua u.ns u.iu u.gen u.tag) { d with tc := { d.tc with unpacked := [] } }

/-- Closing a Furrow's open leaf and row early: the next unit starts the next row; the empty positions hold filler
(R171, R234). -/
def Dev.closeRow (d : Dev) (f : Nat) : Dev :=
  let x := d.furrow f
  if x.nextUnit = 0 then d
  else
    match x.slcSb, d.quire x.quire with
    | some s, some q =>
      let w := (d.sb x.quire s).members.length
      if x.slcRow + 1 ≤ dataRows (q.rows true) then d.modFurrow f (fun x => { x with nextUnit := (x.nextUnit + 3) / 4 * 4 })
      else d.modFurrow f (fun x => { x with nextUnit := min ((w - 1) * 4) ((x.nextUnit + 3) / 4 * 4) })
    | _, _ => d

/-! ### The Signature journal (R232 to R234) -/

/-- The bits that are on every journal host of a Quire. -/
def Quire.mirrored (q : Quire) (j : JSlot) : Nat :=
  match q.hostA, q.hostB with
  | some _, some _ => j.mirA &&& j.mirB
  | some _, none => j.mirA
  | none, some _ => j.mirB
  | none, none => 0

/-- The mirrored bits of a slot. -/
def Dev.jMirrored (d : Dev) (j : JSlot) : Nat := ((d.quire j.quire).map (fun q => q.mirrored j)).getD 0

/-- A leaf enters its Furrow's slot after its program succeeded (R233): the slot is held from the row's first leaf on. -/
def Dev.slotLeaf (d : Dev) (f : Nat) (p : Place) : Dev :=
  let w := (d.sb p.q p.s).members.length
  match d.tc.jslots.get? f with
  | some j =>
    if j.sb = p.s ∧ j.row = p.row ∧ j.quire = p.q then
      { d with tc := { d.tc with jslots := d.tc.jslots.ins f { j with written := j.written ||| 2 ^ p.k } } }
    else d
  | none =>
    let b := (d.quire p.q).map Quire.dies |>.getD 1
    let n := d.tc.jseq + 1
    let j : JSlot := ⟨p.q, w, parityPos w p.row (p.s / b) (p.s % b), 2 ^ p.k, 0, 0, p.s, p.row, n, false⟩
    { d with tc := { d.tc with jseq := n, jslots := d.tc.jslots.ins f j } }

/-- Whether every data leaf of a slot's row has entered it. -/
def JSlot.full (j : JSlot) : Bool := decide (j.written = 2 ^ (j.width - 1) - 1)

/-- Whether a Furrow's packed unit lies in the row of its slot and its leaf's bit is in a mask. -/
def Dev.inRow (d : Dev) (j : JSlot) (mask pua : Nat) : Bool :=
  match d.place pua with
  | some p => decide (p.q = j.quire) && decide (p.s = j.sb) && decide (p.row = j.row) && bitOf mask p.k
  | none => false

/-- Whether a newer Collation entry covers an IU of the entry with a tag (R323). -/
def Dev.coveredNewer (d : Dev) (tag ns first n : Nat) : Bool :=
  match d.col.rng.find? (fun x => x.2.tag = tag) with
  | none => false
  | some (i, _) => (d.col.overlaps ns first n).any (fun x => decide (x.1 < i))

/-- The map update of a host write (R153): discarded where a newer entry covers the IU; otherwise journalled and applied,
or, for a zone, entered in the staging index. -/
def Dev.hostUpdate (d : Dev) (f : Nat) (u : Packed) : Dev :=
  let n := d.iuUnits u.ns
  let zoned := ((d.nsp u.ns).map (·.kind)).getD 0 = 2
  if !zoned && d.coveredNewer u.tag u.ns (u.iu * n) n then d
  else
    let kg := ((d.nsp u.ns).map (·.keyGen)).getD 0
    let d := d.summPut u.pua ⟨u.ns, u.iu, u.gen, kg⟩
    let d := if zoned then d.mapUnits u.pua n else (d.jrnl (.mapRun u.ns u.iu [u.pua])).mapPut u.ns u.iu (.mapped u.pua)
    d.modFurrow f (fun x => { x with staged := x.staged ++ [⟨u.pua, u.ns, u.iu, u.gen, kg, u.pua⟩] })

/-- Applying the map updates of a Furrow's packed units that are programmed and whose leaves a mask of the slot covers;
they leave the packing list (R172). -/
def Dev.applyRow (d : Dev) (f : Nat) (j : JSlot) (mask : Nat) : Dev :=
  let l := (d.furrow f).pack
  let ready := l.filter (fun u => u.done && d.inRow j mask u.pua)
  let d' := ready.foldl (fun d u => d.hostUpdate f u) d
  d'.modFurrow f (fun x => { x with pack := l.filter (fun u => !(u.done && d.inRow j mask u.pua)) })

/-- A slot goes FREE. -/
def Dev.freeJslot (d : Dev) (f : Nat) : Dev := { d with tc := { d.tc with jslots := d.tc.jslots.del f } }

/-! ### Dirty data (R170) -/

/-- Dirty data in bytes: committed units not programmed, partial parity not mirrored, journal not programmed. -/
def Dev.dirtyBytes (d : Dev) : Nat :=
  let units := fun (l : List Packed) => ((l.filter (fun u => !u.done)).map (fun u => d.iuUnits u.ns)).sum
  4096 * ((d.tc.furrows.map (fun x => units x.2.pack)).sum + units d.tc.unpacked)
  + 18816 * (d.tc.jslots.filter (fun x => decide (x.2.written ≠ d.jMirrored x.2))).length
  + d.tc.unprogrammed

/-- The dirty ceiling in bytes. -/
def Dev.ceilingBytes (d : Dev) : Nat := 1048576 * d.tc.ceiling

/-- Setting the ceiling in MiB (R170, R393): 0 sets write_through; dirty data above it starts a drain, which closes
leaves and rows early and is recorded with the excess. -/
def Dev.setCeiling (d : Dev) (mib : Nat) : Dev :=
  let d := { d with tc := { d.tc with ceiling := mib } }
  let d := d.setCond 8 (decide (mib = 0) && decide (d.modes.mode ≠ .off))
  let excess := d.dirtyBytes - d.ceilingBytes
  if 0 < excess then
    let d := (d.tc.furrows.map (·.1)).foldl (fun d f => d.closeRow f) d
    { d with tc := { d.tc with draining := true } }.ev evTcDirtyDrain 0 [.num 8 excess]
  else { d with tc := { d.tc with draining := false } }

/-! ### Retirement (R183) -/

/-- The key of a block: slot, die position, block. -/
def blockKey (slot die block : Nat) : Nat := 2 ^ 32 * (64 * slot + die) + block

/-- Retiring a block: RETIRED is appended, a spare of its die takes its place, and with none left the superblock is
retired whole; its valid data is flagged for relocation. Reason: 1 program, 2 erase, 3 wear. -/
def Dev.retireBlock (d : Dev) (slot die block reason : Nat) : Dev :=
  if d.tc.retired.has (blockKey slot die block) then d
  else
    match d.colo slot with
    | none => d
    | some c =>
      let pua := mkPua slot ((c.dies * block + die) * c.bq) 0
      let d := { d with tc := { d.tc with retired := d.tc.retired.ins (blockKey slot die block) reason } }
      let d := (d.jrnl (.retired pua reason)).ev evTcBlockRetired 0 [.num 1 slot, .num 1 die, .num 4 block, .num 1 reason]
      match d.place pua with
      | none => d
      | some p =>
        let left := ((d.quire p.q).map (fun q => q.spares.get 0 (dieKey slot die))).getD 0
        let d := if 0 < left then
            (d.modQuire p.q (fun q => { q with spares := q.spares.put 0 (dieKey slot die) (left - 1) })).modSb p.q p.s
              (fun b => { b with flagged := b.flagged || decide (0 < b.valid) })
          else d.modSb p.q p.s (fun b => if b.valid = 0 ∧ b.st ≠ .open then { b with st := .retired } else { b with flagged := true })
        d.quireConds

/-! ### The erase gate and erases (R179) -/

/-- Superblocks that wait on the journal or reader condition. -/
def Dev.gateWaiting (d : Dev) : Nat := (d.tc.sbs.filter (fun x => x.2.st = .released)).length

/-- The two conditions of the hardware erase gate. -/
def Dev.gateOpen (d : Dev) (b : Superblock) : Bool :=
  seqBelow b.relSeq d.durable && !(d.rp.reads.any (fun x => decide (x.2.epoch ≤ b.relEpoch)))

/-- The erase of a member's block of a superblock has ended well: with the last of them ERASED is appended, the wear
rises and the superblock returns to the free list (R179 step 6, R182). -/
def Dev.blockErased (d : Dev) (q s : Nat) : Dev :=
  let b := d.sb q s
  if b.st ≠ .erasing then d
  else
    let b := { b with row := b.row + 1 }
    if b.row < b.members.length then d.modSb q s (fun _ => b)
    else
      let w := match (d.quire q).bind (fun x => (b.members.head?).bind (fun m => (x.members.get? m).bind (·.slot))) with
        | none => 1
        | some sl => match d.colo sl with
          | some c => if b.slc then max 1 (c.peQlc / max 1 c.peSlc) else 1
          | none => 1
      let wear := b.wear + w
      let d := d.jrnl (.erased q s wear)
      let keep := d.tc.summ.filter (fun x => match d.place x.1 with
        | some p => !(decide (p.q = q) && decide (p.s = s))
        | none => true)
      let d := { d with tc := { d.tc with summ := keep } }
      let lim := match (d.quire q).bind (fun x => (b.members.head?).bind (fun m => (x.members.get? m).bind (·.slot))) with
        | none => 0
        | some sl => ((d.colo sl).map Colo.peQlc).getD 0
      let st := if 0 < lim ∧ lim ≤ wear then SbState.retired else .free
      let d := if b.slc then d else d.modQuire q (fun x => { x with debt := x.debt - x.sbUnits false b.members.length })
      (d.modSb q s (fun _ => { Superblock.fresh with st := st, wear := wear })).quireConds.packWaiting

/-! ### Space accounting (R155 to R158) -/

/-- map_cost in bytes. -/
def Nsp.mapCost (n : Nsp) : Nat := if n.kind = 2 then 256 * n.zones else 5 * ceilDiv n.units n.iuUnits

/-- cap_cost in 4 KiB units. -/
def Dev.capCost (d : Dev) (n : Nsp) : Nat := if n.kind = 2 then n.zones * (d.zcap n / lbasPerUnit n.lbaf) else n.units

/-- The namespaces that hold costs: a deleted one returns them once its Furrows have drained, at step 3 of its key change
(R157). -/
def Dev.costly (d : Dev) : List (Nat × Nsp) := d.tc.nss.filter (fun x => !x.2.deleting)

/-- Handle and group pairs that other namespaces reserve on a Quire. -/
def Dev.handlesUsed (d : Dev) (q : Nat) (but : Nat) : List Nat :=
  (d.costly.filter (fun x => decide (x.1 ≠ but) && decide (x.2.quire = q) && decide (x.2.kind = 1))).flatMap (·.2.handles)

/-- furrow_cost of a namespace beside the others. -/
def Dev.furrowCost (d : Dev) (but : Nat) (n : Nsp) : Nat :=
  if n.kind = 2 then n.mar + 1
  else if n.kind = 1 then (n.handles.dedup.filter (fun h => !((d.handlesUsed n.quire but).contains h))).length
  else 1

/-- map_used in bytes. -/
def Dev.mapUsed (d : Dev) : Nat := (d.costly.map (fun x => x.2.mapCost)).sum

/-- Furrows reserved: each FDP pair once. -/
def Dev.furrowsReserved (d : Dev) : Nat :=
  ((d.costly.filter (fun x => decide (x.2.kind ≠ 1))).map (fun x => d.furrowCost x.1 x.2)).sum
  + ((d.costly.filter (fun x => decide (x.2.kind = 1))).flatMap (fun x => x.2.handles.map (fun h => 256 * x.2.quire + h))).dedup.length

/-- Units that namespaces homed on a Quire take of its capacity. -/
def Dev.capUsed (d : Dev) (q : Nat) : Nat := ((d.costly.filter (fun x => decide (x.2.quire = q))).map (fun x => d.capCost x.2)).sum

end Sys2Proof.Machine
end

