-- ==== Sys2Proof/Machine/Sluice.lean ====
section
/-! DEFINITION. The Sluice (R375 to R381): charges, budgets in force, ranks, granting, what a grant starts, and the
return of a charge. -/

namespace Sys2Proof.Machine

/-! ### Budgets in force (R376, R377) -/

/-- A word of the power budget section. -/
def Dev.pwWord (d : Dev) (o : Nat) : Nat := fieldAt (d.section 3) o 4

/-- The operational power state in force. -/
def Dev.opPs (d : Dev) : Nat := if d.modes.hostPs ≤ 2 then d.modes.hostPs else d.modes.lastOpPs

/-- Whether budgets are those of the Hold-Up sequence. -/
def Dev.emergency (d : Dev) : Bool := d.modes.mode = .holdup

/-- The global read floor and its soft part; every floor is 0 in HOLDUP. -/
def Dev.readFloor (d : Dev) : Nat := if d.emergency then 0 else d.pwWord 20
def Dev.softFloor (d : Dev) : Nat := if d.emergency then 0 else d.pwWord 24

/-- B_g. -/
def Dev.budgetG (d : Dev) : Nat :=
  if d.emergency then d.pwWord 16
  else
    let f := d.pwWord 20
    let p := d.pwWord (4 + 4 * d.opPs)
    f + (p - f) * (16 - min 16 (d.slu.kD + d.slu.kR)) / 16

/-- base_s: 0 for a slot without a validated colophon. -/
def Dev.baseS (d : Dev) (s : Nat) : Nat :=
  match d.colo s with
  | none => 0
  | some c =>
    let b := d.pwWord (32 + 4 * s)
    if b = 0 then c.maxShares else min b c.maxShares

/-- floor_s as the Imposition gives it. -/
def Dev.floorS0 (d : Dev) (s : Nat) : Nat :=
  min (d.baseS s) (fieldAt (d.section 3) 28 1 * ((d.colo s).map (fun c => c.charge 0)).getD 0)

/-- floor_s in force. -/
def Dev.floorS (d : Dev) (s : Nat) : Nat := if d.emergency then 0 else d.floorS0 s

/-- B_s. -/
def Dev.budgetS (d : Dev) (s : Nat) : Nat :=
  let f := d.floorS0 s
  if (d.slot s).opMax.crossed then f else f + (d.baseS s - f) * (16 - min 16 (d.slot s).kS) / 16

/-! ### Charges and ranks (Tables 14-1, 14-3) -/

/-- A request's charge. -/
def Dev.chargeOf (d : Dev) (r : OpReq) : Nat :=
  if r.soft then d.reg aSluCharge 15 0
  else if r.burst then d.reg aSluCharge 31 16
  else ((d.colo r.slot).map (fun c => c.charge (opIdx r.kind))).getD 0

/-- Whether a request draws on a Gathering's budget too. -/
def OpReq.onSlot (r : OpReq) : Bool := !r.soft && !r.burst

/-- The rank of a kind of relocation. -/
def moveRank : MoveKind → Nat
  | .fold | .gc | .refresh => 5
  | .rebuild | .respread | .release => 6

/-- A request's rank. -/
def OpReq.rank (r : OpReq) : Nat :=
  match r.purpose with
  | .hostRead _ | .peerRead _ | .softSense _ | .readRetry _ => 1
  | .softDecode h => if h then 1 else 5
  | .holdup | .dirtyDrain _ => 2
  | .hostProg _ | .rowParity _ | .jmirror _ => 3
  | .zeroBurst a => if a then 3 else 7
  | .sbErase _ _ | .joinErase => 4
  | .jregion => if r.kind = .erase then 4 else 3
  | .move k _ | .moveParity k _ => moveRank k
  | .metadata _ => 5
  | .patrol _ | .freshFill => 7

/-! ### What is granted -/

def Slu.sum (s : Slu) (f : Grant → Bool) : Nat := ((s.held.filter (fun x => f x.2)).map (fun x => x.2.charge)).sum

/-- Charges granted against B_g and against B_s. -/
def Dev.grantedG (d : Dev) : Nat := d.slu.sum (fun _ => true)
def Dev.grantedS (d : Dev) (s : Nat) : Nat := d.slu.sum (fun g => g.req.onSlot && decide (g.req.slot = s))

/-- Charges granted against the general parts; in HOLDUP floor charges granted earlier count there (R377). -/
def Dev.generalG (d : Dev) : Nat := d.slu.sum (fun g => d.emergency || decide (g.gpart = .general))
def Dev.generalS (d : Dev) (s : Nat) : Nat :=
  d.slu.sum (fun g => g.req.onSlot && decide (g.req.slot = s) && (d.emergency || !g.sfloor))

/-- The parts of the budgets that a request fits, if it fits any (R379). -/
def Dev.fitPart (d : Dev) (r : OpReq) : Option (FloorPart × Bool) :=
  let c := d.chargeOf r
  let s := r.slot
  let genG := decide (d.generalG + c ≤ d.budgetG - d.readFloor)
  let genS := !r.onSlot || decide (d.generalS s + c ≤ d.budgetS s - d.floorS s)
  if r.rank = 1 then
    if r.soft then
      if d.slu.sum (fun g => g.gpart = .soft) + c ≤ d.softFloor then some (.soft, false)
      else if genG then some (.general, false) else none
    else if d.slu.sum (fun g => g.gpart = .rest) + c ≤ d.readFloor - d.softFloor
        ∧ d.slu.sum (fun g => g.req.onSlot && decide (g.req.slot = s) && g.sfloor) + c ≤ d.floorS s then some (.rest, true)
    else if genG && genS then some (.general, false) else none
  else if genG && genS then some (.general, false) else none

/-- Whether another member of a Strict Quire holds a program or erase grant at the die position (R206). -/
def Dev.positionHeld (d : Dev) (r : OpReq) : Bool :=
  match d.memberAt r.slot true with
  | none => false
  | some (q, _) =>
    match d.quire q with
    | none => false
    | some x => x.strict && d.slu.held.any (fun g => isBusyOp g.2.req.kind && g.2.req.onSlot && decide (g.2.req.die = r.die)
        && decide (g.2.req.slot ≠ r.slot) && decide (((d.memberAt g.2.req.slot true).map (·.1)) = some q))

/-- What the module's weirs withhold (Table 14-5); the defer weir is ignored in HOLDUP (Table 14-8). -/
def Dev.weirStops (d : Dev) (r : OpReq) : Bool :=
  let x := d.slot r.slot
  isBusyOp r.kind && (x.opMin.crossed || ((x.defer.crossed || x.opMax.crossed) && !d.emergency)
    || (x.cold.crossed && decide (r.kind = .progQlc)))

/-- Requests of rebuild rank stay within rebuild_share percent of the shares granted on the Quire's members while host
operations on it wait (R245). -/
def Dev.shareStops (d : Dev) (r : OpReq) : Bool :=
  match r.purpose with
  | .move k q | .moveParity k q =>
    if moveRank k = 6 then
      let on := fun (o : OpReq) => o.onSlot && decide (((d.memberAt o.slot true).map (·.1)) = some q)
      let total := d.slu.sum (fun g => on g.req)
      let mine := d.slu.sum (fun g => on g.req && decide (g.req.rank = 6))
      d.slu.waiting.any (fun w => decide (w.req.rank ≤ 3) && on w.req)
        && decide (((d.quire q).map (·.rebuildShare)).getD 100 * (total + d.chargeOf r) < 100 * (mine + d.chargeOf r))
    else false
  | _ => false

/-- The leaf read that a request belongs to. -/
def OpReq.rid (r : OpReq) : Option Nat :=
  match r.purpose with
  | .hostRead n | .peerRead n | .softSense n | .readRetry n => some n
  | _ => none

/-- The read of a die that is served next: the one of the earliest ordering time, the first come on a tie (R196). -/
def Die.nextRead (x : Die) : Option DieRead :=
  (x.reads.filter (fun r => r.tag.isNone)).foldl (fun (b : Option DieRead) r =>
    match b with
    | none => some r
    | some y => if r.ord < y.ord then some r else b) none

/-- Whether a die serves a read of a leaf read now: no read senses, no program or erase runs, a suspension has room, and it
is that read's turn (R196, R203). -/
def Dev.readTurn (d : Dev) (x : Die) (rid : Option Nat) : Bool :=
  !(x.reads.any (fun r => r.tag.isSome))
  && (x.hold.isNone || (x.susp && x.susTag.isNone && decide (x.batch < d.reg aRpCtrl 7 4)))
  && decide ((x.nextRead.map (·.rid)) = some rid)

/-- Whether a request could start if its charge fits: the link issues operations and has a tag; the die has not failed, and
holds no other program or erase, or it is the read's turn. -/
def Dev.canStart (d : Dev) (r : OpReq) : Bool :=
  if !r.onSlot then true
  else
    let l := d.link r.slot
    let x := d.die r.slot r.die
    l.opsOk && l.tagRoom && !x.failed && (if isBusyOp r.kind then x.hold.isNone else d.readTurn x r.rid) && !d.weirStops r

/-- Programs of the Hold-Up sequence, which run at rank 2 in HOLDUP whatever rank they have otherwise (Table 14-7). -/
def OpReq.holdupWork (r : OpReq) : Bool :=
  isProg r.kind && (match r.purpose with
    | .hostProg _ | .rowParity _ | .jmirror _ | .jregion | .metadata _ => true
    | _ => false)

/-- Requests that get no grants: ranks 4 to 7 past Hot-Critical, 3 to 7 in HOLDUP (Tables 14-4, 14-7). -/
def Dev.rankStops (d : Dev) (r : OpReq) : Bool :=
  if d.emergency then decide (3 ≤ r.rank) && !r.holdupWork else d.thm.critical.crossed && decide (4 ≤ r.rank)

/-- Whether a request that has waited 2 ms for its budgets blocks one of rank `k` (R378). -/
def Dev.longBlocks (d : Dev) (id k : Nat) : Bool :=
  d.slu.waiting.any (fun w => w.long && decide (w.id ≠ id) && decide (w.req.rank ≤ k) && (d.fitPart w.req).isNone)

/-! ### Starting operations -/

/-- Whether a read with a deadline is queued for a die (R197). -/
def Die.dlQueued (x : Die) : Bool := x.reads.any (fun r => r.dl && r.tag.isNone)

/-- Issuing a granted program or erase: the die holds it from now on. -/
def Dev.startBusy (d : Dev) (gid : Nat) (r : OpReq) : Dev :=
  let (d, tag) := d.issueOp r (some gid) none
  d.modDie r.slot r.die (fun x => { x with
    hold := some tag, kind := r.kind, susp := false, susTag := none, suspends := 0, ranNs := 0, runAt := d.now, refused := false
    firstAt := some (x.firstAt.getD d.now) })

/-- The first read of a leaf read that has no tag gets one. -/
def tagFirst (rid : Option Nat) (tag : Nat) : List DieRead → List DieRead
  | [] => []
  | x :: l => if x.rid = rid ∧ x.tag = none then { x with tag := some tag } :: l else x :: tagFirst rid tag l

/-- Issuing a granted read: the die's queue entry gets its tag; a read issued in a suspension joins its batch. -/
def Dev.startRead (d : Dev) (gid : Nat) (r : OpReq) (rid : Option Nat) : Dev :=
  let (d, tag) := d.issueOp r (some gid) none
  let d := match rid with
    | none => d
    | some n => { d with rp := { d.rp with reads := d.rp.reads.upd n (fun x => { x with issued := true }) } }
  d.modDie r.slot r.die (fun x => { x with
    reads := tagFirst rid tag x.reads, batch := if x.susp then x.batch + 1 else x.batch, firstAt := some (x.firstAt.getD d.now) })

/-- Starting what a grant allows. A program or erase waits for the deadline reads of its die, up to prog_defer_max
(R197). -/
def Dev.startGrant (d : Dev) (gid : Nat) (r : OpReq) : Dev :=
  if !r.onSlot then d
  else if isBusyOp r.kind then
    if (d.die r.slot r.die).dlQueued then { d with slu := { d.slu with defer := d.slu.defer ++ [⟨gid, d.now⟩] } }
    else d.startBusy gid r
  else d.startRead gid r r.rid

/-- Granting a request: its charge is held, and it starts. -/
def Dev.grant (d : Dev) (id : Nat) (r : OpReq) (part : FloorPart × Bool) : Dev :=
  let g : Grant := ⟨r, d.chargeOf r, part.1, part.2⟩
  { d with slu := { d.slu with held := d.slu.held.ins id g, waiting := d.slu.waiting.filter (fun w => w.id ≠ id) } }.startGrant id r

/-- Whether a waiting request is granted now. -/
def Dev.grantable (d : Dev) (id : Nat) (r : OpReq) : Option (FloorPart × Bool) :=
  if d.rankStops r || !d.canStart r || d.longBlocks id r.rank || (isBusyOp r.kind && r.onSlot && d.positionHeld r)
      || d.shareStops r then none
  else d.fitPart r

/-- Granting every waiting request that can be, rank by rank and oldest first within a rank (R378). -/
def Dev.sluPump (d : Dev) : Dev :=
  (List.range 8).foldl (fun d k =>
    (d.slu.waiting.filter (fun w => w.req.rank = k)).foldl (fun d w =>
      match d.grantable w.id w.req with
      | some p => d.grant w.id w.req p
      | none => d) d) d

/-- A charge returns to every budget it was drawn from, and waiting requests are granted (R375). -/
def Dev.giveBack (d : Dev) (gid : Option Nat) : Dev :=
  match gid with
  | none => d
  | some g =>
    { d with slu := { d.slu with held := d.slu.held.del g, defer := d.slu.defer.filter (fun x => x.gid ≠ g) } }.sluPump

/-- Ending every grant and request for a slot, whose operations have ended (R277). -/
def Dev.dropSlotGrants (d : Dev) (s : Nat) : Dev :=
  let mine := fun (r : OpReq) => r.onSlot && decide (r.slot = s)
  let gone := (d.slu.held.filter (fun x => mine x.2.req)).map (·.1)
  { d with slu := { d.slu with
      held := d.slu.held.filter (fun x => !(mine x.2.req)), waiting := d.slu.waiting.filter (fun w => !(mine w.req))
      defer := d.slu.defer.filter (fun x => !(gone.contains x.gid)) } }.sluPump

/-- A read that no decision has queued joins its die's queue when it asks for its grant: a further sense with its read's
deadline, any other with its issue time plus lc2_us (R196). -/
def Dev.joinQueue (d : Dev) (r : OpReq) : Dev :=
  let x := d.die r.slot r.die
  if r.rid.isSome && x.reads.any (fun y => decide (y.rid = r.rid) && y.tag.isNone) then d
  else
    let dl := (r.rid.bind (fun n => d.rp.reads.get? n)).bind (·.deadline)
    let e : DieRead := ⟨dl.getD (d.now + 1000 * d.reg aRpDeadline1 15 0), r.rid, dl.isSome, none, decide (r.kind = .readSlc)⟩
    d.modDie r.slot r.die (fun x => { x with reads := x.reads ++ [e] })

/-- A request (R379): granted from the floor or the general part, or it waits in its rank. -/
def Dev.request (d : Dev) (r : OpReq) : Dev :=
  let id := d.slu.nextId
  let d := if isRead r.kind && r.onSlot then d.joinQueue r else d
  let d := { d with slu := { d.slu with nextId := id + 1, waiting := d.slu.waiting ++ [(⟨id, d.now, r, false⟩ : SluWait)] } }
  match d.grantable id r with
  | some p => d.grant id r p
  | none => d

/-- Issuing a deferred program or erase. -/
def Dev.startDeferred (d : Dev) (gid : Nat) : Dev :=
  match d.slu.held.get? gid with
  | none => d
  | some g =>
    if (d.die g.req.slot g.req.die).hold.isSome || !((d.link g.req.slot).opsOk) then d
    else { d with slu := { d.slu with defer := d.slu.defer.filter (fun x => x.gid ≠ gid) } }.startBusy gid g.req

/-- Deferred programs and erases whose die has no deadline read queued any more are issued. -/
def Dev.pumpDeferred (d : Dev) (s k : Nat) : Dev :=
  d.slu.defer.foldl (fun d x =>
    match d.slu.held.get? x.gid with
    | none => d
    | some g => if g.req.slot = s ∧ g.req.die = k ∧ (d.die s k).dlQueued = false then d.startDeferred x.gid else d) d

/-! ### Meanings -/

/-- The deadline of an op's die position exists, and what it asks for is an operation that takes a grant. -/
def Dev.reqValid (d : Dev) (r : OpReq) : Bool :=
  if r.soft || r.burst then !(r.soft && r.burst)
  else
    match d.colo r.slot with
    | none => false
    | some c => decide (r.slot < 64) && decide (r.die < c.dies) && decide (r.block < c.blocks)
        && (isRead r.kind || isProg r.kind || decide (r.kind = .erase))

/-- PROG_DEFER_TIMEOUT (R197): a program or erase that has waited prog_defer_max is issued. -/
def progDeferTimeout (id : Nat) (d : Dev) : Dev :=
  if d.slu.defer.any (fun x => x.gid = id) then d.startDeferred id else d

def execProgDeferTimeout (id : Nat) (s : State) : Host.Outcome State Fault Refusal := .next (s.onDev (progDeferTimeout id))

/-- SLUICE_WAIT_LIMIT (R378): a request has waited 2 ms; it is counted once, and blocks from then on. -/
def sluiceWaitLimit (id : Nat) (d : Dev) : Dev :=
  match d.slu.waiting.find? (fun w => w.id = id) with
  | none => d
  | some w =>
    if w.long then d
    else { d with slu := { d.slu with longs := sat 32 (d.slu.longs + 1), waiting := d.slu.waiting.map (fun (w : SluWait) => if w.id = id then { w with long := true } else w) } }.count
      aSluWait 0 32

def execSluiceWaitLimit (id : Nat) (s : State) : Host.Outcome State Fault Refusal := .next (s.onDev (sluiceWaitLimit id))

/-- ZEROING_BURST_DONE (R343, R375): the oldest burst grant returns with the burst. -/
def execZeroingBurstDone (pool idx unit : Nat) (s : State) : Host.Outcome State Fault Refusal :=
  .next (s.onDev (zeroBurstDone (fun d => d.giveBack ((d.slu.held.find? (fun g => g.2.req.burst &&
    (match g.2.req.purpose with | .zeroBurst _ => true | _ => false))).map (·.1))) pool idx unit))

end Sys2Proof.Machine
end

