-- ==== Sys2Proof/Machine/ReadPath.lean ====
section
/-! DEFINITION. The read path (R192 to R205): predictors, the order of a die's reads, the decision between direct,
suspend and read-around, and how reads are placed at dies, given up and decided again. -/

namespace Sys2Proof.Machine

/-! ### Predictors (R194, R195). Durations are in 0.1 µs -/

/-- The predicted duration. -/
def Pred.time (p : Pred) : Int := p.avg + 2 * p.dev

/-- The declared nominal and maximum of a predictor's kind; the suspend predictor takes the larger of the two suspend
times. -/
def Colo.times (c : Colo) (i : Nat) : Nat × Nat :=
  if i < 5 then (c.tNom i, c.tMax i) else (max (c.tNom 5) (c.tNom 6), max (c.tMax 5) (c.tMax 6))

/-- A die's predictor: without history it stands at the declared maximum. -/
def Dev.predOf (d : Dev) (s k i : Nat) : Pred :=
  match (d.die s k).preds.get? i with
  | some p => p
  | none =>
    match d.colo s with
    | none => ⟨0, 0⟩
    | some c =>
      let (n, m) := c.times i
      ⟨10 * (n : Int), 5 * ((m : Int) - n)⟩

/-- The read kind's index. -/
def readIdx (slc : Bool) : Nat := if slc then 1 else 0

/-- Time since a moment, in 0.1 µs. -/
def Dev.since (d : Dev) (t : Nat) : Int := ((d.now - t) / 100 : Nat)

/-- A completed operation supplies a sample: its busy time, capped at the controller's own issue-to-completion time and at
twice the declared maximum. -/
def Dev.learn (d : Dev) (s k i busy issued : Nat) : Dev :=
  match d.colo s with
  | none => d
  | some c =>
    let p := d.predOf s k i
    let x : Int := min (min (busy : Int) (d.since issued)) (20 * ((c.times i).2 : Int))
    let avg := p.avg + Int.tdiv (x - p.avg) 16
    let dev := p.dev + Int.tdiv ((x - avg).natAbs - p.dev) 16
    d.modDie s k (fun y => { y with preds := y.preds.ins i ⟨avg, dev⟩ })

/-- The running time of a die's program or erase. -/
def Dev.elapsed (d : Dev) (x : Die) : Int := ((x.ranNs + (if x.susp then 0 else d.now - x.runAt)) / 100 : Nat)

/-- The remaining time of a link that is not ACTIVE, in 0.1 µs; none where it has no finite value (R261). -/
def Dev.linkRem (d : Dev) (s : Nat) : Option Int :=
  let l := d.link s
  let x := d.dom (glDom s)
  let left := fun (us t : Nat) => max (10 * (us : Int) - d.since t) 0
  if x.st = .off ∨ x.ramp = true ∨ x.wait = true then some (left 1500 (d.pwr.wakeAt.get d.now (glDom s)))
  else if l.st = .lowPower ∨ x.st = .gated then some 400
  else
    match l.st with
    | .recovery => some (left 50 l.since)
    | .detect | .train | .init => some (left (if l.eqSaved then 1000 else 20000) l.since)
    | _ => none

/-- rem(d); none for INF. -/
def Dev.remTime (d : Dev) (s k : Nat) : Option Int :=
  let x := d.die s k
  if (d.link s).st ≠ .active then d.linkRem s
  else some (max ((d.predOf s k (opIdx x.kind)).time - d.elapsed x) 100)

/-- Whether the running suspension has room for another read (R203). -/
def Dev.batchRoom (d : Dev) (x : Die) : Bool :=
  decide (x.batch + (x.reads.filter (fun r => r.tag.isNone)).length < d.reg aRpCtrl 7 4)

/-- Busy: the link is not ACTIVE, or a program or erase is held, unless it is suspended and its batch has room (R195,
R261). -/
def Dev.dieBusy (d : Dev) (s k : Nat) : Bool :=
  let x := d.die s k
  decide ((d.link s).st ≠ .active) || x.hold.isSome && !(x.susp && d.batchRoom x)

/-- ahead(r) for a read with an ordering time (R196). -/
def Dev.ahead (d : Dev) (s k ord : Nat) : Int :=
  (d.die s k).reads.foldl (fun n r =>
    let p := (d.predOf s k (readIdx r.slc)).time
    match r.tag with
    | some t =>
      let at' := ((d.tagEnt s t).map (·.issued)).getD d.now
      n + max (p - d.since at') 0
    | none => if r.ord ≤ ord then n + p else n) 0

/-! ### Peers (R201) -/

/-- The peers of a leaf, as the PUAs of their first units, and whether each is parity: every other leaf of its row, or in
an open row the written ones beside the partial parity of the journal. -/
def Dev.peersOf (d : Dev) (pua : Nat) : Option (List (Nat × Bool)) :=
  match d.place pua with
  | none => none
  | some p =>
    match d.quire p.q with
    | none => none
    | some q =>
      let w := (d.sb p.q p.s).members.length
      let b := p.s / q.dies
      let dp := p.s % q.dies
      let open' := d.tc.jslots.find? (fun j => decide (j.2.quire = p.q) && decide (j.2.sb = p.s) && decide (j.2.row = p.row))
      let want := (List.range w).filter (fun k => decide (k ≠ p.k) && (match open' with
        | none => true
        | some (_, j) => decide (k ≠ w - 1) && bitOf j.written k))
      let pos := fun k => if k = w - 1 then parityPos w p.row b dp else dataPos w p.row b dp k
      let l := want.map (fun k => (d.rowPua p.q p.s p.row (pos k) 0).map (fun u => (u, decide (k = w - 1))))
      if l.any (·.isNone) then none else some (l.filterMap (·))

/-- Whether a slot's member is there to be read: its link issues operations and it is not LOST. -/
def Dev.peerUp (d : Dev) (pua : Nat) : Bool :=
  let s := puaSlot pua
  (d.link s).opsOk && (match d.memberAt s true with
    | some _ => true
    | none => false)

/-- The die of a PUA. -/
def Dev.dieOfPua (d : Dev) (pua : Nat) : Nat := ((d.colo (puaSlot pua)).map (fun c => c.dieOf (puaLeaf pua))).getD 0

/-- The read charge of a leaf. -/
def Dev.readCharge (d : Dev) (slot : Nat) (slc : Bool) : Nat := ((d.colo slot).map (fun c => c.charge (readIdx slc))).getD 0

/-- Whether the read floor can grant peer reads at once. -/
def Dev.floorFits (d : Dev) (peers : List Nat) (slc : Bool) : Bool :=
  let cost := fun (f : Nat → Bool) => ((peers.filter (fun p => f (puaSlot p))).map (fun p => d.readCharge (puaSlot p) slc)).sum
  decide (d.slu.sum (fun g => g.gpart = .rest) + cost (fun _ => true) ≤ d.readFloor - d.softFloor)
  && peers.all (fun p =>
    let s := puaSlot p
    decide (d.slu.sum (fun g => g.req.onSlot && decide (g.req.slot = s) && g.sfloor) + cost (fun t => t = s) ≤ d.floorS s))

/-- Whether reconstruction has every peer it needs; peer dies may be busy (R214). -/
def Dev.peersReady (d : Dev) (pua : Nat) : Option (List (Nat × Bool)) :=
  match d.peersOf pua with
  | none => none
  | some l => if l.all (fun p => d.peerUp p.1) then some l else none

/-- Whether only read-around reaches a die: it has failed, or its member is LOST or gone (R31, R244, R277). -/
def Dev.dieGone (d : Dev) (s k : Nat) : Bool := (d.die s k).failed || (d.memberAt s true).isNone

/-- around_ok(r): a class without a deadline goes around only where nothing else reaches its die (R31). -/
def Dev.aroundOk (d : Dev) (r : LeafRead) : Option (List (Nat × Bool)) :=
  if !(bitOf (d.csrW aRpCtrl).toNat 0) || (decide (r.cls = 3) && !(d.dieGone (puaSlot r.pua) (d.dieOfPua r.pua))) || r.noAround then none
  else
    match d.peersReady r.pua with
    | none => none
    | some l =>
      if l.all (fun p => !(d.dieBusy (puaSlot p.1) (d.dieOfPua p.1))) && d.floorFits (l.map (·.1)) r.slc then some l else none

/-- suspend_ok(d, r) (R200). -/
def Dev.suspendOk (d : Dev) (r : LeafRead) : Bool :=
  let s := puaSlot r.pua
  let k := d.dieOfPua r.pua
  let x := d.die s k
  let erase := decide (x.kind = .erase)
  match d.colo s with
  | none => false
  | some c =>
    bitOf (d.csrW aRpCtrl).toNat 1 && decide (d.modes.mode ≠ .holdup) && !r.noSuspend && !(d.dieGone s k) && decide ((d.link s).st = .active)
    && x.hold.isSome && !x.susp && decide (x.suspends < c.susMax erase)
    && (decide (x.suspends = 0) || decide (10 * (c.susRun erase : Int) ≤ d.elapsed { x with ranNs := 0 }))
    && !x.refused

/-! ### The decision (R199) -/

/-- The deadline of a class in µs; LC3 has none (Table 07-4). -/
def Dev.deadlineUs (d : Dev) (cls : Nat) : Option Nat :=
  match cls with
  | 0 => some (d.reg aRpDeadline0 15 0)
  | 1 => some (d.reg aRpDeadline0 31 16)
  | 2 => some (d.reg aRpDeadline1 15 0)
  | _ => none

/-- The ordering time of a read (R196). -/
def Dev.ordOf (d : Dev) (r : LeafRead) : Nat := r.deadline.getD (r.decidedAt + 1000 * d.reg aRpDeadline1 15 0)

/-- `a ≤ b` where none is INF. -/
def leInf : Option Int → Option Int → Bool
  | _, none => true
  | none, some _ => false
  | some a, some b => decide (a ≤ b)

/-- decide(r): the path, and the predicted start of a direct read in 0.1 µs from now. `dl` is in 0.1 µs. -/
def Dev.choosePath (d : Dev) (r : LeafRead) (dl : Option Int) : Path × Int :=
  let s := puaSlot r.pua
  let k := d.dieOfPua r.pua
  let x := d.die s k
  let busy := d.dieBusy s k
  let ahead := d.ahead s k (d.ordOf r)
  let base := ahead + (d.predOf s k (readIdx r.slc)).time
  let rem : Option Int := if busy then d.remTime s k else some 0
  let wait := rem.getD 0
  let tDir : Option Int := if d.dieGone s k || (busy && decide (r.cls = 0) && !x.warm) then none else rem.map (· + base)
  let tSus : Option Int := if d.suspendOk r then some ((d.predOf s k 5).time + base) else none
  let tRa : Option Int := (d.aroundOk r).map (fun l => (l.foldl (fun m p =>
    let ps := puaSlot p.1
    let pk := d.dieOfPua p.1
    max m (d.ahead ps pk (d.ordOf r) + (d.predOf ps pk (readIdx r.slc)).time)) 0) + 20)
  let path := if decide (r.cls = 3) && !(d.dieGone s k) then Path.direct
    else if tDir.isSome && leInf tDir dl then .direct
    else if tSus.isSome && leInf tSus dl then .suspend
    else if tRa.isSome && leInf tRa dl then .around
    else if leInf tDir tSus && leInf tDir tRa then .direct
    else if leInf tSus tRa then .suspend
    else .around
  (path, wait + ahead)

/-! ### Leaf reads in the state -/

def Dev.leafRead (d : Dev) (rid : Nat) : Option LeafRead := d.rp.reads.get? rid
def Dev.modRead (d : Dev) (rid : Nat) (f : LeafRead → LeafRead) : Dev :=
  { d with rp := { d.rp with reads := d.rp.reads.upd rid f } }

/-- A leaf read of a command that has not been walked. -/
def LeafRead.fresh (cs ns cls unit epoch : Nat) : LeafRead where
  cs := some cs
  parent := none
  ns := ns
  cls := cls
  units := [(unit, 0)]
  walked := false
  pua := 0
  slc := false
  path := .none
  decidedAt := 0
  startAt := 0
  deadline := none
  redecided := false
  noAround := false
  noSuspend := false
  issued := false
  epoch := epoch
  peers := []
  cws := []

/-- Adding a leaf read; its number. -/
def Dev.addRead (d : Dev) (r : LeafRead) : Dev × Nat :=
  let n := d.rp.nextRid
  ({ d with rp := { d.rp with reads := d.rp.reads.ins n r, nextRid := n + 1 } }, n)

/-- A codeword that waits for its hard sense. -/
def CwSt.fresh : CwSt := ⟨.hard, 1, 0, none, false, false, false⟩

/-- The codeword positions of a read, each once. -/
def LeafRead.cwList (r : LeafRead) : List Nat := (List.range 4).filter (fun c => r.units.any (fun u => u.2 = c))

/-- The mask of its codewords. -/
def LeafRead.cwMask (r : LeafRead) : Nat := maskOf 4 (fun c => r.units.any (fun u => u.2 = c))

/-- Queueing a read at a die in the order of R196. -/
def Dev.queueRead (d : Dev) (s k ord : Nat) (rid : Option Nat) (dl slc : Bool) : Dev :=
  d.modDie s k (fun x => { x with reads := x.reads ++ [⟨ord, rid, dl, none, slc⟩] })

/-- Issuing SUSPEND, RESUME, STATUS or RESET_DIE, which take no charge. -/
def Dev.bareOp (d : Dev) (kind : OpKind) (s k : Nat) (target : Option Nat) : Dev × Nat :=
  d.issueOp (OpReq.bare kind s k .freshFill) none target

/-- Issuing a SUSPEND where none is outstanding (R203, R205). -/
def Dev.suspendDie (d : Dev) (s k : Nat) : Dev :=
  let x := d.die s k
  if x.susTag.isSome || x.susp || x.hold.isNone then d
  else
    let (d, t) := d.bareOp .suspend s k x.hold
    d.modDie s k (fun x => { x with susTag := some t })

/-- Resuming the suspended operation (R203). -/
def Dev.resumeDie (d : Dev) (s k : Nat) : Dev :=
  let x := d.die s k
  if !x.susp || x.susTag.isSome then d
  else
    let (d, t) := d.bareOp .resume s k x.hold
    d.modDie s k (fun x => { x with susTag := some t })

/-- What a die does once a read, a program or an erase has ended or its queue has changed: a suspension whose batch is
served ends (R203), and what waited for the die goes on (R197, R378). -/
def Dev.dieNext (d : Dev) (s k : Nat) : Dev :=
  let x := d.die s k
  let sensing := x.reads.any (fun r => r.tag.isSome)
  let left := x.reads.any (fun r => r.tag.isNone)
  let d := if x.susp && !sensing && (!left || decide (d.reg aRpCtrl 7 4 ≤ x.batch)) then d.resumeDie s k else d
  (d.pumpDeferred s k).sluPump

/-- Taking a read out of its die's queue, unless it is sensing already. -/
def Dev.unqueue (d : Dev) (s k rid : Nat) : Dev :=
  let d := d.modDie s k (fun x => { x with reads := x.reads.filter (fun r => !(decide (r.rid = some rid) && r.tag.isNone)) })
  { d with slu := { d.slu with waiting := d.slu.waiting.filter (fun w => w.req.rid ≠ some rid) } }

/-- Giving up one leaf read: senses already issued complete, and what they bring is discarded. -/
def Dev.dropRead (d : Dev) (rid : Nat) : Dev :=
  match d.leafRead rid with
  | none => d
  | some r =>
    let d := { d with rp := { d.rp with reads := d.rp.reads.del rid } }
    if r.walked then
      let s := puaSlot r.pua
      let k := d.dieOfPua r.pua
      (d.unqueue s k rid).dieNext s k
    else d

/-- Giving up a leaf read and its peers. -/
def Dev.dropReadAll (d : Dev) (rid : Nat) : Dev :=
  let ps := ((d.leafRead rid).map (·.peers)).getD []
  (ps.foldl Dev.dropRead d).dropRead rid

/-- Giving up the peers of a read, all or those for one codeword. -/
def Dev.dropPeers (d : Dev) (rid : Nat) (cw : Option Nat) : Dev :=
  match d.leafRead rid with
  | none => d
  | some r =>
    let gone := r.peers.filter (fun p => match cw, d.leafRead p with
      | some c, some x => decide (x.cwList = [c])
      | none, _ => true
      | _, none => true)
    (gone.foldl Dev.dropRead d).modRead rid (fun r => { r with peers := r.peers.filter (fun p => !(gone.contains p)) })

/-- Starting the peer reads of a reconstruction of the codewords `cws` (R192, R202): each carries the deadline of the read
it serves and waits at its own die. -/
def Dev.startPeers (d : Dev) (rid : Nat) (r : LeafRead) (peers : List (Nat × Bool)) (cws : List Nat) : Dev :=
  peers.foldl (fun d p =>
    let s := puaSlot p.1
    let k := d.dieOfPua p.1
    let x : LeafRead := { r with
      cs := none, parent := some rid, units := cws.map (fun c => (bit p.2, c)), pua := p.1, path := .direct, issued := false
      peers := [], cws := cws.map (fun c => (c, CwSt.fresh)), redecided := true, noAround := true, noSuspend := true }
    let (d, n) := d.addRead x
    let d := d.queueRead s k (d.ordOf r) (some n) r.deadline.isSome r.slc
    (d.modRead rid (fun y => { y with peers := y.peers ++ [n] })).demand (glDom s)) d

/-- Going the path chosen. -/
def Dev.takePath (d : Dev) (rid : Nat) (path : Path) (start : Int) : Dev :=
  let d := d.modRead rid (fun r => { r with path := path, issued := false, startAt := d.now + 100 * start.toNat })
  match d.leafRead rid with
  | none => d
  | some r =>
    let s := puaSlot r.pua
    let k := d.dieOfPua r.pua
    let q := fun (d : Dev) => d.queueRead s k (d.ordOf r) (some rid) r.deadline.isSome r.slc
    match path with
    | .around =>
      match d.aroundOk r with
      | none => d
      | some l =>
        let d := d.modRead rid (fun r => { r with cws := r.cwList.map (fun c => (c, { CwSt.fresh with rung := .recon, need := 0 })) })
        (d.startPeers rid r l r.cwList).count (aRpCnt + 8) 0 32
    | .suspend => ((q d).count (aRpCnt + 4) 0 32).suspendDie s k
    | _ => (q d).count aRpCnt 0 32

/-- Deciding a leaf read (R199). On a failed die nothing but read-around serves it (R277): where that is not allowed it
waits. -/
def Dev.decideRead (d : Dev) (rid : Nat) : Dev :=
  match d.leafRead rid with
  | none => d
  | some r =>
    let dl := d.deadlineUs r.cls
    let d := d.modRead rid (fun r => { r with
      decidedAt := d.now, deadline := dl.map (fun u => d.now + 1000 * u), cws := r.cwList.map (fun c => (c, CwSt.fresh)) })
    let r := (d.leafRead rid).getD r
    let (p, t) := d.choosePath r (dl.map (fun u => 10 * (u : Int)))
    if d.dieGone (puaSlot r.pua) (d.dieOfPua r.pua) && decide (p ≠ .around) then
      d.modRead rid (fun r => { r with path := .wait })
    else d.takePath rid p t

/-- Deciding a read again, with what is left of its deadline: after a refused suspend, an abandoned read-around, a reset
read, or under R204. Its ordering time stays that of the first decision. -/
def Dev.decideAgain (d : Dev) (rid : Nat) (f : LeafRead → LeafRead) : Dev :=
  let d := (d.dropPeers rid none).modRead rid f
  match d.leafRead rid with
  | none => d
  | some r =>
    if r.parent.isSome || !r.walked then d
    else
      let s := puaSlot r.pua
      let k := d.dieOfPua r.pua
      let d := (d.unqueue s k rid).modRead rid (fun r => { r with cws := r.cwList.map (fun c => (c, CwSt.fresh)) })
      let r := (d.leafRead rid).getD r
      let (p, t) := d.choosePath r (r.deadline.map (fun u => ((u : Int) - d.now) / 100))
      if d.dieGone s k && decide (p ≠ .around) then d.modRead rid (fun r => { r with path := .wait })
      else d.takePath rid p t

/-- The reads that wait at a die in a test. -/
def Dev.readsAt (d : Dev) (s k : Nat) (f : LeafRead → Bool) : List Nat :=
  (d.rp.reads.filter (fun x => x.2.walked && decide (puaSlot x.2.pua = s) && decide (d.dieOfPua x.2.pua = k) && f x.2)).map (·.1)

/-- A read-around is abandoned when a peer is lost or fails (R205, R213). -/
def Dev.abandonAround (d : Dev) (rid : Nat) : Dev := d.decideAgain rid (fun r => { r with noAround := true })

/-! ### Meanings -/

/-- REDECIDE_TIMER (R204): a direct read still queued behind a program or erase 10 µs past its predicted start is decided
once more, with its deadline reduced by the time waited. -/
def redecide (rid : Nat) (d : Dev) : Dev :=
  match d.leafRead rid with
  | none => d
  | some r =>
    let s := puaSlot r.pua
    let k := d.dieOfPua r.pua
    if r.walked && decide (r.path = .direct) && !r.issued && !r.redecided && r.parent.isNone && r.deadline.isSome
        && d.dieBusy s k && decide (r.startAt + 10000 ≤ d.now) then
      (d.count (aRpCnt + 12) 0 32).decideAgain rid (fun r => { r with redecided := true })
    else d

def execRedecideTimer (rid : Nat) (s : State) : Host.Outcome State Fault Refusal := .next (s.onDev (redecide rid))

/-- SUSPEND_WINDOW_TIMEOUT (R203): sus_window has passed since the operation was suspended, and it resumes. -/
def suspendWindow (s k : Nat) (d : Dev) : Dev :=
  let x := d.die s k
  if x.susp && decide (x.susAt + 10000 * d.reg aRpCtrl 15 8 ≤ d.now) then d.resumeDie s k else d

def execSuspendWindowTimeout (slot die : Nat) (s : State) : Host.Outcome State Fault Refusal :=
  .next (s.onDev (suspendWindow slot die))

/-- A die becomes warm; with the last of a Gathering's dies the time since its admission is recorded (R221). -/
def Dev.warmDie (d : Dev) (s k : Nat) : Dev :=
  if (d.die s k).warm then d
  else
    let d := d.modDie s k (fun x => { x with warm := true })
    if (List.range (d.diesOf s)).all (fun j => (d.die s j).warm) then
      d.ev evGlDiesWarm (s / 8) [.num 1 s, .num 8 (d.now - (d.slot s).admittedAt)]
    else d

/-- DIE_WARM_TIMER (R221): 60 s after its first operation a die is warm. -/
def dieWarm (s k : Nat) (d : Dev) : Dev :=
  match (d.die s k).firstAt with
  | none => d
  | some t => if t + 60000000000 ≤ d.now then d.warmDie s k else d

def execDieWarmTimer (slot die : Nat) (s : State) : Host.Outcome State Fault Refusal := .next (s.onDev (dieWarm slot die))

end Sys2Proof.Machine
end

