-- ==== Sys2Proof/Machine/Ladder.lean ====
section
/-! DEFINITION. From a decoded codeword to the host (R192, R210 to R219, R437 to R441): read levels, the checks of a
unit, delivery, the decode ladder, reconstruction, and what a read that fails leaves. -/

namespace Sys2Proof.Machine

/-! ### A slot's command (fields as the NVM command set has them) -/

/-- Dword `i` of the submission entry. -/
def CSlot.dw (s : CSlot) (i : Nat) : Nat := bitsOf s.sqe.toNat (32 * i + 31) (32 * i)
def CSlot.opcode (s : CSlot) : Nat := bitsOf s.sqe.toNat 7 0
def CSlot.nsid (s : CSlot) : Nat := s.dw 1
def CSlot.slba (s : CSlot) : Nat := s.dw 10 + 2 ^ 32 * s.dw 11
def CSlot.nlb (s : CSlot) : Nat := bitsOf (s.dw 12) 15 0 + 1

/-! ### Protection information (R106, R192) -/

/-- One bit of CRC-16/T10-DIF. -/
def crc16Bit (c : BitVec 16) : BitVec 16 := if c.msb then (c <<< 1) ^^^ 0x8BB7#16 else c <<< 1

/-- One byte of it. -/
def crc16Byte (c : BitVec 16) (b : Byte) : BitVec 16 :=
  let c := c ^^^ (b.zeroExtend 16 <<< 8)
  crc16Bit (crc16Bit (crc16Bit (crc16Bit (crc16Bit (crc16Bit (crc16Bit (crc16Bit c)))))))

/-- The number that bytes spell, most significant first. -/
def beNat (l : List Byte) : Nat := leNat l.reverse

/-- The checks that PRCHK asks for on one block: guard, application tag, reference tag. The tag fields are those of the
NVM command set, PRINFO in dword 12, the expected tags in dwords 14 and 15. -/
def CSlot.piStatus (s : CSlot) (n : Nsp) (lba : Nat) (data md : List Byte) : Option Cqe :=
  let size := if n.lbaf = 1 then 8 else if n.lbaf = 2 then 64 else 0
  if n.pi = 0 ∨ size = 0 then none
  else
    let t := slice md (size - 8) 8
    let app := beNat (slice t 2 2)
    let ref := beNat (slice t 4 4)
    let p := s.dw 12
    let skip := if n.pi = 3 then decide (app = 0xFFFF) && decide (ref = 0xFFFFFFFF) else decide (app = 0xFFFF)
    let mask := bitsOf (s.dw 15) 31 16
    if skip then none
    else if bitOf p 28 && decide (beNat (slice t 0 2) ≠ ((data ++ md.take (size - 8)).foldl crc16Byte 0).toNat) then
      some (Cqe.of 2 0x82 true)
    else if bitOf p 27 && decide (Nat.land app mask ≠ Nat.land (bitsOf (s.dw 15) 15 0) mask) then some (Cqe.of 2 0x83 true)
    else if bitOf p 26 && decide (n.pi = 1) && decide (ref ≠ (s.dw 14 + (lba - s.slba)) % 2 ^ 32) then
      some (Cqe.of 2 0x84 true)
    else none

/-! ### Delivery to the host -/

/-- The latency histogram's bin (Table 05-9). -/
def histBin (us : Nat) : Nat :=
  ([25, 50, 75, 100, 120, 150, 200, 250, 500, 1000, 2000, 5000, 10000, 20000, 50000].filter (fun e => e ≤ us)).length

/-- The p99.99 bound of a class in µs (Table 05-3). -/
def lateBound (cls : Nat) : Option Nat :=
  match cls with
  | 0 => some 250 | 1 => some 2000 | 2 => some 20000 | _ => none

/-- A read within the conditions of R127. -/
def TStat.within (t : TStat) (cls us : Nat) : TStat :=
  let late := match lateBound cls with
    | some b => decide (b < us)
    | none => false
  { t with conform := sat 64 (t.conform + 1), late := sat 64 (t.late + bit late)
           hist := t.hist.put 0 (histBin us) (sat 32 (t.hist.get 0 (histBin us) + 1)) }

/-- A contract in force: the built-in one where none is set (R129). -/
def Dev.contract (d : Dev) (t : Nat) : Contract := (d.hg.contracts.get? t).getD builtinContract

/-- The namespace a slot's command names, as classification found it: its index is kept in `want` of the slot's units'
reads; the controller's attachment gives it again. -/
def Dev.nsOf (d : Dev) (s : CSlot) : Option (Nat × Nsp) :=
  (d.tc.nss.find? (fun x => decide (x.1 + 1 = s.nsid) && x.2.attached.contains s.fn.cntlid))

/-- A read's counters at its completion (R127, R209): LC0 reads on a Strict Quire wait for the end of its 100 ms
window. -/
def Dev.readStats (d : Dev) (s : CSlot) : Dev :=
  let t := s.tenant
  let n := s.units.length
  let us := (d.now - s.t0) / 1000
  let cls := (d.contract t).cls
  let d := d.modStat t (fun x => { x with unitsRead := sat 64 (x.unitsRead + n) })
  let q := ((d.nsOf s).map (fun x => x.2.quire)).getD 0
  let ok := decide (n = 1) && !s.wasPaced && decide (d.quireState q = 1) && decide (d.modes.promise = 31)
  let strict := ((d.quire q).map (fun x => x.strict && x.active)).getD false
  if ok && decide (cls = 0) && strict then d.modQuire q (fun x => { x with winReads := x.winReads ++ [(t, us)] })
  else if ok && decide (cls ≠ 0) then d.modStat t (fun x => x.within cls us)
  else d.modStat t (fun x => { x with outside := sat 64 (x.outside + 1) })

/-- Whether a command is a Read or a Verify. -/
def CSlot.reads (s : CSlot) : Bool := decide (s.opcode = 2) || decide (s.opcode = 0x0C)

/-- Taking away every leaf read of a command, and the readers it holds on buffered entries, which its `tags` name. -/
def Dev.endReads (d : Dev) (cs : Nat) : Dev :=
  let d := ((d.rp.reads.filter (fun x => x.2.cs = some cs)).map (·.1)).foldl Dev.dropReadAll d
  match d.hg.slots.get? cs with
  | none => d
  | some s =>
    if s.reads then
      let d := d.modSlot cs (fun s => { s with tags := [], units := s.units.map (fun u => { u with src := 4 }) })
      s.tags.foldl (fun d t =>
        let (d, hs) := d.colReaderDone t
        d.freeBufs hs) d
    else d

/-- A read ends with a failure. -/
def Dev.failCmd (d : Dev) (cs : Nat) (e : Cqe) : Dev := (d.endReads cs).complete cs e

/-- The 512-byte blocks that the write buffer holds newer than the rest of a unit, laid over it (R315). -/
def Dev.overlay (d : Dev) (over' : List (Nat × W32)) (x : UnitData) : UnitData :=
  over'.foldl (fun (x : UnitData) (b : Nat × W32) =>
    let m : UnitData := BitVec.ofNat 32768 (2 ^ 4096 - 1) <<< (4096 * b.1)
    let v := if b.2 = 0 then 0 else leNat (slice (d.bufRead b.2) (512 * b.1) 512)
    (x &&& ~~~ m) ||| (BitVec.ofNat 32768 v <<< (4096 * b.1))) x

/-- One unit of a command is ready: it is sent to the host unless the command is a Verify, and the first of a read is its
commit point (R134, R192); with the last the command completes. A function whose Bus Master Enable is clear sends nothing
(R474). -/
def Dev.unitServed (d : Dev) (cs iu : Nat) (data : Option UnitData) : Dev :=
  match d.hg.slots.get? cs with
  | none => d
  | some s =>
    if s.cqe.isSome then d
    else
      let rd := decide (s.opcode = 2)
      if rd && !s.discard && !(d.fnst s.fn).bme then d.failCmd cs cqeDataTransfer
      else
        let ov := ((s.units.find? (fun u => u.iu = iu)).map (·.newer)).getD []
        let d := if rd && !s.discard then d.emit (.readData s.fn cs iu (data.map (d.overlay ov))) else d
        let s := { s with
          st := if rd && decide (s.st = .executing) then SlSt.committed else s.st
          units := s.units.map (fun u => if u.iu = iu then { u with src := 4 } else u) }
        let d := d.modSlot cs (fun _ => s)
        if s.units.all (fun u => u.src = 4) then
          let d := if rd then d.readStats s else d
          d.complete cs cqeOk
        else d

/-! ### The checks of a unit (Table 17-4) -/

/-- The key_change_seq of a namespace, which with its key generation names its keys. -/
def Dev.keySeq (d : Dev) (ns : Nat) : Nat := ((d.nsp ns).map (·.keySeq)).getD 0

/-- The open sequence number of the superblock that holds a PUA. -/
def Dev.openSeqAt (d : Dev) (pua : Nat) : Nat :=
  match d.place pua with
  | some p => (d.sb p.q p.s).openSeq
  | none => 0

/-- Steps 1 to 4 of Table 17-4: 0, or the reason. -/
def Dev.checkUnit (d : Dev) (f : Frame) (pua ns tenant unit keyGen : Nat) : Nat :=
  let h := Config.hdrOpen f.tag f.hdr
  let b := h.toNat
  let iv := BitVec.ofNat 96 (pua + 2 ^ 38 * (d.openSeqAt pua % 2 ^ 58))
  if Config.gmac ns keyGen (d.keySeq ns) iv h f.cipher f.hmeta ≠ f.tag then 1
  else if bitsOf b 7 0 ≠ 1 ∨ bitsOf b 41 32 ≠ ns ∨ bitsOf b 31 16 ≠ tenant ∨ bitsOf b 101 64 ≠ unit then 2
  else if bitsOf b 247 216 ≠ keyGen then 3
  else if bitOf b 8 then 4
  else 0

/-- Step 5: the data and metadata under the tweak of R437, whose generation is the header's. -/
def Dev.openUnit (d : Dev) (f : Frame) (ns unit keyGen : Nat) : UnitData × BitVec 512 :=
  let h := (Config.hdrOpen f.tag f.hdr).toNat
  Config.xtsOpen ns keyGen (d.keySeq ns) (BitVec.ofNat 128 (unit % 2 ^ 38 + 2 ^ 38 * ns + 2 ^ 48 * bitsOf h 175 128)) f.cipher f.hmeta

/-! ### Read levels (R217 to R219) -/

/-- A block's tracking record: the colophon's nominal offsets until it has one (R220). -/
def Dev.vrefOf (d : Dev) (s k b : Nat) : BitVec 128 :=
  match d.rp.vref.get? (blockKey s k b) with
  | some v => v
  | none => ((d.colo s).map Colo.nominal).getD 0

/-- Level `l` of a record as a signed offset. -/
def levelOf (v : BitVec 128) (l : Nat) : Int := signed 8 (bitsOf v.toNat (8 * l + 7) (8 * l))

/-- Replacing a level. -/
def setLevel (v : BitVec 128) (l : Nat) (x : Int) : BitVec 128 :=
  BitVec.ofNat 128 (v.toNat - 2 ^ (8 * l) * bitsOf v.toNat (8 * l + 7) (8 * l) + 2 ^ (8 * l) * twos 1 x)

/-- Clamping to the declared range. -/
def clampTo (m : Nat) (x : Int) : Int := max (-(m : Int)) (min m x)

/-- The tracker's update after a decode (R218): levels 1 to 15 for QLC, the one SLC level in byte 15. -/
def Dev.trackLevels (d : Dev) (pua : Nat) (slc : Bool) (up down : List Nat) : Dev :=
  let s := puaSlot pua
  match d.colo s with
  | none => d
  | some c =>
    let k := c.dieOf (puaLeaf pua)
    let b := c.blockOf (puaLeaf pua)
    let key := blockKey s k b
    let thr : Int := d.reg aVrefCtrl 7 0
    (List.range (if slc then 1 else 15)).foldl (fun d i =>
      let l := if slc then 15 else i
      let a := d.rp.acc.get 0 (16 * key + l) + nth up i - nth down i
      let v := d.vrefOf s k b
      let put := fun (x : Int) (a : Int) (d : Dev) =>
        { d with rp := { d.rp with
            vref := d.rp.vref.ins key (setLevel v l (clampTo c.maxOffset (levelOf v l + x))), acc := d.rp.acc.put 0 (16 * key + l) a } }
      if thr ≤ a then put (-1) 0 d
      else if a ≤ -thr then put 1 0 d
      else { d with rp := { d.rp with acc := d.rp.acc.put 0 (16 * key + l) a } }) d

/-- The distance of a retry entry from a record, over the levels of the mode read. -/
def retryDistance (slc : Bool) (v e : BitVec 128) : Nat :=
  ((if slc then [15] else List.range 15).map (fun l => (levelOf v l - levelOf e l).natAbs)).sum

/-- Inserting an entry by distance, the lower index first on a tie. -/
def insertBy (f : Nat → Nat) (i : Nat) : List Nat → List Nat
  | [] => [i]
  | j :: l => if f i < f j then i :: j :: l else j :: insertBy f i l

/-- The retry entries of a block in the order they are tried. -/
def Dev.retryOrder (d : Dev) (pua : Nat) (slc : Bool) : List Nat :=
  match d.colo (puaSlot pua) with
  | none => []
  | some c =>
    let v := d.vrefOf (puaSlot pua) (c.dieOf (puaLeaf pua)) (c.blockOf (puaLeaf pua))
    ((List.range c.retries).foldl (fun l i => insertBy (fun j => retryDistance slc v (c.retry j)) i l) []).take
      (d.reg aLadderCtrl 16 12)

/-- The entry that worked replaces the block's offsets, and its accumulators are cleared. -/
def Dev.adoptRetry (d : Dev) (pua : Nat) (slc : Bool) (tries : Nat) : Dev :=
  match d.colo (puaSlot pua), (d.retryOrder pua slc)[tries]? with
  | some c, some i =>
    let key := blockKey (puaSlot pua) (c.dieOf (puaLeaf pua)) (c.blockOf (puaLeaf pua))
    { d with rp := { d.rp with
        vref := d.rp.vref.ins key (c.retry i), acc := d.rp.acc.filter (fun x => x.1 / 16 ≠ key) } }
  | _, _ => d

/-! ### The ladder (R210 to R216) -/

/-- A rung's number in Table 07-5. -/
def rungCode : Rung → Nat
  | .hard => 0 | .soft2 => 1 | .soft3 => 2 | .retry => 3 | .recon => 4

/-- Crediting a rung (MC_LADDER_CNTn). -/
def Dev.credit (d : Dev) (r : Rung) : Dev := d.count (aLadderCnt + 4 * rungCode r) 0 32

/-- Flagging a superblock for refresh (R216). -/
def Dev.flagRefresh (d : Dev) (pua : Nat) : Dev :=
  match d.place pua with
  | none => d
  | some p =>
    if (d.sb p.q p.s).flagged then d
    else (d.modSb p.q p.s (fun b => { b with flagged := true })).ev evMcRefreshFlag 0 [.num 1 p.q, .num 4 p.s]

/-- Changing a codeword of a leaf read. -/
def Dev.modCw (d : Dev) (rid cw : Nat) (f : CwSt → CwSt) : Dev := d.modRead rid (fun r => { r with cws := r.cws.upd cw f })

/-- A codeword is resolved: a peer's frame waits for the XOR, a command's unit goes to the host. -/
def Dev.serveCw (d : Dev) (rid cw : Nat) (f : Frame) : Dev :=
  let d := (d.dropPeers rid (some cw)).modCw rid cw (fun c => { c with passed := true, frame := some f })
  match d.leafRead rid with
  | none => d
  | some r =>
    match r.cs with
    | none => d
    | some cs =>
      let d := if r.cws.all (fun c => c.2.passed) then d.dropReadAll rid else d
      (r.units.filter (fun u => u.2 = cw)).foldl (fun d u =>
        match d.hg.slots.get? cs, d.nsp r.ns with
        | some s, some n =>
          let (data, md) := d.openUnit f r.ns u.1 n.keyGen
          match s.piStatus n u.1 (leBytes 4096 data.toNat) (leBytes 64 md.toNat) with
          | some e => d.failCmd cs e
          | none => d.unitServed cs u.1 (some data)
        | _, _ => d) d

/-- The ladder or a reconstruction is exhausted (R215): each unit's IU is LOST and the command ends. -/
def Dev.cwLost (d : Dev) (rid cw : Nat) (last : Rung) : Dev :=
  match d.leafRead rid with
  | none => d
  | some r =>
    match r.cs with
    | none => d
    | some cs =>
      let us := (r.units.filter (fun u => u.2 = cw)).map (·.1)
      let d := (d.count (aLadderCnt + 20) 0 32).ev evMcReadUnrecovered 0 [.num 8 (r.pua + cw), .num 1 (rungCode last)]
      let n := d.iuUnits r.ns
      let d := us.foldl (fun d u => d.loseIu r.ns (u / n)) d
      d.failCmd cs cqeUnrecovered

/-- A peer failed, or its reconstruction did (R213): a read-around is abandoned; a reconstruction beside soft-2 ends and
the ladder goes on; any other ends the read. -/
def Dev.reconFailed (d : Dev) (rid cw : Nat) : Dev :=
  match d.leafRead rid with
  | none => d
  | some r =>
    if r.path = .around then d.abandonAround rid
    else
      match r.cws.get? cw with
      | none => d
      | some c =>
        if c.early && decide (c.rung ≠ .recon) then (d.dropPeers rid (some cw)).modCw rid cw (fun c => { c with early := false })
        else d.cwLost rid cw .recon

/-- Starting parity reconstruction of a codeword; it waits for busy peers, and fails where a peer cannot be read. -/
def Dev.startRecon (d : Dev) (rid cw : Nat) : Dev :=
  match d.leafRead rid with
  | none => d
  | some r =>
    let had := ((r.cws.get? cw).map (·.early)).getD false
    let d := d.modCw rid cw (fun c => { c with rung := .recon, need := 0 })
    if had then d
    else match d.peersReady r.pua with
      | none => d.cwLost rid cw .recon
      | some l => d.startPeers rid r l [cw]

/-- A rung fails and the next one starts (Table 07-5, R211, R212). A peer's ladder ends with read retry (R213). -/
def Dev.rungFailed (d : Dev) (rid cw : Nat) : Dev :=
  match d.leafRead rid with
  | none => d
  | some r =>
    match r.cws.get? cw with
    | none => d
    | some c =>
      let retries := (d.retryOrder r.pua r.slc).length
      let last := fun (d : Dev) => match r.parent with
        | some p => d.reconFailed p cw
        | none => d.startRecon rid cw
      match c.rung with
      | .hard =>
        let d := d.modCw rid cw (fun c => { c with rung := .soft2, need := 2 })
        if decide (r.cls ≤ 1) && r.parent.isNone && bitOf (d.csrW aLadderCtrl).toNat 1 then
          match d.aroundOk r with
          | none => d
          | some l => (d.modCw rid cw (fun c => { c with early := true })).startPeers rid r l [cw]
        else d
      | .soft2 => d.modCw rid cw (fun c => { c with rung := .soft3, need := 2 })
      | .soft3 => if 0 < retries then d.modCw rid cw (fun c => { c with rung := .retry, need := 1, tries := 0 }) else last d
      | .retry =>
        if c.tries + 1 < retries then d.modCw rid cw (fun c => { c with need := 1, tries := c.tries + 1 }) else last d
      | .recon => d

/-- The tag check of a codeword: 0 passed or not asked, else the reason (R213, R440, R441). -/
def Dev.checkCw (d : Dev) (r : LeafRead) (cw : Nat) (f : Frame) : Nat :=
  match r.parent with
  | some _ =>
    if r.units.any (fun u => u.1 = 1) then 0
    else match d.tc.summ.get? (r.pua + cw) with
      | none => 0
      | some u =>
        match d.nsp u.ns with
        | none => 0
        | some n =>
          if n.keyGen ≠ u.keyGen then 0
          else
            let h := Config.hdrOpen f.tag f.hdr
            d.checkUnit f (r.pua + cw) u.ns (bitsOf h.toNat 31 16) (bitsOf h.toNat 101 64) u.keyGen
  | none =>
    match (r.units.find? (fun u => u.2 = cw)), r.cs.bind (fun c => d.hg.slots.get? c), d.nsp r.ns with
    | some u, some s, some n => d.checkUnit f (r.pua + cw) r.ns s.tenant u.1 n.keyGen
    | _, _, _ => 0

/-- A tag or binding failure is recorded, counted by its reason, and held against the module (R214, R283, R441). -/
def Dev.tagFailed (d : Dev) (pua reason : Nat) : Dev :=
  let s := puaSlot pua
  let d := d.ev evMcTagFail 0 [.num 1 s, .num 8 pua, .num 1 reason]
  let d := d.count aTagReason (8 * (reason - 1)) 8
  if reason = 4 then d
  else d.modLink s (fun l => { l with tagFailAt := d.now :: l.tagFailAt.filter (fun t => d.now < t + 86400000000000) })

/-- A poisoned unit ends the read without reconstruction and stays MAPPED (R215). -/
def Dev.poisonedRead (d : Dev) (rid : Nat) : Dev :=
  match (d.leafRead rid).bind (·.cs) with
  | none => d
  | some cs => d.failCmd cs cqeUnrecovered

/-- A codeword decoded on a rung (R210, R213, R214, R216). -/
def Dev.decoded (d : Dev) (rid cw : Nat) (r : LeafRead) (c : CwSt) (f : Frame) : Dev :=
  let reason := d.checkCw r cw f
  if reason = 0 then
    let d := d.credit c.rung
    let d := if c.rung = .soft3 ∨ c.rung = .retry then d.flagRefresh r.pua else d
    d.serveCw rid cw f
  else
    let d := d.tagFailed (r.pua + cw) reason
    match r.parent with
    | some p => d.reconFailed p cw
    | none =>
      if reason = 4 then d.poisonedRead rid
      else ((d.count aTagFail 0 16).modCw rid cw (fun c => { c with failed := true })).startRecon rid cw

/-- DECODE_DONE (R210): a codeword decode ends. A raw syndrome weight above 4 × sw_skip skips the hard decode (R211). -/
def decodeDone (rid cw : Nat) (x : DecodeIn) (d : Dev) : Dev :=
  match d.leafRead rid with
  | none => d
  | some r =>
    match r.cws.get? cw with
    | none => d
    | some c =>
      let soft := decide (c.rung = .soft2) || decide (c.rung = .soft3)
      let gid := (d.slu.held.find? (fun g => g.2.req.soft)).map (·.1)
      if c.passed || decide (c.rung = .recon) || decide (c.need ≠ 0) || (soft && gid.isNone) then d
      else
        let d := if soft then d.giveBack gid else d
        let skip := decide (c.rung = .hard) && bitOf (d.csrW aLadderCtrl).toNat 0
          && decide (4 * d.reg aLadderCtrl 11 4 < x.sw)
        match x.frame with
        | none => d.rungFailed rid cw
        | some f =>
          if skip then d.rungFailed rid cw
          else
            let d := if c.rung = .retry then d.adoptRetry r.pua r.slc c.tries else d.trackLevels r.pua r.slc x.up x.down
            d.decoded rid cw r c f

/-- RECONSTRUCTION_DONE (R214): every peer of the codeword is resolved and the XOR yields the unit, or fails. -/
def reconstructionDone (rid cw : Nat) (f : Option Frame) (d : Dev) : Dev :=
  match d.leafRead rid with
  | none => d
  | some r =>
    match r.cws.get? cw with
    | none => d
    | some c =>
      let ps := (r.peers.filterMap d.leafRead).filter (fun p => p.cwList.contains cw)
      let ready := !ps.isEmpty && ps.all (fun p => ((p.cws.get? cw).map (·.passed)).getD false)
      if !(decide (c.rung = .recon) || c.early) || c.passed || !ready then d
      else
        match f with
        | none => d.reconFailed rid cw
        | some f =>
          let reason := d.checkCw r cw f
          if reason = 0 then
            let d := d.credit .recon
            let d := if c.failed then (d.count aTagFail 16 16).flagRefresh r.pua else d
            d.serveCw rid cw f
          else
            let d := d.tagFailed (r.pua + cw) reason
            if reason = 4 then d.poisonedRead rid
            else if c.early && decide (c.rung ≠ .recon) then
              (d.dropPeers rid (some cw)).modCw rid cw (fun c => { c with early := false })
            else d.cwLost rid cw .recon

end Sys2Proof.Machine
end

