-- ==== Sys2Proof/Machine/Ring.lean ====
section
/-! DEFINITION. The key ring (R434 to R436, R443, R449): writing a new image, when it is durable, and what waits for it and
for the erasure of the older images. -/

namespace Sys2Proof.Machine

/-- Changing the key ring. -/
def Dev.modRing (d : Dev) (f : Ring → Ring) : Dev := { d with ring := f d.ring }

/-- A new ring image: each Quire that can place a write opens a superblock for it through its metadata Furrow, and the
superblocks of the images before it become older ones (R435). -/
def Dev.newImage (d : Dev) : Dev :=
  let qs := (d.quires.map (fun (x : Nat × Quire) => x.1)).filter (fun (q : Nat) => d.placeable q)
  let d := d.modRing (fun r => { r with seq := r.seq + 1, durable := false, written := [], old := r.old ++ r.cur, cur := [] })
  qs.foldl (fun (d : Dev) (q : Nat) =>
    let (d, s) := d.openSb q true (32 + q)
    match s with
    | some s => d.modRing (fun r => { r with cur := r.cur ++ [(q, s)] })
    | none => d) d

/-- Whether the image in force is programmed on every Quire that took a superblock for it and can still place a write. -/
def Dev.imageDurable (d : Dev) : Bool := d.ring.cur.all (fun (x : Nat × Nat) => d.ring.written.contains x.1 || !(d.placeable x.1))

/-- Releasing a superblock of an older image. -/
def Dev.releaseRing (d : Dev) (q s : Nat) : Dev := d.closeSb q s

/-- Older ring superblocks that have been erased leave the list. -/
def Dev.dropErased (d : Dev) : Dev :=
  d.modRing (fun r => { r with old := r.old.filter (fun (x : Nat × Nat) =>
    let st := (d.sb x.1 x.2).st
    decide (st ≠ .free) && decide (st ≠ .retired)) })

/-- Whether older superblocks of Quires that hold the image in force still await erasure (R443 step 5, R449). -/
def Dev.erasePending (d : Dev) : Bool := d.ring.old.any (fun (x : Nat × Nat) => d.ring.written.contains x.1)

/-- The end of a Sanitize (R447, R448): in failure mode until Exit Failure Mode or a Sanitize that succeeds. -/
def Dev.sanEnd (d : Dev) (ok : Bool) : Dev :=
  { d with san := { d.san with running := false, failure := !ok, status := if ok then 1 else 3 } }

/-- The tiles of the zone group that the zoned namespaces need (R313). -/
def Dev.zoneTiles (d : Dev) : Nat := ceilDiv ((d.tc.nss.filter (fun (x : Nat × Nsp) => decide (x.2.kind = 2))).map (fun (x : Nat × Nsp) => x.2.mar + 1)).sum 1024

/-- Moving tiles to or from the zone group. -/
def Dev.repartZones (d : Dev) : Dev := d.colRepart d.zoneTiles d.col.tg

/-- Formats that have run end, and namespaces that are deleted go with their indexes (R443 step 6). -/
def Dev.keysDone (d : Dev) : Dev :=
  let n := (d.tc.nss.filter (fun (x : Nat × Nsp) => !x.2.deleting)).map (fun (x : Nat × Nsp) => (x.1, { x.2 with formatting := none }))
  { d with tc := { d.tc with nss := n } }.repartZones

/-- What waits for an image that is durable: a Sanitize command or its end at once, a key change when the older superblocks
are erased. -/
def Dev.ringWaits (d : Dev) : Dev :=
  match d.ring.waits with
  | none => d
  | some (.sanitize cs) => (d.modRing (fun r => { r with waits := none })).complete cs cqeOk
  | some (.sanEnd ok) => (d.modRing (fun r => { r with waits := none })).sanEnd ok
  | some (.format cs) | some (.delete cs) =>
    if d.erasePending then d else ((d.modRing (fun r => { r with waits := none })).keysDone).complete cs cqeOk

/-- Settling the ring after a program or an erase: an image that has become durable ends the waits of R436 and releases the
older superblocks of the Quires that hold it. -/
def Dev.ringSettle (d : Dev) : Dev :=
  let d := d.dropErased
  let d := if d.ring.durable || !d.imageDurable then d else d.modRing (fun r => { r with durable := true, pending := [] })
  if d.ring.durable then
    ((d.ring.old.filter (fun (x : Nat × Nat) => d.ring.written.contains x.1)).foldl
      (fun (d : Dev) (x : Nat × Nat) => d.releaseRing x.1 x.2) d).ringWaits
  else d

/-- The image of a sequence number is programmed, with its parity, on a Quire. -/
def Dev.imageWritten (d : Dev) (q seq : Nat) : Dev :=
  if seq = d.ring.seq ∧ d.ring.cur.any (fun (x : Nat × Nat) => decide (x.1 = q)) = true ∧ !(d.ring.written.contains q) = true then
    (d.modRing (fun r => { r with written := r.written ++ [q] })).ringSettle
  else d

end Sys2Proof.Machine
end

