-- ==== Sys2Proof/Machine/OpEnd.lean ====
section
/-! DEFINITION. What the end of a media operation does (R172, R179, R183, R200, R203, R232 to R239, R244 to R253, R271 to
R284): programs that fail are packed again, rows and relocations take effect, dies fail, members are lost, journal hosts
change, and links are quarantined. -/

namespace Sys2Proof.Machine

/-! ### Leaves of an operation -/

/-- The PUAs, unit bits 0, of the leaves that an operation covers. -/
def Dev.opLeaves (d : Dev) (o : OpReq) : List Nat :=
  match d.colo o.slot with
  | none => []
  | some c => (List.range (max 1 o.count)).map (fun i => mkPua o.slot ((c.dies * o.block + o.die) * c.bq + o.page + i) 0)

/-- Packing again the units of a Furrow that an operation carried and that are not programmed (R172). -/
def Dev.repack (d : Dev) (f : Nat) (leaves : List Nat) : Dev :=
  let l := (d.furrow f).pack
  let hit := fun (u : Packed) => !u.done && leaves.contains (puaBase u.pua)
  let d := d.modFurrow f (fun x => { x with pack := l.filter (fun u => !(hit u)) })
  (l.filter hit).foldl (fun d u => d.packUnit f u.ns u.iu u.gen u.tag) d

/-- The host Furrow whose units a program carries. -/
def OpReq.furrow (o : OpReq) : Option Nat :=
  match o.purpose with
  | .hostProg f | .dirtyDrain f => some f
  | _ => none

/-- An operation that ends without effect: its units are packed again; the block of an erase counts as done where its
member is gone. -/
def Dev.opLost (d : Dev) (o : OpReq) : Dev :=
  match o.furrow with
  | some f => if isProg o.kind then d.repack f (d.opLeaves o) else d
  | none =>
    match o.purpose with
    | .sbErase q s => (d.blockErased q s).ringSettle
    | _ => d

/-! ### Rows and slots (R232, R233) -/

/-- The leaves of a Furrow's programmed units in the row after a freed slot's enter a slot of their own. -/
def Dev.nextSlot (d : Dev) (f : Nat) (j : JSlot) : Dev :=
  ((d.furrow f).pack.filter (·.done)).foldl (fun d u =>
    match d.place u.pua with
    | some p => if p.q = j.quire ∧ (p.s ≠ j.sb ∨ p.row = j.row + 1) then d.slotLeaf f p else d
    | none => d) d

/-- Whether a row still holds a valid unit. -/
def Dev.rowValid (d : Dev) (j : JSlot) : Bool :=
  d.tc.summ.any (fun x => match d.place x.1 with
    | some p => decide (p.q = j.quire) && decide (p.s = j.sb) && decide (p.row = j.row)
        && decide (d.mapGet x.2.ns (x.2.iu) = .mapped x.1)
    | none => false)

/-- A slot whose parity program failed is freed once every unit of its row is invalid (R233). -/
def Dev.sweepFailed (d : Dev) : Dev :=
  (d.tc.jslots.filter (fun x => x.2.parityFailed)).foldl (fun d x =>
    if d.rowValid x.2 then d else (d.freeJslot x.1).nextSlot x.1 x.2) d

/-- The row's parity leaf is programmed: its units' map updates are applied and the slot returns to FREE. -/
def Dev.rowDone (d : Dev) (f : Nat) : Dev :=
  match d.tc.jslots.get? f with
  | none => d
  | some j => ((d.applyRow f j (2 ^ (j.width - 1) - 1)).freeJslot f).nextSlot f j |>.furrowDrained f

/-- Its program failed: the block is retired, the slot stays held and the superblock is flagged. -/
def Dev.rowFailed (d : Dev) (f : Nat) : Dev :=
  match d.tc.jslots.get? f with
  | none => d
  | some j =>
    let d := d.applyRow f j (2 ^ (j.width - 1) - 1)
    let d := { d with tc := { d.tc with jslots := d.tc.jslots.ins f { j with parityFailed := true } } }
    if (d.sb j.quire j.sb).flagged then d
    else (d.modSb j.quire j.sb (fun b => { b with flagged := true })).ev evMcRefreshFlag 0 [.num 1 j.quire, .num 4 j.sb]

/-- A mirror write's descriptor page is programmed on a host: the records it lists are on it, and what both hosts cover is
journalled (R234, R237). Each unit of the operation names a Furrow and its written bits. -/
def Dev.mirrorDone (d : Dev) (q slot : Nat) (us : List ProgUnit) : Dev :=
  match d.quire q with
  | none => d
  | some x => us.foldl (fun d u =>
      match d.tc.jslots.get? u.pua with
      | none => d
      | some j =>
        if j.quire ≠ q then d
        else
          let j := if x.hostA = some slot then { j with mirA := u.iu } else if x.hostB = some slot then { j with mirB := u.iu } else j
          let d := { d with tc := { d.tc with jslots := d.tc.jslots.ins u.pua j } }
          (d.count (aSigCnt + 0x10) 0 32).applyRow u.pua j (x.mirrored j)) d

/-! ### Relocation (R179, R245, R252, R253) -/

/-- The Furrow that a kind of relocation writes through (R167): a fold's is the host Furrow being folded. -/
def Dev.moveFurrow (d : Dev) (k : MoveKind) (q : Nat) : Nat :=
  match k with
  | .fold => ((d.quire q).bind (·.folding)).getD (16 + q)
  | _ => q

/-- The 4 KiB unit a zoned PUA's record names, and its zone's size in units. -/
def Dev.zoneUnits (d : Dev) (ns : Nat) : Nat := ((d.nsp ns).map (fun n => 2 ^ n.zoneShift / 4096)).getD 1

/-- Adding one row to the end of an extent list. -/
def addExtent (l : List Extent) (q sb row : Nat) : List Extent :=
  match l.reverse with
  | e :: r => if e.quire = q ∧ e.sb = sb ∧ e.row + e.rows = row then (r.reverse ++ [{ e with rows := e.rows + 1 }]) else l ++ [⟨sb, row, 1, q⟩]
  | [] => [⟨sb, row, 1, q⟩]

/-- A zone's row is folded (R161): its extent list grows by the row, and its units leave the staging. -/
def Dev.zoneRowFolded (d : Dev) (ns zone : Nat) (p : Place) (us : List Packed) : Dev :=
  let per := ((d.nsp ns).map (fun n => lbasPerUnit n.lbaf)).getD 1
  let d := d.putZone ns zone (fun z => { z with extents := addExtent z.extents p.q p.s p.row, folded := z.folded + us.length * per })
  us.foldl (fun d u => (d.mapUnits u.pua 1).unmapUnits u.tag 1) d

/-- A zone moved as a whole (R178): once every folded unit of it has a new place, the extent list is formed anew. -/
def Dev.zoneMoved (d : Dev) (q ns zone : Nat) : Dev :=
  let zu := d.zoneUnits ns
  let per := ((d.nsp ns).map (fun n => lbasPerUnit n.lbaf)).getD 1
  let n := (d.zone ns zone).folded / per
  let mine := (d.furrow q).staged.filter (fun u => decide (u.ns = ns) && decide (u.iu / zu = zone))
  if mine.length < n ∨ n = 0 then d
  else
    let ext := (List.range n).foldl (fun l i =>
      match mine.find? (fun u => u.iu % zu = i) with
      | none => l
      | some u => match d.place u.pua with
        | none => l
        | some p => match l.reverse with
          | e :: _ => if e.quire = p.q ∧ e.sb = p.s ∧ e.row ≤ p.row ∧ p.row < e.row + e.rows then l else addExtent l p.q p.s p.row
          | [] => addExtent l p.q p.s p.row) []
    let d := d.putZone ns zone (fun z => { z with extents := ext, foldPend := false })
    let d := mine.foldl (fun d u => (d.mapUnits u.pua 1).unmapUnits u.src 1) d
    d.modFurrow q (fun x => { x with staged := x.staged.filter (fun u => !(decide (u.ns = ns) && decide (u.iu / zu = zone))) })

/-- A relocated row's parity is programmed: each copy's map update is a compare-and-swap, after its MAP_RUN; the copies of
a zone wait for the rest of it. -/
def Dev.moveRowDone (d : Dev) (k : MoveKind) (q : Nat) (p : Place) : Dev :=
  let f := d.moveFurrow k q
  let here := fun (u : Packed) => u.done && (match d.place u.pua with
    | some y => decide (y.q = p.q) && decide (y.s = p.s) && decide (y.row = p.row)
    | none => false)
  let us := (d.furrow f).pack.filter here
  let d := d.modFurrow f (fun x => { x with pack := x.pack.filter (fun u => !(here u)) })
  let d := d.modSb p.q p.s (fun b => { b with written := b.written + us.length })
  let zoned := fun (u : Packed) => decide (((d.nsp u.ns).map (·.kind)).getD 0 = 2)
  let kg := fun (u : Packed) => ((d.tc.summ.get? u.tag).map (·.keyGen)).getD (((d.nsp u.ns).map (·.keyGen)).getD 0)
  let d := us.foldl (fun d u => d.summPut u.pua ⟨u.ns, u.iu, u.gen, kg u⟩) d
  let d := (us.filter (fun u => !(zoned u))).foldl (fun d u => d.mapCas u.ns u.iu u.tag u.pua) d
  let zs := us.filter zoned
  let d := match k, zs with
    | .fold, u :: _ => d.zoneRowFolded u.ns (u.iu / d.zoneUnits u.ns) p zs
    | _, [] => d
    | _, u :: _ =>
      let d := d.modFurrow f (fun x => { x with staged := x.staged ++ zs.map (fun (u : Packed) => (⟨u.pua, u.ns, u.iu, u.gen, kg u, u.tag⟩ : ProgUnit)) })
      (zs.map (fun (u : Packed) => u.iu / d.zoneUnits u.ns)).dedup.foldl (fun d z => d.zoneMoved f u.ns z) d
  let d := if k = .fold then
      let tags := us.map (·.tag)
      d.modFurrow f (fun x => { x with
        staged := x.staged.filter (fun u => !(tags.contains u.pua)), unitsFolded := sat 32 (x.unitsFolded + us.length) })
        |>.modQuire q (fun y => if (d.furrow f).staged.all (fun u => tags.contains u.pua) then { y with folding := none } else y)
    else d
  let rows := ((d.quire p.q).map (fun (x : Quire) => dataRows (x.rows false))).getD 0
  let d := if rows ≤ p.row then (d.closeSb p.q p.s).modFurrow f (fun x => if x.qlcSb = some p.s then { x with qlcSb := none, qlcRow := 0 } else x)
    else d.modFurrow f (fun x => { x with qlcRow := max x.qlcRow (p.row + 1) })
  d.furrowDrained f

/-- The superblocks that a Quire's work has yet to relocate. -/
def Dev.toRelocate (d : Dev) (q : Nat) (x : Quire) (w : Work) : List Nat :=
  ((d.sbsOf q).filter (fun y => decide (0 < y.2.valid) && (match w with
    | .rebuild | .recovery => decide (0 < x.lostOn y.2)
    | .respread => decide (y.2.members.length < x.presentWidth)
    | .release m => y.2.members.contains m))).map (·.1)

/-- The units of valid data in a Quire, and whether `w` members of it can hold them beside gc_reserve (R245). -/
def Dev.validUnits (d : Dev) (q : Nat) : Nat := ((d.sbsOf q).map (·.2.valid)).sum
def Dev.canHold (d : Dev) (q : Nat) (x : Quire) (w : Nat) : Bool :=
  decide (3 ≤ w) && decide (d.validUnits q + x.gcReserve * x.sbUnits false w ≤ (d.qTotal x - d.slcPool x) * x.sbUnits false w)

/-- Starting a Quire's work. -/
def Dev.startWork (d : Dev) (q : Nat) (w : Work) : Dev :=
  match d.quire q with
  | none => d
  | some x =>
    let n := (d.toRelocate q x w).length
    (d.modQuire q (fun x => { x with work := some w, workSince := d.now, workDone := 0, workTotal := n, due := false, held := false })).quireConds

/-- A re-spread starts where a member waits for it and nothing else runs (R252). -/
def Dev.respreadIfWaiting (d : Dev) (q : Nat) : Dev :=
  match d.quire q with
  | none => d
  | some x => if x.work.isNone && x.autoRespread && x.anyIn .joining && bitOf (d.csrW aSigCtrl).toNat 2 then d.startWork q .respread else d

/-- A Quire's work ends, or shows its progress at every whole percent (R245, R246, R252, R253). -/
def Dev.workProgress (d : Dev) (q : Nat) : Dev :=
  match d.quire q with
  | none => d
  | some x =>
    match x.work with
    | none => d
    | some w =>
      let left := d.toRelocate q x w
      if left.isEmpty then
        let clear := d.modQuire q (fun x => { x with work := none, workDone := x.workTotal })
        match w with
        | .rebuild | .recovery =>
          let d := clear.ev evSigRebuildDone q [.num 8 (d.now - x.workSince)]
          let d := d.modQuire q (fun y => { y with held := y.anyIn .lost && !(d.canHold q y (y.presentWidth - 1)) })
          ((d.aenAll (aeVendor 1)).quireConds).respreadIfWaiting q
        | .respread =>
          let d := clear.modQuire q (fun x => { x with members := x.members.map (fun m => (m.1, if m.2.st = .joining then { m.2 with st := .active } else m.2)) })
          (d.ev evSigRespreadDone q []).quireConds
        | .release m => ((clear.modQuire q (fun x => x.modMember m (fun y => { y with st := .released }))).ev evSigMemberReleased q []).quireConds
      else
        let done := x.workTotal - left.length
        if x.workDone < done then
          let d := d.modQuire q (fun x => { x with workDone := done })
          if 100 * x.workDone / x.workTotal < 100 * done / x.workTotal then
            d.ev evSigRebuildProgress q [.num 4 (((d.sbsOf q).map (·.1)).getLast?.getD 0)]
          else d
        else d

/-! ### Journal hosts (R236, R239) -/

/-- Whether a Gathering may be a host of a Quire. -/
def Dev.hostEligible (d : Dev) (q s : Nat) : Bool :=
  let x := d.slot s
  x.present && (decide (x.outcome = 1) || decide (x.outcome = 2)) && x.admitted && decide ((d.link s).st ≠ .quarantine)
  && decide ((d.link s).st ≠ .disabled)
  && !(d.quires.any (fun y => y.2.members.any (fun m => decide (m.2.slot = some s) && (decide (m.2.st = .releasing)
      || (decide (y.1 = q) && decide (m.2.st ≠ .lost) && decide (m.2.st ≠ .released))))))

/-- The host preferred beside `other`: another GL domain, then the fewest Quires hosted, then the lowest slot. -/
def Dev.chooseHost (d : Dev) (q : Nat) (other : Option Nat) : Option Nat :=
  let ok := (List.range 64).filter (fun s => d.hostEligible q s && decide (some s ≠ other))
  let cost := fun s => (match other with
    | some o => bit (decide (glDom s = glDom o))
    | none => 0, (d.hostOf s).length)
  ok.foldl (fun b s =>
    match b with
    | none => some s
    | some t =>
      let (a1, a2) := cost s
      let (b1, b2) := cost t
      if a1 < b1 ∨ (a1 = b1 ∧ a2 < b2) then some s else some t) none

/-- Replacing host A or B of a Quire: the copies on the old one are gone, and the new one has yet to be written. -/
def Dev.replaceHost (d : Dev) (q : Nat) (isA : Bool) : Dev :=
  match d.quire q with
  | none => d
  | some x =>
    let n := d.chooseHost q (if isA then x.hostB else x.hostA)
    let d := d.modQuire q (fun x => if isA then { x with hostA := n } else { x with hostB := n })
    let d := { d with tc := { d.tc with jslots := d.tc.jslots.map (fun (j : Nat × JSlot) =>
      (j.1, if j.2.quire = q then (if isA then { j.2 with mirA := 0 } else { j.2 with mirB := 0 }) else j.2)) } }
    match n with
    | some _ => (d.count (aSigCnt + 0x14) 0 32).ev evSigJhostChange q []
    | none => d.ev evSigJhostSingle q []

/-- A journal host is lost, quarantined or released. -/
def Dev.hostLost (d : Dev) (s : Nat) : Dev :=
  (d.hostOf s).foldl (fun d q => d.replaceHost q (decide (((d.quire q).bind (·.hostA)) = some s))) d

/-! ### Ending a slot's or a die's operations -/

/-- A die with nothing held and nothing queued. -/
def Die.emptied (x : Die) : Die := { x with hold := none, susp := false, susTag := none, batch := 0, reads := [], suspends := 0, refused := false }

/-- The reads that lose a die are decided again: a read-around that reads it is abandoned, and a reconstruction fails
(R205, R213, R244, R277). -/
def Dev.redirectReads (d : Dev) (s : Nat) (k : Option Nat) : Dev :=
  let at' := fun (r : LeafRead) => r.walked && decide (puaSlot r.pua = s)
    && (match k with
      | none => true
      | some k => decide (d.dieOfPua r.pua = k))
  let l := d.rp.reads.filter (fun x => at' x.2)
  let own := (l.filter (fun x => x.2.parent.isNone && decide (x.2.path ≠ .around))).map (·.1)
  let peers := l.filter (fun x => x.2.parent.isSome)
  let d := own.foldl (fun d n => d.decideAgain n (fun r => r)) d
  peers.foldl (fun d x => x.2.cwList.foldl (fun d c => if (d.leafRead x.1).isSome then d.reconFailed (x.2.parent.getD 0) c else d) d) d

/-- Ending every operation outstanding at a slot, or at one of its dies, without effect. -/
def Dev.endOps (d : Dev) (s : Nat) (k : Option Nat) : Dev :=
  let hit := fun (t : TagEnt) => match k with
    | none => true
    | some k => decide (t.op.die = k)
  let l := (d.link s).tags.filter (fun x => hit x.2)
  let d := l.foldl (fun d x => d.freeTag s x.1) d
  let ks := match k with
    | none => List.range (d.diesOf s)
    | some k => [k]
  let d := ks.foldl (fun d k => d.modDie s k Die.emptied) d
  let d := match k with
    | none => d.dropSlotGrants s
    | some _ => l.foldl (fun d x => d.giveBack x.2.gid) d
  l.foldl (fun d x => d.opLost x.2.op) d

/-! ### Lost members (R244, R248 to R250) -/

/-- Closing every open superblock that includes a member; its Furrows open the next over the present members. -/
def Dev.closeOver (d : Dev) (q m : Nat) : Dev :=
  (d.tc.furrows.filter (fun x => x.2.quire = q)).foldl (fun d x =>
    let hit := fun (o : Option Nat) => match o with
      | some s => (d.sb q s).members.contains m
      | none => false
    let d := if hit x.2.slcSb then
        (d.closeSb q (x.2.slcSb.getD 0)).modFurrow x.1 (fun f => { f with slcSb := none, slcRow := 0, nextUnit := 0 }) else d
    if hit x.2.qlcSb then (d.closeSb q (x.2.qlcSb.getD 0)).modFurrow x.1 (fun f => { f with qlcSb := none, qlcRow := 0 }) else d) d

/-- The units of rows with two LOST members that the map still points to, on a LOST member's leaf, are lost (R248, R249). -/
def Dev.loseDouble (d : Dev) (q : Nat) : Dev :=
  match d.quire q with
  | none => d
  | some x =>
    let gone := d.tc.summ.filter (fun y => match d.place y.1 with
      | some p => decide (p.q = q) && decide (x.memSt p.m = .lost) && decide (2 ≤ x.lostOn (d.sb p.q p.s))
          && decide (d.walk y.2.ns (y.2.iu * d.iuUnits y.2.ns) = .mapped y.1)
      | none => false)
    gone.foldl (fun d y => ((d.count (aSigCnt + 0xC) 0 32).loseIu y.2.ns y.2.iu).modQuire q (fun x => { x with lostUnits := x.lostUnits + 1 })) d

/-- A member is declared LOST. -/
def Dev.memberLost (d : Dev) (s : Nat) : Dev :=
  match d.memberAt s true with
  | none => d
  | some (q, m) =>
    let before := d.quireState q
    let d := d.modQuire q (fun x => { (x.modMember m (fun y => { y with st := .lost })) with
      work := match x.work with
        | some .rebuild | some .recovery => some .recovery
        | _ => none
      due := x.due || !x.lossWork })
    let d := ((d.ev evSigMemberLost q []).aenAll (aeVendor 3)).appendBcol 3 (d.slot s).outcome 0 s
      (((d.colo s).map (fun c => leBytes 16 c.serial.toNat)).getD []) []
    let d := ((d.closeOver q m).endOps s none).redirectReads s none
    let d := d.loseDouble q
    let d := d.quireConds
    if before ≠ 4 ∧ d.quireState q = 4 then d.aenAll (aeVendor 0) else d

/-! ### Failed dies (R277) -/

/-- A slot is powered off and its link DISABLED (R288): GPWREN deasserted, GRST_N asserted, the session secret gone. -/
def Dev.slotDown (d : Dev) (s : Nat) : Dev :=
  let d := d.modSt s (fun x => { x with pwren := false, rst := true, pulse := false, reading := false })
  (d.linkDisable s true).modLink s (fun l => { l with session := none, auth := 0, authStep := 0, tags := [] })

/-- Quarantine (R284), with the reason of Table 09-12. -/
def Dev.quarantine (d : Dev) (s reason : Nat) : Dev :=
  if (d.link s).st = .quarantine then d
  else
    let serial := ((d.colo s).map (fun c => leBytes 16 c.serial.toNat)).getD []
    let member := (d.memberAt s true).isSome
    let d := (d.endOps s none).slotDown s
    let d := d.modLink s (fun l => { l with st := .quarantine, quar := reason, width := 0, since := d.now })
    let d := d.modSt s (fun x => { x with blocked := true, admitted := false, inserting := false })
    let d := (d.memberLost s).hostLost s
    let d := d.ev evGlQuarantine (s / 8) [.num 1 s, .num 1 reason, .str serial]
    if member then d else d.aenAll (aeVendor 3)

/-- A die is declared failed. -/
def Dev.dieFailed (d : Dev) (s k : Nat) : Dev :=
  if (d.die s k).failed then d
  else
    let d := d.modDie s k (fun x => { x with failed := true })
    let d := d.ev evGlDieFailed (s / 8) [.num 1 s, .num 1 k]
    let d := (d.endOps s (some k)).redirectReads s (some k)
    let d := match d.memberAt s true with
      | none => d
      | some (q, m) =>
        match (d.quire q).bind (fun x => (x.members.get? m).map (fun y => (x, y))) with
        | none => d
        | some (x, _) =>
          let sbs : List (Nat × Superblock) := (d.sbsOf q).filter (fun (y : Nat × Superblock) => decide (y.1 % x.dies = k) && y.2.members.contains m)
          let d := d.modQuire q (fun x => { x with spares := x.spares.put 0 (dieKey s k) 0 })
          sbs.foldl (fun (d : Dev) (y : Nat × Superblock) =>
            let d := if y.2.flagged ∨ y.2.valid = 0 then d
              else (d.modSb q y.1 (fun b => { b with flagged := true })).ev evMcRefreshFlag 0 [.num 1 q, .num 4 y.1]
            d.retireBlock s k (y.1 / x.dies) 1) d
    let d := d.modLink s (fun l => { l with diesFailed := k :: l.diesFailed })
    let thr := d.reg aGlCtrl 23 16
    if thr ≤ (d.link s).diesFailed.length then d.quarantine s 5 else d

/-! ### The end of an operation (R271) -/

/-- strict_active rises once every die position of a Strict Quire holds at most one grant (R207). -/
def Dev.strictCheck (d : Dev) (q : Nat) : Dev :=
  match d.quire q with
  | none => d
  | some x =>
    if !x.strict || x.active then d
    else
      let mine := d.slu.held.filter (fun g => isBusyOp g.2.req.kind && g.2.req.onSlot
        && decide (((d.memberAt g.2.req.slot true).map (·.1)) = some q))
      if distinct (mine.map (fun g => g.2.req.die)) then
        (d.modQuire q (fun x => { x with active := true })).ev evGlStrictActive 0 [.num 1 q]
      else d

/-- Dropping the records at the front of the ring that are programmed and older than a capture (R176). -/
def trimJrnl (programmed cap : Nat) : List JRec → List JRec
  | [] => []
  | r :: l => if seqBelow r.seq cap && seqBelow r.seq programmed then trimJrnl programmed cap l else r :: l

/-- The number of checkpoint segments: 64 MiB of map each (R176). -/
def Dev.segCount (d : Dev) : Nat := max 1 (ceilDiv d.mapUsed (2 ^ 26))

/-- The oldest capture of the segments; none while one has never been written. -/
def Dev.oldestCapture (d : Dev) : Option (Nat × Nat) :=
  (List.range d.segCount).foldl (fun (b : Option (Nat × Nat)) i =>
    match b, d.tc.segs.get? i with
    | none, _ => b
    | some _, none => none
    | some (j, c), some c' => if seqBelow c' c then some (i, c') else some (j, c)) ((d.tc.segs.get? 0).map (fun c => (0, c)))

/-- A checkpoint segment is written: CHECKPOINT is appended, and the ring is kept back to the oldest capture. -/
def Dev.segDone (d : Dev) (i c : Nat) : Dev :=
  let d := d.jrnl (.checkpoint i c)
  let d := { d with tc := { d.tc with segs := d.tc.segs.ins i c, segBusy := none } }
  match d.oldestCapture with
  | some (_, c) => { d with tc := { d.tc with jrnl := trimJrnl d.tc.programmed c d.tc.jrnl } }
  | none => d

/-- A metadata program names its object in its first unit's `gen`: 0 the journal ring up to `iu` (R175), 1 the last program
of the checkpoint segment `iu` (R176), 2 the last program of the ring image `iu` (R435), others superblock tables and saved
features. -/
def Dev.metaDone (d : Dev) (q : Nat) (us : List ProgUnit) : Dev :=
  match us with
  | [] => d
  | u :: _ =>
    if u.gen = 0 then
      if seqBelow d.tc.programmed u.iu && !(seqBelow d.tc.head u.iu) then { d with tc := { d.tc with programmed := u.iu } } else d
    else if u.gen = 1 then
      match d.tc.segBusy with
      | some (i, c) => if i = u.iu then d.segDone i c else d
      | none => d
    else if u.gen = 2 then d.imageWritten q u.iu
    else d

/-- Pages of a journal region are written: a descriptor page lists its records there (R237). -/
def Dev.regionWritten (d : Dev) (o : OpReq) (recs : List (Nat × Nat)) : Dev :=
  let k := blockKey o.slot o.die o.block
  let r := (d.tc.regions.get? k).getD ⟨0, (d.tc.regions.map (·.2.first)).foldl max 0 + 1, []⟩
  { d with tc := { d.tc with regions := d.tc.regions.ins k { r with used := r.used + max 1 o.count, recs := r.recs ++ recs } } }

/-- What a successful program or erase does, by its purpose. -/
def Dev.busyOk (d : Dev) (o : OpReq) : Dev :=
  match o.purpose with
  | .hostProg f | .dirtyDrain f =>
    let l := d.opLeaves o
    let d := d.modFurrow f (fun x => { x with pack := x.pack.map (fun u => if l.contains (puaBase u.pua) then { u with done := true } else u) })
    l.foldl (fun d u => match d.place u with
      | some p => (d.modSb p.q p.s (fun b => { b with written := b.written + 4 })).slotLeaf f p
      | none => d) d
  | .rowParity f => d.rowDone f
  | .jmirror q =>
    let recs := o.units.filterMap (fun u => (d.tc.jslots.get? u.pua).map (fun j => (u.pua, j.jseq)))
    (d.regionWritten o recs).mirrorDone q o.slot o.units
  | .jregion =>
    if o.kind = .erase then { d with tc := { d.tc with regions := d.tc.regions.del (blockKey o.slot o.die o.block) } }
    else d.regionWritten o []
  | .move k q =>
    let f := d.moveFurrow k q
    d.modFurrow f (fun x => { x with pack := x.pack ++ o.units.map (fun u => ⟨u.pua, u.ns, u.iu, u.gen, u.src, true⟩) })
  | .moveParity k q =>
    let d := (d.opLeaves o).foldl (fun d u => match d.place u with
      | some p => d.moveRowDone k q p
      | none => d) d
    d.workProgress q
  | .metadata q => d.metaDone q o.units
  | .sbErase q s => (d.blockErased q s).ringSettle
  | _ => d

/-- What a failed one does (R172, R183, R233). -/
def Dev.busyFailed (d : Dev) (o : OpReq) : Dev :=
  let d := d.retireBlock o.slot o.die o.block (if o.kind = .erase then 2 else 1)
  match o.purpose with
  | .rowParity f => d.rowFailed f
  | _ => d.opLost o

/-- A completed operation counts towards its die's warmth (R221) and its predictor (R194), and is slow if it took longer
than declared (R276). -/
def Dev.opSample (d : Dev) (s : Nat) (t : TagEnt) (c : Cpl) : Dev :=
  let k := t.op.die
  let i := opIdx t.op.kind
  let limit := ((d.colo s).map (fun x => 10 * (x.times i).2)).getD 0
  let d := if limit < c.busy ∧ (isRead t.op.kind ∨ isBusyOp t.op.kind) then d.countLink s 0x14 0 3 else d
  let d := if isRead t.op.kind ∨ isBusyOp t.op.kind ∨ t.op.kind = .suspend then d.learn s k i c.busy t.issued else d
  let d := d.modDie s k (fun x => { x with done := x.done + 1, firstAt := some (x.firstAt.getD t.issued), acceptAt := d.now })
  if 10000 ≤ (d.die s k).done then d.warmDie s k else d

/-- A read's senses are in: its codewords' rungs wait for one sense less, fail, or the read is decided again (Table
09-10). -/
def Dev.readEnded (d : Dev) (t : TagEnt) (st : Nat) : Dev :=
  match t.op.rid with
  | none => d
  | some n =>
    match d.leafRead n with
    | none => d
    | some r =>
      let fits := fun (g : Rung) => match t.op.purpose with
        | .softSense _ => decide (g = .soft2) || decide (g = .soft3)
        | .readRetry _ => decide (g = .retry)
        | _ => decide (g = .hard)
      let cws := (r.cws.filter (fun c => bitOf t.op.cwMask c.1 && fits c.2.rung && decide (0 < c.2.need) && !c.2.passed)).map (·.1)
      if st = 0 then cws.foldl (fun d c => d.modCw n c (fun x => { x with need := x.need - 1 })) d
      else if st = 8 then cws.foldl (fun d c => d.rungFailed n c) d
      else if r.parent.isSome then
        (d.modRead n (fun r => { r with issued := false })).queueRead t.op.slot t.op.die (d.ordOf r) (some n) r.deadline.isSome r.slc
      else d.decideAgain n (fun r => r)

/-- The answer to a SUSPEND or RESUME (R200, R203). -/
def Dev.suspendEnded (d : Dev) (s k st : Nat) : Dev :=
  let asked := d.readsAt s k (fun r => decide (r.path = .suspend) && !r.issued)
  if st = 0 then
    d.modDie s k (fun x => { x with susp := x.hold.isSome, susTag := none, susAt := d.now, batch := 0, suspends := x.suspends + 1
                                    ranNs := x.ranNs + (d.now - x.runAt) })
  else if st = 3 then
    let d := (d.modDie s k (fun x => { x with susTag := none, refused := true })).ev evGlSuspendRefused (s / 8) [.num 1 s, .num 1 k]
    asked.foldl (fun d n => d.decideAgain n (fun r => { r with noSuspend := true })) d
  else
    (d.modDie s k (fun x => { x with susTag := none }))

/-- An erase ended by RESET_DIE: its block is erased again before use, so its superblock waits at the gate again (R180,
R205, Table 14-7). -/
def Dev.eraseUndone (d : Dev) (o : OpReq) : Dev :=
  match o.purpose with
  | .sbErase q s => d.modSb q s (fun b => if b.st = .erasing then { b with st := .released } else b)
  | _ => d

/-- RESET_DIE has completed: the erase that the die held is ended, its tag freed and its grant returned. -/
def Dev.resetEnded (d : Dev) (s k : Nat) : Dev :=
  match (d.die s k).hold with
  | none => d
  | some t =>
    let d := d.modDie s k (fun x => { x with hold := none, susp := false, susTag := none, suspends := 0, refused := false, batch := 0 })
    match d.tagEnt s t with
    | none => d
    | some e => ((d.freeTag s t).giveBack e.gid).eraseUndone e.op

/-- An operation's completion and all its data are in (R271, R272): its tag is freed, its status acted on, and its grant
returned (R375). -/
def Dev.opEnded (d : Dev) (s tag : Nat) (t : TagEnt) (c : Cpl) : Dev :=
  let k := t.op.die
  let d := (d.freeTag s tag).opSample s t c
  let d :=
    if c.status = 6 then (d.dieFailed s k).giveBack t.gid
    else
      match t.op.kind with
      | .readQlc | .readSlc =>
        let d := d.modDie s k (fun x => { x with reads := x.reads.filter (fun r => r.tag ≠ some tag) })
        (d.giveBack t.gid).readEnded t c.status
      | .progQlc | .progSlc | .erase =>
        let d := d.modDie s k (fun x => if x.hold = some tag then { x with hold := none, susp := false, suspends := 0, refused := false } else x)
        let d := d.giveBack t.gid
        if c.status = 0 then d.busyOk t.op else if c.status = 9 then d.eraseUndone t.op else d.busyFailed t.op
      | .suspend => d.suspendEnded s k c.status
      | .resume => d.modDie s k (fun x => { x with susp := false, susTag := none, runAt := d.now, refused := false, batch := 0 })
      | .status => if c.dieState = 5 then d.dieFailed s k else d
      | .resetDie => d.resetEnded s k
  let d := d.sweepFailed.dieNext s k
  match d.memberAt s true with
  | some (q, _) => d.strictCheck q
  | none => d

end Sys2Proof.Machine
end

