-- ==== Sys2Proof/Machine/Slots.lean ====
section
/-! DEFINITION. Module slots (R285 to R310, R386, R387): power and reset, insertion and removal, colophon validation and
admission, joining a Quire, monitors, module weirs, alerts and the sideband buses. -/

namespace Sys2Proof.Machine

/-! ### Slot power (R286, R288, R291) -/

/-- The sideband bus of a slot. -/
def busOf (s : Nat) : Nat := s / 8

/-- Powering a slot on: GPWREN asserted with GRST_N held, and its GL domain powered. -/
def Dev.slotUp (d : Dev) (s : Nat) : Dev :=
  if (d.slot s).blocked || (d.slot s).pwren then d
  else (d.modSt s (fun x => { x with pwren := true, rst := true })).demand (glDom s)

/-- Powering every present slot to match the accepted Imposition, or off without one. -/
def Dev.powerSlots (d : Dev) : Dev :=
  (List.range 64).foldl (fun d s =>
    if d.slotEnabled s && (d.slot s).present then d.slotUp s
    else if (d.slot s).pwren then d.slotDown s else d) d

/-- What a slot's module was leaves with it. -/
def SlotSt.forget (x : SlotSt) : SlotSt := { SlotSt.reset with
  present := x.present, blocked := x.blocked, cycled := x.cycled, outcome := x.outcome, check := x.check, colo := x.colo
  validated := x.validated, alertMasked := x.alertMasked && x.present }

/-- A slot whose module is gone for the Quires: its member is LOST, its host duties move, and it is powered off. -/
def Dev.slotGone (d : Dev) (s : Nat) : Dev :=
  let was := (d.slot s).admitted
  let member := (d.memberAt s true).isSome
  let d := d.endOps s none
  let d := (d.memberLost s).hostLost s
  let d := if was && !member then
      (d.aenAll (aeVendor 3)).appendBcol 3 (d.slot s).outcome 0 s (((d.colo s).map (fun c => leBytes 16 c.serial.toNat)).getD []) []
    else d
  (d.slotDown s).modSt s SlotSt.forget

/-! ### The layout section (Table 08-1) -/

/-- The offset of a Quire's record in the layout section. -/
def Dev.layoutRec (d : Dev) (q : Nat) : Option Nat :=
  let b := d.section 2
  ((List.range (fieldAt b 1 1)).map (fun i => 8 + 48 * i)).find? (fun o => fieldAt b o 1 = q)

/-- The Quire and member index that the layout section gives a slot. -/
def Dev.layoutMember (d : Dev) (s : Nat) : Option (Nat × Nat) :=
  let b := d.section 2
  ((List.range (fieldAt b 1 1)).map (fun i => 8 + 48 * i)).findSome? (fun o =>
    let l := recMembers b o
    if l.contains s then some (fieldAt b o 1, l.idxOf s) else none)

/-! ### The inventory (R67) -/

/-- A slot's entry. -/
def Dev.invEntry (d : Dev) (s : Nat) : List Byte :=
  let x := d.slot s
  if !x.present then leBytes 1 s ++ leBytes 1 0 ++ leBytes 1 0xFF ++ List.replicate 77 0
  else
    let c := x.colo.map Colo.mk
    let good := decide (x.outcome = 1) || decide (x.outcome = 2)
    let (q, m) := if good then (d.layoutMember s).getD (0xFF, 0) else (0xFF, 0)
    leBytes 1 s ++ leBytes 1 x.outcome ++ leBytes 1 q ++ leBytes 1 m ++ List.replicate 4 0
    ++ ((c.map (fun c => leBytes 16 c.serial.toNat)).getD (List.replicate 16 0))
    ++ ((c.map (fun c => digestBytes c.digest)).getD (List.replicate 48 0))
    ++ ((c.map (fun c => leBytes 4 c.rawGib)).getD (List.replicate 4 0)) ++ List.replicate 4 0

/-- Whether a slot's colophon is still to be read at ASSEMBLE. -/
def Dev.readsLeft (d : Dev) : Bool := (List.range 64).any (fun s => (d.slot s).reading)

/-- The inventory is measured when the last read finishes (R62). -/
def Dev.measureInv (d : Dev) : Dev :=
  if d.modes.mode = .assemble && !d.readsLeft && d.boot.mInv.isNone then
    let inv := (List.range 64).flatMap d.invEntry
    { d with boot := { d.boot with inv := inv, mInv := some (Config.sha384 inv) } }
  else d

/-- Links are done at ASSEMBLE once every colophon is read and every module that passed is admitted. -/
def Dev.linksSettled (d : Dev) : Dev :=
  if d.modes.mode = .assemble && d.boot.mInv.isSome
      && (List.range 64).all (fun s => !((d.slot s).validated && (d.slot s).pwren) || (d.slot s).admitted) then
    { d with boot := { d.boot with linksDone := true } }
  else d

/-! ### Refusal and admission (R299 to R305, R251) -/

/-- A module refused with an outcome and a check (R303). -/
def Dev.refuseModule (d : Dev) (s outcome check : Nat) : Dev :=
  let serial := (((d.slot s).colo.map Colo.mk).map (fun c => leBytes 16 c.serial.toNat)).getD []
  let d := d.modSt s (fun x => { x with outcome := outcome, check := check, validated := false, reading := false, blocked := true
                                        admitted := false, inserting := false })
  let d := d.ev evGlColophonRefused (s / 8) [.num 1 s, .num 1 outcome, .num 1 check, .str serial]
  let d := (d.endOps s none).slotDown s
  (((d.memberLost s).hostLost s).measureInv).linksSettled

/-- Another present slot with the same serial. -/
def Dev.sameSerial (d : Dev) (s : Nat) (c : Colo) : Option Nat :=
  (List.range 64).find? (fun t => decide (t ≠ s) && (d.slot t).present && (d.slot t).validated
    && decide (((d.colo t).map Colo.serial) = some c.serial))

/-- Check 6: a recorded serial keeps its geometry, and a replacement declares at least its Quire's P and B_q (R304). -/
def Dev.recordOk (d : Dev) (s : Nat) (c : Colo) : Bool :=
  let rec' := d.quires.findSome? (fun q => (q.2.members.find? (fun m => decide (m.2.serial = c.serial)
    && decide (m.2.st ≠ .lost) && decide (m.2.st ≠ .released))).map (·.2))
  match rec' with
  | some m => decide (m.geom = c.geomDigest)
  | none =>
    match (d.layoutMember s).bind (fun x => d.quire x.1) with
    | none => true
    | some q => q.members.isEmpty || (decide (q.dies ≤ c.dies) && decide (q.bq ≤ c.bq))

/-- The module weirs at admission, in 0.25 °C (R386). -/
def Dev.setWeirs (d : Dev) (s : Nat) : Dev :=
  match d.colo s with
  | none => d
  | some c =>
    let b := d.section 7
    let raw := fun (i : Nat) (dflt : Int) =>
      let v := fieldAt b (8 + 4 * s + i) 1
      if b.isEmpty ∨ v = 0x7F then dflt else signed 8 v
    let clamp := fun (lo hi x : Int) => max lo (min hi x)
    let df0 := raw 1 70
    let df := clamp (c.temp 3) (c.temp 4) df0
    let cd0 := raw 2 5
    let cd := clamp (c.temp 5) (c.temp 6) cd0
    let th0 := raw 0 (df - 5)
    let th := clamp (cd + 3) df th0
    let d := d.modSt s (fun x => { x with wThrottle := 4 * th, wDefer := 4 * df, wCold := 4 * cd })
    [(df, df0), (cd, cd0), (th, th0)].foldl (fun d x =>
      if x.1 ≠ x.2 then d.ev evThmWeirClamped 0 [] else d) d

/-- A module takes the index of a LOST or RELEASED member of the Quire whose layout lists its slot (R251). -/
def Dev.joinQuire (d : Dev) (s : Nat) (c : Colo) : Dev :=
  match d.layoutMember s with
  | none => d
  | some (q, m) =>
    match d.quire q with
    | none => d
    | some x =>
      if x.memSt m = .lost ∨ x.memSt m = .released then
        let mem : Member := ⟨.joining, some s, c.serial, c.geomDigest, c.dies, c.bq⟩
        let d := d.modQuire q (fun x => { x with members := x.members.ins m mem, due := x.due || x.held })
        d.quireConds.respreadIfWaiting q
      else d

/-- Journal hosts for the Quires that lack one. -/
def Dev.fillHosts (d : Dev) : Dev :=
  (d.quires.map (·.1)).foldl (fun d q =>
    let d := if ((d.quire q).bind (·.hostA)).isNone && (d.chooseHost q ((d.quire q).bind (·.hostB))).isSome then d.replaceHost q true else d
    if ((d.quire q).bind (·.hostB)).isNone && (d.chooseHost q ((d.quire q).bind (·.hostA))).isSome then d.replaceHost q false else d) d

/-- Admitting a module whose colophon is validated and whose link is ACTIVE and authenticated where it must be (steps 6
and 7 of Table 09-15). -/
def Dev.tryAdmit (d : Dev) (s : Nat) : Dev :=
  let x := d.slot s
  match d.colo s with
  | none => d
  | some c =>
    if !x.validated || x.admitted || !((d.link s).opsOk) then d
    else
      let boot := decide (d.modes.mode = .assemble)
      let d := d.modSt s (fun x => { x with admitted := true, inserting := false, admittedAt := if boot then x.admittedAt else d.now })
      let d := (List.range c.dies).foldl (fun d k => d.modDie s k (fun _ => .reset)) d
      let d := (d.modLink s (fun l => { l with diesFailed := [], tagFailAt := [] })).setWeirs s
      if boot then d.linksSettled
      else
        let d := (d.aenAll (aeVendor 2)).appendBcol 2 x.outcome c.digest s (leBytes 16 c.serial.toNat) []
        (d.joinQuire s c).fillHosts

/-- The checks of Table 10-3 but the exchange of check 8: none when they pass with an outcome, else outcome and check. -/
def Dev.judgeColo (d : Dev) (s : Nat) (c : Colo) : Nat × Nat :=
  if !c.headOk || !c.crcOk then (4, 2)
  else if !c.fieldsOk then (4, 3)
  else if (d.sameSerial s c).isSome then (3, 4)
  else if c.signed && !c.sigOk then (3, 5)
  else if !d.recordOk s c then (3, 6)
  else
    let o := c.trust (d.section 6)
    if o = 3 then (3, 7) else (o, 0)

/-- COLOPHON_READ_DONE (R294, R299): the bytes read are judged; a crc failure is read once more before it counts. -/
def colophonReadDone (s : Nat) (bytes : Option (List Byte)) (d : Dev) : Dev :=
  let x := d.slot s
  if !x.reading then d
  else
    match bytes with
    | none => d.refuseModule s 4 1
    | some b =>
      let c : Colo := ⟨b⟩
      if b.length ≠ 5248 then d.refuseModule s 4 1
      else if c.headOk && !c.crcOk && !x.crcAgain then d.modSt s (fun x => { x with crcAgain := true })
      else
        let d := d.modSt s (fun x => { x with colo := some b, crcAgain := false })
        let (o, k) := d.judgeColo s c
        if k = 0 then
          let d := d.modSt s (fun x => { x with reading := false, validated := true, outcome := o, check := 0 })
          let d := if (d.link s).st = .active then d.linkAuth s else d
          (d.measureInv.tryAdmit s).linksSettled
        else
          let twin := d.sameSerial s c
          let d := if k = 4 then d.ev evGlSerialDuplicate (s / 8) [] else d
          let d := match twin with
            | some t => if k = 4 ∧ d.modes.mode = Mode.assemble then d.refuseModule t 3 4 else d
            | none => d
          d.refuseModule s o k

def execColophonReadDone (slot : Nat) (bytes : Option (List Byte)) (s : State) : Host.Outcome State Fault Refusal :=
  .next (s.onDev (colophonReadDone slot bytes))

/-- COLOPHON_READ_RETRY (R294): the bridge has or has not answered; 100 ms after GRST_N deassertion without an answer the
read has failed. -/
def colophonReadRetry (s : Nat) (answered : Bool) (d : Dev) : Dev :=
  let x := d.slot s
  if x.reading && !answered && decide (x.releasedAt + 100000000 ≤ d.now) then d.refuseModule s 4 1 else d

def execColophonReadRetry (slot : Nat) (answered : Bool) (s : State) : Host.Outcome State Fault Refusal :=
  .next (s.onDev (colophonReadRetry slot answered))

/-! ### Slot commands -/

/-- Whether a slot may not be touched: a member that serves, a journal host, or quarantined. -/
def Dev.slotHeld (d : Dev) (s : Nat) : Bool :=
  (d.memberAt s true).isSome || !(d.hostOf s).isEmpty || decide ((d.link s).st = .quarantine)

/-- The refusal of a sideband command, and its carrying out (GL_SB_CMD). -/
def Dev.sbCmd (d : Dev) (s : Nat) (f : Dev → Dev) : Dev :=
  let r := if !((d.slot s).present && d.slotEnabled s) then 2 else if d.slotHeld s then 1 else 0
  let d := { d with gl := { d.gl with sbResult := r } }
  if r = 0 then f d else d

/-- SLOT_POWER_ON (R291). -/
def slotPowerOn (s : Nat) (d : Dev) : Dev := if s < 64 then d.sbCmd s (fun d => d.slotUp s) else d
def execSlotPowerOn (slot : Nat) (s : State) : Host.Outcome State Fault Refusal := .next (s.onDev (slotPowerOn slot))

/-- SLOT_POWER_OFF (R291). -/
def slotPowerOff (s : Nat) (d : Dev) : Dev := if s < 64 then d.sbCmd s (fun d => d.slotGone s) else d
def execSlotPowerOff (slot : Nat) (s : State) : Host.Outcome State Fault Refusal := .next (s.onDev (slotPowerOff slot))

/-- SLOT_RESET_PULSE (R281, R291): GRST_N is asserted for 10 ms and the session secret is discarded. -/
def slotResetPulse (s : Nat) (d : Dev) : Dev :=
  if s < 64 then d.sbCmd s (fun d =>
    let d := (d.endOps s none).linkDisable s false
    (d.modLink s (fun l => { l with session := none, auth := 0, authStep := 0, tags := [] })).modSt s (fun x => { x with rst := true, pulse := true, admitted := false }))
  else d
def execSlotResetPulse (slot : Nat) (s : State) : Host.Outcome State Fault Refusal := .next (s.onDev (slotResetPulse slot))

/-- SLOT_RESET_RELEASE_TIMER (R286, R287): GRST_N is deasserted; the colophon of a module inserted at runtime is read and
its link starts. -/
def slotResetRelease (s : Nat) (d : Dev) : Dev :=
  let x := d.slot s
  if x.pwren && x.rst then
    (d.modSt s (fun x => { x with rst := false, pulse := false, releasedAt := d.now, reading := x.reading || x.inserting })).linkEnable s
  else d
def execSlotResetReleaseTimer (slot : Nat) (s : State) : Host.Outcome State Fault Refusal :=
  .next (s.onDev (slotResetRelease slot))

/-- A debounced change of presence (GL_SB_CHG). -/
def Dev.presenceChanged (d : Dev) (s : Nat) (v : Bool) : Dev :=
  let d := d.modSt s (fun x => { x with present := v })
  { d with gl := { d.gl with changed := d.gl.changed ||| BitVec.ofNat 64 (2 ^ s) } }

/-- Steps 2 on of Table 09-15. -/
def Dev.startInsertion (d : Dev) (s : Nat) : Dev :=
  if !(d.slotEnabled s) then d.ev evGlSlotDisabled (s / 8) [.num 1 s] |>.modSt s (fun x => { x with outcome := 6 })
  else if (d.slot s).blocked then d
  else
    let d := d.modSt s (fun x => { x with inserting := true })
    if bitOf d.gl.busFailed.toNat (busOf s) || bitOf d.gl.busStuck.toNat (busOf s) then d else d.slotUp s

/-- SLOT_INSERTION (R287, R289): presence is accepted; at runtime the insertion goes on, in IDLE after its exit. -/
def slotInsertion (s : Nat) (d : Dev) : Dev :=
  if 64 ≤ s ∨ (d.slot s).present = true ∨ d.modes.mode = .holdup ∨ d.modes.mode = .halted ∨ d.modes.mode = .off then d
  else
    let d := (d.presenceChanged s true).ev evGlSlotPresent (s / 8) [.num 1 s]
    if !(bitOf (d.csrW aGlCtrl).toNat 1) then d
    else if servingMode d.modes.mode then d.startInsertion s
    else if d.modes.mode = .idle then d.modSt s (fun x => { x with inserting := true })
    else d
def execSlotInsertion (slot : Nat) (s : State) : Host.Outcome State Fault Refusal := .next (s.onDev (slotInsertion slot))

/-- SLOT_REMOVAL (R288). -/
def slotRemoval (s : Nat) (d : Dev) : Dev :=
  if 64 ≤ s ∨ (d.slot s).present = false then d
  else
    let d := (d.slotGone s).presenceChanged s false
    let d := d.modSt s (fun x => { SlotSt.reset with blocked := x.blocked })
    (d.modLink s (fun l => { l with eqSaved := false, oldWidth := 0 })).measureInv.linksSettled
def execSlotRemoval (slot : Nat) (s : State) : Host.Outcome State Fault Refusal := .next (s.onDev (slotRemoval slot))

/-- QUARANTINE_RELEASE_TIMER (R285): GPRSNT_N released for 1 s frees a quarantined or refused slot. -/
def quarantineRelease (s : Nat) (d : Dev) : Dev :=
  if s < 64 ∧ (d.slot s).present = false ∧ ((d.slot s).blocked = true ∨ (d.link s).st = .quarantine) then
    (d.modSt s (fun _ => .reset)).modLink s (fun _ => .reset)
  else d
def execQuarantineReleaseTimer (slot : Nat) (s : State) : Host.Outcome State Fault Refusal :=
  .next (s.onDev (quarantineRelease slot))

/-- UNRESPONSIVE_POWER_CYCLE (R278): 1 s after an unresponsive module was powered off its slot is powered again once; it
is admitted as an insertion is. -/
def unresponsiveCycle (s : Nat) (d : Dev) : Dev :=
  let x := d.slot s
  if s < 64 ∧ x.cycled = true ∧ x.present = true ∧ x.pwren = false ∧ x.blocked = false then
    (d.modSt s (fun x => { x with cycled := false, validated := false, colo := none, outcome := 0 })).startInsertion s
  else d
def execUnresponsivePowerCycle (slot : Nat) (s : State) : Host.Outcome State Fault Refusal :=
  .next (s.onDev (unresponsiveCycle slot))

/-! ### Monitors and module weirs (R306, R383, R386, R387) -/

/-- A rising weir after a sample, in 0.25 °C. -/
def Weir.rise (w : Weir) (level t : Int) : Weir :=
  let out := if w.crossed then decide (t ≤ level - 12) else decide (level ≤ t)
  if !out then { w with run := 0 }
  else if w.run + 1 < 8 then { w with run := w.run + 1 } else ⟨!w.crossed, 0⟩

/-- A falling weir after a sample. -/
def Weir.fall (w : Weir) (level t : Int) : Weir :=
  let out := if w.crossed then decide (level + 12 ≤ t) else decide (t ≤ level)
  if !out then { w with run := 0 }
  else if w.run + 1 < 8 then { w with run := w.run + 1 } else ⟨!w.crossed, 0⟩

/-- The module temperature in use: while the monitor is excluded, defer_hi + 5 °C. -/
def Dev.moduleTemp (d : Dev) (s : Nat) : Int :=
  let x := d.slot s
  if x.excluded then 4 * (((d.colo s).map (fun c => c.temp 4)).getD 0 + 5) else x.nand

/-- Whether folds on a Quire are held by a present member's cold weir; each start and end is recorded (R174). -/
def Dev.foldHolds (d : Dev) (s : Nat) : Dev :=
  match d.memberAt s true with
  | none => d
  | some (q, _) =>
    match d.quire q with
    | none => d
    | some x =>
      let held := x.members.any (fun m => m.2.present && (match m.2.slot with
        | some t => (d.slot t).cold.crossed
        | none => false))
      if held = x.foldHeld then d else (d.modQuire q (fun x => { x with foldHeld := held })).ev evTcFoldHeld 0 []

/-- The module weirs after a sample. -/
def Dev.moduleWeirs (d : Dev) (s : Nat) : Dev :=
  match d.colo s with
  | none => d
  | some c =>
    let t := d.moduleTemp s
    let x := d.slot s
    let y := { x with
      cold := x.cold.fall x.wCold t, opMin := x.opMin.fall (4 * c.temp 0) t, throttle := x.throttle.rise x.wThrottle t
      defer := x.defer.rise x.wDefer t, opMax := x.opMax.rise (4 * c.temp 1) t, absMax := x.absMax.rise (4 * c.temp 2) t }
    let y := if y.throttle.crossed && !x.throttle.crossed then { y with kS := min 16 (y.kS + 1) } else y
    let d := d.modSt s (fun _ => y)
    let ch : List (Nat × Bool × Bool) := [(0, x.cold.crossed, y.cold.crossed), (1, x.opMin.crossed, y.opMin.crossed),
      (2, x.throttle.crossed, y.throttle.crossed), (3, x.defer.crossed, y.defer.crossed), (4, x.opMax.crossed, y.opMax.crossed),
      (5, x.absMax.crossed, y.absMax.crossed)]
    let d := (ch.filter (fun e => e.2.1 ≠ e.2.2)).foldl (fun d e => d.ev evThmModuleWeir 0 [.num 1 s, .num 1 e.1]) d
    let d := d.foldHolds s
    if y.absMax.crossed && !x.absMax.crossed then (d.ev evThmModuleAbsMax 0 [.num 1 s]).slotGone s else d.sluPump

/-- A monitor poll (R306): an answer that is missing, stale or out of range is faulty; three in a row exclude the monitor, and
three good ones restore it. -/
def monitorPoll (s : Nat) (r : Option MonRegion) (d : Dev) : Dev :=
  match d.colo s with
  | none => d
  | some c =>
    let x := d.slot s
    if !x.admitted then d
    else
      let bad := match r with
        | none => true
        | some m =>
          let lo := 4 * (c.temp 0 - 20)
          let hi := 4 * (c.temp 2 + 20)
          decide (x.count = some m.count) || decide (m.nand < lo) || decide (hi < m.nand) || decide (m.bridge < lo) || decide (hi < m.bridge)
      let x := match r with
        | none => x
        | some m => if bad then { x with count := some m.count } else { x with
            nand := m.nand, nandMax := max x.nandMax m.nand, bridge := m.bridge, current := m.current % 65536
            voltage := m.voltage % 65536, aux := m.aux % 65536, count := some m.count }
      let x := if bad then { x with faults := x.faults + 1, goods := 0 } else { x with faults := 0, goods := x.goods + 1 }
      let newly := decide (3 ≤ x.faults) && !x.excluded
      let x := { x with excluded := if newly then true else x.excluded && decide (x.goods < 3) }
      let d := d.modSt s (fun _ => x)
      let d := if newly then d.ev evGlMonitorFault (s / 8) [.num 1 s] else d
      d.moduleWeirs s

/-- MODULE_THROTTLE_STEP_TIMER (R385, R387): k_s rises while the throttle weir is crossed and falls while it is clear. -/
def moduleThrottleStep (s : Nat) (d : Dev) : Dev :=
  (d.modSt s (fun x => { x with kS := if x.throttle.crossed then min 16 (x.kS + 1) else x.kS - 1 })).sluPump
def execModuleThrottleStepTimer (slot : Nat) (s : State) : Host.Outcome State Fault Refusal :=
  .next (s.onDev (moduleThrottleStep slot))

/-! ### Alerts and buses (R307, R308) -/

/-- MODULE_ALERT (R307): the alert status is read and cleared, and each bit acted on; a masked slot is not serviced. -/
def moduleAlert (s : Nat) (bits : BitVec 32) (d : Dev) : Dev :=
  let x := d.slot s
  if 64 ≤ s ∨ x.alertMasked = true ∨ x.pwren = false then d
  else
    let b := bits.toNat
    let d := if bitOf b 0 || bitOf b 1 then d.ev evGlModuleAlert (s / 8) [] else d
    if bitOf b 3 then d.ev evGlModuleNotice (s / 8) [] else d
def execModuleAlert (slot : Nat) (bits : BitVec 32) (s : State) : Host.Outcome State Fault Refusal :=
  .next (s.onDev (moduleAlert slot bits))

/-- ALERT_STUCK_TIMER (R307): GALERT_N is masked for the slot until the module is removed. -/
def alertStuck (s : Nat) (d : Dev) : Dev :=
  let x := d.slot s
  if s < 64 ∧ x.present = true ∧ x.alertMasked = false then
    (d.modSt s (fun x => { x with alert := true, alertMasked := true })).ev evGlAlertStuck (s / 8) []
  else d
def execAlertStuckTimer (slot : Nat) (s : State) : Host.Outcome State Fault Refusal := .next (s.onDev (alertStuck slot))

/-- The slots of a bus. -/
def busSlots (k : Nat) : List Nat := (List.range 8).map (fun i => 8 * k + i)

/-- I3C_BUS_STUCK (R308): recovery starts; what waits on the bus waits. -/
def i3cBusStuck (k : Nat) (d : Dev) : Dev :=
  if k < 8 then { d with gl := { d.gl with busStuck := d.gl.busStuck ||| BitVec.ofNat 8 (2 ^ k) } } else d
def execI3cBusStuck (bus : Nat) (s : State) : Host.Outcome State Fault Refusal := .next (s.onDev (i3cBusStuck bus))

/-- I3C_BUS_RECOVERY_TIMEOUT (R308): the bus is failed; its admitted modules serve with monitors excluded, and at ASSEMBLE
its colophon reads fail check 1. -/
def i3cBusTimeout (k : Nat) (d : Dev) : Dev :=
  if k < 8 ∧ bitOf d.gl.busStuck.toNat k = true then
    let b := BitVec.ofNat 8 (2 ^ k)
    let d := { d with gl := { d.gl with busFailed := d.gl.busFailed ||| b, busStuck := d.gl.busStuck &&& ~~~ b } }
    (busSlots k).foldl (fun d s =>
      let x := d.slot s
      if x.reading && decide (d.modes.mode = .assemble) then d.refuseModule s 4 1
      else if x.admitted && !x.excluded then
        (d.modSt s (fun x => { x with excluded := true, goods := 0 })).ev evGlMonitorFault (s / 8) [.num 1 s]
      else d) d
  else d
def execI3cBusRecoveryTimeout (bus : Nat) (s : State) : Host.Outcome State Fault Refusal := .next (s.onDev (i3cBusTimeout bus))

/-- I3C_BUS_RECOVERED (R308): the recovery is counted (R310), and waiting insertions go on. -/
def i3cBusRecovered (k : Nat) (d : Dev) : Dev :=
  if k < 8 ∧ (bitOf d.gl.busStuck.toNat k = true ∨ bitOf d.gl.busFailed.toNat k = true) then
    let b := BitVec.ofNat 8 (2 ^ k)
    let d := d.count aI3cBus 8 8
    let d := { d with gl := { d.gl with busFailed := d.gl.busFailed &&& ~~~ b, busStuck := d.gl.busStuck &&& ~~~ b } }
    (busSlots k).foldl (fun d s => if (d.slot s).inserting && !(d.slot s).pwren && servingMode d.modes.mode then d.slotUp s else d) d
  else d
def execI3cBusRecovered (bus : Nat) (s : State) : Host.Outcome State Fault Refusal := .next (s.onDev (i3cBusRecovered bus))

end Sys2Proof.Machine
end

