-- ==== Sys2Proof/Machine/Links.lean ====
section
/-! DEFINITION. The Gathering Links' commands (R260 to R284, R290, R291): flits received, timers, training, recovery,
authentication, and quarantine. -/

namespace Sys2Proof.Machine

/-- The bytes of an ASCII text. -/
def ascii (s : String) : List Byte := s.toList.map (fun c => BitVec.ofNat 8 c.toNat)

/-- A protocol violation (R283, reason 0x1). -/
def Dev.violation (d : Dev) (s : Nat) : Dev := d.quarantine s 1

/-- Whether a link receives sequenced flits. -/
def Dev.linkUp (d : Dev) (s : Nat) : Bool := decide (s < 64) && decide ((d.link s).st = .active)

/-! ### Recovery and training (R260, R264, R265, R283) -/

/-- Entering RECOVERY: more than 16 entries within 1 s quarantine the link. -/
def Dev.enterRecovery (d : Dev) (s : Nat) : Dev :=
  let t := d.now
  let d := (d.countLink s 0x10 0 1).modLink s (fun l => { l with
    st := .recovery, since := t, stuck := 0, recovAt := t :: l.recovAt.filter (fun x => t < x + 1000000000) })
  if 16 < (d.link s).recovAt.length then d.quarantine s 4 else d

/-- A link fault: recorded, and RECOVERY. -/
def Dev.linkFault (d : Dev) (s : Nat) : Dev := (d.ev evGlLinkFault (s / 8) []).enterRecovery s

/-- A replay; the fourth in a row without an advancing acknowledgement is a link fault. -/
def Dev.linkReplay (d : Dev) (s : Nat) : Dev :=
  let d := (d.count (aLnk s + 0x0C) 16 16).modLink s (fun l => { l with stuck := l.stuck + 1 })
  if 4 ≤ (d.link s).stuck then d.linkFault s else d.linkResend s

/-- REPLAY_TIMER (R264, R265). -/
def replayTimer (s : Nat) (d : Dev) : Dev := if d.linkUp s && !(d.link s).replay.isEmpty then d.linkReplay s else d
def execReplayTimer (slot : Nat) (s : State) : Host.Outcome State Fault Refusal := .next (s.onDev (replayTimer slot))

/-- SILENCE_TIMER (R260, R275): no flit for 1 µs. -/
def silenceTimer (s : Nat) (d : Dev) : Dev := if d.linkUp s then d.linkFault s else d
def execSilenceTimer (slot : Nat) (s : State) : Host.Outcome State Fault Refusal := .next (s.onDev (silenceTimer slot))

/-- BLOCK_LOCK_LOST (R260): on a lane in use. -/
def blockLockLost (s lane : Nat) (d : Dev) : Dev := if d.linkUp s && decide (lane < (d.link s).width) then d.linkFault s else d
def execBlockLockLost (slot lane : Nat) (s : State) : Host.Outcome State Fault Refusal := .next (s.onDev (blockLockLost slot lane))

/-- LOCK_REGAINED (R260, R281): RECOVERY ends without INIT or re-authentication; what was lost is resent on a NAK or by the replay
timer (R264). -/
def lockRegained (s : Nat) (d : Dev) : Dev :=
  if s < 64 ∧ (d.link s).st = .recovery then (d.linkActive s false).sluPump else d
def execLockRegained (slot : Nat) (s : State) : Host.Outcome State Fault Refusal := .next (s.onDev (lockRegained slot))

/-- RECOVERY_TIMER (R260): 50 µs without success. -/
def recoveryTimer (s : Nat) (d : Dev) : Dev :=
  if s < 64 ∧ (d.link s).st = .recovery then d.modLink s (fun l => { l with st := .train, since := d.now }) else d
def execRecoveryTimer (slot : Nat) (s : State) : Host.Outcome State Fault Refusal := .next (s.onDev (recoveryTimer slot))

/-- PARTNER_DETECTED (R260): a training through DETECT; more than 3 within 60 s quarantine the link. -/
def partnerDetected (s : Nat) (d : Dev) : Dev :=
  if s < 64 ∧ (d.link s).st = .detect then
    let t := d.now
    let d := (d.countLink s 0x10 16 2).modLink s (fun l => { l with
      st := .train, viaDetect := true, since := t, detectAt := t :: l.detectAt.filter (fun x => t < x + 60000000000) })
    if 3 < (d.link s).detectAt.length then d.quarantine s 4 else d
  else d
def execPartnerDetected (slot : Nat) (s : State) : Host.Outcome State Fault Refusal := .next (s.onDev (partnerDetected slot))

/-- TRAINING_DONE (R260): TRAIN ends on the widest working lane set, and INIT begins. -/
def trainingDone (s width : Nat) (reversed : Bool) (d : Dev) : Dev :=
  if s < 64 ∧ (d.link s).st = .train ∧ (width = 1 ∨ width = 2 ∨ width = 4) then
    let old := (d.link s).oldWidth
    let d := if width < old then d.ev evGlLinkNarrow (s / 8) [.num 1 s, .num 1 width] else d
    (d.modLink s (fun l => { l with
      st := .init, width := width, reversed := reversed, oldWidth := width, eqSaved := true, gotInit := false, peerSeen := false
      initSent := 0 })).sendInit s
  else d
def execTrainingDone (slot width : Nat) (reversed : Bool) (s : State) : Host.Outcome State Fault Refusal :=
  .next (s.onDev (trainingDone slot width reversed))

/-- TRAINING_TIMEOUT (R260): TRAIN or INIT exceeds its bound. -/
def trainingTimeout (s : Nat) (d : Dev) : Dev :=
  if s < 64 ∧ ((d.link s).st = .train ∨ (d.link s).st = .init) then
    d.modLink s (fun l => { l with st := .detect, since := d.now, width := 0, gotInit := false })
  else d
def execTrainingTimeout (slot : Nat) (s : State) : Host.Outcome State Fault Refusal := .next (s.onDev (trainingTimeout slot))

/-- INIT_RESEND_TIMER (R266). -/
def initResend (s : Nat) (d : Dev) : Dev := if s < 64 ∧ (d.link s).st = .init then d.sendInit s else d
def execInitResendTimer (slot : Nat) (s : State) : Host.Outcome State Fault Refusal := .next (s.onDev (initResend slot))

/-- LOW_POWER_EXIT (R290): ACTIVE without INIT or re-authentication. -/
def lowPowerExit (s : Nat) (d : Dev) : Dev :=
  if s < 64 ∧ (d.link s).st = .lowPower then
    ((d.demand (glDom s)).linkActive s false |>.modLink s (fun l => { l with lpReq := false })).sluPump
  else d
def execLowPowerExit (slot : Nat) (s : State) : Host.Outcome State Fault Refusal := .next (s.onDev (lowPowerExit slot))

/-! ### INIT (R266) -/

/-- Whether a module's INIT is accepted. -/
def Link.initOk (l : Link) (s : Nat) (m : InitPl) : Bool :=
  let first := ((l.replay.head?).map (·.first)).getD l.txNext
  m.rsvOk && decide (m.version = 0x100) && decide (m.role = 1) && decide (m.slot = s)
  && within m.vc0 64 32767 && within m.vc1 320 32767 && within m.vc2 4 32767 && within m.maxTags 256 4096
  && (if m.fresh then decide (m.nextFseq = 0)
      else decide (m.nextFseq < 1024) && decide ((m.nextFseq + 1024 - first) % 1024 ≤ l.unacked))

/-- INIT_RECEIVED (R266): refused, or taken; a module that holds no replay state while operations are outstanding has lost
them, and its member is LOST. -/
def initReceived (s : Nat) (m : InitPl) (d : Dev) : Dev :=
  let l := d.link s
  if 64 ≤ s ∨ l.st ≠ .init then d
  else if !(l.initOk s m) then d.violation s
  else if m.fresh && !l.tags.isEmpty then d.slotGone s
  else
    let d := if m.fresh && !l.gotInit then d.modLink s (fun l => { l with
        session := none, auth := 0, authStep := 0, replay := [], txNext := 0, rxNext := 0, rxUnacked := 0 })
      else d
    let d := (d.modLink s (fun l => { l with gotInit := true, peerSeen := m.peerSeen })).sendInit s
    if m.peerSeen then
      let d := d.modLink s (fun l =>
        let l := if m.fresh then l else l.ack ((m.nextFseq + 1023) % 1024)
        { l with adv := [m.vc0, m.vc1, m.vc2], sent := [0, 0, 0], ret := [0, 0, 0], freed := [0, 0, 0], maxTags := m.maxTags })
      (((d.linkResend s).linkActive s true).tryAdmit s).sluPump
    else d
def execInitReceived (slot : Nat) (m : InitPl) (s : State) : Host.Outcome State Fault Refusal := .next (s.onDev (initReceived slot m))

/-! ### LCTL and errors (R264, R267, R268, R290) -/

/-- A cumulative return on one channel: accepted, or a violation (R268). -/
def Link.returned (l : Link) (vc v : Nat) : Option Link :=
  let old := nth l.ret vc % 65536
  let step := (v + 65536 - old) % 65536
  let out := nth l.sent vc - nth l.ret vc
  if v < 65536 ∧ step ≤ out then some { l with ret := setNth l.ret vc (nth l.ret vc + step) } else none

/-- LCTL_RECEIVED (R264, R267, R268, R290): acknowledgement, NAK, credits, and the low-power handshake. -/
def lctlReceived (s : Nat) (m : Lctl) (d : Dev) : Dev :=
  if !d.linkUp s then d
  else if !m.rsvOk then d.violation s
  else
    let l := d.link s
    match ((l.returned 0 m.ret0).bind (fun l => l.returned 1 m.ret1)).bind (fun l => l.returned 2 m.ret2) with
    | none => d.violation s
    | some l2 =>
      let moved := decide (l2.ret ≠ l.ret)
      let l3 := match m.ack with
        | some a => l2.ack a
        | none => l2
      let l4 := match m.nak with
        | some a => l3.ack a
        | none => l3
      let d := d.modLink s (fun _ => l4)
      let d := if moved then d.linkProgress s else d
      let d := if m.nak.isSome && !l4.replay.isEmpty then d.linkReplay s else d
      if m.lpAck && (d.link s).lpReq && (d.link s).tags.isEmpty && (d.link s).replay.isEmpty then
        d.modLink s (fun l => { l with st := .lowPower, since := d.now, lpReq := false })
      else d.linkPump s
def execLctlReceived (slot : Nat) (m : Lctl) (s : State) : Host.Outcome State Fault Refusal := .next (s.onDev (lctlReceived slot m))

/-- FLIT_CRC_ERROR (R264): the flit is discarded and counted, and a NAK names the last accepted fseq. -/
def flitCrcError (s : Nat) (d : Dev) : Dev :=
  if !d.linkUp s then d
  else
    let d := d.countLink s 0x0C 0 0
    if (d.link s).nakSent.isSome then d else d.sendLctl s true false
def execFlitCrcError (slot : Nat) (s : State) : Host.Outcome State Fault Refusal := .next (s.onDev (flitCrcError slot))

/-- ACK_TIMER (R264). -/
def ackTimer (s : Nat) (d : Dev) : Dev := if d.linkUp s && decide (0 < (d.link s).rxUnacked) then d.sendLctl s false false else d
def execAckTimer (slot : Nat) (s : State) : Host.Outcome State Fault Refusal := .next (s.onDev (ackTimer slot))

/-- INVALID_FLIT_RECEIVED (R263). -/
def invalidFlit (s : Nat) (d : Dev) : Dev :=
  if s < 64 ∧ ((d.link s).st = .active ∨ (d.link s).st = .init) then d.violation s else d
def execInvalidFlitReceived (slot : Nat) (s : State) : Host.Outcome State Fault Refusal := .next (s.onDev (invalidFlit slot))

/-! ### Completions and data (R271 to R273) -/

/-- The DATA flits that a READ brings. -/
def OpReq.flits (o : OpReq) : Nat := if isRead o.kind then dataFlits (maskCount o.cwMask) else 0

/-- CPL_RECEIVED (R271, R272): a completion that matches no operation is a violation; a successful READ waits for its
data. -/
def cplReceived (s : Nat) (c : Cpl) (d : Dev) : Dev :=
  if !d.linkUp s then d
  else
    let d := (d.acceptFlit s 0).linkProgress s
    match d.tagEnt s c.tag with
    | none => d.violation s
    | some t =>
      if !c.rsvOk || t.cpl.isSome || decide (c.opcode ≠ OpCode t.op.kind) || decide (c.die ≠ t.op.die) || decide (c.status = 7)
          || decide (9 < c.status) then d.violation s
      else if c.status = 0 ∧ t.flits < t.op.flits then
        d.modLink s (fun l => { l with tags := l.tags.ins c.tag { t with cpl := some c } })
      else d.opEnded s c.tag t c

/-- DATA_FLIT_RECEIVED (R272, R273). -/
def dataFlit (s tag : Nat) (last shapeOk : Bool) (d : Dev) : Dev :=
  if !d.linkUp s then d
  else
    let d := d.acceptFlit s 1
    match d.tagEnt s tag with
    | none => d.violation s
    | some t =>
      let n := t.flits + 1
      if !shapeOk || decide (t.op.flits < n) || (last != decide (n = t.op.flits)) then d.violation s
      else
        let t := { t with flits := n, gotLast := last }
        match t.cpl with
        | some c =>
          if n = t.op.flits then d.opEnded s tag t c
          else d.modLink s (fun l => { l with tags := l.tags.ins tag t })
        | none => d.modLink s (fun l => { l with tags := l.tags.ins tag t })

/-! ### Management messages (R279 to R282) -/

/-- Accepting the flits of a message. -/
def Dev.acceptMgmt (d : Dev) (s n : Nat) : Dev := (List.range n).foldl (fun d _ => d.acceptFlit s 2) d

/-- PONG_RECEIVED (R279). -/
def pongReceived (s : Nat) (d : Dev) : Dev := if d.linkUp s then (d.acceptMgmt s 1).linkProgress s else d
def execPongReceived (slot : Nat) (s : State) : Host.Outcome State Fault Refusal := .next (s.onDev (pongReceived slot))

/-- NOTICE_RECEIVED (R279): a die fault, an internal error, or a code that the message does not have. -/
def noticeReceived (s code die : Nat) (d : Dev) : Dev :=
  if !d.linkUp s then d
  else
    let d := d.acceptMgmt s 1
    if code = 1 ∧ die < d.diesOf s then d.dieFailed s die
    else if code = 2 then d.ev evGlModuleNotice (s / 8) []
    else d.violation s
def execNoticeReceived (slot code die : Nat) (s : State) : Host.Outcome State Fault Refusal :=
  .next (s.onDev (noticeReceived slot code die))

/-- An authentication failure (R282): quarantine, and for a module not yet admitted outcome 0x05 by check 8. -/
def Dev.authFailed (d : Dev) (s : Nat) : Dev :=
  let d := d.modLink s (fun l => { l with auth := 3, authStep := 0 })
  let fresh := !(d.slot s).admitted
  let serial := ((d.colo s).map (fun c => leBytes 16 c.serial.toNat)).getD []
  let d := if fresh then
      (d.modSt s (fun x => { x with outcome := 5, check := 8 })).ev evGlColophonRefused (s / 8)
        [.num 1 s, .num 1 5, .num 1 8, .str serial]
    else d
  let d := d.quarantine s 2
  if fresh then (d.modSt s (fun x => { x with validated := false })).linksSettled else d

/-- What step 1 of Table 09-14 sent: nonce and Qc. -/
def Link.challenge (l : Link) : List Byte := nonceOf l.nonce ++ ephemeralOf l.nonce

/-- AUTH_RESPONSE_RECEIVED (R280): the signature is verified, S formed and AUTH_CONFIRM sent. -/
def authResponse (s : Nat) (qm : BitVec 776) (sig : BitVec 768) (d : Dev) : Dev :=
  let l := d.link s
  if !d.linkUp s then d
  else
    let d := d.acceptMgmt s 2
    match d.colo s with
    | none => d
    | some c =>
      if l.authStep ≠ 1 then d
      else
        let q := leBytes 97 qm.toNat
        let m := Config.sha384 (ascii "CX512 GLAUTH" ++ leBytes 1 s ++ l.challenge ++ q ++ digestBytes c.digest)
        let sg := leBytes 96 sig.toNat
        if Config.ecdsaOk (slice c.bytes 0x1300 128) m (sg ++ List.replicate 32 0) then
          let t := Config.sha384 (l.challenge ++ q ++ sg)
          let ss := Config.sessionSecret l.nonce q
          (d.modLink s (fun l => { l with session := some ss, authT := t, authStep := 2 })).sendMgmt s 0x12
            (digestBytes (Config.hmac384 (digestBytes ss) (ascii "C" ++ digestBytes t)))
        else d.authFailed s
def execAuthResponseReceived (slot : Nat) (qm : BitVec 776) (sig : BitVec 768) (s : State) : Host.Outcome State Fault Refusal :=
  .next (s.onDev (authResponse slot qm sig))

/-- AUTH_CONFIRM_RECEIVED (R280): the link is authenticated. -/
def authConfirm (s : Nat) (h : Digest) (d : Dev) : Dev :=
  let l := d.link s
  if !d.linkUp s then d
  else
    let d := d.acceptMgmt s 1
    match l.session with
    | none => d
    | some ss =>
      if l.authStep ≠ 2 then d
      else if h = Config.hmac384 (digestBytes ss) (ascii "M" ++ digestBytes l.authT) then
        ((d.modLink s (fun l => { l with auth := 1, authStep := 0 })).tryAdmit s).sluPump
      else d.authFailed s
def execAuthConfirmReceived (slot : Nat) (hmac : Digest) (s : State) : Host.Outcome State Fault Refusal :=
  .next (s.onDev (authConfirm slot hmac))

/-- REAUTH_RESPONSE_RECEIVED (R281). -/
def reauthResponse (s : Nat) (h : Digest) (d : Dev) : Dev :=
  let l := d.link s
  if !d.linkUp s then d
  else
    let d := d.acceptMgmt s 1
    match l.session with
    | none => d
    | some ss =>
      if l.authStep ≠ 3 then d
      else if h = Config.hmac384 (digestBytes ss) (ascii "R" ++ nonceOf l.nonce ++ leBytes 1 s) then
        ((d.modLink s (fun l => { l with auth := 1, authStep := 0 })).tryAdmit s).sluPump
      else d.authFailed s
def execReauthResponseReceived (slot : Nat) (hmac : Digest) (s : State) : Host.Outcome State Fault Refusal :=
  .next (s.onDev (reauthResponse slot hmac))

/-- AUTH_TIMEOUT (R282). -/
def authTimeout (s : Nat) (d : Dev) : Dev := if s < 64 ∧ (d.link s).authStep ≠ 0 then d.authFailed s else d
def execAuthTimeout (slot : Nat) (s : State) : Host.Outcome State Fault Refusal := .next (s.onDev (authTimeout slot))

/-! ### Slow partners (R275 to R278) -/

/-- OPERATION_TIMER (R277, R289): the first expiry issues STATUS, the second declares the die failed; the timer is paused
while the link is not ACTIVE. -/
def operationTimer (s tag : Nat) (d : Dev) : Dev :=
  if !d.linkUp s then d
  else
    match d.tagEnt s tag with
    | none => d
    | some t =>
      if 1 ≤ t.tries then d.dieFailed s t.op.die
      else
        let d := d.modLink s (fun l => { l with tags := l.tags.ins tag { t with tries := 1 } })
        (d.bareOp .status s t.op.die (some tag)).1
def execOperationTimer (slot tag : Nat) (s : State) : Host.Outcome State Fault Refusal := .next (s.onDev (operationTimer slot tag))

/-- PROGRESS_PROBE_TIMER (R275): 1 ms without forward progress while operations are outstanding sends a PING. -/
def progressProbe (s : Nat) (d : Dev) : Dev :=
  let l := d.link s
  if d.linkUp s && !l.tags.isEmpty && decide (l.progressAt + 1000000 ≤ d.now) then
    (d.modLink s (fun l => { l with ping := true })).sendMgmt s 1 (leBytes 8 d.now)
  else d
def execProgressProbeTimer (slot : Nat) (s : State) : Host.Outcome State Fault Refusal := .next (s.onDev (progressProbe slot))

/-- UNRESPONSIVE_TIMER (R278). -/
def unresponsive (s : Nat) (d : Dev) : Dev :=
  let l := d.link s
  if s < 64 ∧ l.st ≠ .quarantine ∧ l.st ≠ .disabled ∧ l.tags.isEmpty = false ∧ l.progressAt + 1000000 * d.reg aGlTimer 11 8 ≤ d.now then
    let again := (d.slot s).cycled
    (d.slotGone s).modSt s (fun x => { x with cycled := !again })
  else d
def execUnresponsiveTimer (slot : Nat) (s : State) : Host.Outcome State Fault Refusal := .next (s.onDev (unresponsive slot))

/-! ### Link commands (R284, R291) -/

/-- LINK_RETRAIN (R291): an ACTIVE link goes to RECOVERY; any other state refuses. -/
def linkRetrain (s : Nat) (d : Dev) : Dev :=
  if 64 ≤ s ∨ d.domReady (glDom s) = false then d
  else if (d.link s).st = .active then (d.modLink s (fun l => { l with cmdResult := 0 })).enterRecovery s
  else d.modLink s (fun l => { l with cmdResult := 2 })
def execLinkRetrain (slot : Nat) (s : State) : Host.Outcome State Fault Refusal := .next (s.onDev (linkRetrain slot))

/-- Whether losing a slot's member would make its Quire Broken. -/
def Dev.wouldBreak (d : Dev) (s : Nat) : Bool :=
  match d.memberAt s true with
  | none => false
  | some (q, m) =>
    match d.quire q with
    | none => false
    | some x =>
      let x := x.modMember m (fun y => { y with st := .lost })
      decide (d.quireState q ≠ 4) && (d.lossesAt q x 2
        || (decide (x.presentWidth < 3) && (d.sbsOf q).any (fun y => decide (0 < y.2.valid))))

/-- LINK_QUARANTINE_REQUEST (R284): reason 0x6, refused where it would make a data-holding Quire Broken. -/
def linkQuarantine (s : Nat) (d : Dev) : Dev :=
  if 64 ≤ s ∨ d.domReady (glDom s) = false then d
  else if (d.link s).st = .quarantine ∨ (d.slot s).pwren = false then d.modLink s (fun l => { l with cmdResult := 2 })
  else if d.wouldBreak s then d.modLink s (fun l => { l with cmdResult := 1 })
  else (d.quarantine s 6).modLink s (fun l => { l with cmdResult := 0 })
def execLinkQuarantineRequest (slot : Nat) (s : State) : Host.Outcome State Fault Refusal := .next (s.onDev (linkQuarantine slot))

/-! ### Tag failures against a module (R214, R283) -/

/-- Reason 0x3: 3 failures within 1 s, or tagfail_day_thr within 24 h. -/
def Dev.tagQuarantine (d : Dev) (s : Nat) : Dev :=
  let l := (d.link s).tagFailAt
  let t := d.now
  if 3 ≤ (l.filter (fun x => t < x + 1000000000)).length
      ∨ d.reg aGlCtrl 15 8 ≤ (l.filter (fun x => t < x + 86400000000000)).length then d.quarantine s 3
  else d

/-- The slot that a leaf read reads. -/
def Dev.readSlot (d : Dev) (rid : Nat) : Nat := ((d.leafRead rid).map (fun r => puaSlot r.pua)).getD 0

/-- DECODE_DONE (R210 to R216), with what a tag failure counts to (R283). -/
def decodeStep (rid cw : Nat) (x : DecodeIn) (d : Dev) : Dev :=
  let s := d.readSlot rid
  let n := (d.link s).tagFailAt
  let d := decodeDone rid cw x d
  if (d.link s).tagFailAt = n then d else d.tagQuarantine s
def execDecodeDone (rid cw : Nat) (x : DecodeIn) (s : State) : Host.Outcome State Fault Refusal := .next (s.onDev (decodeStep rid cw x))

/-- RECONSTRUCTION_DONE (R214). -/
def reconStep (rid cw : Nat) (f : Option Frame) (d : Dev) : Dev :=
  let s := d.readSlot rid
  let n := (d.link s).tagFailAt
  let d := reconstructionDone rid cw f d
  if (d.link s).tagFailAt = n then d else d.tagQuarantine s
def execReconstructionDone (rid cw : Nat) (f : Option Frame) (s : State) : Host.Outcome State Fault Refusal :=
  .next (s.onDev (reconStep rid cw f))

end Sys2Proof.Machine
end

