-- ==== Sys2Proof/Machine/Upkeep.lean ====
section
/-! DEFINITION. Background work on the Quires (chapters 06 to 08): folds, garbage collection, the erase gate, checkpoints,
rebuilds, the journal regions, patrol, the Strict write window, and the requests that operations make of the Sluice
(R379). -/

namespace Sys2Proof.Machine

/-! ### Folds, collection and the erase gate (R174, R178, R179) -/

/-- The QLC superblock that a Furrow fills, opening one where it has none. -/
def Dev.needQlc (d : Dev) (q f : Nat) : Dev :=
  match (d.furrow f).qlcSb with
  | some _ => d
  | none =>
    let (d, s) := d.openSb q false f
    match s with
    | some s => d.modFurrow f (fun x => { x with qlcSb := some s, qlcRow := 1 })
    | none => d

/-- The Furrow with the most staged data that folds on a Quire, the lower index on a tie (R174). -/
def Dev.foldPick (d : Dev) (q : Nat) : Option Nat :=
  let l := d.tc.furrows.filter (fun x => (decide (64 ≤ x.1) || decide (x.1 = 16 + q) || decide (x.1 = q)) && decide (x.2.quire = q)
    && decide (x.2.st ≠ .free) && !x.2.staged.isEmpty)
  (l.foldl (fun (b : Option (Nat × Furrow)) x =>
    match b with
    | none => some x
    | some y => if y.2.staged.length < x.2.staged.length then some x else some y) none).map (·.1)

/-- Whether a fold is triggered: the free part of the pool is below slc_fold_weir, a Furrow drains, or no host write came
for 100 ms (R174). -/
def Dev.foldDue (d : Dev) (q : Nat) (x : Quire) : Bool :=
  decide (256 * d.slcFree q < d.reg aTcGcWeir 23 16 * d.slcPool x)
  || d.tc.furrows.any (fun y => decide (y.2.quire = q) && decide (y.2.st = .draining) && !y.2.staged.isEmpty)
  || decide (100000000 ≤ d.now - x.lastWrite)

/-- FOLD_START (R30, R174): in a serving mode, unless a cold weir holds folds, the next Furrow of the schedule is chosen and
gets a fold target. The reads and programs of the fold ask for their grants (R379). -/
def foldStart (q : Nat) (d : Dev) : Dev :=
  match d.quire q with
  | none => d
  | some x =>
    if !servingMode d.modes.mode || x.foldHeld || !d.foldDue q x then d
    else
      let cur := x.folding.bind (fun f => if (d.furrow f).staged.isEmpty then none else some f)
      match cur.orElse (fun _ => d.foldPick q) with
      | none => d
      | some f => (d.modQuire q (fun x => { x with folding := some f })).needQlc q f

def execFoldStart (q : Nat) (s : State) : Host.Outcome State Fault Refusal := .next (s.onDev (foldStart q))

/-- The closed QLC superblock with the least valid data, then the lower wear, then the lower index (R178). -/
def Dev.victimOf (d : Dev) (q : Nat) : Option Nat :=
  (((d.sbsOf q).filter (fun x => decide (x.2.st = .closed) && !x.2.slc)).foldl (fun (b : Option (Nat × Superblock)) x =>
    match b with
    | none => some x
    | some y =>
      if x.2.valid < y.2.valid ∨ (x.2.valid = y.2.valid ∧ (x.2.wear < y.2.wear ∨ (x.2.wear = y.2.wear ∧ x.1 < y.1)))
      then some x else some y) none).map (·.1)

/-- The internal Furrow through which a Quire's collection, rebuild and re-spread write (R167). -/
def Dev.gcFurrow (d : Dev) (q : Nat) : Dev :=
  (d.modFurrow q (fun x => { x with st := .open, kind := 8, quire := q })).needQlc q q

/-- Whether free QLC superblocks have fallen to a weir in 1/256 of the Quire's (R178). -/
def Dev.qlcBelow (d : Dev) (q w : Nat) (x : Quire) : Bool := decide (256 * d.qlcFree q ≤ w * d.qTotal x)

/-- GC_START (R178): free QLC superblocks have fallen to gc_start, and a victim is chosen; data that leaves a reclaim unit is
logged as Media Reallocated (R166). -/
def gcStart (q : Nat) (d : Dev) : Dev :=
  match d.quire q with
  | none => d
  | some x =>
    if !servingMode d.modes.mode || !d.qlcBelow q (d.reg aTcGcWeir 7 0) x then d
    else
      let live : Bool := match x.victim with
        | some v => decide ((d.sb q v).st = .closed)
        | none => false
      if live then d.gcFurrow q
      else
        match d.victimOf q with
        | none => d
        | some v =>
          let d := (d.modQuire q (fun x => { x with victim := some v })).gcFurrow q
          let f := d.furrow (d.sb q v).furrow
          if f.kind = 2 then { d with tc := { d.tc with fdpEvents := d.tc.fdpEvents ++ [(0x81, f.binding)] } } else d

def execGcStart (q : Nat) (s : State) : Host.Outcome State Fault Refusal := .next (s.onDev (gcStart q))

/-- ERASE_GATE_RELEASE (R179): the gate lets a released superblock be erased once its RELEASE is durable and its readers
have finished; otherwise it refuses, which is counted and recorded. -/
def eraseGateRelease (q s : Nat) (d : Dev) : Dev :=
  let b := d.sb q s
  if b.st ≠ .released then d
  else if d.gateOpen b then d.modSb q s (fun b => { b with st := .erasing, row := 0 })
  else (d.count aTcEraseGate 0 16).ev evTcEraseRefused 0 [.num 1 q, .num 4 s]

def execEraseGateRelease (q sb : Nat) (s : State) : Host.Outcome State Fault Refusal :=
  .next (s.onDev (eraseGateRelease q sb))

/-- CHECKPOINT_SEGMENT_DUE (R176): the next segment of the rotation is captured, and its programs may start; it is the first
one that has never been written, or the one of the oldest capture. -/
def checkpointSegmentDue (d : Dev) : Dev :=
  if !servingMode d.modes.mode || d.tc.segBusy.isSome then d
  else
    let i := match (List.range d.segCount).find? (fun i => !(d.tc.segs.has i)) with
      | some i => i
      | none => (d.oldestCapture.map (·.1)).getD 0
    { d with tc := { d.tc with segBusy := some (i, d.tc.head) } }

def execCheckpointSegmentDue (s : State) : Host.Outcome State Fault Refusal := .next (s.onDev checkpointSegmentDue)

/-- FURROW_WINDOW_LOAD (R188): the context of TC_FURROW_IDX.furrow is latched. -/
def furrowWindowLoad (d : Dev) : Dev := { d with tc := { d.tc with window := d.furrow (d.reg aTcFurrowIdx 11 0) } }

def execFurrowWindowLoad (s : State) : Host.Outcome State Fault Refusal := .next (s.onDev furrowWindowLoad)

/-- GC_WEIR_WRITE: a write with gc_urgent at or above gc_start, or with a field 0, is ignored whole and recorded. -/
def gcWeirWrite (v : W32) (d : Dev) : Dev :=
  let start := bitsOf v.toNat 7 0
  let urgent := bitsOf v.toNat 15 8
  let fold := bitsOf v.toNat 23 16
  if start ≤ urgent ∨ urgent = 0 ∨ fold = 0 then d.ev evTcWeirBad 0 []
  else d.setCsr aTcGcWeir (v &&& 0xFFFFFF#32)

def execGcWeirWrite (v : W32) (s : State) : Host.Outcome State Fault Refusal := .next (s.onDev (gcWeirWrite v))

/-! ### Rebuilds (R245 to R254) -/

/-- Feature 0x11: Non-Operational Power State Permissive Mode (R81). -/
def Dev.permissive (d : Dev) : Bool := bitOf (d.adm.feats.get 0 0x11).toNat 0

/-- Whether rebuild, re-spread and release run now (R81). -/
def Dev.workRuns (d : Dev) : Bool := servingMode d.modes.mode || (decide (d.modes.mode = .idle) && d.permissive)

/-- Starting a rebuild that the present members can hold, or holding it (R245); a Broken Quire's is a recovery pass
(R250). -/
def Dev.tryRebuild (d : Dev) (q : Nat) : Dev :=
  match d.quire q with
  | none => d
  | some x =>
    if d.quireState q = 4 then ((d.startWork q .recovery).gcFurrow q).workProgress q
    else if d.canHold q x x.presentWidth then ((d.startWork q .rebuild).gcFurrow q).workProgress q
    else (d.modQuire q (fun x => { x with due := false, held := true })).ev evSigRebuildNoSpare q []

/-- REBUILD_START (R245): the rebuild of a Quire that has lost a member starts while rebuild_en is 1. -/
def rebuildStart (q : Nat) (d : Dev) : Dev :=
  match d.quire q with
  | none => d
  | some x =>
    if !x.due || x.work.isSome || !(bitOf (d.csrW aSigCtrl).toNat 1) || !servingMode d.modes.mode then d
    else d.tryRebuild q

def execRebuildStart (q : Nat) (s : State) : Host.Outcome State Fault Refusal := .next (s.onDev (rebuildStart q))

/-! ### Journal regions (R237, R238) -/

/-- The region blocks of a slot in use, with their die and block index. -/
def Dev.regionOf (d : Dev) (slot : Nat) : List (Nat × RBlk) :=
  d.tc.regions.filter (fun x => x.1 / 2 ^ 32 / 64 = slot)

/-- Pages of a slot's journal region: blocks 0 and 1 of every die position in SLC mode. -/
def Dev.regionPages (d : Dev) (slot : Nat) : Nat := ((d.colo slot).map (fun c => 2 * c.dies * c.bs)).getD 0

/-- Whether less than a quarter of a region is free. -/
def Dev.regionLow (d : Dev) (slot : Nat) : Bool :=
  decide (4 * (d.regionPages slot - ((d.regionOf slot).map (·.2.used)).sum) < d.regionPages slot)

/-- A record of a region block is live while its slot is held with that jseq or a newer one, and no newer record of that slot
stands in the region (R238). -/
def Dev.recLive (d : Dev) (slot : Nat) (r : Nat × Nat) : Bool :=
  match d.tc.jslots.get? r.1 with
  | none => false
  | some j => decide (r.2 ≤ j.jseq) && !((d.regionOf slot).any (fun b => b.2.recs.any (fun x => decide (x.1 = r.1) && decide (r.2 < x.2))))

/-- JOURNAL_REGION_RECLAIM (R238): the live records of the region's oldest block get new jseq values, and are written again
from the DRAM slots; the block's erase may be requested once it holds no live record. -/
def journalRegionReclaim (slot : Nat) (d : Dev) : Dev :=
  if (d.hostOf slot).isEmpty || !d.regionLow slot then d
  else
    let oldest := (d.regionOf slot).foldl (fun (b : Option (Nat × RBlk)) x =>
      match b with
      | none => some x
      | some y => if x.2.first < y.2.first then some x else some y) none
    match oldest with
    | none => d
    | some (_, b) =>
      (b.recs.filter (d.recLive slot)).foldl (fun d r =>
        let n := d.tc.jseq + 1
        { d with tc := { d.tc with jseq := n, jslots := d.tc.jslots.upd r.1 (fun j => { j with jseq := n }) } }) d

def execJournalRegionReclaim (slot : Nat) (s : State) : Host.Outcome State Fault Refusal :=
  .next (s.onDev (journalRegionReclaim slot))

/-! ### Patrol (R241 to R243) -/

/-- Flagging a superblock for refresh once (R216, R254). -/
def Dev.flagSb (d : Dev) (q s : Nat) : Dev :=
  if (d.sb q s).flagged then d
  else (d.modSb q s (fun b => { b with flagged := true })).ev evMcRefreshFlag 0 [.num 1 q, .num 4 s]

/-- What one codeword of a patrolled row brings (Table 08-4). -/
def Dev.patrolCw (d : Dev) (q s w : Nat) (c : PatrolCw) : Dev :=
  let data := decide (c.k + 1 ≠ w)
  if decide (c.rung = 4) || (data && !c.tagOk) then
    if c.recon then
      let d := (d.flagSb q s).ev evSigPatrolRepair q []
      if data then (d.count (aSigCnt + 4) 0 32).modQuire q (fun x => { x with repaired := sat 64 (x.repaired + 1) }) else d
    else if data ∧ d.walk c.iuNs (c.iu * d.iuUnits c.iuNs) = .mapped c.pua then
      ((d.count (aSigCnt + 0xC) 0 32).loseIu c.iuNs c.iu).modQuire q (fun x => { x with lostUnits := sat 64 (x.lostUnits + 1) })
    else d
  else if c.rung = 2 ∨ c.rung = 3 then d.flagSb q s
  else d

/-- The rows that a pass starting now visits: the data rows written of every superblock that holds valid data (R241). -/
def Dev.patrolRows (d : Dev) (q : Nat) : Nat :=
  match d.quire q with
  | none => 0
  | some x => (((d.sbsOf q).filter (fun y => 0 < y.2.valid)).map (fun y => dataRows (x.rows y.2.slc))).sum

/-- A pass ends and the next effective period is set (R242). -/
def Dev.patrolPassEnd (d : Dev) (q : Nat) : Dev :=
  match d.quire q with
  | none => d
  | some x =>
    let hi := d.reg aPatrolTrend 15 0
    let lo := d.reg aPatrolTrend 31 16
    let e := if hi * x.patCws < x.patBeyond * 1000000 then max 24 (x.effective / 2)
      else if x.patBeyond * 1000000 < lo * x.patCws then min x.hours (x.effective * 2)
      else x.effective
    let d := d.modQuire q (fun x => { x with
      effective := e, passes := x.passes + 1, lastPass := d.now, passAt := d.now, patRows := 0, patTotal := 0, patCws := 0
      patBeyond := 0, patNow := false, patLate := false })
    d.ev evSigPatrolPass q [.num 2 e]

/-- PATROL_ROW_DUE (R241, R243): a row of the pass is read, decoded, checked and compared. Patrol stands still while the
Quire is Rebuilding, outside the serving modes and while patrol_en is 0. -/
def patrolRowDue (q s row : Nat) (cws : List PatrolCw) (mismatch : Bool) (d : Dev) : Dev :=
  match d.quire q with
  | none => d
  | some x =>
    let b := d.sb q s
    let w := b.members.length
    if x.work.isSome || !servingMode d.modes.mode || !(bitOf (d.csrW aSigCtrl).toNat 0) ||
        decide (b.valid = 0) || decide (row = 0)
        || decide (dataRows (x.rows b.slc) < row) then d
    else
      let total := if x.patRows = 0 then d.patrolRows q else x.patTotal
      let d := d.modQuire q (fun x => { x with
        patRows := x.patRows + 1, patTotal := total, patCws := x.patCws + 4 * w
        patBeyond := x.patBeyond + (cws.filter (fun c => c.rung ≠ 0)).length })
      let d := d.count aSigCnt 0 32
      let d := cws.foldl (fun d c => d.patrolCw q s w c) d
      let clean := cws.all (fun c => decide (c.rung ≠ 4) && c.tagOk)
      let d := if mismatch && clean then
          (((d.count (aSigCnt + 8) 0 32).flagSb q s).ev evSigPatrolParity q []).modQuire q
            (fun x => { x with misparity := sat 64 (x.misparity + 1) })
        else d
      if total ≤ ((d.quire q).map (·.patRows)).getD 0 then d.patrolPassEnd q else d

def execPatrolRowDue (q sb row : Nat) (cws : List PatrolCw) (mismatch : Bool) (s : State) : Host.Outcome State Fault Refusal :=
  .next (s.onDev (patrolRowDue q sb row cws mismatch))

/-- PATROL_PERIOD_END (R243): a pass that is unfinished at its period's end is late. -/
def patrolPeriodEnd (q : Nat) (d : Dev) : Dev :=
  match d.quire q with
  | none => d
  | some x => if x.patTotal ≤ x.patRows then d else (d.modQuire q (fun x => { x with patLate := true })).ev evSigPatrolLate q []

def execPatrolPeriodEnd (q : Nat) (s : State) : Host.Outcome State Fault Refusal := .next (s.onDev (patrolPeriodEnd q))

/-! ### The Strict write ceiling (R208, R209) -/

/-- t_cycle of a module as a fraction: numerator in µs and denominator. -/
def Colo.cycle (c : Colo) : Nat × Nat :=
  (c.tNom 2 * c.nslc * c.bq * c.bs + c.nq * c.tNom 3 * c.bq * c.bs + c.nq * c.tNom 4 * c.nslc * (c.bq + c.bs),
   c.nslc * c.bq * c.bs)

/-- The present member whose t_cycle is largest. -/
def Dev.slowest (d : Dev) (x : Quire) : Option Colo :=
  ((x.members.filter (fun m => m.2.present)).filterMap (fun m => m.2.slot.bind d.colo)).foldl (fun (b : Option Colo) c =>
    match b with
    | none => some c
    | some y => if y.cycle.1 * c.cycle.2 < c.cycle.1 * y.cycle.2 then some c else some y) none

/-- W_strict in bytes per second, rounded down. -/
def Dev.wStrict (d : Dev) (q : Nat) : Nat :=
  match d.quire q with
  | none => 0
  | some x =>
    match d.slowest x with
    | none => 0
    | some c =>
      let w := x.presentWidth
      x.dies * (w - 1) * c.nq * 16384 * 1000000 * c.cycle.2 / (w * c.cycle.1)

/-- STRICT_WRITE_WINDOW (R209): the LC0 reads of the window count within the conditions unless the window's host writes
exceeded 20 % of W_strict. -/
def strictWriteWindow (q : Nat) (d : Dev) : Dev :=
  match d.quire q with
  | none => d
  | some x =>
    if !x.strict then d
    else
      let outside := decide (d.wStrict q < 50 * (x.winUnits * 4096))
      let d := x.winReads.foldl (fun d r =>
        d.modStat r.1 (fun t => if outside then { t with outside := sat 64 (t.outside + 1) } else t.within 0 r.2)) d
      d.modQuire q (fun x => { x with winUnits := 0, winReads := [] })

def execStrictWriteWindow (q : Nat) (s : State) : Host.Outcome State Fault Refusal := .next (s.onDev (strictWriteWindow q))

end Sys2Proof.Machine
end

