-- ==== Sys2Proof/Machine/Requests.lean ====
section
/-! DEFINITION. What may ask the Sluice for a grant (R379): each purpose of an operation, and the state in which an operation
of that purpose is due. A request that nothing calls for cannot have happened and changes nothing. -/

namespace Sys2Proof.Machine

/-- Whether a request of the same purpose for the same place waits, is held, or has been issued already. -/
def Dev.askedAlready (d : Dev) (r : OpReq) : Bool :=
  let same := fun (o : OpReq) => decide (o.purpose = r.purpose) && decide (o.kind = r.kind) && decide (o.slot = r.slot)
    && decide (o.die = r.die) && decide (o.block = r.block) && decide (o.page = r.page) && decide (o.cwMask = r.cwMask)
  d.slu.waiting.any (fun w => same w.req) || d.slu.held.any (fun g => same g.2.req)

/-- The leaf that a read asks for. -/
def Dev.readLeafOf (d : Dev) (r : OpReq) : Nat := ((d.opLeaves r).head?).getD 0

/-- A read of a leaf read: the leaf and mode are the read's, and codewords are asked for that wait for a sense on a rung that
the purpose fits (R192, R210). -/
def Dev.readAsked (d : Dev) (r : OpReq) (rid : Nat) (peer : Bool) (fits : Rung → Bool) : Bool :=
  match d.leafRead rid with
  | none => false
  | some x => x.walked && decide (x.parent.isSome = peer) && decide (x.pua = d.readLeafOf r)
      && decide (x.slc = isSlc r.kind) && isRead r.kind && decide (r.cwMask ≠ 0) && decide (r.cwMask < 16)
      && (List.range 4).all (fun c => !(bitOf r.cwMask c) || (match x.cws.get? c with
        | some w => fits w.rung && decide (0 < w.need) && !w.passed
        | none => false))

/-- The first sense of a read: asked for once, by the path that reads the leaf itself (R199). -/
def Dev.firstAsked (d : Dev) (r : OpReq) (rid : Nat) (peer : Bool) : Bool :=
  d.readAsked r rid peer (fun g => decide (g = .hard)) && (match d.leafRead rid with
    | none => false
    | some x => !x.issued && decide (r.cwMask = x.cwMask) && (peer || decide (x.path = .direct) || decide (x.path = .suspend)))

/-- Whether a packed leaf of a Furrow is closed: the packing has moved past it (R171). -/
def Dev.leafClosed (d : Dev) (f : Nat) (p : Place) : Bool :=
  let x := d.furrow f
  decide (x.slcSb ≠ some p.s) || decide (p.row < x.slcRow) || (decide (p.row = x.slcRow) && decide (4 * p.k + 4 ≤ x.nextUnit))

/-- A program of packed units: every leaf is closed and holds a unit that is not programmed (R171). -/
def Dev.packAsked (d : Dev) (r : OpReq) (f : Nat) : Bool :=
  decide (r.kind = .progSlc) && (d.opLeaves r).all (fun u =>
    (d.furrow f).pack.any (fun y => decide (puaBase y.pua = u) && !y.done)
    && (match d.place u with
      | some p => d.leafClosed f p
      | none => false))

/-- A row's parity: its slot holds every data leaf, or the superblock is no longer the Furrow's open one (R233, R234). -/
def Dev.parityAsked (d : Dev) (r : OpReq) (f : Nat) : Bool :=
  match d.tc.jslots.get? f with
  | none => false
  | some j => decide (r.kind = .progSlc) && !j.parityFailed && (j.full || decide ((d.furrow f).slcSb ≠ some j.sb))
      && decide (r.count ≤ 1) && decide (some (d.readLeafOf r) = d.rowPua j.quire j.sb j.row j.parity 0)

/-- The superblock that a kind of relocation empties holds a place. -/
def Dev.moveSource (d : Dev) (k : MoveKind) (q : Nat) (p : Place) : Bool :=
  decide (p.q = q) && (match d.quire q with
    | none => false
    | some x =>
      let b := d.sb q p.s
      match k with
      | .fold => b.slc
      | .gc => decide (x.victim = some p.s)
      | .refresh => b.flagged
      | .rebuild => decide (0 < x.lostOn b)
      | .respread => decide (b.members.length < x.presentWidth)
      | .release => match x.work with
        | some (.release m) => b.members.contains m
        | _ => false)

/-- Whether a kind of relocation is under way on a Quire, and may run now (R81, R174, R245, R252, R253). -/
def Dev.moveRuns (d : Dev) (k : MoveKind) (q : Nat) : Bool :=
  match d.quire q with
  | none => false
  | some x =>
    match k with
    | .fold => servingMode d.modes.mode && x.folding.isSome && !x.foldHeld
    | .gc => servingMode d.modes.mode && x.victim.isSome
    | .refresh => servingMode d.modes.mode && (d.sbsOf q).any (fun y => y.2.flagged && decide (0 < y.2.valid))
    | .rebuild => d.workRuns && x.lossWork && bitOf (d.csrW aSigCtrl).toNat 1
    | .respread => d.workRuns && decide (x.work = some .respread) && bitOf (d.csrW aSigCtrl).toNat 2
    | .release => d.workRuns && bitOf (d.csrW aSigCtrl).toNat 2 && (match x.work with
      | some (.release _) => true
      | _ => false)

/-- A relocation's program: every leaf is a data leaf of the target superblock's next rows, and every unit comes from what
the relocation empties. -/
def Dev.copyAsked (d : Dev) (r : OpReq) (k : MoveKind) (q : Nat) : Bool :=
  let f := d.moveFurrow k q
  let x := d.furrow f
  decide (r.kind = .progQlc) && (d.opLeaves r).all (fun u => match d.place u with
    | some p => decide (p.q = q) && decide (x.qlcSb = some p.s) && decide (p.k + 1 ≠ (d.sb q p.s).members.length)
        && decide (x.qlcRow ≤ p.row)
    | none => false)
  && r.units.all (fun u => (d.opLeaves r).contains (puaBase u.pua) && (match d.place u.src with
    | some p => d.moveSource k q p
    | none => false))

/-- A relocation's parity: the parity leaf of a row of the target superblock. -/
def Dev.moveParityAsked (d : Dev) (r : OpReq) (k : MoveKind) (q : Nat) : Bool :=
  let x := d.furrow (d.moveFurrow k q)
  decide (r.kind = .progQlc) && (d.opLeaves r).all (fun u => match d.place u with
    | some p => decide (p.q = q) && decide (x.qlcSb = some p.s) && decide (p.k + 1 = (d.sb q p.s).members.length)
        && decide (x.qlcRow ≤ p.row)
    | none => false)

/-- An erase of a released superblock's block that the gate has let through (R179), not yet done on that member. -/
def Dev.eraseAsked (d : Dev) (r : OpReq) (q s : Nat) : Bool :=
  let b := d.sb q s
  decide (r.kind = .erase) && decide (b.st = .erasing) && (match d.quire q with
    | none => false
    | some x => decide (r.die = s % x.dies) && decide (r.block = s / x.dies)
        && b.members.any (fun m => decide ((x.members.get? m).bind (·.slot) = some r.slot)))

/-- A journal host's writes: its region is blocks 0 and 1, and a descriptor page lists held slots (R237). -/
def Dev.mirrorAsked (d : Dev) (r : OpReq) (q : Nat) : Bool :=
  decide (r.kind = .progSlc) && decide (r.block < 2) && (d.hostOf r.slot).contains q && !r.units.isEmpty
  && r.units.all (fun u => match d.tc.jslots.get? u.pua with
    | some j => decide (j.quire = q) && decide (Nat.land u.iu j.written = u.iu)
    | none => false)

/-- A region block may be erased once it holds no live record (R238). -/
def Dev.regionEraseAsked (d : Dev) (r : OpReq) : Bool :=
  match d.tc.regions.get? (blockKey r.slot r.die r.block) with
  | none => false
  | some b => !(b.recs.any (d.recLive r.slot))

/-- Whether an operation that a request would start is due. -/
def Dev.asked (d : Dev) (r : OpReq) : Bool :=
  match r.purpose with
  | .hostRead n => !r.soft && !r.burst && d.firstAsked r n false
  | .peerRead n => !r.soft && !r.burst && d.firstAsked r n true
  | .softSense n => !r.soft && !r.burst && (match d.leafRead n with
    | some x => d.readAsked r n x.parent.isSome (fun g => decide (g = .soft2) || decide (g = .soft3))
    | none => false)
  | .readRetry n => !r.soft && !r.burst && (match d.leafRead n with
    | some x => d.readAsked r n x.parent.isSome (fun g => decide (g = .retry))
    | none => false)
  | .softDecode _ => r.soft && d.rp.reads.any (fun x => x.2.cws.any (fun c => decide (c.2.rung = .soft2) || decide (c.2.rung = .soft3)))
  | .zeroBurst _ => r.burst && decide (0 < d.bpm.owedUnits)
  | .freshFill => r.burst
  | .hostProg f => r.onSlot && d.packAsked r f
  | .dirtyDrain f => r.onSlot && (d.tc.draining || d.emergency) && d.packAsked r f
  | .rowParity f => r.onSlot && d.parityAsked r f
  | .holdup => r.onSlot && d.emergency && isProg r.kind
  | .move k q => r.onSlot && d.moveRuns k q && (if isRead r.kind then
      (match d.place (d.readLeafOf r) with
        | some p => d.moveSource k q p
        | none => false)
    else d.copyAsked r k q)
  | .moveParity k q => r.onSlot && d.moveRuns k q && d.moveParityAsked r k q
  | .patrol q => r.onSlot && isRead r.kind && servingMode d.modes.mode && bitOf (d.csrW aSigCtrl).toNat 0
      && (match d.place (d.readLeafOf r) with
        | some p => decide (p.q = q)
        | none => false)
  | .sbErase q s => r.onSlot && d.eraseAsked r q s
  | .jmirror q => r.onSlot && d.mirrorAsked r q
  | .jregion => r.onSlot && decide (r.block < 2) && !(d.hostOf r.slot).isEmpty
      && (decide (r.kind = .progSlc) || (decide (r.kind = .erase) && d.regionEraseAsked r))
  | .metadata q => r.onSlot && (d.quire q).isSome && !(isBusyOp r.kind && decide (r.kind = .erase))
  | .joinErase => r.onSlot && decide (r.kind = .erase) && (match d.memberAt r.slot true with
    | some (q, m) => decide (((d.quire q).map (fun x => x.memSt m)) = some .joining)
    | none => false)

/-- The modes in which operations are issued: the serving modes, IDLE and HOLDUP (R68, Table 14-7). -/
def Dev.opsMode (d : Dev) : Bool := hostMode d.modes.mode || decide (d.modes.mode = .holdup)

/-- The leaves of a program fit its mode's program, and a read asks for one leaf (R269). -/
def Dev.countOk (d : Dev) (r : OpReq) : Bool :=
  match d.colo r.slot with
  | none => false
  | some c =>
    let n := if r.kind = .progSlc then c.nslc else if r.kind = .progQlc then c.nq else 1
    decide (max 1 r.count ≤ n) && decide (r.page + max 1 r.count ≤ (if isSlc r.kind then c.bs else c.bq))

/-- GRANT_REQUEST (R375, R378, R379): an operation that is due asks for its charge, and is granted or waits in its rank. -/
def grantRequest (r : OpReq) (d : Dev) : Dev :=
  if d.opsMode && d.reqValid r && (!r.onSlot || d.countOk r) && d.asked r && (!r.onSlot || !d.askedAlready r) then d.request r else d

def execGrantRequest (r : OpReq) (s : State) : Host.Outcome State Fault Refusal := .next (s.onDev (grantRequest r))

/-! ### The map walk (R153, R162, R199) -/

/-- Demanding the domains that a read of a slot's leaf needs: its GL domain, and MC0 (R19). -/
def Dev.demandRead (d : Dev) (slot : Nat) : Dev := (d.demand (glDom slot)).demand 21

/-- The key of a namespace's value of a namespace-scoped feature. -/
def nsFeat (fid ns : Nat) : Nat := 0x100000 * fid + 0x10000 + ns

/-- Whether a namespace has DULBE set in Feature 0x05 (R110, R151). -/
def Dev.dulbe (d : Dev) (ns : Nat) : Bool := bitOf (d.adm.feats.get 0 (nsFeat 0x05 ns)).toNat 16

/-- The units of a command's unwalked leaf reads that lie in a leaf, beside the read `rid`: their reads are taken away, and
they join that read. -/
def Dev.mergeLeaf (d : Dev) (rid cs ns pua : Nat) : Dev :=
  let l := d.rp.reads.filter (fun x => decide (x.2.cs = some cs) && !x.2.walked && decide (x.1 ≠ rid) && x.2.parent.isNone)
  l.foldl (fun d x =>
    match x.2.units with
    | [(iu, _)] =>
      match d.walk ns iu with
      | .mapped p =>
        if puaBase p = puaBase pua then
          let d := { d with rp := { d.rp with reads := (d.rp.reads.del x.1).upd rid (fun r => { r with units := r.units ++ [(iu, puaUnit p)] }) } }
          d.modSlot cs (fun s => { s with units := s.units.map (fun u => if u.iu = iu then { u with rid := rid } else u) })
        else d
      | _ => d
    | _ => d) d

/-- MAP_WALK_DONE (R19, R142, R151, R192, R199): the walk of a leaf read returns. An unwritten or deallocated unit reads
zeros, a LOST one ends the read, and a mapped one is read: the units of the command in the same leaf are read with it,
and the path is decided. -/
def mapWalkDone (rid : Nat) (d : Dev) : Dev :=
  match d.leafRead rid with
  | none => d
  | some r =>
    if r.walked then d
    else
      match r.cs, r.units with
      | some cs, (iu, _) :: _ =>
        match d.walk r.ns iu with
        | .mapped p =>
          let d := (d.modRead rid (fun r => { r with units := [(iu, puaUnit p)] })).mergeLeaf rid cs r.ns p
          let slc := match d.place p with
            | some y => (d.sb y.q y.s).slc
            | none => false
          let d := d.modRead rid (fun r => { r with
            walked := true, pua := puaBase p, slc := slc
            cws := r.cwList.foldl (fun (t : Tbl CwSt) c => t.ins c CwSt.fresh) [] })
          (d.demandRead (puaSlot p)).decideRead rid
        | .lost => d.failCmd cs cqeUnrecovered
        | .unwritten | .dealloc =>
          let d := { d with rp := { d.rp with reads := d.rp.reads.del rid } }
          if d.dulbe r.ns then d.failCmd cs cqeDeallocated
          else d.unitServed cs iu (some 0)
      | _, _ => d

def execMapWalkDone (rid : Nat) (s : State) : Host.Outcome State Fault Refusal := .next (s.onDev (mapWalkDone rid))

end Sys2Proof.Machine
end

