-- ==== Sys2Proof/Machine/Headgate.lean ====
section
/-! DEFINITION. The Headgate's intake and the controllers (R39, R79, R99, R119, R123 to R125, R132, R133, R137, R139 to R143,
R149): doorbells, fetching, controller enable, reset and shutdown, and what a lost or reset function leaves. -/

namespace Sys2Proof.Machine

/-! ### Leaving IDLE (R79) -/

/-- The exit from IDLE on a doorbell write: the last operational state is returned to, an entry under way is abandoned with
its suspended erases resumed, and the domains that the entry gated or took OFF come back with those that the serving column
holds ON. -/
def Dev.leaveIdle (d : Dev) : Dev :=
  let back := fun (d : Dev) => { d with modes := { d.modes with selPs := d.modes.lastOpPs, hostPs := d.modes.lastOpPs } }
  if d.modes.idleEntry then
    let d := back { d with modes := { d.modes with idleEntry := false } }
    d.rp.dies.foldl (fun d x => if x.2.susp && decide (x.2.kind = .erase) then d.resumeDie (x.1 / 64) (x.1 % 64) else d) d
  else if d.modes.mode = .idle && !d.modes.leaving then
    let d := back d
    let rule : Nat → DomRule := fun k => domRule .serve d.modes.hostPs d.popGl d.popDr d.pairPlan k
    let ups : List Nat := switchable.filter (fun k => decide (rule k = .holdOn) || d.modes.before.contains k)
    let d : Dev := ups.foldl (fun (d : Dev) (k : Nat) => d.powerOn k) d
    let wait := (ups.filter (fun (k : Nat) => decide ((d.dom k).st ≠ .on) && !(d.dom k).failed)).map (fun (k : Nat) => (k, Pd.on))
    { d with modes := { d.modes with leaving := true, settle := wait } }.settleMode
  else d

/-! ### Doorbells (R39, R99, R132) -/

/-- Whether a doorbell write reaches a controller: not before the entry mode (R39), and only over a link that is up. -/
def Dev.bellOk (d : Dev) (f : Fn) : Bool :=
  (hostMode d.modes.mode || decide (d.modes.mode = .holdup)) && (d.hport f.port).dl && (d.fnst f).rdy

/-- SQ_TAIL_DOORBELL (R99, R123, R132). -/
def sqTailDoorbell (f : Fn) (qid v : Nat) (d : Dev) : Dev :=
  if !d.bellOk f then d
  else
    let d := d.leaveIdle
    match (d.fnst f).sqs.get? qid with
    | none => d.aen f aeDoorbell
    | some q =>
      if q.size ≤ v then d.aen f aeDoorbell
      else if v = q.tail then d
      else d.modFn f (fun s => { s with sqs := s.sqs.ins qid { q with tail := v, bells := q.bells ++ [(v, d.now)] } })

def execSqTailDoorbell (fn : Fn) (qid v : Nat) (s : State) : Host.Outcome State Fault Refusal :=
  .next (s.onDev (sqTailDoorbell fn qid v))

/-- Entries of a ring from `a` up to `b`. -/
def ringDist (size a b : Nat) : Nat := (b + size - a) % size

/-- CQ_HEAD_DOORBELL (R99, R135): the head may move over entries that have been posted, and held completions follow. -/
def cqHeadDoorbell (f : Fn) (qid v : Nat) (d : Dev) : Dev :=
  if !d.bellOk f then d
  else
    let d := d.leaveIdle
    match (d.fnst f).cqs.get? qid with
    | none => d.aen f aeDoorbell
    | some q =>
      if q.size ≤ v ∨ ringDist q.size q.head q.tail < ringDist q.size q.head v then d.aen f aeDoorbell
      else (d.modFn f (fun s => { s with cqs := s.cqs.ins qid { q with head := v } })).postHeld f qid (q.held.length + 1)

def execCqHeadDoorbell (fn : Fn) (qid v : Nat) (s : State) : Host.Outcome State Fault Refusal :=
  .next (s.onDev (cqHeadDoorbell fn qid v))

/-! ### Slots that fetches may take (R124) -/

/-- Entries of outstanding fetches that a test picks; each has its slot from the fetch decision on. -/
def Hg.inFlight (h : Hg) (p : Fetch → Bool) : Nat := ((h.fetches.filter p).map (·.n)).sum

/-- held_t, admin_held and free with the outstanding fetches counted. -/
def Dev.heldT (d : Dev) (t : Nat) : Nat := d.heldBy t + d.hg.inFlight (fun x => decide (x.qid ≠ 0) && decide (x.fn.tenant = t))
def Dev.heldAdmin (d : Dev) : Nat := d.adminHeld + d.hg.inFlight (fun x => decide (x.qid = 0))
def Dev.freeNow (d : Dev) : Nat := d.slotsFree - d.hg.inFlight (fun _ => true)

/-- admin_reserve_unused and the unused reserves of the other tenants. -/
def Dev.reserved (d : Dev) (t : Nat) : Nat :=
  (d.reg aHgSlotAdmin 10 0 - d.heldAdmin)
  + ((d.hg.contracts.filter (fun x => decide (x.1 ≠ t))).map (fun x => x.2.slotReserve - d.heldT x.1)).sum

/-- The largest n up to 8 that R124 lets a tenant fetch. -/
def Dev.grantableSlots (d : Dev) (t : Nat) : Nat :=
  let c := d.contract t
  let held := d.heldT t
  let free := d.freeNow
  let res := d.reserved t
  (List.range 9).foldl (fun m n =>
    if decide (n ≤ free) && decide (held + n ≤ c.slotCap)
      && (decide (held + n ≤ c.slotReserve) || decide (n + res ≤ free)) then n else m) 0

/-! ### Arbitration (R132, R133) -/

/-- A submission queue named by its function and number; its key orders the round robins. -/
structure SqRef where
  fn  : Fn
  qid : Nat
  q   : Sq
deriving DecidableEq, Repr

def SqRef.key (x : SqRef) : Nat := 256 * x.fn.key + x.qid

/-- Entries of a queue already being fetched, and those that wait. -/
def Dev.sqFlight (d : Dev) (x : SqRef) : Nat := d.hg.inFlight (fun y => decide (y.fn = x.fn) && decide (y.qid = x.qid))
def Dev.sqPending (d : Dev) (x : SqRef) : Nat := ringDist x.q.size x.q.head x.q.tail - d.sqFlight x

/-- The queues of a controller that fetches: enabled and ready, its Bus Master Enable set, no reset or shutdown running. -/
def FnSt.fetches (s : FnSt) : Bool := s.rdy && !s.resetting && decide (s.shst = 0) && !s.cfs && s.bme

/-- Fewer than 2,048 fetch reads are outstanding at a port. -/
def Dev.portFetches (d : Dev) (p : Port) : Bool := decide ((d.hg.fetches.filter (fun x => x.fn.port = p)).length < 2048)

/-- The non-empty queues of controllers that fetch, the admin queues or the I/O queues. -/
def Dev.readySqs (d : Dev) (admin : Bool) : List SqRef :=
  (d.fns.flatMap (fun x =>
    let f := Fn.ofKey x.1
    if x.2.fetches && (d.hport f.port).dl && d.portFetches f.port then
      (x.2.sqs.filter (fun y => decide (y.1 = 0) == admin)).map (fun (y : Nat × Sq) => SqRef.mk f y.1 y.2)
    else [])).filter (fun x => decide (0 < d.sqPending x))

/-- The eligible admin queues and I/O queues. -/
def Dev.adminQueues (d : Dev) : List SqRef := if d.freeNow = 0 then [] else d.readySqs true
def Dev.ioQueues (d : Dev) : List SqRef := (d.readySqs false).filter (fun x => decide (0 < d.grantableSlots x.fn.tenant))

/-- The next key after `k` in a list, the least where none is greater. -/
def nextKey (l : List Nat) (k : Nat) : Option Nat :=
  let up := l.filter (fun x => k < x)
  ((if up.isEmpty then l else up).foldl (fun (m : Option Nat) x => some (min x (m.getD x))) none)

/-- Issuing a fetch of up to `n` entries, which never crosses the end of the queue. -/
def Dev.fetch (d : Dev) (x : SqRef) (n : Nat) : Dev :=
  let first := (x.q.head + d.sqFlight x) % x.q.size
  let n := min (min n (d.sqPending x)) (x.q.size - first)
  { d with hg := { d.hg with fetches := d.hg.fetches ++ [Fetch.mk x.fn x.qid n] } }.emit (.fetch x.fn x.qid first n)

/-- The time since the oldest doorbell write of a queue that still waits for fetch. -/
def Dev.sqAge (d : Dev) (x : SqRef) : Nat :=
  match x.q.bells.find? (fun b => decide (d.sqFlight x < ringDist x.q.size x.q.head b.1)) with
  | some b => d.now - b.2
  | none => 0

/-- serve_class: deficit round robin over the class's tenants, then round robin over the tenant's queues. -/
def Dev.serveClass (d : Dev) (qs : List SqRef) (cls : Nat) : Dev :=
  let ts := ((qs.filter (fun x => decide ((d.contract x.fn.tenant).cls = cls))).map (·.fn.tenant)).dedup
  let cur := d.hg.drr.get 0 cls
  let t0 : Option Nat := if ts.contains cur then some cur else nextKey ts cur
  match t0 with
  | none => d
  | some t0 =>
    let df := d.hg.deficit.get 0 t0
    let (d, t) := if df ≤ 0 then
        ({ d with hg := { d.hg with deficit := d.hg.deficit.put 0 t0 (df + (d.contract t0).weight) } }, (nextKey ts t0).getD t0)
      else (d, t0)
    let mine := qs.filter (fun x => decide (x.fn.tenant = t))
    match (nextKey (mine.map SqRef.key) (d.hg.rrSq.get 0 t)).bind (fun k => mine.find? (fun x => decide (x.key = k))) with
    | none => d
    | some x =>
      let n := min (min 8 (d.sqPending x)) (d.grantableSlots t)
      let n := min n (x.q.size - (x.q.head + d.sqFlight x) % x.q.size)
      let h := { d.hg with drr := d.hg.drr.put 0 cls t, rrSq := d.hg.rrSq.put 0 t x.key
                           deficit := d.hg.deficit.put 0 t (d.hg.deficit.get 0 t - n) }
      { d with hg := h }.fetch x n

/-- The starvation limit of a class in ns; 0 disables the guard (HG_STARVE). -/
def Dev.starveNs (d : Dev) (cls : Nat) : Nat :=
  10000 * (if cls = 1 then d.reg aHgStarve 7 0 else if cls = 2 then d.reg aHgStarve 15 8 else d.reg aHgStarve 31 16)

/-- Whether a class is starved. -/
def Dev.starved (d : Dev) (qs : List SqRef) (cls : Nat) : Bool :=
  let l := d.starveNs cls
  decide (l ≠ 0) && qs.any (fun x => decide ((d.contract x.fn.tenant).cls = cls) && decide (l < d.sqAge x))

/-- Whether fetching runs: fetch_en, no drain, and not in HOLDUP (R395). -/
def Dev.fetchOn (d : Dev) : Bool :=
  bitOf (d.csrW aHgCtrl).toNat 0 && !(bitOf (d.csrW aHgCtrl).toNat 1) && hostMode d.modes.mode && d.domReady 2

/-- FETCH_DECISION (R132): one decision. -/
def fetchDecision (d : Dev) : Dev :=
  if !d.fetchOn then d
  else
    let adm := d.adminQueues
    let io := d.ioQueues
    if !adm.isEmpty && (io.isEmpty || decide (d.reg aHgCtrl 7 4 ≤ d.hg.sinceAdmin)) then
      match (nextKey (adm.map SqRef.key) d.hg.rrAdmin).bind (fun k => adm.find? (fun x => decide (x.key = k))) with
      | none => d
      | some x => { d with hg := { d.hg with sinceAdmin := 0, rrAdmin := x.key } }.fetch x (min 8 d.freeNow)
    else
      let d := { d with hg := { d.hg with sinceAdmin := d.hg.sinceAdmin + 1 } }
      match [1, 2, 3].find? (d.starved io) with
      | some c => d.serveClass io c
      | none =>
        match [0, 1, 2, 3].find? (fun c => io.any (fun x => decide ((d.contract x.fn.tenant).cls = c))) with
        | some c => d.serveClass io c
        | none => d

def execFetchDecision (s : State) : Host.Outcome State Fault Refusal := .next (s.onDev fetchDecision)

/-! ### Ending a controller's commands (R117, R139, R143) -/

/-- A command's buffers and reservations go: its buffers to zeroing, and its reads and holds end. -/
def Dev.dropWork (d : Dev) (cs : Nat) : Dev :=
  let d := d.endReads cs
  match d.hg.slots.get? cs with
  | none => d
  | some s =>
    let d := d.freeBufs s.bufs
    let d := { d with col := { d.col with resv := d.col.resv - s.rsv } }
    d.modSlot cs (fun s => { s with bufs := [], rsv := 0, units := [] })

/-- What a controller's end does to one of its commands: before its commit point it ends without effect, a committed write
is in the engines' hands, and other committed commands finish with their completion discarded. -/
def Dev.endSlot (d : Dev) (cs : Nat) : Dev :=
  match d.hg.slots.get? cs with
  | none => d
  | some s =>
    let gone := fun (d : Dev) => (d.discardCpl s).freeSlot cs
    match s.st with
    | .fetched | .paced | .executing => gone (d.dropWork cs)
    | .ending | .aborted => gone d
    | .committed =>
      if s.tags.isEmpty || s.reads then d.modSlot cs (fun s => { s with discard := true })
      else gone d

/-- R139 for one function: fetching stops, its commands end or lose their completions, its queues are gone. -/
def Dev.endFn (d : Dev) (f : Fn) : Dev :=
  let cs := (d.slotsOf f).map (·.1)
  let d := { d with hg := { d.hg with fetches := d.hg.fetches.filter (fun x => decide (x.fn ≠ f)) } }
  let d := d.modFn f (fun s => { s with sqs := [], cqs := [], aers := [], events := [], pba := [], coal := [] })
  cs.foldl (fun d c => d.endSlot c) d

/-- The features of a controller's own scope return to their defaults. -/
def FnSt.ctlReset (s : FnSt) : FnSt := { s with feats := [], shst := 0, cfs := false }

/-- A function's return to its configuration-reset state; Secondary Controller Offline is the subsystem's and stays. -/
def Dev.cfgReset (d : Dev) (f : Fn) : Dev :=
  let d := d.endFn f
  let d := d.modFn f (fun s => { FnSt.reset with online := s.online, errs := s.errs, errCount := s.errCount })
  match f with
  | .pf p => d.modBox p (fun b => { b with done := false, changed := false, doneEn := false, modeEn := false })
  | .vf _ _ => d

/-- The VFs of a port that have state. -/
def Dev.vfsOf (d : Dev) (p : Port) : List Fn :=
  (d.fns.map (fun x => Fn.ofKey x.1)).filter (fun f => decide (f.port = p) && !f.isPf)

/-- A port's functions all return to their configuration-reset state; the PF's VFs are no longer enabled. -/
def Dev.resetPortFns (d : Dev) (p : Port) : Dev :=
  let d := (d.vfsOf p ++ [Fn.pf p]).foldl (fun d f => d.cfgReset f) d
  d.modPort p (fun h => { h with vfEn := false, numVfs := 0 })

/-- Whether a function answers on its port. -/
def Dev.fnUp (d : Dev) (f : Fn) : Bool :=
  match f with
  | .pf p => (d.hport p).dl
  | .vf p n => (d.hport p).dl && (d.hport p).vfEn && decide (1 ≤ n) && decide (n ≤ (d.hport p).numVfs)

/-! ### Enabling, resetting and shutting down controllers -/

/-- A controller becomes ready, with its admin queues as AQA, ASQ and ACQ set them; other entry sizes than 64 and 16 bytes
set CSTS.CFS (R104). A secondary controller that is Offline does not become ready. -/
def Dev.makeReady (d : Dev) (f : Fn) : Dev :=
  let s := d.fnst f
  if s.rdy || s.cfs || !s.online then d
  else if bitsOf s.cc.toNat 19 16 ≠ 6 ∨ bitsOf s.cc.toNat 23 20 ≠ 4 then d.modFn f (fun s => { s with cfs := true })
  else
    let sq : Sq := ⟨s.asq.toNat, bitsOf s.aqa.toNat 11 0 + 1, 0, 0, 0, []⟩
    let cq : Cq := ⟨s.acq.toNat, bitsOf s.aqa.toNat 27 16 + 1, 0, 0, true, 0, true, [], false⟩
    d.modFn f (fun s => { s with rdy := true, sqs := [(0, sq)], cqs := [(0, cq)] })

/-- Every controller whose CC.EN is 1 becomes ready when the entry mode is reached (R39). -/
def Dev.makeAllReady (d : Dev) : Dev :=
  (d.fns.filter (fun x => bitOf x.2.cc.toNat 0)).foldl (fun d x => d.makeReady (Fn.ofKey x.1)) d

/-- CONTROLLER_ENABLE (R39, R104): a write of CC with EN = 1. -/
def controllerEnable (f : Fn) (cc : W32) (d : Dev) : Dev :=
  if !d.fnUp f || !(bitOf cc.toNat 0) then d
  else
    let was := bitOf (d.fnst f).cc.toNat 0
    let d := d.modFn f (fun s => { s with cc := cc })
    if !was && hostMode d.modes.mode then d.makeReady f else d

def execControllerEnable (fn : Fn) (cc : W32) (s : State) : Host.Outcome State Fault Refusal :=
  .next (s.onDev (controllerEnable fn cc))

/-- A controller reset (R139): CSTS.RDY falls once its slots are free. -/
def Dev.resetCtl (d : Dev) (f : Fn) : Dev :=
  let d := (d.endFn f).modFn f (fun s => { s.ctlReset with resetting := s.rdy })
  let d := match f with
    | .pf p => d.modBox p (fun b => { b with done := false, changed := false, doneEn := false, modeEn := false })
    | .vf _ _ => d
  d.settleFn f

/-- CONTROLLER_RESET (R139): a write of CC with EN = 0. -/
def controllerReset (f : Fn) (cc : W32) (d : Dev) : Dev :=
  if !d.fnUp f || bitOf cc.toNat 0 then d
  else
    let was := bitOf (d.fnst f).cc.toNat 0
    let d := d.modFn f (fun s => { s with cc := cc })
    if was then d.resetCtl f else d

def execControllerReset (fn : Fn) (cc : W32) (s : State) : Host.Outcome State Fault Refusal :=
  .next (s.onDev (controllerReset fn cc))

/-- SHUTDOWN_NOTIFICATION (R140, R427): fetching stops, commands run to their outcomes, outstanding Asynchronous Event
Requests end without a completion, and a PF's ledger is persisted. -/
def shutdownNotification (f : Fn) (cc : W32) (d : Dev) : Dev :=
  let n := bitsOf cc.toNat 15 14
  if !d.fnUp f || !(n = 1 || n = 2) || !(d.fnst f).rdy then d
  else
    let again := decide ((d.fnst f).shst ≠ 0)
    let d := d.modFn f (fun s => { s with cc := cc })
    if again then d
    else
      let aers := (d.fnst f).aers
      let d := d.modFn f (fun s => { s with shst := 1, aers := [] })
      let d := if f.isPf then d.startPersist (.shutdown f) else d
      (aers.foldl (fun d c => d.freeSlot c) d).settleFn f

def execShutdownNotification (fn : Fn) (cc : W32) (s : State) : Host.Outcome State Fault Refusal :=
  .next (s.onDev (shutdownNotification fn cc))

/-- FUNCTION_LEVEL_RESET (R119): a VF's own controller; a PF's, and every VF of it. -/
def functionLevelReset (f : Fn) (d : Dev) : Dev :=
  if !d.fnUp f then d
  else match f with
    | .vf _ _ => d.cfgReset f
    | .pf p => d.resetPortFns p

def execFunctionLevelReset (fn : Fn) (s : State) : Host.Outcome State Fault Refusal :=
  .next (s.onDev (functionLevelReset fn))

/-! ### Entries arrive (R123, R143) -/

/-- The lowest free slot. -/
def Dev.freeCs (d : Dev) : Nat → Nat → Nat
  | 0, i => i
  | n + 1, i => if d.hg.slots.has i then d.freeCs n (i + 1) else i

/-- When the doorbell write was received that made the queue's entry at `head` visible. -/
def Sq.bellAt (q : Sq) (now : Nat) : Nat := ((q.bells.find? (fun b => decide (0 < ringDist q.size q.head b.1))).map (·.2)).getD now

/-- An entry takes a slot: the head moves past it. -/
def Dev.takeSlot (d : Dev) (f : Fn) (qid : Nat) (e : BitVec 512) : Dev :=
  match (d.fnst f).sqs.get? qid with
  | none => d
  | some q =>
    let cs := d.freeCs (d.hg.slots.length + 1) 0
    let s : CSlot := {
      st := .fetched, wait := .nothing, fn := f, sqid := qid, cid := bitsOf e.toNat 31 16, sqe := e, order := d.hg.order, t0 := q.bellAt d.now
      tenant := f.tenant, classified := false, charged := false, pacedAt := none, wasPaced := false, discard := false, bufs := []
      tags := [], units := [], want := 0, rsv := 0, commitAt := 0, stage := 0, cqe := none }
    let q' := { q with head := (q.head + 1) % q.size, bells := q.bells.filter (fun b => decide (1 < ringDist q.size q.head b.1)) }
    let d := d.modFn f (fun s => { s with sqs := s.sqs.ins qid q' })
    let d := { d with hg := { d.hg with slots := d.hg.slots.ins cs s, order := d.hg.order + 1 } }
    if qid = 0 then d else d.modStat f.tenant (fun t => { t with most := max t.most (d.heldBy f.tenant) })

/-- SQ_FETCH_COMPLETE (R123, R143): the entries of the oldest fetch of a queue arrive, or the fetch has failed: CSTS.CFS is
set on that controller only, and its slots are treated as in R139. -/
def sqFetchComplete (f : Fn) (qid : Nat) (r : FetchRes) (d : Dev) : Dev :=
  match d.hg.fetches.find? (fun x => decide (x.fn = f) && decide (x.qid = qid)) with
  | none => d
  | some x =>
    let d := { d with hg := { d.hg with fetches := d.hg.fetches.erase x } }
    match r with
    | .entries l => (l.take x.n).foldl (fun d e => d.takeSlot f qid e) d
    | .failed =>
      let d := (d.endFn f).modFn f (fun s => { s with cfs := true })
      d.ev evHgSqFetchFail 0 [.num 2 f.cntlid, .num 2 qid]

def execSqFetchComplete (fn : Fn) (qid : Nat) (res : FetchRes) (s : State) : Host.Outcome State Fault Refusal :=
  .next (s.onDev (sqFetchComplete fn qid res))

end Sys2Proof.Machine
end

