-- ==== Sys2Proof/Machine/Intake.lean ====
section
/-! DEFINITION. Classification and charging (R107, R108, R130, R131, R142, R316, R324): what a fetched command must satisfy
before it runs, and the token buckets. -/

namespace Sys2Proof.Machine

/-! ### Commands that a controller accepts (Table 04-8, R108) -/

/-- The admin opcodes of every controller, and those of PF controllers alone. -/
def adminAny : List Nat := [0x00, 0x01, 0x02, 0x04, 0x05, 0x06, 0x08, 0x09, 0x0A, 0x0C, 0x86]
def adminPf : List Nat :=
  [0x0D, 0x10, 0x11, 0x14, 0x15, 0x1C, 0x1D, 0x1E, 0x80, 0x84, 0xC0, 0xC1, 0xC2, 0xC3, 0xC4]

/-- Whether a controller supports an admin opcode. -/
def adminKnown (pf : Bool) (op : Nat) : Bool := adminAny.contains op || (pf && adminPf.contains op)

/-- The feature identifiers of subsystem or endurance-group scope (Table 04-9). -/
def subsystemFeat (fid : Nat) : Bool := [0x02, 0x04, 0x0C, 0x0E, 0x11, 0x1D].contains fid

/-- The commands that the admin sequencer runs (R118). -/
def CSlot.sequenced (s : CSlot) : Bool :=
  [0x0D, 0x15, 0x80, 0x84, 0x10, 0x1C, 0xC0, 0xC1, 0xC2, 0xC3, 0xC4].contains s.opcode
  || (decide (s.opcode = 0x09) && subsystemFeat (bitsOf (s.dw 10) 7 0))

/-- Whether a namespace of a kind takes an I/O opcode: 0 conventional, 1 FDP, 2 zoned. -/
def ioKnown (kind : Nat) (op : Nat) : Bool :=
  [0x00, 0x01, 0x02, 0x08, 0x0C].contains op || (decide (kind ≠ 2) && decide (op = 0x09))
  || (decide (kind = 1) && (decide (op = 0x12) || decide (op = 0x1D)))
  || (decide (kind = 2) && (decide (op = 0x79) || decide (op = 0x7A) || decide (op = 0x7D)))

/-- Whether a command moves or names logical blocks. -/
def CSlot.ranged (s : CSlot) : Bool := [0x01, 0x02, 0x08, 0x0C, 0x7D].contains s.opcode

/-- Write Zeroes with the Deallocate bit, which zoned namespaces do not heed (R184). -/
def CSlot.deac (s : CSlot) (n : Nsp) : Bool := decide (s.opcode = 0x08) && bitOf (s.dw 12) 25 && decide (n.kind ≠ 2)

/-- The first and the number of the 4 KiB units that a range of logical blocks touches (Table 05-5). -/
def Nsp.touched (n : Nsp) (slba nlb : Nat) : Nat × Nat :=
  let p := lbasPerUnit n.lbaf
  (slba / p, (slba + nlb - 1) / p + 1 - slba / p)

/-- The placement directive of a Write: fields that R165 refuses. -/
def CSlot.placementBad (s : CSlot) (n : Nsp) : Bool :=
  let dt := bitsOf (s.dw 12) 23 20
  let ds := bitsOf (s.dw 13) 31 16
  if dt = 0 then false
  else if dt = 2 ∧ n.kind = 1 then
    decide (bitsOf ds 15 12 ≠ n.quire) || decide (bitsOf ds 11 8 ≠ 0) || decide (n.handles.length ≤ bitsOf ds 7 0)
  else true

/-- Fields of an I/O command that no namespace accepts: fused operations, the reserved data pointer form, a transfer above
MDTS, options of R108 to R109 that are not supported. -/
def CSlot.ioFieldBad (s : CSlot) (n : Nsp) : Bool :=
  let big := decide (2 * 2 ^ 20 < s.nlb * lbaBytes n.lbaf)
  decide (bitsOf (s.dw 0) 9 8 ≠ 0) || decide (bitsOf (s.dw 0) 15 14 = 3)
  || (big && ([0x01, 0x02, 0x7D].contains s.opcode || (decide (s.opcode = 0x08) && !s.deac n)))
  || (decide (s.opcode = 0x01) && s.placementBad n)
  || (decide (s.opcode = 0x79) && !([1, 2, 3, 4, 5].contains (bitsOf (s.dw 13) 7 0)))
  || (decide (s.opcode = 0x7A) && decide (bitsOf (s.dw 13) 7 0 ≠ 0))
  || (decide (s.opcode = 0x12) && decide (bitsOf (s.dw 10) 7 0 ≠ 1))
  || (decide (s.opcode = 0x1D) && decide (bitsOf (s.dw 10) 7 0 ≠ 1))

/-- Whether Sanitize holds I/O back: one runs, or failure mode lasts (R447, R448). -/
def Dev.sanHolds (d : Dev) : Bool := d.san.running || d.san.failure

/-- Why a classified I/O command ends without being charged, if it does (R108, R142). -/
def Dev.ioRefusal (d : Dev) (s : CSlot) (n : Nsp) : Option Cqe :=
  let zoned := decide (n.kind = 2) && decide (bitsOf (d.fnst s.fn).cc.toNat 6 4 ≠ 6)
  if !(ioKnown n.kind s.opcode) || (zoned && ([0x79, 0x7A, 0x7D].contains s.opcode)) then some cqeInvalidOpcode
  else if d.sanHolds then some cqeSanitizing
  else if (n.formatting.map (fun x => decide (x ≤ s.order))).getD false || n.deleting then some cqeFormatting
  else if s.ioFieldBad n then some cqeInvalidField
  else if s.ranged && decide (s.opcode ≠ 0x7D) && decide (n.nsze < s.slba + s.nlb) then some cqeLbaRange
  else if [0x79, 0x7A, 0x7D].contains s.opcode && decide (n.nsze ≤ s.slba)
      && !(decide (s.opcode = 0x79) && bitOf (s.dw 13) 8) then some cqeLbaRange
  else none

/-- Why an admin command ends at classification (R107, R447). -/
def Dev.adminRefusal (d : Dev) (s : CSlot) : Option Cqe :=
  if !(adminKnown s.fn.isPf s.opcode) then some cqeInvalidOpcode
  else if d.san.running && s.sequenced then some cqeSanitizing
  else if bitsOf (s.dw 0) 9 8 ≠ 0 then some cqeInvalidField
  else none

/-- A command is classified: its tenant is known. -/
def Dev.setClassified (d : Dev) (cs t : Nat) : Dev := d.modSlot cs (fun s => { s with classified := true, tenant := t })

/-- COMMAND_CLASSIFIED (R123, R324): the search of the classification group names tenant and namespace; a command that names
no namespace, or all of them, is not searched. A miss ends it. The search waits for its tile to wake. -/
def commandClassified (cs : Nat) (lost : Bool) (d : Dev) : Dev :=
  match d.hg.slots.get? cs with
  | none => d
  | some s =>
    if s.st ≠ .fetched ∨ s.classified = true then d
    else if s.sqid = 0 then
      match d.adminRefusal s with
      | some e => d.complete cs e
      | none => d.setClassified cs s.fn.tenant
    else if s.nsid = 0 ∨ s.nsid = 0xFFFFFFFF then
      if d.sanHolds then d.complete cs cqeSanitizing
      else if s.opcode = 0 ∧ s.nsid ≠ 0 then d.setClassified cs s.fn.tenant
      else d.complete cs cqeInvalidNs
    else if !(d.domReady 5) then d.demand 5
    else
      let (d, l) := d.colSearchL lost 0 (BitVec.ofNat 192 (ctlKey s.fn + 65536 * s.nsid)) 0
      match l with
      | [] => d.complete cs cqeInvalidNs
      | (_, e) :: _ =>
        match d.nsp (bitsOf e.res.toNat 19 10) with
        | none => d.complete cs cqeInvalidNs
        | some n =>
          match d.ioRefusal s n with
          | some e => d.complete cs e
          | none => d.setClassified cs (bitsOf e.res.toNat 9 0)

def execCommandClassified (cs : Nat) (lost : Bool) (s : State) : Host.Outcome State Fault Refusal :=
  .next (s.onDev (commandClassified cs lost))

/-! ### Token buckets (R130, R131) -/

/-- The bucket of a command: true for the read bucket; and its cost in 4 KiB units (Table 05-5). -/
def CSlot.cost (s : CSlot) (n : Nsp) : Bool × Nat :=
  match s.opcode with
  | 0x02 | 0x0C => (true, (n.touched s.slba s.nlb).2)
  | 0x01 | 0x7D => (false, (n.touched s.slba s.nlb).2)
  | 0x08 => (false, if s.deac n then 1 else (n.touched s.slba s.nlb).2)
  | 0x09 | 0x79 | 0x1D => (false, 1)
  | 0x7A | 0x12 => (true, 1)
  | _ => (true, 0)

/-- A tenant's read or write bucket, and changing it. -/
def Dev.bucket (d : Dev) (rd : Bool) (t : Nat) : Bucket := if rd then d.hg.rbucket.get .reset t else d.hg.wbucket.get .reset t
def Dev.setBucket (d : Dev) (rd : Bool) (t : Nat) (b : Bucket) : Dev :=
  { d with hg := if rd then { d.hg with rbucket := d.hg.rbucket.put .reset t b } else { d.hg with wbucket := d.hg.wbucket.put .reset t b } }

/-- A contract's rate and burst for a bucket. -/
def Contract.rate (c : Contract) (rd : Bool) : Option Nat := if rd then c.readRate else c.writeRate
def Contract.burst (c : Contract) (rd : Bool) : Nat := if rd then c.readBurst else c.writeBurst

/-- Whether an earlier command of the same tenant and bucket waits for tokens. -/
def Dev.tokensAhead (d : Dev) (s : CSlot) (rd : Bool) : Bool :=
  d.hg.slots.any (fun x => decide (x.2.st = .paced) && decide (x.2.wait = .tokens) && decide (x.2.tenant = s.tenant)
    && decide (x.2.order < s.order) && (match d.nsOf x.2 with
      | some (_, n) => (x.2.cost n).1 == rd
      | none => false))

/-- Charging a command: true once it is charged. A command with cost 0 takes no bucket; an unlimited bucket never paces;
ignore_tokens charges at once. -/
def Dev.charge (d : Dev) (cs : Nat) : Dev × Bool :=
  match d.hg.slots.get? cs with
  | none => (d, false)
  | some s =>
    if s.charged then (d, true)
    else
      let (rd, c) := match d.nsOf s with
        | some (_, n) => s.cost n
        | none => (true, 0)
      let paid := fun (d : Dev) => d.modSlot cs (fun s => { s with charged := true, st := .executing, wait := .nothing })
      if c = 0 then (paid d, true)
      else
        let count := fun (d : Dev) => d.modStat s.tenant (fun t =>
          if rd then { t with readsCharged := sat 64 (t.readsCharged + 1) } else { t with writesCharged := sat 64 (t.writesCharged + 1) })
        match (d.contract s.tenant).rate rd with
        | none => (count (paid d), true)
        | some _ =>
          let b := d.bucket rd s.tenant
          if bitOf (d.csrW aHgCtrl).toNat 3 || (decide (0 < b.level) && !(d.tokensAhead s rd)) then
            (count (paid (d.setBucket rd s.tenant { b with level := b.level - c })), true)
          else
            (d.modSlot cs (fun s => { s with st := .paced, wait := .tokens, pacedAt := some (s.pacedAt.getD d.now), wasPaced := true }), false)

/-- Pacing a charged command before its data transfer (R131). -/
def Dev.pace (d : Dev) (cs : Nat) (w : SlWait) : Dev :=
  d.modSlot cs (fun s => { s with st := .paced, wait := w, pacedAt := some (s.pacedAt.getD d.now), wasPaced := true })

/-- One microsecond of refill of a bucket: the rate is added in millionths, and the burst caps it. -/
def Bucket.refill (b : Bucket) (rate burst : Nat) : Bucket :=
  let f := b.frac + rate
  let l := b.level + (f / 1000000 : Nat)
  if (burst : Int) ≤ l then ⟨burst, 0⟩ else ⟨l, f % 1000000⟩

/-- Refilling both buckets of every contract. -/
def Dev.refill (d : Dev) : Dev :=
  d.hg.contracts.foldl (fun d x => [true, false].foldl (fun d rd =>
    match x.2.rate rd with
    | none => d
    | some r => d.setBucket rd x.1 ((d.bucket rd x.1).refill r (x.2.burst rd))) d) d

/-- The slots that a test picks, in order of fetch. -/
def Dev.inOrder (d : Dev) (f : CSlot → Bool) : List Nat :=
  ((d.hg.slots.filter (fun x => f x.2)).map (·.1)).foldl (fun l c =>
    insertBy (fun c => ((d.hg.slots.get? c).map (·.order)).getD 0) c l) []

/-- An I/O command that its row may run: classified, of one of the opcodes, fetched or charged and waiting to run. -/
def Dev.ioSlot (d : Dev) (cs : Nat) (ops : List Nat) : Option CSlot :=
  match d.hg.slots.get? cs with
  | none => none
  | some s =>
    if s.classified && decide (s.sqid ≠ 0) && ops.contains s.opcode
      && (decide (s.st = .fetched) || (decide (s.st = .executing) && decide (s.wait = .nothing))) then some s
    else none

/-- A command that names a namespace runs its own part once it is charged; a namespace detached meanwhile ends it (R118). -/
def Dev.withNs (d : Dev) (cs : Nat) (f : Dev → CSlot → Nat → Nsp → Dev) : Dev :=
  match d.hg.slots.get? cs with
  | none => d
  | some s =>
    match d.nsOf s with
    | none => (d.dropWork cs).complete cs cqeInvalidNs
    | some (ns, n) => f d s ns n

/-- Charging a command and running its own part. -/
def Dev.chargeThen (d : Dev) (cs : Nat) (f : Dev → CSlot → Nat → Nsp → Dev) : Dev :=
  let (d, ok) := d.charge cs
  if ok then d.withNs cs f else d

end Sys2Proof.Machine
end

