-- ==== Sys2Proof/Machine/Writes.lean ====
section
/-! DEFINITION. Host writes from the charge to the removal of their range entries (R131, R134 to R136, R153, R163, R169 to
R172, R184 to R186, R315, R320, R322, R326, R327): space, commit, packing, zones' write pointers, and completion. -/

namespace Sys2Proof.Machine

/-! ### The range entries of a command (R326, R184) -/

/-- Entries for whole units, at most 512 units each. -/
def chunkSpecs (ns kind first count : Nat) (h : W32) : List RSpec :=
  (List.range (ceilDiv count 512)).map (fun i =>
    ⟨first + 512 * i, min 512 (count - 512 * i), ns, kind, 0xFF, if h = 0 then 0 else h + BitVec.ofNat 32 (512 * i)⟩)

/-- The entry of a part of one 4 KiB unit: blocks `a` up to `b` of it. -/
def partSpec (ns kind unit a b : Nat) (h : W32) : RSpec :=
  ⟨unit, 1, ns, kind, maskOf 8 (fun j => decide (a ≤ j) && decide (j < b)), h⟩

/-- The entries that cover a range of logical blocks: under LBA format 3 a partial head unit, the whole units and a partial
tail unit. `h` is the handle of the first unit touched, 0 for none. -/
def Nsp.rangeSpecs (n : Nsp) (ns kind slba nlb : Nat) (h : W32) : List RSpec :=
  if nlb = 0 then []
  else
    let p := lbasPerUnit n.lbaf
    let e := slba + nlb
    let u0 := slba / p
    let at' := fun (u : Nat) => if h = 0 then (0 : W32) else h + BitVec.ofNat 32 (u - u0)
    if p = 1 then chunkSpecs ns kind slba nlb h
    else if u0 = (e - 1) / p ∧ nlb < p then [partSpec ns kind u0 (slba % p) (slba % p + nlb) h]
    else
      let u1 := ceilDiv slba p
      let u2 := e / p
      (if slba % p = 0 then [] else [partSpec ns kind u0 (slba % p) p h])
      ++ chunkSpecs ns kind u1 (u2 - u1) (at' u1)
      ++ (if e % p = 0 then [] else [partSpec ns kind u2 0 (e % p) (at' u2)])

/-- The entries of a deallocation: whole indirection units are deallocated, and parts of one are written as zeros. -/
def Nsp.deallocSpecs (n : Nsp) (ns slba nlb : Nat) : List RSpec :=
  let g := n.iuUnits * lbasPerUnit n.lbaf
  let w0 := ceilDiv slba g * g
  let w1 := (slba + nlb) / g * g
  if w0 < w1 then n.rangeSpecs ns 2 slba (w0 - slba) 0 ++ n.rangeSpecs ns 3 w0 (w1 - w0) 0 ++ n.rangeSpecs ns 2 w1 (slba + nlb - w1) 0
  else n.rangeSpecs ns 2 slba nlb 0

/-! ### Space for a write (R131, R170, R173, R178, R185, R436) -/

/-- Free QLC superblocks are below gc_urgent. -/
def Dev.gcUrgent (d : Dev) (q : Nat) (x : Quire) : Bool := decide (256 * d.qlcFree q < d.reg aTcGcWeir 15 8 * d.qTotal x)

/-- The Quire that receives the writes of a home Quire: itself, or the placeable one with the most free superblocks, first
among those of the same latency mode. -/
def Dev.receiver (d : Dev) (q : Nat) : Nat :=
  if d.placeable q then q
  else
    let strict := ((d.quire q).map (·.strict)).getD false
    let l := d.quires.filter (fun x => d.placeable x.1)
    let same := l.filter (fun x => x.2.strict == strict)
    let l := if same.isEmpty then l else same
    ((l.foldl (fun (b : Option (Nat × Nat)) x =>
      match b with
      | none => some (x.1, d.qlcFree x.1)
      | some (y, n) => if n < d.qlcFree x.1 then some (x.1, d.qlcFree x.1) else some (y, n)) none).map (·.1)).getD q

/-- Units that a write asks to be admitted for. -/
def CSlot.unitsFor (s : CSlot) (n : Nsp) : Nat := (n.touched s.slba s.nlb).2

/-- Dirty data destined for a Quire, and what its free SLC superblocks hold (R394). -/
def Dev.dirtyFor (d : Dev) (q : Nat) : Nat :=
  4096 * ((((d.tc.furrows.filter (fun x => decide (x.2.quire = q))).flatMap (·.2.pack)).filter (fun u => !u.done)).map (fun u => d.iuUnits u.ns)).sum
def Dev.slcRoom (d : Dev) (q : Nat) (x : Quire) : Nat := 4096 * (d.slcFree q * x.sbUnits true x.presentWidth)

/-- Whether a Quire's free SLC capacity covers more dirty data, with 64 MiB held for the Hold-Up sequence (R394). -/
def Dev.slcCovers (d : Dev) (q : Nat) (x : Quire) (bytes : Nat) : Bool := decide (d.dirtyFor q + bytes + 67108864 ≤ d.slcRoom q x)

/-- What a write of `units` units to a namespace waits on, if anything: its namespace's keys, urgent collection, a free SLC
superblock, or the dirty ceiling. -/
def Dev.placeWait (d : Dev) (ns : Nat) (n : Nsp) (units : Nat) : Option SlWait :=
  let q := d.receiver n.quire
  match d.quire q with
  | none => some .range
  | some x =>
    if d.ring.pending.contains ns then some .dirty
    else if d.gcUrgent q x && decide (0 ≤ x.debt) then some .range
    else if !d.slcCovers q x (4096 * units) then some .range
    else if d.thm.critical.crossed then some .dirty
    else if d.ceilingBytes ≠ 0 ∧ d.ceilingBytes < d.dirtyBytes + 4096 * units then some .dirty
    else none

/-- Reserving range entries; the first time they do not fit is recorded. -/
def Dev.reserve (d : Dev) (cs n : Nat) : Dev × Bool :=
  if d.col.fits n then
    ({ d with col := { d.col with resv := d.col.resv + n } }.modSlot cs (fun s => { s with rsv := n }), true)
  else
    let d := if d.col.fullSeen then d else { d with col := { d.col with fullSeen := true } }.ev evColRangeFull 0 []
    (d.pace cs .range, false)

/-- Admitting a write below gc_urgent uses what collection has freed. -/
def Dev.admitUrgent (d : Dev) (q units : Nat) : Dev :=
  match d.quire q with
  | none => d
  | some x => d.modQuire q (fun y => { y with debt := if d.gcUrgent q x then y.debt + units else 0 })

/-! ### Zones (R160, R163, R164, R327) -/

/-- The Zoned Namespace Command Set's statuses. -/
def cqeZone (sc : Nat) : Cqe := Cqe.of 1 sc false
def zsBoundary : Nat := 0xB8
def zsFull : Nat := 0xB9
def zsReadOnly : Nat := 0xBA
def zsOffline : Nat := 0xBB
def zsInvalidWrite : Nat := 0xBC
def zsTooManyActive : Nat := 0xBD
def zsInvalidTransition : Nat := 0xBF

/-- Active zones of a namespace: opened or closed. -/
def Dev.activeZones (d : Dev) (ns : Nat) : Nat :=
  (d.tc.zones.filter (fun x => decide (x.1 / 2 ^ 20 = ns) && (decide (x.2.state = .implOpen) || decide (x.2.state = .explOpen)
    || decide (x.2.state = .closed)))).length

/-- Why a zone takes no write in its state, if so. -/
def Dev.zoneRefusal (d : Dev) (ns z : Nat) (n : Nsp) : Option Nat :=
  match (d.zone ns z).state with
  | .full => some zsFull
  | .readOnly => some zsReadOnly
  | .offline => some zsOffline
  | .empty => if n.mar + 1 ≤ d.activeZones ns then some zsTooManyActive else none
  | _ => none

/-- A zone becomes Implicitly or Explicitly Opened: it takes a Furrow where it holds none, and its Collation entry is
written. -/
def Dev.zoneActivate (d : Dev) (ns z : Nat) (n : Nsp) (st : ZState) : Dev :=
  let (d, f) := d.takeFurrow 1 n.quire (some ns) z
  let old := d.zone ns z
  let wp := match d.col.zoneEnt ns z with
    | some (_, w, _) => w
    | none => old.wp
  (d.zoneEntPut ns z wp (d.zcap n)).putZone ns z (fun x => { x with state := st, furrow := some f })

/-- The write pointer and capacity of a zone as the zone port sees them. -/
def Dev.zonePtr (d : Dev) (ns z : Nat) (n : Nsp) : Nat × Nat :=
  match d.col.zoneEnt ns z with
  | some (_, w, c) => (w, c)
  | none => ((d.zone ns z).wp, d.zcap n)

/-- What R327 says of a write or append of `nlb` blocks at offset `o`: the status that ends it, if one does. -/
def Dev.zoneCheck (d : Dev) (ns z : Nat) (n : Nsp) (o : Option Nat) (nlb : Nat) : Option Cqe :=
  match d.zoneRefusal ns z n with
  | some st => some (cqeZone st)
  | none =>
    let (wp, cap) := d.zonePtr ns z n
    match o with
    | some o => if o ≠ wp then some (cqeZone zsInvalidWrite) else if cap < wp + nlb then some (cqeZone zsBoundary) else none
    | none => if cap < wp + nlb then some (cqeZone zsBoundary) else none

/-- A zoned write that READ_ONLY still takes: its zone's Furrow holds an open superblock (R186). -/
def Dev.zoneHasRoom (d : Dev) (ns z : Nat) : Bool :=
  match (d.zone ns z).furrow with
  | some f => (d.furrow f).slcSb.isSome
  | none => false

/-- The zone of a command. -/
def CSlot.zone (s : CSlot) (n : Nsp) : Nat := s.slba / max 1 n.zoneLbas

/-! ### Commit (R134, R320) -/

/-- The Furrow that a write's units are packed into (R166 to R168, R185). -/
def Dev.writeFurrow (d : Dev) (ns : Nat) (n : Nsp) (s : CSlot) : Dev × Nat :=
  let p := d.receiver n.quire
  if p ≠ n.quire then
    let was := (d.quire n.quire).bind (·.rehomedTo)
    let d := if was = some p then d else (d.modQuire n.quire (fun x => { x with rehomedTo := some p })).ev evTcRehome 0 [.num 1 n.quire, .num 1 p]
    let d := if n.kind = 2 then d.modZone ns (s.zone n) (fun z => { z with rehomed := true }) else d
    (d.modFurrow p (fun x => { x with st := .open, kind := 8, quire := p }), p)
  else
    let d := if ((d.quire n.quire).bind (·.rehomedTo)).isSome then d.modQuire n.quire (fun x => { x with rehomedTo := none }) else d
    if n.kind = 2 then
      match (d.zone ns (s.zone n)).furrow with
      | some f => (d, f)
      | none => d.takeFurrow 1 n.quire (some ns) (s.zone n)
    else if n.kind = 1 then
      let h := if bitsOf (s.dw 12) 23 20 = 2 ∧ s.opcode = 1 then bitsOf (s.dw 13) 23 16 else 0
      d.takeFurrow 2 n.quire none ((n.handles[h]?).getD 0 + 256 * n.quire)
    else d.takeFurrow 0 n.quire (some ns) 0

/-- The next generation of a namespace, recorded in the journal (R169). -/
def Dev.nextGen (d : Dev) (ns : Nat) : Dev × Nat :=
  let g := (((d.nsp ns).map (·.gen)).getD 0 + 1) % 2 ^ 48
  ((d.modNsp ns (fun n => { n with gen := g })).jrnl (.generation ns g), g)

/-- Packing the indirection units that the entries of a write touch, in order. -/
def Dev.packEntries (d : Dev) (f ns gen : Nat) (n : Nsp) (l : List (RSpec × Nat)) : Dev :=
  l.foldl (fun (d : Dev) (x : RSpec × Nat) =>
    if x.1.kind = 3 then d
    else
      let g := n.iuUnits
      let i0 := x.1.first / g
      let i1 := (x.1.first + x.1.count - 1) / g
      (List.range (i1 + 1 - i0)).foldl (fun (d : Dev) (i : Nat) => d.packUnit f ns (i0 + i) gen x.2) d) d

/-- Committing a command's entries: they become visible together, and the reservation ends. -/
def Dev.commitEntries (d : Dev) (cs : Nat) (l : List RSpec) : Dev × List Nat :=
  let (d, tags) := d.colInsert l
  let d := d.colActivate tags
  let r := ((d.hg.slots.get? cs).map (·.rsv)).getD 0
  let d := { d with col := { d.col with resv := d.col.resv - r } }
  let c := d.hg.commits
  let d := { d with hg := { d.hg with commits := c + 1 } }
  (d.modSlot cs (fun s => { s with st := .committed, rsv := 0, bufs := [], tags := tags, commitAt := c }), tags)

/-- The logical blocks that a write covers: an append's are those it was assigned, kept in `want`; a Dataset Management
command's completion waits for no other. -/
def CSlot.written (s : CSlot) : Nat × Nat :=
  if s.opcode = 0x09 then (0, 0) else (if s.opcode = 0x7D then s.want else s.slba, s.nlb)

/-- Whether some packed unit of the entries of a command is not applied yet. -/
def Dev.unitsLeft (d : Dev) (tags : List Nat) : Bool :=
  d.tc.furrows.any (fun x => x.2.pack.any (fun u => tags.contains u.tag)) || d.tc.unpacked.any (fun u => tags.contains u.tag)

/-- Whether an earlier write whose range overlaps has yet to complete (R135). -/
def Dev.olderWrite (d : Dev) (s : CSlot) : Bool :=
  let (a, n) := s.written
  d.hg.slots.any (fun x => decide (x.2.st = .committed) && decide (x.2.wait = .units) && decide (x.2.commitAt < s.commitAt)
    && decide (x.2.nsid = s.nsid) && decide (x.2.written.1 < a + n) && decide (a < x.2.written.1 + x.2.written.2))

/-- A write's completion: an append returns its LBA. -/
def CSlot.writeCqe (s : CSlot) : Cqe :=
  if s.opcode = 0x7D then ⟨0, 0, false, 0, BitVec.ofNat 32 s.want, BitVec.ofNat 32 (s.want / 2 ^ 32)⟩ else cqeOk

/-- Completing the committed writes whose completion is due, in commit order: at once, or in write-through once their leaves
are programmed and covered by parity (R135, R136). -/
def Dev.finishWrites (d : Dev) : Dev :=
  let l := (d.hg.slots.filter (fun x => decide (x.2.st = .committed) && decide (x.2.wait = .units))).map (·.1)
  let l := l.foldl (fun l c => insertBy (fun c => ((d.hg.slots.get? c).map (·.commitAt)).getD 0) c l) []
  l.foldl (fun (d : Dev) (cs : Nat) =>
    match d.hg.slots.get? cs with
    | none => d
    | some s => if (d.cond 8 && d.unitsLeft s.tags) || d.olderWrite s then d
      else (d.modSlot cs (fun s => { s with wait := .nothing })).complete cs s.writeCqe) d

/-- A write reaches its commit point: entries, generation, packing, the write's statistics, and its completion. -/
def Dev.commitWrite (d : Dev) (cs ns : Nat) (n : Nsp) (l : List RSpec) : Dev :=
  match d.hg.slots.get? cs with
  | none => d
  | some s =>
    let (d, tags) := d.commitEntries cs l
    let (d, gen) := d.nextGen ns
    let (d, f) := d.writeFurrow ns n s
    let d := d.packEntries f ns gen n (l.zip tags)
    let units := ((l.filter (fun r => decide (r.kind ≠ 3))).map (·.count)).sum
    let d := d.modStat s.tenant (fun t => { t with unitsWritten := sat 64 (t.unitsWritten + units) })
    let q := (d.furrow f).quire
    let d := d.modQuire q (fun x => { x with lastWrite := d.now, winUnits := x.winUnits + units })
    let d := (d.admitUrgent q units).clearLost ns s.written.1 s.written.2
    (d.modSlot cs (fun s => { s with wait := .units })).finishWrites

/-- A zoned write's pointer moves with its activation; a zone that is full by it drains its Furrow (R164, R327). -/
def Dev.zoneWrote (d : Dev) (ns z : Nat) (n : Nsp) (nlb : Nat) : Dev :=
  let (wp, cap) := d.zonePtr ns z n
  let w := wp + nlb
  let g := ((d.nsp ns).map (·.gen)).getD 0
  if w = cap then
    let f := (d.zone ns z).furrow
    let d := (d.putZone ns z (fun x => { x with state := .full, wp := w, dataEnd := w, gen := g })).zoneEntDel ns z
    match f with
    | some f => ((d.closeRow f).modFurrow f (fun x => { x with st := .draining })).furrowDrained f
    | none => d
  else (d.zoneEntPut ns z w cap).putZone ns z (fun x => { x with wp := w, dataEnd := w, gen := g })

/-- The insertion of a zoned write or append: the checks of R327, then placement at the write pointer. -/
def Dev.commitZoned (d : Dev) (cs ns : Nat) (n : Nsp) (s : CSlot) (kind : Nat) (h : W32) : Dev :=
  let z := s.zone n
  let base := z * n.zoneLbas
  let app := decide (s.opcode = 0x7D)
  match d.zoneCheck ns z n (if app then none else some (s.slba - base)) s.nlb with
  | some e => (d.dropWork cs).complete cs e
  | none =>
    let st := (d.zone ns z).state
    let d := if st = .empty ∨ st = .closed then d.zoneActivate ns z n .implOpen else d
    let lba := base + (d.zonePtr ns z n).1
    let d := d.modSlot cs (fun s => { s with want := lba })
    let d := d.commitWrite cs ns n (n.rangeSpecs ns kind lba s.nlb h)
    d.zoneWrote ns z n s.nlb

/-! ### Write, Write Zeroes, Zone Append (R28, R108, R163, R184) -/

/-- Whether READ_ONLY refuses a write (R186). -/
def Dev.readOnlyRefuses (d : Dev) (ns : Nat) (n : Nsp) (s : CSlot) : Bool :=
  decide (d.modes.mode = .readOnly) && !(decide (n.kind = 2) && d.zoneHasRoom ns (s.zone n))

/-- A charged Write or Zone Append takes its range entries and one buffer, or is paced before its data transfer. -/
def Dev.startWrite (d : Dev) (cs : Nat) (s : CSlot) (ns : Nat) (n : Nsp) : Dev :=
  let units := if n.lbaf = 3 ∧ s.opcode = 0x7D then s.nlb / 8 + 2 else s.unitsFor n
  if d.readOnlyRefuses ns n s then d.complete cs cqeWriteProtected
  else if s.opcode = 0x7D ∧ s.slba % n.zoneLbas ≠ 0 then d.complete cs cqeInvalidField
  else
    match (if n.kind = 2 then d.zoneRefusal ns (s.zone n) n else none) with
    | some st => d.complete cs (cqeZone st)
    | none =>
      match d.placeWait ns n units with
      | some w => d.pace cs w
      | none =>
        let need := if n.lbaf = 3 then (if s.opcode = 0x7D then 3 else (n.rangeSpecs ns 1 s.slba s.nlb 0).length) else 1
        let (d, ok) := d.reserve cs need
        if !ok then d
        else
          let (d, st, h) := d.alloc 0 (d.contract s.tenant).writeOwner true (4096 * units)
          if st ≠ 0 then
            let d := { d with col := { d.col with resv := d.col.resv - need } }
            (d.modSlot cs (fun s => { s with rsv := 0 })).pace cs .buffer
          else d.modSlot cs (fun s => { s with st := .executing, wait := .data, bufs := [h], pacedAt := none })

/-- A charged Write Zeroes: a deallocation, or zeros written as data at its insertion. -/
def Dev.startZeroes (d : Dev) (cs : Nat) (s : CSlot) (ns : Nat) (n : Nsp) : Dev :=
  let deac := s.deac n
  if !deac && d.readOnlyRefuses ns n s then d.complete cs cqeWriteProtected
  else
    let l := if deac then n.deallocSpecs ns s.slba s.nlb else n.rangeSpecs ns 2 s.slba s.nlb 0
    match (if deac then none else d.placeWait ns n (s.unitsFor n)) with
    | some w => d.pace cs w
    | none =>
      let (d, ok) := d.reserve cs l.length
      if !ok then d
      else if n.kind = 2 then d.commitZoned cs ns n s 2 0
      else d.commitWrite cs ns n l

/-- WRITE (R28, R131). -/
def writeRow (cs : Nat) (d : Dev) : Dev :=
  match d.ioSlot cs [0x01] with
  | none => d
  | some _ => d.chargeThen cs (fun d s ns n => d.startWrite cs s ns n)

def execWrite (cs : Nat) (s : State) : Host.Outcome State Fault Refusal := .next (s.onDev (writeRow cs))

/-- ZONE_APPEND (R163): as a Write; its LBA is assigned at the insertion. -/
def zoneAppend (cs : Nat) (d : Dev) : Dev :=
  match d.ioSlot cs [0x7D] with
  | none => d
  | some _ => d.chargeThen cs (fun d s ns n => d.startWrite cs s ns n)

def execZoneAppend (cs : Nat) (s : State) : Host.Outcome State Fault Refusal := .next (s.onDev (zoneAppend cs))

/-- WRITE_ZEROES (R184). -/
def writeZeroes (cs : Nat) (d : Dev) : Dev :=
  match d.ioSlot cs [0x08] with
  | none => d
  | some _ => d.chargeThen cs (fun d s ns n => d.startZeroes cs s ns n)

def execWriteZeroes (cs : Nat) (s : State) : Host.Outcome State Fault Refusal := .next (s.onDev (writeZeroes cs))

/-- Metadata bytes of a logical block. -/
def metaBytes (lbaf : Nat) : Nat := if lbaf = 1 then 8 else if lbaf = 2 then 64 else 0

/-- The protection information check of write data, which brings its blocks' data and then their metadata: the first
mismatch's status. PRACT generates it instead. -/
def CSlot.writePi (s : CSlot) (n : Nsp) (bytes : List Byte) : Option Cqe :=
  if bitOf (s.dw 12) 29 then none
  else
    let m := metaBytes n.lbaf
    (List.range s.nlb).findSome? (fun i =>
      s.piStatus n (s.slba + i) (slice bytes (4096 * i) 4096) (slice bytes (4096 * s.nlb + m * i) m))

/-- WRITE_DATA_RECEIVED (R134, R142): all data of a write is in its buffer, and its entries are inserted; a fault, or a
namespace gone meanwhile, ends it and its buffer goes to zeroing. -/
def writeDataReceived (cs : Nat) (dma : DmaIn) (d : Dev) : Dev :=
  match d.hg.slots.get? cs with
  | none => d
  | some s =>
    if s.st ≠ .executing ∨ s.wait ≠ .data ∨ s.sqid = 0 ∨ (s.opcode ≠ 0x01 ∧ s.opcode ≠ 0x7D) then d
    else
      match dma with
      | .fault _ => (d.dropWork cs).complete cs cqeDataTransfer
      | .ok bytes =>
        if !(d.fnst s.fn).bme then (d.dropWork cs).complete cs cqeDataTransfer
        else d.withNs cs (fun d s ns n =>
          match s.writePi n bytes with
          | some e => (d.dropWork cs).complete cs e
          | none =>
            let h := (s.bufs.head?).getD 0
            let wp := if s.opcode = 0x7D then s.slba + (d.zonePtr ns (s.zone n) n).1 else s.slba
            let pad := wp % lbasPerUnit n.lbaf * lbaBytes n.lbaf
            let data := List.replicate pad 0 ++ slice bytes 0 (s.nlb * lbaBytes n.lbaf)
            let d := d.bufFill h data (ceilDiv data.length 4096)
            if n.kind = 2 then d.commitZoned cs ns n s 1 h
            else d.commitWrite cs ns n (n.rangeSpecs ns 1 s.slba s.nlb h))

def execWriteDataReceived (cs : Nat) (dma : DmaIn) (s : State) : Host.Outcome State Fault Refusal :=
  .next (s.onDev (writeDataReceived cs dma))

/-! ### Dataset Management (R184) -/

/-- The ranges of a Dataset Management command's data: 16 bytes each. -/
def dsmRanges (nr : Nat) (bytes : List Byte) : List LbaRange :=
  (List.range nr).map (fun i => ⟨fieldAt bytes (16 * i + 8) 8, fieldAt bytes (16 * i + 4) 4⟩)

/-- The live range entries of a namespace within a range, clipped to it: a deallocation that needs more entries than the
engine can ever hold covers these, and changes the map at once everywhere else. -/
def Dev.clipSpecs (d : Dev) (ns first count : Nat) : List RSpec :=
  (d.col.overlaps ns first count).map (fun x =>
    let a := max x.2.first first
    let b := min (x.2.first + x.2.count) (first + count)
    ⟨a, b - a, ns, 3, 0xFF, 0⟩)

/-- Deallocating indirection units in the map, with their journal record. -/
def Dev.mapDealloc (d : Dev) (ns first count : Nat) : Dev :=
  let d := d.jrnl (.deallocRun ns first count)
  (List.range count).foldl (fun (d : Dev) (i : Nat) => d.mapPut ns (first + i) .dealloc) d

/-- The entries of a Dataset Management command. -/
def Nsp.dsmSpecs (n : Nsp) (ns : Nat) (rs : List LbaRange) : List RSpec := rs.flatMap (fun r => n.deallocSpecs ns r.slba r.nlb)

/-- Committing a deallocation of more entries than the range capacity. -/
def Dev.dsmHuge (d : Dev) (cs ns : Nat) (n : Nsp) (l : List RSpec) : Dev :=
  let small := l.filter (fun r => decide (r.kind = 2))
  let big := l.filter (fun r => decide (r.kind = 3))
  let clip := big.flatMap (fun r => d.clipSpecs ns r.first r.count)
  let (d, ok) := d.reserve cs (small.length + clip.length)
  if ok then
    (big.foldl (fun (d : Dev) (r : RSpec) => d.mapDealloc ns (r.first / n.iuUnits) (r.count / n.iuUnits)) d).commitWrite cs ns n
      (small ++ clip)
  else d

/-- DATASET_MANAGEMENT (R184): the ranges commit together at the insertion of their entries. -/
def datasetManagement (cs : Nat) (dma : DmaIn) (d : Dev) : Dev :=
  match d.ioSlot cs [0x09] with
  | none => d
  | some _ => d.chargeThen cs (fun d s ns n =>
      match dma with
      | .fault _ => d.complete cs cqeDataTransfer
      | .ok bytes =>
        let rs := dsmRanges (bitsOf (s.dw 10) 7 0 + 1) bytes
        if !(bitOf (s.dw 11) 2) then d.complete cs cqeOk
        else if rs.any (fun r => decide (n.nsze < r.slba + r.nlb)) then d.complete cs cqeLbaRange
        else
          let l := n.dsmSpecs ns rs
          if l.isEmpty then d.complete cs cqeOk
          else if d.col.capacity < l.length then d.dsmHuge cs ns n l
          else
            let (d, ok) := d.reserve cs l.length
            if ok then d.commitWrite cs ns n l else d)

def execDatasetManagement (cs : Nat) (dma : DmaIn) (s : State) : Host.Outcome State Fault Refusal :=
  .next (s.onDev (datasetManagement cs dma))

/-! ### Removing entries (R16, R153, R322, R323) -/

/-- A deallocation entry's map updates: indirection units that a newer entry covers are left to it. -/
def Dev.deallocEntry (d : Dev) (tag : Nat) (e : CEnt) : Dev :=
  let g := d.iuUnits e.ns
  let i0 := e.first / g
  let n := e.count / g
  let left := (List.range n).filter (fun i => !(d.coveredNewer tag e.ns ((i0 + i) * g) g))
  if left.length = n then d.mapDealloc e.ns i0 n
  else left.foldl (fun (d : Dev) (i : Nat) => d.mapDealloc e.ns (i0 + i) 1) d

/-- Removing an entry whose map updates are applied and that no older overlapping entry holds back. -/
def Dev.removeTag (d : Dev) (tag : Nat) : Dev :=
  match d.col.rng.find? (fun x => x.2.tag = tag) with
  | none => d
  | some (_, e) =>
    if e.pending || d.unitsLeft [tag] then d
    else if d.col.blockedBy tag then
      { d with col := { d.col with remWait := d.col.remWait.filter (· ≠ tag) ++ [tag] } }
    else
      let d := if e.kind = 3 then d.deallocEntry tag e else d
      let (d, hs) := { d with col := { d.col with remWait := d.col.remWait.filter (· ≠ tag) } }.colRemoveTag tag
      d.freeBufs hs

/-- COLLATION_REMOVE (R322): the entry goes, and then those that waited for it; a partition change may settle. -/
def collationRemove (tag : Nat) (d : Dev) : Dev :=
  let d := d.removeTag tag
  let d := (List.range d.col.remWait.length).foldl (fun (d : Dev) (_ : Nat) => d.col.remWait.foldl (fun (d : Dev) (t : Nat) => d.removeTag t) d) d
  d.colSettle

def execCollationRemove (tag : Nat) (s : State) : Host.Outcome State Fault Refusal := .next (s.onDev (collationRemove tag))

end Sys2Proof.Machine
end

