-- ==== Sys2Proof/Machine/Io.lean ====
section
/-! DEFINITION. The other I/O commands (R29, R108, R138, R163 to R166, R192, R325): reads and Verify, Flush, zone management,
Flexible Data Placement, the token refill that resumes paced commands, and the flits whose arrival ends operations. -/

namespace Sys2Proof.Machine

/-! ### Reads (R29, R192, R322, R325) -/

/-- The blocks of a unit that a range of logical blocks takes, as a mask of its eight 512-byte blocks; a format of 4 KiB
blocks takes all of them. -/
def Nsp.blockMask (n : Nsp) (slba nlb unit : Nat) : Nat :=
  let p := lbasPerUnit n.lbaf
  if p = 1 then 255 else maskOf 8 (fun j => decide (slba ≤ unit * p + j) && decide (unit * p + j < slba + nlb))

/-- What the write buffer gives of a unit: blocks with the handle that holds them, 0 for zeros, the tags read, and whether a
deallocated block is among them; `left` is the mask still uncovered. -/
structure Cover where
  left  : Nat
  newer : List (Nat × W32)
  tags  : List Nat
  dealloc : Bool
deriving DecidableEq, Repr

/-- The blocks of a unit that an entry covers. -/
def CEnt.covers (e : CEnt) (unit : Nat) : Nat :=
  if e.first ≤ unit ∧ unit < e.first + e.count then (if e.count = 1 then e.blocks else 255) else 0

/-- One match of the walk takes the blocks that are still uncovered. -/
def Cover.take (c : Cover) (e : CEnt) (unit : Nat) : Cover :=
  let m := Nat.land c.left (e.covers unit)
  if m = 0 then c
  else
    let h : W32 := if e.kind = 1 then e.handle + BitVec.ofNat 32 (unit - e.first) else 0
    { left := c.left - m
      newer := c.newer ++ ((List.range 8).filter (fun j => bitOf m j)).map (fun (j : Nat) => (j, h))
      tags := if e.kind = 1 && !(c.tags.contains e.tag) then c.tags ++ [e.tag] else c.tags
      dealloc := c.dealloc || decide (e.kind = 3) }

/-- The walk of a unit over the matches, newest first. -/
def coverUnit (l : List (Nat × CEnt)) (unit mask : Nat) : Cover :=
  l.foldl (fun (c : Cover) (x : Nat × CEnt) => c.take x.2 unit) ⟨mask, [], [], false⟩

/-- A charged Read or Verify: the range search finds what the write buffer holds; the other units are walked in the map. A
read that would raise a reader count above 255 waits. -/
def Dev.startRead' (d : Dev) (cs : Nat) (s : CSlot) (ns : Nat) (n : Nsp) : Dev :=
  let (u0, k) := n.touched s.slba s.nlb
  let q := rangeKey u0 (min k 512) ns 0 0 0 false
  let d := d.colVerify 1 q walkMask
  let l := (List.range (ceilDiv k 512)).flatMap (fun i => d.col.overlaps ns (u0 + 512 * i) (min 512 (k - 512 * i)))
  let us := (List.range k).map (fun i => (u0 + i, coverUnit l (u0 + i) (n.blockMask s.slba s.nlb (u0 + i))))
  let rd := decide (s.opcode = 2)
  let tags := if rd then (us.flatMap (fun u => u.2.tags)).dedup else []
  if us.any (fun u => u.2.dealloc) && d.dulbe ns then d.complete cs cqeDeallocated
  else if tags.any (fun t => decide (255 ≤ d.col.readers.get 0 t)) then d
  else
    let d := tags.foldl (fun (d : Dev) (t : Nat) => (d.colReader t).getD d) d
    let cls := (d.contract s.tenant).cls
    let units := us.map (fun u => (⟨u.1, if u.2.left ≠ 0 then 2 else if u.2.tags.isEmpty || !rd then 3 else 1, (u.2.tags.head?).getD 0, 0, u.2.newer⟩ : RdUnit))
    let d := d.modSlot cs (fun s => { s with tags := tags, units := units, wait := .units, st := .executing })
    let d := (units.filter (fun u => decide (u.src = 2))).foldl (fun (d : Dev) (u : RdUnit) =>
      let (d, rid) := d.addRead (LeafRead.fresh cs ns cls u.iu d.rp.epoch)
      d.modSlot cs (fun s => { s with units := s.units.map (fun x => if x.iu = u.iu then { x with rid := rid } else x) })) d
    (units.filter (fun u => decide (u.src = 3))).foldl (fun (d : Dev) (u : RdUnit) => d.unitServed cs u.iu (some 0)) d

/-- READ (R29, R130, R325). -/
def readRow (cs : Nat) (d : Dev) : Dev :=
  match d.ioSlot cs [0x02] with
  | none => d
  | some _ => d.chargeThen cs (fun d s ns n => d.startRead' cs s ns n)

def execRead (cs : Nat) (s : State) : Host.Outcome State Fault Refusal := .next (s.onDev (readRow cs))

/-- VERIFY (R108): as a Read without transfer. -/
def verifyRow (cs : Nat) (d : Dev) : Dev :=
  match d.ioSlot cs [0x0C] with
  | none => d
  | some _ => d.chargeThen cs (fun d s ns n => d.startRead' cs s ns n)

def execVerify (cs : Nat) (s : State) : Host.Outcome State Fault Refusal := .next (s.onDev (verifyRow cs))

/-- Whether a unit of a read takes a block from the buffers of a tag. -/
def Dev.usesTag (d : Dev) (u : RdUnit) (tag : Nat) : Bool :=
  let bs := ((d.col.rng.filter (fun x => decide (x.2.tag = tag))).map (fun x => bufBase x.2.handle)) ++ ((d.col.dying.get? tag).getD [])
  decide (u.src ≠ 4) && u.newer.any (fun b => decide (b.2 ≠ 0) && bs.contains (bufBase b.2))

/-- READER_RELEASE (R322): the read's units that the tag's buffer serves are copied, and the reader count falls. A tag that a
unit still on its way from the media needs is kept. -/
def readerRelease (cs tag : Nat) (d : Dev) : Dev :=
  match d.hg.slots.get? cs with
  | none => d
  | some s =>
    if !s.reads || !(s.tags.contains tag) || s.units.any (fun u => decide (u.src = 2) && d.usesTag u tag) then d
    else
      let mine := s.units.filter (fun u => decide (u.src = 1) && d.usesTag u tag)
      let d := mine.foldl (fun (d : Dev) (u : RdUnit) => d.unitServed cs u.iu (some 0)) d
      let still := ((d.hg.slots.get? cs).map (fun s => s.tags.contains tag)).getD true
      if still then
        let d := d.modSlot cs (fun s => { s with tags := s.tags.filter (· ≠ tag) })
        let (d, hs) := d.colReaderDone tag
        d.freeBufs hs
      else d

def execReaderRelease (cs tag : Nat) (s : State) : Host.Outcome State Fault Refusal := .next (s.onDev (readerRelease cs tag))

/-- FLUSH (R138): every write completed before is in the protected buffer, or on SLC. -/
def flushRow (cs : Nat) (d : Dev) : Dev :=
  match d.ioSlot cs [0x00] with
  | none => d
  | some s =>
    if s.nsid ≠ 0xFFFFFFFF ∧ (d.nsOf s).isNone = true then d.complete cs cqeInvalidNs
    else (d.modSlot cs (fun s => { s with st := .committed, charged := true })).complete cs cqeOk

def execFlush (cs : Nat) (s : State) : Host.Outcome State Fault Refusal := .next (s.onDev (flushRow cs))

/-! ### Zone Management Send (R163, R164) -/

/-- A command whose result is decided. -/
def Dev.decide' (d : Dev) (cs : Nat) (e : Cqe) : Dev := (d.modSlot cs (fun s => { s with st := .committed })).complete cs e

/-- The zones of a namespace that Select All of an action takes. -/
def Dev.zonesFor (d : Dev) (ns : Nat) (n : Nsp) (act : Nat) : List Nat :=
  (List.range n.zones).filter (fun z =>
    match act, (d.zone ns z).state with
    | 1, .implOpen | 1, .explOpen => true
    | 2, .implOpen | 2, .explOpen | 2, .closed => true
    | 3, .closed => true
    | 4, .implOpen | 4, .explOpen | 4, .closed | 4, .full => true
    | 5, .readOnly => true
    | _, _ => false)

/-- Open: an empty zone needs an active resource; a closed one resumes its Furrow. -/
def Dev.openZone (d : Dev) (ns z : Nat) (n : Nsp) : Dev × Option Nat :=
  match (d.zone ns z).state with
  | .empty => if n.mar + 1 ≤ d.activeZones ns then (d, some zsTooManyActive) else (d.zoneActivate ns z n .explOpen, none)
  | .implOpen | .closed => (d.zoneActivate ns z n .explOpen, none)
  | .explOpen => (d, none)
  | .full => (d, some zsInvalidTransition)
  | .readOnly | .offline => (d, some zsInvalidTransition)

/-- Close: the Furrow is paused, and its open leaf is closed. -/
def Dev.closeZone (d : Dev) (ns z : Nat) (_ : Nsp) : Dev × Option Nat :=
  match (d.zone ns z).state with
  | .implOpen | .explOpen =>
    let wp := ((d.col.zoneEnt ns z).map (·.2.1)).getD (d.zone ns z).wp
    let f := (d.zone ns z).furrow
    let d := d.putZone ns z (fun x => { x with state := .closed, wp := wp })
    (match f with
     | some f => (d.closeRow f).modFurrow f (fun x => { x with st := .paused })
     | none => d, none)
  | .closed => (d, none)
  | _ => (d, some zsInvalidTransition)

/-- Finish: wp goes to ZCAP, data_end stays, and the Furrow drains. -/
def Dev.finishZone (d : Dev) (ns z : Nat) (n : Nsp) : Dev × Option Nat :=
  match (d.zone ns z).state with
  | .empty | .implOpen | .explOpen | .closed =>
    let f := (d.zone ns z).furrow
    let d := (d.putZone ns z (fun x => { x with state := .full, wp := d.zcap n })).zoneEntDel ns z
    (match f with
     | some f => ((d.closeRow f).modFurrow f (fun x => { x with st := .draining })).furrowDrained f
     | none => d, none)
  | .full => (d, none)
  | _ => (d, some zsInvalidTransition)

/-- Taking away a zone's committed units that are still buffered, whatever order they came in. -/
def Dev.dropZoneUnits (d : Dev) (ns first count : Nat) : Dev :=
  let gone := fun (u : Packed) => decide (u.ns = ns) && decide (first ≤ u.iu) && decide (u.iu < first + count)
  let d := { d with tc := { d.tc with
    furrows := d.tc.furrows.map (fun (x : Nat × Furrow) => (x.1, { x.2 with pack := x.2.pack.filter (fun u => !(gone u)) }))
    unpacked := d.tc.unpacked.filter (fun u => !(gone u)) } }
  let tags := (d.col.rng.filter (fun x => decide (x.2.ns = ns) && decide (first ≤ x.2.first) && decide (x.2.first < first + count))).map (·.2.tag)
  tags.foldl (fun (d : Dev) (t : Nat) =>
    let (d, hs) := d.colRemoveTag t
    d.freeBufs hs) d

/-- The units of a zone become invalid: those staged, and those of its extents. -/
def Dev.dropZoneData (d : Dev) (ns z : Nat) (n : Nsp) : Dev :=
  let zu := 2 ^ n.zoneShift / 4096
  let x := d.zone ns z
  let staged := match x.furrow with
    | some f => ((d.furrow f).staged.filter (fun u => decide (u.ns = ns) && decide (u.iu / zu = z))).map (·.pua)
    | none => []
  let folded := (List.range (x.folded / lbasPerUnit n.lbaf)).filterMap (fun i => match d.walk ns (z * zu + i) with
    | .mapped p => some p
    | _ => none)
  let d := (staged ++ folded).foldl (fun (d : Dev) (p : Nat) => d.unmapUnits p 1) d
  match x.furrow with
  | some f => (d.modFurrow f (fun y => { y with pack := [], staged := y.staged.filter (fun u => !(decide (u.ns = ns) && decide (u.iu / zu = z))) })).dropFurrow f
  | none => d

/-- Reset: what was committed to the zone before it is reset with it; its data becomes invalid and its Furrow returns to
FREE. -/
def Dev.resetZone (d : Dev) (ns z : Nat) (n : Nsp) : Dev × Option Nat :=
  let st := (d.zone ns z).state
  if st = .readOnly ∨ st = .offline then (d, some zsInvalidTransition)
  else if st = .empty then (d, none)
  else
    let zu := 2 ^ n.zoneShift / 4096
    let d := (d.dropZoneUnits ns (z * zu) zu).dropZoneData ns z n
    let d := d.putZone ns z (fun x => { Zone.fresh with gen := x.gen })
    ((d.zoneEntDel ns z).clearLost ns (z * n.zoneLbas) n.zoneLbas, none)

/-- Offline: a read-only zone. -/
def Dev.offlineZone (d : Dev) (ns z : Nat) (_ : Nsp) : Dev × Option Nat :=
  match (d.zone ns z).state with
  | .readOnly => (d.putZone ns z (fun x => { x with state := .offline }), none)
  | .offline => (d, none)
  | _ => (d, some zsInvalidTransition)

/-- An action on one zone, or on every zone that Select All takes. -/
def Dev.zoneAction (d : Dev) (cs : Nat) (s : CSlot) (ns : Nat) (n : Nsp) (act : Nat) (f : Dev → Nat → Dev × Option Nat) : Dev :=
  if bitOf (s.dw 13) 8 then
    let r := (d.zonesFor ns n act).foldl (fun (r : Dev × Option Nat) (z : Nat) =>
      match r.2 with
      | some _ => r
      | none => f r.1 z) (d, none)
    r.1.decide' cs (match r.2 with
      | some st => cqeZone st
      | none => cqeOk)
  else if s.slba % n.zoneLbas ≠ 0 then d.complete cs cqeInvalidField
  else
    let r := f d (s.zone n)
    match r.2 with
    | some st => r.1.complete cs (cqeZone st)
    | none => r.1.decide' cs cqeOk

/-- The action that a Zone Management Send names. -/
def CSlot.zsa (s : CSlot) : Nat := bitsOf (s.dw 13) 7 0

/-- A charged Zone Management Send. -/
def Dev.startZoneSend (d : Dev) (cs : Nat) (s : CSlot) (ns : Nat) (n : Nsp) : Dev :=
  let f : Dev → Nat → Dev × Option Nat := fun d z =>
    match s.zsa with
    | 1 => d.closeZone ns z n
    | 2 => d.finishZone ns z n
    | 3 => d.openZone ns z n
    | 4 => d.resetZone ns z n
    | _ => d.offlineZone ns z n
  d.zoneAction cs s ns n s.zsa f

/-- A Zone Management Send row runs where its command names the row's action. -/
def zoneSend (act cs : Nat) (d : Dev) : Dev :=
  match d.ioSlot cs [0x79] with
  | none => d
  | some s => if s.zsa = act then d.chargeThen cs (fun d s ns n => d.startZoneSend cs s ns n) else d

/-- ZONE_OPEN (R164). -/
def execZoneOpen (cs : Nat) (s : State) : Host.Outcome State Fault Refusal := .next (s.onDev (zoneSend 3 cs))
/-- ZONE_CLOSE (R164). -/
def execZoneClose (cs : Nat) (s : State) : Host.Outcome State Fault Refusal := .next (s.onDev (zoneSend 1 cs))
/-- ZONE_FINISH (R164). -/
def execZoneFinish (cs : Nat) (s : State) : Host.Outcome State Fault Refusal := .next (s.onDev (zoneSend 2 cs))
/-- ZONE_RESET (R164). -/
def execZoneReset (cs : Nat) (s : State) : Host.Outcome State Fault Refusal := .next (s.onDev (zoneSend 4 cs))
/-- ZONE_OFFLINE (R108). -/
def execZoneOffline (cs : Nat) (s : State) : Host.Outcome State Fault Refusal := .next (s.onDev (zoneSend 5 cs))

/-! ### Zone Management Receive (R108) -/

/-- The zone state codes of the Zoned Namespace Command Set. -/
def zstateCode : ZState → Nat
  | .empty => 1 | .implOpen => 2 | .explOpen => 3 | .closed => 4 | .readOnly => 13 | .full => 14 | .offline => 15

/-- Whether a zone is one that the reporting option asks for: 0 all, 1 to 7 one state each. -/
def reported (ro : Nat) (st : ZState) : Bool :=
  match ro with
  | 0 => true
  | 1 => st = .empty
  | 2 => st = .implOpen
  | 3 => st = .explOpen
  | 4 => st = .closed
  | 5 => st = .full
  | 6 => st = .readOnly
  | 7 => st = .offline
  | _ => false

/-- A 64-byte zone descriptor of the Zoned Namespace Command Set. -/
def Dev.zoneDesc (d : Dev) (ns z : Nat) (n : Nsp) : List Byte :=
  let x := d.zone ns z
  let wp := if x.state = .full ∨ x.state = .readOnly ∨ x.state = .offline then 2 ^ 64 - 1
    else z * n.zoneLbas + (d.zonePtr ns z n).1
  leBytes 1 2 ++ leBytes 1 (16 * zstateCode x.state) ++ leBytes 6 0 ++ leBytes 8 (d.zcap n) ++ leBytes 8 (z * n.zoneLbas)
  ++ leBytes 8 wp ++ leBytes 32 0

/-- Sending a result to the host, of the length asked for. -/
def Dev.sendData (d : Dev) (cs : Nat) (bytes : List Byte) : Dev :=
  match d.hg.slots.get? cs with
  | none => d
  | some s => if s.discard then d else d.emit (.hostWrite s.fn cs bytes)

/-- A result sent and the command completed; a function whose Bus Master Enable is clear sends nothing (R474). -/
def Dev.answer (d : Dev) (cs : Nat) (bytes : List Byte) (e : Cqe := cqeOk) : Dev :=
  match d.hg.slots.get? cs with
  | none => d
  | some s => if (d.fnst s.fn).bme then (d.sendData cs bytes).complete cs e else d.complete cs cqeDataTransfer

/-- A charged Zone Management Receive: Report Zones from the zone of its LBA on. -/
def Dev.startZoneRecv (d : Dev) (cs : Nat) (s : CSlot) (ns : Nat) (n : Nsp) : Dev :=
  let len := 4 * (s.dw 12 + 1)
  let ro := bitsOf (s.dw 13) 15 8
  let zs := ((List.range n.zones).filter (fun z => decide (s.slba / max 1 n.zoneLbas ≤ z) && reported ro (d.zone ns z).state))
  let fit := zs.take ((len - 64) / 64)
  let num := if bitOf (s.dw 13) 16 then fit.length else zs.length
  if 7 < ro then d.complete cs cqeInvalidField
  else
    let d := d.modSlot cs (fun s => { s with st := .committed })
    d.answer cs ((leBytes 8 num ++ leBytes 56 0 ++ fit.flatMap (fun z => d.zoneDesc ns z n)).take len)

/-- ZONE_MANAGEMENT_RECEIVE (R108). -/
def zoneReceive (cs : Nat) (d : Dev) : Dev :=
  match d.ioSlot cs [0x7A] with
  | none => d
  | some _ => d.chargeThen cs (fun d s ns n => d.startZoneRecv cs s ns n)

def execZoneManagementReceive (cs : Nat) (s : State) : Host.Outcome State Fault Refusal := .next (s.onDev (zoneReceive cs))

/-! ### Flexible Data Placement (R165, R166) -/

/-- Reclaim Unit Available Media Writes of a Furrow, in logical blocks: what its open QLC superblock can still take, less
what is staged. -/
def Dev.ruamw (d : Dev) (f : Option Nat) (n : Nsp) : Nat :=
  let per := lbasPerUnit n.lbaf
  let whole := fun (q : Quire) => q.sbUnits false q.presentWidth
  match d.quire n.quire with
  | none => 0
  | some q =>
    match f.map d.furrow with
    | none => whole q * per
    | some x =>
      let left := match x.qlcSb with
        | some s => (dataRows (q.rows false) + 1 - x.qlcRow) * ((d.sb n.quire s).members.length - 1) * 4
        | none => whole q
      (left - x.staged.length) * per

/-- A charged I/O Management Receive: the Reclaim Unit Handle Status of the namespace's placement handles. -/
def Dev.startIoRecv (d : Dev) (cs : Nat) (s : CSlot) (_ : Nat) (n : Nsp) : Dev :=
  let len := 4 * (s.dw 11 + 1)
  let desc := (List.range n.handles.length).flatMap (fun i =>
    let h := (n.handles[i]?).getD 0
    leBytes 2 (i + 4096 * n.quire) ++ leBytes 2 h ++ leBytes 4 0 ++ leBytes 8 (d.ruamw (d.boundFurrow 2 n.quire none (h + 256 * n.quire)) n)
    ++ leBytes 16 0)
  let d := d.modSlot cs (fun s => { s with st := .committed })
  d.answer cs ((leBytes 14 0 ++ leBytes 2 n.handles.length ++ desc).take len)

/-- IO_MANAGEMENT_RECEIVE (R166). -/
def ioReceive (cs : Nat) (d : Dev) : Dev :=
  match d.ioSlot cs [0x12] with
  | none => d
  | some _ => d.chargeThen cs (fun d s ns n => d.startIoRecv cs s ns n)

def execIoManagementReceive (cs : Nat) (s : State) : Host.Outcome State Fault Refusal := .next (s.onDev (ioReceive cs))

/-- Reclaim Unit Handle Update of one handle: its Furrow drains and then opens again; a superblock that had rows left is
logged. -/
def Dev.ruhUpdate (d : Dev) (n : Nsp) (h : Nat) : Dev :=
  match d.boundFurrow 2 n.quire none (h + 256 * n.quire) with
  | none => d
  | some f =>
    let x := d.furrow f
    let rowsLeft := match x.qlcSb, d.quire n.quire with
      | some _, some q => decide (x.qlcRow ≤ dataRows (q.rows false))
      | _, _ => false
    let d := if rowsLeft then { d with tc := { d.tc with fdpEvents := d.tc.fdpEvents ++ [(0x00, x.binding)] } } else d
    ((d.closeRow f).modFurrow f (fun x => { x with st := .draining, reopen := true })).furrowDrained f

/-- IO_MANAGEMENT_SEND (R166): Reclaim Unit Handle Update of the placement identifiers in its data. -/
def ioSend (cs : Nat) (dma : DmaIn) (d : Dev) : Dev :=
  match d.ioSlot cs [0x1D] with
  | none => d
  | some _ => d.chargeThen cs (fun d s _ n =>
      match dma with
      | .fault _ => d.complete cs cqeDataTransfer
      | .ok bytes =>
        let pids := (List.range (bitsOf (s.dw 10) 31 16 + 1)).map (fun i => fieldAt bytes (2 * i) 2)
        if pids.any (fun p => decide (bitsOf p 15 12 ≠ n.quire) || decide (bitsOf p 11 8 ≠ 0) || decide (n.handles.length ≤ bitsOf p 7 0)) then
          d.complete cs cqeInvalidField
        else
          (pids.foldl (fun (d : Dev) (p : Nat) => d.ruhUpdate n ((n.handles[bitsOf p 7 0]?).getD 0)) d).decide' cs cqeOk)

def execIoManagementSend (cs : Nat) (dma : DmaIn) (s : State) : Host.Outcome State Fault Refusal := .next (s.onDev (ioSend cs dma))

/-! ### Resuming paced commands (R130, R131) -/

/-- Running a charged command's own part; one that brings host data waits for it. -/
def Dev.runIo (d : Dev) (cs : Nat) : Dev :=
  d.withNs cs (fun d s ns n =>
    match s.opcode with
    | 0x01 | 0x7D => d.startWrite cs s ns n
    | 0x08 => d.startZeroes cs s ns n
    | 0x02 | 0x0C => d.startRead' cs s ns n
    | 0x79 => d.startZoneSend cs s ns n
    | 0x7A => d.startZoneRecv cs s ns n
    | 0x12 => d.startIoRecv cs s ns n
    | _ => d)

/-- TOKEN_REFILL (R130, R131, R148): 1 µs passes for the buckets. Commands that waited for tokens are charged in order of
fetch while their bucket allows it and go on; charged writes that wait for space are tried again. -/
def tokenRefill (d : Dev) : Dev :=
  let d := d.refill
  let ts := ((d.hg.slots.filter (fun x => decide (x.2.st = .paced) && decide (x.2.sqid ≠ 0))).map (·.2.tenant)).dedup
  let d := ts.foldl (fun (d : Dev) (t : Nat) => d.modStat t (fun x => { x with pacedUs := sat 64 (x.pacedUs + 1) })) d
  let d := (d.inOrder (fun s => decide (s.st = .paced) && decide (s.wait = .tokens))).foldl (fun (d : Dev) (c : Nat) =>
    let (d, ok) := d.charge c
    if ok then d.runIo c else d) d
  (d.inOrder (fun s => decide (s.st = .paced) && s.charged
    && (decide (s.wait = .buffer) || decide (s.wait = .dirty) || decide (s.wait = .range)))).foldl (fun (d : Dev) (c : Nat) =>
      (d.modSlot c (fun s => { s with st := .executing, wait := .nothing })).runIo c) d

def execTokenRefill (s : State) : Host.Outcome State Fault Refusal := .next (s.onDev tokenRefill)

/-! ### Flits that end operations -/

/-- CPL_RECEIVED (R270, R271): with its operation's end, writes whose completion waited for it complete (R136). -/
def execCplReceived (slot : Nat) (c : Cpl) (s : State) : Host.Outcome State Fault Refusal :=
  .next (s.onDev (fun d => (cplReceived slot c d).finishWrites))

/-- DATA_FLIT_RECEIVED (R270): the last data of an operation whose CPL is in ends it. -/
def execDataFlitReceived (slot tag : Nat) (last shapeOk : Bool) (s : State) : Host.Outcome State Fault Refusal :=
  .next (s.onDev (fun d => (dataFlit slot tag last shapeOk d).finishWrites))

end Sys2Proof.Machine
end

