-- ==== Sys2Proof/Machine/Contracts.lean ====
section
/-! DEFINITION. Tenant contracts, the warm floor and the admin sequencer's order (R84 to R87, R118, R128, R129, R144 to R149). -/

namespace Sys2Proof.Machine

/-! ### The admin sequencer (R118) -/

/-- An admin command that its row may run: classified and fetched. -/
def Dev.adminSlot (d : Dev) (cs op : Nat) : Option CSlot :=
  match d.hg.slots.get? cs with
  | none => none
  | some s => if s.classified && decide (s.sqid = 0) && decide (s.opcode = op) && decide (s.st = .fetched) then some s else none

/-- A sequencer command: fetched, or waiting for the sequencer. -/
def Dev.seqSlot (d : Dev) (cs op : Nat) : Option CSlot :=
  match d.hg.slots.get? cs with
  | none => none
  | some s =>
    if s.classified && decide (s.sqid = 0) && decide (s.opcode = op)
      && (decide (s.st = .fetched) || (decide (s.st = .paced) && decide (s.wait = .sequencer))) then some s
    else none

/-- Whether a sequencer command has to wait: another runs, or one fetched earlier has not run. -/
def Dev.seqBusy (d : Dev) (cs : Nat) (s : CSlot) : Bool :=
  (match d.adm.running with
   | some x => decide (x ≠ cs)
   | none => false)
  || d.hg.slots.any (fun x => decide (x.2.sqid = 0) && x.2.sequenced && decide (x.2.order < s.order)
    && (decide (x.2.st = .fetched) || decide (x.2.st = .paced)))

/-- Starting a sequencer command is its commit point (Table 05-6). -/
def Dev.seqStart (d : Dev) (cs : Nat) : Dev :=
  { d with adm := { d.adm with running := some cs } }.modSlot cs (fun s => { s with st := .committed, wait := .nothing })

/-- Running a sequencer command in its turn; until then it waits, paced. -/
def Dev.seqRun (d : Dev) (cs op : Nat) (f : Dev → CSlot → Dev) : Dev :=
  match d.seqSlot cs op with
  | none => d
  | some s => if d.seqBusy cs s then d.modSlot cs (fun s => { s with st := .paced, wait := .sequencer }) else f (d.seqStart cs) s

/-- The data of a host-to-device admin command, or its failure. -/
def Dev.withData (d : Dev) (cs : Nat) (dma : DmaIn) (f : List Byte → Dev) : Dev :=
  match dma with
  | .ok b => f b
  | .fault _ => d.complete cs cqeDataTransfer

/-! ### The warm floor (R84 to R86) -/

/-- Tenants whose controllers a namespace is attached to. -/
def Nsp.tenants (n : Nsp) : List Nat := (n.attached.filterMap (fun c => (fnOfCntlid c).map Fn.tenant)).dedup

/-- Whether a tenant is LC0. -/
def Dev.lc0 (d : Dev) (t : Nat) : Bool := decide ((d.contract t).cls = 0)

/-- The Quires that back a namespace of an LC0 tenant. -/
def Dev.lc0Quires (d : Dev) : List Nat := ((d.tc.nss.filter (fun x => x.2.tenants.any d.lc0)).map (·.2.quire)).dedup

/-- The GL domains of the automatic floor. -/
def Dev.autoGl (d : Dev) : Nat :=
  let qs := d.lc0Quires
  maskOf 8 (fun k => d.quires.any (fun q => qs.contains q.1 && q.2.members.any (fun m => m.2.present && (match m.2.slot with
    | some s => decide (s / 8 = k)
    | none => false))))

/-- B of R86: the contracted read rates of LC0 tenants in bytes per second. -/
def Dev.lc0Bytes (d : Dev) : Nat :=
  ((d.hg.contracts.filter (fun x => decide (x.2.cls = 0))).map (fun x => 4096 * x.2.readRate.getD 0)).sum

/-- WDN_WARM_FLOOR as the automatic policy sets it. -/
def Dev.autoFloor (d : Dev) : Nat :=
  let mc := min 8 (max 2 (ceilDiv d.lc0Bytes 24000000000))
  mc + 16 * bit (!d.col.cls.isEmpty) + 128 + 1024 * bit (d.hg.contracts.any (fun x => decide (x.2.cls = 0))) + 4096 * d.autoGl

/-- Whether a domain is in the warm floor. -/
def Dev.inFloor (d : Dev) (k : Nat) : Bool :=
  if 21 ≤ k ∧ k ≤ 28 then decide (k - 21 < d.reg aWarmFloor 3 0)
  else if 5 ≤ k ∧ k ≤ 8 then decide (k - 5 < d.reg aWarmFloor 6 4)
  else if 9 ≤ k ∧ k ≤ 12 then decide (k - 9 < d.reg aWarmFloor 9 7)
  else if k = 35 then decide (d.reg aWarmFloor 10 10 = 1)
  else if 13 ≤ k ∧ k ≤ 20 then bitOf (d.reg aWarmFloor 19 12) (k - 13)
  else false

/-- In a serving mode every unit of the floor is held ON. -/
def Dev.holdFloor (d : Dev) : Dev :=
  if servingMode d.modes.mode then (switchable.filter d.inFloor).foldl (fun (d : Dev) (k : Nat) => d.demand k) d else d

/-- The floor is recomputed (R86): under the automatic policy the register follows; an explicit floor without a GL domain
that the automatic rule has is short. -/
def Dev.warmUpdate (d : Dev) : Dev :=
  if bitOf (d.csrW aWarmFloor).toNat 11 then
    let short := decide (Nat.land d.autoGl (d.reg aWarmFloor 19 12) ≠ d.autoGl)
    let was := d.cond 9
    let d := d.setCond 9 short
    (if short && !was then d.ev evWdnWarmFloorShort 0 [] else d).holdFloor
  else ((d.setCsr aWarmFloor (BitVec.ofNat 32 d.autoFloor)).setCond 9 false).holdFloor

/-- WARM_FLOOR_WRITE (R87): in a serving mode; under the automatic policy only the policy field is taken. -/
def warmFloorWrite (v : W32) (d : Dev) : Dev :=
  let w := v.toNat
  if !servingMode d.modes.mode then d
  else if 8 < bitsOf w 3 0 ∨ 4 < bitsOf w 6 4 ∨ bitsOf w 9 7 = 0 ∨ 4 < bitsOf w 9 7 then d.ev evWdnWarmFloorBad 0 []
  else if bitOf (d.csrW aWarmFloor).toNat 11 then (d.setCsr aWarmFloor (v &&& 0xFFFFF#32)).warmUpdate
  else (d.setField aWarmFloor 11 11 (bitsOf w 11 11)).warmUpdate

def execWarmFloorWrite (v : W32) (s : State) : Host.Outcome State Fault Refusal := .next (s.onDev (warmFloorWrite v))

/-- IDLE_GATE_WRITE (R87). -/
def idleGateWrite (v : W32) (d : Dev) : Dev :=
  let t := bitsOf v.toNat 13 0
  if !servingMode d.modes.mode then d
  else if t < 10 ∨ 10000 < t then d.ev evWdnWarmFloorBad 0 []
  else d.setCsr aIdleGate (BitVec.ofNat 32 t)

def execIdleGateWrite (v : W32) (s : State) : Host.Outcome State Fault Refusal := .next (s.onDev (idleGateWrite v))

/-! ### Contracts (R128, R145, R146) -/

/-- The namespaces of a tenant. -/
def Dev.nssOf (d : Dev) (t : Nat) : List (Nat × Nsp) := d.tc.nss.filter (fun x => x.2.tenants.contains t)

/-- The contracted reads of LC0 and LC1 tenants with a namespace on a Quire. -/
def Dev.quireReads (d : Dev) (q : Nat) : Nat :=
  let ts := ((d.tc.nss.filter (fun x => decide (x.2.quire = q))).flatMap (·.2.tenants)).dedup
  ((ts.filter (fun t => decide ((d.contract t).cls ≤ 1))).map (fun t => (d.contract t).readRate.getD 0)).sum

/-- The rules of R145 that a tenant's contract breaks with the namespaces it has: the first one's status. -/
def Dev.contractRefusal (d : Dev) (t : Nat) : Option Nat :=
  let qs := ((d.nssOf t).map (·.2.quire)).dedup
  let c := d.contract t
  let w := fun (q : Nat) => ((d.quire q).map (·.width)).getD 0
  let strict := fun (q : Nat) => ((d.quire q).map (·.strict)).getD false
  if decide (c.cls ≤ 1) && qs.any (fun q => decide (250000 * w q < d.quireReads q)) then some 0xC0
  else if decide (c.cls = 0) && qs.any (fun q => !strict q) then some 0xC1
  else if 32768 < (d.hg.contracts.map (fun x => x.2.slotReserve)).sum then some 0xC2
  else none

/-- A contract stands in the table. -/
def Dev.withContract (d : Dev) (t : Nat) (c : Contract) : Dev := { d with hg := { d.hg with contracts := d.hg.contracts.ins t c } }

/-- A bucket under a new contract: clamped to the burst, and full where the old rate was unlimited. -/
def Dev.clampBucket (d : Dev) (t : Nat) (old c : Contract) (rd : Bool) : Dev :=
  match c.rate rd with
  | none => d.setBucket rd t .reset
  | some _ =>
    match old.rate rd with
    | none => d.setBucket rd t ⟨c.burst rd, 0⟩
    | some _ =>
      let b := d.bucket rd t
      d.setBucket rd t (if (c.burst rd : Int) ≤ b.level then ⟨c.burst rd, 0⟩ else b)

/-- A contract takes effect (R146). -/
def Dev.setContract (d : Dev) (t : Nat) (c : Contract) : Dev :=
  let old := d.contract t
  let d := (((d.withContract t c).clampBucket t old c true).clampBucket t old c false)
  (d.ev evHgContractSet 0 [.num 2 t, .num 1 old.cls, .num 1 c.cls]).warmUpdate

/-- TENANT_CONTRACT_SET (R144 to R146). -/
def tenantContractSet (cs : Nat) (dma : DmaIn) (d : Dev) : Dev :=
  d.seqRun cs 0xC1 (fun d s => d.withData cs dma (fun b =>
    let t := fieldAt b 0 2
    if !((List.range 6).all (fun i => decide (s.dw (10 + i) = 0))) || !zeroAt b 64 4032 || !contractOk (slice b 0 64) false then
      d.complete cs cqeInvalidField
    else
      let c := parseContract (slice b 0 64)
      match (d.withContract t c).contractRefusal t with
      | some sc => d.complete cs (cqeVendor sc)
      | none =>
        let d := d.setContract t c
        let d := if c.save then { d with hg := { d.hg with saved := d.hg.saved.ins t c } } else d
        d.complete cs cqeOk))

def execTenantContractSet (cs : Nat) (dma : DmaIn) (s : State) : Host.Outcome State Fault Refusal :=
  .next (s.onDev (tenantContractSet cs dma))

/-- TENANT_CONTRACT_GET (R144): the contract in force, its save flag telling that a saved copy exists. -/
def tenantContractGet (cs : Nat) (d : Dev) : Dev :=
  d.seqRun cs 0xC2 (fun d s =>
    let t := bitsOf (s.dw 10) 9 0
    if 512 < t ∨ s.dw 10 / 1024 ≠ 0 ∨ (List.range 5).any (fun i => decide (s.dw (11 + i) ≠ 0)) = true then d.complete cs cqeInvalidField
    else d.answer cs (contractBytes t (d.contract t) (d.hg.saved.has t) ++ List.replicate 4032 0))

def execTenantContractGet (cs : Nat) (s : State) : Host.Outcome State Fault Refusal := .next (s.onDev (tenantContractGet cs))

/-! ### The contract window and HG_CTRL (R146, R149) -/

/-- The record that the window's words spell. -/
def Dev.windowRecord (d : Dev) : List Byte := (List.range 16).flatMap (fun i => leBytes 4 (d.csrW (aHgContractData + 4 * i)).toNat)

/-- The outcome of a window command. -/
def Dev.windowEnd (d : Dev) (r : Nat) : Dev := { d with hg := { d.hg with cmdResult := r } }

/-- CONTRACT_LOAD: the contract in force is shown in the window. -/
def contractLoad (d : Dev) : Dev :=
  let t := d.reg aHgContractIdx 9 0
  if !(d.domReady 2) then d
  else if 512 < t then d.windowEnd 2
  else
    let b := contractBytes t (d.contract t) (d.hg.saved.has t)
    ((List.range 16).foldl (fun (d : Dev) (i : Nat) => d.setCsr (aHgContractData + 4 * i) (BitVec.ofNat 32 (fieldAt b (4 * i) 4))) d).windowEnd 0

def execContractLoad (s : State) : Host.Outcome State Fault Refusal := .next (s.onDev contractLoad)

/-- CONTRACT_APPLY: the window's record is applied to the tenant addressed, after the range checks of Table 05-4. -/
def contractApply (d : Dev) : Dev :=
  let t := d.reg aHgContractIdx 9 0
  let b := d.windowRecord
  if !(d.domReady 2) then d
  else if 512 < t then d.windowEnd 2
  else if 512 < fieldAt b 0 2 ∨ contractOk (leBytes 2 t ++ b.drop 2) false = false then d.windowEnd 1
  else (d.setContract t (parseContract b)).windowEnd 0

def execContractApply (s : State) : Host.Outcome State Fault Refusal := .next (s.onDev contractApply)

/-- HG_CTRL_WRITE (R149): fetch_en keeps its value before the entry mode. -/
def hgCtrlWrite (v : W32) (d : Dev) : Dev :=
  if !(d.domReady 2) then d
  else
    let w := v &&& 0xFB#32
    let w := if hostMode d.modes.mode ∨ d.modes.mode = .holdup ∨ d.modes.mode = .halted then w
      else (w &&& ~~~ 1#32) ||| (d.csrW aHgCtrl &&& 1#32)
    d.setCsr aHgCtrl w

def execHgCtrlWrite (v : W32) (s : State) : Host.Outcome State Fault Refusal := .next (s.onDev (hgCtrlWrite v))

end Sys2Proof.Machine
end

