-- ==== Sys2Proof/Machine/Queues.lean ====
section
/-! DEFINITION. Admin commands on queues and commands (R104, R107, R115, R137): creating and deleting queues, Abort and
Asynchronous Event Request. Queue statuses are those of NVMe Base (PRESUMED, assumption log). -/

namespace Sys2Proof.Machine

/-! ### Statuses and limits -/

def cqeCqInvalid : Cqe := Cqe.of 1 0x00 true
def cqeQueueId : Cqe := Cqe.of 1 0x01 true
def cqeQueueSize : Cqe := Cqe.of 1 0x02 true
def cqeAbortLimit : Cqe := Cqe.of 1 0x03 false
def cqeAerLimit : Cqe := Cqe.of 1 0x05 false
def cqeVector : Cqe := Cqe.of 1 0x08 true
def cqeDeletion : Cqe := Cqe.of 1 0x0C true
def cqeSqDeleted : Cqe := Cqe.of 0 0x08 false

/-- The highest I/O queue identifier and interrupt vector of a function: 128 on a PF, 16 on a VF (R101, R107). -/
def Fn.queues (f : Fn) : Nat := if f.isPf then 128 else 16

/-- CAP.MQES, 0-based (R104). -/
def Fn.mqes (f : Fn) : Nat := if f.isPf then 0x0FFF else 0x03FF

/-- The first PRP entry of a command. -/
def CSlot.prp1 (s : CSlot) : Nat := s.dw 6 + 2 ^ 32 * s.dw 7

/-- Running an admin command that the sequencer does not take; it ends when its result is decided. -/
def Dev.adminRun (d : Dev) (cs op : Nat) (f : Dev → CSlot → Dev) : Dev :=
  match d.adminSlot cs op with
  | none => d
  | some s => f d s

/-! ### I/O queues (R107) -/

/-- Why a new queue's identifier or size is refused. -/
def queueRefusal (f : Fn) (dw10 : Nat) (taken : Bool) : Option Cqe :=
  let id := bitsOf dw10 15 0
  let size := bitsOf dw10 31 16
  if id = 0 ∨ f.queues < id ∨ taken = true then some cqeQueueId
  else if size = 0 ∨ f.mqes < size then some cqeQueueSize
  else none

/-- CREATE_IO_CQ: queues are physically contiguous (CAP.CQR). -/
def createIoCq (cs : Nat) (d : Dev) : Dev :=
  d.adminRun cs 0x05 (fun d s =>
    let id := bitsOf (s.dw 10) 15 0
    let vec := bitsOf (s.dw 11) 31 16
    match queueRefusal s.fn (s.dw 10) ((d.fnst s.fn).cqs.has id) with
    | some e => d.complete cs e
    | none =>
      if bitOf (s.dw 11) 0 = false then d.complete cs cqeInvalidField
      else if s.fn.queues < vec then d.complete cs cqeVector
      else
        let q : Cq := ⟨s.prp1, bitsOf (s.dw 10) 31 16 + 1, 0, 0, true, vec, bitOf (s.dw 11) 1, [], false⟩
        (d.modFn s.fn (fun t => { t with cqs := t.cqs.ins id q })).complete cs cqeOk)

def execCreateIoCq (cs : Nat) (s : State) : Host.Outcome State Fault Refusal := .next (s.onDev (createIoCq cs))

/-- CREATE_IO_SQ: the priority field is ignored. -/
def createIoSq (cs : Nat) (d : Dev) : Dev :=
  d.adminRun cs 0x01 (fun d s =>
    let id := bitsOf (s.dw 10) 15 0
    let cq := bitsOf (s.dw 11) 31 16
    match queueRefusal s.fn (s.dw 10) ((d.fnst s.fn).sqs.has id) with
    | some e => d.complete cs e
    | none =>
      if bitOf (s.dw 11) 0 = false then d.complete cs cqeInvalidField
      else if cq = 0 ∨ s.fn.queues < cq then d.complete cs cqeQueueId
      else if (d.fnst s.fn).cqs.has cq = false then d.complete cs cqeCqInvalid
      else
        let q : Sq := ⟨s.prp1, bitsOf (s.dw 10) 31 16 + 1, cq, 0, 0, []⟩
        (d.modFn s.fn (fun t => { t with sqs := t.sqs.ins id q })).complete cs cqeOk)

def execCreateIoSq (cs : Nat) (s : State) : Host.Outcome State Fault Refusal := .next (s.onDev (createIoSq cs))

/-- A command of a deleted queue: it is aborted before its commit point and loses its completion after it. -/
def Dev.sqGone (d : Dev) (cs : Nat) : Dev :=
  match d.hg.slots.get? cs with
  | none => d
  | some s =>
    match s.st with
    | .fetched | .paced | .executing => (d.dropWork cs).complete cs cqeSqDeleted
    | .committed => d.modSlot cs (fun s => { s with discard := true })
    | .ending | .aborted => d

/-- DELETE_IO_SQ: its commands end first. -/
def deleteIoSq (cs : Nat) (d : Dev) : Dev :=
  d.adminRun cs 0x00 (fun d s =>
    let id := bitsOf (s.dw 10) 15 0
    if id = 0 ∨ (d.fnst s.fn).sqs.has id = false then d.complete cs cqeQueueId
    else
      let l := (d.slotsOf s.fn).filter (fun x => decide (x.2.sqid = id))
      let d := { d with hg := { d.hg with fetches := d.hg.fetches.filter (fun x => decide (x.fn ≠ s.fn) || decide (x.qid ≠ id)) } }
      let d : Dev := l.foldl (fun (d : Dev) (x : Nat × CSlot) => d.sqGone x.1) d
      (d.modFn s.fn (fun t => { t with sqs := t.sqs.del id })).complete cs cqeOk)

def execDeleteIoSq (cs : Nat) (s : State) : Host.Outcome State Fault Refusal := .next (s.onDev (deleteIoSq cs))

/-- DELETE_IO_CQ: not while a submission queue posts to it; completions that wait for its space go with it. -/
def deleteIoCq (cs : Nat) (d : Dev) : Dev :=
  d.adminRun cs 0x04 (fun d s =>
    let id := bitsOf (s.dw 10) 15 0
    match (d.fnst s.fn).cqs.get? id with
    | none => d.complete cs cqeQueueId
    | some q =>
      if id = 0 then d.complete cs cqeQueueId
      else if (d.fnst s.fn).sqs.any (fun x => decide (x.2.cqid = id)) then d.complete cs cqeDeletion
      else
        let d := d.modFn s.fn (fun t => { t with cqs := t.cqs.del id })
        (q.held.foldl (fun (d : Dev) (w : CqWait) => d.freeSlot w.cs) d).complete cs cqeOk)

def execDeleteIoCq (cs : Nat) (s : State) : Host.Outcome State Fault Refusal := .next (s.onDev (deleteIoCq cs))

/-! ### Abort (R137) -/

/-- The command that an Abort names on its own controller. -/
def Dev.abortTarget (d : Dev) (cs : Nat) (s : CSlot) : Option (Nat × CSlot) :=
  (d.slotsOf s.fn).find? (fun x =>
    decide (x.1 ≠ cs) && decide (x.2.sqid = bitsOf (s.dw 10) 15 0) && decide (x.2.cid = bitsOf (s.dw 10) 31 16))

/-- Aborts of the same controller fetched earlier that still hold a slot. -/
def Dev.abortsBefore (d : Dev) (s : CSlot) : Nat :=
  ((d.slotsOf s.fn).filter (fun x => decide (x.2.sqid = 0) && decide (x.2.opcode = 0x08) && decide (x.2.order < s.order))).length

/-- ABORT: a target before its commit point ends with Command Abort Requested, its completion before the Abort's. -/
def abortCmd (cs : Nat) (d : Dev) : Dev :=
  d.adminRun cs 0x08 (fun d s =>
    if 8 ≤ d.abortsBefore s then d.complete cs cqeAbortLimit
    else
      let missed := fun (d : Dev) =>
        (((d.count aHgAbortCnt 16 16).modStat s.fn.tenant (fun t => { t with notAborted := sat 32 (t.notAborted + 1) })).complete cs (cqeDw0 1#32))
      match d.abortTarget cs s with
      | none => missed d
      | some (c, x) =>
        match x.st with
        | .fetched | .paced | .executing =>
          let d := d.modFn s.fn (fun t => { t with aers := t.aers.filter (fun a => decide (a ≠ c)) })
          let d := (d.dropWork c).complete c cqeAborted
          (((d.count aHgAbortCnt 0 16).modStat s.fn.tenant (fun t => { t with aborted := sat 32 (t.aborted + 1) })).complete cs (cqeDw0 0#32))
        | .committed | .ending | .aborted => missed d)

def execAbort (cs : Nat) (s : State) : Host.Outcome State Fault Refusal := .next (s.onDev (abortCmd cs))

/-! ### Asynchronous Event Request (R115) -/

/-- ASYNC_EVENT_REQUEST: held, executing, until an event completes it; a controller holds 16 (AERL). -/
def asyncEventRequest (cs : Nat) (d : Dev) : Dev :=
  d.adminRun cs 0x0C (fun d s =>
    if 16 ≤ (d.fnst s.fn).aers.length then d.complete cs cqeAerLimit
    else
      let d := d.modSlot cs (fun s => { s with st := .executing, wait := .event })
      (d.modFn s.fn (fun t => { t with aers := t.aers ++ [cs] })).pumpAer s.fn)

def execAsyncEventRequest (cs : Nat) (s : State) : Host.Outcome State Fault Refusal := .next (s.onDev (asyncEventRequest cs))

end Sys2Proof.Machine
end

