-- ==== Sys2Proof/Machine/Features.lean ====
section
/-! DEFINITION. Power-state selection, and Set Features and Get Features (R79, R81, R101, R109, R110, R115). What the spec
leaves to NVMe Base, such as field places, is marked PRESUMED in the assumption log. -/

namespace Sys2Proof.Machine

/-! ### Selecting a power state (R79) -/

/-- Selecting an operational state: the power_limit condition goes with PS1 and PS2, IDLE and an entry into it end, and the
Sluice's budget follows. -/
def Dev.selectOperational (d : Dev) (ps : Nat) : Dev :=
  let d := { d with modes := { d.modes with selPs := ps, lastOpPs := ps } }
  let d := if d.modes.idleEntry || decide (d.modes.mode = .idle) then d.leaveIdle
    else { d with modes := { d.modes with hostPs := ps } }
  (d.setCond 1 (decide (ps ≠ 0))).sluPump

/-- Selecting PS3 or PS4: IDLE entry waits for its condition; in IDLE the domains move to the other column. -/
def Dev.selectIdle (d : Dev) (ps : Nat) : Dev :=
  let d := { d with modes := { d.modes with selPs := ps } }
  if d.modes.mode = .idle && !d.modes.leaving then { d with modes := { d.modes with hostPs := ps } }.applyColumn else d

/-- The host's selection, made by Set Features or autonomously. -/
def Dev.selectPs (d : Dev) (ps : Nat) : Dev := if ps ≤ 2 then d.selectOperational ps else d.selectIdle ps

/-- The APST table's entry of a power state: the state it names and the idle time in ms, 0 for none. -/
def Dev.apstEntry (d : Dev) (ps : Nat) : Nat × Nat :=
  let e := fieldAt d.adm.apst (8 * ps) 4
  (bitsOf e 7 3, bitsOf e 31 8)

/-- APST_TRANSITION (R79): with the feature enabled, the state in force names the state asked for and has an idle time. -/
def apstTransition (ps : Nat) (d : Dev) : Dev :=
  let e := d.apstEntry d.modes.selPs
  if hostMode d.modes.mode && bitOf (d.adm.feats.get 0 0x0C).toNat 0 && (decide (ps = 3) || decide (ps = 4))
      && decide (e.1 = ps) && decide (e.2 ≠ 0) then d.selectPs ps
  else d

def execApstTransition (ps : Nat) (s : State) : Host.Outcome State Fault Refusal := .next (s.onDev (apstTransition ps))

/-! ### Feature keys and defaults (Table 04-9) -/

def cqeNotSaveable : Cqe := Cqe.of 1 0x0D true
def cqeNotChangeable : Cqe := Cqe.of 1 0x0E true

/-- The feature identifiers of Table 04-9. -/
def featKnown (fid : Nat) : Bool :=
  [0x01, 0x02, 0x04, 0x05, 0x07, 0x08, 0x09, 0x0A, 0x0B, 0x0C, 0x0E, 0x11, 0x1D, 0x1E].contains fid

/-- The features marked saveable. -/
def featSaves (fid : Nat) : Bool := [0x02, 0x04, 0x0C, 0x11, 0x1D].contains fid

/-- The key of a temperature threshold: `sel` 0 composite, 1 die, 2 hottest module; `under` for the lower threshold. -/
def tempKey (sel under : Nat) : Nat := 0x10000 + 0x400000 + 16 * under + sel

/-- The default of a temperature threshold in kelvin: WCTEMP for the composite temperature; otherwise never crossed. -/
def tempDefault (sel under : Nat) : Nat := if under = 1 then 0 else if sel = 0 then 368 else 0xFFFF

/-- A temperature threshold in force, in kelvin. -/
def Dev.tempLimit (d : Dev) (sel under : Nat) : Nat :=
  ((d.adm.feats.get? (tempKey sel under)).map (fun v => v.toNat)).getD (tempDefault sel under)

/-- Where a feature's value is kept among the subsystem's features. -/
def featKey (fid dw11 : Nat) : Nat :=
  if fid = 0x04 then tempKey (bitsOf dw11 19 16) (bitsOf dw11 21 20) else fid

/-- A feature's default. -/
def featDefault (fid dw11 : Nat) : Nat :=
  if fid = 0x04 then tempDefault (bitsOf dw11 19 16) (bitsOf dw11 21 20) else 0

/-- Number of Queues: 128 on a PF and 16 on a VF, 0-based, in each half. -/
def Fn.numQueues (f : Fn) : Nat := (f.queues - 1) * 0x10001

/-- The namespaces that a namespace feature names on a controller: all attached ones for the broadcast NSID. -/
def Dev.featNss (d : Dev) (s : CSlot) : Option (List Nat) :=
  if s.nsid = 0xFFFFFFFF then
    some ((d.tc.nss.filter (fun x => x.2.attached.contains s.fn.cntlid)).map (·.1))
  else (d.nsOf s).map (fun x => [x.1])

/-! ### Set Features -/

/-- Storing a feature of subsystem scope, saving it when asked. -/
def Dev.putFeat (d : Dev) (k : Nat) (v : Nat) (save : Bool) : Dev :=
  let w := BitVec.ofNat 32 v
  let a := { d.adm with feats := d.adm.feats.ins k w }
  { d with adm := if save then { a with saved := a.saved.ins k w } else a }

/-- Storing a feature of controller scope. -/
def Dev.putCtlFeat (d : Dev) (f : Fn) (k v : Nat) : Dev :=
  d.modFn f (fun s => { s with feats := s.feats.put 0 k (BitVec.ofNat 32 v) })

/-- An APST table: entries with an idle time name PS3 or PS4 only. -/
def apstOk (b : List Byte) : Bool :=
  (List.range 32).all (fun i =>
    let e := fieldAt b (8 * i) 4
    decide (bitsOf e 31 8 = 0) || decide (bitsOf e 7 3 = 3) || decide (bitsOf e 7 3 = 4))

/-- The thresholds that a Set names: selector 15 names every sensor. -/
def tempSels (sel : Nat) : List Nat := if sel = 15 then [0, 1, 2] else [sel]

/-- Set Features of subsystem or endurance-group scope, in the sequencer. -/
def Dev.setSubsystem (d : Dev) (cs : Nat) (s : CSlot) (fid v : Nat) (save : Bool) (dma : DmaIn) : Dev :=
  let done := fun (d : Dev) => d.complete cs cqeOk
  if fid = 0x02 then
    let ps := bitsOf v 4 0
    if 4 < ps then d.complete cs cqeInvalidField
    else done ((d.putFeat 0x02 (bitsOf v 7 0) save).selectPs ps)
  else if fid = 0x04 then
    let sel := bitsOf v 19 16
    let under := bitsOf v 21 20
    if (2 < sel ∧ sel ≠ 15) ∨ 1 < under then d.complete cs cqeInvalidField
    else done ((tempSels sel).foldl (fun (d : Dev) (k : Nat) => d.putFeat (tempKey k under) (bitsOf v 15 0) save) d)
  else if fid = 0x0C then
    d.withData cs dma (fun b =>
      let t := slice b 0 256
      if apstOk t = false then d.complete cs cqeInvalidField
      else
        let d := d.putFeat 0x0C (bitsOf v 0 0) save
        let a := { d.adm with apst := t }
        done { d with adm := if save then { a with apstSaved := t } else a })
  else if fid = 0x0E then
    d.withData cs dma (fun b =>
      done { d with adm := { d.adm with tsBase := fieldAt b 0 6, tsAt := d.nowMs, tsSet := true } })
  else if fid = 0x11 then done (d.putFeat 0x11 (bitsOf v 0 0) save)
  else
    -- 0x1D: endurance group 1, configuration 0, and only while no namespace exists (R109)
    if bitsOf v 15 0 ≠ 1 ∨ bitsOf (s.dw 12) 15 8 ≠ 0 then d.complete cs cqeInvalidField
    else if d.tc.nss.isEmpty = false then d.complete cs cqeSequence
    else done (d.putFeat 0x1D (bitsOf (s.dw 12) 0 0) save)

/-- FDP events (Feature 0x1E): the event types listed, by number. -/
def fdpTypes (n : Nat) (b : List Byte) : List Nat := (List.range n).map (fun i => fieldAt b i 1)

/-- Bit 0 stands for Reclaim Unit Not Fully Written (0x00), bit 1 for Media Reallocated (0x81). -/
def fdpBit (t : Nat) : Nat := if t = 0 then 1 else if t = 0x81 then 2 else 0

/-- Set Features of controller or namespace scope. -/
def Dev.setController (d : Dev) (cs : Nat) (s : CSlot) (fid v : Nat) (dma : DmaIn) : Dev :=
  let done := fun (d : Dev) => d.complete cs cqeOk
  if fid = 0x07 then
    if bitsOf v 15 0 = 0xFFFF ∨ bitsOf v 31 16 = 0xFFFF then d.complete cs cqeInvalidField
    else d.complete cs (cqeDw0 (BitVec.ofNat 32 s.fn.numQueues))
  else if fid = 0x09 then
    if s.fn.queues < bitsOf v 15 0 then d.complete cs cqeInvalidField
    else done (d.putCtlFeat s.fn (0x900 + bitsOf v 15 0) (bitsOf v 16 16 * 0x10000))
  else if fid = 0x05 then
    match d.featNss s with
    | none => d.complete cs cqeInvalidNs
    | some l => done (l.foldl (fun (d : Dev) (ns : Nat) => d.putFeat (nsFeat 0x05 ns) (bitsOf v 16 0) false) d)
  else if fid = 0x1E then
    match d.nsOf s with
    | none => d.complete cs cqeInvalidNs
    | some (ns, n) =>
      if n.kind ≠ 1 then d.complete cs cqeInvalidField
      else d.withData cs dma (fun b =>
        let ts := fdpTypes (bitsOf v 23 16) b
        let old := (d.adm.feats.get 0 (nsFeat 0x1E ns)).toNat
        let m := maskOf 2 (fun i => ts.any (fun t => decide (fdpBit t = 2 ^ i)))
        done (d.putFeat (nsFeat 0x1E ns)
          (maskOf 2 (fun i => if bitOf m i then bitOf (s.dw 12) 0 else bitOf old i)) false))
  else if fid = 0x0A then done (d.putCtlFeat s.fn 0x0A (bitsOf v 0 0))
  else if fid = 0x08 then done (d.putCtlFeat s.fn 0x08 (bitsOf v 15 0))
  else done (d.putCtlFeat s.fn fid v)

/-- SET_FEATURES (R110): a subsystem-scope feature runs in the sequencer and only from a PF. -/
def setFeatures (cs : Nat) (dma : DmaIn) (d : Dev) : Dev :=
  match d.hg.slots.get? cs with
  | none => d
  | some s =>
    let fid := bitsOf (s.dw 10) 7 0
    let save := bitOf (s.dw 10) 31
    if subsystemFeat fid then
      d.seqRun cs 0x09 (fun d s =>
        if s.fn.isPf = false then d.complete cs cqeNotChangeable
        else if save && !(featSaves fid) then d.complete cs cqeNotSaveable
        else d.setSubsystem cs s fid (s.dw 11) save dma)
    else
      d.adminRun cs 0x09 (fun d s =>
        if featKnown fid = false then d.complete cs cqeInvalidField
        else if save then d.complete cs cqeNotSaveable
        else d.setController cs s fid (s.dw 11) dma)

def execSetFeatures (cs : Nat) (dma : DmaIn) (s : State) : Host.Outcome State Fault Refusal := .next (s.onDev (setFeatures cs dma))

/-! ### Get Features -/

/-- A feature's current value as Dword 0 reports it. -/
def Dev.featNow (d : Dev) (s : CSlot) (fid v ns : Nat) : Nat :=
  if fid = 0x02 then d.modes.selPs + 32 * bitsOf (d.adm.feats.get 0 0x02).toNat 7 5
  else if fid = 0x04 then d.tempLimit (bitsOf v 19 16) (bitsOf v 21 20)
  else if fid = 0x05 ∨ fid = 0x1E then (d.adm.feats.get 0 (nsFeat fid ns)).toNat
  else if fid = 0x07 then s.fn.numQueues
  else if fid = 0x09 then bitsOf v 15 0 + ((d.fnst s.fn).feats.get 0 (0x900 + bitsOf v 15 0)).toNat
  else if subsystemFeat fid then (d.adm.feats.get 0 fid).toNat
  else ((d.fnst s.fn).feats.get 0 fid).toNat

/-- A feature's capabilities: saveable, namespace specific, changeable. -/
def featCaps (fid : Nat) : Nat := bit (featSaves fid) + 2 * bit (fid = 0x05 || fid = 0x1E) + 4

/-- The timestamp as read back: 48 bits of ms, and where it came from. -/
def Dev.timestamp (d : Dev) : List Byte :=
  leBytes 6 (d.adm.tsBase + (d.nowMs - d.adm.tsAt)) ++ leBytes 1 (2 * bit d.adm.tsSet) ++ [0#8]

/-- The FDP event descriptors of a namespace: each supported type with its enabled bit. -/
def fdpDescs (v : Nat) : List Byte := leBytes 1 0x00 ++ leBytes 1 (bitsOf v 0 0) ++ leBytes 1 0x81 ++ leBytes 1 (bitsOf v 1 1)

/-- GET_FEATURES (R110): select 0 current, 1 default, 2 saved, 3 capabilities. -/
def getFeatures (cs : Nat) (d : Dev) : Dev :=
  d.adminRun cs 0x0A (fun d s =>
    let fid := bitsOf (s.dw 10) 7 0
    let sel := bitsOf (s.dw 10) 10 8
    let v := s.dw 11
    let word := fun (d : Dev) (x : Nat) => d.complete cs (cqeDw0 (BitVec.ofNat 32 x))
    let ns := ((d.nsOf s).map (·.1)).getD 0
    if featKnown fid = false ∨ 3 < sel then d.complete cs cqeInvalidField
    else if fid = 0x04 ∧ (2 < bitsOf v 19 16 ∨ 1 < bitsOf v 21 20) then d.complete cs cqeInvalidField
    else if fid = 0x09 ∧ s.fn.queues < bitsOf v 15 0 then d.complete cs cqeInvalidField
    else if (fid = 0x05 ∨ fid = 0x1E) ∧ (d.nsOf s).isNone then d.complete cs cqeInvalidNs
    else if sel = 3 then word d (featCaps fid)
    else if sel = 2 ∧ featSaves fid = true then
      let w := BitVec.ofNat 32 (((d.adm.saved.get? (featKey fid v)).map (fun x => x.toNat)).getD (featDefault fid v))
      if fid = 0x0C then d.answer cs (slice d.adm.apstSaved 0 256) (cqeDw0 w) else word d w.toNat
    else if sel ≠ 0 then
      let w := if fid = 0x07 then s.fn.numQueues else if fid = 0x09 then bitsOf v 15 0 else featDefault fid v
      if fid = 0x0C then d.answer cs (List.replicate 256 0) (cqeDw0 (BitVec.ofNat 32 w))
      else if fid = 0x0E then d.answer cs (List.replicate 8 0)
      else word d w
    else
      let w := d.featNow s fid v ns
      if fid = 0x0C then d.answer cs (slice d.adm.apst 0 256) (cqeDw0 (BitVec.ofNat 32 w))
      else if fid = 0x0E then d.answer cs d.timestamp
      else if fid = 0x1E then d.answer cs (fdpDescs w) (cqeDw0 2#32)
      else word d w)

def execGetFeatures (cs : Nat) (s : State) : Host.Outcome State Fault Refusal := .next (s.onDev (getFeatures cs))

end Sys2Proof.Machine
end

