-- ==== Sys2Proof/Machine/Identify.lean ====
section
/-! DEFINITION. Identify (R79, R80, R95, R104 to R109, R116, R165): the data structures of the supported CNS values. Field
places are those of the NVMe specifications (PRESUMED, assumption log); the values are the spec's. -/

namespace Sys2Proof.Machine

/-- A structure of `n` bytes from fields at rising offsets; bytes between them are 0. -/
def layout (n : Nat) (fs : List (Nat × List Byte)) : List Byte :=
  slice (fs.foldl (fun (acc : List Byte) (f : Nat × List Byte) => acc ++ List.replicate (f.1 - acc.length) 0 ++ f.2) []) 0 n

/-- A number field of `w` bytes. -/
def num (o w v : Nat) : Nat × List Byte := (o, leBytes w v)

/-! ### Text -/

/-- Hexadecimal digits, upper or lower case. -/
def hexDigit (up : Bool) (v : Nat) : Byte := BitVec.ofNat 8 (if v < 10 then 48 + v else (if up then 55 else 87) + v)

/-- Bytes as hexadecimal text, the first byte first. -/
def hexText (up : Bool) (l : List Byte) : List Byte := l.flatMap (fun b => [hexDigit up (b.toNat / 16), hexDigit up (b.toNat % 16)])

/-- The bytes of a text. -/
def textBytes (s : String) : List Byte := s.toList.map (fun c => BitVec.ofNat 8 c.toNat)

/-- A text padded with spaces. -/
def spaced (n : Nat) (l : List Byte) : List Byte := l ++ List.replicate (n - l.length) 0x20#8

/-- The device serial's bytes. -/
def serialBytes : List Byte := leBytes 16 Config.serial.toNat

/-- The running Folio's build_id. -/
def Dev.buildId (d : Dev) : List Byte := ((d.boot.run).map (·.buildId)).getD []

/-! ### Identify Controller (Tables 03-4, 03-5, 04-6) -/

/-- A power-state descriptor: maximum power in 10 mW, non-operational, ENLAT and EXLAT in µs. -/
def psd (mp : Nat) (nops : Bool) (enlat exlat : Nat) : List Byte :=
  layout 32 [num 0 2 mp, num 3 1 (2 * bit nops), num 4 4 enlat, num 8 4 exlat]

/-- The five power-state descriptors (R79, R80). -/
def Dev.psds (d : Dev) : List Byte :=
  psd 12000 false 10 10 ++ psd 8000 false 10 10 ++ psd 5000 false 10 10
  ++ psd 1200 true (1000 + d.boot.tProg) 100 ++ psd 300 true (5000 + d.boot.tProg) 2000

/-- Identify Controller. -/
def Dev.idController (d : Dev) (f : Fn) : List Byte :=
  layout 4096 [num 0 2 0x1F5A, num 2 2 0x1F5A, (4, hexText true (serialBytes.take 10)), (24, spaced 40 (textBytes "ZSK-CX512-B0")),
    (64, slice d.buildId 0 8), num 76 1 0x0F, num 77 1 9, num 78 2 f.cntlid, num 80 4 0x00020100, num 92 4 0x08002B00,
    num 96 4 (if f.isPf then 0x80000 else 0), num 111 1 1, num 256 2 (if f.isPf then 0x02DE else 0), num 258 1 7, num 259 1 15,
    num 260 1 0x12, num 261 1 0x06, num 262 1 63, num 263 1 4, num 265 1 1, num 266 2 368, num 268 2 383, num 270 2 2,
    num 319 1 1, num 328 4 3, num 340 2 1, num 342 1 1, num 343 1 0x43, num 344 4 16, num 348 4 16, num 512 1 0x66, num 513 1 0x44,
    num 516 4 1024, num 520 2 0x00DC, num 524 1 0x04, num 525 1 0x00, num 526 2 31, num 528 2 31, num 536 4 1, num 540 4 1024,
    (768, textBytes "nqn.2019-03.io.zeska-semi:cx512:" ++ hexText false serialBytes), (2048, d.psds)]

/-! ### Identify Namespace (Table 04-7) -/

/-- An LBA format: metadata size, data size as a power of two, relative performance. -/
def lbaFormats : List Byte :=
  leBytes 4 0x000C0000 ++ leBytes 4 0x000C0008 ++ leBytes 4 0x010C0040 ++ leBytes 4 0x03090000

/-- AWUN and AWUPF of a namespace, 0-based blocks of 128 KiB (R105). -/
def Nsp.awun (n : Nsp) : Nat := if n.lbaf = 3 then 255 else 31

/-- Identify Namespace. -/
def idNamespace (ns : Nat) (n : Nsp) : List Byte :=
  layout 4096 [num 0 8 n.nsze, num 8 8 n.nsze, num 16 8 n.nsze, num 24 1 0x06, num 25 1 3, num 26 1 n.lbaf, num 27 1 3, num 28 1 0x15,
    num 29 1 (if n.pi = 0 then 0 else n.pi), num 30 1 1, num 33 1 0x09, num 34 2 n.awun, num 36 2 n.awun, num 48 16 (n.nsze * lbaBytes n.lbaf),
    num 92 4 (n.quire + 1), num 102 2 1, num 104 16 (Config.nguid ns).toNat, (128, lbaFormats)]

/-- What every namespace has in common, for the broadcast NSID. -/
def idCommon : List Byte :=
  layout 4096 [num 24 1 0x06, num 25 1 3, num 27 1 3, num 28 1 0x15, num 30 1 1, num 33 1 0x09, (128, lbaFormats)]

/-- Identify Namespace for the Zoned Namespace Command Set: variable zone capacity; MAR and MOR; the zone size. -/
def idZoned (n : Nsp) : List Byte :=
  layout 4096 [num 0 2 1, num 2 2 1, num 4 4 n.mar, num 8 4 n.mar, (2816, (List.range 4).flatMap (fun i =>
    leBytes 8 (if i = 3 then 0 else 2 ^ n.zoneShift / lbaBytes i) ++ leBytes 8 0))]

/-- The command-set-independent Identify Namespace. -/
def idIndependent (n : Nsp) : List Byte := layout 4096 [num 1 1 1, num 4 4 (n.quire + 1), num 12 2 1, num 14 1 1]

/-- The Namespace Identification Descriptor list: NGUID and the command set. -/
def idDescriptors (ns : Nat) (n : Nsp) : List Byte :=
  layout 4096 [(0, [2#8, 16#8, 0#8, 0#8]), num 4 16 (Config.nguid ns).toNat, (20, [4#8, 1#8, 0#8, 0#8]), num 24 1 (if n.kind = 2 then 2 else 0)]

/-! ### Lists -/

/-- A namespace list: the identifiers above `after` in rising order, at most 1,024. -/
def nsidList (l : List Nat) (after : Nat) : List Byte :=
  slice (((l.filter (fun x => decide (after < x))).take 1024).flatMap (leBytes 4)) 0 4096

/-- The identifiers of the namespaces that a test picks. -/
def Dev.nsids (d : Dev) (f : Nsp → Bool) : List Nat := (d.tc.nss.filter (fun x => f x.2)).map (fun x => x.1 + 1)

/-- A controller list from `first` on, at most 2,047. -/
def ctlList (l : List Nat) (first : Nat) : List Byte :=
  let l := (l.filter (fun x => decide (first ≤ x))).take 2047
  slice (leBytes 2 l.length ++ l.flatMap (leBytes 2)) 0 4096

/-- Every controller of the subsystem. -/
def allCntlids : List Nat := [1, 2] ++ (List.range 512).map (fun n => 0x1001 + n) ++ (List.range 512).map (fun n => 0x2001 + n)

/-- The Secondary Controller List of a PF: VF controllers from `first` on, Online or Offline, each with 16 queue pairs and 17
vectors. -/
def Dev.secondaries (d : Dev) (p : Port) (first : Nat) : List Byte :=
  let ids := (((List.range 512).map (fun n => Fn.vf p (n + 1))).filter (fun f => decide (first ≤ f.cntlid))).take 127
  let ent := fun (f : Fn) => layout 32 [num 0 2 f.cntlid, num 2 2 (Fn.pf p).cntlid, num 4 1 (bit ((d.fnst f).online && d.fnUp f)),
    num 8 2 (f.cntlid % 0x1000), num 10 2 16, num 12 2 17]
  slice (leBytes 1 ids.length ++ List.replicate 31 0 ++ ids.flatMap ent) 0 4096

/-- The Primary Controller Capabilities of a PF: no flexible resources (R122). -/
def idPrimary (p : Port) : List Byte := layout 4096 [num 0 2 (Fn.pf p).cntlid, num 2 2 p.num]

/-! ### IDENTIFY -/

/-- The namespace with an identifier, where it exists. -/
def Dev.nspId (d : Dev) (nsid : Nat) : Option (Nat × Nsp) :=
  if nsid = 0 then none else (d.nsp (nsid - 1)).map (fun n => (nsid - 1, n))

/-- Whether an NSID can name a namespace. -/
def nsidValid (nsid : Nat) : Bool := decide (1 ≤ nsid) && decide (nsid ≤ 1024)

/-- Identify's answer: a structure, or the status that refuses it. -/
def Dev.identified (d : Dev) (s : CSlot) : List Byte ⊕ Cqe :=
  let f := s.fn
  let nsid := s.nsid
  let cnt := bitsOf (s.dw 10) 31 16
  let csi := bitsOf (s.dw 11) 31 24
  let zero := List.replicate 4096 (0 : Byte)
  let p := f.port
  let attached := fun (g : Nat → Nsp → List Byte ⊕ Cqe) =>
    if !nsidValid nsid then .inr cqeInvalidNs
    else match d.nsOf s with
      | some (ns, n) => g ns n
      | none => .inl zero
  match bitsOf (s.dw 10) 7 0 with
  | 0x00 => if nsid = 0xFFFFFFFF then .inl idCommon else attached (fun ns n => .inl (idNamespace ns n))
  | 0x01 => .inl (d.idController f)
  | 0x02 => if 0xFFFFFFFE ≤ nsid then .inr cqeInvalidNs else .inl (nsidList (d.nsids (fun n => n.attached.contains f.cntlid)) nsid)
  | 0x03 => match d.nspId nsid with
    | some (ns, n) => .inl (idDescriptors ns n)
    | none => .inr cqeInvalidNs
  | 0x05 => attached (fun _ n =>
      if csi = 0 ∧ n.kind ≠ 2 then .inl zero
      else if csi = 2 ∧ n.kind = 2 then .inl (idZoned n)
      else .inr cqeInvalidField)
  | 0x06 => if csi = 0 ∨ csi = 2 then .inl zero else .inr cqeInvalidField
  | 0x08 => attached (fun _ n => .inl (idIndependent n))
  | 0x10 => if 0xFFFFFFFE ≤ nsid then .inr cqeInvalidNs else .inl (nsidList (d.nsids (fun _ => true)) nsid)
  | 0x11 => if !nsidValid nsid then .inr cqeInvalidNs else match d.nspId nsid with
    | some (ns, n) => .inl (idNamespace ns n)
    | none => .inl zero
  | 0x12 => match d.nspId nsid with
    | some (_, n) => .inl (ctlList (n.attached.foldl (fun (l : List Nat) (c : Nat) => insertBy id c l) []) cnt)
    | none => .inr cqeInvalidNs
  | 0x13 => if f.isPf then .inl (ctlList allCntlids cnt) else .inr cqeInvalidField
  | 0x14 => if f.isPf then .inl (idPrimary p) else .inr cqeInvalidField
  | 0x15 => if f.isPf then .inl (d.secondaries p cnt) else .inr cqeInvalidField
  | 0x1C => .inl (layout 4096 [num 0 8 (if bitsOf (d.fnst f).cc.toNat 6 4 = 6 then 5 else 1)])
  | _ => .inr cqeInvalidField

/-- IDENTIFY (R105, R107). -/
def identify (cs : Nat) (d : Dev) : Dev :=
  d.adminRun cs 0x06 (fun d s =>
    match d.identified s with
    | .inl b => d.answer cs b
    | .inr e => d.complete cs e)

def execIdentify (cs : Nat) (s : State) : Host.Outcome State Fault Refusal := .next (s.onDev (identify cs))

end Sys2Proof.Machine
end

