-- ==== Sys2Proof/Machine/Mailbox.lean ====
section
/-! DEFINITION. The Kyster mailbox (R42 to R50, R478, R479): the acceptance of a command in the order of R47, and the
opcodes of Table 02-7. -/

namespace Sys2Proof.Machine


/-- Command bytes 8 to 63. -/
def KmbPkt.bytes (k : KmbPkt) : List Byte := leBytes 56 k.params.toNat

/-- The number in `n` bytes at command byte `o`, `o` at least 8. -/
def KmbPkt.num (k : KmbPkt) (o n : Nat) : Nat := fieldAt k.bytes (o - 8) n

/-- The 64 bytes of the packet with an opcode (Table 02-4). -/
def KmbPkt.packet (k : KmbPkt) (op : Nat) : BitVec 512 :=
  BitVec.ofNat 512 (leNat (leBytes 1 op ++ leBytes 1 k.flags.toNat ++ leBytes 2 k.tag.toNat ++ leBytes 4 k.rsv.toNat ++ k.bytes))


/-! ### Parameters and results -/

/-- The first command byte outside the parameters used that is not 0: flags, the reserved bytes, then the bytes from
`used` on. -/
def firstNonZero (k : KmbPkt) (used : Nat) : Option Nat :=
  if k.flags ≠ 0 then some 1
  else
    match (List.range 4).find? (fun i => bitsOf k.rsv.toNat (8 * i + 7) (8 * i) ≠ 0) with
    | some i => some (4 + i)
    | none => ((List.range (64 - used)).find? (fun i => k.num (used + i) 1 ≠ 0)).map (used + ·)

/-- The lowest of the offending command bytes (R49). -/
def minByte (a b : Option Nat) : Option Nat :=
  match a, b with
  | some x, some y => some (min x y)
  | some x, none => some x
  | none, y => y

/-- An offending byte when a test holds. -/
def badIf (c : Bool) (b : Nat) : Option Nat := if c then some b else none

/-- Milliseconds since the first boot port's t0; 0 before it is known (Table 02-5, R50). -/
def Dev.uptimeMs (d : Dev) : Nat :=
  match d.boot.t0 with
  | none => 0
  | some t => (d.clk.ns64 - t) / 64000000 % 2 ^ 32

/-- Seconds left in the AWAIT_IMAGE window, rounded up; 0 outside AWAIT_IMAGE. -/
def Dev.awaitS (d : Dev) : Nat :=
  if d.modes.mode = .awaitImage then ceilDiv (d.boot.windowNs64.getD 0) 64000000000 else 0

/-- WDN_MODE.mode as hosts read it: OFF is never reported (R45). -/
def Dev.modeByte (d : Dev) : Nat := if d.modes.mode = .off then 2 else modeCode d.modes.mode

/-- The status packet becomes final: results, detail and mode, then status, then busy falls and done rises (R46). -/
def Dev.kmbEnd (d : Dev) (p : Port) (status : Nat) (detail : Nat := 0) (results : List Byte := []) : Dev :=
  let d := if status = 0 then d else { d with boot := { d.boot with lastStatus := status, lastDetail := detail } }
  let d := d.modBox p (fun b => { b with
    busy := false, status := status, detail := detail % 256, mode := d.modeByte, uptime := d.uptimeMs, await := d.awaitS
    results := results, done := true })
  if (d.box p).doneEn then d.kmbSignal p else d

/-- A ring: the packet is latched and the status byte reads 0xFF while the command executes (R44, R46). -/
def Dev.kmbStart (d : Dev) (p : Port) (op : Nat) (k : KmbPkt) : Dev :=
  d.modBox p (fun b => { b with
    cmd := k.packet op, busy := true, held := none, op := op, status := 0xFF, tag := k.tag, detail := 0, results := [] })

/-! ### Acceptance (R47, Table 02-7) -/

/-- Step 2 and 3 of R47 for a loading opcode; `staged` says what it asks of the staged Folio: `some true` after
BEGIN_IMAGE, `some false` with none staged. -/
def Dev.judgeLoading (d : Dev) (p : Port) (staged : Option Bool) : Option (Nat × Nat) :=
  if d.modes.mode = .halted then some (0x60, d.modes.haltCause)
  else if d.modes.mode ≠ .awaitImage ∨ d.boot.port ≠ some p then some (0x04, 0)
  else
    match staged with
    | some b => if d.boot.folio.isSome = b then none else some (0x04, 0)
    | none => none

/-- Step 3 of R47 for GET_COLOPHON and GET_LEDGER: any mode but DORMANT and HOLDUP. -/
def Dev.judgeRead (d : Dev) (main : Bool) : Option (Nat × Nat) :=
  if d.modes.mode = .dormant ∨ d.modes.mode = .holdup ∨ (main = true ∧ d.evl.mainOn = false) then some (0x04, 0) else none

/-- BAD_PARAM with the first offending byte as detail. -/
def badParam (b : Option Nat) : Option (Nat × Nat) := b.map (fun x => (0x03, x))

/-- The status and detail with which a host-to-device read fails (R49). -/
def dmaStatus : DmaFault → Nat
  | .timeout => 2
  | .completerAbort => 3
  | .unsupported => 3
  | .poisoned => 4
  | .ideFailed => 4

/-- A mailbox command that ends with DMA_ERROR; in AWAIT_IMAGE it is a boot failure (Table 02-17). -/
def Dev.kmbDmaError (d : Dev) (p : Port) (detail : Nat) : Dev :=
  let d := if d.modes.mode = .awaitImage then d.bootFail 5 detail else d
  d.kmbEnd p 5 detail

/-- Staging data from host memory: its bytes, or the detail of DMA_ERROR. A function whose Bus Master Enable is clear
transfers nothing (R474). -/
def Dev.kmbFetch (d : Dev) (p : Port) (dma : DmaIn) : List Byte ⊕ Nat :=
  if !(d.fnst (.pf p)).bme then .inr 1
  else match dma with
    | .ok b => .inl b
    | .fault f => .inr (dmaStatus f)

/-- A command's execution: the ring is discarded while the mailbox is busy (EV_WDN_KMB_RING_BUSY); before the mailbox
is ready it is held; otherwise the packet is latched and the command runs (R46). -/
def State.kmbRing (s : State) (p : Port) (op : Nat) (k : KmbPkt) (i : Instr) (run : State → State) : State :=
  let d := s.dev
  if d.modes.mode = .off then s
  else if (d.box p).busy then s.onDev (fun d => d.ev evWdnKmbRingBusy p.num [])
  else
    let s := s.onDev (fun d => d.kmbStart p op k)
    if d.boot.mboxReady || d.modes.mode = .dormant then run s
    else s.onDev (fun d => d.modBox p (fun b => { b with held := some i }))

/-- Ending with a status when a judgement fails, else running on. -/
def Dev.kmbJudge (d : Dev) (p : Port) (j : Option (Nat × Nat)) (go : Dev → Dev) : Dev :=
  match j with
  | some (st, dt) => d.kmbEnd p st dt
  | none => go d

/-! ### The AWAIT_IMAGE window (R40) -/

/-- 600 s in 1/64 ns. -/
def windowFull : Nat := 600 * 64000000000

/-- Discarding the staged Folio. -/
def Dev.dropFolio (d : Dev) : Dev := { d with boot := { d.boot with folio := none } }

/-- Entering AWAIT_IMAGE with a new window (R40, R41). -/
def Dev.enterAwait (d : Dev) : Dev :=
  { d with boot := { d.boot with windowNs64 := some windowFull } }.enterMode .awaitImage

/-! ### The opcodes (R48, R479) -/

/-- HELLO's results. -/
def helloResults (fuse : Fuses) : List Byte :=
  leBytes 2 0x0100 ++ leBytes 4 Config.romVersion ++ leBytes 16 Config.serial.toNat ++ leBytes 1 fuse.slotByte
  ++ leBytes 1 (bit fuse.set0Revoked) ++ leBytes 4 0x400000 ++ leBytes 4 fuse.minSvn ++ leBytes 4 0x2005000

/-- HELLO (R47, R48, R479): identity and limits; the nonce is recorded in AWAIT_IMAGE on the boot port; in DORMANT a new
window starts. -/
def runHello (p : Port) (k : KmbPkt) (s : State) : State :=
  s.onDev (fun d =>
    let bad := minByte (firstNonZero k 42) (badIf (k.num 41 1 ≠ 1) 41)
    let j := if d.modes.mode = .holdup then some (0x04, 0) else badParam bad
    d.kmbJudge p j (fun d =>
      let d := if d.modes.mode = .awaitImage ∧ d.boot.port = some p then
          { d with boot := { d.boot with nonce := some (BitVec.ofNat 256 (k.num 8 32)) } }
        else if d.modes.mode = .dormant then (d.powerOn 1).enterAwait
        else d
      d.kmbEnd p 0 0 (helloResults s.fuse)))

/-- BEGIN_IMAGE (R50). -/
def runBeginImage (p : Port) (k : KmbPkt) (s : State) : State :=
  s.onDev (fun d =>
    let size := k.num 8 4
    let bad := minByte (firstNonZero k 12) (badIf (decide (size % 4096 ≠ 0) || decide (size < 24576)) 8)
    d.kmbJudge p ((d.judgeLoading p none).or (badParam bad)) (fun d =>
      if 33574912 < size then d.kmbEnd p 6
      else { d with boot := { d.boot with folio := some ⟨size, [], []⟩, folioOk := false } }.kmbEnd p 0))

/-- Zeroes a staged chunk may not hold beyond what the DMA brought. -/
def chunkBytes (b : List Byte) (n : Nat) : List Byte := slice b 0 n

/-- WRITE_CHUNK (R48, R50). -/
def runWriteChunk (p : Port) (k : KmbPkt) (dma : DmaIn) (s : State) : State :=
  s.onDev (fun d =>
    let off := k.num 16 4
    let len := k.num 20 4
    let bad := minByte (firstNonZero k 24) (badIf (k.num 8 8 % 4 ≠ 0) 8)
    d.kmbJudge p ((d.judgeLoading p (some true)).or (badParam bad)) (fun d =>
      match d.boot.folio with
      | none => d.kmbEnd p 4
      | some f =>
        if 0x400000 < len then d.kmbEnd p 6
        else if off % 4096 ≠ 0 ∨ len % 4096 ≠ 0 ∨ len = 0 ∨ f.size < off + len then d.kmbEnd p 7
        else
          match d.kmbFetch p dma with
          | .inr dt => d.kmbDmaError p dt
          | .inl b =>
            let f := f.write off (chunkBytes b len)
            { d with boot := { d.boot with folio := some f } }.kmbEnd p 0 0 (leBytes 4 (f.pages.length * pageSize))))

/-- END_IMAGE (R55): with an accepted Imposition and a fully staged Folio VERIFY is entered, the window is suspended and
the mailbox stays busy until the outcome. -/
def runEndImage (p : Port) (k : KmbPkt) (s : State) : State :=
  s.onDev (fun d =>
    d.kmbJudge p ((d.judgeLoading p (some true)).or (badParam (firstNonZero k 8))) (fun d =>
      if d.boot.impo.isNone then d.kmbEnd p 9
      else match d.boot.folio with
        | none => d.kmbEnd p 4
        | some f =>
          if !f.complete then d.kmbEnd p 8
          else { d with boot := { d.boot with verifying := some p } }.enterMode .verify))

/-- PUT_IMPOSITION (R477): on acceptance the digest is measured and the enabled slots are powered to match (R286). The
slots are powered through `power`, which sets every slot's GPWREN from the slot map. -/
def runPutImposition (power : Dev → Dev) (p : Port) (k : KmbPkt) (dma : DmaIn) (s : State) : State :=
  s.onDev (fun d =>
    let len := k.num 16 4
    let bad := minByte (minByte (firstNonZero k 20) (badIf (k.num 8 8 % 4 ≠ 0) 8))
      (badIf (decide (len < 128) || decide (len % 4 ≠ 0)) 16)
    d.kmbJudge p ((d.judgeLoading p none).or (badParam bad)) (fun d =>
      if 262144 < len then d.kmbEnd p 6
      else
        match d.kmbFetch p dma with
        | .inr dt => d.kmbDmaError p dt
        | .inl b =>
          match checkImposition s.fuse (slice b 0 len) with
          | (none, st, dt) => d.kmbEnd p st dt
          | (some i, _, _) =>
            (power { d with boot := { d.boot with impo := some i, mImpo := some i.digest } }).kmbEnd p 0 0
              (digestBytes i.digest)))

/-- GET_STATUS's results (R48); in DORMANT only the last failure (R41). -/
def statusResults (d : Dev) (chans links : Nat) : List Byte :=
  let b := d.boot
  let full := match b.folio with
    | some f => f.complete
    | none => false
  if d.modes.mode = .dormant then leBytes 1 b.lastStatus ++ leBytes 1 b.lastDetail
  else
    leBytes 1 b.lastStatus ++ leBytes 1 b.lastDetail
    ++ leBytes 1 (bit full + 2 * bit b.impo.isSome + 4 * bit b.folioOk + 8 * bit b.dramDone + 16 * bit b.linksDone
        + 32 * bit b.mapDone + 64 * bit d.bcol.signed)
    ++ leBytes 1 chans ++ leBytes 1 links ++ leBytes 1 0 ++ leBytes 2 b.mapPm ++ leBytes 8 b.seqNum

/-- GET_STATUS (R41, R48). -/
def runGetStatus (chans links : Dev → Nat) (p : Port) (k : KmbPkt) (s : State) : State :=
  s.onDev (fun d =>
    d.kmbJudge p (badParam (firstNonZero k 8)) (fun d => d.kmbEnd p 0 0 (statusResults d (chans d) (links d))))

/-- GET_COLOPHON (R48, R479). -/
def runGetColophon (p : Port) (k : KmbPkt) (s : State) : State :=
  s.onDev (fun d =>
    let off := k.num 16 4
    let len := k.num 20 4
    let total := d.bcol.length
    let bad := minByte (minByte (firstNonZero k 24) (badIf (k.num 8 8 % 4 ≠ 0) 8))
      (minByte (badIf (d.bcol.signed && decide (total ≤ off)) 16) (badIf (decide (len = 0) || decide (65536 < len)) 20))
    d.kmbJudge p ((d.judgeRead false).or (badParam bad)) (fun d =>
      if !d.bcol.signed then d.kmbEnd p 0x50
      else if !(d.fnst (.pf p)).bme then d.kmbEnd p 5 1
      else
        let b := (d.bcolBytes.drop off).take len
        (d.emit (.kmbWrite p (k.num 8 8) b)).kmbEnd p 0 0 (leBytes 4 total ++ leBytes 4 b.length ++ leBytes 4 d.bcol.gen)))

/-- The whole records that fit in a length. -/
def wholeRecords : List LRec → Nat → List LRec
  | [], _ => []
  | r :: l, n => if r.len ≤ n then r :: wholeRecords l (n - r.len) else []

/-- The records a GET_LEDGER reads: source 0 the main ledger, 1 the AON early buffer. -/
def Evl.sourceRecs (e : Evl) (src : Nat) : List LRec := if src = 0 then e.main else e.early

/-- GET_LEDGER (R48, R479): whole records from the first at or above the number named, up to the head latched. -/
def runGetLedger (p : Port) (k : KmbPkt) (s : State) : State :=
  s.onDev (fun d =>
    let len := k.num 16 4
    let first := k.num 20 4
    let src := k.num 24 1
    let bad := minByte (minByte (firstNonZero k 25) (badIf (k.num 8 8 % 4 ≠ 0) 8))
      (minByte (badIf (decide (len = 0) || decide (len % 4 ≠ 0) || decide (65536 < len)) 16) (badIf (decide (1 < src)) 24))
    d.kmbJudge p ((d.judgeRead (decide (src = 0))).or (badParam bad)) (fun d =>
      let head := d.evl.next
      let d := if src = 0 then d.modCtx 0 (fun c => { c with latched := true, head := head, volume := d.evl.volume, stale := false }) else d
      let rs := wholeRecords ((d.evl.sourceRecs src).filter (fun r => decide (first ≤ r.seq) && decide (r.seq < head))) len
      let b := (rs.map LRec.bytes).flatten
      let last := match rs.getLast? with
        | some r => r.seq
        | none => (first + 2 ^ 32 - 1) % 2 ^ 32
      if !(d.fnst (.pf p)).bme && !rs.isEmpty then d.kmbEnd p 5 1
      else
        let d := if rs.isEmpty then d else d.emit (.kmbWrite p (k.num 8 8) b)
        d.kmbEnd p 0 0 (leBytes 4 b.length ++ leBytes 4 last ++ leBytes 4 head)))

/-- ENROLL_OWNER (R57): no fuse is blown before every check of Table 02-18 has passed. -/
def runEnroll (enrol : Bool) (p : Port) (k : KmbPkt) (dma : DmaIn) (s : State) : State :=
  let d := s.dev
  let slot := k.num 21 1
  let bad := minByte (minByte (firstNonZero k 22) (badIf (k.num 8 8 % 4 ≠ 0) 8))
    (minByte (badIf (k.num 16 4 ≠ 5760) 16) (minByte (badIf (decide (1 < k.num 20 1)) 20) (badIf (decide (3 < slot)) 21)))
  match (d.judgeLoading p (some false)).or (badParam bad) with
  | some (st, dt) => s.onDev (fun d => d.kmbEnd p st dt)
  | none =>
    match d.kmbFetch p dma with
    | .inr dt => s.onDev (fun d => d.kmbDmaError p dt)
    | .inl b =>
      match enrolCheck s.fuse (slice b 0 5760) enrol slot with
      | some (st, dt) => s.onDev (fun d => d.kmbEnd p st dt)
      | none =>
        let s := { s with fuse := s.fuse.enrolled b enrol slot }
        s.onDev (fun d => (d.ev (if enrol then evWdnOwnerEnrolled else evWdnOwnerRevoked) 0 []).kmbEnd p 0 0
          (leBytes 1 s.fuse.slotByte))

/-- ABORT_LOAD (R50): the staged Folio and Imposition go; the command ends with OK and GET_STATUS reports ABORTED.
`power` brings the slots in line. -/
def runAbortLoad (power : Dev → Dev) (p : Port) (k : KmbPkt) (s : State) : State :=
  s.onDev (fun d =>
    d.kmbJudge p ((d.judgeLoading p none).or (badParam (firstNonZero k 8))) (fun d =>
      let d := power { d.dropFolio with boot := { d.dropFolio.boot with impo := none, lastStatus := 0x52, lastDetail := 0 } }
      d.kmbEnd p 0))

/-- BAD_OPCODE (R47 step 1). -/
def runBadOpcode (p : Port) (s : State) : State := s.onDev (fun d => d.kmbEnd p 2)

end Sys2Proof.Machine
end

