-- ==== Sys2Proof/Machine/Thermal.lean ====
section
/-! DEFINITION. Temperature sensing, die weirs, rail steps, the capacitor test, the dirty ceiling and the Hold-Up sequence
(R78, R381 to R397, R465). -/

namespace Sys2Proof.Machine

/-! ### The Hold-Up sequence (R395, Table 14-7) -/

/-- What HOLDUP does to a command: before its commit point it ends without effect, after it it runs on (step 1). -/
def Dev.holdupSlot (d : Dev) (cs : Nat) : Dev :=
  match d.hg.slots.get? cs with
  | none => d
  | some s =>
    match s.st with
    | .fetched | .paced | .executing => ((d.dropWork cs).discardCpl s).freeSlot cs
    | _ => d

/-- Step 2: waiting requests of ranks 3 to 7 are cancelled, with the reads queued for them. -/
def Dev.cancelWaiting (d : Dev) : Dev :=
  let d := { d with slu := { d.slu with waiting := d.slu.waiting.filter (fun w => decide (w.req.rank ≤ 2)) } }
  { d with rp := { d.rp with dies := d.rp.dies.map (fun (x : Nat × Die) =>
    (x.1, { x.2 with reads := x.2.reads.filter (fun r => r.rid.isSome || r.tag.isSome) })) } }

/-- Step 2 on a die: an erase in flight is ended by RESET_DIE, a suspended program resumes. -/
def Dev.holdupDie (d : Dev) (s k : Nat) : Dev :=
  let x := d.die s k
  if x.hold.isNone then d
  else if x.kind = .erase then (d.bareOp .resetDie s k x.hold).1
  else if x.susp then d.resumeDie s k
  else d

/-- A capacitor test that runs is ended, and the commands that wait for it complete. -/
def Dev.endTest (d : Dev) (result : Nat) : Dev :=
  let l := d.hu.waiters
  let d := { d with hu := { d.hu with busy := false, result := result, waiters := [] } }
  l.foldl (fun (d : Dev) (cs : Nat) => d.complete cs cqeOk) d

/-- Entering HOLDUP: steps 1, 2 and 4 of the sequence, and the ledger's snapshot; `thermal` says that R388 started it. -/
def Dev.enterHoldup (d : Dev) (thermal : Bool) : Dev :=
  let d := { d with hu := { d.hu with thermal := thermal, sealed := false, stuck := false } }
  let d := { d with modes := { d.modes with leaving := false } }
  let d := (d.setField aHgCtrl 1 1 1).enterMode .holdup
  let d := { d with hg := { d.hg with fetches := [] } }
  let d := { d with fns := d.fns.map (fun (x : Nat × FnSt) => (x.1, { x.2 with aers := [] })) }
  let d : Dev := (d.hg.slots.map (·.1)).foldl (fun (d : Dev) (cs : Nat) => d.holdupSlot cs) d
  let d := d.cancelWaiting
  let d : Dev := (d.rp.dies.map (·.1)).foldl (fun (d : Dev) (k : Nat) => d.holdupDie (k / 64) (k % 64)) d
  let d : Dev := (d.tc.furrows.map (·.1)).foldl (fun (d : Dev) (f : Nat) => d.closeRow f) d.packWaiting
  (d.startPersist .holdup).sluPump

/-- PWRFAIL_N asserted (R75, R392, R395): it ends a capacitor test; in a serving mode or IDLE the Hold-Up sequence starts;
in ASSEMBLE the device halts without a seal; before that it is only recorded. -/
def pwrfailAssert (s : State) : State :=
  let d := s.dev
  if d.modes.mode = .off ∨ d.pins.pwrfail = true then s
  else
    let d := { d with pins := { d.pins with pwrfail := true } }
    let d := if d.hu.busy then (d.endTest 5).ev evWdnHuTest 0 [.num 4 d.hu.cUf, .num 2 d.hu.esr, .num 2 d.tc.ceiling] else d
    match d.modes.mode with
    | .dormant | .awaitImage | .verify => { s with dev := d.ev evWdnPwrfailEarly 0 [] }
    | .assemble => { s with dev := d.halt s.fuse 4 }
    | .serve | .serveLimited | .serveDegraded | .readOnly | .idle => { s with dev := d.enterHoldup false }
    | .off | .holdup | .halted => { s with dev := d }

def execPwrfailNAssert (s : State) : Host.Outcome State Fault Refusal := .next (pwrfailAssert s)

/-- PWRFAIL_N deasserted: a sequence that runs still runs to HALTED (R75). -/
def pwrfailDeassert (d : Dev) : Dev := if d.modes.mode = .off then d else { d with pins := { d.pins with pwrfail := false } }

def execPwrfailNDeassert (s : State) : Host.Outcome State Fault Refusal := .next (s.onDev pwrfailDeassert)

/-- The end of the Hold-Up sequence: THERMTRIP_N where R388 started it or the shutdown weir is crossed, and HALTED. -/
def Dev.holdupEnd (d : Dev) (fuse : Fuses) (cause : Nat) : Dev :=
  let d := if d.hu.thermal || d.thm.shutdown.crossed then d.thermtrip else d
  d.halt fuse cause

/-- Whether a step of the sequence cannot finish: it has been found so, or dirty data lies on a Quire that is broken. -/
def Dev.holdupStuck (d : Dev) : Bool :=
  d.hu.stuck || d.tc.furrows.any (fun x => x.2.pack.any (fun u => !u.done) && !d.placeable x.2.quire)

/-- HOLDUP_SEAL_WRITTEN (R395, R396): once nothing is dirty the seal stands and the cause is 0x03, or 0x02 under R388; where a
step cannot finish the seal is not written and the cause is 0x04. -/
def sealWritten (s : State) : State :=
  let d := s.dev
  if d.modes.mode ≠ .holdup then s
  else if d.holdupStuck then { s with dev := d.holdupEnd s.fuse 4 }
  else if d.dirtyBytes ≠ 0 then s
  else
    let d := { d with hu := { d.hu with sealed := true } }
    { s with dev := d.holdupEnd s.fuse (if d.hu.thermal then 2 else 3) }

def execHoldupSealWritten (s : State) : Host.Outcome State Fault Refusal := .next (sealWritten s)

/-- CORE_RAIL_OUT_OF_LIMITS (R465): cause 0x0A, or 0x04 while PWRFAIL_N is asserted and the sequence runs. -/
def coreRail (s : State) : State :=
  let d := s.dev
  if d.modes.mode = .off ∨ d.modes.mode = .halted then s
  else if d.modes.mode = .holdup then { s with dev := d.holdupEnd s.fuse 4 }
  else if d.pins.pwrfail then s
  else { s with dev := d.halt s.fuse 0x0A }

def execCoreRailOutOfLimits (s : State) : Host.Outcome State Fault Refusal := .next (coreRail s)

/-! ### Sensors, regions and the junction (R382) -/

/-- A sensor. -/
def Dev.sensor (d : Dev) (i : Nat) : Sensor := d.thm.sensors.get .reset i

/-- The sensors orthogonally next to one. -/
def nextTo (i : Nat) : List Nat :=
  (List.range 48).filter (fun j =>
    (decide (j / 8 = i / 8) && (decide (j = i + 1) || decide (i = j + 1)))
    || (decide (j % 8 = i % 8) && (decide (j = i + 8) || decide (i = j + 8))))

/-- Temperatures in rising order. -/
def sortInt (l : List Int) : List Int :=
  l.foldl (fun (acc : List Int) (x : Int) => acc.filter (fun y => decide (y ≤ x)) ++ x :: acc.filter (fun y => decide (x < y))) []

/-- Twice the median of some temperatures; none of none. -/
def median2 (l : List Int) : Option Int :=
  let s := sortInt l
  let n := s.length
  if n = 0 then none
  else if n % 2 = 1 then (s[n / 2]?).map (fun x => 2 * x)
  else match s[n / 2 - 1]?, s[n / 2]? with
    | some a, some b => some (a + b)
    | _, _ => none

/-- The events of one sensor's sample: excluded, restored. -/
inductive SensorChange where
  | none | excluded | restored
deriving DecidableEq, Repr

/-- One sample of a sensor against twice its neighbours' median. -/
def Sensor.sample (x : Sensor) (t : Int) (med : Option Int) : Sensor × SensorChange :=
  let hot := if 480 ≤ t then x.hot + 1 else 0
  let x := { x with temp := t, hot := hot }
  let range := decide (t < -160) || decide (600 < t)
  match med with
  | none => ({ x with off := 0, good := 0 }, .none)
  | some m =>
    let gap := (2 * t - m).natAbs
    if x.excluded then
      if !range && decide (gap ≤ 32) then
        if x.good + 1 < 64 then ({ x with good := x.good + 1 }, .none)
        else ({ x with excluded := false, off := 0, good := 0 }, .restored)
      else ({ x with good := 0 }, .none)
    else if range || decide (64 < gap) then
      if x.off + 1 < 3 then ({ x with off := x.off + 1 }, .none)
      else ({ x with excluded := true, off := 0, good := 0 }, .excluded)
    else ({ x with off := 0 }, .none)

/-- The highest of some temperatures. -/
def maxInt : List Int → Option Int
  | [] => none
  | x :: l => some (l.foldl max x)

/-- The temperatures of the sensors that are not excluded and that a test picks. -/
def Dev.sensing (d : Dev) (f : Nat → Bool) : List Int :=
  ((List.range 48).filter (fun i => f i && !(d.sensor i).excluded)).map (fun i => (d.sensor i).temp)

/-- A region's temperature: its highest sensor, or the highest of all remaining plus 5 °C. -/
def Dev.region (d : Dev) (r : Nat) : Int :=
  match maxInt (d.sensing (fun i => decide (4 * (i / 8 / 2) + i % 8 / 2 = r))) with
  | some t => t
  | none => ((maxInt (d.sensing (fun _ => true))).map (fun t => t + 20)).getD d.thm.top

/-- The junction temperature: the highest region. -/
def Dev.junction (d : Dev) : Int := (maxInt ((List.range 12).map d.region)).getD d.thm.top

/-- The first region at the junction temperature. -/
def Dev.hotRegion (d : Dev) : Nat := ((List.range 12).find? (fun r => decide (d.region r = d.junction))).getD 0

/-! ### Feature 0x04 (R110, R115, R382) -/

/-- Quarter degrees as whole kelvin, rounded up; `n` times a temperature of `n` samples. -/
def kelvin (sum : Int) (n : Nat) : Nat := (-((-(5 * sum + 5463 * n)) / (20 * n : Int))).toNat

/-- The hottest module temperature in use. -/
def Dev.hottestModule (d : Dev) : Option Int := maxInt ((d.gl.slots.filter (fun x => x.2.admitted)).map (fun x => d.moduleTemp x.1))

/-- What Feature 0x04 compares: 0 the junction, 1 the mean of the sensors, 2 the hottest module; 0 where there is none. -/
def Dev.kelvinOf (d : Dev) (sel : Nat) : Nat :=
  if sel = 0 then kelvin d.thm.top 1
  else if sel = 1 then
    let l := d.sensing (fun _ => true)
    if l.isEmpty then 0 else kelvin l.sum l.length
  else match d.hottestModule with
    | some t => kelvin t 1
    | none => 0

/-- Whether some temperature threshold is crossed; a sensor without a value crosses none. -/
def Dev.tempOver (d : Dev) : Bool :=
  [0, 1, 2].any (fun k => decide (d.kelvinOf k ≠ 0)
    && (decide (d.tempLimit k 0 ≤ d.kelvinOf k) || decide (d.kelvinOf k ≤ d.tempLimit k 1)))

/-- The Temperature event when a threshold comes to be crossed. -/
def Dev.tempEvent (d : Dev) (was : Bool) : Dev := if d.tempOver && !was then d.aenAll aeTemperature (some 1) else d

/-! ### The promise (R400 to R402) -/

/-- The conditions of Table 15-1: operating range, Quires, spare, DRAM margin, hold-up bank. -/
def Dev.promiseBits (d : Dev) : BitVec 5 :=
  let modules := d.gl.slots.filter (fun x => x.2.admitted)
  let inRange := fun (s : Nat) => match d.colo s with
    | some c => decide (4 * c.temp 0 ≤ d.moduleTemp s) && decide (d.moduleTemp s ≤ 4 * c.temp 1)
    | none => true
  let range := !d.thm.coldLimit.crossed && !d.thm.critical.crossed && !d.thm.shutdown.crossed && decide (d.thm.top ≤ 420)
    && modules.all (fun x => inRange x.1)
  let quires := d.quires.all (fun q => decide (d.quireState q.1 = 1))
  let spare := !d.cond 7
  let dram := d.dmc.chans.any (fun c => decide (c.2.st = .inService) || decide (c.2.st = .selfRefresh)) && d.dmc.devFailed.isEmpty
  let bank := d.hu.ran && d.hu.passed
  BitVec.ofNat 5 (maskOf 5 (fun i =>
    if i = 0 then range else if i = 1 then quires else if i = 2 then spare else if i = 3 then dram else bank))

/-- Evaluating the conditions; a change is recorded with the old and new field values. -/
def Dev.promiseEval (d : Dev) : Dev :=
  let p := d.promiseBits
  if p = d.modes.promise then d
  else
    let old := d.modes.promise
    { d with modes := { d.modes with promise := p } }.ev evWdnPromiseChange 0 [.num 1 old.toNat, .num 1 p.toNat]

/-! ### Die weirs and throttling (R383 to R385, R388, R389) -/

/-- Setting k_d: recorded with the region when it changes; thermal_limit follows k_d > 0. -/
def Dev.setKd (d : Dev) (k : Nat) : Dev :=
  if k = d.slu.kD then d
  else
    let d := { d with slu := { d.slu with kD := k } }
    ((d.ev evThmStep 0 [.num 1 k, .num 1 d.hotRegion]).setCond 0 (decide (0 < k))).sluPump

/-- What the crossings of a sample do, `o` being the weirs before it. -/
def Dev.weirActs (d : Dev) (o : Thm) : Dev :=
  let n := d.thm
  let newly := fun (a b : Weir) => b.crossed && !a.crossed
  let d := if newly o.hotWarn n.hotWarn then d.ev evThmHotWarn 0 [] else d
  let d := if newly o.coldWarn n.coldWarn then d.ev evThmColdWarn 0 [] else d
  let d := if newly o.coldLimit n.coldLimit then (d.ev evThmColdLimit 0 []).aenAll aeTemperature (some 1) else d
  let d := if newly o.throttle n.throttle then d.setKd (min 16 (d.slu.kD + 1)) else d
  if newly o.critical n.critical then d.setKd 16
  else if newly n.critical o.critical then d.sluPump
  else d

/-- The samples of all sensors, against neighbours as they stood before them. -/
def Dev.takeSamples (d : Dev) (temps : List Int) : Dev :=
  let med := fun (i : Nat) => median2 ((nextTo i).filter (fun j => !(d.sensor j).excluded) |>.filterMap (fun j => temps[j]?))
  (List.range 48).foldl (fun (e : Dev) (i : Nat) =>
    let (x, ch) := (d.sensor i).sample ((temps[i]?).getD 0) (med i)
    let e := { e with thm := { e.thm with sensors := e.thm.sensors.put .reset i x } }
    match ch with
    | .none => e
    | .excluded => e.ev evThmSensorExcluded 0 [.num 1 i]
    | .restored => e.ev evThmSensorRestored 0 [.num 1 i]) d

/-- The weirs after a sample at the junction temperature. -/
def Thm.weirs (x : Thm) (t : Int) : Thm :=
  { x with
    top := t, topMax := max x.topMax t
    hotWarn := x.hotWarn.rise 380 t, throttle := x.throttle.rise 400 t, critical := x.critical.rise 440 t
    shutdown := x.shutdown.rise 460 t, coldWarn := x.coldWarn.fall 0 t, coldLimit := x.coldLimit.fall (-40) t }

/-- Modes before the entry mode, in which no write data is held. -/
def earlyMode (m : Mode) : Bool := m = .dormant || m = .awaitImage || m = .verify || m = .assemble

/-- The 120 °C trip (R389): THERMTRIP_N at once in every mode but OFF. -/
def Dev.trip120 (d : Dev) (fuse : Fuses) : Dev :=
  let cause := if earlyMode d.modes.mode then 9
    else if d.modes.mode = .holdup ∧ d.hu.sealed then (if d.hu.thermal then 2 else 3) else 4
  d.thermtrip.halt fuse cause

/-- Reaching 115 °C (R388): the Hold-Up sequence from a serving mode or IDLE, a trip before; in HOLDUP the sequence's end
asserts THERMTRIP_N. -/
def Dev.shutdownWeir (d : Dev) (fuse : Fuses) : Dev :=
  if hostMode d.modes.mode then d.enterHoldup true
  else if earlyMode d.modes.mode then d.thermtrip.halt fuse 9
  else d

/-- TEMP_SAMPLE (R382 to R389, R402): one conversion of the 48 sensors, in 0.25 °C. -/
def tempSample (temps : List Int) (s : State) : State :=
  let d := s.dev
  if d.modes.mode = .off ∨ temps.length ≠ 48 then s
  else
    let o := d.thm
    let over' := d.tempOver
    let d := d.takeSamples temps
    let d := { d with thm := d.thm.weirs d.junction }
    let d := ((d.weirActs o).tempEvent over')
    let hot := (List.range 48).any (fun i => !(d.sensor i).excluded && decide (2 ≤ (d.sensor i).hot))
    let d := if hot then d.trip120 s.fuse
      else if d.thm.shutdown.crossed && !o.shutdown.crossed then d.shutdownWeir s.fuse
      else d
    { s with dev := d.promiseEval }

def execTempSample (temps : List Int) (s : State) : Host.Outcome State Fault Refusal := .next (tempSample temps s)

/-- DIE_THROTTLE_STEP_TIMER (R385). -/
def dieThrottleStep (d : Dev) : Dev :=
  if d.modes.mode = .off then d
  else d.setKd (if d.thm.throttle.crossed then min 16 (d.slu.kD + 1) else d.slu.kD - 1)

def execDieThrottleStepTimer (s : State) : Host.Outcome State Fault Refusal := .next (s.onDev dieThrottleStep)

/-- MONITOR_POLL (R306): the poll, the threshold event and the promise. -/
def monitorRow (slot : Nat) (r : Option MonRegion) (d : Dev) : Dev := ((monitorPoll slot r d).tempEvent d.tempOver).promiseEval

def execMonitorPoll (slot : Nat) (r : Option MonRegion) (s : State) : Host.Outcome State Fault Refusal :=
  .next (s.onDev (monitorRow slot r))

/-! ### Rail steps (R77, R381) -/

/-- The maximum power of a power state in mW (Table 03-4). -/
def maxPower (ps : Nat) : Nat := if ps = 0 then 120000 else if ps = 1 then 80000 else if ps = 2 then 50000 else if ps = 3 then 12000 else 3000

/-- RAIL_SAMPLE: package power is VDD_CORE × its current + the other rails' power, from mV, mA and mW. -/
def railSample (vcore icore iaux : Nat) (d : Dev) : Dev :=
  if d.modes.mode = .off then d
  else { d with slu := { d.slu with power := vcore * icore / 1000 + iaux } }.promiseEval

def execRailSample (vcore icore iaux : Nat) (s : State) : Host.Outcome State Fault Refusal :=
  .next (s.onDev (railSample vcore icore iaux))

/-- RAIL_STEP_TIMER: a step is added above the maximum of the state in force, and restored at or below 95 % of it. -/
def railStep (d : Dev) : Dev :=
  let m := maxPower d.modes.hostPs
  if d.modes.mode = .off then d
  else if m < d.slu.power then
    if d.slu.kR < 16 then ({ d with slu := { d.slu with kR := d.slu.kR + 1 } }).setCond 2 true else d
  else if 100 * d.slu.power ≤ 95 * m ∧ 0 < d.slu.kR then { d with slu := { d.slu with kR := d.slu.kR - 1 } }.sluPump
  else d

def execRailStepTimer (s : State) : Host.Outcome State Fault Refusal := .next (s.onDev railStep)

/-- RAIL_LIMIT_CLEAR_TIMER: rail_limit clears once the steps have stayed at 0. -/
def railClear (d : Dev) : Dev := if d.slu.kR = 0 then d.setCond 2 false else d

def execRailLimitClearTimer (s : State) : Host.Outcome State Fault Refusal := .next (s.onDev railClear)

/-- NO_PLACEMENT_CLEAR_TIMER: no_placement clears once some Quire can place a write. -/
def placementClear (d : Dev) : Dev := if d.quires.any (fun q => d.placeable q.1) then d.setCond 6 false else d

def execNoPlacementClearTimer (s : State) : Host.Outcome State Fault Refusal := .next (s.onDev placementClear)

/-! ### The capacitor test and the dirty ceiling (R391 to R393) -/

/-- A field of the hold-up bank section. -/
def Dev.hbank (d : Dev) (o n : Nat) : Nat := fieldAt (d.section 5) o n

/-- 10^12 × ln(a / b) for a > b: twice the artanh series of (a − b)/(a + b), to its eleventh term. -/
def lnScaled (a b : Nat) : Nat :=
  ((List.range 11).map (fun k => 2 * 10 ^ 12 * (a - b) ^ (2 * k + 1) / ((2 * k + 1) * (a + b) ^ (2 * k + 1)))).sum

/-- ESR in mΩ and C in µF of a test that measured V_0 and V_a in mV and a number of AON ticks. -/
def Dev.huMeasure (d : Dev) (v0 va ticks : Nat) : Nat × Nat :=
  let r := d.hbank 16 4
  let esr := (v0 - va) * r / max 1 va
  let l := lnScaled va (va - d.hbank 12 2)
  (esr, ticks * 10 ^ 21 / (32768 * (r + esr) * max 1 l))

/-- The present Gatherings' colophons. -/
def Dev.presentColos (d : Dev) : List Colo := (d.gl.slots.filter (fun x => x.2.admitted)).filterMap (fun x => d.colo x.1)

/-- The ceiling of R393 in MiB for a measured C in µF. -/
def Dev.ceilingFor (d : Dev) (c : Nat) : Nat :=
  let cs := d.presentColos
  let ws := ((d.quires.map (fun q => q.2.presentWidth)).filter (fun w => decide (2 ≤ w)))
  match cs, ws with
  | x :: _, w :: _ =>
    let vf := d.hbank 8 2 - d.hbank 12 2
    let vm := d.hbank 10 2
    let e := c * (vf ^ 2 - vm ^ 2) * d.hbank 24 2 * (1000 - d.hbank 26 2) / (2 * 10 ^ 6)
    let most := fun (f : Colo → Nat) => (cs.map f).foldl max 0
    let slc := most (fun c => c.tMax 3)
    let fix := 2000 + most (fun c => c.tMax 2) + 2 * slc
    let emerg := d.pwWord 16
    let n := min (emerg / max 1 (most (fun c => c.charge 3))) ((cs.map Colo.dies).sum)
    let ns := (cs.map Colo.nslc).foldl min x.nslc
    let wm := ws.foldl min w
    -- bytes in `t` ns at R_f
    let bytes := fun (t : Nat) => t * (n * ns * 16384 * (wm - 1)) / (wm * max 1 slc * 1000)
    let t1 := 40000000 - 1000 * fix
    let t2 := e / max 1 (d.hbank 20 4 + emerg) - 1000 * fix
    min 4096 (min (bytes t1) (bytes t2) / 1048576)
  | _, _ => 0

/-- A test starts: the 24 h interval restarts (R392). -/
def Dev.startTest (d : Dev) : Dev :=
  { d with hu := { d.hu with busy := true, started := d.now, due := d.now + 86400000000000 } }

/-- The modes in which a capacitor test runs. -/
def Dev.testMode (d : Dev) : Bool := (hostMode d.modes.mode || decide (d.modes.mode = .assemble)) && !d.pins.pwrfail

/-- HU_TEST_DUE (R392): the 24 h interval or the 10 s retry expires. -/
def huTestDue (d : Dev) : Dev := if d.testMode && !d.hu.busy then d.startTest else d

def execHuTestDue (s : State) : Host.Outcome State Fault Refusal := .next (s.onDev huTestDue)

/-- HU_TEST_DONE (R392, R393, R402): a result sets the ceiling; an inconclusive one leaves result and ceiling and is tried
again after 10 s. -/
def huTestDone (o : HuOutcome) (d : Dev) : Dev :=
  if !d.hu.busy then d
  else match o with
    | .measured v0 va ticks =>
      let (esr, c) := d.huMeasure v0 va ticks
      let bad := decide (d.hbank 30 2 < esr)
      let low := decide (1000 * c < d.hbank 28 2 * d.hbank 4 4)
      let res := if bad then 2 else if low then 1 else 0
      let mib := if bad then 0 else d.ceilingFor c
      let d := { d with hu := { d.hu with passed := decide (res = 0), cUf := c, esr := esr, ceil := mib, ran := true, esrBad := bad } }
      (((d.endTest res).setCeiling mib).ev evWdnHuTest 0 [.num 4 c, .num 2 esr, .num 2 mib]).promiseEval
    | .notCharged | .timeout =>
      let r := if o = .notCharged then 3 else 4
      let d := d.endTest r
      { d with hu := { d.hu with due := d.now + 10000000000 } }.ev evWdnHuTest 0
        [.num 4 d.hu.cUf, .num 2 d.hu.esr, .num 2 d.tc.ceiling]

def execHuTestDone (o : HuOutcome) (s : State) : Host.Outcome State Fault Refusal := .next (s.onDev (huTestDone o))

/-- HOLD_UP_TEST_NOW (R113, R392): the command completes when the test that it starts, or the one that runs, has ended. -/
def holdUpTestNow (cs : Nat) (d : Dev) : Dev :=
  d.seqRun cs 0xC4 (fun d s =>
    if (List.range 6).any (fun i => decide (s.dw (10 + i) ≠ 0)) then d.complete cs cqeInvalidField
    else
      let d := if d.hu.busy || !d.testMode then d else d.startTest
      if d.hu.busy then { d with hu := { d.hu with waiters := d.hu.waiters ++ [cs] } }.modSlot cs (fun s => { s with wait := .test })
      else d.complete cs cqeOk)

def execHoldUpTestNow (cs : Nat) (s : State) : Host.Outcome State Fault Refusal := .next (s.onDev (holdUpTestNow cs))

end Sys2Proof.Machine
end

