-- ==== Sys2Proof/Machine/Logs.lean ====
section
/-! DEFINITION. Get Log Page (R111, R112, R115, R116, R148, R257, R309, R398, R447): every page of Table 04-10. Layouts that the
chapters do not give are those of the NVMe specifications (PRESUMED, assumption log). -/

namespace Sys2Proof.Machine

def cqeLogPage : Cqe := Cqe.of 1 0x09 true

/-! ### Standard pages -/

/-- The pages of Table 04-10 that a function has. -/
def logPages (pf : Bool) : List Nat :=
  [0x00, 0x01, 0x02, 0x03, 0x04, 0x05, 0x0C, 0x0E, 0x23, 0x81, 0xBF, 0xC0]
  ++ (if pf then [0x06, 0x09, 0x20, 0x21, 0x22, 0xC1, 0xC2, 0xC3, 0xC4, 0xC5] else [])

/-- Supported Log Pages: Index Offset Supported for 0xC4 alone. -/
def logSupported (pf : Bool) : List Byte :=
  (List.range 256).flatMap (fun i => leBytes 4 (bit ((logPages pf).contains i) + 2 * bit (decide (i = 0xC4) && pf)))

/-- Error Information: 64 entries, newest first, numbered from 1 since the count began. -/
def FnSt.logErrors (s : FnSt) : List Byte :=
  (List.range 64).flatMap (fun i => match s.errs[i]? with
    | some e => layout 64 [num 0 8 (s.errCount - i), num 8 2 e.sqid, num 10 2 e.cid, num 12 2 (2 * (e.sc + 256 * e.sct))]
    | none => List.replicate 64 0)

/-- The critical warnings (Table 04-12). -/
def Dev.critWarn (d : Dev) : Nat :=
  bit (d.cond 7) + 2 * bit (d.cond 0 || d.tempOver || d.thm.coldLimit.crossed || d.thm.critical.crossed)
  + 4 * bit (d.cond 3 || d.cond 5 || !d.tc.lost.isEmpty || d.tc.map.any (fun x => decide (x.2 = .lost)))
  + 8 * bit (d.cond 6) + 16 * bit (d.cond 8)

/-- Available spare in percent: the least of the Quires'. -/
def Dev.spareLeft (d : Dev) : Nat :=
  ((d.quires.filter (fun q => decide (0 < q.2.sparesFirst))).map (fun q => 100 * q.2.sparesLeft / q.2.sparesFirst)).foldl min 100

/-- The spare floor in percent: the highest of the Quires'. -/
def Dev.spareFloorPct (d : Dev) : Nat := (d.quires.map (fun q => q.2.spareFloor / 10)).foldl max 0

/-- SMART / Health Information: what the spec gives a source for; life-time counts are free values. -/
def Dev.logSmart (d : Dev) (f : Fn) : List Byte :=
  let life := fun (i : Nat) => Config.freeBits (d.free + i) 128
  layout 512 [num 0 1 d.critWarn, num 1 2 (d.kelvinOf 0), num 3 1 d.spareLeft, num 4 1 d.spareFloorPct,
    num 5 1 (Config.freeBits d.free 8).toNat, num 6 1 (bitsOf d.critWarn 3 0), num 32 16 (life 1).toNat, num 48 16 (life 2).toNat,
    num 64 16 (life 3).toNat, num 80 16 (life 4).toNat, num 96 16 (life 5).toNat, num 112 16 (life 6).toNat, num 128 16 (life 7).toNat,
    num 144 16 (life 8).toNat, num 160 16 (life 9).toNat, num 176 16 (d.fnst f).errCount, num 192 4 (Config.freeBits (d.free + 10) 32).toNat,
    num 196 4 (Config.freeBits (d.free + 11) 32).toNat, num 200 2 (d.kelvinOf 1), num 202 2 (d.kelvinOf 2)]

/-- Firmware Slot Information: slot 1 is the running Folio. -/
def Dev.logFirmware (d : Dev) : List Byte := layout 512 [num 0 1 1, (8, slice d.buildId 0 8)]

/-- Changed Namespace List. -/
def FnSt.logChangedNs (s : FnSt) : List Byte :=
  slice ((s.changedNs.foldl (fun (l : List Nat) (x : Nat) => insertBy id x l) []).flatMap (fun x => leBytes 4 (x + 1))) 0 4096

/-- Commands Supported and Effects: supported commands, and those that change logical block content. -/
def logEffects (pf : Bool) : List Byte :=
  (List.range 256).flatMap (fun i => leBytes 4 (bit (adminKnown pf i) + 2 * bit ((decide (i = 0x80) || decide (i = 0x84)) && pf)))
  ++ (List.range 256).flatMap (fun i => leBytes 4 (bit (ioKnown 1 i || ioKnown 2 i) + 2 * bit ([0x01, 0x08, 0x09, 0x79, 0x7D].contains i)))
  ++ List.replicate 2048 0

/-- Device Self-test: the running test and the last 20 results. -/
def Dev.logSelfTest (d : Dev) : List Byte :=
  let run := match d.adm.selfTest with
    | some k => leBytes 1 k ++ leBytes 3 0
    | none => leBytes 4 0
  run ++ (List.range 20).flatMap (fun i => match d.adm.selfLog[i]? with
    | some (k, r) => layout 28 [num 0 1 (16 * k + r)]
    | none => layout 28 [num 0 1 0x0F])

/-- Endurance Group Information of group 1. -/
def Dev.logEndurance (d : Dev) : List Byte :=
  layout 512 [num 0 1 (bitsOf d.critWarn 3 0), num 3 1 d.spareLeft, num 4 1 d.spareFloorPct, num 5 1 (Config.freeBits d.free 8).toNat,
    num 32 16 (Config.freeBits (d.free + 1) 128).toNat, num 48 16 (Config.freeBits (d.free + 2) 128).toNat,
    num 64 16 (Config.freeBits (d.free + 3) 128).toNat, num 80 16 (Config.freeBits (d.free + 4) 128).toNat,
    num 96 16 (Config.freeBits (d.free + 5) 128).toNat, num 112 16 (Config.freeBits (d.free + 6) 128).toNat,
    num 128 16 (Config.freeBits (d.free + 7) 128).toNat, num 144 16 (Config.freeBits (d.free + 8) 128).toNat]

/-- Whether a port's controllers see every group as Optimized: x16 at 64.0 GT/s (R116). -/
def HPort.optimized (h : HPort) : Bool := decide (h.width = 16) && decide (h.rate = 6)

/-- Asymmetric Namespace Access: the 16 groups with the namespaces attached to the controller. -/
def Dev.logAna (d : Dev) (f : Fn) (groupsOnly : Bool) : List Byte :=
  let h := d.hport f.port
  let grp := fun (q : Nat) =>
    let l := if groupsOnly then [] else d.nsids (fun n => n.attached.contains f.cntlid && decide (n.quire = q))
    leBytes 4 (q + 1) ++ leBytes 4 l.length ++ leBytes 8 h.ana ++ leBytes 1 (if h.optimized then 1 else 2) ++ leBytes 15 0 ++ l.flatMap (leBytes 4)
  leBytes 8 h.ana ++ leBytes 2 16 ++ leBytes 6 0 ++ (List.range 16).flatMap grp

/-- The lost ranges of a namespace: its lost IUs, or its entries of the lost-range table (R187, R249). -/
def Dev.lostOf (d : Dev) (ns : Nat) (n : Nsp) : List LbaRange :=
  ((d.tc.map.filter (fun x => decide (x.1 / 2 ^ 40 = ns) && decide (x.2 = .lost))).map (fun x => n.iuRange (x.1 % 2 ^ 40)))
  ++ (d.tc.lost.filter (fun x => decide (x.1 = ns))).map (·.2)

/-- A range as an LBA status descriptor's first 12 bytes. -/
def LbaRange.desc (r : LbaRange) (status : Nat) : List Byte := leBytes 8 r.slba ++ leBytes 4 r.nlb ++ leBytes 1 0 ++ leBytes 1 status ++ leBytes 2 0

/-- LBA Status Information: the namespaces attached to the controller that have lost ranges. -/
def Dev.logLbaStatus (d : Dev) (f : Fn) : List Byte :=
  let l := (d.tc.nss.filter (fun x => x.2.attached.contains f.cntlid)).map (fun x => (x.1, d.lostOf x.1 x.2))
  let l := l.filter (fun x => !x.2.isEmpty)
  let body := l.flatMap (fun x => leBytes 4 (x.1 + 1) ++ leBytes 4 x.2.length ++ leBytes 1 0x10 ++ leBytes 7 0
    ++ x.2.flatMap (fun r => leBytes 8 r.slba ++ leBytes 4 r.nlb ++ leBytes 4 0))
  layout 16 [num 0 4 (16 + body.length), num 4 4 l.length, num 8 4 ((l.map (fun x => (x.2.map (·.nlb)).sum)).sum)] ++ body

/-! ### FDP pages (R109, R165, R166) -/

/-- Reclaim Unit Nominal Size: the data of the smallest QLC superblock among the Quires. -/
def Dev.runs (d : Dev) : Nat :=
  match d.quires.map (fun q => 4096 * q.2.sbUnits false q.2.presentWidth) with
  | [] => 0
  | x :: l => l.foldl min x

/-- FDP Configurations: configuration 0, 16 groups, 256 Initially Isolated handles. -/
def Dev.logFdpConfig (d : Dev) : List Byte :=
  let desc := layout 64 [num 0 2 (64 + 1024), num 2 1 0x84, num 4 4 16, num 8 2 256, num 10 2 255, num 12 4 1024, num 16 8 d.runs]
    ++ (List.range 256).flatMap (fun _ => leBytes 1 1 ++ leBytes 3 0)
  layout 16 [num 0 2 0, num 4 4 (16 + desc.length)] ++ desc

/-- Reclaim Unit Handle Usage: the handles that some namespace has. -/
def Dev.logRuh (d : Dev) : List Byte :=
  layout 8 [num 0 2 256] ++ (List.range 256).flatMap (fun h =>
    leBytes 1 (bit (d.tc.nss.any (fun x => decide (x.2.kind = 1) && x.2.handles.contains h))) ++ leBytes 7 0)

/-- FDP Statistics: life-time counts, which are free values. -/
def Dev.logFdpStats (d : Dev) : List Byte :=
  layout 64 [num 0 16 (Config.freeBits d.free 128).toNat, num 16 16 (Config.freeBits (d.free + 1) 128).toNat,
    num 32 16 (Config.freeBits (d.free + 2) 128).toNat]

/-- FDP Events: Reclaim Unit Not Fully Written and Media Reallocated, each with its placement identifier. -/
def Dev.logFdpEvents (d : Dev) : List Byte :=
  let l := d.tc.fdpEvents.reverse.take 63
  layout 64 [num 0 4 l.length] ++ l.flatMap (fun e => layout 64 [num 0 1 e.1, num 1 1 1, num 2 2 e.2])

/-! ### Sanitize and zones -/

/-- ⌈blocks_per_die × tBERS_max⌉ in seconds, the largest values among the admitted Gatherings (R447). -/
def Dev.eraseEstimate (d : Dev) : Nat :=
  let cs := d.presentColos
  ceilDiv ((cs.map Colo.blocks).foldl max 0 * (cs.map (fun c => c.tMax 4)).foldl max 0) 1000000

/-- Sanitize Status: progress is a free value while one runs. -/
def Dev.logSanitize (d : Dev) : List Byte :=
  let prog := if d.san.running then (Config.freeBits d.free 16).toNat else 0xFFFF
  layout 512 [num 0 2 prog, num 2 2 d.san.status, num 4 4 d.san.cdw10.toNat, num 8 4 0xFFFFFFFF, num 12 4 d.eraseEstimate, num 16 4 1,
    num 20 4 0xFFFFFFFF, num 24 4 d.eraseEstimate, num 28 4 1]

/-- Changed Zone List of a namespace. -/
def FnSt.logChangedZones (s : FnSt) (ns : Nat) (n : Nsp) : List Byte :=
  let l := (s.changedZones.filter (fun x => decide (x.1 = ns))).map (·.2)
  slice (leBytes 2 (min 511 l.length) ++ leBytes 6 0 ++ (l.take 511).flatMap (fun z => leBytes 8 (z * n.zoneLbas))) 0 4096

/-! ### Vendor pages -/

/-- A tenant entry of page 0xC0 (Table 05-9). -/
def Dev.tenantEntry (d : Dev) (t : Nat) : List Byte :=
  let x := d.hg.stats.get .reset t
  let paced := (d.hg.slots.filter (fun s => decide (s.2.tenant = t) && decide (s.2.st = .paced))).length
  layout 256 [(0, contractBytes t (d.contract t) (d.hg.saved.has t)), num 64 8 x.readsCharged, num 72 8 x.writesCharged,
    num 80 8 x.unitsRead, num 88 8 x.unitsWritten, num 96 8 x.pacedUs, num 104 8 x.conform, num 112 8 x.late, num 120 8 x.outside,
    (128, (List.range 16).flatMap (fun i => leBytes 4 (x.hist.get 0 i))), num 192 4 x.discardA, num 196 4 x.discardB,
    num 200 4 x.aborted, num 204 4 x.notAborted, num 208 2 (d.heldBy t), num 210 2 x.most, num 212 4 paced]

/-- A member state's code (Table 08-2). -/
def memCode : MemSt → Nat
  | .unused => 0 | .active => 1 | .lost => 2 | .joining => 3 | .releasing => 4 | .released => 5

/-- Per mille, 0 of nothing. -/
def permille (a b : Nat) : Nat := if b = 0 then 0 else min 1000 (1000 * a / b)

/-- Whether patrol on a Quire is paused: switched off, outside the serving modes, or during a relocation (R243, R254). -/
def Dev.patrolPaused (d : Dev) (x : Quire) : Bool :=
  !(bitOf (d.csrW aSigCtrl).toNat 0) || !(servingMode d.modes.mode) || x.work.isSome

/-- A Quire entry of page 0xC1 (Table 08-7). -/
def Dev.quireEntry (d : Dev) (q : Nat) : List Byte :=
  match d.quire q with
  | none => layout 256 [num 0 1 q]
  | some x =>
    let flags := bit x.held + 2 * bit (x.hostA.isSome != x.hostB.isSome) + 4 * bit (d.patrolPaused x)
      + 8 * bit (x.anyIn .joining && decide (x.work ≠ some .respread)) + 16 * bit x.lossWork + 32 * bit (x.work.isSome && !x.lossWork)
    let slotOf := fun (m : Nat) => (((x.members.get? m).bind (·.slot))).getD 0xFF
    let st := fun (m : Nat) => memCode (x.memSt m)
    let js := (d.tc.jslots.filter (fun j => decide (j.2.quire = q))).length
    layout 256 [num 0 1 q, num 1 1 (d.quireState q), num 2 1 (bit x.strict), num 3 1 (bit x.active), num 4 1 x.width, num 5 1 x.presentWidth,
      num 6 1 flags, (8, (List.range 16).flatMap (fun m => leBytes 1 (slotOf m))),
      (24, (List.range 8).flatMap (fun i => leBytes 1 (st (2 * i) + 16 * st (2 * i + 1)))), num 32 1 (x.hostA.getD 0xFF), num 33 1 (x.hostB.getD 0xFF),
      num 34 2 js, num 36 2 x.hours, num 38 2 x.effective, num 40 2 (permille x.patRows x.patTotal), num 42 2 (permille x.workDone x.workTotal),
      num 44 4 x.passes, num 48 8 x.lastPass, num 56 8 x.repaired, num 64 8 x.misparity, num 72 8 x.lostUnits, num 80 8 (d.validUnits q),
      num 88 8 x.ucap, num 96 4 (d.wStrict q / 1000000), num 100 4 (d.qlcFree q), num 104 4 x.sparesLeft]

/-- Log page 0xC2 (Table 14-9). -/
def Dev.logThermal (d : Dev) : List Byte :=
  let excl := maskOf 48 (fun i => (d.sensor i).excluded)
  let w := d.thm
  let crossed := bit w.hotWarn.crossed + 2 * bit w.throttle.crossed + 4 * bit w.critical.crossed + 8 * bit w.shutdown.crossed
    + 16 * bit w.coldWarn.crossed + 32 * bit w.coldLimit.crossed
  let slot := fun (s : Nat) =>
    let x := d.slot s
    leBytes 2 (d.budgetS s) ++ leBytes 2 (d.grantedS s) ++ leBytes 2 (twos 2 (if x.admitted then d.moduleTemp s else 0)) ++ leBytes 1 x.kS
    ++ leBytes 1 (bit x.cold.crossed + 2 * bit x.throttle.crossed + 4 * bit x.defer.crossed
      + 8 * bit (x.opMin.crossed || x.opMax.crossed) + 16 * bit x.excluded)
  layout 768 [num 0 2 (twos 2 w.top), num 2 2 (twos 2 w.topMax), (4, (List.range 12).flatMap (fun r => leBytes 2 (twos 2 (d.region r)))),
    num 28 6 excl, num 34 1 d.slu.kD, num 35 1 d.slu.kR, num 36 1 crossed, num 37 1 d.modes.hostPs, num 40 4 d.budgetG, num 44 4 d.grantedG,
    num 48 4 d.slu.longs, num 52 4 d.tc.ceiling, num 56 4 d.hu.cUf, num 60 2 d.hu.esr, num 62 1 d.hu.result, num 63 1 (bit d.hu.passed),
    num 64 8 d.hu.started, num 72 4 ((d.hu.due - d.now) / 1000000000), (256, (List.range 64).flatMap slot)]

/-- A link's state as the Inspection Window reports it (Table 04-5). -/
def linkCode : LinkSt → Nat
  | .disabled => 0 | .detect | .train | .init | .recovery => 1 | .active | .lowPower => 2 | .quarantine => 3

/-- A Gathering entry of page 0xC5 (Table 10-7). -/
def Dev.gatheringEntry (d : Dev) (s : Nat) : List Byte :=
  let x := d.slot s
  if !x.present then layout 256 [num 0 1 s, num 5 1 0xFF]
  else
    let l := d.link s
    let mem := (d.memberAt s false)
    let mst := match mem with
      | some (q, m) => ((d.quire q).map (fun y => memCode (y.memSt m))).getD 0
      | none => 0
    let c : Colo := (d.colo s).getD ⟨[]⟩
    let pe := max 1 c.peQlc
    let wear := match mem with
      | some (q, m) => ((d.sbsOf q).filter (fun (y : Nat × Superblock) => y.2.members.contains m)).map (fun (y : Nat × Superblock) => y.2.wear)
      | none => []
    let flags := bit (!(d.hostOf s).isEmpty) + 2 * bit c.signed + 4 * bit c.hasKey + 8 * bit x.excluded
      + 16 * bit (decide (0 < c.dies) && (List.range c.dies).all (fun k => (d.die s k).warm))
    let log := fun (i : Nat) => d.gl.logs.get 0 (4 * s + i)
    layout 256 [num 0 1 s, num 1 1 x.outcome, num 2 1 x.check, num 3 1 (linkCode l.st), num 4 1 (if linkCode l.st = 2 then l.width else 0),
      num 5 1 ((mem.map (·.1)).getD 0xFF), num 6 1 ((mem.map (·.2)).getD 0xFF), num 7 1 mst, num 8 1 flags, num 9 1 l.quar,
      (12, slice c.bytes 0x10 16), (28, slice c.bytes 0x20 4), (32, slice c.bytes 0x24 4), (36, slice c.bytes 0x28 32),
      (68, digestBytes (x.colo.map Config.sha384 |>.getD 0)), num 116 4 c.rawGib, num 120 1 c.chans, num 121 1 c.perChan, num 122 2 c.bq,
      num 124 4 c.blocks, num 128 2 (twos 2 x.nand), num 130 2 (twos 2 x.nandMax), num 132 2 (twos 2 x.bridge), num 134 2 x.current,
      num 136 2 x.voltage, num 138 2 l.diesFailed.length,
      num 140 4 (d.tc.retired.filter (fun r => decide (r.1 / 2 ^ 38 = s))).length, num 144 4 c.badCount,
      num 148 4 (if wear.isEmpty then 0 else 1000 * wear.sum / (wear.length * pe)), num 152 4 (1000 * wear.foldl max 0 / pe),
      num 156 4 (l.tagFailAt.filter (fun t => decide (d.now < t + 86400000000000))).length, num 160 4 (log 0), num 164 4 (log 1),
      num 168 4 (log 2), num 172 4 (log 3), num 176 8 x.admittedAt]

/-- Log page 0xC4 (R112): a header, then whole records from a sequence number on, as many as fit. -/
def Dev.logLedger (d : Dev) (seq len : Nat) : List Byte :=
  let e := d.evl
  let recs := e.main.filter (fun r => decide (seq ≤ r.seq) && decide (r.seq < e.next))
  let out := wholeRecords recs (len - 16)
  let body := out.flatMap (·.bytes)
  let first := match out with
    | r :: _ => r.seq
    | [] => seq
  leBytes 4 e.next ++ leBytes 4 first ++ leBytes 4 body.length ++ leBytes 4 e.overflow ++ body

/-! ### GET_LOG_PAGE -/

/-- A page's bytes on a function, or the status that refuses it. Page 0xC4 is answered by itself. -/
def Dev.logBytes (d : Dev) (s : CSlot) : List Byte ⊕ Cqe :=
  let f := s.fn
  let lid := bitsOf (s.dw 10) 7 0
  if !((logPages f.isPf).contains lid) then .inr cqeLogPage
  else match lid with
    | 0x00 => .inl (logSupported f.isPf)
    | 0x01 => .inl (d.fnst f).logErrors
    | 0x02 => .inl (d.logSmart f)
    | 0x03 => .inl d.logFirmware
    | 0x04 => .inl (d.fnst f).logChangedNs
    | 0x05 => .inl (logEffects f.isPf)
    | 0x06 => .inl d.logSelfTest
    | 0x09 => if bitsOf (s.dw 11) 31 16 = 1 then .inl d.logEndurance else .inr cqeInvalidField
    | 0x0C => .inl (d.logAna f (bitOf (s.dw 10) 8))
    | 0x0E => .inl (d.logLbaStatus f)
    | 0x20 => .inl d.logFdpConfig
    | 0x21 => .inl d.logRuh
    | 0x22 => .inl d.logFdpStats
    | 0x23 => .inl d.logFdpEvents
    | 0x81 => .inl d.logSanitize
    | 0xBF => match d.nsOf s with
      | some (ns, n) => if n.kind = 2 then .inl ((d.fnst f).logChangedZones ns n) else .inr cqeInvalidField
      | none => .inr cqeInvalidNs
    | 0xC0 => .inl (if f.isPf then (List.range 513).flatMap d.tenantEntry else d.tenantEntry f.tenant)
    | 0xC1 => .inl ((List.range 16).flatMap d.quireEntry)
    | 0xC2 => .inl d.logThermal
    | 0xC3 => if d.bcol.signed then .inl d.bcolBytes else .inr cqeSequence
    | _ => .inl ((List.range 64).flatMap d.gatheringEntry)

/-- What reading a page does: the changed lists empty unless Retain Asynchronous Event is set. -/
def Dev.logRead (d : Dev) (s : CSlot) : Dev :=
  let d := { d with free := d.free + 16 }
  if bitOf (s.dw 10) 15 then d
  else match bitsOf (s.dw 10) 7 0 with
    | 0x04 => d.modFn s.fn (fun t => { t with changedNs := [] })
    | 0xBF => match d.nsOf s with
      | some (ns, _) => d.modFn s.fn (fun t => { t with changedZones := t.changedZones.filter (fun x => decide (x.1 ≠ ns)) })
      | none => d
    | _ => d

/-- Get Log Page's answer to a command's dwords: bytes or a status (R111, R112). -/
def Dev.logAnswer (d : Dev) (s : CSlot) : List Byte ⊕ Cqe :=
  let len := 4 * (bitsOf (s.dw 10) 31 16 + 65536 * bitsOf (s.dw 11) 15 0 + 1)
  let off := s.dw 12 + 2 ^ 32 * s.dw 13
  let index := bitOf (s.dw 14) 23
  if bitsOf (s.dw 10) 7 0 = 0xC4 ∧ s.fn.isPf = true then
    if index = false ∨ 2 ^ 32 ≤ off then .inr cqeInvalidField else .inl (d.logLedger off len)
  else
    match d.logBytes s with
    | .inr e => .inr e
    | .inl b =>
      if index = true ∨ off % 4 ≠ 0 ∨ b.length ≤ off then .inr cqeInvalidField else .inl ((b.drop off).take len)

/-- GET_LOG_PAGE. -/
def getLogPage (cs : Nat) (d : Dev) : Dev :=
  d.adminRun cs 0x02 (fun d s =>
    match d.logAnswer s with
    | .inl b => (d.logRead s).answer cs b
    | .inr e => d.complete cs e)

def execGetLogPage (cs : Nat) (s : State) : Host.Outcome State Fault Refusal := .next (s.onDev (getLogPage cs))

end Sys2Proof.Machine
end

