-- ==== Sys2Proof/Machine/Admin.lean ====
section
/-! DEFINITION. Firmware download and runtime activation (R58, R70, R114, R141), Device Self-test and Virtualization Management
(R107), Get LBA Status (R187), and Ledger New Volume with the end of persists (R427, R429). -/

namespace Sys2Proof.Machine

/-! ### Firmware (R114) -/

def cqeFirmwareImage : Cqe := Cqe.of 1 0x07 true
def cqeActivationProhibited : Cqe := Cqe.of 1 0x13 true

/-- FIRMWARE_IMAGE_DOWNLOAD: pieces in any order, later ones replacing what they overlap. -/
def firmwareImageDownload (cs : Nat) (dma : DmaIn) (d : Dev) : Dev :=
  d.adminRun cs 0x11 (fun d s =>
    let n := 4 * (s.dw 10 + 1)
    let off := 4 * s.dw 11
    if n % 4096 ≠ 0 ∨ off % 4096 ≠ 0 ∨ 33574912 < off + n then d.complete cs cqeInvalidField
    else d.withData cs dma (fun b =>
      { d with adm := { d.adm with
        fw := storeBytes d.adm.fw off (slice b 0 n), fwPages := addPages d.adm.fwPages (off / 4096) (n / 4096)
        fwEnd := max d.adm.fwEnd (off + n) } }.complete cs cqeOk))

def execFirmwareImageDownload (cs : Nat) (dma : DmaIn) (s : State) : Host.Outcome State Fault Refusal :=
  .next (s.onDev (firmwareImageDownload cs dma))

/-- Emptying the staging area. -/
def Dev.dropFw (d : Dev) : Dev := { d with adm := { d.adm with fw := [], fwPages := [], fwEnd := 0 } }

/-- Starting an activation (Table 05-7 steps 1 to 3). -/
def Dev.startActivation (d : Dev) (r : RunFolio) : Dev :=
  let d := { d with adm := { d.adm with activating := some (d.now, r), lateSeen := false } }
  ((d.aenAll aeActivation).setField aHgCtrl 1 1 1).setField aHgCtrl 3 3 1

/-- FIRMWARE_COMMIT: during an activation it ends at once; every one empties the staging area. -/
def firmwareCommit (cs : Nat) (fuse : Fuses) (d : Dev) : Dev :=
  if d.adm.activating.isSome && (d.seqSlot cs 0x10).isSome then d.dropFw.complete cs cqeSequence
  else d.seqRun cs 0x10 (fun d s =>
    let c := d.adm.fw
    let size := d.adm.fwEnd
    let whole := decide (0 < size) && decide (d.adm.fwPages.length * 4096 = size)
    let r := runFolioOf fuse c
    let d := d.dropFw
    if bitsOf (s.dw 10) 5 3 ≠ 3 ∨ 1 < bitsOf (s.dw 10) 2 0 then d.complete cs cqeInvalidField
    else if !whole || (folioCheck fuse c size).isSome || !r.activatable then d.complete cs cqeFirmwareImage
    else if d.bcol.full then d.complete cs cqeActivationProhibited
    else (d.startActivation r).modSlot cs (fun s => { s with wait := .drain }))

def execFirmwareCommit (cs : Nat) (s : State) : Host.Outcome State Fault Refusal := .next (s.onDev (firmwareCommit cs s.fuse))

/-- Blowing SVN fuses up to a value (R58): what they then read back, between the old value and the one wanted, is a free
value. -/
def State.commitSvn (s : State) : State :=
  match s.dev.boot.run with
  | none => s
  | some r =>
    let old := s.fuse.minSvn
    if !r.commitSvn || decide (r.svn ≤ old) then s
    else
      let got := old + Config.freeNat s.dev.free % (r.svn - old + 1)
      let d := s.dev.tickFree
      let d := if got = r.svn then d.ev evWdnSvnCommitted 0 [.num 4 r.svn] else d.ev evWdnSvnFuseFail 0 [.num 4 r.svn, .num 4 got]
      { s with fuse := { s.fuse with svn := s.fuse.svn ||| BitVec.ofNat 128 (2 ^ got - 1) }, dev := d }

/-- The record of a command that holds back an activation past 50 ms (R141). -/
def Dev.drainLate (d : Dev) : Dev :=
  match d.adm.activating, d.hg.slots.find? (fun (x : Nat × CSlot) => decide (x.2.sqid ≠ 0)) with
  | some (t, _), some (cs, s) =>
    if d.adm.lateSeen || decide (d.now < t + 50000000) then d
    else ({ d with adm := { d.adm with lateSeen := true } }).ev evHgDrainLate 0 [.num 2 cs, .num 1 s.opcode]
  | _, _ => d

/-- ACTIVATION_DRAINED (R141 steps 4 to 6): with every I/O slot free the Folio swaps, the record is appended, fetching
resumes, the Firmware Commit completes and the SVN is committed. -/
def activationDrained (s : State) : State :=
  match s.dev.adm.activating with
  | none => s
  | some (_, r) =>
    if s.dev.ioHeld ≠ 0 then s.onDev Dev.drainLate
    else
      let s := s.onDev (fun d =>
        let d := { d with adm := { d.adm with activating := none }, boot := { d.boot with run := some r } }
        let d := d.appendBcol 1 0 r.mv r.svn [] r.buildId
        (d.setField aHgCtrl 1 1 0).setField aHgCtrl 3 3 0)
      let s := s.commitSvn
      s.onDev (fun d => match d.adm.running with
        | some cs => d.complete cs cqeOk
        | none => d)

def execActivationDrained (s : State) : Host.Outcome State Fault Refusal := .next (activationDrained s)

/-! ### Device Self-test (R107, R111) -/

def cqeSelfTest : Cqe := Cqe.of 1 0x1D false

/-- A result is logged; 20 are kept. -/
def Dev.logSelf (d : Dev) (code res : Nat) : Dev :=
  { d with adm := { d.adm with selfTest := none, selfLog := ((code, res) :: d.adm.selfLog).take 20 } }

/-- DEVICE_SELF_TEST: 1 short, 2 extended, 15 abort. It completes once the test has started. -/
def deviceSelfTest (cs : Nat) (d : Dev) : Dev :=
  d.adminRun cs 0x14 (fun d s =>
    let code := bitsOf (s.dw 10) 3 0
    match d.adm.selfTest with
    | some k =>
      if code = 15 then (d.logSelf k 1).complete cs cqeOk
      else if code = 1 ∨ code = 2 then d.complete cs cqeSelfTest
      else d.complete cs cqeInvalidField
    | none =>
      if code = 1 ∨ code = 2 then ({ d with adm := { d.adm with selfTest := some code } }).complete cs cqeOk
      else if code = 15 then d.complete cs cqeOk
      else d.complete cs cqeInvalidField)

def execDeviceSelfTest (cs : Nat) (s : State) : Host.Outcome State Fault Refusal := .next (s.onDev (deviceSelfTest cs))

/-- DEVICE_SELF_TEST_DONE. -/
def deviceSelfTestDone (ok : Bool) (d : Dev) : Dev :=
  match d.adm.selfTest with
  | none => d
  | some k => d.logSelf k (if ok then 0 else 7)

def execDeviceSelfTestDone (ok : Bool) (s : State) : Host.Outcome State Fault Refusal := .next (s.onDev (deviceSelfTestDone ok))

/-! ### Virtualization Management (R107) -/

def cqeControllerId : Cqe := Cqe.of 1 0x1F true
def cqeSecondaryState : Cqe := Cqe.of 1 0x20 true

/-- VIRTUALIZATION_MANAGEMENT: Secondary Controller Offline (7) and Online (9). Offline resets the controller; it does not
become ready until it is Online. -/
def virtualizationManagement (cs : Nat) (d : Dev) : Dev :=
  d.seqRun cs 0x1C (fun d s =>
    let act := bitsOf (s.dw 10) 3 0
    if act ≠ 7 ∧ act ≠ 9 then d.complete cs cqeInvalidField
    else
      match fnOfCntlid (bitsOf (s.dw 10) 31 16) with
      | none => d.complete cs cqeControllerId
      | some f =>
        if f.isPf || decide (f.port ≠ s.fn.port) then d.complete cs cqeControllerId
        else if act = 7 then ((d.modFn f (fun t => { t with online := false })).resetCtl f).complete cs cqeOk
        else if !(d.fnUp f) then d.complete cs cqeSecondaryState
        else
          let d := d.modFn f (fun t => { t with online := true })
          let d := if bitOf (d.fnst f).cc.toNat 0 && hostMode d.modes.mode then d.makeReady f else d
          d.complete cs cqeOk)

def execVirtualizationManagement (cs : Nat) (s : State) : Host.Outcome State Fault Refusal :=
  .next (s.onDev (virtualizationManagement cs))

/-! ### Get LBA Status (R187) -/

/-- The lost ranges from an LBA on, clipped to a number of blocks. -/
def clipRanges (l : List LbaRange) (slba n : Nat) : List LbaRange :=
  l.filterMap (fun r =>
    let a := max r.slba slba
    let b := min (r.slba + r.nlb) (slba + n)
    if a < b then some ⟨a, b - a⟩ else none)

/-- GET_LBA_STATUS: action types 0x10 and 0x11. -/
def getLbaStatus (cs : Nat) (d : Dev) : Dev :=
  d.adminRun cs 0x86 (fun d s =>
    match d.nsOf s with
    | none => d.complete cs cqeInvalidNs
    | some (ns, n) =>
      let atype := bitsOf (s.dw 13) 31 24
      let len := if bitsOf (s.dw 13) 15 0 = 0 then n.nsze - s.slba else bitsOf (s.dw 13) 15 0
      if atype ≠ 0x10 ∧ atype ≠ 0x11 then d.complete cs cqeInvalidField
      else if n.nsze ≤ s.slba then d.complete cs cqeLbaRange
      else
        let l := clipRanges (d.lostOf ns n) s.slba len
        let fit := (4 * (s.dw 12 + 1) - 8) / 16
        let r := l.take fit
        d.answer cs (leBytes 4 r.length ++ leBytes 1 (if fit < l.length then 1 else 2) ++ leBytes 3 0 ++ r.flatMap (fun x => x.desc 0x10)))

def execGetLbaStatus (cs : Nat) (s : State) : Host.Outcome State Fault Refusal := .next (s.onDev (getLbaStatus cs))

/-! ### Persists and Ledger New Volume (R140, R427, R429) -/

def cqePersistFailed : Cqe := cqeVendor 0xCA

/-- LEDGER_NEW_VOLUME: it completes with the persist that it starts. -/
def ledgerNewVolume (cs : Nat) (d : Dev) : Dev :=
  d.seqRun cs 0xC0 (fun d s =>
    if (List.range 6).any (fun i => decide (s.dw (10 + i) ≠ 0)) then d.complete cs cqeInvalidField
    else (d.modSlot cs (fun s => { s with wait := .persist })).startPersist (.newVolume cs))

def execLedgerNewVolume (cs : Nat) (s : State) : Host.Outcome State Fault Refusal := .next (s.onDev (ledgerNewVolume cs))

/-- LEDGER_PERSIST_DONE: a persist has ended on a number of Quires; what waited for it goes on, and the next one starts. -/
def ledgerPersistDone (quires : Nat) (d : Dev) : Dev :=
  match d.evl.persisting with
  | none => d
  | some (w, head) =>
    let d := { d with evl := { d.evl with persisting := none } }.endPersist head quires
    let d := match w with
      | .holdup => d
      | .shutdown f => d.settleFn f
      | .newVolume cs => if quires = 0 then d.complete cs cqePersistFailed else (d.newVolume head).complete cs cqeOk
    match d.evl.waiting with
    | [] => d
    | x :: l => { d with evl := { d.evl with waiting := l } }.startPersist x

def execLedgerPersistDone (quires : Nat) (s : State) : Host.Outcome State Fault Refusal := .next (s.onDev (ledgerPersistDone quires))

end Sys2Proof.Machine
end

