-- ==== Sys2Proof/Machine/Namespaces.lean ====
section
/-! DEFINITION. Namespaces and their keys (R107, R118, R145, R154 to R157, R160, R313, R316, R324, R434, R435, R443 to R449): create,
delete, attach, detach, Format NVM and Sanitize. Places of fields that NVMe fixes are PRESUMED (assumption log). -/

namespace Sys2Proof.Machine

/-! ### Statuses -/

def cqeInvalidFormat : Cqe := Cqe.of 1 0x0A true
def cqeNoCapacity : Cqe := Cqe.of 1 0x15 true
def cqeNoNsid : Cqe := Cqe.of 1 0x16 true
def cqeAttached : Cqe := Cqe.of 1 0x18 true
def cqeNotAttached : Cqe := Cqe.of 1 0x1A true
def cqeCtlList : Cqe := Cqe.of 1 0x1C true
def cqeNoCommandSet : Cqe := Cqe.of 1 0x29 true
def cqeHandles : Cqe := Cqe.of 1 0x2A true

/-! ### Create (R145, R154 to R157, R160) -/

/-- The capacity of one DRAM channel in bytes (R351). -/
def Dev.chanBytes (d : Dev) : Nat :=
  let b := d.section 4
  let dens := if fieldAt b 3 1 = 0 then 16 else if fieldAt b 3 1 = 1 then 24 else 32
  2 * 8 * fieldAt b 2 1 * dens / 8 * 2 ^ 30

/-- map_budget in bytes (R155). -/
def Dev.mapBudget (d : Dev) : Nat := d.dmc.order.length * d.chanBytes - 4096 * d.dramPools - 16 * 2 ^ 30

/-- What is left of a Quire's user capacity, in 4 KiB units. -/
def Dev.freeCap (d : Dev) (q : Nat) : Nat := ((d.quire q).map (·.ucap)).getD 0 - d.capUsed q

/-- The Quire with the most free capacity, the lower number on a tie. -/
def Dev.roomiest (d : Dev) : Option Nat :=
  d.quires.foldl (fun (b : Option Nat) (x : Nat × Quire) =>
    match b with
    | none => some x.1
    | some y => if d.freeCap y < d.freeCap x.1 then some x.1 else some y) none

/-- The home Quire that ANAGRPID asks for (R145). -/
def Dev.homeQuire (d : Dev) (ana : Nat) : Option Nat :=
  if ana = 0 then d.roomiest else if 16 < ana then none else (d.quire (ana - 1)).map (fun _ => ana - 1)

/-- Protection information types an LBA format takes (Table 04-7): 1 and 3 with metadata. -/
def piOk (lbaf pi : Nat) : Bool := decide (pi = 0) || ((decide (lbaf = 1) || decide (lbaf = 2)) && (decide (pi = 1) || decide (pi = 3)))

/-- The placement handles that a create names; none of them, and handle 0 serves. -/
def createHandles (b : List Byte) : List Nat :=
  let n := fieldAt b 392 2
  if n = 0 then [0] else (List.range n).map (fun i => fieldAt b (512 + 2 * i) 2)

/-- The namespace that a create asks for, or the status of R154 that refuses it. -/
def Dev.createSpec (d : Dev) (csi : Nat) (b : List Byte) : Nsp ⊕ Cqe :=
  let nsze := fieldAt b 0 8
  let fl := fieldAt b 26 1
  let lbaf := bitsOf fl 3 0
  let pi := bitsOf (fieldAt b 29 1) 2 0
  let iu := fieldAt b 3840 1
  let zs := fieldAt b 3841 1
  let mar := fieldAt b 3844 4
  let zoned := decide (csi = 2)
  let fdp := decide (csi = 0) && bitOf (d.adm.feats.get 0 0x1D).toNat 0
  let n := fieldAt b 392 2
  if csi ≠ 0 ∧ csi ≠ 2 then .inr cqeNoCommandSet
  else if 3 < lbaf ∨ bitsOf fl 6 5 ≠ 0 then .inr cqeInvalidFormat
  else if zoned ∧ lbaf = 3 then .inr cqeInvalidNs
  else if nsze = 0 ∨ fieldAt b 8 8 ≠ nsze ∨ !(piOk lbaf pi) ∨ 1 < iu ∨ !(zeroAt b 3842 2) ∨ !(zeroAt b 3848 8) ∨ !(zeroAt b 384 8) then
    .inr cqeInvalidField
  else if zoned && (decide (iu ≠ 0) || decide (zs < 28) || decide (33 < zs) || (decide (4031 < mar) && decide (mar ≠ 0xFFFFFFFF))
      || decide (nsze % (2 ^ zs / 4096) ≠ 0)) then .inr cqeInvalidField
  else if !zoned && (decide (zs ≠ 0) || decide (mar ≠ 0)) then .inr cqeInvalidField
  else if !fdp && decide (n ≠ 0) then .inr cqeInvalidField
  else if fdp && (decide (256 < n) || (createHandles b).any (fun h => decide (255 < h)) || decide ((createHandles b).dedup.length ≠ (createHandles b).length))
    then .inr cqeHandles
  else
    match d.homeQuire (fieldAt b 92 4) with
    | none => .inr cqeInvalidField
    | some q => .inl {
        kind := if zoned then 2 else if fdp then 1 else 0
        lbaf := lbaf, nsze := nsze, iu16 := decide (iu = 1), pi := pi, zoneShift := zs
        mar := if zoned then (if mar = 0xFFFFFFFF then 15 else mar) else 0
        quire := q, handles := if fdp then createHandles b else [], attached := [], gen := 0, keyGen := 1, keySeq := 0
        formatting := none, deleting := false, ndasReset := false }

/-- The checks of R157, in their order. -/
def Dev.admits (d : Dev) (n : Nsp) : Option Cqe :=
  let sb := ((d.quire n.quire).map (fun (x : Quire) => 4096 * x.sbUnits false x.width)).getD 0
  if d.mapBudget < d.mapUsed + n.mapCost then some (cqeVendor 0xC3)
  else if d.freeCap n.quire < d.capCost n then some cqeNoCapacity
  else if 4032 < d.furrowsReserved + d.furrowCost 1024 n then some (cqeVendor 0xC4)
  else if n.kind = 2 ∧ 25 * sb < d.zcap n * lbaBytes n.lbaf then some cqeInvalidField
  else none

/-- The lowest namespace index not in use. -/
def Dev.freeNs (d : Dev) : Option Nat := (List.range 1024).find? (fun i => !(d.tc.nss.has i))

/-- NAMESPACE_CREATE: the new ring image is written without the command waiting for it; a create that raises the number of
zone tiles waits for their reassignment. -/
def namespaceCreate (cs : Nat) (dma : DmaIn) (d : Dev) : Dev :=
  match d.seqSlot cs 0x0D with
  | none => d
  | some s0 =>
    if bitsOf (s0.dw 10) 3 0 = 1 then d
    else d.seqRun cs 0x0D (fun d s =>
      if bitsOf (s.dw 10) 3 0 ≠ 0 then d.complete cs cqeInvalidField
      else d.withData cs dma (fun b =>
        match d.createSpec (bitsOf (s.dw 11) 31 24) b with
        | .inr e => d.complete cs e
        | .inl n =>
          match d.admits n, d.freeNs with
          | some e, _ => d.complete cs e
          | none, none => d.complete cs cqeNoNsid
          | none, some i =>
            let d := { d with tc := { d.tc with nss := d.tc.nss.ins i n } }
            let d := d.newImage.ringSettle.warmUpdate
            let d := d.modSlot cs (fun s => { s with wait := .range, want := i + 1 })
            if n.kind = 2 ∧ d.zoneTiles ≠ d.col.tz then d.repartZones
            else d.complete cs (cqeDw0 (BitVec.ofNat 32 (i + 1)))))

def execNamespaceCreate (cs : Nat) (dma : DmaIn) (s : State) : Host.Outcome State Fault Refusal :=
  .next (s.onDev (namespaceCreate cs dma))

/-! ### Attachment (R107, R118, R145, R316, R324) -/

/-- Writing the classification entry that a namespace's attachment calls for. -/
def Dev.classify (d : Dev) (ns : Nat) (n : Nsp) : Dev :=
  let d := d.classRemove ns
  match n.attached.filterMap fnOfCntlid with
  | [] => d
  | f :: _ =>
    let both := n.attached.contains 1 && n.attached.contains 2
    d.classInsert (if both then 0x4000 else ctlKey f) both (ns + 1) f.tenant ns n.kind n.lbaf

/-- I/O of controllers to a namespace that has not reached its commit point ends (R118). -/
def Dev.endNsIo (d : Dev) (ns : Nat) (ids : List Nat) : Dev :=
  let l := (d.hg.slots.filter (fun (x : Nat × CSlot) => decide (x.2.sqid ≠ 0) && decide (x.2.nsid = ns + 1) && ids.contains x.2.fn.cntlid
    && (decide (x.2.st = .fetched) || decide (x.2.st = .paced) || decide (x.2.st = .executing)))).map (fun (x : Nat × CSlot) => x.1)
  l.foldl (fun (d : Dev) (c : Nat) => (d.dropWork c).complete c cqeInvalidNs) d

/-- A namespace's list of controllers changes: its entry, the notices, the warm floor. -/
def Dev.rebind (d : Dev) (ns : Nat) (n : Nsp) (att : List Nat) : Dev :=
  let gone := n.attached.filter (fun c => !(att.contains c))
  let come := att.filter (fun c => !(n.attached.contains c))
  let d := d.endNsIo ns gone
  let d := (d.modNsp ns (fun x => { x with attached := att })).classify ns { n with attached := att }
  (d.nsChanged ns (gone ++ come)).warmUpdate

/-- The controllers that a controller list names: PF controllers, or one tenant's, which go together; none otherwise. -/
def listedCtls (b : List Byte) : Option (List Nat) :=
  let k := fieldAt b 0 2
  let ids := (List.range k).map (fun i => fieldAt b (2 + 2 * i) 2)
  let fs := ids.filterMap fnOfCntlid
  if k = 0 ∨ 2047 < k ∨ fs.length ≠ k then none
  else
    match (fs.map Fn.tenant).dedup with
    | [t] => if t = 512 then some ids.dedup else some [0x1001 + t, 0x2001 + t]
    | _ => none

/-- A Namespace Attachment row runs where its command names the row's selection; that of a namespace being deleted ends at
once. -/
def Dev.attachment (d : Dev) (cs sel : Nat) (dma : DmaIn) (f : Dev → Nat → Nsp → List Nat → Dev) : Dev :=
  match d.seqSlot cs 0x15 with
  | none => d
  | some s =>
    let mine := decide (bitsOf (s.dw 10) 3 0 = sel) || (decide (sel = 0) && decide (1 < bitsOf (s.dw 10) 3 0))
    if !mine then d
    else
      match d.nspId s.nsid with
      | some (_, n) =>
        if n.deleting then d.complete cs cqeInvalidNs
        else d.seqRun cs 0x15 (fun d s =>
          if 1 < bitsOf (s.dw 10) 3 0 then d.complete cs cqeInvalidField
          else d.withData cs dma (fun b =>
            match d.nspId s.nsid, listedCtls b with
            | some (ns, n), some l => f d ns n l
            | _, _ => d.complete cs cqeCtlList))
      | none => d.seqRun cs 0x15 (fun d s => d.complete cs (if nsidValid s.nsid then cqeInvalidField else cqeInvalidNs))

/-- NAMESPACE_ATTACH: one tenant at most; the contract checks of R145 are made with the namespace counted. -/
def namespaceAttach (cs : Nat) (dma : DmaIn) (d : Dev) : Dev :=
  d.attachment cs 0 dma (fun d ns n l =>
    let t := ((l.head?.bind fnOfCntlid).map Fn.tenant).getD 512
    if n.tenants.any (fun x => decide (x ≠ t)) then d.complete cs cqeCtlList
    else if l.any (fun c => n.attached.contains c) then d.complete cs cqeAttached
    else
      let att := n.attached ++ l
      match (d.modNsp ns (fun x => { x with attached := att })).contractRefusal t with
      | some sc => d.complete cs (cqeVendor sc)
      | none => (d.rebind ns n att).complete cs cqeOk)

def execNamespaceAttach (cs : Nat) (dma : DmaIn) (s : State) : Host.Outcome State Fault Refusal :=
  .next (s.onDev (namespaceAttach cs dma))

/-- NAMESPACE_DETACH: the entry goes before the command completes. -/
def namespaceDetach (cs : Nat) (dma : DmaIn) (d : Dev) : Dev :=
  d.attachment cs 1 dma (fun d ns n l =>
    if l.any (fun c => !(n.attached.contains c)) then d.complete cs cqeNotAttached
    else (d.rebind ns n (n.attached.filter (fun c => !(l.contains c)))).complete cs cqeOk)

def execNamespaceDetach (cs : Nat) (dma : DmaIn) (s : State) : Host.Outcome State Fault Refusal :=
  .next (s.onDev (namespaceDetach cs dma))

/-! ### Key changes (R443, R444) -/

/-- A Furrow that takes a namespace's units together with others' closes its row; one with nothing left returns to FREE. -/
def Dev.closeShared (d : Dev) (n : Nsp) (f : Nat) (x : Furrow) : Dev :=
  if x.kind = 2 ∧ x.quire = n.quire ∧ n.handles.contains (x.binding % 256) = true ∧ x.st ≠ .free then
    if x.pack.isEmpty && x.staged.isEmpty then d.dropFurrow f else d.closeRow f
  else d

/-- Step 3 of Table 17-5 and R444: the namespace's Furrows close their superblocks, its range entries and buffers go, and
every map entry reads UNWRITTEN, zones becoming Empty. -/
def Dev.wipeNs (d : Dev) (ns : Nat) (n : Nsp) : Dev :=
  let d := d.dropZoneUnits ns 0 (2 ^ 40)
  let d := ((d.tc.map.filter (fun (x : Nat × MapEntry) => decide (x.1 / 2 ^ 40 = ns))).map (fun (x : Nat × MapEntry) => x.1 % 2 ^ 40)).foldl
    (fun (d : Dev) (i : Nat) => d.mapPut ns i .unwritten) d
  let d := ((d.tc.zones.filter (fun (x : Nat × Zone) => decide (x.1 / 2 ^ 20 = ns))).map (fun (x : Nat × Zone) => x.1 % 2 ^ 20)).foldl
    (fun (d : Dev) (z : Nat) => ((d.dropZoneData ns z n).zoneEntDel ns z).modZone ns z (fun _ => Zone.fresh)) d
  let d := { d with tc := { d.tc with
    lost := d.tc.lost.filter (fun (x : Nat × LbaRange) => decide (x.1 ≠ ns))
    furrows := d.tc.furrows.map (fun (x : Nat × Furrow) => (x.1, { x.2 with staged := x.2.staged.filter (fun (u : ProgUnit) => decide (u.ns ≠ ns)) })) } }
  let d := (d.tc.furrows.filter (fun (x : Nat × Furrow) => decide (64 ≤ x.1))).foldl (fun (d : Dev) (x : Nat × Furrow) =>
    if x.2.ns = some ns then d.dropFurrow x.1 else d.closeShared n x.1 x.2) d
  d.finishWrites.colSettle

/-- Steps 2 and 3 for one namespace: the key generation rises, key_change_seq is the next open sequence number, and
KEY_CHANGE is appended. -/
def Dev.keyChange (d : Dev) (ns : Nat) : Dev :=
  match d.nsp ns with
  | none => d
  | some n =>
    let seq := d.tc.openSeq + 1
    let d := { d with tc := { d.tc with openSeq := seq } }
    let d := d.modNsp ns (fun x => { x with keyGen := (n.keyGen + 1) % 2 ^ 32, keySeq := seq })
    (d.jrnl (.keyChange ns ((n.keyGen + 1) % 2 ^ 32) seq)).wipeNs ns n

/-- Step 4: the image that the command waits for. -/
def Dev.imageFor (d : Dev) (w : RingFor) : Dev := (d.newImage.modRing (fun r => { r with waits := some w })).ringSettle

/-- The namespaces that a command on one or on all of them names. -/
def Dev.named (d : Dev) (nsid : Nat) : Option (List Nat) :=
  if nsid = 0xFFFFFFFF then some (d.tc.nss.map (fun (x : Nat × Nsp) => x.1)) else (d.nspId nsid).map (fun x => [x.1])

/-- NAMESPACE_DELETE (R107, R443): detached from every controller, a key change, and the index free at the end. -/
def namespaceDelete (cs : Nat) (d : Dev) : Dev :=
  match d.seqSlot cs 0x0D with
  | none => d
  | some s0 =>
    if bitsOf (s0.dw 10) 3 0 ≠ 1 then d
    else d.seqRun cs 0x0D (fun d s =>
      match d.named s.nsid with
      | none => d.complete cs (if nsidValid s.nsid then cqeInvalidField else cqeInvalidNs)
      | some l =>
        let d := l.foldl (fun (d : Dev) (ns : Nat) => match d.nsp ns with
          | none => d
          | some n => (((d.rebind ns n []).modNsp ns (fun x => { x with deleting := true })).keyChange ns)) d
        (d.imageFor (.delete cs)).warmUpdate)

def execNamespaceDelete (cs : Nat) (s : State) : Host.Outcome State Fault Refusal := .next (s.onDev (namespaceDelete cs))

/-! ### Format NVM (R106, R107, R443) -/

/-- The LBA format, protection information and secure erase setting that a Format names, or its status. -/
def Dev.formatRefusal (d : Dev) (s : CSlot) (l : List Nat) : Option Cqe :=
  let lbaf := bitsOf (s.dw 10) 3 0
  let pi := bitsOf (s.dw 10) 7 5
  if 2 < bitsOf (s.dw 10) 11 9 then some cqeInvalidField
  else if 3 < lbaf ∨ bitsOf (s.dw 10) 13 12 ≠ 0 ∨ !(piOk lbaf pi) ∨ (pi ≠ 0 ∧ bitOf (s.dw 10) 8) then some cqeInvalidFormat
  else if lbaf = 3 ∧ l.any (fun ns => decide (((d.nsp ns).map (·.kind)).getD 0 = 2)) then some cqeInvalidFormat
  else none

/-- The namespace under its new LBA format. -/
def Nsp.formatted (n : Nsp) (lbaf pi first : Nat) : Nsp :=
  { n with lbaf := lbaf, pi := pi, nsze := n.nsze * lbasPerUnit lbaf / lbasPerUnit n.lbaf, formatting := some first, ndasReset := true }

/-- FORMAT_NVM: every secure erase setting changes the keys. -/
def formatNvm (cs : Nat) (d : Dev) : Dev :=
  d.seqRun cs 0x80 (fun d s =>
    match d.named s.nsid with
    | none => d.complete cs cqeInvalidNs
    | some l =>
      match d.formatRefusal s l with
      | some e => d.complete cs e
      | none =>
        let first := d.hg.order
        let d := l.foldl (fun (d : Dev) (ns : Nat) => match d.nsp ns with
          | none => d
          | some n =>
            let m := n.formatted (bitsOf (s.dw 10) 3 0) (bitsOf (s.dw 10) 7 5) first
            let d := (d.keyChange ns).modNsp ns (fun x => { m with gen := x.gen, keyGen := x.keyGen, keySeq := x.keySeq })
            let d := d.classify ns m
            if m.lbaf = n.lbaf ∧ m.pi = n.pi then d else d.nsChanged ns n.attached) d
        d.imageFor (.format cs))

def execFormatNvm (cs : Nat) (s : State) : Host.Outcome State Fault Refusal := .next (s.onDev (formatNvm cs))

/-! ### Sanitize (R446 to R449) -/

/-- The Sanitize action of a command. -/
def CSlot.sanact (s : CSlot) : Nat := bitsOf (s.dw 10) 2 0

/-- A Sanitize row runs where its command names the row's action. -/
def Dev.sanRow (d : Dev) (cs act : Nat) (f : Dev → CSlot → Dev) : Dev :=
  match d.seqSlot cs 0x84 with
  | none => d
  | some s0 =>
    let a := s0.sanact
    if a = act ∨ (act = 4 ∧ a ≠ 1 ∧ a ≠ 2) then
      d.seqRun cs 0x84 (fun d s => if s.sanact ≠ act then d.complete cs cqeInvalidField else f d s)
    else d

/-- Starting an action: every namespace's keys change, and the command completes once the image says that it runs. -/
def Dev.sanStart (d : Dev) (cs : Nat) (s : CSlot) : Dev :=
  let d := { d with san := { d.san with
    action := s.sanact, running := true, failure := false, ndas := bitOf (s.dw 10) 9, ause := bitOf (s.dw 10) 3
    cdw10 := BitVec.ofNat 32 (s.dw 10), status := 2 } }
  let d := (d.tc.nss.map (fun (x : Nat × Nsp) => x.1)).foldl
    (fun (d : Dev) (ns : Nat) => (d.keyChange ns).modNsp ns (fun x => { x with ndasReset := false })) d
  d.imageFor (.sanitize cs)

/-- SANITIZE_CRYPTO_ERASE; actions that are not supported end here too. -/
def sanitizeCryptoErase (cs : Nat) (d : Dev) : Dev := d.sanRow cs 4 (fun d s => d.sanStart cs s)

def execSanitizeCryptoErase (cs : Nat) (s : State) : Host.Outcome State Fault Refusal := .next (s.onDev (sanitizeCryptoErase cs))

/-- SANITIZE_BLOCK_ERASE: Crypto Erase first; the erasure of the blocks ends with the operation. -/
def sanitizeBlockErase (cs : Nat) (d : Dev) : Dev := d.sanRow cs 2 (fun d s => d.sanStart cs s)

def execSanitizeBlockErase (cs : Nat) (s : State) : Host.Outcome State Fault Refusal := .next (s.onDev (sanitizeBlockErase cs))

/-- SANITIZE_EXIT_FAILURE_MODE (R448): where the failed Sanitize allowed it. -/
def sanitizeExitFailureMode (cs : Nat) (d : Dev) : Dev :=
  d.sanRow cs 1 (fun d _ =>
    if !d.san.failure then d.complete cs cqeOk
    else if !d.san.ause then d.complete cs cqeSanitizeFailed
    else (({ d with san := { d.san with failure := false, action := 1 } }.newImage).ringSettle).complete cs cqeOk)

def execSanitizeExitFailureMode (cs : Nat) (s : State) : Host.Outcome State Fault Refusal :=
  .next (s.onDev (sanitizeExitFailureMode cs))

/-- A LOST or RELEASED member that could not be erased: its Gathering is not in service (R448). -/
def Dev.memberUnerased (d : Dev) : Bool :=
  d.quires.any (fun (x : Nat × Quire) => x.2.members.any (fun (m : Nat × Member) =>
    (decide (m.2.st = .lost) || decide (m.2.st = .released)) && (match m.2.slot with
      | some s => decide ((d.link s).st ≠ .active)
      | none => true)))

/-- Block Erase: every block is erased and the metadata is written afresh, with empty maps (R446). -/
def Dev.eraseAll (d : Dev) : Dev :=
  let sbs := d.tc.sbs.map (fun (x : Nat × Superblock) =>
    (x.1, if x.2.st = .retired then x.2 else { Superblock.fresh with wear := x.2.wear + 1 }))
  { d with
    tc := { d.tc with sbs := sbs, summ := [], furrows := [], jslots := [], jrnl := [], programmed := d.tc.head, segs := []
                      segBusy := none, regions := [], unpacked := [] }
    ring := { d.ring with cur := [], old := [] } }

/-- SANITIZE_DONE: the operation ends with a durable image, in failure mode where R448 says so. -/
def sanitizeDone (ok : Bool) (d : Dev) : Dev :=
  if !d.san.running || d.ring.waits.isSome || !d.ring.durable then d
  else
    let ok := ok && !d.memberUnerased && d.ring.old.isEmpty
    (if d.san.action = 2 then d.eraseAll else d).imageFor (.sanEnd ok)

def execSanitizeDone (ok : Bool) (s : State) : Host.Outcome State Fault Refusal := .next (s.onDev (sanitizeDone ok))

end Sys2Proof.Machine
end

