-- ==== Sys2Proof/Machine/Dram.lean ====
section
/-! DEFINITION. The DRAM subsystem (chapter 13): interleave, training, the scheduler's command cycle, refresh, error
handling, the fresh bitmap, patrol, retirement and the injector. -/

namespace Sys2Proof.Machine

/-! ### Channels, ranks and addresses (R351 to R353) -/

/-- A channel. -/
def Dev.chan (d : Dev) (c : Nat) : DChan := d.dmc.chans.get .reset c

/-- Changing a channel. -/
def Dev.modChan (d : Dev) (c : Nat) (f : DChan → DChan) : Dev :=
  { d with dmc := { d.dmc with chans := d.dmc.chans.mod .reset c f } }

/-- A rank of a channel. -/
def Dev.rank (d : Dev) (c r : Nat) : DRank := (d.chan c).ranks.get .reset r

/-- Changing a rank. -/
def Dev.modRank (d : Dev) (c r : Nat) (f : DRank → DRank) : Dev :=
  d.modChan c (fun x => { x with ranks := x.ranks.mod .reset r f })

/-- Ranks per channel, as section 0x0004 declares them. -/
def Dev.rankCount (d : Dev) : Nat := fieldAt (d.section 4) 2 1

/-- Whether a channel is in service. -/
def Dev.inService (d : Dev) (c : Nat) : Bool := decide ((d.chan c).st = .inService)

/-- Local pages of a channel that the interleave uses: all but the spare area of 1 MiB (R352). -/
def Dev.localPages (d : Dev) : Nat := d.chanBytes / 4096 - 256

/-- A local page's place in its channel (R353). -/
def Dev.placeOf (d : Dev) (page word : Nat) : DWord :=
  let r := max 1 d.rankCount
  ⟨page, word, word % 2, page / 32 % r, page % 8, page / 8 % 4, page / (128 * r)⟩

/-- The 4 local pages of the row that a local page lies in (R353). -/
def Dev.rowPages (d : Dev) (page : Nat) : List Nat :=
  let r := max 1 d.rankCount
  (List.range 4).map (fun k => page / (128 * r) * (128 * r) + 32 * r * k + page % (32 * r))

/-- The 2 MiB granule of a local page: its system page is N × local page + the channel's place in the interleave (R352). -/
def Dev.granuleOf (d : Dev) (c page : Nat) : Nat := (page * d.dmc.order.length + d.dmc.order.idxOf c) / 512

/-- A word's number in its granule. -/
def Dev.wordInGranule (d : Dev) (c page word : Nat) : Nat :=
  64 * ((page * d.dmc.order.length + d.dmc.order.idxOf c) % 512) + word

/-- Whether a granule is FRESH: no part of it written since training (R367). -/
def Dmc.fresh (m : Dmc) (g : Nat) : Bool := !(m.used.contains g) && !(m.fills.has g)

/-- Whether a word reads without touching the devices: a word of a FRESH granule, or of a FILLING one that is neither written
nor filled. -/
def Dev.readsZero (d : Dev) (c page word : Nat) : Bool :=
  let g := d.granuleOf c page
  d.dmc.fresh g || (match d.dmc.fills.get? g with
    | some m => !(bitOf m (d.wordInGranule c page word))
    | none => false)

/-- Every granule FRESH and every fill slot free, as after training or when a DR domain has gone OFF (R354, R367). -/
def Dev.allFresh (d : Dev) : Dev := { d with dmc := { d.dmc with used := [], fills := [] } }

/-- The payload fields of an address (R363). -/
def DWord.fields (c : Nat) (w : DWord) : List PField :=
  [.num 1 c, .num 4 w.page, .num 1 w.word, .num 1 w.subch, .num 1 w.rank, .num 1 w.bg, .num 1 w.bank, .num 4 w.row]

/-- A register write that holds an out-of-range value (R374). -/
def Dev.dmcBad (d : Dev) (a : Nat) : Dev := d.ev evDmcParamBad 0 [.num 4 a]

/-! ### Training (R354, R370) -/

/-- What keys the retirement list: the digest of the population section, dram_id included. -/
def Dev.listKeyNow (d : Dev) : Digest := Config.sha384 (d.section 4)

/-- The lowest page of a channel's spare area that no remap entry uses. -/
def DChan.spareFree (x : DChan) : Option Nat := (List.range 256).find? (fun p => !(x.remap.any (fun e => e.2 = p)))

/-- A remap entry for a local page; an entry already there stays, and a full table takes none. -/
def DChan.remapPage (x : DChan) (page : Nat) : DChan :=
  if x.remap.has page then x
  else
    match x.spareFree with
    | some p => { x with remap := x.remap.ins page p }
    | none => x

/-- Adding pages of a channel to the retirement list. -/
def Dev.listPages (d : Dev) (c : Nat) (pages : List Nat) : Dev :=
  { d with dmc := { d.dmc with
    retired := d.dmc.retired ++ (pages.filter (fun p => !(d.dmc.retired.contains (c, p)))).map (fun p => (c, p)) } }

/-- Step 7: listed pages whose row was not soft-repaired take remap entries; a list under another key is discarded. -/
def Dev.applyRetireList (d : Dev) (c : Nat) (list : Option (Digest × List Nat)) (soft : List Nat) : Dev :=
  let key := d.listKeyNow
  let stale := match list with
    | some (k, _) => decide (k ≠ key) && decide (d.dmc.listKey ≠ key)
    | none => false
  let d := { d with dmc := { d.dmc with listKey := key } }
  let d := if stale then d.ev evDmcRetireListDiscarded 0 [] else d
  match list with
  | some (k, pages) =>
    if k = key then
      let sppr := bitOf (fieldAt (d.section 4) 5 1) 0
      let rest := pages.filter (fun p => !(sppr && soft.contains p))
      (d.listPages c pages).modChan c (fun x => rest.foldl (fun (x : DChan) (p : Nat) => x.remapPage p) x)
    else d
  | none => d

/-- When no channel trains any more: the interleave is fixed, every granule is FRESH, and fewer than 6 channels end the
boot (R88, R354, Table 02-17). -/
def trainingOver (s : State) : State :=
  let d := s.dev
  if d.dmc.chans.any (fun x => decide (x.2.st = .training)) then s
  else
    let order := (d.dmc.chans.filter (fun x => decide (x.2.st = .inService))).map (·.1)
    let d := { d.allFresh with dmc := { d.allFresh.dmc with order := order, patrolAt := 0, patrolSince := d.now } }
    if order.length < 6 then { s with dev := (d.bootFail 0x30 0).halt s.fuse 0x05 }
    else { s with dev := { d with boot := { d.boot with dramDone := true } } }

/-- DRAM_TRAINING_DONE: a channel in training is trained or excluded until the next boot. A channel that trains after the
interleave is fixed does not rejoin it (R355) and reads as excluded. -/
def dramTrainingDone (c : Nat) (res : TrainRes) (s : State) : State :=
  let d := s.dev
  if (d.chan c).st ≠ .training then s
  else
    let boot : Bool := decide (d.modes.mode = .assemble) && !d.boot.dramDone
    let d := match res with
      | .trained list soft =>
        (d.applyRetireList c list soft).modChan c (fun x => { x with st := if boot then .inService else .failed, step := 7 })
      | .failed step =>
        (d.modChan c (fun x => { x with st := .failed, step := min 7 (max 1 step) })).ev evDmcTrainFail 0
          [.num 1 c, .num 1 (min 7 (max 1 step))]
    if boot then trainingOver { s with dev := d } else { s with dev := d }

def execDramTrainingDone (c : Nat) (res : TrainRes) (s : State) : Host.Outcome State Fault Refusal :=
  .next (dramTrainingDone c res s)

/-! ### Refresh (R359) -/

/-- A new owed count: at 4 the refresh is forced. -/
def Dev.owe (d : Dev) (c r n : Nat) : Dev :=
  let x := d.rank c r
  let d := if 4 ≤ n ∧ x.forced = false then d.count aDmcRefForced 0 32 else d
  d.modRank c r (fun x => { x with owed := n, forced := x.forced || decide (4 ≤ n) })

/-- REFRESH_INTERVAL: tREFI passed without a refresh issued for it. The register holds 3 bits. -/
def refreshInterval (c r : Nat) (d : Dev) : Dev :=
  if d.inService c && decide (r < d.rankCount) then d.owe c r (min 7 ((d.rank c r).owed + 1)) else d

def execRefreshInterval (c r : Nat) (s : State) : Host.Outcome State Fault Refusal := .next (s.onDev (refreshInterval c r))

/-- MR4_POLL: a crossing above 85 °C doubles the owed count, a crossing back halves it, rounded up. -/
def mr4Poll (c r : Nat) (hot : Bool) (d : Dev) : Dev :=
  if d.inService c && decide (r < d.rankCount) then
    let x := d.rank c r
    let d := d.modRank c r (fun x => { x with hot := hot })
    if hot && !x.hot then d.owe c r (min 7 (2 * x.owed))
    else if !hot && x.hot then d.modRank c r (fun x => { x with owed := (x.owed + 1) / 2 })
    else d
  else d

def execMr4Poll (c r : Nat) (hot : Bool) (s : State) : Host.Outcome State Fault Refusal := .next (s.onDev (mr4Poll c r hot))

/-- A refresh issued on a rank. -/
def Dev.refresh (d : Dev) (c r : Nat) : Dev :=
  d.modRank c r (fun x => { x with owed := x.owed - 1, forced := x.forced && decide (1 < x.owed) })

/-! ### Ports and classes (R356, R358) -/

/-- Whether a code names a port of Table 13-4. -/
def dmcPort (p : Nat) : Bool :=
  decide (p ≤ 8) || (decide (0x10 ≤ p) && decide (p ≤ 0x15)) || (decide (0x18 ≤ p) && decide (p ≤ 0x20))
  || (decide (0x28 ≤ p) && decide (p ≤ 0x2B))

/-- The ports of Table 13-4 that are marked fixed. -/
def dmcFixed (p : Nat) : Bool := decide (p ≤ 8) || p = 0x28 || p = 0x29 || p = 0x2B

/-- The class a port has until DMC_PORT_CFG changes it. -/
def dmcClass0 (p : Nat) : DClass :=
  if p ≤ 8 then .rt
  else if 0x13 ≤ p ∧ p ≤ 0x15 then .bulk
  else if 0x28 ≤ p ∧ p ≤ 0x2A then .bg
  else .lat

/-- A port's state. -/
def Dev.dport (d : Dev) (p : Nat) : DPort := d.dmc.ports.get .reset p

/-- Changing a port's state. -/
def Dev.modDport (d : Dev) (p : Nat) (f : DPort → DPort) : Dev :=
  { d with dmc := { d.dmc with ports := d.dmc.ports.mod .reset p f } }

/-- A port's class. -/
def Dev.dclass (d : Dev) (p : Nat) : DClass := (d.dport p).cls.getD (dmcClass0 p)

/-- A request's class: RT once promoted (R357). -/
def Dev.reqClass (d : Dev) (q : DReq) : DClass := if q.promoted then .rt else d.dclass q.port

/-- A FIFO level of an RT port: panic begins below the weir while the port streams, and ends at twice the weir or with the
stream (R358). -/
def Dev.fifoLevel (d : Dev) (p bytes : Nat) (stream : Bool) : Dev :=
  let x := d.dport p
  let w := 1024 * x.weir
  let panic := if x.panic then stream && decide (bytes < 2 * w) else stream && decide (bytes < w)
  if dmcPort p && decide (d.dclass p = .rt) then
    let d := if panic && !x.panic then d.count aDmcPanic 0 32 else d
    d.modDport p (fun x => { x with fifo := bytes, stream := stream, panic := panic })
  else d

/-! ### Error handling (R362 to R366) -/

/-- A corrected read: an entry of the channel's log, or a count where it holds 64, and EV_DMC_CE (R363). -/
def Dev.ceEntry (d : Dev) (c : Nat) (w : DWord) (dev mask : Nat) : Dev :=
  let d := if (d.chan c).log.length < 64 then d.modChan c (fun x => { x with log := x.log ++ [⟨w, dev, mask⟩] })
    else d.count (aDmcCeLog c) 8 16
  d.ev evDmcCe 0 (w.fields c ++ [.num 1 dev, .num 1 mask])

/-- Storing a word poisoned. -/
def Dev.poisonWord (d : Dev) (c page word : Nat) : Dev :=
  d.modChan c (fun x => { x with poison := if x.poison.contains (64 * page + word) then x.poison else (64 * page + word) :: x.poison })

/-- A read of a word that is poisoned or uncorrectable: counted, and an uncorrectable one recorded with its address; `src` is
1 for the patrol (R364, R368). -/
def Dev.ueRead (d : Dev) (c : Nat) (w : DWord) (stored : Bool) (src : Nat) : Dev :=
  if stored then d.count aDmcUeCnt 16 16
  else (d.count aDmcUeCnt 0 16).ev evDmcUe 0 (w.fields c ++ [.num 1 src])

/-- What a read found (R362). -/
def Dev.eccFound (d : Dev) (c : Nat) (w : DWord) (e : EccResult) (src : Nat) : Dev :=
  match e with
  | .clean => d
  | .corrected dev mask => d.ceEntry c w (dev % 10) (mask % 256)
  | .poisoned => d.ueRead c w true src
  | .uncorrectable => d.ueRead c w false src

/-- DRAM_UNCORRECTABLE_READ: the word is delivered with a poison mark, which acts where Table 13-5 says. Host data DMA ends
its command; the journal port's slot parity is recomputed from its row's leaves (R240). A map walk waits for MAP_WALK_DONE,
and the other consumers carry the mark in the data. -/
def dramUncorrectable (c : Nat) (w : DWord) (rd : DramReader) (d : Dev) : Dev :=
  if !(d.inService c) then d
  else
    let d := d.ueRead c w ((d.chan c).poison.contains (64 * w.page + w.word)) 0
    match rd with
    | .hostDma cs => if d.hg.slots.has cs then (d.dropWork cs).complete cs cqeDataTransfer else d
    | .journal f =>
      match d.tc.jslots.get? f with
      | some j => d.ev evSigJournalRecompute 0 [.num 1 j.quire, .num 4 j.sb, .num 4 j.row]
      | none => d
    | .encode _ | .core _ | .mapWalk _ | .other => d

def execDramUncorrectableRead (c : Nat) (w : DWord) (rd : DramReader) (s : State) : Host.Outcome State Fault Refusal :=
  .next (s.onDev (dramUncorrectable c w rd))

/-! ### The command cycle (R357) -/

/-- A request's local page and word. -/
def DReq.page (q : DReq) : Nat := q.word / 64

/-- A request that can be issued: a first write to a FRESH granule needs one of the 16 fill slots (R367). -/
def Dev.reqReady (d : Dev) (c : Nat) (q : DReq) : Bool :=
  !(q.isWrite && d.dmc.fresh (d.granuleOf c q.page) && decide (16 ≤ d.dmc.fills.length))

/-- The oldest of a list by arrival. -/
def oldestReq : List DReq → Option DReq
  | [] => none
  | q :: l => match oldestReq l with
    | none => some q
    | some x => some (if x.arrival < q.arrival then x else q)

/-- Requests of a list behind which no older request of their port to their word waits (R357). -/
def inArrivalOrder (l : List DReq) : List DReq :=
  l.filter (fun q => !(l.any (fun x => decide (x.port = q.port) && decide (x.word = q.word) && decide (x.arrival < q.arrival))))

/-- pick() over the ready requests of a class, with the row hits already served past an older request: the request and the
new count. -/
def pickReq (cap hits : Nat) (l : List DReq) : Option (DReq × Nat) :=
  match oldestReq l with
  | none => none
  | some o =>
    match (if o.rowHit then none else oldestReq (l.filter (·.rowHit))) with
    | some h => if hits < cap then some (h, hits + 1) else some (o, 0)
    | none => some (o, 0)

/-- A class's number. -/
def DClass.num : DClass → Nat
  | .rt => 0 | .lat => 1 | .bulk => 2 | .bg => 3

/-- Taking a write to its granule: the fill slot, the map of its words, and the granule once every word is written or filled
(R367). -/
def Dev.writeGranule (d : Dev) (c page word : Nat) : Dev :=
  let g := d.granuleOf c page
  if d.dmc.used.contains g then d
  else
    let m := d.dmc.fills.get 0 g
    let b := d.wordInGranule c page word
    let m := if bitOf m b then m else m + 2 ^ b
    if m = 2 ^ 32768 - 1 then { d with dmc := { d.dmc with fills := d.dmc.fills.del g, used := g :: d.dmc.used } }
    else { d with dmc := { d.dmc with fills := d.dmc.fills.ins g m } }

/-- A write burst spends the injector's half of its subchannel (R371). -/
def Dev.spendInjector (d : Dev) (c sub : Nat) : Dev :=
  if d.reg aDmcInjCtrl 3 0 = c then
    if sub = 0 then { d with dmc := { d.dmc with armed0 := false } } else { d with dmc := { d.dmc with armed1 := false } }
  else d

/-- Issuing a request. A write of a whole word clears its mark; a partial one stores what its merge's read found (R365,
R366). -/
def Dev.issueReq (d : Dev) (c sub : Nat) (q : DReq) : Dev :=
  let d := { d with dmc := { d.dmc with waiting := d.dmc.waiting.filter (fun w => w.req.id ≠ q.id) } }
  let page := q.page
  let word := q.word % 64
  if !q.isWrite then d
  else
    let zero := d.readsZero c page word
    let clean := fun (x : DChan) => { x with poison := x.poison.filter (· ≠ q.word) }
    let d := match q.part with
      | none => d.modChan c clean
      | some e =>
        if zero then d.modChan c clean
        else
          let d := d.eccFound c (d.placeOf page word) e 0
          match e with
          | .clean | .corrected _ _ => d.modChan c clean
          | .poisoned | .uncorrectable => d.poisonWord c page word
    (d.writeGranule c page word).spendInjector c sub

/-- The requests that wait at a rank of a subchannel. -/
def Dev.reqsAt (d : Dev) (c sub r : Nat) : List DReq :=
  (d.dmc.waiting.filter (fun w => decide (w.ch = c) && decide (w.sub = sub) && decide (w.req.rank = r))).map (·.req)

/-- The key of a rank's count of row hits for a class. -/
def hitKey (c sub r : Nat) (k : DClass) : Nat := 16 * c + 8 * sub + 4 * r + k.num

/-- The first class with a request that can be issued, and its pick. -/
def Dev.pickClass (d : Dev) (c sub r : Nat) (l : List DReq) : Option (DClass × DReq × Nat) :=
  [DClass.rt, .lat, .bulk, .bg].findSome? (fun k =>
    (pickReq (d.reg aDmcCtrl 19 16) (d.dmc.hits.get 0 (hitKey c sub r k)) (l.filter (fun q => d.reqClass q = k))).map
      (fun x => (k, x.1, x.2)))

/-- The scheduler's choice for a rank of a subchannel. -/
def Dev.schedule (d : Dev) (c sub r : Nat) : Dev :=
  let x := d.rank c r
  if x.forced then if sub = 0 then d.refresh c r else d
  else
    let l := (inArrivalOrder (d.reqsAt c sub r)).filter (fun (q : DReq) => d.reqReady c q)
    match oldestReq (l.filter (fun q => (d.dport q.port).panic)) with
    | some q => d.issueReq c sub q
    | none =>
      match d.pickClass c sub r l with
      | some (k, q, n) =>
        let d := { d with dmc := { d.dmc with hits := d.dmc.hits.put 0 (hitKey c sub r k) n } }
        d.issueReq c sub q
      | none => if 0 < x.owed ∧ sub = 0 then d.refresh c r else d

/-- A request that arrives waits; a read that touches no device is answered with zeros at once (R367). -/
def Dev.reqArrives (d : Dev) (c sub : Nat) (q : DReq) : Dev :=
  if !(dmcPort q.port) || d.dmc.waiting.any (fun w => w.req.id = q.id) || decide (64 * d.localPages ≤ q.word) then d
  else if !q.isWrite && d.readsZero c q.page (q.word % 64) then d
  else { d with dmc := { d.dmc with waiting := d.dmc.waiting ++ [⟨c, sub, { q with promoted := false }⟩] } }

/-- DRAM_COMMAND_CYCLE: what arrived and the FIFO levels are taken, and the scheduler makes one choice. -/
def dramCycle (c sub r : Nat) (arrivals : List DReq) (fifos : List (Nat × Nat × Bool)) (d : Dev) : Dev :=
  if d.inService c && decide (sub < 2) && decide (r < d.rankCount) then
    let d := arrivals.foldl (fun (d : Dev) (q : DReq) => if q.rank = r then d.reqArrives c sub q else d) d
    let d := fifos.foldl (fun (d : Dev) (f : Nat × Nat × Bool) => d.fifoLevel f.1 f.2.1 f.2.2) d
    d.schedule c sub r
  else d

def execDramCommandCycle (c sub r : Nat) (arrivals : List DReq) (fifos : List (Nat × Nat × Bool)) (s : State) :
    Host.Outcome State Fault Refusal :=
  .next (s.onDev (dramCycle c sub r arrivals fifos))

/-- DRAM_REQUEST_AGE_LIMIT: a request that has waited longer than age_limit is promoted to RT. -/
def dramAgeLimit (id : Nat) (d : Dev) : Dev :=
  { d with dmc := { d.dmc with waiting := d.dmc.waiting.map (fun (w : DWait) =>
    if w.req.id = id ∧ w.req.arrival + 100 * d.reg aDmcCtrl 15 8 < d.now then { w with req := { w.req with promoted := true } }
    else w) } }

def execDramRequestAgeLimit (id : Nat) (s : State) : Host.Outcome State Fault Refusal := .next (s.onDev (dramAgeLimit id))

/-- FRESH_GRANULE_FILLED: the granule leaves the bitmap as written and its slot is freed (R367). -/
def granuleFilled (g : Nat) (d : Dev) : Dev :=
  if d.dmc.fills.has g then
    { d with dmc := { d.dmc with fills := d.dmc.fills.del g, used := g :: d.dmc.used } }
  else d

def execFreshGranuleFilled (g : Nat) (s : State) : Host.Outcome State Fault Refusal := .next (s.onDev (granuleFilled g))

/-! ### Patrol (R368) -/

/-- The next system word that the patrol reads at or after `w`: granules that are FRESH are passed over. -/
def Dmc.patrolNext (m : Dmc) (w : Nat) : Option Nat :=
  let l := m.used ++ m.fills.map (·.1)
  if l.contains (w / 32768) then some w
  else
    match (l.filter (fun g => decide (w / 32768 < g))).min? with
    | some g => some (32768 * g)
    | none => none

/-- The end of a patrol pass: one that took more than 24 h is recorded. -/
def Dev.patrolEnd (d : Dev) : Dev :=
  let late := decide (d.dmc.patrolSince + 86400000000000 < d.now)
  let d := { d with dmc := { d.dmc with patrolAt := 0, patrolSince := d.now, patrolLate := late } }
  if late then d.ev evDmcPatrolLate 0 [] else d

/-- DRAM_PATROL_TICK: the word where the patrol stands is read; the pass ends after the last one. Patrol pauses in IDLE and
HOLDUP. -/
def patrolTick (e : EccResult) (d : Dev) : Dev :=
  if d.reg aDmcCtrl 0 0 = 0 ∨ d.modes.mode = .idle ∨ d.modes.mode = .holdup ∨ d.dmc.order = [] then d
  else
    match d.dmc.patrolNext d.dmc.patrolAt with
    | none => d.patrolEnd
    | some w =>
      let n := d.dmc.order.length
      let c := (d.dmc.order[w / 64 % n]?).getD 0
      let page := w / 64 / n
      let d := if d.readsZero c page (w % 64) then d
        else
          let d := d.eccFound c (d.placeOf page (w % 64)) e 1
          match e with
          | .uncorrectable => d.poisonWord c page (w % 64)
          | _ => d
      let d := { d with dmc := { d.dmc with patrolAt := w + 1 } }
      match d.dmc.patrolNext (w + 1) with
      | none => d.patrolEnd
      | some _ => d

def execDramPatrolTick (e : EccResult) (s : State) : Host.Outcome State Fault Refusal := .next (s.onDev (patrolTick e))

/-! ### Retirement and repair (R369, R370) -/

/-- The result field of DMC_FIX_CMD, with the command's fields stored. -/
def Dev.fixDone (d : Dev) (v : W32) (result : Nat) : Dev :=
  { (d.setCsr aDmcFixCmd (v &&& 0x3F)) with dmc := { (d.setCsr aDmcFixCmd (v &&& 0x3F)).dmc with fixResult := result } }

/-- A DMC_FIX_CMD write with go for operation `op`: checks the channel and the page that DMC_FIX names. -/
def Dev.fixCmd (d : Dev) (v : W32) (op : Nat) (f : Dev → Nat → Nat → Nat → Dev) : Dev :=
  let c := bitsOf v.toNat 3 0
  if bitsOf v.toNat 5 4 ≠ op ∨ bitOf v.toNat 6 = false then d
  else if 11 < c then d.dmcBad aDmcFixCmd
  else if !(d.inService c) then d.fixDone v 3
  else if d.localPages ≤ d.reg aDmcFix 23 0 then d.dmcBad aDmcFixCmd
  else f d c (d.reg aDmcFix 23 0) (d.reg aDmcFix 29 24)

/-- DMC_REWRITE_WORD: the word is read, corrected, written and read back. A clean read-back makes the error soft; any other
makes the row hard, and its pages join the retirement list. -/
def rewriteWord (v : W32) (back : EccResult) (d : Dev) : Dev :=
  d.fixCmd v 1 (fun d c page word =>
    match back with
    | .clean => (d.fixDone v 0).ev evDmcCeSoft 0 ((d.placeOf page word).fields c)
    | e =>
      let d := d.eccFound c (d.placeOf page word) e 0
      let d := if e = .uncorrectable then d.poisonWord c page word else d
      (d.listPages c (d.rowPages page)).fixDone v 1)

def execDmcRewriteWord (v : W32) (back : EccResult) (s : State) : Host.Outcome State Fault Refusal :=
  .next (s.onDev (rewriteWord v back))

/-- DMC_RETIRE_PAGE: the page is copied to a spare page and redirected; with 256 entries valid it is refused. -/
def retirePage (v : W32) (d : Dev) : Dev :=
  d.fixCmd v 2 (fun d c page _ =>
    if (d.chan c).remap.has page then d.fixDone v 0
    else if 256 ≤ (d.chan c).remap.length then (d.fixDone v 2).ev evDmcRemapFull 0 [.num 1 c, .num 4 page]
    else (d.modChan c (fun x => x.remapPage page)).fixDone v 0)

def execDmcRetirePage (v : W32) (s : State) : Host.Outcome State Fault Refusal := .next (s.onDev (retirePage v))

/-- DMC_RELEASE_REMAP: the page's remap entry is released. -/
def releaseRemap (v : W32) (d : Dev) : Dev :=
  d.fixCmd v 3 (fun d c page _ => (d.modChan c (fun x => { x with remap := x.remap.del page })).fixDone v 0)

def execDmcReleaseRemap (v : W32) (s : State) : Host.Outcome State Fault Refusal := .next (s.onDev (releaseRemap v))

/-- A row of a subchannel's rank, as firmware remembers it. -/
def DWord.rowKey (w : DWord) : Nat := 32 * w.row + 8 * w.bank + w.bg

/-- Firmware's policy on an entry it has popped (R369): a second error in the row within 24 h makes the row hard, and errors
of one device in more than 16 rows of a rank within 1 h mark the device failed, whose rows are not retired. -/
def Dev.cePolicy (d : Dev) (c : Nat) (e : CeEnt) : Dev :=
  let dev := 10 * e.w.subch + e.dev
  let row := e.w.rowKey
  let unit := 2 * c + e.w.rank
  let day := d.dmc.seen.filter (fun x => decide (d.now ≤ x.time + 86400000000000))
  let again := day.any (fun x => decide (x.ch = c) && decide (x.rank = e.w.rank) && decide (x.row = row)
    && decide (x.dev / 10 = e.w.subch))
  let day : List CeSeen := ⟨d.now, c, e.w.rank, row, dev⟩ :: day
  let d := { d with dmc := { d.dmc with seen := day } }
  let rows := ((day.filter (fun (x : CeSeen) => decide (x.ch = c) && decide (x.rank = e.w.rank) && decide (x.dev = dev)
    && decide (d.now ≤ x.time + 3600000000000))).map (·.row)).dedup
  if d.dmc.devFailed.contains (unit, dev) then d
  else if 16 < rows.length then
    ({ d with dmc := { d.dmc with devFailed := (unit, dev) :: d.dmc.devFailed } }.ev evDmcDeviceFailed 0
      [.num 1 c, .num 1 e.w.subch, .num 1 e.w.rank, .num 1 e.dev]).promiseEval
  else if again then d.listPages c (d.rowPages e.w.page)
  else d

/-- CE_LOG_POP: the oldest entry leaves the log and firmware applies its policy to it. -/
def ceLogPop (c : Nat) (d : Dev) : Dev :=
  match (d.chan c).log with
  | [] => d
  | e :: rest => (d.modChan c (fun x => { x with log := rest })).cePolicy c e

def execCeLogPop (c : Nat) (s : State) : Host.Outcome State Fault Refusal := .next (s.onDev (ceLogPop c))

/-! ### The injector (R371, R372) -/

/-- INJECT_ARM: the injector arms the halves of the mask that are not 0, unless lock is set. -/
def injectArm (d : Dev) : Dev :=
  if d.injLocked then d
  else
    let m := (d.csrW aDmcInjMask).toNat + 2 ^ 32 * (d.csrW (aDmcInjMask + 4)).toNat + 2 ^ 64 * d.reg (aDmcInjMask + 8) 15 0
    let d := { d with dmc := { d.dmc with armed0 := decide (bitsOf m 39 0 ≠ 0), armed1 := decide (bitsOf m 79 40 ≠ 0) } }
    d.ev evDmcInject 0 [.num 1 (d.reg aDmcInjCtrl 3 0)]

def execInjectArm (s : State) : Host.Outcome State Fault Refusal := .next (s.onDev injectArm)

/-- INJECT_LOCK: the Warden sets lock, which cancels an injection that is armed. -/
def injectLock (d : Dev) : Dev :=
  let d := d.setField aDmcInjCtrl 10 10 1
  { d with dmc := { d.dmc with armed0 := false, armed1 := false } }

def execInjectLock (s : State) : Host.Outcome State Fault Refusal := .next (s.onDev injectLock)

end Sys2Proof.Machine
end

