-- ==== Sys2Proof/Machine/Domains.lean ====
section
/-! DEFINITION. Power-domain events (R18 to R24, R79 to R84, R347): what a domain loses with its power and what it starts
with, requests, ramps, drains, gating, failures, entry to IDLE, the lockstep pairs' roles, and the minimum service set. -/

namespace Sys2Proof.Machine

/-! ### Lockstep pairs' roles (R407, R410) -/

/-- A lockstep pair. -/
def Dev.lp (d : Dev) (k : Nat) : LPair := d.fc.pairs.get .reset k

/-- Changing a pair. -/
def Dev.modLp (d : Dev) (k : Nat) (f : LPair → LPair) : Dev :=
  { d with fc := { d.fc with pairs := d.fc.pairs.mod .reset k f } }

/-- The TC domain of a pair. -/
def tcDom (k : Nat) : Nat := 9 + k / 2

/-- The pairs whose TC domain is powered: ON, GATED or in TRANSITION towards ON. -/
def Dev.poweredPairs (d : Dev) : List Nat := (List.range 8).filter (fun k => d.domUsable (tcDom k))

/-- The healthy pairs that item 2 of Table 03-8 counts: a pair in its self-test counts until the test fails. -/
def Dev.healthyPairs (d : Dev) : List Nat := d.poweredPairs.filter (fun k => decide ((d.lp k).st ≠ .retired))

/-- The standby pair. -/
def Dev.standby (d : Dev) : Option Nat := (List.range 8).find? (fun k => decide ((d.lp k).st = .standby))

/-- Whether the lockstep pairs run: from ASSEMBLE on, until HALTED. -/
def pairsRun (m : Mode) : Bool := hostMode m || m = .assemble || m = .holdup

/-- standby_absent follows the standby (R412). -/
def Dev.standbyCond (d : Dev) : Dev := if pairsRun d.modes.mode then d.setCond 11 d.standby.isNone else d

/-- A pair that takes no part is OFF; one in a powered domain that is not retired, in self-test or taking over is the standby if
it is the highest-numbered of them, and active otherwise. -/
def Dev.assignRoles (d : Dev) : Dev :=
  let free := d.poweredPairs.filter (fun k => decide ((d.lp k).st ≠ .retired) && decide ((d.lp k).st ≠ .selfTest) && decide ((d.lp k).st ≠ .taking))
  let top := free.max?
  let d : Dev := (List.range 8).foldl (fun (d : Dev) (k : Nat) =>
    if free.contains k then d.modLp k (fun x => { x with st := if top = some k then .standby else .active, takes := none })
    else if (d.lp k).st = .retired then d
    else if d.domUsable (tcDom k) then d
    else d.modLp k (fun x => { x with st := .off, takes := none })) d
  d.standbyCond

/-- A change of the TC domains: while a takeover or a self-test runs, pairs newly powered are active and the rest keep their
roles. -/
def Dev.pairsMoved (d : Dev) : Dev :=
  if (List.range 8).any (fun k => decide ((d.lp k).st = .selfTest) || decide ((d.lp k).st = .taking)) then
    let d : Dev := (List.range 8).foldl (fun (d : Dev) (k : Nat) =>
      if (d.lp k).st = .retired then d
      else if d.domUsable (tcDom k) then d.modLp k (fun x => { x with st := if x.st = .off then .active else x.st })
      else d.modLp k (fun x => { x with st := .off, takes := none })) d
    d.standbyCond
  else d.assignRoles

/-! ### The minimum service set (R88, R89) -/

/-- Whether a domain is powered and healthy. -/
def Dev.domGood (d : Dev) (k : Nat) : Bool := d.domUsable k && !(d.dom k).failed

/-- The first item of Table 03-8 that fails, `k` being a domain taken as lost. Item 7 is judged by the members of superblocks
with valid data that are LOST, or at ASSEMBLE have not been admitted. -/
def Dev.minSetWithout (d : Dev) (k : Option Nat) : Option Nat :=
  let up := fun (n : Nat) => d.domGood n && decide (k ≠ some n)
  let reach := fun (x : Quire) (m : Nat) => decide (x.memSt m ≠ .lost) && (match (x.members.get? m).bind (·.slot) with
    | some s => (d.slot s).admitted && decide (k ≠ some (glDom s)) && !(d.dom (glDom s)).failed
    | none => false)
  let item7 := d.quires.all (fun q => (d.sbsOf q.1).all (fun b => decide (b.2.valid = 0)
    || decide (b.2.members.length ≤ (b.2.members.filter (reach q.2)).length + 1)))
  if !(up 3 || up 4) then some 1
  else if (d.healthyPairs.filter (fun p => up (tcDom p))).length < 2 then some 2
  else if !(up 34 || up 35) then some 3
  else if (d.dmc.order.filter (fun c => ((d.chan c).st = .inService || (d.chan c).st = .selfRefresh) && decide (k ≠ some (30 + c / 3)))).length < 6 then some 4
  else if !((List.range 8).any (fun i => up (21 + i))) then some 5
  else if !(up 29) then some 6
  else if !item7 then some 7
  else if !(up 2) then some 8
  else none

/-- The minimum service set as it stands. -/
def Dev.minSet (d : Dev) : Option Nat := d.minSetWithout none

/-! ### What a domain loses with its power (R18) -/

/-- The GL domain's links are DISABLED. Operations already issued stay outstanding (R261), and session secrets and saved
equalisation are kept elsewhere. -/
def Dev.loseGl (d : Dev) (k : Nat) : Dev :=
  ((List.range 8).map (fun i => 8 * (k - 13) + i)).foldl (fun (d : Dev) (s : Nat) => d.linkDisable s false) d

/-- The DR domain's channels lose their contents, and every granule is FRESH again (R367). -/
def Dev.loseDr (d : Dev) (k : Nat) : Dev :=
  let d : Dev := (List.range 3).foldl (fun (d : Dev) (i : Nat) => d.modChan (3 * (k - 30) + i) (fun _ => .reset)) d
  let d := { d with dmc := { d.dmc with waiting := d.dmc.waiting.filter (fun w => decide (w.ch / 3 ≠ k - 30)) } }
  d.allFresh

/-- FAB's own state: the Headgate, the Sluice, the buffer pools, the DRAM scheduler, the Collation control and the main
ledger. -/
def Dev.loseFab (d : Dev) : Dev :=
  let d := { d with hg := .reset, slu := { Slu.reset with kD := d.slu.kD, kR := d.slu.kR, power := d.slu.power }, bpm := .reset, col := .reset }
  let d := { d.allFresh with dmc := { d.allFresh.dmc with ports := [], waiting := [], hits := [] } }
  d.loseLedger

/-- What a domain loses when it goes OFF. -/
def Dev.loseDom (d : Dev) (k : Nat) : Dev :=
  let d := d.loseRegs k
  if k = 2 then d.loseFab
  else if 5 ≤ k ∧ k ≤ 8 then d.colLoseQuad (k - 5)
  else if 9 ≤ k ∧ k ≤ 12 then d.pairsMoved
  else if 13 ≤ k ∧ k ≤ 20 then d.loseGl k
  else if 30 ≤ k ∧ k ≤ 33 then d.loseDr k
  else if k = 34 ∨ k = 35 then
    let d := (d.loseHalf (k - 34)).withdrawHalf (k - 34) true
    if k = 34 then { d with boot := { d.boot with folio := none } } else d
  else d

/-- A domain's state reads OFF: its state is lost and a waiting ramp may start. -/
def Dev.domOff (d : Dev) (k : Nat) : Dev :=
  ((d.modDom k (fun x => { x with st := .off, up := .off, ramp := false, wait := false })).loseDom k).nextRamp

/-- What starts when a domain comes up from OFF: the ledger, the links of powered slots, DRAM training, the buffers of an SRAM
half, and lockstep pairs. -/
def Dev.domStarts (d : Dev) (k : Nat) : Dev :=
  if k = 2 then d.startLedger
  else if 9 ≤ k ∧ k ≤ 12 then d.pairsMoved
  else if 13 ≤ k ∧ k ≤ 20 then
    ((List.range 8).map (fun i => 8 * (k - 13) + i)).foldl (fun (d : Dev) (s : Nat) => d.linkEnable s) d
  else if 30 ≤ k ∧ k ≤ 33 then
    ((List.range 3).map (fun i => 3 * (k - 30) + i)).foldl (fun (d : Dev) (c : Nat) =>
      if bitOf d.popChannels c && decide ((d.chan c).st = .absent) then d.modChan c (fun x => { x with st := .training, step := 1 }) else d) d
  else if k = 34 ∨ k = 35 then
    (List.range 4).foldl (fun (d : Dev) (p : Nat) => d.bpmReady p) (d.withdrawHalf (k - 34) false)
  else d

/-- What wakes with a domain from GATED: DRAM leaves self-refresh owing nothing (R359). -/
def Dev.domWakes (d : Dev) (k : Nat) : Dev :=
  if 30 ≤ k ∧ k ≤ 33 then
    (List.range 3).foldl (fun (d : Dev) (i : Nat) => d.modChan (3 * (k - 30) + i) (fun x =>
      if x.st = .selfRefresh then { x with st := .inService, ranks := x.ranks.map (fun (r : Nat × DRank) => (r.1, { r.2 with owed := 0, forced := false })) } else x)) d
  else d

/-- The links of a GL domain that is to be gated ask for LOW_POWER once they are idle (R290). -/
def Dev.askLowPower (d : Dev) (k : Nat) : Dev :=
  if 13 ≤ k ∧ k ≤ 20 ∧ (d.dom k).st = .trans ∧ (d.dom k).up = .gated then
    ((List.range 8).map (fun i => 8 * (k - 13) + i)).foldl (fun (d : Dev) (s : Nat) =>
      let l := d.link s
      if l.st = .active && l.tags.isEmpty && l.replay.isEmpty && !l.lpReq then
        (d.modLink s (fun l => { l with lpReq := true })).sendLctl s false true
      else d) d
  else d

/-- Asking on every GL domain that is being gated. -/
def Dev.askAllLowPower (d : Dev) : Dev := (List.range 8).foldl (fun (d : Dev) (i : Nat) => d.askLowPower (13 + i)) d

/-! ### The sequencer's events (R20 to R22) -/

/-- Insertions accepted in IDLE go on after its exit (R289). -/
def Dev.resumeInsertions (d : Dev) : Dev :=
  ((List.range 64).filter (fun s => (d.slot s).inserting && !(d.slot s).pwren && (d.slot s).present)).foldl
    (fun (d : Dev) (s : Nat) => d.startInsertion s) d

/-- Erases that the entry to IDLE suspended run on. -/
def Dev.resumeErases (d : Dev) : Dev :=
  d.rp.dies.foldl (fun (d : Dev) (x : Nat × Die) =>
    if x.2.susp && decide (x.2.kind = .erase) then d.resumeDie (x.1 / 64) (x.1 % 64) else d) d

/-- Settling after a domain's event: the request shown, the mode, and at the exit from IDLE the insertions and erases that it
held back. -/
def Dev.domSettled (d : Dev) (k : Nat) : Dev :=
  let was := d.modes.mode
  let d := (d.settlePdReq k).settleMode
  if was = .idle ∧ servingMode d.modes.mode = true then d.resumeErases.resumeInsertions.sluPump else d

/-- DOMAIN_POWER_UP_DONE: a ramp or a wake ends, the domain reads ON, what waits for it proceeds and the next waiting ramp
starts. A request for GATED goes on to gate it, as IDLE's column does. -/
def domainPowerUpDone (k : Nat) (d : Dev) : Dev :=
  let x := d.dom k
  if x.st ≠ .trans ∨ x.up ≠ .on then d
  else
    let d := d.modDom k (fun x => { x with st := .on, ramp := false, wait := false, want := false })
    let d := if x.ramp then d.domStarts k else d.domWakes k
    let idleGate := decide (d.modes.mode = .idle) && !d.modes.leaving && decide (d.ruleOf k = .gated)
    let d := if d.pwr.busy = some (k, .gated) || idleGate then (d.gateDom k).askLowPower k else d
    (d.nextRamp.domSettled k).sluPump

def execDomainPowerUpDone (dom : Nat) (s : State) : Host.Outcome State Fault Refusal := .next (s.onDev (domainPowerUpDone dom))

/-- DOMAIN_DRAIN_DONE: the last accepted operation of a domain on its way to OFF has finished. An SRAM half asked OFF waits
until its buffers are FREE (R347). -/
def domainDrainDone (k : Nat) (d : Dev) : Dev :=
  let x := d.dom k
  if x.st ≠ .trans ∨ x.up ≠ .off then d
  else if (k = 34 ∨ k = 35) ∧ x.offReq = true ∧ d.halfBusy (k - 34) = true then d
  else ((d.domOff k).wakeWanted k).domSettled k

def execDomainDrainDone (dom : Nat) (s : State) : Host.Outcome State Fault Refusal := .next (s.onDev (domainDrainDone dom))

/-- DOMAIN_GATED: the clocks have stopped. A GL domain gates once its links are in LOW_POWER; a DR domain's owed refreshes are
paid and it enters self-refresh (R21, R359). -/
def domainGated (k : Nat) (d : Dev) : Dev :=
  let x := d.dom k
  if x.st ≠ .trans ∨ x.up ≠ .gated then d
  else if 13 ≤ k ∧ k ≤ 20 ∧ ((List.range 8).any (fun i => decide ((d.link (8 * (k - 13) + i)).st = .active))) = true then d
  else
    let d := d.modDom k (fun x => { x with st := .gated })
    let d := if 30 ≤ k ∧ k ≤ 33 then
        (List.range 3).foldl (fun (d : Dev) (i : Nat) => d.modChan (3 * (k - 30) + i) (fun x =>
          if x.st = .inService then
            { x with st := .selfRefresh, ranks := x.ranks.map (fun (r : Nat × DRank) => (r.1, { r.2 with owed := 0, forced := false })) }
          else x)) d
      else d
    (d.wakeWanted k).domSettled k

def execDomainGated (dom : Nat) (s : State) : Host.Outcome State Fault Refusal := .next (s.onDev (domainGated dom))

/-- Whether a GL domain has work: operations outstanding, flits to send or acknowledged yet, or a read for it. -/
def Dev.glBusy (d : Dev) (k : Nat) : Bool :=
  (List.range 8).any (fun i =>
    let l := d.link (8 * (k - 13) + i)
    !l.tags.isEmpty || !l.replay.isEmpty || !l.txQueue.isEmpty)
  || d.rp.reads.any (fun r => decide (glDom (puaSlot r.2.pua) = k) && !r.2.issued)
  || d.slu.waiting.any (fun w => w.req.onSlot && decide (glDom w.req.slot = k))

/-- IDLE_GATE_TIMEOUT (R82, R84): in a serving mode a Demand domain outside the warm floor that has been without work for
idle_gate_us is gated. -/
def idleGateTimeout (k : Nat) (d : Dev) : Dev :=
  if !(servingMode d.modes.mode) || decide (d.ruleOf k ≠ .demand) || decide ((d.dom k).st ≠ .on) || d.inFloor k then d
  else if 13 ≤ k ∧ k ≤ 20 ∧ d.glBusy k = true then d
  else (d.gateDom k).askLowPower k

def execIdleGateTimeout (dom : Nat) (s : State) : Host.Outcome State Fault Refusal := .next (s.onDev (idleGateTimeout dom))

/-! ### Requests (R24, R78, R82, R314) -/

/-- Whether taking a domain OFF would leave the minimum service set or remove a unit that data placement needs. -/
def Dev.pdNeeded (d : Dev) (k : Nat) : Bool :=
  let serving := servingMode d.modes.mode
  (hostMode d.modes.mode && (d.minSetWithout (some k)).isSome)
  || (serving && decide (13 ≤ k) && decide (k ≤ 20) && d.quires.any (fun q => q.2.members.any (fun m => m.2.present && (match m.2.slot with
        | some s => decide (glDom s = k)
        | none => false))))
  || (serving && decide (30 ≤ k) && decide (k ≤ 33) && d.dmc.order.any (fun c => decide (30 + c / 3 = k)))
  || (decide (5 ≤ k) && decide (k ≤ 8) && d.colQuadBusy (k - 5))

/-- Whether the current mode forbids a change: a transition is under way, the column holds the domain elsewhere, a failed domain
stays OFF, PERST governs the host ports, and the standby's domain is never OFF in a serving mode. -/
def Dev.pdForbidden (d : Dev) (k : Nat) (t : Pd) : Bool :=
  d.inTransition || decide (k = 3) || decide (k = 4) || ((d.dom k).failed && decide (t ≠ .off))
  || (match d.ruleOf k with
      | .holdOn => decide (t ≠ .on)
      | .off => decide (t ≠ .off)
      | .gated => decide (t = .on)
      | .kept => decide (t = .off)
      | .demand => servingMode d.modes.mode && decide (t = .off) && (match d.standby with
          | some p => decide (tcDom p = k)
          | none => false))

/-- The result of a request: 0 carried out, 1 to 3 refused. -/
def Dev.pdJudge (d : Dev) (k t : Nat) : Nat :=
  if 35 < k ∨ t = 1 then 3
  else if k < 2 ∨ d.inTransition = true then 2
  else if t = 0 ∧ d.pdNeeded k = true then 1
  else if d.pdForbidden k (if t = 0 then .off else if t = 2 then .gated else .on) then 2
  else 0

/-- Carrying a request out. -/
def Dev.pdStart (d : Dev) (k t : Nat) : Dev :=
  let target : Pd := if t = 0 then .off else if t = 2 then .gated else .on
  let d := { d with pwr := { d.pwr with busy := some (k, target), result := 0 } }
  let d := if t = 0 then
      let d := (d.drainDom k).modDom k (fun x => { x with offReq := true })
      if k = 34 ∨ k = 35 then d.withdrawHalf (k - 34) true else d
    else if t = 2 ∧ (d.dom k).st = .on then (d.gateDom k).askLowPower k
    else if t = 2 ∧ (d.dom k).st = .gated then d
    else (d.modDom k (fun x => { x with offReq := false })).powerOn k
  d.settlePdReq k

/-- PD_REQUEST: a write of WDN_PD_REQ with go = 1; ignored while a request is busy. -/
def pdRequest (k t : Nat) (d : Dev) : Dev :=
  if d.modes.mode = .off ∨ d.pwr.busy.isSome = true then d
  else
    let k := k % 64
    let t := t % 4
    let r := d.pdJudge k t
    let d := d.setCsr aPdReq (BitVec.ofNat 32 (k + 256 * t))
    if r = 0 then d.pdStart k t
    else { d with pwr := { d.pwr with result := r } }.ev evWdnPdRefused 0 [.num 1 k, .num 1 t, .num 1 r]

def execPdRequest (domain target : Nat) (s : State) : Host.Outcome State Fault Refusal := .next (s.onDev (pdRequest domain target))

/-! ### Failed domains (R88, R89, R404, R405) -/

/-- The item of Table 03-8 that a failed domain fails at runtime. -/
def Dev.failedItem (d : Dev) (k : Nat) : Option Nat :=
  if k = 2 then some 8
  else if k = 29 then some 6
  else if 30 ≤ k ∧ k ≤ 33 then (if d.dmc.order.any (fun c => decide (30 + c / 3 = k)) then some 4 else none)
  else if 13 ≤ k ∧ k ≤ 20 then (if d.quires.any (fun q => d.lossesAt q.1 q.2 2) then some 7 else none)
  else if 9 ≤ k ∧ k ≤ 12 then (if d.healthyPairs.length < 2 then some 2 else none)
  else if 21 ≤ k ∧ k ≤ 28 then (if (List.range 8).any (fun i => d.domGood (21 + i)) then none else some 5)
  else if k = 34 ∨ k = 35 then (if d.domGood 34 || d.domGood 35 then none else some 3)
  else if k = 3 ∨ k = 4 then (if d.domGood 3 || d.domGood 4 then none else some 1)
  else none

/-- A failed domain's work passes to another of its kind, which is powered where none is. -/
def Dev.otherUnit (d : Dev) (k : Nat) : Dev :=
  if 21 ≤ k ∧ k ≤ 28 ∧ ((List.range 8).any (fun i => d.domGood (21 + i))) = false then
    match (List.range 8).find? (fun i => !(d.dom (21 + i)).failed) with
    | some i => d.demand (21 + i)
    | none => d
  else if k = 34 then d.demand 35
  else if k = 35 then d.demand 34
  else d

/-- A domain is declared failed and is OFF: EV_WDN_DOMAIN_FAILED, the members on a GL domain are LOST, a host port's functions
return to their configuration-reset state, and a lost minimum service set halts the device (in HOLDUP the sequence goes on
with what remains, R78). -/
def failDomain (k : Nat) (s : State) : State :=
  let d := s.dev
  if k < 2 ∨ 35 < k ∨ (d.dom k).failed = true ∨ d.modes.mode = .off ∨ ((d.dom k).st = .off ∧ (d.dom k).wait = false) then s
  else
    let d := (d.modDom k (fun x => { x with failed := true, want := false })).ev evWdnDomainFailed 0 [.num 1 k]
    let d := if 13 ≤ k ∧ k ≤ 20 then
        (((List.range 8).map (fun i => 8 * (k - 13) + i)).filter (fun s => (d.slot s).admitted)).foldl (fun (d : Dev) (s : Nat) => d.slotGone s) d
      else d
    let d := if k = 3 then (d.resetPortFns .a).modPort .a (fun h => { h with dl := false })
      else if k = 4 then (d.resetPortFns .b).modPort .b (fun h => { h with dl := false }) else d
    let d := ((d.domOff k).otherUnit k).domSettled k
    match (if hostMode d.modes.mode || (decide (d.modes.mode = .assemble) && decide (k = 2)) then d.failedItem k else none) with
    | some item => { s with dev := (d.halt s.fuse 1 item).promiseEval }
    | none => { s with dev := d.promiseEval }

/-- DOMAIN_FAILED. -/
def execDomainFailed (dom : Nat) (s : State) : Host.Outcome State Fault Refusal := .next (failDomain dom s)

/-! ### IDLE (R79 to R82) -/

/-- Commands that are outstanding on some queue: fetched ones but Asynchronous Event Requests, and entries still to be
fetched. -/
def Dev.cmdsOutstanding (d : Dev) : Bool :=
  let aers := d.fns.flatMap (fun x => x.2.aers)
  d.hg.slots.any (fun x => !(aers.contains x.1)) || !d.hg.fetches.isEmpty
  || d.fns.any (fun x => x.2.rdy && x.2.sqs.any (fun q => decide (q.2.head ≠ q.2.tail)))

/-- IDLE_ENTRY: the entry starts in a serving mode with PS3 or PS4 selected and no command outstanding; no new background work
starts and erases in flight are suspended. -/
def idleEntry (d : Dev) : Dev :=
  if !(servingMode d.modes.mode) || d.modes.idleEntry || decide (d.modes.selPs < 3) || d.cmdsOutstanding || d.inTransition then d
  else
    let d := { d with modes := { d.modes with idleEntry := true } }
    d.rp.dies.foldl (fun (d : Dev) (x : Nat × Die) =>
      if x.2.hold.isSome && decide (x.2.kind = .erase) then d.suspendDie (x.1 / 64) (x.1 % 64) else d) d

def execIdleEntry (s : State) : Host.Outcome State Fault Refusal := .next (s.onDev idleEntry)

/-- Whether a program is in flight on some die. -/
def Dev.progInFlight (d : Dev) : Bool :=
  d.rp.dies.any (fun x => x.2.hold.isSome && isProg x.2.kind && !x.2.susp)

/-- IDLE_ENTRY_COMPLETE: with every program run to completion the mode is IDLE, the power state selected is in force, and the
domains move to its column. A rebuild pauses unless Permissive Mode is enabled. -/
def idleEntryComplete (d : Dev) : Dev :=
  if !(servingMode d.modes.mode) || !d.modes.idleEntry || d.progInFlight then d
  else
    let up := switchable.filter (fun k => decide ((d.dom k).st = .on) || decide ((d.dom k).st = .gated))
    let d := { d with modes := { d.modes with hostPs := d.modes.selPs, before := up } }
    let d := (d.enterMode .idle).askAllLowPower
    if d.cond 4 && !d.permissive then d.setCond 10 true else d

def execIdleEntryComplete (s : State) : Host.Outcome State Fault Refusal := .next (s.onDev idleEntryComplete)

end Sys2Proof.Machine
end

