-- ==== Sys2Proof/Machine/Containment.lean ====
section
/-! DEFINITION. Fault containment (chapter 15): lockstep mismatches and takeovers, engine disagreements, and the audit of the
books. -/

namespace Sys2Proof.Machine

/-- 24 h and 1 ms in ns. -/
def dayNs : Nat := 86400000000000
def msNs : Nat := 1000000

/-! ### Takeover (R409 to R413) -/

/-- The pair that takes over from `k`: the standby, else the lowest-numbered other active pair, else a pair that takes over
already (R412, R413). -/
def Dev.taker (d : Dev) (k : Nat) : Option Nat :=
  let is := fun (st : LpSt) (j : Nat) => decide (j ≠ k) && decide ((d.lp j).st = st)
  (d.standby.filter (fun j => j ≠ k)).or (((List.range 8).find? (is .active)).or ((List.range 8).find? (is .taking)))

/-- Step 1 of Table 15-4 and its wake: the taker enters TAKING_OVER and its domain is woken. -/
def Dev.startTakeover (d : Dev) (k t : Nat) : Dev :=
  ((d.modLp t (fun x => { x with st := .taking, takes := some k })).powerOn (tcDom t)).standbyCond

/-- LOCKSTEP_MISMATCH: the pair is fenced and enters SELF_TEST; an active pair's tasks, or those that a pair was taking over, go
to another. With no other pair able to take over the device halts with cause 0x07. -/
def lockstepMismatch (k : Nat) (s : State) : State :=
  let d := s.dev
  let x := d.lp k
  if 8 ≤ k ∨ !(pairsRun d.modes.mode) ∨ !(x.st = .active ∨ x.st = .standby ∨ x.st = .taking) then s
  else
    let d := d.count aTcLpCnt 0 8
    let d := { d with fc := { d.fc with last := k } }
    let d := d.modLp k (fun x => { x with st := .selfTest, takes := none, misses := d.now :: x.misses.filter (fun t => decide (d.now < t + dayNs)) })
    if x.st = .standby then { s with dev := d.standbyCond }
    else
      match d.taker k with
      | some t => { s with dev := d.startTakeover ((x.takes).getD k) t }
      | none => { s with dev := d.halt s.fuse 7 }

def execLockstepMismatch (pair : Nat) (s : State) : Host.Outcome State Fault Refusal := .next (lockstepMismatch pair s)

/-- TAKEOVER_COMPLETE (step 5): the pair is ACTIVE with the failed pair's tasks. -/
def takeoverComplete (k : Nat) (d : Dev) : Dev :=
  let x := d.lp k
  if 8 ≤ k ∨ x.st ≠ .taking ∨ (d.dom (tcDom k)).st ≠ .on then d
  else
    let d := (d.modLp k (fun x => { x with st := .active, takes := none })).count aTcLpCnt 8 8
    (d.ev evTcLpTakeover 0 [.num 1 (x.takes.getD k), .num 1 k]).standbyCond

def execTakeoverComplete (pair : Nat) (s : State) : Host.Outcome State Fault Refusal := .next (s.onDev (takeoverComplete pair))

/-- A pair is retired: a domain whose two pairs are both retired goes OFF, and one healthy pair left, or none, halts the device
(R410, R412). -/
def retirePair (k : Nat) (s : State) : State :=
  let d := (s.dev.modLp k (fun x => { x with st := .retired, takes := none })).ev evTcLpRetired 0 [.num 1 k]
  let d := if (d.lp (2 * (k / 2))).st = .retired ∧ (d.lp (2 * (k / 2) + 1)).st = .retired then d.drainDom (tcDom k) else d
  let d := d.assignRoles
  if d.healthyPairs.length = 0 then { s with dev := d.halt s.fuse 7 }
  else if d.healthyPairs.length = 1 then { s with dev := d.halt s.fuse 1 2 }
  else { s with dev := d }

/-- PAIR_SELF_TEST_DONE: a pair that passes with fewer than 3 mismatches in 24 h is healthy again and the roles migrate;
otherwise it is retired. -/
def pairSelfTestDone (k : Nat) (ok : Bool) (s : State) : State :=
  let d := s.dev
  let x := d.lp k
  if 8 ≤ k ∨ x.st ≠ .selfTest then s
  else
    let n := (x.misses.filter (fun t => decide (d.now < t + dayNs))).length
    if ok && decide (n < 3) then { s with dev := (d.modLp k (fun x => { x with st := .active })).assignRoles }
    else retirePair k s

def execPairSelfTestDone (pair : Nat) (ok : Bool) (s : State) : Host.Outcome State Fault Refusal := .next (pairSelfTestDone pair ok s)

/-- STANDBY_TEST_DUE (R411): the standby is woken and self-tested. -/
def standbyTestDue (d : Dev) : Dev :=
  match d.standby with
  | none => d
  | some k => ((d.modLp k (fun x => { x with st := .selfTest })).powerOn (tcDom k)).standbyCond

def execStandbyTestDue (s : State) : Host.Outcome State Fault Refusal := .next (s.onDev standbyTestDue)

/-- WARDEN_MISMATCH (Table 15-2, F9): HALTED with cause 0x08, and CSTS.CFS is set. -/
def wardenMismatch (s : State) : State :=
  let d := s.dev
  if d.modes.mode = .off ∨ d.modes.mode = .halted then s
  else
    let d := [Port.a, Port.b].foldl (fun (d : Dev) (p : Port) => d.modFn (.pf p) (fun x => { x with cfs := true })) d
    { s with dev := d.halt s.fuse 8 }

def execWardenMismatch (s : State) : Host.Outcome State Fault Refusal := .next (wardenMismatch s)

/-! ### Engines (R404) -/

/-- ENGINE_MISMATCH: the operation is run again; a third disagreement of a unit within 1 ms makes its domain fail. -/
def engineMismatch (u : EngineUnit) (s : State) : State :=
  let d := s.dev
  if u.dom < 2 ∨ 35 < u.dom ∨ (d.dom u.dom).st = .off then s
  else
    let key := 256 * u.dom + u.unit % 256
    let l := d.now :: (d.fc.engines.get [] key).filter (fun t => decide (d.now < t + msNs))
    let d := { d with fc := { d.fc with engines := d.fc.engines.put [] key (if 3 ≤ l.length then [] else l) } }
    let d := if 21 ≤ u.dom ∧ u.dom ≤ 28 then d.ev evMcEngineMismatch (u.dom - 21) [.num 1 u.unit]
      else if u.dom = 29 then d.ev evSigEngineMismatch 0 [.num 1 u.unit] else d
    if 3 ≤ l.length then failDomain u.dom { s with dev := d } else { s with dev := d }

def execEngineMismatch (u : EngineUnit) (s : State) : Host.Outcome State Fault Refusal := .next (engineMismatch u s)

/-! ### The books (R415) -/

/-- The audited quantities of Table 15-5 that do not hold, each with both values: 0 slots, 1 to 8 the buffer pools, 9 to 12 the
Collation groups, 13 the journal slots. -/
def Dev.booksWrong (d : Dev) : List (Nat × Nat × Nat) :=
  let slots := [(0, d.slotsFree + d.hg.slots.length, 65536)]
  let pools : List (Nat × Nat × Nat) := (List.range 8).map (fun p =>
    let (o, n) := d.poolSpan p
    let here := fun (x : Nat × Buf) => decide (o ≤ x.1 % 2 ^ 19) && decide (x.1 % 2 ^ 19 < o + n)
    (1 + p, d.poolFree p + ((d.bpm.inState p 1).filter here).length + ((d.bpm.inState p 2).filter here).length, n))
  let groups : List (Nat × Nat × Nat) := (List.range 4).map (fun g => (9 + g, max (d.col.grp g).length (1024 * (d.col.tiles g).2), 1024 * (d.col.tiles g).2))
  let jslots := [(13, max d.tc.jslots.length 4096, 4096)]
  (slots ++ pools ++ groups ++ jslots).filter (fun x => decide (x.2.1 ≠ x.2.2))

/-- BOOKS_AUDIT: every disagreement is recorded with the quantity and both values. The conditions of the promise are evaluated
with it (R402). -/
def booksAudit (d : Dev) : Dev :=
  if d.domReady 2 then
    (d.booksWrong.foldl (fun (d : Dev) (x : Nat × Nat × Nat) => d.ev evWdnBooksMismatch 0 [.num 1 x.1, .num 4 x.2.1, .num 4 x.2.2]) d).promiseEval
  else d

def execBooksAudit (s : State) : Host.Outcome State Fault Refusal := .next (s.onDev booksAudit)

end Sys2Proof.Machine
end

