-- ==== Sys2Proof/Machine/Boot.lean ====
section
/-! DEFINITION. Power-up, the host ports' resets and links, the reference clock, the mailbox's rings, and the verification of
a staged Folio (R26, R36 to R41, R43, R46, R50, R55, R63, R74, R85, R87, R94, R286, R302, R392, R466, R472, R478). -/

namespace Sys2Proof.Machine

/-! ### POR_N (R36, R74, R466, R472) -/

/-- A part whose POR_N is asserted keeps only what lies outside it: modules in their slots, the levels of the PERST inputs, and
the TAP. The records of what left the block, and how many free values were drawn, go on. -/
def Dev.powerCycle (d : Dev) : Dev :=
  let slots := (d.gl.slots.filter (fun (x : Nat × SlotSt) => x.2.present)).map
    (fun (x : Nat × SlotSt) => (x.1, { SlotSt.reset with present := true }))
  { Dev.reset with
    pins := { Pins.reset with perstA := d.pins.perstA, perstB := d.pins.perstB }
    jtag := d.jtag, gl := { Gl.reset with slots := slots }, out := d.out, free := d.free }

/-- POR_N_ASSERT: OFF at once, from any mode. -/
def porNAssert (d : Dev) : Dev := d.powerCycle

def execPorNAssert (s : State) : Host.Outcome State Fault Refusal := .next (s.onDev porNAssert)

/-- The domain of a host port. -/
def portDom : Port → Nat
  | .a => 3
  | .b => 4

/-- A port's PERST input. -/
def Pins.perst (p : Pins) : Port → Bool
  | .a => p.perstA
  | .b => p.perstB

/-- Setting a port's PERST input. -/
def Dev.setPerst (d : Dev) (p : Port) (v : Bool) : Dev :=
  { d with pins := match p with
    | .a => { d.pins with perstA := v }
    | .b => { d.pins with perstB := v } }

/-- STRAP[1] = 1 keeps Port B OFF. -/
def Dev.portOff (d : Dev) (p : Port) : Bool := decide (p = .b) && d.pins.straps.getLsbD 1

/-- 12 ms, in 1/64 ns. -/
def ms12 : Nat := 12 * 64000000

/-- A port whose PERST is released starts its training: its t0 of Table 02-2 is the release, or POR_N + 12 ms if that is
later (R38, R472). -/
def Dev.startPort (d : Dev) (p : Port) : Dev :=
  if d.pins.perst p || d.portOff p then d
  else { d with boot := { d.boot with t0Port := d.boot.t0Port.ins p.num (max d.clk.ns64 ms12) } }.powerOn (portDom p)

/-- POR_N_DEASSERT (R36): the straps are sampled, the ROM is measured and CDI_0 formed, WDN and SB0 are up, and AWAIT_IMAGE is
entered with its 600 s window. -/
def porNDeassert (straps : BitVec 4) (d : Dev) : Dev :=
  if !d.pins.por then d
  else
    let cdi := Config.hmac384 Config.uds (digestBytes Config.romDigest)
    let d := { d with
      pins := { d.pins with por := false, straps := straps }
      boot := { d.boot with mRom := some Config.romDigest, cdi0 := some cdi, devId := Config.sha384 (Config.deviceIdKeys cdi) } }
    let d := ((d.modDom 1 (fun _ => .on)).modDom 34 (fun _ => .on)).enterAwait
    (d.startPort .a).startPort .b

def execPorNDeassert (straps : BitVec 4) (s : State) : Host.Outcome State Fault Refusal := .next (s.onDev (porNDeassert straps))

/-- CRYSTAL_STABLE (R36): the AON clock runs from the crystal, and no tick is missed. -/
def crystalStable (d : Dev) : Dev := if d.modes.mode = .off then d else { d with clk := { d.clk with crystal := true } }

def execCrystalStable (s : State) : Host.Outcome State Fault Refusal := .next (s.onDev crystalStable)

/-! ### The system reference (R26) -/

/-- A port's reference clock. -/
def Port.ref : Port → RefSel
  | .a => .a
  | .b => .b

/-- Whether a port's reference has been declared lost. -/
def Clk.lost (c : Clk) : Port → Bool
  | .a => c.lostA
  | .b => c.lostB

/-- Declaring a port's reference lost, or returned. -/
def Dev.setLost (d : Dev) (p : Port) (v : Bool) : Dev :=
  { d with clk := match p with
    | .a => { d.clk with lostA := v }
    | .b => { d.clk with lostB := v } }

/-- The multiplexer switches to a port's reference and the PLLs relock; the switch is recorded. -/
def Dev.switchRef (d : Dev) (p : Port) : Dev :=
  { d with clk := { d.clk with refSel := p.ref, holdover := false } }.ev evWdnRefclkSwitch 0 [.num 1 p.num]

/-- The boot port's reference is selected, once per boot; where it is lost, the other one, or holdover. -/
def Dev.bootRef (d : Dev) (p : Port) : Dev :=
  if d.clk.refSel ≠ .boot then d
  else if !d.clk.lost p then d.switchRef p
  else if !d.clk.lost p.other then d.switchRef p.other
  else { d.switchRef p with clk := { (d.switchRef p).clk with holdover := true } }

/-- REFCLK_LOST: recorded; of the reference in use, the PLLs go over to the other one or stay in holdover. -/
def refclkLost (p : Port) (d : Dev) : Dev :=
  if d.modes.mode = .off ∨ d.clk.lost p = true then d
  else
    let d := (d.setLost p true).ev evWdnRefclkLost 0 [.num 1 p.num]
    if d.clk.refSel ≠ p.ref then d
    else if !d.clk.lost p.other then d.switchRef p.other
    else { d with clk := { d.clk with holdover := true } }

def execRefclkLost (p : Port) (s : State) : Host.Outcome State Fault Refusal := .next (s.onDev (refclkLost p))

/-- REFCLK_RETURN: recorded; nothing switches back while a reference in use is present, and PLLs in holdover lock to the one
that returned. -/
def refclkReturn (p : Port) (d : Dev) : Dev :=
  if d.modes.mode = .off ∨ d.clk.lost p = false then d
  else
    let d := (d.setLost p false).ev evWdnRefclkReturn 0 [.num 1 p.num]
    if !d.clk.holdover then d
    else if d.clk.refSel = p.ref then { d with clk := { d.clk with holdover := false } }
    else d.switchRef p

def execRefclkReturn (p : Port) (s : State) : Host.Outcome State Fault Refusal := .next (s.onDev (refclkReturn p))

/-! ### Host links (R37, R94, R116, R478) -/

/-- Telling the controllers of a port that its ANA states changed. -/
def Dev.anaChanged (d : Dev) (p : Port) : Dev :=
  (d.modPort p (fun h => { h with ana := h.ana + 1 })).aenAll aeAna none (fun f => decide (f.port = p))

/-- A port takes the boot port role if nothing holds it: its t0 counts, if it is the first of the power cycle, and its reference
is selected (R26, R37, R50). -/
def Dev.takeBootPort (d : Dev) (p : Port) : Dev :=
  if d.boot.port.isSome then d
  else
    let t0 := d.boot.t0.orElse (fun _ => some (d.boot.t0Port.get 0 p.num))
    { d with boot := { d.boot with port := some p, t0 := t0 } }.bootRef p

/-- LINK_DL_ACTIVE: a link that comes up, or one that has trained again at another rate or width. -/
def linkDlActive (p : Port) (rate width : Nat) (flit : Bool) (d : Dev) : Dev :=
  if d.modes.mode = .off ∨ d.pins.perst p = true ∨ d.portOff p = true then d
  else
    let h := d.hport p
    let d := (d.modDom (portDom p) (fun x => { x with st := .on, up := .on, ramp := false, wait := false, want := false })).nextRamp
    let d := d.modPort p (fun h => { h with dl := true, rate := rate, width := width, flit := flit })
    let d := if h.dl then d else d.ev evHpcLinkUp p.num [.num 1 p.num, .num 1 rate, .num 1 width]
    let d := if h.optimized = (d.hport p).optimized then d else d.anaChanged p
    d.takeBootPort p

def execLinkDlActive (p : Port) (rate width : Nat) (flit : Bool) (s : State) : Host.Outcome State Fault Refusal :=
  .next (s.onDev (linkDlActive p rate width flit))

/-- A port that goes down: recorded, its functions in their configuration-reset state, its commands ended as a lost port's, its
IDE streams and sessions gone. -/
def Dev.portDown (d : Dev) (p : Port) : Dev :=
  let h := d.hport p
  let d := if h.dl then d.ev evHpcLinkDown p.num [.num 1 p.num, .num 1 h.rate, .num 1 h.width] else d
  (d.resetPortFns p).modPort p (fun h => { HPort.reset with ana := h.ana })

/-- SURPRISE_LINK_DOWN: the port and its domain stay powered. -/
def surpriseLinkDown (p : Port) (d : Dev) : Dev := if (d.hport p).dl then d.portDown p else d

def execSurpriseLinkDown (p : Port) (s : State) : Host.Outcome State Fault Refusal := .next (s.onDev (surpriseLinkDown p))

/-- The opcodes whose staged material a reset of the boot port discards: BEGIN_IMAGE, WRITE_CHUNK, END_IMAGE, PUT_IMPOSITION and
ABORT_LOAD. -/
def loadingOp (op : Nat) : Bool := (decide (2 ≤ op) && decide (op ≤ 5)) || decide (op = 0x0A)

/-- The role goes to the other port, if that is up, with the mailbox ready at once. -/
def Dev.passRole (d : Dev) (p : Port) : Dev :=
  if (d.hport p.other).dl then { d with boot := { d.boot with mboxReady := true } }.takeBootPort p.other else d

/-- A loading command that runs on a port ends with ABORTED (R47, R50). -/
def Dev.abortLoading (d : Dev) (p : Port) : Dev :=
  if (d.box p).busy && loadingOp (d.box p).op then (d.modBox p (fun b => { b with held := none })).kmbEnd p 0x52 else d

/-- The boot port's PERST in AWAIT_IMAGE or VERIFY (R50): staged material is discarded and its slots are powered down, the role
goes to the other port if it is up, a verification is abandoned with the window resuming, and a loading command that runs ends
with ABORTED. -/
def Dev.bootPortReset (d : Dev) (p : Port) : Dev :=
  if (d.modes.mode ≠ .awaitImage ∧ d.modes.mode ≠ .verify) ∨ d.boot.port ≠ some p then d
  else
    let b := { d.boot with folio := none, impo := none, verifying := none, folioOk := false, port := none, mboxReady := false }
    let d := ({ d with boot := b }.powerSlots).passRole p
    (if d.modes.mode = .verify then d.enterMode .awaitImage else d).abortLoading p

/-- PERST_ASSERT: the port's domain goes OFF with its link and functions. -/
def perstAssert (p : Port) (d : Dev) : Dev :=
  let was := d.pins.perst p
  let d := d.setPerst p true
  if was || decide (d.modes.mode = .off) || d.portOff p then d
  else ((d.portDown p).bootPortReset p).domOff (portDom p)

def execPerstAssert (p : Port) (s : State) : Host.Outcome State Fault Refusal := .next (s.onDev (perstAssert p))

/-- PERST_DEASSERT: training starts afresh, once POR_N + 12 ms has passed. -/
def perstDeassert (p : Port) (d : Dev) : Dev :=
  let was := d.pins.perst p
  let d := d.setPerst p false
  if !was || d.pins.por then d else d.startPort p

def execPerstDeassert (p : Port) (s : State) : Host.Outcome State Fault Refusal := .next (s.onDev (perstDeassert p))

/-! ### The mailbox's rings (R46, R47) -/

/-- DRAM channels trained. -/
def Dev.chansUp (d : Dev) : Nat := (d.dmc.chans.filter (fun (x : Nat × DChan) => decide (x.2.st = .inService) || decide (x.2.st = .selfRefresh))).length

/-- Links up. -/
def Dev.linksUp (d : Dev) : Nat := (d.gl.links.filter (fun (x : Nat × Link) => decide (x.2.st = .active) || decide (x.2.st = .lowPower))).length

/-- Running a mailbox command. The commands of other families ring no mailbox. -/
def kmbRun (i : Instr) (s : State) : State :=
  match i with
  | .hello p k => runHello p k s
  | .beginImage p k => runBeginImage p k s
  | .writeChunk p k dma => runWriteChunk p k dma s
  | .endImage p k => runEndImage p k s
  | .putImposition p k dma => runPutImposition Dev.powerSlots p k dma s
  | .getStatus p k => runGetStatus Dev.chansUp Dev.linksUp p k s
  | .getColophon p k => runGetColophon p k s
  | .getLedger p k => runGetLedger p k s
  | .enrollOwnerEnrol p k dma => runEnroll true p k dma s
  | .enrollOwnerRevoke p k dma => runEnroll false p k dma s
  | .abortLoad p k => runAbortLoad Dev.powerSlots p k s
  | .badOpcode p _ _ => runBadOpcode p s
  | _ => s

/-- A ring held since before the mailbox was ready runs. -/
def runHeld (p : Port) (s : State) : State :=
  match (s.dev.box p).held with
  | none => s
  | some i => kmbRun i (s.onDev (fun d => d.modBox p (fun b => { b with held := none })))

/-- MAILBOX_READY (R38, R46). -/
def mailboxReady (s : State) : State :=
  if s.dev.modes.mode = .off ∨ s.dev.boot.port = none ∨ s.dev.boot.mboxReady = true then s
  else runHeld .b (runHeld .a (s.onDev (fun d => { d with boot := { d.boot with mboxReady := true } })))

def execMailboxReady (s : State) : Host.Outcome State Fault Refusal := .next (mailboxReady s)

/-- A ring: its port has to be up for the doorbell write to arrive. -/
def State.ring (s : State) (p : Port) (op : Nat) (k : KmbPkt) (i : Instr) : State :=
  if (s.dev.hport p).dl then s.kmbRing p op k i (kmbRun i) else s

def execHello (p : Port) (k : KmbPkt) (s : State) : Host.Outcome State Fault Refusal := .next (s.ring p 1 k (.hello p k))

def execBeginImage (p : Port) (k : KmbPkt) (s : State) : Host.Outcome State Fault Refusal := .next (s.ring p 2 k (.beginImage p k))

def execWriteChunk (p : Port) (k : KmbPkt) (dma : DmaIn) (s : State) : Host.Outcome State Fault Refusal :=
  .next (s.ring p 3 k (.writeChunk p k dma))

def execEndImage (p : Port) (k : KmbPkt) (s : State) : Host.Outcome State Fault Refusal := .next (s.ring p 4 k (.endImage p k))

def execPutImposition (p : Port) (k : KmbPkt) (dma : DmaIn) (s : State) : Host.Outcome State Fault Refusal :=
  .next (s.ring p 5 k (.putImposition p k dma))

def execGetStatus (p : Port) (k : KmbPkt) (s : State) : Host.Outcome State Fault Refusal := .next (s.ring p 6 k (.getStatus p k))

def execGetColophon (p : Port) (k : KmbPkt) (s : State) : Host.Outcome State Fault Refusal := .next (s.ring p 7 k (.getColophon p k))

def execGetLedger (p : Port) (k : KmbPkt) (s : State) : Host.Outcome State Fault Refusal := .next (s.ring p 8 k (.getLedger p k))

def execEnrollOwnerEnrol (p : Port) (k : KmbPkt) (dma : DmaIn) (s : State) : Host.Outcome State Fault Refusal :=
  .next (s.ring p 9 k (.enrollOwnerEnrol p k dma))

def execEnrollOwnerRevoke (p : Port) (k : KmbPkt) (dma : DmaIn) (s : State) : Host.Outcome State Fault Refusal :=
  .next (s.ring p 9 k (.enrollOwnerRevoke p k dma))

def execAbortLoad (p : Port) (k : KmbPkt) (s : State) : Host.Outcome State Fault Refusal := .next (s.ring p 0x0A k (.abortLoad p k))

/-- BAD_OPCODE: only opcodes that Table 02-7 does not define are undefined. -/
def execBadOpcode (p : Port) (op : Byte) (k : KmbPkt) (s : State) : Host.Outcome State Fault Refusal :=
  .next (if decide (1 ≤ op.toNat) && decide (op.toNat ≤ 0x0A) then s else s.ring p op.toNat k (.badOpcode p op k))

/-- AWAIT_IMAGE_TIMEOUT (R40): all staged material goes, SB0 is zeroed, and DORMANT is entered with TIMEOUT. -/
def awaitImageTimeout (d : Dev) : Dev :=
  if d.modes.mode ≠ .awaitImage then d
  else
    let d := d.bootFail 0x51 0
    let d := { d with boot := { d.boot with folio := none, impo := none, folioOk := false, windowNs64 := none } }.powerSlots
    let d : Dev := [Port.a, Port.b].foldl (fun (d : Dev) (p : Port) => if (d.box p).busy then d else d.modBox p (fun b => { b with status := 0x51 })) d
    d.enterMode .dormant

def execAwaitImageTimeout (s : State) : Host.Outcome State Fault Refusal := .next (s.onDev awaitImageTimeout)

/-! ### Verification and the entry to ASSEMBLE (R55, R62, R63, R87, R286, R303, R354, R392) -/

/-- CDI_1's input (Table 02-13). -/
def cdi1Input (d : Dev) (fuse : Fuses) (r : RunFolio) : List Byte :=
  digestBytes r.mv ++ digestOr d.boot.mImpo ++ leBytes 4 r.svn ++ leBytes 1 r.vendorSet ++ leBytes 1 fuse.slotByte

/-- The keys of layer 1: CDI_1 and the certificate chain are formed, and CDI_0 is erased. -/
def Dev.deriveKeys (d : Dev) (fuse : Fuses) (r : RunFolio) : Dev :=
  let c0 := d.boot.cdi0.getD 0
  let c1 := Config.hmac384 (digestBytes c0) (cdi1Input d fuse r)
  { d with boot := { d.boot with
    run := some r, folioOk := true, mMv := some r.mv, cdi1 := some c1, cdi0 := none, svnAtBoot := fuse.minSvn
    chain := Config.certChain c0 c1 (chainBytes (d.section 10)) } }

/-- WDN_WARM_FLOOR and WDN_IDLE_GATE from section 0x0009: without it the policy is automatic and the time 200 µs. -/
def Dev.loadFloor (d : Dev) : Dev :=
  let b := d.section 9
  let idle := fieldAt b 8 4
  let d := d.setCsr aIdleGate (BitVec.ofNat 32 (if idle = 0 then 200 else idle))
  if fieldAt b 1 1 = 1 then
    d.setCsr aWarmFloor (BitVec.ofNat 32 (fieldAt b 2 1 + 16 * fieldAt b 3 1 + 128 * fieldAt b 4 1 + 1024 * fieldAt b 5 1 + 2048
      + 4096 * fieldAt b 6 1))
  else d

/-- The populated channels start their training. -/
def Dev.startTraining (d : Dev) : Dev :=
  ((List.range 12).filter (fun c => bitOf d.popChannels c)).foldl (fun (d : Dev) (c : Nat) =>
    d.modChan c (fun x => { x with st := .training, step := 1 })) d

/-- The colophons of present, enabled slots are read; present slots that are not enabled stay unpowered with outcome 0x06. -/
def Dev.startReads (d : Dev) : Dev :=
  (List.range 64).foldl (fun (d : Dev) (s : Nat) =>
    if !(d.slot s).present then d
    else if d.slotEnabled s then (d.modSt s (fun x => { x with reading := true, admittedAt := d.now })).linkEnable s
    else d.modSt s (fun x => { x with outcome := 6 })) d.powerSlots

/-- What starts at ASSEMBLE's entry: link training with colophon reads, DRAM training, the warm floor, the capacitor test, and
the injectors' lock where its fuse is blown. -/
def Dev.startAssemble (d : Dev) (fuse : Fuses) : Dev :=
  let d := ((d.enterMode .assemble).loadFloor.startTraining).startReads
  let d := if fuse.injLock then d.setField aDmcInjCtrl 10 10 1 else d
  let d := { d with thm := { d.thm with topMax := d.thm.top }, hu := { d.hu with result := 6 } }
  (d.startTest.measureInv).linksSettled

/-- FOLIO_VERIFY_DONE: Table 02-11 in order. On a failure the Folio is discarded and AWAIT_IMAGE resumes its window; otherwise
the measurements and keys follow and ASSEMBLE is entered. -/
def folioVerifyDone (s : State) : State :=
  let d := s.dev
  match d.boot.verifying, d.boot.folio with
  | some p, some f =>
    if d.modes.mode ≠ .verify then s
    else
      let d := { d with boot := { d.boot with verifying := none } }
      match folioCheck s.fuse f.cells f.size with
      | some (st, dt) => { s with dev := (((d.bootFail st dt).dropFolio).enterMode .awaitImage).kmbEnd p st dt }
      | none =>
        let r := runFolioOf s.fuse f.cells
        { s with dev := ((d.deriveKeys s.fuse r).startAssemble s.fuse).kmbEnd p 0 0 (digestBytes r.mv) }
  | _, _ => s

def execFolioVerifyDone (s : State) : Host.Outcome State Fault Refusal := .next (folioVerifyDone s)

end Sys2Proof.Machine
end

