-- ==== Sys2Proof/Machine/Assemble.lean ====
section
/-! DEFINITION. The end of ASSEMBLE: the map restore and everything read back with it, and the entry decision (R58, R65, R68,
R76, R86, R88, R110, R116, R147, R156, R175 to R180, R220, R226, R240, R251, R304, R428, R436, R444, R445, R447). -/

namespace Sys2Proof.Machine

/-- A table from a list of entries, a later one replacing an earlier. -/
def Tbl.ofList {α : Type} (l : List (Nat × α)) : Tbl α := l.foldl (fun (t : Tbl α) (x : Nat × α) => t.ins x.1 x.2) []

/-! ### Quires (R156, R223, R226, R251, R304) -/

/-- The member that a slot's admitted module makes; a slot without one leaves the index LOST. -/
def Dev.memberIn (d : Dev) (s : Nat) : Member :=
  match (d.slot s).admitted, d.colo s with
  | true, some c => ⟨.active, some s, c.serial, c.geomDigest, c.dies, c.bq⟩
  | _, _ => ⟨.lost, some s, 0, 0, 0, 0⟩

/-- The admitted module of a recorded serial among the slots that the section lists for the Quire. -/
def Dev.recordedIn (d : Dev) (listed : List Nat) (serial : BitVec 128) : Option Nat :=
  listed.find? (fun s => (d.slot s).admitted && decide ((d.colo s).map Colo.serial = some serial))

/-- The members of a Quire: matched by recorded serial where its superblock tables record them, else the listed slots'. -/
def Dev.membersOf (d : Dev) (listed : List Nat) (rec : Option QuireRec) : List (Nat × Member) :=
  match rec with
  | none => (listed.zipIdx).map (fun (x : Nat × Nat) => (x.2, d.memberIn x.1))
  | some r =>
    (List.range r.width).map (fun (m : Nat) =>
      let n := r.serials.getD m 0
      let g := r.geoms.getD m 0
      if r.released.contains m then (m, ⟨.released, none, n, g, 0, 0⟩)
      else match d.recordedIn listed n with
        | some s => (m, { d.memberIn s with geom := g })
        | none => (m, ⟨.lost, listed[m]?, n, g, 0, 0⟩))

/-- ucap_q in 4 KiB units at a Quire's first ASSEMBLE: a declared member that is absent counts at the smallest capacity present,
and the result is rounded down. -/
def Dev.firstUcap (d : Dev) (listed : List Nat) (w slc op : Nat) : Nat :=
  let gib := listed.filterMap (fun s => if (d.slot s).admitted then (d.colo s).map (fun c => min c.rawGib 16384) else none)
  let least := (gib.min?).getD 0
  let raw := (gib.sum + (listed.length - gib.length) * least) * 2 ^ 18
  raw * (w - 1) * (256 - slc) * (1000 - op) / (w * 256 * 1000)

/-- The spare blocks of a Quire at first use: how many a die has is not stated, and is a free value for each die. -/
def Dev.firstSpares (d : Dev) (ms : List (Nat × Member)) : Tbl Nat :=
  let dies := ms.flatMap (fun (x : Nat × Member) => match x.2.slot with
    | some s => (List.range x.2.dies).map (fun k => dieKey s k)
    | none => [])
  Tbl.ofList ((dies.zipIdx).map (fun (x : Nat × Nat) => (x.1, Config.freeNat (d.free + x.2))))

/-- A Quire from its record in the layout section at offset `o`, and from its superblock tables where it holds data. -/
def Dev.quireFrom (d : Dev) (o : Nat) (rec : Option QuireRec) : Quire :=
  let b := d.section 2
  let listed := recMembers b o
  let ms := d.membersOf listed rec
  let w := (rec.map (·.width)).getD listed.length
  let slc := (rec.map (·.slcShare)).getD (fieldAt b (o + 20) 1)
  let op := (rec.map (·.opPm)).getD (fieldAt b (o + 22) 2)
  let spares := (rec.map (fun r => Tbl.ofList r.spares)).getD (d.firstSpares ms)
  let hours := fieldAt b (o + 26) 2
  { width := w, strict := decide (fieldAt b (o + 2) 1 = 1), active := false, autoRespread := bitOf (fieldAt b (o + 3) 1) 0,
    members := Tbl.ofList ms, slcShare := slc, opPm := op, spareFloor := fieldAt b (o + 24) 2, hours := hours, effective := hours,
    gcReserve := fieldAt b (o + 28) 2, rebuildShare := fieldAt b (o + 30) 1
    ucap := (rec.map (·.ucapUnits)).getD (d.firstUcap listed w slc op)
    spares := spares, sparesFirst := (rec.map (·.sparesFirst)).getD ((spares.map (·.2)).sum)
    held := false, due := ms.any (fun (x : Nat × Member) => decide (x.2.st = .lost)), work := none, workSince := 0, workDone := 0
    workTotal := 0, hostA := none, hostB := none, patRows := 0, patTotal := 0, patCws := 0, patBeyond := 0, patNow := false
    patLate := false, passAt := d.now, passes := 0, lastPass := 0, repaired := 0, misparity := 0, lostUnits := 0, rehomedTo := none
    foldHeld := false, folding := none, victim := none, refreshing := none, winUnits := 0, winReads := [], lastWrite := d.now, debt := 0 }

/-- A difference between the section and the recorded width, slc_share or op_pm. -/
def QuireRec.differs (r : QuireRec) (b : List Byte) (o : Nat) : Bool :=
  decide (r.width ≠ fieldAt b (o + 1) 1) || decide (r.slcShare ≠ fieldAt b (o + 20) 1) || decide (r.opPm ≠ fieldAt b (o + 22) 2)

/-- Restoring the Quire of one record of the layout section: recorded members found elsewhere in the section's list have moved,
absent ones are LOST, and differences are recorded as IMPOSITION_MISMATCH with detail 0x02. -/
def Dev.restoreQuire (d : Dev) (recs : List QuireRec) (o : Nat) : Dev :=
  let b := d.section 2
  let q := fieldAt b o 1
  let was := recs.find? (fun r => decide (r.quire = q))
  let listed := recMembers b o
  let x := d.quireFrom o was
  let f := if was.isNone then x.spares.length else 0
  let d := { d with quires := d.quires.ins q x, free := d.free + f }
  let d := (x.members.filter (fun (m : Nat × Member) => was.isSome && decide (m.2.st = .active) && decide (m.2.slot ≠ listed[m.1]?))).foldl
    (fun (d : Dev) (_ : Nat × Member) => d.ev evSigMemberMoved q []) d
  let lost := x.members.filter (fun (m : Nat × Member) => decide (m.2.st = .lost))
  let d := lost.foldl (fun (d : Dev) (_ : Nat × Member) => (d.ev evSigMemberLost q []).aenAll (aeVendor 3)) d
  if (was.map (fun r => r.differs b o)).getD false || !lost.isEmpty then d.bootFail 0x23 2 else d

/-- Modules that fail check 6 against the recorded members (R304) are refused, and unrecorded ones in the listed slots of LOST
members join as replacements (R251). -/
def Dev.checkMembers (d : Dev) : Dev :=
  (List.range 64).foldl (fun (d : Dev) (s : Nat) =>
    if !(d.slot s).admitted then d
    else match d.colo s with
      | none => d
      | some c =>
        if !d.recordOk s c then d.refuseModule s 3 6
        else if (d.memberAt s true).isSome then d
        else d.joinQuire s c) d

/-- The journal hosts chosen at ASSEMBLE (R236, R240): a change from the recorded ones is recorded, and their copies have yet to
be written. -/
def Dev.bootHosts (d : Dev) (recs : List QuireRec) : Dev :=
  (d.quires.map (·.1)).foldl (fun (d : Dev) (q : Nat) =>
    let old := ((recs.find? (fun r => decide (r.quire = q))).map (·.hosts)).getD []
    let a := d.chooseHost q none
    let d := d.modQuire q (fun x => { x with hostA := a })
    let b := d.chooseHost q a
    let d := d.modQuire q (fun x => { x with hostB := b })
    let sameA := decide (a = old[0]?)
    let sameB := decide (b = old[1]?)
    let d := { d with tc := { d.tc with jslots := d.tc.jslots.map (fun (j : Nat × JSlot) =>
      if j.2.quire = q then (j.1, { j.2 with mirA := if sameA then j.2.mirA else 0, mirB := if sameB then j.2.mirB else 0 }) else j) } }
    let d := if old.isEmpty || (sameA && sameB) then d else d.ev evSigJhostChange q []
    if a.isNone || b.isNone then d.ev evSigJhostSingle q [] else d) d

/-! ### The map (R175 to R177, R444, R445) -/

/-- Whether a record is newer than the capture of the segment that holds an entry. -/
def recNewer (segs : Tbl Nat) (seq key : Nat) : Bool :=
  match segs.get? (Config.segmentOf key) with
  | none => true
  | some c => !(seqBelow seq c)

/-- Replacing an entry by a record that is newer than its segment. -/
def putNewer (segs : Tbl Nat) (seq ns iu : Nat) (e : MapEntry) (m : Tbl MapEntry) : Tbl MapEntry :=
  if recNewer segs seq (mapKey ns iu) then m.put .unwritten (mapKey ns iu) e else m

/-- Replaying one record. KEY_CHANGE sets every entry of its namespace to UNWRITTEN but those in superblocks opened since. -/
def Dev.replay (d : Dev) (segs : Tbl Nat) (m : Tbl MapEntry) (r : JRec) : Tbl MapEntry :=
  match r.body with
  | .mapRun ns first ps => (ps.zipIdx).foldl (fun (m : Tbl MapEntry) (x : Nat × Nat) => putNewer segs r.seq ns (first + x.2) (.mapped x.1) m) m
  | .deallocRun ns first n => (List.range n).foldl (fun (m : Tbl MapEntry) (i : Nat) => putNewer segs r.seq ns (first + i) .dealloc m) m
  | .lostRun ns first n => (List.range n).foldl (fun (m : Tbl MapEntry) (i : Nat) => putNewer segs r.seq ns (first + i) .lost m) m
  | .keyChange ns _ os => m.filter (fun (x : Nat × MapEntry) => decide (x.1 / 2 ^ 40 ≠ ns) || !(recNewer segs r.seq x.1)
      || (match x.2 with
        | .mapped p => decide (os ≤ d.openSeqAt p)
        | _ => false))
  | .zoneImage _ _ | .release _ _ | .erased _ _ _ | .retired _ _ | .checkpoint _ _ | .generation _ _ => m

/-- The newest copy of every segment, then the journal (R176). -/
def Dev.replayMap (d : Dev) (r : RestoreIn) : Tbl MapEntry :=
  let segs := Tbl.ofList (r.segs.map (fun s => (s.idx, s.capture)))
  let base := (r.segs.flatMap (·.entries)).foldl (fun (m : Tbl MapEntry) (x : Nat × MapEntry) => m.put .unwritten x.1 x.2) []
  r.jrnl.foldl (fun (m : Tbl MapEntry) (x : JRec) => d.replay segs m x) base

/-- A unit of the full scan counts if its checks pass, its key generation is its namespace's, and the namespace is mapped. -/
def Dev.scanValid (d : Dev) (u : ScanUnit) : Bool :=
  u.checkOk && (match d.nsp u.ns with
    | some n => decide (n.keyGen ≤ u.keyGen) && decide (n.kind ≠ 2)
    | none => false)

/-- Whether a unit of the scan beats the copy that the map names: the higher generation, then the higher open sequence
number (R177). -/
def scanBeats (known : List ScanUnit) (m : Tbl MapEntry) (u : ScanUnit) : Bool :=
  match m.get .unwritten (mapKey u.ns u.iu) with
  | .mapped p =>
    match known.find? (fun c => decide (c.pua = p)) with
    | some c => decide (c.gen < u.gen) || (decide (c.gen = u.gen) && decide (c.openSeq < u.openSeq))
    | none => true
  | _ => true

/-- The contest of the full scan. -/
def contest (known : List ScanUnit) (m : Tbl MapEntry) (us : List ScanUnit) : Tbl MapEntry :=
  us.foldl (fun (m : Tbl MapEntry) (u : ScanUnit) =>
    if scanBeats known m u then m.put .unwritten (mapKey u.ns u.iu) (.mapped u.pua) else m) m

/-- Staging that the scan found goes to the fold Furrows 16 to 31 (R177). -/
def Dev.handStaging (d : Dev) (us : List ScanUnit) : Dev :=
  us.foldl (fun (d : Dev) (u : ScanUnit) =>
    match d.place u.pua with
    | some p =>
      if u.staged && decide (d.mapGet u.ns u.iu = .mapped u.pua) then
        d.modFurrow (16 + p.q) (fun x => { x with
          st := .open, kind := 9, quire := p.q, staged := x.staged ++ [⟨u.pua, u.ns, u.iu, u.gen, u.keyGen, u.pua⟩] })
      else d
    | none => d) d

/-- The valid counts of the superblocks from the restored map; superblocks that are closed and empty are released. -/
def Dev.countValid (d : Dev) : Dev :=
  let d := d.tc.map.foldl (fun (d : Dev) (x : Nat × MapEntry) =>
    match x.2 with
    | .mapped p => d.mapUnits p (d.iuUnits (x.1 / 2 ^ 40))
    | _ => d) d
  d.tc.sbs.foldl (fun (d : Dev) (x : Nat × Superblock) => d.releaseIfEmpty (x.1 / 2 ^ 22) (x.1 % 2 ^ 22)) d

/-- The superblock tables: an erase that was under way when the power failed is asked for again (Table 06-8). -/
def restoredSb (b : Superblock) : Superblock := if b.st = .erasing then { b with st := .released, row := 0 } else b

/-- The Translation Core's tables and the map. -/
def Dev.restoreTables (d : Dev) (r : RestoreIn) : Dev :=
  let head := ((r.jrnl.getLast?).map (fun (x : JRec) => (x.seq + x.body.steps) % 2 ^ 32)).getD 0
  let d := { d with
    tc := { d.tc with
      nss := Tbl.ofList (r.nss.map (fun (x : Nat × Nsp) => (x.1, { x.2 with formatting := none, deleting := false }))), zones := Tbl.ofList r.zones
      sbs := Tbl.ofList (r.sbs.map (fun (x : Nat × Superblock) => (x.1, restoredSb x.2))), furrows := if r.sealed then Tbl.ofList r.furrows else []
      jrnl := r.jrnl, head := head, programmed := head, jseq := r.jseq, openSeq := r.openSeq
      segs := Tbl.ofList (r.segs.map (fun (s : CkptSeg) => (s.idx, s.capture))), lost := r.lost, retired := Tbl.ofList r.retired
      regions := Tbl.ofList (r.regions.map (fun (x : Nat × Nat × Nat × List (Nat × Nat)) => (x.1, ⟨x.2.1, x.2.2.1, x.2.2.2⟩)))
      jslots := if r.sealed then Tbl.ofList r.jslots else Tbl.ofList (r.jslots ++ r.jslotsScanned) }
    rp := { d.rp with vref := Tbl.ofList r.vrefs } }
  let us := if r.sealed then [] else r.scan.filter d.scanValid
  let m := contest (r.units ++ r.scan) (d.replayMap r) us
  let d := { d with tc := { d.tc with
    map := m, summ := Tbl.ofList ((r.units ++ us).map (fun (u : ScanUnit) => (u.pua, (⟨u.ns, u.iu, u.gen, u.keyGen⟩ : UnitRec)))) } }
  let d := (d.handStaging us).countValid
  let d := if r.sealed then d
    else r.jslotsScanned.foldl (fun (d : Dev) (j : Nat × JSlot) => d.ev evSigJournalRecompute j.2.quire []) d
  r.orphans.foldl (fun (d : Dev) (_ : Nat) => d.ev evTcOrphanReclaimed 0 []) d

/-! ### The key ring (R435, R436, R447) -/

/-- The image with the highest sequence number whose HMAC verifies and whose entries unwrap. -/
def bestImage (l : List RingImg) : Option RingImg :=
  (l.filter (fun i => i.hmacOk && i.unwrapOk)).foldl (fun (b : Option RingImg) (i : RingImg) =>
    match b with
    | none => some i
    | some j => if j.seq < i.seq then some i else some j) none

/-- The ring and the Sanitize state of the image; namespaces whose journal names a higher key generation wait for a new one. -/
def Dev.restoreRing (d : Dev) (l : List RingImg) : Dev :=
  match bestImage l with
  | none => { d with ring := { Ring.reset with pending := d.tc.nss.map (·.1), old := l.flatMap (·.places) } }
  | some i =>
    let genIn := fun (ns : Nat) => ((i.gens.find? (fun g => decide (g.1 = ns))).map (fun g => g.2.1)).getD 0
    let wait := (d.tc.nss.filter (fun (x : Nat × Nsp) => decide (genIn x.1 < x.2.keyGen))).map (·.1)
    let others := (l.filter (fun j => decide (j.seq ≠ i.seq))).flatMap (·.places)
    let st := if i.sanRunning then 2 else if i.sanFailed then 3 else if i.sanAction = 0 then 0 else 1
    { d with
      ring := { Ring.reset with seq := i.seq, durable := true, written := (i.places.map (·.1)).dedup, cur := i.places, old := others,
                                pending := wait }
      san := { San.reset with action := i.sanAction, running := i.sanRunning, failure := i.sanFailed, ndas := i.ndas, status := st } }

/-! ### Contracts, features, the boot sequence number, the ledger (R68, R110, R147, R428) -/

/-- The contract records of section 0x0008, by tenant. -/
def Dev.impoContracts (d : Dev) : List (Nat × Contract) :=
  let b := d.section 8
  (List.range (fieldAt b 1 2)).map (fun i =>
    let r := slice b (8 + 64 * i) 64
    (fieldAt r 0 2, parseContract r))

/-- One tenant's contract: the saved one, else its record, else the record of tenant 0xFFFF. A record that R145 refuses is
replaced by the built-in default and recorded. Buckets start full. -/
def Dev.bootContract (d : Dev) (recs : List (Nat × Contract)) (t : Nat) : Dev :=
  let find := fun (k : Nat) => (recs.find? (fun x => decide (x.1 = k))).map (·.2)
  let fill := fun (d : Dev) (c : Contract) =>
    ((d.withContract t c).setBucket true t ⟨if c.readRate.isSome then c.readBurst else 0, 0⟩).setBucket false t
      ⟨if c.writeRate.isSome then c.writeBurst else 0, 0⟩
  match d.hg.saved.get? t with
  | some c => fill d c
  | none =>
    match (find t).orElse (fun _ => find 0xFFFF) with
    | none => d
    | some c =>
      match (d.withContract t c).contractRefusal t with
      | some _ => d.ev evHgDefaultRefused 0 [.num 2 t]
      | none => fill d c

/-- Every tenant's contract. -/
def Dev.bootContracts (d : Dev) (saved : List (Nat × Contract)) : Dev :=
  let d := { d with hg := { d.hg with saved := Tbl.ofList saved, contracts := Tbl.ofList saved } }
  (List.range 513).foldl (fun (d : Dev) (t : Nat) => d.bootContract d.impoContracts t) d

/-- The new sequence number and its state (Table 02-15), from the numbers that the declared Quires hold. -/
def Dev.bootSeq (d : Dev) (recs : List QuireRec) : Dev :=
  let seqs := d.quires.map (fun (x : Nat × Quire) => (recs.find? (fun r => decide (r.quire = x.1))).bind (·.seqNum))
  let found := seqs.filterMap id
  let top := (found.max?).getD 0
  let lacking := (seqs.filter Option.isNone).length
  let older := (found.filter (fun n => decide (n < top))).length
  let st := if found.isEmpty then 4 else if lacking = 0 then (if older = 0 then 0 else 2) else (if older = 0 then 1 else 3)
  { d with boot := { d.boot with seqNum := top + 1, seqState := st, seqLacking := lacking, seqOlder := older } }

/-- The volumes of the ledger, and EV_EVL_SESSION. -/
def Dev.restoreVolumes (d : Dev) (r : RestoreIn) : Dev :=
  let n := if d.quires.isEmpty then 0 else r.volume
  let d := { d with evl := { d.evl with
    volume := n, curVol := r.vol, curOver := r.volOver, volFull := r.volFull, volBytes := usedBy r.vol, prevVol := r.prevVol
    prevOver := r.prevOver } }
  d.ev evEvlSession 0 [.num 8 d.boot.seqNum, .num 4 n, .num 4 r.vol.length]

/-- The classification entries of the attachments and the entries of active zones (R316, R324). -/
def Dev.restoreEntries (d : Dev) : Dev :=
  let d := d.tc.nss.foldl (fun (d : Dev) (x : Nat × Nsp) => d.classify x.1 x.2) d
  let d := d.repartZones
  d.tc.zones.foldl (fun (d : Dev) (z : Nat × Zone) =>
    match d.nsp (z.1 / 2 ^ 20) with
    | none => d
    | some n =>
      if z.2.state = .implOpen ∨ z.2.state = .explOpen ∨ z.2.state = .closed then
        d.zoneEntPut (z.1 / 2 ^ 20) (z.1 % 2 ^ 20) z.2.wp (d.zcap n)
      else d) d

/-! ### The two rows -/

/-- Everything that a restore brings. -/
def Dev.restore (d : Dev) (r : RestoreIn) : Dev :=
  let b := d.section 2
  let d := ((List.range (fieldAt b 1 1)).map (fun i => 8 + 48 * i)).foldl (fun (d : Dev) (o : Nat) => d.restoreQuire r.quires o) d
  let d := ((d.restoreTables r).checkMembers).bootHosts r.quires
  let d := (d.quires.map (·.1)).foldl (fun (d : Dev) (q : Nat) => d.loseDouble q) d
  let d := { d with adm := { d.adm with feats := Tbl.ofList r.feats, saved := Tbl.ofList r.feats, apst := r.apst, apstSaved := r.apst } }
  let d := (((d.restoreRing r.ring).bootContracts r.contracts).bootSeq r.quires).restoreVolumes r
  let d := d.restoreEntries.quireConds
  { d with
    tc := { d.tc with budget := d.mapBudget }
    boot := { d.boot with mapPm := 1000, mapDone := true, sealed := r.sealed } }

/-- MAP_RESTORE_DONE: with no seal EV_TC_SEAL_MISSING is recorded and the full scan counts; an inconsistent scan ends the boot
with MAP_RESTORE. -/
def mapRestoreDone (r : RestoreIn) (s : State) : State :=
  let d := s.dev
  if d.modes.mode ≠ .assemble ∨ d.boot.dramDone = false ∨ d.boot.linksDone = false ∨ d.boot.mapDone = true then s
  else
    let d := if r.sealed then d else d.ev evTcSealMissing 0 []
    if !r.sealed && !r.scanOk then
      { s with dev := ({ d with boot := { d.boot with mapFailed := true } }.bootFail 0x32 0).halt s.fuse 0x06 }
    else { s with dev := d.restore r }

def execMapRestoreDone (r : RestoreIn) (s : State) : Host.Outcome State Fault Refusal := .next (mapRestoreDone r s)

/-- The longest program time that an admitted module declares, in µs. -/
def Dev.tProgMax (d : Dev) : Nat := ((d.presentColos.map (fun c => max (c.tMax 2) (c.tMax 3))).max?).getD 0

/-- A Sanitize that power loss cut off restarts from its beginning (R447). -/
def Dev.restartSanitize (d : Dev) : Dev :=
  if !d.san.running then d
  else (d.tc.nss.map (fun (x : Nat × Nsp) => x.1)).foldl
    (fun (d : Dev) (ns : Nat) => (d.keyChange ns).modNsp ns (fun x => { x with ndasReset := false })) d

/-- What follows the entry: firmware permits fetching, controllers become ready, the warm floor is recomputed, a saved power
state applies, the background work begins with a new ring image, and the serving mode is evaluated for the first time. -/
def Dev.afterEntry (d : Dev) : Dev :=
  let d := ((d.setField aHgCtrl 0 0 1).makeAllReady).warmUpdate
  let d := match d.adm.saved.get? 0x02 with
    | some v => if bitsOf v.toNat 4 0 ≤ 4 then d.selectPs (bitsOf v.toNat 4 0) else d
    | none => d
  let d := (d.restartSanitize.newImage).ringSettle
  d.quireConds.promiseEval.decideServing

/-- ASSEMBLE_ENTRY_DECISION: the minimum service set is judged (R88), the entry mode is decided by steps 1, 2 and 4 of R76, the
Boot Colophon is signed, an SVN commit is made, and the mode is entered. -/
def assembleEntry (s : State) : State :=
  let d := s.dev
  if d.modes.mode ≠ .assemble ∨ d.boot.mapDone = false then s
  else
    match d.minSet with
    | some item => { s with dev := (d.bootFail 0x31 item).halt s.fuse 0x01 item }
    | none =>
      let m := d.servingFor false
      let d := { d with boot := { d.boot with entryMs := d.uptimeMs, tProg := d.tProgMax } }.signBcol s.fuse m
      let s := { s with dev := d }.commitSvn
      s.onDev (fun d => (d.enterMode m).afterEntry)

def execAssembleEntryDecision (s : State) : Host.Outcome State Fault Refusal := .next (assembleEntry s)

end Sys2Proof.Machine
end

