-- ==== Sys2Proof/Machine/Jtag.lean ====
section
/-! DEFINITION. The JTAG port's six instructions (R471). The boundary-scan chain stands as 64 bits (assumption log). -/

namespace Sys2Proof.Machine

/-- The device identification code. -/
def jtagId : BitVec 64 := 0xB51204B5#64

/-- An instruction is loaded, and the data register it selects is shifted out. -/
def Dev.tap (d : Dev) (i : JtagInstr) (dr : BitVec 64) : Dev :=
  { d with jtag := { d.jtag with instr := i, dr := dr } }.emit (.tdo dr)

/-- The bypass register captures 0. -/
def jtagBypass (d : Dev) : Dev := d.tap .bypass 0
def execJtagBypass (s : State) : Host.Outcome State Fault Refusal := .next (s.onDev jtagBypass)

def jtagIdcode (d : Dev) : Dev := d.tap .idcode jtagId
def execJtagIdcode (s : State) : Host.Outcome State Fault Refusal := .next (s.onDev jtagIdcode)

/-- SAMPLE/PRELOAD: the balls' levels are shifted out while the chain is loaded. -/
def jtagSamplePreload (sampled preload : BitVec 64) (d : Dev) : Dev :=
  ({ d with jtag := { d.jtag with chain := preload } }).tap .samplePreload sampled
def execJtagSamplePreload (sampled preload : BitVec 64) (s : State) : Host.Outcome State Fault Refusal :=
  .next (s.onDev (jtagSamplePreload sampled preload))

/-- EXTEST drives the balls from the chain, only while POR_N is asserted; otherwise it is BYPASS. -/
def jtagExtest (d : Dev) : Dev := if d.pins.por then d.tap .extest d.jtag.chain else jtagBypass d
def execJtagExtest (s : State) : Host.Outcome State Fault Refusal := .next (s.onDev jtagExtest)

/-- CLAMP holds the outputs at the chain's values and selects the bypass register. -/
def jtagClamp (d : Dev) : Dev := if d.pins.por then d.tap .clamp 0 else jtagBypass d
def execJtagClamp (s : State) : Host.Outcome State Fault Refusal := .next (s.onDev jtagClamp)

/-- HIGHZ floats the outputs and selects the bypass register. -/
def jtagHighz (d : Dev) : Dev := if d.pins.por then d.tap .highz 0 else jtagBypass d
def execJtagHighz (s : State) : Host.Outcome State Fault Refusal := .next (s.onDev jtagHighz)

end Sys2Proof.Machine
end

