-- ==== Sys2Proof/Machine/Sideband.lean ====
section
/-! DEFINITION. SPDM over DOE and over MCTP, IDE, MCTP and I3C on the management bus, NVMe-MI (R64, R71, R102, R103,
R120, R121), HOST_MEMORY_FAULT (R142) and INTERRUPT_AGGREGATION_TIME (R101). The message codes and layouts of SPDM, IDE_KM and
NVMe-MI are those of their own standards (PRESUMED, assumption log). -/

namespace Sys2Proof.Machine

/-! ### Transports -/

/-- The port that a transport's answers leave by; the management bus is none. -/
def SpdmVia.port : SpdmVia → Option Port
  | .doe p => some p
  | .mctp => none

/-- The responder's connection on a transport. -/
def Dev.spdm (d : Dev) : SpdmVia → Spdm
  | .doe p => (d.hport p).spdm
  | .mctp => d.mgmt.spdm

/-- Changing a connection. -/
def Dev.modSpdm (d : Dev) (via : SpdmVia) (f : Spdm → Spdm) : Dev :=
  match via with
  | .doe p => d.modPort p (fun h => { h with spdm := f h.spdm })
  | .mctp => { d with mgmt := { d.mgmt with spdm := f d.mgmt.spdm } }

/-- Whether a request reaches the responder: a port's DOE while its link is up, MCTP in every mode but OFF; in DORMANT, MCTP
serves neither SPDM nor most of NVMe-MI (R103, R120). -/
def Dev.spdmHears (d : Dev) : SpdmVia → Bool
  | .doe p => decide (d.modes.mode ≠ .off) && (d.hport p).dl
  | .mctp => decide (d.modes.mode ≠ .off) && decide (d.modes.mode ≠ .dormant)

/-- Concurrent sessions: four on a port, two over MCTP (R103, R120). -/
def SpdmVia.limit : SpdmVia → Nat
  | .doe _ => 4
  | .mctp => 2

/-- A response leaves. -/
def Dev.spdmAnswer (d : Dev) (via : SpdmVia) (code : Nat) (body : List Byte) : Dev := d.emit (.spdm via.port code body)

/-- An ERROR response with its error code. -/
def Dev.spdmError (d : Dev) (via : SpdmVia) (code : Nat) : Dev := d.spdmAnswer via 0x7F (leBytes 1 code ++ leBytes 1 0)

/-- A session ends. -/
def Dev.endSession (d : Dev) (via : SpdmVia) (id : Nat) : Dev := d.modSpdm via (fun x => { x with sessions := x.sessions.del id })

/-- Busy: the Boot Colophon is not signed yet (R103). -/
def Dev.spdmBusy (d : Dev) : Bool := !d.bcol.signed

/-- A request that came in a session, or in none: a session that is not there, and one whose authentication fails, which ends
it, are errors. `shake` says whether the session has to be one in its handshake. -/
def Dev.inSession (d : Dev) (via : SpdmVia) (m : SpdmReq) (shake : Bool) (f : Dev → Dev) : Dev :=
  match m.session with
  | none => f d
  | some id =>
    match (d.spdm via).sessions.get? id with
    | none => d.spdmError via 0x02
    | some s =>
      if !m.authOk then (d.endSession via id).spdmError via 0x06
      else if decide (s.st = .handshaking) ≠ shake then d.spdmError via 0x04
      else f d

/-- A request of the three that negotiate: it needs the phase before its own. -/
def Dev.negotiate (d : Dev) (via : SpdmVia) (m : SpdmReq) (need : Nat) (f : Dev → Dev) : Dev :=
  if !d.spdmHears via then d
  else if m.version ≠ 0x13 then d.spdmError via 0x41
  else if (d.spdm via).phase < need then d.spdmError via 0x04
  else f d

/-- Every other request: Busy before the Boot Colophon is signed, and the negotiation must be complete. -/
def Dev.spdmRun (d : Dev) (via : SpdmVia) (m : SpdmReq) (shake : Bool) (f : Dev → Dev) : Dev :=
  if !d.spdmHears via then d
  else if d.spdmBusy then d.spdmError via 0x03
  else d.negotiate via m 3 (fun d => d.inSession via m shake f)

/-! ### Negotiation -/

/-- GET_VERSION: SPDM 1.3; the negotiation starts afresh. -/
def spdmGetVersion (via : SpdmVia) (m : SpdmReq) (d : Dev) : Dev :=
  if !d.spdmHears via then d
  else if m.version ≠ 0x10 then d.spdmError via 0x41
  else (d.modSpdm via (fun x => { x with phase := 1 })).spdmAnswer via 0x04 (leBytes 3 0 ++ leBytes 1 1 ++ leBytes 2 0x1300)

def execSpdmGetVersion (via : SpdmVia) (m : SpdmReq) (s : State) : Host.Outcome State Fault Refusal := .next (s.onDev (spdmGetVersion via m))

/-- The responder's flags: certificates, challenge, signed measurements, encryption and authentication of messages, key
exchange, heartbeat and key update; neither mutual authentication nor pre-shared keys. -/
def spdmFlags : Nat := 0x62D6

/-- The largest message: a data object of 65,536 dwords over DOE (R103), and the same over MCTP. -/
def spdmMax : Nat := 4 * 65536

/-- GET_CAPABILITIES. -/
def spdmGetCapabilities (via : SpdmVia) (m : SpdmReq) (d : Dev) : Dev :=
  d.negotiate via m 1 (fun d =>
    (d.modSpdm via (fun x => { x with phase := 2 })).spdmAnswer via 0x61
      (leBytes 2 0 ++ leBytes 4 0 ++ leBytes 4 spdmFlags ++ leBytes 4 spdmMax ++ leBytes 4 spdmMax))

def execSpdmGetCapabilities (via : SpdmVia) (m : SpdmReq) (s : State) : Host.Outcome State Fault Refusal :=
  .next (s.onDev (spdmGetCapabilities via m))

/-- NEGOTIATE_ALGORITHMS: of what the requester offers, ECDSA P-384, SHA-384, secp384r1 and AES-256-GCM. -/
def spdmNegotiateAlgorithms (via : SpdmVia) (m : SpdmReq) (d : Dev) : Dev :=
  d.negotiate via m 2 (fun d =>
    let asym := if bitOf (fieldAt m.body 4 4) 7 then 0x80 else 0
    let hash := if bitOf (fieldAt m.body 8 4) 1 then 2 else 0
    (d.modSpdm via (fun x => { x with phase := 3 })).spdmAnswer via 0x63
      (leBytes 1 2 ++ leBytes 1 0 ++ leBytes 2 44 ++ leBytes 1 1 ++ leBytes 1 2 ++ leBytes 4 4 ++ leBytes 4 asym ++ leBytes 4 hash
        ++ leBytes 16 0 ++ leBytes 2 0x2002 ++ leBytes 2 0x0010 ++ leBytes 2 0x2003 ++ leBytes 2 0x0002))

def execSpdmNegotiateAlgorithms (via : SpdmVia) (m : SpdmReq) (s : State) : Host.Outcome State Fault Refusal :=
  .next (s.onDev (spdmNegotiateAlgorithms via m))

/-! ### Certificates and measurements (R63, R64, R71, R103) -/

/-- The certificate chain of slot 0 in SPDM's form: its length, the digest of its first certificate, and the certificates. -/
def Dev.spdmChain (d : Dev) : List Byte :=
  let c := d.boot.chain
  let first := c.take ((derLen c 0).getD 0)
  leBytes 2 (c.length + 52) ++ leBytes 2 0 ++ digestBytes (Config.sha384 first) ++ c

/-- GET_DIGESTS: slot 0 alone. -/
def spdmGetDigests (via : SpdmVia) (m : SpdmReq) (d : Dev) : Dev :=
  d.spdmRun via m false (fun d => d.spdmAnswer via 0x01 (leBytes 1 1 ++ leBytes 1 1 ++ digestBytes (Config.sha384 d.spdmChain)))

def execSpdmGetDigests (via : SpdmVia) (m : SpdmReq) (s : State) : Host.Outcome State Fault Refusal := .next (s.onDev (spdmGetDigests via m))

/-- GET_CERTIFICATE: a part of slot 0's chain and how much remains; slots 1 to 7 are not supported. -/
def spdmGetCertificate (via : SpdmVia) (m : SpdmReq) (d : Dev) : Dev :=
  d.spdmRun via m false (fun d =>
    let o := fieldAt m.body 0 2
    let c := d.spdmChain
    if m.param1 % 16 ≠ 0 ∨ c.length ≤ o then d.spdmError via 0x01
    else
      let n := min (fieldAt m.body 2 2) (c.length - o)
      d.spdmAnswer via 0x02 (leBytes 2 0 ++ leBytes 2 n ++ leBytes 2 (c.length - o - n) ++ slice c o n))

def execSpdmGetCertificate (via : SpdmVia) (m : SpdmReq) (s : State) : Host.Outcome State Fault Refusal :=
  .next (s.onDev (spdmGetCertificate via m))

/-- The measurement values of R71, and the value type under which each is reported as a raw bit stream. -/
def Dev.measurement (d : Dev) (fuse : Fuses) (i : Nat) : Option (Nat × List Byte) :=
  let run := d.boot.run
  if i = 1 then some (0x80, digestOr d.boot.mRom)
  else if i = 2 then some (0x81, digestOr (run.map (·.mv)))
  else if i = 3 then some (0x83, digestOr d.boot.mImpo)
  else if i = 4 then some (0x87, leBytes 4 ((run.map (·.svn)).getD 0) ++ leBytes 4 fuse.minSvn)
  else if i = 5 then some (0x82, digestOr d.boot.mInv)
  else if i = 6 then some (0x83, leBytes 8 d.boot.seqNum ++ leBytes 1 d.boot.seqState)
  else if i = 0xFD then some (0x84, d.bcolBytes)
  else none

/-- The measurement indices, in order. -/
def measureIdx : List Nat := [1, 2, 3, 4, 5, 6, 0xFD]

/-- A measurement block. -/
def measureBlock (i : Nat) (x : Nat × List Byte) : List Byte :=
  leBytes 1 i ++ leBytes 1 1 ++ leBytes 2 (x.2.length + 3) ++ leBytes 1 x.1 ++ leBytes 2 x.2.length ++ x.2

/-- The blocks that a GET_MEASUREMENTS asks for: none for 0, all for 0xFF, or one. -/
def Dev.measureBlocks (d : Dev) (fuse : Fuses) (op : Nat) : List (List Byte) :=
  let l := if op = 0 then [] else if op = 0xFF then measureIdx else [op]
  l.filterMap (fun (i : Nat) => (d.measurement fuse i).map (measureBlock i))

/-- The summary of all measurements that CHALLENGE and KEY_EXCHANGE may ask for. -/
def Dev.measureSummary (d : Dev) (fuse : Fuses) (kind : Nat) : List Byte :=
  if kind = 0 then [] else digestBytes (Config.sha384 (d.measureBlocks fuse 0xFF).flatten)

/-- A nonce of 32 bytes, or other random bytes: free values. -/
def Dev.random (d : Dev) (n : Nat) : List Byte := slice (Config.freeBytes d.free) 0 n

/-- An ECDSA signature over what is signed, in 96 bytes (R64). -/
def Dev.spdmSign (d : Dev) (msg : List Byte) : List Byte := slice (Config.aliasSign (d.boot.cdi1.getD 0) msg) 0 96

/-- CHALLENGE on slot 0. -/
def spdmChallenge (via : SpdmVia) (m : SpdmReq) (s : State) : State :=
  s.onDev (fun d => d.spdmRun via m false (fun d =>
    if m.param1 % 16 ≠ 0 then d.spdmError via 0x01
    else
      let r := leBytes 1 0 ++ leBytes 1 1 ++ digestBytes (Config.sha384 d.spdmChain) ++ d.random 32 ++ d.measureSummary s.fuse m.param2 ++ leBytes 2 0
      (d.spdmAnswer via 0x03 (r ++ d.spdmSign (m.body ++ r))).tickFree))

def execSpdmChallenge (via : SpdmVia) (m : SpdmReq) (s : State) : Host.Outcome State Fault Refusal := .next (spdmChallenge via m s)

/-- GET_MEASUREMENTS: the number of indices, all of them, or one; signed where Param1 asks for it, with slot 0. -/
def spdmGetMeasurements (via : SpdmVia) (m : SpdmReq) (s : State) : State :=
  s.onDev (fun d => d.spdmRun via m false (fun d =>
    let signed := bitOf m.param1 0
    let bl := d.measureBlocks s.fuse m.param2
    if (m.param2 ≠ 0 ∧ bl = []) ∨ (signed = true ∧ fieldAt m.body 32 1 % 16 ≠ 0) then d.spdmError via 0x01
    else
      let r := leBytes 1 (if m.param2 = 0 then 7 else 0) ++ leBytes 1 0 ++ leBytes 1 bl.length ++ leBytes 3 bl.flatten.length ++ bl.flatten
        ++ d.random 32 ++ leBytes 2 0
      (d.spdmAnswer via 0x60 (if signed then r ++ d.spdmSign (m.body ++ r) else r)).tickFree))

def execSpdmGetMeasurements (via : SpdmVia) (m : SpdmReq) (s : State) : Host.Outcome State Fault Refusal := .next (spdmGetMeasurements via m s)

/-! ### Sessions (R103, R120) -/

/-- The lowest session number that is free. -/
def Spdm.free (x : Spdm) : Nat := ((List.range 4).find? (fun (i : Nat) => !x.sessions.has i)).getD 0

/-- KEY_EXCHANGE on slot 0, outside any session: a session opens in its handshake, if one is free. -/
def spdmKeyExchange (via : SpdmVia) (m : SpdmReq) (s : State) : State :=
  s.onDev (fun d => d.spdmRun via m false (fun d =>
    let x := d.spdm via
    if m.session.isSome then d.spdmError via 0x04
    else if m.param2 % 16 ≠ 0 then d.spdmError via 0x01
    else if via.limit ≤ x.sessions.length then d.spdmError via 0x0A
    else
      let id := x.free
      let r := leBytes 2 0 ++ leBytes 2 id ++ leBytes 2 0 ++ d.random 128 ++ d.measureSummary s.fuse m.param1 ++ leBytes 2 0
      let d := d.modSpdm via (fun x => { x with sessions := x.sessions.ins id ⟨.handshaking, 0⟩ })
      (d.spdmAnswer via 0x64 (r ++ d.spdmSign (m.body ++ r) ++ slice (Config.freeBytes (d.free + 1)) 0 48)).tickFree.tickFree))

def execSpdmKeyExchange (via : SpdmVia) (m : SpdmReq) (s : State) : Host.Outcome State Fault Refusal := .next (spdmKeyExchange via m s)

/-- A request that has meaning only in a session. -/
def Dev.sessionRun (d : Dev) (via : SpdmVia) (m : SpdmReq) (shake : Bool) (f : Dev → Nat → Dev) : Dev :=
  d.spdmRun via m shake (fun d =>
    match m.session with
    | none => d.spdmError via 0x04
    | some id => f d id)

/-- FINISH: the handshake ends, and the session is secure. -/
def spdmFinish (via : SpdmVia) (m : SpdmReq) (d : Dev) : Dev :=
  d.sessionRun via m true (fun d id =>
    (d.modSpdm via (fun x => { x with sessions := x.sessions.ins id ⟨.established, 0⟩ })).spdmAnswer via 0x65 (leBytes 2 0))

def execSpdmFinish (via : SpdmVia) (m : SpdmReq) (s : State) : Host.Outcome State Fault Refusal := .next (s.onDev (spdmFinish via m))

/-- HEARTBEAT. -/
def spdmHeartbeat (via : SpdmVia) (m : SpdmReq) (d : Dev) : Dev :=
  d.sessionRun via m false (fun d _ => d.spdmAnswer via 0x68 (leBytes 2 0))

def execSpdmHeartbeat (via : SpdmVia) (m : SpdmReq) (s : State) : Host.Outcome State Fault Refusal := .next (s.onDev (spdmHeartbeat via m))

/-- KEY_UPDATE: one direction's key, both, or the check of a new key. -/
def spdmKeyUpdate (via : SpdmVia) (m : SpdmReq) (d : Dev) : Dev :=
  d.sessionRun via m false (fun d id =>
    if m.param1 = 0 ∨ 3 < m.param1 then d.spdmError via 0x01
    else
      let d := if m.param1 = 3 then d
        else d.modSpdm via (fun x => { x with sessions := x.sessions.upd id (fun y => { y with updates := y.updates + 1 }) })
      d.spdmAnswer via 0x69 (leBytes 1 m.param1 ++ leBytes 1 m.param2))

def execSpdmKeyUpdate (via : SpdmVia) (m : SpdmReq) (s : State) : Host.Outcome State Fault Refusal := .next (s.onDev (spdmKeyUpdate via m))

/-- END_SESSION. -/
def spdmEndSession (via : SpdmVia) (m : SpdmReq) (d : Dev) : Dev :=
  d.sessionRun via m false (fun d id => (d.spdmAnswer via 0x6C (leBytes 2 0)).endSession via id)

def execSpdmEndSession (via : SpdmVia) (m : SpdmReq) (s : State) : Host.Outcome State Fault Refusal := .next (s.onDev (spdmEndSession via m))

/-! ### IDE (R102) -/

/-- A stream's state: every stream starts insecure. -/
def HPort.stream (h : HPort) (n : Nat) : IdeSt := h.ide.get .insecure n

/-- Setting a stream's state. -/
def Dev.setStream (d : Dev) (p : Port) (n : Nat) (v : IdeSt) : Dev := d.modPort p (fun h => { h with ide := h.ide.put .insecure n v })

/-- An IDE_KM response. -/
def Dev.ideAnswer (d : Dev) (p : Port) (code : Nat) (m : IdeKm) (status : Nat) : Dev :=
  d.spdmAnswer (.doe p) 0x7E (leBytes 1 code ++ leBytes 2 0 ++ leBytes 1 m.stream ++ leBytes 1 status
    ++ leBytes 1 (m.keySet % 2 + 2 * bit m.rx + 16 * m.sub) ++ leBytes 1 0)

/-- What an IDE_KM object does to its stream: key material is taken, a stream with keys starts, and a stream stops. Stream 0 is
the Link IDE stream and 1 to 4 are the Selective ones. -/
def Dev.ideRun (d : Dev) (p : Port) (m : IdeKm) : Dev :=
  let st := (d.hport p).stream m.stream
  match m.op with
  | .query => d.ideAnswer p 0x01 m 0
  | .keyProg =>
    if 4 < m.stream ∨ 1 < m.keySet ∨ 2 < m.sub then d.ideAnswer p 0x03 m 3
    else if !m.keyOk then d.ideAnswer p 0x03 m 1
    else (if st = .insecure then d.setStream p m.stream .keyed else d).ideAnswer p 0x03 m 0
  | .setGo =>
    (if 4 < m.stream ∨ st = .insecure then d else d.setStream p m.stream .secure).ideAnswer p 0x06 m 0
  | .setStop => (if 4 < m.stream then d else d.setStream p m.stream .insecure).ideAnswer p 0x06 m 0

/-- IDE_KM_REQUEST: only in an established session of a port's DOE; over MCTP it is refused. -/
def ideKmRequest (via : SpdmVia) (m : IdeKm) (d : Dev) : Dev :=
  if !d.spdmHears via then d
  else if d.spdmBusy then d.spdmError via 0x03
  else
    match via with
    | .mctp => d.spdmError via 0x07
    | .doe p =>
      match m.session with
      | none => d.spdmError via 0x04
      | some id => if ((d.spdm via).sessions.get? id).map (·.st) = some .established then d.ideRun p m else d.spdmError via 0x02

def execIdeKmRequest (via : SpdmVia) (m : IdeKm) (s : State) : Host.Outcome State Fault Refusal := .next (s.onDev (ideKmRequest via m))

/-! ### Faults of host memory (R142) and of IDE (R102) -/

/-- A command whose host-to-device data did not come: before its commit it ends with Data Transfer Error. -/
def Dev.dataLost (d : Dev) (cs : Nat) : Dev :=
  match d.hg.slots.get? cs with
  | none => d
  | some s =>
    match s.st with
    | .fetched | .paced | .executing => (d.dropWork cs).complete cs cqeDataTransfer
    | .committed | .ending | .aborted => d

/-- HOST_MEMORY_FAULT: completion timeout, UR, CA and poison alike. -/
def execHostMemoryFault (cs : Nat) (_f : DmaFault) (s : State) : Host.Outcome State Fault Refusal := .next (s.onDev (fun d => d.dataLost cs))

/-- IDE_CHECK_FAILED: the TLP is dropped, the stream is insecure again, and the command that owned the TLP fails. -/
def ideCheckFailed (p : Port) (stream : Nat) (cs : Option Nat) (d : Dev) : Dev :=
  if !(d.hport p).dl || decide ((d.hport p).stream stream ≠ .secure) then d
  else
    let d := d.setStream p stream .insecure
    match cs with
    | none => d
    | some c => d.dataLost c

def execIdeCheckFailed (p : Port) (stream : Nat) (cs : Option Nat) (s : State) : Host.Outcome State Fault Refusal :=
  .next (s.onDev (ideCheckFailed p stream cs))

/-- INTERRUPT_AGGREGATION_TIME: the completions of a coalesced vector that wait for their interrupt are signalled (R101). -/
def interruptAggregationTime (f : Fn) (vec : Nat) (d : Dev) : Dev :=
  if (d.fnst f).coal.get 0 vec = 0 then d
  else (d.modFn f (fun s => { s with coal := s.coal.put 0 vec 0 })).signal f vec

def execInterruptAggregationTime (f : Fn) (vec : Nat) (s : State) : Host.Outcome State Fault Refusal :=
  .next (s.onDev (interruptAggregationTime f vec))

/-! ### The management bus (R120) -/

/-- MCTP_SET_ENDPOINT_ID: the bus owner assigns the endpoint ID; 0 and 0xFF are none. -/
def mctpSetEndpointId (eid : Nat) (d : Dev) : Dev :=
  if d.modes.mode = .off then d
  else if eid = 0 ∨ 0xFF ≤ eid then d.emit (.mctp (leBytes 1 0x01 ++ leBytes 1 0x02))
  else { d with mgmt := { d.mgmt with eid := eid } }.emit (.mctp (leBytes 1 0x01 ++ leBytes 1 0 ++ leBytes 1 0 ++ leBytes 1 eid ++ leBytes 1 0))

def execMctpSetEndpointId (eid : Nat) (s : State) : Host.Outcome State Fault Refusal := .next (s.onDev (mctpSetEndpointId eid))

/-- I3C_ENTDAA: from now until the next POR_N the device is an I3C target at this address. -/
def i3cEntdaa (addr : Nat) (d : Dev) : Dev :=
  if d.modes.mode = .off ∨ d.mgmt.i3cAddr.isSome = true ∨ 0x7F < addr then d else { d with mgmt := { d.mgmt with i3cAddr := some addr } }

def execI3cEntdaa (addr : Nat) (s : State) : Host.Outcome State Fault Refusal := .next (s.onDev (i3cEntdaa addr))

end Sys2Proof.Machine
end

