-- ==== Sys2Proof/Machine/Mi.lean ====
section
/-! DEFINITION. NVMe-MI over MCTP and in-band (R120, R121). The layouts and codes are NVMe-MI's own (PRESUMED, assumption log);
a command that acts over MCTP answers with a message, one that acts in-band completes its NVMe-MI Send or Receive. -/

namespace Sys2Proof.Machine

/-- MGMT_ALERT_N is asserted while an enabled health status change is pending (R120). -/
def Dev.settleAlert (d : Dev) : Dev :=
  { d with pins := { d.pins with mgmtAlert := decide (d.mgmt.health ≠ 0) && decide (d.mgmt.healthEn ≠ 0) } }

/-- What an NVMe-MI command answers: the response status, the management response, and the data. -/
structure MiAns where
  status : Nat
  resp   : Nat
  data   : List Byte
deriving DecidableEq, Repr

def miOk (resp : Nat) (data : List Byte) : MiAns := ⟨0, resp, data⟩
def miBadOpcode : MiAns := ⟨0x03, 0, []⟩
def miBadParam : MiAns := ⟨0x04, 0, []⟩

/-- A controller's status: RDY, CFS and SHST as CSTS has them. -/
def FnSt.statusBits (s : FnSt) : Nat := bit s.rdy + 2 * bit s.cfs + 4 * s.shst

/-- The port identifiers: 0 and 1 are the host ports, 2 the management bus. -/
def Dev.miPort (d : Dev) (i : Nat) : Option (List Byte) :=
  if i < 2 then
    let h := d.hport (if i = 0 then .a else .b)
    some (layout 32 [num 0 1 1, num 2 2 64, num 8 1 3, num 9 1 63, num 10 1 h.rate, num 11 1 8, num 12 1 h.width])
  else if i = 2 then
    some (layout 32 [num 0 1 2, num 2 2 250, num 8 1 0, num 10 1 (if d.mgmt.i3cAddr.isSome then 0 else 0x1D), num 11 1 3])
  else none

/-- Read NVMe-MI Data Structure: subsystem, port, controller list, controller, and the supported commands. -/
def Dev.miRead (d : Dev) (dw0 : Nat) : MiAns :=
  let port := bitsOf dw0 23 16
  let ctl := bitsOf dw0 15 0
  match bitsOf dw0 31 24 with
  | 0 => miOk 32 (layout 32 [num 0 1 2, num 1 1 2, num 2 1 0])
  | 1 => match d.miPort port with
    | some b => miOk 32 b
    | none => miBadParam
  | 2 =>
    let l := (allCntlids.filter (fun (c : Nat) => decide (ctl ≤ c))).take 2047
    let b := leBytes 2 l.length ++ l.flatMap (leBytes 2)
    miOk b.length b
  | 3 => match fnOfCntlid ctl with
    | some f => miOk 32 (layout 32 [num 0 1 f.port.num, num 5 2 (f.cntlid % 0x1000), num 8 2 0x1F5A, num 12 2 0x1F5A, num 14 2 1])
    | none => miBadParam
  | 4 => miOk 2 (leBytes 2 0)
  | _ => miBadParam

/-- NVM Subsystem Health Status Poll: the state of the subsystem and its ports, the warnings, the composite status, and the
operating mode in the vendor field at byte 6; bit 31 of dword 1 clears the pending change, and with it MGMT_ALERT_N. -/
def Dev.miHealth (d : Dev) (dw1 : Nat) : Dev × MiAns :=
  let nss := 8 * bit (d.hport .a).dl + 4 * bit (d.hport .b).dl + 32 * bit (decide (d.modes.mode ≠ .halted))
  let b := layout 8 [num 0 1 nss, num 1 1 (255 - d.critWarn), num 2 1 (min 126 (d.kelvinOf 0 - 273)), num 3 1 (Config.freeNat d.free),
    num 4 2 (bit ((d.fnst (.pf .a)).rdy || (d.fnst (.pf .b)).rdy) + 0x1000 * d.mgmt.health), num 6 1 (modeCode d.modes.mode)]
  let d := d.tickFree
  (if bitOf dw1 31 then { d with mgmt := { d.mgmt with health := 0 } }.settleAlert else d, miOk 0 b)

/-- A controller's entry in the Controller Health Status Poll. -/
def Dev.ctlEntry (d : Dev) (f : Fn) : List Byte :=
  layout 16 [num 0 2 f.cntlid, num 2 2 (d.fnst f).statusBits, num 4 2 (d.kelvinOf 0), num 6 1 (Config.freeNat d.free), num 7 1 d.spareLeft,
    num 8 1 d.critWarn]

/-- What the BMC was last told of a controller. -/
def Dev.ctlSeen (d : Dev) (f : Fn) : Nat := d.mgmt.ctlHealth.get 0 f.cntlid
def Dev.ctlNow (d : Dev) (f : Fn) : Nat := (d.fnst f).statusBits + 256 * d.critWarn

/-- Controller Health Status Poll: of the controllers from the first ID on that the request includes (PFs by bit 25, VFs by bit 26
of dword 0), all of them (bit 31) or those that changed, up to the number asked for; bit 31 of dword 1 clears their changed flags. -/
def Dev.miCtlHealth (d : Dev) (dw0 dw1 : Nat) : Dev × MiAns :=
  let l := (allCntlids.filterMap fnOfCntlid).filter (fun (f : Fn) =>
    decide (bitsOf dw0 15 0 ≤ f.cntlid) && (if f.isPf then bitOf dw0 25 else bitOf dw0 26)
    && (bitOf dw0 31 || decide (d.ctlSeen f ≠ d.ctlNow f)))
  let l := l.take (bitsOf dw0 23 16 + 1)
  let b := l.flatMap d.ctlEntry
  let d' := if bitOf dw1 31 then
      { d with mgmt := { d.mgmt with ctlHealth := l.foldl (fun (t : Tbl Nat) (f : Fn) => t.put 0 f.cntlid (d.ctlNow f)) d.mgmt.ctlHealth } }
    else d
  (d'.tickFree, miOk (65536 * l.length) b)

/-- Configuration Set: SMBus/I2C Frequency (1 to 3 for 100 kHz, 400 kHz and 1 MHz), Health Status Change and MCTP Transmission Unit
Size (64 to 250 bytes). -/
def Dev.miConfigSet (d : Dev) (dw0 dw1 : Nat) : Dev × MiAns :=
  match bitsOf dw0 7 0 with
  | 1 =>
    let f := bitsOf dw0 11 8
    if f = 0 ∨ 3 < f then (d, miBadParam) else ({ d with mgmt := { d.mgmt with freq := f } }, miOk 0 [])
  | 2 => ({ d with mgmt := { d.mgmt with healthEn := dw1 } }.settleAlert, miOk 0 [])
  | 3 =>
    let m := bitsOf dw1 15 0
    if m < 64 ∨ 250 < m then (d, miBadParam) else ({ d with mgmt := { d.mgmt with mtu := m } }, miOk 0 [])
  | _ => (d, miBadParam)

/-- Configuration Get. -/
def Dev.miConfigGet (d : Dev) (dw0 : Nat) : MiAns :=
  match bitsOf dw0 7 0 with
  | 1 => miOk d.mgmt.freq []
  | 2 => miOk d.mgmt.healthEn []
  | 3 => miOk d.mgmt.mtu []
  | _ => miBadParam

/-- A Management Interface command: everything outside the subset is an Invalid Command Opcode (R121). -/
def Dev.miRun (d : Dev) (op dw0 dw1 : Nat) : Dev × MiAns :=
  match op with
  | 0 => (d, d.miRead dw0)
  | 1 => d.miHealth dw1
  | 2 => d.miCtlHealth dw0 dw1
  | 3 => d.miConfigSet dw0 dw1
  | 4 => (d, d.miConfigGet dw0)
  | _ => (d, miBadOpcode)

/-- An answer over MCTP: the response status, the management response and the data. -/
def Dev.miSend (x : Dev × MiAns) : Dev := x.1.emit (.mi x.2.status (leBytes 3 x.2.resp ++ x.2.data))

/-- An in-band NVMe-MI Send or Receive: its opcode is in CDW11 and its dwords in CDW12 and CDW13; an opcode outside the subset
completes with Invalid Command Opcode, everything else with the response in Dword 0. A Receive returns the data. -/
def Dev.miInBand (d : Dev) (cs : Nat) (s : CSlot) : Dev :=
  let op := bitsOf (s.dw 11) 7 0
  if 4 < op then d.complete cs cqeInvalidOpcode
  else
    let x := d.miRun op (s.dw 12) (s.dw 13)
    let e := cqeDw0 (BitVec.ofNat 32 (x.2.status + 256 * x.2.resp))
    if s.opcode = 0x1E then x.1.answer cs x.2.data e else x.1.complete cs e

/-- NVME_MI_SEND. -/
def nvmeMiSend (cs : Nat) (dma : DmaIn) (d : Dev) : Dev :=
  d.adminRun cs 0x1D (fun d s => d.withData cs dma (fun _ => d.miInBand cs s))

def execNvmeMiSend (cs : Nat) (dma : DmaIn) (s : State) : Host.Outcome State Fault Refusal := .next (s.onDev (nvmeMiSend cs dma))

/-- NVME_MI_RECEIVE. -/
def nvmeMiReceive (cs : Nat) (d : Dev) : Dev := d.adminRun cs 0x1E (fun d s => d.miInBand cs s)

def execNvmeMiReceive (cs : Nat) (s : State) : Host.Outcome State Fault Refusal := .next (s.onDev (nvmeMiReceive cs))

/-- A Management Interface command by either transport. Over MCTP the endpoint serves it in every mode but OFF, and in DORMANT only
the NVM Subsystem Health Status Poll; in-band it is the command of an NVMe-MI Send or Receive that carries this opcode. -/
def Dev.mi (d : Dev) (via : MiVia) (op : Nat) (m : MiReq) : Dev :=
  match via with
  | .mctp =>
    if d.modes.mode = .off ∨ (d.modes.mode = .dormant ∧ op ≠ 1) then d else Dev.miSend (d.miRun op m.dw0.toNat m.dw1.toNat)
  | .inBand cs =>
    match d.hg.slots.get? cs with
    | none => d
    | some s =>
      if bitsOf (s.dw 11) 7 0 ≠ op then d
      else (if s.opcode = 0x1D then nvmeMiSend cs (.ok m.body) else nvmeMiReceive cs) d

def miReadDataStructure (via : MiVia) (m : MiReq) (d : Dev) : Dev := d.mi via 0 m
def execMiReadDataStructure (via : MiVia) (m : MiReq) (s : State) : Host.Outcome State Fault Refusal := .next (s.onDev (miReadDataStructure via m))

def miSubsystemHealthPoll (via : MiVia) (m : MiReq) (d : Dev) : Dev := d.mi via 1 m
def execMiSubsystemHealthPoll (via : MiVia) (m : MiReq) (s : State) : Host.Outcome State Fault Refusal :=
  .next (s.onDev (miSubsystemHealthPoll via m))

def miControllerHealthPoll (via : MiVia) (m : MiReq) (d : Dev) : Dev := d.mi via 2 m
def execMiControllerHealthPoll (via : MiVia) (m : MiReq) (s : State) : Host.Outcome State Fault Refusal :=
  .next (s.onDev (miControllerHealthPoll via m))

def miConfigurationSet (via : MiVia) (m : MiReq) (d : Dev) : Dev := d.mi via 3 m
def execMiConfigurationSet (via : MiVia) (m : MiReq) (s : State) : Host.Outcome State Fault Refusal := .next (s.onDev (miConfigurationSet via m))

def miConfigurationGet (via : MiVia) (m : MiReq) (d : Dev) : Dev := d.mi via 4 m
def execMiConfigurationGet (via : MiVia) (m : MiReq) (s : State) : Host.Outcome State Fault Refusal := .next (s.onDev (miConfigurationGet via m))

end Sys2Proof.Machine
end

