-- ==== Sys2Proof/Machine/QuireCtl.lean ====
section
/-! DEFINITION. Quire Control (R253, R255, R256): patrol now, the patrol period, the mode, releasing a member, re-spread and
cancelling a release. -/

namespace Sys2Proof.Machine

/-- A Quire Control row runs where its buffer names the row's action; an action out of range ends in any of them (R256). -/
def Dev.quireCtl (d : Dev) (cs act : Nat) (dma : DmaIn) (f : Dev → Nat → Quire → Nat → Nat → Dev) : Dev :=
  let mine := match dma with
    | .ok b => decide (fieldAt b 0 1 = act) || decide (fieldAt b 0 1 = 0) || decide (6 < fieldAt b 0 1)
    | .fault _ => true
  if !mine then d
  else d.seqRun cs 0xC3 (fun d s => d.withData cs dma (fun b =>
    let q := fieldAt b 1 1
    if (List.range 6).any (fun i => decide (s.dw (10 + i) ≠ 0)) || decide (fieldAt b 0 1 ≠ act) || !zeroAt b 3 1 || !zeroAt b 8 4088 then
      d.complete cs cqeInvalidField
    else
      match d.quire q with
      | none => d.complete cs cqeInvalidField
      | some x => f d q x (fieldAt b 2 1) (fieldAt b 4 4)))

/-- QUIRE_PATROL_NOW. -/
def quirePatrolNow (cs : Nat) (dma : DmaIn) (d : Dev) : Dev :=
  d.quireCtl cs 1 dma (fun d q _ _ _ => (d.modQuire q (fun x => { x with patNow := true })).complete cs cqeOk)

def execQuirePatrolNow (cs : Nat) (dma : DmaIn) (s : State) : Host.Outcome State Fault Refusal :=
  .next (s.onDev (quirePatrolNow cs dma))

/-- QUIRE_SET_PERIOD: 24 to 336 hours. -/
def quireSetPeriod (cs : Nat) (dma : DmaIn) (d : Dev) : Dev :=
  d.quireCtl cs 2 dma (fun d q _ _ v =>
    if v < 24 ∨ 336 < v then d.complete cs cqeInvalidField
    else (d.modQuire q (fun x => { x with hours := v, effective := min x.effective v })).complete cs cqeOk)

def execQuireSetPeriod (cs : Nat) (dma : DmaIn) (s : State) : Host.Outcome State Fault Refusal :=
  .next (s.onDev (quireSetPeriod cs dma))

/-- Whether a namespace of an LC0 tenant is homed on a Quire. -/
def Dev.lc0On (d : Dev) (q : Nat) : Bool := d.lc0Quires.contains q

/-- QUIRE_SET_MODE (R207): to Strict, strict_active follows once every die position holds at most one grant; to Throughput,
it clears at once. -/
def quireSetMode (cs : Nat) (dma : DmaIn) (d : Dev) : Dev :=
  d.quireCtl cs 3 dma (fun d q x _ v =>
    if 1 < v then d.complete cs cqeInvalidField
    else if v = 0 then
      if d.lc0On q then d.complete cs (cqeVendor 0xC1)
      else (d.modQuire q (fun x => { x with strict := false, active := false })).complete cs cqeOk
    else if x.strict then d.complete cs cqeOk
    else ((d.modQuire q (fun x => { x with strict := true, active := false })).strictCheck q).complete cs cqeOk)

def execQuireSetMode (cs : Nat) (dma : DmaIn) (s : State) : Host.Outcome State Fault Refusal :=
  .next (s.onDev (quireSetMode cs dma))

/-- Starting the release of a member (R253): its open superblocks close, its journal-host duties move, and the superblocks
that include it are relocated. -/
def Dev.startRelease (d : Dev) (q m : Nat) (slot : Option Nat) : Dev :=
  let d := (d.modQuire q (fun x => x.modMember m (fun y => { y with st := .releasing }))).closeOver q m
  let d := match slot with
    | some s => d.hostLost s
    | none => d
  ((d.startWork q (.release m)).gcFurrow q).workProgress q

/-- QUIRE_RELEASE_MEMBER. -/
def quireReleaseMember (cs : Nat) (dma : DmaIn) (d : Dev) : Dev :=
  d.quireCtl cs 4 dma (fun d q x m _ =>
    match x.members.get? m with
    | none => d.complete cs cqeInvalidField
    | some y =>
      if x.work.isSome then d.complete cs (cqeVendor 0xC5)
      else if !y.present then d.complete cs cqeInvalidField
      else if x.presentWidth < 4 then d.complete cs (cqeVendor 0xC6)
      else if !(d.canHold q x (x.presentWidth - 1)) then d.complete cs (cqeVendor 0xC7)
      else (d.startRelease q m y.slot).complete cs cqeOk)

def execQuireReleaseMember (cs : Nat) (dma : DmaIn) (s : State) : Host.Outcome State Fault Refusal :=
  .next (s.onDev (quireReleaseMember cs dma))

/-- QUIRE_START_RESPREAD (R245, R252): a rebuild that is held back, or else the re-spread of members that wait. -/
def quireStartRespread (cs : Nat) (dma : DmaIn) (d : Dev) : Dev :=
  d.quireCtl cs 5 dma (fun d q x _ _ =>
    if x.work.isSome then d.complete cs (cqeVendor 0xC5)
    else if x.held then
      if d.canHold q x x.presentWidth then (d.tryRebuild q).complete cs cqeOk else d.complete cs (cqeVendor 0xC7)
    else if x.anyIn .joining then (((d.startWork q .respread).gcFurrow q).workProgress q).complete cs cqeOk
    else d.complete cs (cqeVendor 0xC9))

def execQuireStartRespread (cs : Nat) (dma : DmaIn) (s : State) : Host.Outcome State Fault Refusal :=
  .next (s.onDev (quireStartRespread cs dma))

/-- QUIRE_CANCEL_RELEASE. -/
def quireCancelRelease (cs : Nat) (dma : DmaIn) (d : Dev) : Dev :=
  d.quireCtl cs 6 dma (fun d q x m _ =>
    if x.memSt m ≠ .releasing then d.complete cs (cqeVendor 0xC9)
    else ((d.modQuire q (fun x => { x.modMember m (fun y => { y with st := .active }) with work := none })).quireConds).complete cs cqeOk)

def execQuireCancelRelease (cs : Nat) (dma : DmaIn) (s : State) : Host.Outcome State Fault Refusal :=
  .next (s.onDev (quireCancelRelease cs dma))

end Sys2Proof.Machine
end

