-- ==== Sys2Proof/Machine/RegWrite.lean ====
section
/-! DEFINITION. Register writes (R9, R10, R13, R43, R97 to R101, R104): the control space, the registers of BAR0 and the
configuration space. -/

namespace Sys2Proof.Machine

/-! ### What is assigned, and where (R9, R11) -/

/-- The runs of assigned words of the control space: first address, count, stride. -/
def csrRunsFront : List (Nat × Nat × Nat) :=
  [(0x40000400, 3, 4), (0x40000410, 1, 4), (0x40000420, 3, 4), (0x40000430, 2, 4), (0x40000440, 1, 4), (0x40000500, 3, 4),
   (0x40000600, 3, 4), (0x40000610, 2, 4), (0x42000000, 1, 4), (0x42000010, 2, 4), (0x42000020, 1, 4), (0x42000100, 18, 4),
   (0x42000200, 2, 4), (0x43000000, 2, 4), (0x43000010, 2, 4), (0x43000020, 2, 4), (0x43000030, 3, 4), (0x43000100, 6, 4),
   (0x43000120, 6, 4), (0x43000140, 4, 4), (0x43010000, 64, 4), (0x44000000, 3, 4), (0x44000010, 1, 4), (0x44000020, 2, 4),
   (0x44000030, 1, 4), (0x44000040, 1, 4), (0x44000100, 10, 4), (0x44000200, 4, 4), (0x44000300, 3, 4)]

def csrRunsMedia : List (Nat × Nat × Nat) :=
  [(0x45000000, 2, 4), (0x45000010, 2, 4), (0x4500F000, 3, 4), (0x4500F010, 3, 4), (0x4500F020, 5, 4), (0x4500F040, 3, 4),
   (0x45010000, 64, 0x100), (0x45010004, 64, 0x100), (0x45010008, 64, 0x100), (0x4501000C, 64, 0x100), (0x45010010, 64, 0x100),
   (0x45010014, 64, 0x100), (0x45010020, 64, 0x100), (0x45080000, 10, 4), (0x45080030, 1, 4), (0x45080040, 2, 4), (0x45080050, 4, 4),
   (0x46000100, 2, 4), (0x46000110, 6, 4), (0x46000130, 1, 4), (0x46000200, 1, 4), (0x47000000, 1, 4), (0x47000010, 1, 4),
   (0x47000020, 1, 4), (0x47000100, 6, 4), (0x47000200, 6, 4)]

def csrRunsBack : List (Nat × Nat × Nat) :=
  [(0x48000000, 3, 4), (0x48000100, 12, 4), (0x48000140, 24, 4), (0x48000200, 4, 4), (0x48000300, 3, 4), (0x48000310, 1, 4),
   (0x49000000, 1, 4), (0x49000010, 3, 4), (0x49000020, 2, 4), (0x49000100, 12, 4), (0x49000140, 2, 4), (0x49000200, 12, 0x20),
   (0x49000204, 12, 0x20), (0x49000208, 12, 0x20), (0x4900020C, 12, 0x20), (0x49000400, 2, 4), (0x49000500, 4, 4), (0x4A000000, 5, 4),
   (0x4A000100, 3, 4), (0x4A800000, 1, 4), (0x4A800010, 2, 4), (0x4A800040, 12, 4), (0x4B000000, 9, 4), (0x4B001000, 4, 0x400),
   (0x4B001004, 4, 0x400), (0x4B001008, 4, 0x400), (0x4B00100C, 4, 0x400), (0x4B001100, 64, 4), (0x4B001500, 64, 4), (0x4B001900, 64, 4),
   (0x4B001D00, 64, 4)]

/-- Whether an address lies in a run. -/
def inRun (a : Nat) (x : Nat × Nat × Nat) : Bool :=
  decide (x.1 ≤ a) && decide ((a - x.1) % x.2.2 = 0) && decide ((a - x.1) / x.2.2 < x.2.1)

/-- Whether a register is assigned to an address. -/
def csrAssigned (a : Nat) : Bool := (csrRunsFront ++ csrRunsMedia ++ csrRunsBack).any (inRun a)

/-- A domain that is OFF or on its way there. -/
def Dev.domDark (d : Dev) (k : Nat) : Bool :=
  let x := d.dom k
  decide (x.st = .off) || (decide (x.st = .trans) && decide (x.up = .off))

/-- A requester's number in an event: the Warden, then the lockstep pairs. -/
def Requester.num : Requester → Nat
  | .warden => 0
  | .lp k => k + 1

/-- CSR_UNASSIGNED_ACCESS: a read returns 0 and a write is discarded; the access is recorded. -/
def csrUnassigned (req : Requester) (a : Nat) (d : Dev) : Dev :=
  if d.modes.mode = .off ∨ csrAssigned a = true then d else d.ev evWdnCsrUnassigned 0 [.num 4 a, .num 1 req.num]

def execCsrUnassignedAccess (req : Requester) (addr : Nat) (_write : Bool) (s : State) : Host.Outcome State Fault Refusal :=
  .next (s.onDev (csrUnassigned req addr))

/-- CSR_DOMAIN_OFF_ACCESS: a read returns 0 and a write is discarded; the access is recorded. -/
def csrDomainOff (req : Requester) (a : Nat) (d : Dev) : Dev :=
  if d.modes.mode = .off ∨ csrAssigned a = false ∨ d.domDark (d.csrDomain a) = false then d
  else d.ev evWdnCsrDomainOff 0 [.num 4 a, .num 1 req.num]

def execCsrDomainOffAccess (req : Requester) (addr : Nat) (_write : Bool) (s : State) : Host.Outcome State Fault Refusal :=
  .next (s.onDev (csrDomainOff req addr))

/-! ### Ranges -/

/-- Whether every field of a value lies in the range that its register gives. -/
def csrInRange (a : Nat) (w : Nat) : Bool :=
  let within := fun (hi lo least most : Nat) => decide (least ≤ bitsOf w hi lo) && decide (bitsOf w hi lo ≤ most)
  if a = aHgSlotAdmin then within 10 0 0 1024
  else if a = aTcLpCkpt then within 9 0 100 700
  else if a = aGlCtrl then within 15 8 1 255 && within 23 16 1 64
  else if a = aGlTimer then within 7 0 5 100 && within 11 8 1 5
  else if a = aRpDeadline0 then within 15 0 10 1000 && within 31 16 10 10000
  else if a = aRpDeadline1 then within 15 0 10 60000
  else if a = aRpCtrl then within 7 4 1 15 && within 15 8 1 255 && within 25 16 1 1023
  else if a = aLadderCtrl then within 11 4 1 255 && within 16 12 0 16
  else if a = aVrefCtrl then within 7 0 8 255
  else if a = aPatrolTrend then decide (bitsOf w 31 16 < bitsOf w 15 0)
  else if a = aI3cCtrl then within 1 0 0 2 && within 15 8 1 100
  else if a = aBpmSbRsv then within 5 0 0 48
  else if a = aDmcCtrl then within 15 8 5 255 && within 19 16 0 15
  else if a = aSluCharge then within 15 0 1 4000 && within 31 16 1 4000
  else if a = aThmSensorIdx then within 5 0 0 47
  else true

/-- The event of a subsystem for a write that holds an out-of-range value; the Headgate has none. -/
def badEvent (a : Nat) : Option Nat :=
  if a < 0x41000000 then some evWdnParamBad
  else if a < 0x43000000 then none
  else if a < 0x44000000 then some evColParamBad
  else if a < 0x45000000 then some evTcParamBad
  else if 0x4500F000 ≤ a ∧ a < 0x45010000 then some evGlRpParamBad
  else if a < 0x46000000 then some evGlParamBad
  else if a < 0x47000000 then some evMcParamBad
  else if a < 0x48000000 then some evSigParamBad
  else if a < 0x49000000 then some evBpmParamBad
  else if a < 0x4A000000 then some evDmcParamBad
  else if a < 0x4A800000 then some evSluParamBad
  else if a < 0x4B000000 then some evThmParamBad
  else some evEvlParamBad

/-- A write with an out-of-range value is ignored in whole, and recorded. -/
def Dev.badWrite (d : Dev) (a : Nat) : Dev :=
  match badEvent a with
  | some e => d.ev e 0 [.num 4 a]
  | none => d

/-! ### Plain fields (R10) -/

/-- Whether the lock that governs a register's RWL fields is set: DMC_INJ_CTRL.lock for the injection registers, and the pools'
configuration lock for the Buffer Pool Manager's. -/
def Dev.rwlLocked (d : Dev) (a : Nat) : Bool := if a < 0x49000000 then d.bpm.lock else d.injLocked

/-- The word after a write: RW fields take it, and RWL fields too while their lock is open; every other bit stays. -/
def mergeWord (r : RegDesc) (locked : Bool) (old v : W32) : W32 :=
  let m := if locked then r.rw else r.rw ||| r.rwl
  (old &&& ~~~ m) ||| (v &&& m)

/-- A write to a register of plain fields. -/
def Dev.plainWrite (d : Dev) (a : Nat) (v : W32) : Dev :=
  match regDesc a with
  | none => d
  | some r => if !csrInRange a v.toNat then d.badWrite a else d.setCsr a (mergeWord r (d.rwlLocked a) (d.csrW a) v)

/-! ### Registers with commands or windows -/

/-- GL_SB_CMD: the fields are stored, and go carries the action out. -/
def Dev.sbWrite (d : Dev) (v : W32) : Dev :=
  let s := bitsOf v.toNat 5 0
  let act := bitsOf v.toNat 9 8
  if !bitOf v.toNat 16 then d.plainWrite aSbCmd v
  else if act = 0 then d.badWrite aSbCmd
  else
    let d := d.plainWrite aSbCmd v
    if act = 1 then slotPowerOn s d else if act = 2 then slotPowerOff s d else slotResetPulse s d

/-- WDN_PD_REQ: the fields are stored, and go submits the request. -/
def Dev.pdWrite (d : Dev) (v : W32) : Dev :=
  if bitOf v.toNat 16 then pdRequest (bitsOf v.toNat 5 0) (bitsOf v.toNat 9 8) d else d.plainWrite aPdReq v

/-- COL_WIN_CMD: an operation that go submits, or fields that are stored. A match line that an error hides is a free value. -/
def Dev.winWrite (d : Dev) (v : W32) : Dev :=
  let lost := Config.freeBool d.free
  if !bitOf v.toNat 8 then d.plainWrite aColCmd v
  else match bitsOf v.toNat 3 0 with
    | 1 => (colSearchCmd v lost d).tickFree
    | 2 => (colStepCmd v lost d).tickFree
    | 3 => colInsertCmd v d
    | 4 => colRemoveCmd v d
    | 5 => (colReadCmd v lost d).tickFree
    | 6 => colWriteCmd v d
    | _ => (d.plainWrite aColCmd v).winEnd 3

/-- What a read-back finds: a free value. -/
def Dev.freeEcc (d : Dev) : EccResult :=
  match Config.freeNat d.free % 3 with
  | 0 => .clean
  | 1 => .corrected (Config.freeNat (d.free + 1) % 10) (Config.freeNat (d.free + 2) % 256)
  | _ => .uncorrectable

/-- DMC_FIX_CMD: an operation that go submits, or fields that are stored. What a read-back finds is a free value. -/
def Dev.fixWrite (d : Dev) (v : W32) : Dev :=
  let op := bitsOf v.toNat 5 4
  if !bitOf v.toNat 6 then (if 11 < bitsOf v.toNat 3 0 then d.dmcBad aDmcFixCmd else d.plainWrite aDmcFixCmd v)
  else if op = 1 then (rewriteWord v d.freeEcc d).tickFree.tickFree.tickFree
  else if op = 2 then retirePage v d
  else if op = 3 then releaseRemap v d
  else d.fixDone v 4

/-- DMC_INJ_CTRL: lock is the Warden's alone; channel and beat are stored and the injector armed while it is not set. -/
def Dev.injWrite (d : Dev) (req : Requester) (v : W32) : Dev :=
  if 11 < bitsOf v.toNat 3 0 then d.dmcBad aDmcInjCtrl
  else
    let d := d.plainWrite aDmcInjCtrl v
    let d := if bitOf v.toNat 8 then injectArm d else d
    if bitOf v.toNat 10 && decide (req = .warden) then injectLock d else d

/-- BPM_CTRL: zero_bg_en is stored, and cfg_lock runs the checks of R337. -/
def Dev.bpmWrite (d : Dev) (v : W32) : Dev :=
  let d := d.plainWrite aBpmCtrl v
  if bitOf v.toNat 0 then cfgLock d else d

/-- The pool and owner of the owner window. -/
def Dev.ownKey (d : Dev) : Nat := 8 * d.reg aBpmOwnIdx 5 0 + d.reg aBpmOwnIdx 10 8

/-- BPM_OWN_MIN, until the lock; BPM_OWN_CAP at any time, which may let a waiting requester go on (R339, R341). -/
def Dev.ownMinWrite (d : Dev) (v : W32) : Dev :=
  if d.bpm.lock then d else { d with bpm := { d.bpm with mins := d.bpm.mins.put 0 d.ownKey (bitsOf v.toNat 18 0) } }

def Dev.ownCapWrite (d : Dev) (v : W32) : Dev :=
  { d with bpm := { d.bpm with caps := d.bpm.caps.put 0x7FFFF d.ownKey (bitsOf v.toNat 18 0) } }.bpmReady (d.reg aBpmOwnIdx 10 8)

/-- A service class from its code (Table 13-3). -/
def classOf (k : Nat) : DClass := if k = 0 then .rt else if k = 1 then .lat else if k = 2 then .bulk else .bg

/-- DMC_PORT_CFG: the class of a port that is not fixed, and the weir of an RT port. -/
def Dev.portCfgWrite (d : Dev) (v : W32) : Dev :=
  let p := d.reg aDmcPortIdx 5 0
  let w := bitsOf v.toNat 15 8
  if w = 0 ∨ 31 < w then d.badWrite aDmcPortCfg
  else
    let d := if dmcFixed p then d else d.modDport p (fun x => { x with cls := some (classOf (bitsOf v.toNat 1 0)) })
    if d.dclass p = .rt then d.modDport p (fun x => { x with weir := w }) else d

/-- A reader context's registers (R424, R432). -/
def Dev.ctxWrite (d : Dev) (a : Nat) (v : W32) : Dev :=
  let k := (a - 0x4B001000) / 0x400
  let o := (a - 0x4B001000) % 0x400
  if o = 0 then (if bitOf v.toNat 0 then ledgerLatch k d else d)
  else if o = 8 then ledgerCursor k v.toNat d
  else if o = 0x0C then (if bitOf v.toNat 16 then ledgerNext k d else d)
  else d

/-- A per-link register: only GL_LNK_CMD takes a write. -/
def Dev.lnkWrite (d : Dev) (a : Nat) (v : W32) : Dev :=
  let s := (a - 0x45010000) / 0x100
  if (a - 0x45010000) % 0x100 = 0x20 then
    let d := if bitOf v.toNat 0 then linkRetrain s d else d
    if bitOf v.toNat 1 then linkQuarantine s d else d
  else d

/-- GL_SB_CHG0 and 1: a 1 clears its bit. -/
def Dev.chgWrite (d : Dev) (hi : Bool) (v : W32) : Dev :=
  let m := BitVec.ofNat 64 (if hi then 2 ^ 32 * v.toNat else v.toNat)
  { d with gl := { d.gl with changed := d.gl.changed &&& ~~~ m } }

/-- WDN_HU_CTRL.test_now starts a test. -/
def Dev.huWrite (d : Dev) (v : W32) : Dev := if bitOf v.toNat 0 then huTestDue d else d

/-- A write to an assigned register whose domain is powered. -/
def Dev.csrWrite (d : Dev) (req : Requester) (a : Nat) (v : W32) : Dev :=
  if a = aPdReq then d.pdWrite v
  else if a = aWarmFloor then warmFloorWrite v d
  else if a = aIdleGate then idleGateWrite v d
  else if a = aHuCtrl then d.huWrite v
  else if a = aHgCtrl then hgCtrlWrite v d
  else if a = aHgContractCmd then
    let d := if bitOf v.toNat 0 then contractLoad d else d
    if bitOf v.toNat 1 then contractApply d else d
  else if a = aColCtrl then colInjectCmd v d
  else if a = aColPart then colPartWrite v d
  else if a = aColCmd then d.winWrite v
  else if a = aTcGcWeir then gcWeirWrite v d
  else if a = aTcFurrowCmd then (if bitOf v.toNat 0 then furrowWindowLoad d else d)
  else if a = aSbCmd then d.sbWrite v
  else if a = aSbChg then d.chgWrite false v
  else if a = aSbChg + 4 then d.chgWrite true v
  else if a = aBpmCtrl then d.bpmWrite v
  else if a = aBpmOwnMin then d.ownMinWrite v
  else if a = aBpmOwnCap then d.ownCapWrite v
  else if a = aDmcPortCfg then d.portCfgWrite v
  else if a = aDmcFixCmd then d.fixWrite v
  else if a = aDmcInjCtrl then d.injWrite req v
  else if 0x49000200 ≤ a ∧ a < 0x49000380 then
    (if (a - 0x49000200) % 0x20 = 0 && bitOf v.toNat 7 then ceLogPop ((a - 0x49000200) / 0x20) d else d)
  else if 0x45010000 ≤ a ∧ a < 0x45014000 then d.lnkWrite a v
  else if 0x4B001000 ≤ a then d.ctxWrite a v
  else d.plainWrite a v

/-- A control-space write: it reaches its register unless the address is unassigned or the register's domain is dark. -/
def regWrite (req : Requester) (a : Nat) (v : W32) (d : Dev) : Dev :=
  if d.modes.mode = .off then d
  else if !csrAssigned a then csrUnassigned req a d
  else if d.domDark (d.csrDomain a) then csrDomainOff req a d
  else d.csrWrite req a v

/-! ### BAR0 and the configuration space -/

/-- CC: enabling, disabling and shutting down, and the other fields. -/
def Dev.ccWrite (d : Dev) (f : Fn) (v : W32) : Dev :=
  let was := (d.fnst f).cc.toNat
  if bitOf v.toNat 0 ≠ bitOf was 0 then (if bitOf v.toNat 0 then controllerEnable f v d else controllerReset f v d)
  else if bitsOf v.toNat 15 14 ≠ bitsOf was 15 14 then shutdownNotification f v d
  else d.modFn f (fun s => { s with cc := v })

/-- One half of a 64-bit register. -/
def setHalf (hi : Bool) (v : W32) (x : BitVec 64) : BitVec 64 :=
  if hi then BitVec.ofNat 64 (2 ^ 32 * v.toNat + x.toNat % 2 ^ 32) else BitVec.ofNat 64 (x.toNat / 2 ^ 32 * 2 ^ 32 + v.toNat)

/-- One word of a mailbox's command packet. -/
def setPacket (i : Nat) (v : W32) (x : BitVec 512) : BitVec 512 :=
  BitVec.ofNat 512 (x.toNat - 2 ^ (32 * i) * (x.toNat / 2 ^ (32 * i) % 2 ^ 32) + 2 ^ (32 * i) * v.toNat)

/-- KMB_INT: done and mode_changed are cleared by 1s, and the enables are stored. -/
def Kmb.intWrite (b : Kmb) (v : W32) : Kmb :=
  { b with done := b.done && !bitOf v.toNat 0, changed := b.changed && !bitOf v.toNat 1, doneEn := bitOf v.toNat 8, modeEn := bitOf v.toNat 9 }

/-- A 32-bit write to BAR0. Doorbells are those of the queues; the mailbox's packet and interrupt register are a PF's; a ring has
rows of its own; the Inspection Window and everything else ignore writes. -/
def Dev.bar0Write (d : Dev) (f : Fn) (o : Nat) (v : W32) : Dev :=
  if !d.fnUp f then d
  else if o = 0x14 then d.ccWrite f v
  else if o = 0x24 then d.modFn f (fun s => { s with aqa := v &&& 0x0FFF0FFF#32 })
  else if o = 0x28 ∨ o = 0x2C then d.modFn f (fun s => { s with asq := setHalf (decide (o = 0x2C)) v s.asq })
  else if o = 0x30 ∨ o = 0x34 then d.modFn f (fun s => { s with acq := setHalf (decide (o = 0x34)) v s.acq })
  else if 0x1000 ≤ o ∧ o < 0x1000 + (if f.isPf then 129 else 17) * 8 ∧ o % 4 = 0 then
    (if o % 8 = 0 then sqTailDoorbell f ((o - 0x1000) / 8) v.toNat d else cqHeadDoorbell f ((o - 0x1000) / 8) v.toNat d)
  else match f with
    | .vf _ _ => d
    | .pf p =>
      if 0x10000 ≤ o ∧ o < 0x10040 ∧ o % 4 = 0 then d.modBox p (fun b => { b with cmd := setPacket ((o - 0x10000) / 4) v b.cmd })
      else if o = 0x10084 then d.modBox p (fun b => b.intWrite v)
      else d

/-- A vector's mask bit; a pending bit that is uncovered is signalled (R101). -/
def Dev.maskWrite (d : Dev) (f : Fn) (vec : Nat) (m : Bool) : Dev :=
  if (if f.isPf then 129 else 17) ≤ vec then d
  else if m then d.modFn f (fun s => { s with msixMask := vec :: s.msixMask.filter (fun x => decide (x ≠ vec)) })
  else
    let pend := (d.fnst f).pba.contains vec
    let d := d.modFn f (fun s => { s with msixMask := s.msixMask.filter (fun x => decide (x ≠ vec)), pba := s.pba.filter (fun x => decide (x ≠ vec)) })
    if pend then d.signal f vec else d

/-- VF Enable: VFs whose number NumVFs covers appear in their configuration-reset state, or all of them go. -/
def Dev.vfWrite (d : Dev) (p : Port) (on : Bool) : Dev :=
  let d := if on then d else (d.vfsOf p).foldl (fun (d : Dev) (f : Fn) => d.cfgReset f) d
  d.modPort p (fun h => { h with vfEn := on })

/-- A write to a field of the configuration space, or to one of BAR0. -/
def Dev.hostWrite (d : Dev) (t : RegTarget) (v : W32) : Dev :=
  let b := bitOf v.toNat 0
  match t with
  | .csr req a => regWrite req a v d
  | .bar0 f o => d.bar0Write f o v
  | .busMaster f => if d.fnUp f then d.modFn f (fun s => { s with bme := b }) else d
  | .vfEnable p => if (d.hport p).dl then d.vfWrite p b else d
  | .numVfs p => if (d.hport p).dl && !(d.hport p).vfEn && decide (v.toNat ≤ 512) then d.modPort p (fun h => { h with numVfs := v.toNat }) else d
  | .msixEnable f => if d.fnUp f then d.modFn f (fun s => { s with msix := b }) else d
  | .msixMask f vec => if d.fnUp f then d.maskWrite f vec b else d
  | .msiEnable p => if (d.hport p).dl then d.modFn (.pf p) (fun s => { s with msi := b }) else d

/-- REGISTER_WRITE. -/
def registerWrite (t : RegTarget) (v : W32) (d : Dev) : Dev := if d.modes.mode = .off then d else d.hostWrite t v

def execRegisterWrite (t : RegTarget) (v : W32) (s : State) : Host.Outcome State Fault Refusal := .next (s.onDev (registerWrite t v))

end Sys2Proof.Machine
end

