-- ==== Sys2Proof/Machine/Dispatch.lean ====
section
/-! DEFINITION. One arm for every command of the table, each a direct call of its meaning. Every command has its meaning. -/

namespace Sys2Proof.Machine

def exec (i : Instr) (s : State) : Host.Outcome State Fault Refusal :=
  match i with
  | .porNAssert => Sys2Proof.Machine.execPorNAssert s
  | .porNDeassert straps => Sys2Proof.Machine.execPorNDeassert straps s
  | .crystalStable => Sys2Proof.Machine.execCrystalStable s
  | .perstAssert p => Sys2Proof.Machine.execPerstAssert p s
  | .perstDeassert p => Sys2Proof.Machine.execPerstDeassert p s
  | .linkDlActive p rate width flit => Sys2Proof.Machine.execLinkDlActive p rate width flit s
  | .surpriseLinkDown p => Sys2Proof.Machine.execSurpriseLinkDown p s
  | .mailboxReady => Sys2Proof.Machine.execMailboxReady s
  | .refclkLost p => Sys2Proof.Machine.execRefclkLost p s
  | .pwrfailNAssert => Sys2Proof.Machine.execPwrfailNAssert s
  | .pwrfailNDeassert => Sys2Proof.Machine.execPwrfailNDeassert s
  | .holdupSealWritten => Sys2Proof.Machine.execHoldupSealWritten s
  | .coreRailOutOfLimits => Sys2Proof.Machine.execCoreRailOutOfLimits s
  | .tempSample temps => Sys2Proof.Machine.execTempSample temps s
  | .dieThrottleStepTimer => Sys2Proof.Machine.execDieThrottleStepTimer s
  | .railSample vcore icore iaux => Sys2Proof.Machine.execRailSample vcore icore iaux s
  | .railStepTimer => Sys2Proof.Machine.execRailStepTimer s
  | .railLimitClearTimer => Sys2Proof.Machine.execRailLimitClearTimer s
  | .noPlacementClearTimer => Sys2Proof.Machine.execNoPlacementClearTimer s
  | .hello p k => Sys2Proof.Machine.execHello p k s
  | .beginImage p k => Sys2Proof.Machine.execBeginImage p k s
  | .writeChunk p k dma => Sys2Proof.Machine.execWriteChunk p k dma s
  | .endImage p k => Sys2Proof.Machine.execEndImage p k s
  | .putImposition p k dma => Sys2Proof.Machine.execPutImposition p k dma s
  | .getStatus p k => Sys2Proof.Machine.execGetStatus p k s
  | .getColophon p k => Sys2Proof.Machine.execGetColophon p k s
  | .getLedger p k => Sys2Proof.Machine.execGetLedger p k s
  | .enrollOwnerEnrol p k dma => Sys2Proof.Machine.execEnrollOwnerEnrol p k dma s
  | .enrollOwnerRevoke p k dma => Sys2Proof.Machine.execEnrollOwnerRevoke p k dma s
  | .abortLoad p k => Sys2Proof.Machine.execAbortLoad p k s
  | .folioVerifyDone => Sys2Proof.Machine.execFolioVerifyDone s
  | .awaitImageTimeout => Sys2Proof.Machine.execAwaitImageTimeout s
  | .dramTrainingDone ch res => Sys2Proof.Machine.execDramTrainingDone ch res s
  | .colophonReadDone slot bytes => Sys2Proof.Machine.execColophonReadDone slot bytes s
  | .colophonReadRetry slot answered => Sys2Proof.Machine.execColophonReadRetry slot answered s
  | .mapRestoreDone r => Sys2Proof.Machine.execMapRestoreDone r s
  | .assembleEntryDecision => Sys2Proof.Machine.execAssembleEntryDecision s
  | .huTestDue => Sys2Proof.Machine.execHuTestDue s
  | .huTestDone o => Sys2Proof.Machine.execHuTestDone o s
  | .pdRequest domain target => Sys2Proof.Machine.execPdRequest domain target s
  | .domainPowerUpDone dom => Sys2Proof.Machine.execDomainPowerUpDone dom s
  | .domainDrainDone dom => Sys2Proof.Machine.execDomainDrainDone dom s
  | .idleGateTimeout dom => Sys2Proof.Machine.execIdleGateTimeout dom s
  | .domainFailed dom => Sys2Proof.Machine.execDomainFailed dom s
  | .warmFloorWrite v => Sys2Proof.Machine.execWarmFloorWrite v s
  | .idleGateWrite v => Sys2Proof.Machine.execIdleGateWrite v s
  | .idleEntry => Sys2Proof.Machine.execIdleEntry s
  | .idleEntryComplete => Sys2Proof.Machine.execIdleEntryComplete s
  | .apstTransition ps => Sys2Proof.Machine.execApstTransition ps s
  | .controllerEnable fn cc => Sys2Proof.Machine.execControllerEnable fn cc s
  | .controllerReset fn cc => Sys2Proof.Machine.execControllerReset fn cc s
  | .shutdownNotification fn cc => Sys2Proof.Machine.execShutdownNotification fn cc s
  | .functionLevelReset fn => Sys2Proof.Machine.execFunctionLevelReset fn s
  | .sqTailDoorbell fn qid v => Sys2Proof.Machine.execSqTailDoorbell fn qid v s
  | .cqHeadDoorbell fn qid v => Sys2Proof.Machine.execCqHeadDoorbell fn qid v s
  | .fetchDecision => Sys2Proof.Machine.execFetchDecision s
  | .sqFetchComplete fn qid res => Sys2Proof.Machine.execSqFetchComplete fn qid res s
  | .commandClassified cs lost => Sys2Proof.Machine.execCommandClassified cs lost s
  | .tokenRefill => Sys2Proof.Machine.execTokenRefill s
  | .deleteIoSq cs => Sys2Proof.Machine.execDeleteIoSq cs s
  | .createIoSq cs => Sys2Proof.Machine.execCreateIoSq cs s
  | .getLogPage cs => Sys2Proof.Machine.execGetLogPage cs s
  | .deleteIoCq cs => Sys2Proof.Machine.execDeleteIoCq cs s
  | .createIoCq cs => Sys2Proof.Machine.execCreateIoCq cs s
  | .identify cs => Sys2Proof.Machine.execIdentify cs s
  | .abort cs => Sys2Proof.Machine.execAbort cs s
  | .setFeatures cs dma => Sys2Proof.Machine.execSetFeatures cs dma s
  | .getFeatures cs => Sys2Proof.Machine.execGetFeatures cs s
  | .asyncEventRequest cs => Sys2Proof.Machine.execAsyncEventRequest cs s
  | .namespaceCreate cs dma => Sys2Proof.Machine.execNamespaceCreate cs dma s
  | .namespaceDelete cs => Sys2Proof.Machine.execNamespaceDelete cs s
  | .namespaceAttach cs dma => Sys2Proof.Machine.execNamespaceAttach cs dma s
  | .namespaceDetach cs dma => Sys2Proof.Machine.execNamespaceDetach cs dma s
  | .firmwareImageDownload cs dma => Sys2Proof.Machine.execFirmwareImageDownload cs dma s
  | .firmwareCommit cs => Sys2Proof.Machine.execFirmwareCommit cs s
  | .activationDrained => Sys2Proof.Machine.execActivationDrained s
  | .deviceSelfTest cs => Sys2Proof.Machine.execDeviceSelfTest cs s
  | .deviceSelfTestDone ok => Sys2Proof.Machine.execDeviceSelfTestDone ok s
  | .virtualizationManagement cs => Sys2Proof.Machine.execVirtualizationManagement cs s
  | .nvmeMiSend cs dma => Sys2Proof.Machine.execNvmeMiSend cs dma s
  | .nvmeMiReceive cs => Sys2Proof.Machine.execNvmeMiReceive cs s
  | .formatNvm cs => Sys2Proof.Machine.execFormatNvm cs s
  | .sanitizeCryptoErase cs => Sys2Proof.Machine.execSanitizeCryptoErase cs s
  | .sanitizeBlockErase cs => Sys2Proof.Machine.execSanitizeBlockErase cs s
  | .sanitizeExitFailureMode cs => Sys2Proof.Machine.execSanitizeExitFailureMode cs s
  | .sanitizeDone ok => Sys2Proof.Machine.execSanitizeDone ok s
  | .getLbaStatus cs => Sys2Proof.Machine.execGetLbaStatus cs s
  | .ledgerNewVolume cs => Sys2Proof.Machine.execLedgerNewVolume cs s
  | .tenantContractSet cs dma => Sys2Proof.Machine.execTenantContractSet cs dma s
  | .tenantContractGet cs => Sys2Proof.Machine.execTenantContractGet cs s
  | .quirePatrolNow cs dma => Sys2Proof.Machine.execQuirePatrolNow cs dma s
  | .quireSetPeriod cs dma => Sys2Proof.Machine.execQuireSetPeriod cs dma s
  | .quireSetMode cs dma => Sys2Proof.Machine.execQuireSetMode cs dma s
  | .quireReleaseMember cs dma => Sys2Proof.Machine.execQuireReleaseMember cs dma s
  | .quireStartRespread cs dma => Sys2Proof.Machine.execQuireStartRespread cs dma s
  | .quireCancelRelease cs dma => Sys2Proof.Machine.execQuireCancelRelease cs dma s
  | .holdUpTestNow cs => Sys2Proof.Machine.execHoldUpTestNow cs s
  | .flush cs => Sys2Proof.Machine.execFlush cs s
  | .write cs => Sys2Proof.Machine.execWrite cs s
  | .read cs => Sys2Proof.Machine.execRead cs s
  | .writeZeroes cs => Sys2Proof.Machine.execWriteZeroes cs s
  | .datasetManagement cs dma => Sys2Proof.Machine.execDatasetManagement cs dma s
  | .verify cs => Sys2Proof.Machine.execVerify cs s
  | .ioManagementReceive cs => Sys2Proof.Machine.execIoManagementReceive cs s
  | .ioManagementSend cs dma => Sys2Proof.Machine.execIoManagementSend cs dma s
  | .zoneOpen cs => Sys2Proof.Machine.execZoneOpen cs s
  | .zoneClose cs => Sys2Proof.Machine.execZoneClose cs s
  | .zoneFinish cs => Sys2Proof.Machine.execZoneFinish cs s
  | .zoneReset cs => Sys2Proof.Machine.execZoneReset cs s
  | .zoneOffline cs => Sys2Proof.Machine.execZoneOffline cs s
  | .zoneManagementReceive cs => Sys2Proof.Machine.execZoneManagementReceive cs s
  | .zoneAppend cs => Sys2Proof.Machine.execZoneAppend cs s
  | .writeDataReceived cs dma => Sys2Proof.Machine.execWriteDataReceived cs dma s
  | .collationRemove tag => Sys2Proof.Machine.execCollationRemove tag s
  | .readerRelease cs tag => Sys2Proof.Machine.execReaderRelease cs tag s
  | .mapWalkDone rid => Sys2Proof.Machine.execMapWalkDone rid s
  | .redecideTimer rid => Sys2Proof.Machine.execRedecideTimer rid s
  | .suspendWindowTimeout slot die => Sys2Proof.Machine.execSuspendWindowTimeout slot die s
  | .progDeferTimeout id => Sys2Proof.Machine.execProgDeferTimeout id s
  | .dieWarmTimer slot die => Sys2Proof.Machine.execDieWarmTimer slot die s
  | .strictWriteWindow q => Sys2Proof.Machine.execStrictWriteWindow q s
  | .decodeDone rid cw d => Sys2Proof.Machine.execDecodeDone rid cw d s
  | .reconstructionDone rid cw f => Sys2Proof.Machine.execReconstructionDone rid cw f s
  | .foldStart q => Sys2Proof.Machine.execFoldStart q s
  | .gcStart q => Sys2Proof.Machine.execGcStart q s
  | .eraseGateRelease q sb => Sys2Proof.Machine.execEraseGateRelease q sb s
  | .checkpointSegmentDue => Sys2Proof.Machine.execCheckpointSegmentDue s
  | .furrowWindowLoad => Sys2Proof.Machine.execFurrowWindowLoad s
  | .gcWeirWrite v => Sys2Proof.Machine.execGcWeirWrite v s
  | .rebuildStart q => Sys2Proof.Machine.execRebuildStart q s
  | .journalRegionReclaim slot => Sys2Proof.Machine.execJournalRegionReclaim slot s
  | .patrolRowDue q sb row cws mismatch => Sys2Proof.Machine.execPatrolRowDue q sb row cws mismatch s
  | .patrolPeriodEnd q => Sys2Proof.Machine.execPatrolPeriodEnd q s
  | .cplReceived slot c => Sys2Proof.Machine.execCplReceived slot c s
  | .dataFlitReceived slot tag last shapeOk => Sys2Proof.Machine.execDataFlitReceived slot tag last shapeOk s
  | .lctlReceived slot m => Sys2Proof.Machine.execLctlReceived slot m s
  | .initReceived slot m => Sys2Proof.Machine.execInitReceived slot m s
  | .flitCrcError slot => Sys2Proof.Machine.execFlitCrcError slot s
  | .pongReceived slot => Sys2Proof.Machine.execPongReceived slot s
  | .authResponseReceived slot qm sig => Sys2Proof.Machine.execAuthResponseReceived slot qm sig s
  | .authConfirmReceived slot hmac => Sys2Proof.Machine.execAuthConfirmReceived slot hmac s
  | .reauthResponseReceived slot hmac => Sys2Proof.Machine.execReauthResponseReceived slot hmac s
  | .noticeReceived slot code die => Sys2Proof.Machine.execNoticeReceived slot code die s
  | .ackTimer slot => Sys2Proof.Machine.execAckTimer slot s
  | .replayTimer slot => Sys2Proof.Machine.execReplayTimer slot s
  | .silenceTimer slot => Sys2Proof.Machine.execSilenceTimer slot s
  | .blockLockLost slot lane => Sys2Proof.Machine.execBlockLockLost slot lane s
  | .lockRegained slot => Sys2Proof.Machine.execLockRegained slot s
  | .recoveryTimer slot => Sys2Proof.Machine.execRecoveryTimer slot s
  | .partnerDetected slot => Sys2Proof.Machine.execPartnerDetected slot s
  | .trainingDone slot width reversed => Sys2Proof.Machine.execTrainingDone slot width reversed s
  | .trainingTimeout slot => Sys2Proof.Machine.execTrainingTimeout slot s
  | .initResendTimer slot => Sys2Proof.Machine.execInitResendTimer slot s
  | .lowPowerExit slot => Sys2Proof.Machine.execLowPowerExit slot s
  | .operationTimer slot tag => Sys2Proof.Machine.execOperationTimer slot tag s
  | .progressProbeTimer slot => Sys2Proof.Machine.execProgressProbeTimer slot s
  | .unresponsiveTimer slot => Sys2Proof.Machine.execUnresponsiveTimer slot s
  | .unresponsivePowerCycle slot => Sys2Proof.Machine.execUnresponsivePowerCycle slot s
  | .authTimeout slot => Sys2Proof.Machine.execAuthTimeout slot s
  | .linkRetrain slot => Sys2Proof.Machine.execLinkRetrain slot s
  | .linkQuarantineRequest slot => Sys2Proof.Machine.execLinkQuarantineRequest slot s
  | .slotPowerOn slot => Sys2Proof.Machine.execSlotPowerOn slot s
  | .slotPowerOff slot => Sys2Proof.Machine.execSlotPowerOff slot s
  | .slotResetPulse slot => Sys2Proof.Machine.execSlotResetPulse slot s
  | .slotResetReleaseTimer slot => Sys2Proof.Machine.execSlotResetReleaseTimer slot s
  | .slotInsertion slot => Sys2Proof.Machine.execSlotInsertion slot s
  | .slotRemoval slot => Sys2Proof.Machine.execSlotRemoval slot s
  | .quarantineReleaseTimer slot => Sys2Proof.Machine.execQuarantineReleaseTimer slot s
  | .moduleAlert slot bits => Sys2Proof.Machine.execModuleAlert slot bits s
  | .alertStuckTimer slot => Sys2Proof.Machine.execAlertStuckTimer slot s
  | .monitorPoll slot r => Sys2Proof.Machine.execMonitorPoll slot r s
  | .moduleThrottleStepTimer slot => Sys2Proof.Machine.execModuleThrottleStepTimer slot s
  | .i3cBusStuck bus => Sys2Proof.Machine.execI3cBusStuck bus s
  | .i3cBusRecoveryTimeout bus => Sys2Proof.Machine.execI3cBusRecoveryTimeout bus s
  | .grantRequest r => Sys2Proof.Machine.execGrantRequest r s
  | .sluiceWaitLimit id => Sys2Proof.Machine.execSluiceWaitLimit id s
  | .colSearch v lost => Sys2Proof.Machine.execColSearch v lost s
  | .colStep v lost => Sys2Proof.Machine.execColStep v lost s
  | .colInsert v => Sys2Proof.Machine.execColInsert v s
  | .colRemove v => Sys2Proof.Machine.execColRemove v s
  | .colRead v lost => Sys2Proof.Machine.execColRead v lost s
  | .colWrite v => Sys2Proof.Machine.execColWrite v s
  | .colInject v => Sys2Proof.Machine.execColInject v s
  | .colPartWrite v => Sys2Proof.Machine.execColPartWrite v s
  | .scrubPassDone tile => Sys2Proof.Machine.execScrubPassDone tile s
  | .allocationRequest port owner dram size => Sys2Proof.Machine.execAllocationRequest port owner dram size s
  | .freeRequest port handle => Sys2Proof.Machine.execFreeRequest port handle s
  | .zeroingDone pool idx => Sys2Proof.Machine.execZeroingDone pool idx s
  | .zeroingBurstDone pool idx unit => Sys2Proof.Machine.execZeroingBurstDone pool idx unit s
  | .cfgLock => Sys2Proof.Machine.execCfgLock s
  | .refreshInterval ch rank => Sys2Proof.Machine.execRefreshInterval ch rank s
  | .mr4Poll ch rank hot => Sys2Proof.Machine.execMr4Poll ch rank hot s
  | .dramRequestAgeLimit id => Sys2Proof.Machine.execDramRequestAgeLimit id s
  | .dramUncorrectableRead ch w rd => Sys2Proof.Machine.execDramUncorrectableRead ch w rd s
  | .dramPatrolTick e => Sys2Proof.Machine.execDramPatrolTick e s
  | .freshGranuleFilled g => Sys2Proof.Machine.execFreshGranuleFilled g s
  | .dmcRewriteWord v back => Sys2Proof.Machine.execDmcRewriteWord v back s
  | .dmcRetirePage v => Sys2Proof.Machine.execDmcRetirePage v s
  | .dmcReleaseRemap v => Sys2Proof.Machine.execDmcReleaseRemap v s
  | .ceLogPop ch => Sys2Proof.Machine.execCeLogPop ch s
  | .injectArm => Sys2Proof.Machine.execInjectArm s
  | .injectLock => Sys2Proof.Machine.execInjectLock s
  | .ledgerIntake => Sys2Proof.Machine.execLedgerIntake s
  | .ledgerRecordOffer e => Sys2Proof.Machine.execLedgerRecordOffer e s
  | .suppressionSecondEnd code src => Sys2Proof.Machine.execSuppressionSecondEnd code src s
  | .ledgerLatch ctx => Sys2Proof.Machine.execLedgerLatch ctx s
  | .ledgerCursorWrite ctx seq => Sys2Proof.Machine.execLedgerCursorWrite ctx seq s
  | .ledgerNext ctx => Sys2Proof.Machine.execLedgerNext ctx s
  | .ledgerPersistDone quires => Sys2Proof.Machine.execLedgerPersistDone quires s
  | .lockstepMismatch pair => Sys2Proof.Machine.execLockstepMismatch pair s
  | .takeoverComplete pair => Sys2Proof.Machine.execTakeoverComplete pair s
  | .pairSelfTestDone pair ok => Sys2Proof.Machine.execPairSelfTestDone pair ok s
  | .standbyTestDue => Sys2Proof.Machine.execStandbyTestDue s
  | .wardenMismatch => Sys2Proof.Machine.execWardenMismatch s
  | .engineMismatch u => Sys2Proof.Machine.execEngineMismatch u s
  | .booksAudit => Sys2Proof.Machine.execBooksAudit s
  | .ideCheckFailed p stream cs => Sys2Proof.Machine.execIdeCheckFailed p stream cs s
  | .spdmGetVersion via m => Sys2Proof.Machine.execSpdmGetVersion via m s
  | .spdmGetCapabilities via m => Sys2Proof.Machine.execSpdmGetCapabilities via m s
  | .spdmNegotiateAlgorithms via m => Sys2Proof.Machine.execSpdmNegotiateAlgorithms via m s
  | .spdmGetDigests via m => Sys2Proof.Machine.execSpdmGetDigests via m s
  | .spdmGetCertificate via m => Sys2Proof.Machine.execSpdmGetCertificate via m s
  | .spdmChallenge via m => Sys2Proof.Machine.execSpdmChallenge via m s
  | .spdmGetMeasurements via m => Sys2Proof.Machine.execSpdmGetMeasurements via m s
  | .spdmKeyExchange via m => Sys2Proof.Machine.execSpdmKeyExchange via m s
  | .spdmFinish via m => Sys2Proof.Machine.execSpdmFinish via m s
  | .spdmHeartbeat via m => Sys2Proof.Machine.execSpdmHeartbeat via m s
  | .spdmKeyUpdate via m => Sys2Proof.Machine.execSpdmKeyUpdate via m s
  | .spdmEndSession via m => Sys2Proof.Machine.execSpdmEndSession via m s
  | .ideKmRequest via m => Sys2Proof.Machine.execIdeKmRequest via m s
  | .mctpSetEndpointId eid => Sys2Proof.Machine.execMctpSetEndpointId eid s
  | .i3cEntdaa addr => Sys2Proof.Machine.execI3cEntdaa addr s
  | .miReadDataStructure via m => Sys2Proof.Machine.execMiReadDataStructure via m s
  | .miSubsystemHealthPoll via m => Sys2Proof.Machine.execMiSubsystemHealthPoll via m s
  | .miControllerHealthPoll via m => Sys2Proof.Machine.execMiControllerHealthPoll via m s
  | .miConfigurationSet via m => Sys2Proof.Machine.execMiConfigurationSet via m s
  | .miConfigurationGet via m => Sys2Proof.Machine.execMiConfigurationGet via m s
  | .contractLoad => Sys2Proof.Machine.execContractLoad s
  | .contractApply => Sys2Proof.Machine.execContractApply s
  | .hgCtrlWrite v => Sys2Proof.Machine.execHgCtrlWrite v s
  | .csrDomainOffAccess req addr write => Sys2Proof.Machine.execCsrDomainOffAccess req addr write s
  | .csrUnassignedAccess req addr write => Sys2Proof.Machine.execCsrUnassignedAccess req addr write s
  | .jtagBypass => Sys2Proof.Machine.execJtagBypass s
  | .jtagIdcode => Sys2Proof.Machine.execJtagIdcode s
  | .jtagSamplePreload sampled preload => Sys2Proof.Machine.execJtagSamplePreload sampled preload s
  | .jtagExtest => Sys2Proof.Machine.execJtagExtest s
  | .jtagClamp => Sys2Proof.Machine.execJtagClamp s
  | .jtagHighz => Sys2Proof.Machine.execJtagHighz s
  | .registerWrite t v => Sys2Proof.Machine.execRegisterWrite t v s
  | .refclkReturn p => Sys2Proof.Machine.execRefclkReturn p s
  | .domainGated dom => Sys2Proof.Machine.execDomainGated dom s
  | .i3cBusRecovered bus => Sys2Proof.Machine.execI3cBusRecovered bus s
  | .dramCommandCycle ch sub rank arrivals fifos => Sys2Proof.Machine.execDramCommandCycle ch sub rank arrivals fifos s
  | .hostMemoryFault cs f => Sys2Proof.Machine.execHostMemoryFault cs f s
  | .badOpcode p op k => Sys2Proof.Machine.execBadOpcode p op k s
  | .interruptAggregationTime fn vec => Sys2Proof.Machine.execInterruptAggregationTime fn vec s
  | .invalidFlitReceived slot => Sys2Proof.Machine.execInvalidFlitReceived slot s

end Sys2Proof.Machine
end

