-- ==== Sys2Proof/Machine/Idle.lean ====
section
/-! DEFINITION. What time alone does: one tick of the AON clock (R25, R36, R417). -/

namespace Sys2Proof.Machine

/-- One AON tick in 1/64 ns: 32.768 kHz. -/
def tickNs64 : Nat := 1953125

/-- One tick: in OFF no clock runs; otherwise the device timestamp moves, in AWAIT_IMAGE so does the 600 s window, and a command
that holds an activation back for 50 ms is recorded (R141). -/
def Dev.tick (d : Dev) : Dev :=
  if d.modes.mode = .off then d
  else
    let d := { d with clk := { d.clk with ns64 := d.clk.ns64 + tickNs64 } }
    if d.modes.mode = .awaitImage then
      { d with boot := { d.boot with windowNs64 := d.boot.windowNs64.map (fun w => w - tickNs64) } }
    else d.drainLate

end Sys2Proof.Machine
end

