-- ==== Sys2Proof/Machine/Views.lean ====
section
/-! DEFINITION. What reads return: the words of the control space (R9, R10, R13 and each chapter's registers), the Inspection Window
(R100), the mailbox region (R42 to R44) and the NVMe registers (R104). No row of the table is a read, so no command calls these; they
say what a reader sees of the state. -/

namespace Sys2Proof.Machine

/-- A word from the values of its fields, each with its lowest bit. -/
def word (fs : List (Nat × Nat)) : W32 := BitVec.ofNat 32 ((fs.map (fun (x : Nat × Nat) => 2 ^ x.1 * x.2)).sum)

/-- A bit for each of 32 numbers from `o` on. -/
def word32 (o : Nat) (f : Nat → Bool) : W32 := BitVec.ofNat 32 (maskOf 32 (fun i => f (o + i)))

/-- Table 01-6. -/
def pdCode : Pd → Nat
  | .off => 0 | .trans => 1 | .gated => 2 | .on => 3

/-! ### The Warden -/

/-- WDN_MODE: host_ps is the power state in force, in_transition as R74 has it. -/
def Dev.wdnMode (d : Dev) : W32 :=
  word [(0, d.modeByte), (8, modeCode d.modes.prev), (16, d.modes.hostPs), (19, bit d.inTransition)]

/-- WDN_HALT_CAUSE. -/
def Dev.wdnHalt (d : Dev) : W32 := word [(0, d.modes.haltCause), (8, d.modes.haltUnit), (16, d.modes.haltMode)]

/-- WDN_PD_REQ's fields that read, with busy and result. -/
def Dev.wdnPdReq (d : Dev) : W32 := d.csrW aPdReq ||| word [(17, bit d.pwr.busy.isSome), (18, d.pwr.result)]

/-- The Warden's words. -/
def Dev.readWdn (d : Dev) (a : Nat) : W32 :=
  if a < 0x4000040C then word ((List.range 16).map (fun i => (2 * i, if 16 * ((a - 0x40000400) / 4) + i < 36 then
    pdCode (d.dom (16 * ((a - 0x40000400) / 4) + i)).st else 0)))
  else if a = aPdReq then d.wdnPdReq
  else if a = 0x40000420 then d.wdnMode
  else if a = 0x40000424 then word [(0, d.condWord)]
  else if a = 0x40000428 then d.wdnHalt
  else if a = 0x40000440 then word [(0, d.modes.promise.toNat), (8, bit (decide (d.modes.promise = 0x1F#5) && servingMode d.modes.mode))]
  else if a = aHuCtrl then word [(1, bit d.hu.busy), (2, bit d.hu.passed), (3, d.hu.result)]
  else if a = 0x40000504 then word [(0, sat 24 d.hu.cUf), (24, sat 8 (d.hu.esr / 10))]
  else if a = 0x40000508 then word [(0, d.hu.ceil), (13, sat 19 ((d.hu.due - d.now) / 1000000000))]
  else if a = 0x40000600 then BitVec.ofNat 32 d.ring.seq
  else if a = 0x40000604 then word [(0, bit d.ring.durable), (1, bit d.erasePending), (2, bit !d.ring.pending.isEmpty), (8, d.ring.written.length)]
  else if a = 0x40000608 then word [(0, d.san.action), (3, bit d.san.running), (4, bit d.san.failure), (5, bit d.san.ndas),
    (16, if d.san.running then (Config.freeBits d.free 16).toNat else 0xFFFF)]
  else if a = 0x40000614 then BitVec.ofNat 32 (((d.nsp (d.reg aNsKeyIdx 9 0)).map (·.keyGen)).getD 0)
  else d.csrW a

/-! ### The Headgate and the Collation Engine -/

def Dev.readHg (d : Dev) (a : Nat) : W32 :=
  if a = aHgCtrl then d.csrW a ||| word [(2, bit (bitOf (d.csrW a).toNat 1 && decide (d.ioHeld = 0)))]
  else if a = 0x42000010 then word [(0, d.slotsFree)]
  else if a = aHgContractCmd then word [(3, d.hg.cmdResult)]
  else if a = aHgAbortCnt then word [(0, d.counter a 0), (16, d.counter a 16)]
  else if a = aHgCqStall then word [(0, d.counter a 0)]
  else d.csrW a

/-- COL_TILE_STATE of a tile (Tables 11-1 and 11-2). -/
def Dev.colTile (d : Dev) (t : Nat) : W32 :=
  let g := d.col.tileGroup t
  word [(0, groupMode g), (2, bit (decide (g = 3))), (3, g), (5, bit (d.col.busy && decide (d.col.liveTiles + 1 ≤ t)
    && decide (g = 1))), (16, d.col.tileValid t)]

def Dev.readCol (d : Dev) (a : Nat) : W32 :=
  if a = aColPart then d.csrW a ||| word [(0, d.col.z), (5, bit d.col.busy), (8, d.col.rangeTiles)]
  else if a = 0x43000010 then word [(0, d.col.capacity)]
  else if a = 0x43000014 then word [(0, d.col.rng.length), (16, d.col.resv)]
  else if a = 0x43000020 ∨ a = 0x43000024 then word32 (8 * (a - 0x43000020)) (fun t => decide (0 < d.col.tileValid t))
  else if a = aColErr then word [(0, d.counter a 0), (16, d.counter a 16)]
  else if a = aColErr2 then word [(0, d.counter a 0), (8, d.counter a 8)]
  else if a = aColShift then word [(0, d.counter a 0), (16, sat 16 d.col.maxShift)]
  else if a = aColCmd then d.csrW a ||| word [(10, d.col.result), (12, bit d.col.multi), (16, d.col.hit)]
  else if 0x43010000 ≤ a then d.colTile ((a - 0x43010000) / 4)
  else d.csrW a

/-! ### The Translation Core -/

def fstateCode : FState → Nat
  | .free => 0 | .open => 1 | .paused => 2 | .draining => 3

/-- The Furrow context window: the snapshot of the last load. -/
def Furrow.data (f : Furrow) (i : Nat) : W32 :=
  match i with
  | 0 => word [(0, fstateCode f.st), (3, f.kind), (8, f.quire), (16, (f.ns.getD 0x3FF))]
  | 1 => word [(0, f.slcSb.getD 0x3FFFFF)]
  | 2 => word [(0, f.qlcSb.getD 0x3FFFFF)]
  | 3 => word [(0, f.slcRow), (16, f.qlcRow)]
  | 4 => word [(0, sat 32 f.staged.length)]
  | 5 => word [(0, f.binding)]
  | 6 => word [(0, sat 32 f.unitsWritten)]
  | _ => word [(0, sat 32 f.unitsFolded)]

/-- Invalid data in closed superblocks, in units of 16 MiB. -/
def Dev.reclaimable (d : Dev) (q : Nat) : Nat :=
  (((d.sbsOf q).filter (fun (x : Nat × Superblock) => decide (x.2.st = .closed))).map (fun (x : Nat × Superblock) => x.2.written - x.2.valid)).sum / 4096

/-- TC_QUIRE_STATE. -/
def Dev.tcQuire (d : Dev) (q : Nat) : W32 :=
  match d.quire q with
  | none => 0
  | some x => word [(0, d.qlcFree q), (22, bit (d.placeable q)), (23, bit x.rehomedTo.isSome), (24, bit x.spareLow), (25, bit (decide (d.slcFree q = 0))),
      (26, bit x.foldHeld)]

def lpCode : LpSt → Nat
  | .off => 0 | .active => 1 | .standby => 2 | .taking => 3 | .selfTest => 4 | .retired => 5

def Dev.readTc (d : Dev) (a : Nat) : W32 :=
  let q := d.reg aTcQuireIdx 3 0
  if a = 0x44000000 then word [(0, d.tc.budget / 1048576)]
  else if a = 0x44000004 then word [(0, ceilDiv d.mapUsed 1048576)]
  else if a = 0x44000008 then word [(0, d.furrowsReserved),
    (16, (d.tc.furrows.filter (fun (x : Nat × Furrow) => decide (x.2.kind < 8) && decide (x.2.st ≠ .free))).length)]
  else if a = 0x44000010 then word [(0, ceilDiv d.dirtyBytes 1048576), (16, d.tc.ceiling)]
  else if a = 0x44000020 then BitVec.ofNat 32 d.tc.head
  else if a = 0x44000024 then BitVec.ofNat 32 d.durable
  else if a = aTcEraseGate then word [(0, d.counter a 0), (16, sat 16 d.gateWaiting)]
  else if 0x44000104 ≤ a ∧ a ≤ 0x44000120 then d.tc.window.data ((a - 0x44000104) / 4)
  else if a = aTcFurrowCmd then 0
  else if a = 0x44000204 then d.tcQuire q
  else if a = 0x44000208 then word [(0, sat 20 (((d.quire q).map Quire.sparesLeft).getD 0))]
  else if a = 0x4400020C then word [(0, sat 32 (d.reclaimable q))]
  else if a = 0x44000300 then word ((List.range 8).map (fun k => (4 * k, lpCode (d.lp k).st)))
  else if a = aTcLpCnt then word [(0, d.counter a 0), (8, d.counter a 8), (16, d.fc.last)]
  else d.csrW a

/-! ### The links, the sideband and the read path -/

def linkStCode : LinkSt → Nat
  | .disabled => 0 | .detect => 1 | .train => 2 | .init => 3 | .active => 4 | .recovery => 5 | .lowPower => 6 | .quarantine => 7

/-- A slot's link registers. -/
def Dev.readLnk (d : Dev) (s o : Nat) : W32 :=
  let l := d.link s
  let a := aLnk s + o
  match o with
  | 0x00 => word [(0, linkStCode l.st), (4, l.width), (7, bit l.reversed), (8, l.auth), (12, l.quar), (16, l.tags.length)]
  | 0x04 => word [(0, nth l.adv 0), (16, nth l.adv 1)]
  | 0x08 => word [(0, nth l.adv 2), (16, l.maxTags)]
  | 0x0C | 0x10 => word [(0, d.counter a 0), (16, d.counter a 16)]
  | 0x14 => word [(0, d.counter a 0), (16, sat 8 l.diesFailed.length),
      (24, sat 8 (l.tagFailAt.filter (fun (t : Nat) => decide (d.now < t + 86400000000000))).length)]
  | 0x20 => word [(3, l.cmdResult)]
  | _ => 0

/-- What a die does (GL_RP_DIE_STATE.op). -/
def Die.opCode (x : Die) : Nat :=
  match x.hold with
  | some _ => if x.susp then (if x.kind = .erase then 6 else 5) else if x.kind = .erase then 4 else if x.kind = .progSlc then 3 else 2
  | none => if x.reads.any (fun r => r.tag.isSome) then 1 else 0

/-- GL_RP_DIE_STATE and GL_RP_DIE_PRED of the die that GL_RP_DIE_IDX names; both read 0 while its domain is OFF. -/
def Dev.readDie (d : Dev) (pred : Bool) : W32 :=
  let s := d.reg aRpDieIdx 11 6
  let k := d.reg aRpDieIdx 5 0
  let x := d.die s k
  if (d.dom (13 + s / 8)).st = .off then 0
  else if pred then
    let p := fun (i : Nat) => let y := d.predOf s k i; (y.avg + 4 * y.dev).toNat
    word [(0, sat 16 (p 0)), (16, sat 16 (p 2 / 10))]
  else word [(0, x.opCode), (3, bit x.warm), (4, min 15 x.suspends), (8, sat 16 (if x.hold.isSome then (d.elapsed x).toNat / 10 else 0)),
    (24, min 255 (x.reads.filter (fun r => r.tag.isNone)).length)]

/-- Present dies not yet warm. -/
def Dev.coldDies (d : Dev) : Nat :=
  ((d.gl.slots.filter (fun (x : Nat × SlotSt) => x.2.admitted)).map (fun (x : Nat × SlotSt) =>
    ((List.range (d.diesOf x.1)).filter (fun k => !(d.die x.1 k).warm)).length)).sum

/-- GL_COL_STATE of a slot. -/
def Dev.readColo (d : Dev) (s : Nat) : W32 :=
  let x := d.slot s
  let c : Colo := (d.colo s).getD ⟨[]⟩
  word [(0, x.outcome), (8, x.check), (16, bit x.validated), (17, bit (x.validated && c.signed)), (18, bit (x.validated && c.hasKey)),
    (19, bit x.excluded), (20, bit x.alertMasked)]

/-- The slot sideband's 64 bits of each kind: presence, power enable, reset, alert. -/
def Dev.sbBit (d : Dev) (kind s : Nat) : Bool :=
  let x := d.slot s
  if kind = 0 then x.present else if kind = 1 then x.pwren else if kind = 2 then x.rst else x.alert

def Dev.readGl (d : Dev) (a : Nat) : W32 :=
  let cs := d.reg aColoIdx 5 0
  if a = 0x45000010 ∨ a = 0x45000014 then word32 (8 * (a - 0x45000010)) (fun s => decide ((d.link s).st = .quarantine))
  else if a = 0x4500F014 then d.readDie false
  else if a = 0x4500F018 then d.readDie true
  else if aRpCnt ≤ a ∧ a ≤ aRpCnt + 12 then word [(0, d.counter a 0)]
  else if a = 0x4500F030 then word [(0, d.coldDies)]
  else if a = 0x4500F040 then
    word [(0, maskOf 16 (fun q => ((d.quire q).map (·.strict)).getD false)), (16, maskOf 16 (fun q => ((d.quire q).map (·.active)).getD false))]
  else if a = 0x4500F048 then word [(0, sat 20 (d.wStrict (d.reg aRpCeilIdx 3 0) / 1000000))]
  else if 0x45010000 ≤ a ∧ a < 0x45014000 then d.readLnk ((a - 0x45010000) / 0x100) ((a - 0x45010000) % 0x100)
  else if 0x45080000 ≤ a ∧ a < 0x45080020 then
    word32 (if (a - 0x45080000) % 8 = 0 then 0 else 32) (d.sbBit ((a - 0x45080000) / 8))
  else if a = aSbChg then BitVec.ofNat 32 d.gl.changed.toNat
  else if a = aSbChg + 4 then BitVec.ofNat 32 (d.gl.changed.toNat / 2 ^ 32)
  else if a = aSbCmd then d.csrW a ||| word [(18, d.gl.sbResult)]
  else if a = aI3cBus then word [(0, d.gl.busFailed.toNat), (8, d.counter a 8)]
  else if a = 0x45080054 then d.readColo cs
  else if a = 0x45080058 then word [(0, twos 2 (d.moduleTemp cs)), (16, twos 2 (d.slot cs).bridge)]
  else if a = 0x4508005C then word [(0, sat 16 (d.slot cs).current), (16, sat 16 (d.slot cs).voltage)]
  else d.csrW a

/-! ### The codec and the Signature Engine -/

def Dev.readMc (d : Dev) (a : Nat) : W32 :=
  if aLadderCnt ≤ a ∧ a ≤ aLadderCnt + 20 then word [(0, d.counter a 0)]
  else if a = aTagFail then word [(0, d.counter a 0), (16, d.counter a 16)]
  else if a = aTagReason then word [(0, d.counter a 0), (8, d.counter a 8), (16, d.counter a 16), (24, d.counter a 24)]
  else d.csrW a

/-- The five words of the Quire window. -/
def Dev.sigQuire (d : Dev) (q o : Nat) : W32 :=
  match d.quire q with
  | none => 0
  | some x =>
    let host := fun (h : Option Nat) => h.getD 0 + 64 * bit h.isSome
    match o with
    | 0x104 => word [(0, d.quireState q), (8, x.width), (16, x.presentWidth), (24, bit x.held), (25, bit (x.hostA.isSome != x.hostB.isSome)),
        (26, bit (d.patrolPaused x)), (27, bit (x.anyIn .joining && decide (x.work ≠ some .respread)))]
    | 0x108 => word [(0, maskOf 16 (fun m => decide (x.memSt m = .lost))), (16, maskOf 16 (fun m => decide (x.memSt m = .active) || decide (x.memSt m = .joining)))]
    | 0x10C => word [(0, host x.hostA), (8, host x.hostB)]
    | 0x110 => word [(0, permille x.workDone x.workTotal), (10, bit x.work.isSome), (11, bit (x.work.isSome && !x.lossWork)),
        (12, sat 20 (x.workTotal - x.workDone))]
    | _ => word [(0, x.hours), (9, x.effective), (18, permille x.patRows x.patTotal)]

def Dev.readSig (d : Dev) (a : Nat) : W32 :=
  if a = 0x47000010 then
    word [(0, 4096 - d.tc.jslots.length),
      (16, (d.tc.jslots.filter (fun (x : Nat × JSlot) => decide (x.2.written ≠ d.jMirrored x.2))).length)]
  else if 0x47000104 ≤ a ∧ a ≤ 0x47000114 then d.sigQuire (d.reg aSigQIdx 3 0) (a - 0x47000000)
  else if aSigCnt ≤ a ∧ a ≤ aSigCnt + 20 then word [(0, d.counter a 0)]
  else d.csrW a

/-! ### Pools and DRAM -/

/-- DRAM units that read as zeros by the owed mask. -/
def Dev.owedUnits (d : Dev) : Nat :=
  (((d.bpm.bufs.filter (fun (x : Nat × Buf) => decide (4 ≤ x.1 / 2 ^ 19))).map
    (fun (x : Nat × Buf) => ((List.range 512).filter (fun i => bitOf x.2.owed i)).length))).sum

def Dev.readBpm (d : Dev) (a : Nat) : W32 :=
  let o := d.reg aBpmOwnIdx 5 0
  let p := d.reg aBpmOwnIdx 10 8
  if a = aBpmCtrl then d.csrW a &&& 4#32 ||| word [(0, bit d.bpm.lock), (1, bit d.bpm.error)]
  else if a = 0x48000008 then word [(0, d.bpm.dramTotal)]
  else if 0x48000140 ≤ a ∧ a < 0x48000160 then word [(0, d.poolFree ((a - 0x48000140) / 4))]
  else if 0x48000160 ≤ a ∧ a < 0x48000180 then word [(0, d.poolZero ((a - 0x48000160) / 4))]
  else if 0x48000180 ≤ a ∧ a < 0x480001A0 then word [(0, d.counter a 0)]
  else if a = aBpmOwnMin then word [(0, d.ownMin o p)]
  else if a = aBpmOwnCap then word [(0, d.ownCap o p)]
  else if a = 0x4800020C then word [(0, d.ownHeld o p)]
  else if a = aBpmMisfree then word [(0, d.counter a 0), (16, d.counter a 16)]
  else if a = 0x48000304 then d.bpm.lastHandle
  else if a = aBpmMisfreePort then word [(0, d.bpm.lastPort), (6, d.bpm.lastReason), (16, d.counter a 16)]
  else if a = 0x48000310 then word [(0, d.owedUnits)]
  else d.csrW a

def chCode : ChSt → Nat
  | .absent => 0 | .training => 1 | .inService => 2 | .selfRefresh => 3 | .failed => 4

def classCode : DClass → Nat
  | .rt => 0 | .lat => 1 | .bulk => 2 | .bg => 3

/-- DMC_CH_STATE. -/
def Dev.chWord (d : Dev) (c : Nat) : W32 :=
  let x := d.chan c
  let r := fun (i : Nat) => x.ranks.get .reset i
  word [(0, chCode x.st), (3, bit (r 0).hot), (4, bit (r 1).hot), (5, x.step), (8, (r 0).owed), (11, (r 1).owed), (16, x.remap.length)]

/-- A channel's error log head and its oldest entry. -/
def Dev.ceWord (d : Dev) (c o : Nat) : W32 :=
  match o, (d.chan c).log with
  | 0, l => word [(0, l.length), (8, d.counter (aDmcCeLog c) 8)]
  | 4, e :: _ => word [(0, e.w.page), (24, e.w.word), (30, e.w.subch), (31, e.w.rank)]
  | 8, e :: _ => word [(0, e.w.bg), (3, e.w.bank), (5, e.dev), (9, e.cwMask)]
  | 12, e :: _ => word [(0, e.w.row)]
  | _, _ => 0

def Dev.readDmc (d : Dev) (a : Nat) : W32 :=
  let p := d.reg aDmcPortIdx 5 0
  if a = aDmcPortCfg then word [(0, classCode (d.dclass p)), (8, (d.dport p).weir), (16, bit (d.dport p).panic)]
  else if a = aDmcPanic ∨ a = aDmcRefForced then word [(0, d.counter a 0)]
  else if a = 0x49000020 then word [(0, d.dmc.order.length * d.chanBytes / 2097152 - d.dmc.used.length - d.dmc.fills.length), (19, d.dmc.fills.length)]
  else if a = 0x49000024 then word [(0, permille d.dmc.patrolAt (64 * d.localPages)), (10, bit d.dmc.patrolLate)]
  else if 0x49000100 ≤ a ∧ a < 0x49000130 then d.chWord ((a - 0x49000100) / 4)
  else if a = aDmcUeCnt then word [(0, d.counter a 0), (16, d.counter a 16)]
  else if 0x49000200 ≤ a ∧ a < 0x49000380 then d.ceWord ((a - 0x49000200) / 0x20) ((a - 0x49000200) % 0x20)
  else if a = aDmcFixCmd then d.csrW a ||| word [(8, d.dmc.fixResult)]
  else if a = aDmcInjCtrl then d.csrW a ||| word [(9, bit (d.dmc.armed0 || d.dmc.armed1))]
  else d.csrW a

/-! ### The Sluice, the thermal manager and the ledger -/

def Dev.readSlu (d : Dev) (a : Nat) : W32 :=
  let s := d.reg aSluSlotIdx 5 0
  let x := d.slot s
  if a = 0x4A000000 then word [(0, d.budgetG)]
  else if a = 0x4A000004 then word [(0, d.grantedG), (20, bit (decide (d.budgetG - (d.readFloor + d.softFloor) < d.generalG)))]
  else if a = 0x4A000008 then word [(0, d.slu.kD), (5, d.slu.kR), (10, bit d.emergency)]
  else if a = aSluWait then word [(0, d.counter a 0)]
  else if a = 0x4A000104 then word [(0, d.budgetS s), (16, x.kS), (21, bit x.cold.crossed), (22, bit x.defer.crossed),
    (23, bit (x.opMin.crossed || x.opMax.crossed))]
  else if a = 0x4A000108 then word [(0, d.grantedS s), (16, d.floorS s)]
  else d.csrW a

def Dev.readThm (d : Dev) (a : Nat) : W32 :=
  let i := d.reg aThmSensorIdx 5 0
  let w := d.thm
  if a = 0x4A800000 then word [(0, twos 2 w.top), (16, d.hotRegion), (20, bit w.hotWarn.crossed), (21, bit w.throttle.crossed),
    (22, bit w.critical.crossed), (23, bit w.shutdown.crossed), (24, bit w.coldWarn.crossed), (25, bit w.coldLimit.crossed)]
  else if a = 0x4A800014 then word [(0, twos 2 (d.sensor i).temp), (16, bit (d.sensor i).excluded), (17, min 3 (d.sensor i).off)]
  else if 0x4A800040 ≤ a then
    let r := (a - 0x4A800040) / 4
    word [(0, twos 2 (d.region r)), (16, bit ((List.range 4).all (fun k => (d.sensor (4 * r + k)).excluded)))]
  else d.csrW a

/-- Bytes that records use. -/
def recBytes (l : List LRec) : Nat := (l.map LRec.len).sum

/-- A reader context's registers and window. -/
def Dev.readCtx (d : Dev) (k o : Nat) : W32 :=
  let c := d.evl.ctx k
  let w := d.evl.window k
  if o = 4 then BitVec.ofNat 32 c.head
  else if o = 8 then BitVec.ofNat 32 c.cursor
  else if o = 0x0C then word [(0, d.evl.ctxStatus k), (2, ((w.map LRec.len).getD 0) / 4), (9, bit w.isSome)]
  else if 0x100 ≤ o ∧ o < 0x200 then BitVec.ofNat 32 (fieldAt ((w.map LRec.bytes).getD []) (o - 0x100) 4)
  else 0

def Dev.readEvl (d : Dev) (a : Nat) : W32 :=
  let e := d.evl
  if a = 0x4B000000 then BitVec.ofNat 32 e.next
  else if a = 0x4B000004 then BitVec.ofNat 32 e.oldest
  else if a = 0x4B000008 then word [(0, recBytes e.main), (20, bit e.mainFull)]
  else if a = 0x4B00000C then BitVec.ofNat 32 (sat 32 e.overflow)
  else if a = aEvlDrops then word [(0, d.counter a 0), (16, d.counter a 16)]
  else if a = 0x4B000014 then BitVec.ofNat 32 e.volume
  else if a = 0x4B000018 then BitVec.ofNat 32 e.persistNext
  else if a = 0x4B00001C then word [(0, bit e.persisting.isSome), (1, bit e.lastFailed), (2, bit e.volFull), (3, ceilDiv e.volBytes 1048576)]
  else if a = 0x4B000020 then word [(0, recBytes e.early), (15, bit e.earlyFull), (16, sat 16 e.earlyOver)]
  else if 0x4B001000 ≤ a then d.readCtx ((a - 0x4B001000) / 0x400) ((a - 0x4B001000) % 0x400)
  else 0

/-! ### A read of the control space -/

/-- The word that a read of an assigned register in a powered domain returns. -/
def Dev.csrWord (d : Dev) (a : Nat) : W32 :=
  if a < 0x41000000 then d.readWdn a
  else if a < 0x43000000 then d.readHg a
  else if a < 0x44000000 then d.readCol a
  else if a < 0x45000000 then d.readTc a
  else if a < 0x46000000 then d.readGl a
  else if a < 0x47000000 then d.readMc a
  else if a < 0x48000000 then d.readSig a
  else if a < 0x49000000 then d.readBpm a
  else if a < 0x4A000000 then d.readDmc a
  else if a < 0x4A800000 then d.readSlu a
  else if a < 0x4B000000 then d.readThm a
  else d.readEvl a

/-- What a read returns: 0 of an unassigned address and of a register whose domain is OFF or on its way there (R9, R13). -/
def Dev.csrRead (d : Dev) (a : Nat) : W32 := if csrAssigned a && !d.domDark (d.csrDomain a) then d.csrWord a else 0

/-- A read clears the RC fields it returns (R10). -/
def Dev.csrReadClear (d : Dev) (a : Nat) : Dev × W32 :=
  ({ d with cnt := if csrAssigned a && !d.domDark (d.csrDomain a) then d.cnt.filter (fun (x : Nat × Nat) => decide (x.1 / 32 ≠ a)) else d.cnt },
   d.csrRead a)

/-! ### BAR0 -/

/-- Table 04-5's word for a port. -/
def Dev.portWord (d : Dev) (p : Port) : W32 :=
  let h := d.hport p
  word [(0, h.rate), (4, h.width), (9, bit h.dl), (10, bit h.flit), (11, bit (h.ide.any (fun (x : Nat × IdeSt) => decide (x.2 = .secure))))]

/-- The Inspection Window (Table 04-5). -/
def Dev.inspect (d : Dev) (o : Nat) : W32 :=
  if d.modes.mode = .off ∨ o % 4 ≠ 0 then 0
  else if o = 0x00 then d.wdnMode
  else if o = 0x04 then word [(0, d.condWord)]
  else if o = 0x08 then d.wdnHalt
  else if o = 0x0C then BitVec.ofNat 32 d.evl.next
  else if o = 0x10 then BitVec.ofNat 32 (sat 32 d.evl.overflow)
  else if o = 0x14 then BitVec.ofNat 32 d.tc.ceiling
  else if o = 0x18 then BitVec.ofInt 32 d.thm.top
  else if o = 0x1C then (if d.bcol.signed then BitVec.ofNat 32 d.bcol.gen else 0xFFFFFFFF#32)
  else if o = 0x20 then d.portWord .a
  else if o = 0x24 then d.portWord .b
  else if 0x100 ≤ o ∧ o < 0x140 then
    let q := (o - 0x100) / 4
    match d.quire q with
    | none => 0
    | some x => word [(0, x.presentWidth), (8, x.width), (16, d.quireState q), (24, permille x.workDone x.workTotal / 10)]
  else if 0x200 ≤ o ∧ o < 0x300 then
    let s := (o - 0x200) / 4
    word [(0, (d.slot s).outcome), (8, linkCode (d.link s).st), (16, twos 1 (d.moduleTemp s / 4))]
  else 0

/-- The status packet (Table 02-5). -/
def Kmb.status64 (b : Kmb) : List Byte :=
  leBytes 1 b.op ++ leBytes 1 b.status ++ leBytes 2 b.tag.toNat ++ leBytes 1 b.mode ++ leBytes 1 b.detail ++ leBytes 2 0 ++ leBytes 4 b.uptime
  ++ leBytes 4 b.await ++ slice b.results 0 48

/-- The mailbox region of a port's PF, from offset 0x0001_0000 on (Table 02-3). -/
def Dev.mailboxWord (d : Dev) (p : Port) (o : Nat) : W32 :=
  let b := d.box p
  if o % 4 ≠ 0 then 0
  else if o < 0x40 then BitVec.ofNat 32 (b.cmd.toNat / 2 ^ (8 * o))
  else if o < 0x80 then BitVec.ofNat 32 (fieldAt b.status64 (o - 0x40) 4)
  else if o = 0x80 then word [(1, bit b.busy)]
  else if o = 0x84 then word [(0, bit b.done), (1, bit b.changed), (8, bit b.doneEn), (9, bit b.modeEn)]
  else if o = 0x88 then word [(0, d.modeByte), (8, (d.boot.port.map Port.num).getD 0)]
  else 0

/-- CAP (R104): MQES is 4,096 entries on a PF and 1,024 on a VF. -/
def capWord (pf : Bool) : Nat :=
  (if pf then 0x0FFF else 0x03FF) + 2 ^ 16 + 2 ^ 24 * 0xF0 + 2 ^ 37 * 0x41 + 2 ^ 46 * 3 + 2 ^ 52 * 4

/-- CSTS: RDY, CFS and SHST. -/
def FnSt.csts (s : FnSt) : W32 := word [(0, bit s.rdy), (1, bit s.cfs), (2, s.shst)]

/-- A 32-bit read of a function's BAR0. -/
def Dev.bar0Read (d : Dev) (f : Fn) (o : Nat) : W32 :=
  let s := d.fnst f
  if !d.fnUp f then 0xFFFFFFFF#32
  else if o = 0 then BitVec.ofNat 32 (capWord f.isPf)
  else if o = 4 then BitVec.ofNat 32 (capWord f.isPf / 2 ^ 32)
  else if o = 8 then 0x00020100#32
  else if o = 0x14 then s.cc
  else if o = 0x1C then s.csts
  else if o = 0x24 then s.aqa
  else if o = 0x28 then BitVec.ofNat 32 s.asq.toNat
  else if o = 0x2C then BitVec.ofNat 32 (s.asq.toNat / 2 ^ 32)
  else if o = 0x30 then BitVec.ofNat 32 s.acq.toNat
  else if o = 0x34 then BitVec.ofNat 32 (s.acq.toNat / 2 ^ 32)
  else match f with
    | .vf _ _ => 0
    | .pf p =>
      if 0x10000 ≤ o ∧ o < 0x11000 then d.mailboxWord p (o - 0x10000)
      else if 0x20000 ≤ o ∧ o < 0x30000 then d.inspect (o - 0x20000)
      else 0

end Sys2Proof.Machine
end

