-- ==== Sys2Proof/Safety.lean ====
section
/-! DEFINITION. What a safe run is: it never faults and is never refused. What a command may leave alone is said with devices
that have some parts taken away. -/

namespace Sys2Proof.Machine

/-- The next state of an outcome, if it has one. -/
def nextOf (o : Host.Outcome State Fault Refusal) : Option State :=
  match o with
  | .next s => some s
  | _ => none

/-- `n` steps, none of which faults or is refused. -/
def runs : Nat → State → Option State
  | 0, s => some s
  | n + 1, s => (nextOf (step s)).bind (runs n)

/-- A run is safe for `n` steps. -/
def Safe (n : Nat) (s : State) : Prop := (runs n s).isSome = true

/-! ### What a command leaves alone

A device with some parts taken away. Two devices that are equal then agree on every other part. -/

/-- The device without its ledger and its counting registers. -/
def Dev.butLog (d : Dev) : Dev := { d with cnt := [], evl := .reset }

/-- The device without what completions and interrupts touch: functions, command slots, the admin sequencer, counters, the
ledger, and the list of what left the block. -/
def Dev.butHost (d : Dev) : Dev := { d with fns := [], hg := .reset, adm := .reset, cnt := [], evl := .reset, out := [] }

/-- The device without what entering a mode touches: the mode, the domains, the mailboxes, counters, the ledger, and the
list of what left the block. -/
def Dev.butMode (d : Dev) : Dev := { d with modes := .reset, pwr := .reset, kmb := [], cnt := [], evl := .reset, out := [] }

/-- The device without what setting a condition touches: both of the above, the pins and the management interface. -/
def Dev.butCond (d : Dev) : Dev := { d.butHost.butMode with pins := .reset, mgmt := .reset }

/-- The device without the traffic that a grant or a link's queue moves: links, die and read queues, what the Sluice holds and
what waits for it, and the list of what left the block. The slots, budget steps and counters stay. -/
def Dev.butWork (d : Dev) : Dev :=
  { d with gl := { d.gl with links := [] }, rp := { d.rp with dies := [], reads := [] }
           slu := { d.slu with held := [], waiting := [], defer := [], nextId := 0 }, out := [] }

/-- The device without its module slots, links and power domains. -/
def Dev.butSlots (d : Dev) : Dev := { d with gl := .reset, pwr := .reset }

/-- A slot whose module is neither member nor journal host of a Quire and has no operation outstanding. -/
def Dev.idleSlot (d : Dev) (k : Nat) : Prop := d.memberAt k true = none ∧ d.hostOf k = [] ∧ (d.link k).tags = []

/-! ### The mailbox in statements -/

/-- A mailbox that takes a ring: the device is not OFF, the port's link is up, no command runs, and the mailbox is ready. -/
def Dev.mailboxFree (d : Dev) (p : Port) : Prop :=
  d.modes.mode ≠ .off ∧ (d.hport p).dl = true ∧ (d.box p).busy = false ∧ d.boot.mboxReady = true

/-- A mailbox that takes a loading command: it is free, on the boot port, in AWAIT_IMAGE. -/
def Dev.loading (d : Dev) (p : Port) : Prop := d.mailboxFree p ∧ d.modes.mode = .awaitImage ∧ d.boot.port = some p

/-- What a mailbox shows once a command has ended: not busy, done, the command's opcode and tag, a status and results. -/
def Kmb.ended (b : Kmb) (op : Nat) (k : KmbPkt) (status : Nat) (results : List Byte) : Prop :=
  b.busy = false ∧ b.done = true ∧ b.op = op ∧ b.tag = k.tag ∧ b.status = status ∧ b.results = results

/-! ### Host commands in statements -/

/-- A command whose completion can be posted as soon as its outcome is known: it holds its slot, is not discarded, its function
may write to host memory, and its completion queue has room and holds nothing back. -/
def Dev.postable (d : Dev) (cs : Nat) (s : CSlot) : Prop :=
  d.hg.slots.get? cs = some s ∧ s.cqe = none ∧ s.discard = false ∧ (d.fnst s.fn).bme = true
  ∧ (match d.cqOf s.fn s.sqid with
     | some x => x.2.room && x.2.held.isEmpty
     | none => false) = true

/-- The command in a slot has ended: its slot is free and its completion entry left the block, after what had left it before. -/
def Dev.posted (d : Dev) (old : List Out) (cs : Nat) (s : CSlot) (e : Cqe) : Prop :=
  d.hg.slots.get? cs = none ∧ ∃ (qid sqhd : Nat) (l : List Out), (Out.cqe s.fn qid s.sqid s.cid sqhd e :: l) <:+ d.out ∧ old <:+ l

/-- An admin command that runs at once. -/
def Dev.adminDue (d : Dev) (cs op : Nat) (s : CSlot) : Prop := d.adminSlot cs op = some s ∧ d.postable cs s

/-- A command of the admin sequencer whose turn it is. -/
def Dev.seqDue (d : Dev) (cs op : Nat) (s : CSlot) : Prop := d.seqSlot cs op = some s ∧ d.seqBusy cs s = false ∧ d.postable cs s

/-- An I/O command that is or can be charged and runs on its namespace. -/
def Dev.ioDue (d : Dev) (cs op : Nat) (s : CSlot) (ns : Nat) (n : Nsp) : Prop :=
  d.ioSlot cs [op] = some s ∧ (d.charge cs).2 = true ∧ d.nsOf s = some (ns, n) ∧ d.postable cs s

/-! ### Fuses -/

/-- A fuse array as it can be blown (R56, R58): the SVN fuses are a thermometer code, and the table of owner slots holds none but
the four slots, in order, and none that is blank. -/
def Fuses.formed (f : Fuses) : Prop :=
  (∃ n, n ≤ 128 ∧ f.svn = BitVec.ofNat 128 (2 ^ n - 1)) ∧ f.owners.wf = true
  ∧ ∀ (k : Nat) (o : Owner), f.owners.get? k = some o → k ≤ 3 ∧ o ≠ .blank

end Sys2Proof.Machine
end

