-- ==== Sys2Proof/Certificates/Slice0/Obligations.lean ====
section
/-! DEFINITION. The statements about the model, for the provers: what each family of commands does to the device, what every step keeps, and the
state after reset.  A statement names what changes, and where it says `butLog`, `butWork`, `butHost` or `butSlots` everything but the part of the
state that the name leaves out is as it was.  Each command is shown to complete with its own effect under conditions on the state and its operands. -/

open Sys2Proof Sys2Proof.Machine

/-- POR_N_ASSERT takes the device to OFF: every domain but AON is OFF, every register holds its reset value, the
ledger, the map, the Headgate and the boot are as after reset; the fuses and the queue are kept. POR_N_DEASSERT ends
in AWAIT_IMAGE with WDN and SB0 ON and the 600 s window running. (R36, R40, R74, R466, R8) -/
def Obligations.PowerOnReset : Prop :=
  (∀ s : State, ∃ t, exec .porNAssert s = .next t ∧ t.pending = s.pending ∧ t.fuse = s.fuse ∧ t.dev.pins.por = true
      ∧ t.dev.modes = .reset ∧ t.dev.modes.mode = .off ∧ (t.dev.dom 0).st = .on ∧ (∀ k, 0 < k → (t.dev.dom k).st = .off)
      ∧ (∀ a, t.dev.csrW a = regReset a) ∧ t.dev.evl = .reset ∧ t.dev.tc = .reset ∧ t.dev.hg = .reset ∧ t.dev.boot = .reset
      ∧ t.dev.quires = [] ∧ t.dev.ring = .reset ∧ ∀ k, (t.dev.slot k).pwren = false)
  ∧ (∀ (s : State) (st : BitVec 4), s.dev.pins.por = true → s.dev.modes.mode = .off →
      ∃ t, exec (.porNDeassert st) s = .next t ∧ t.pending = s.pending ∧ t.fuse = s.fuse ∧ t.dev.pins.por = false
        ∧ t.dev.pins.straps = st ∧ t.dev.modes.mode = .awaitImage ∧ t.dev.modes.prev = .off
        ∧ t.dev.boot.windowNs64 = some (600 * 64000000000) ∧ (t.dev.dom 1).st = .on ∧ (t.dev.dom 34).st = .on
        ∧ t.dev.boot.mRom = some Config.romDigest)

/-- The clock commands: what each leaves in the clock's state, and that nothing else but the ledger changes. The
AWAIT_IMAGE window expires: everything staged goes and DORMANT is entered with TIMEOUT. (R25, R26, R40, R472) -/
def Obligations.ClocksAndTheAwaitWindow : Prop :=
  (∀ (s : State) (p : Port), s.dev.modes.mode ≠ .off →
      exec .crystalStable s = .next { s with dev := { s.dev with clk := { s.dev.clk with crystal := true } } }
      ∧ (s.dev.clk.lost p = false → ∃ t, exec (.refclkLost p) s = .next t ∧ t.dev.clk.lost p = true
          ∧ t.dev.clk.lost p.other = s.dev.clk.lost p.other
          ∧ (s.dev.clk.refSel ≠ p.ref → t.dev.clk.refSel = s.dev.clk.refSel ∧ t.dev.clk.holdover = s.dev.clk.holdover)
          ∧ (s.dev.clk.refSel = p.ref → s.dev.clk.lost p.other = false → t.dev.clk.refSel = p.other.ref ∧ t.dev.clk.holdover = false)
          ∧ (s.dev.clk.refSel = p.ref → s.dev.clk.lost p.other = true → t.dev.clk.refSel = p.ref ∧ t.dev.clk.holdover = true)
          ∧ t.fuse = s.fuse ∧ t.dev.butLog = { s.dev with clk := t.dev.clk }.butLog)
      ∧ (s.dev.clk.lost p = true → ∃ t, exec (.refclkReturn p) s = .next t ∧ t.dev.clk.lost p = false ∧ t.dev.clk.holdover = false
          ∧ (s.dev.clk.holdover = false → t.dev.clk.refSel = s.dev.clk.refSel)
          ∧ (s.dev.clk.holdover = true → t.dev.clk.refSel = p.ref)
          ∧ t.fuse = s.fuse ∧ t.dev.butLog = { s.dev with clk := t.dev.clk }.butLog))
  ∧ (∀ s : State, s.dev.modes.mode = .awaitImage →
      ∃ t, exec .awaitImageTimeout s = .next t ∧ t.dev.modes.mode = .dormant ∧ t.dev.boot.folio = none ∧ t.dev.boot.impo = none
        ∧ t.dev.boot.windowNs64 = none ∧ t.dev.boot.lastStatus = 0x51 ∧ t.fuse = s.fuse)

/-- A port's PERST: released, its training starts with its own t0; asserted, its link is down and its domain OFF. A
host link that comes up, and one that goes down without PERST. The first port to come up is the boot port, and its
reference is selected unless it is lost. (R37, R38, R94, R26, R22) -/
def Obligations.HostPorts : Prop :=
  (∀ (s : State) (p : Port),
      (s.dev.pins.perst p = true → s.dev.pins.por = false → s.dev.portOff p = false → (s.dev.dom (portDom p)).failed = false →
        (s.dev.dom (portDom p)).st = .off → (s.dev.dom (portDom p)).wait = false →
        ∃ t, exec (.perstDeassert p) s = .next t ∧ t.dev.pins.perst p = false
          ∧ t.dev.boot.t0Port.get? p.num = some (max s.dev.clk.ns64 ms12)
          ∧ (if s.dev.pwr.ramps < 4 then (t.dev.dom (portDom p)).st = .trans ∧ (t.dev.dom (portDom p)).up = .on
              else (t.dev.dom (portDom p)).wait = true)
          ∧ ∀ k, k ≠ portDom p → t.dev.dom k = s.dev.dom k)
      ∧ (s.dev.pins.perst p = false → s.dev.modes.mode ≠ .off → s.dev.portOff p = false →
        ∃ t, exec (.perstAssert p) s = .next t ∧ t.dev.pins.perst p = true ∧ (t.dev.hport p).dl = false
          ∧ (t.dev.dom (portDom p)).st = .off))
  ∧ (∀ (s : State) (p : Port),
      (∀ (rate width : Nat) (flit : Bool), s.dev.modes.mode ≠ .off → s.dev.pins.perst p = false → s.dev.portOff p = false →
        ∃ t, exec (.linkDlActive p rate width flit) s = .next t ∧ (t.dev.hport p).dl = true ∧ (t.dev.hport p).rate = rate
          ∧ (t.dev.hport p).width = width ∧ (t.dev.hport p).flit = flit
          ∧ (s.dev.boot.port.isSome = true → t.dev.boot = s.dev.boot ∧ t.dev.clk = s.dev.clk)
          ∧ (s.dev.boot.port = none → t.dev.boot.port = some p
              ∧ (s.dev.clk.refSel = .boot → s.dev.clk.lost p = false → t.dev.clk.refSel = p.ref ∧ t.dev.clk.holdover = false)))
      ∧ ((s.dev.hport p).dl = true →
        ∃ t, exec (.surpriseLinkDown p) s = .next t ∧ t.dev.hport p = { HPort.reset with ana := (s.dev.hport p).ana }))

/-- HELLO, GET_STATUS and an undefined opcode, in every mode that takes them. Reading the Boot Colophon and the ledger
through the mailbox. (R46, R47, R48, R49, R71, R426) -/
def Obligations.MailboxHelloAndReads : Prop :=
  (∀ (s : State) (p : Port) (k : KmbPkt), s.dev.mailboxFree p →
      (s.dev.modes.mode ≠ .holdup → firstNonZero k 42 = none → k.num 41 1 = 1 →
        ∃ t, exec (.hello p k) s = .next t ∧ (t.dev.box p).ended 1 k 0 (helloResults s.fuse) ∧ t.fuse = s.fuse
          ∧ (s.dev.modes.mode = .dormant → t.dev.modes.mode = .awaitImage ∧ t.dev.boot.windowNs64 = some (600 * 64000000000))
          ∧ (s.dev.modes.mode = .awaitImage → s.dev.boot.port = some p → t.dev.boot.nonce = some (BitVec.ofNat 256 (k.num 8 32)))
          ∧ (s.dev.modes.mode ≠ .dormant → t.dev.modes = s.dev.modes))
      ∧ (firstNonZero k 8 = none →
        ∃ t, exec (.getStatus p k) s = .next t ∧ (t.dev.box p).busy = false ∧ (t.dev.box p).status = 0 ∧ (t.dev.box p).op = 6
          ∧ (t.dev.box p).results.length = (if s.dev.modes.mode = .dormant then 2 else 16) ∧ t.dev.modes = s.dev.modes
          ∧ t.dev.boot = s.dev.boot ∧ t.dev.pwr = s.dev.pwr)
      ∧ (∀ op : Byte, (op = 0 ∨ 0x0A < op.toNat) →
        ∃ t, exec (.badOpcode p op k) s = .next t ∧ (t.dev.box p).ended op.toNat k 2 [] ∧ t.dev.boot.lastStatus = 2
          ∧ t.dev.modes = s.dev.modes ∧ t.fuse = s.fuse))
  ∧ (∀ (s : State) (p : Port) (k : KmbPkt), s.dev.mailboxFree p → s.dev.modes.mode ≠ .dormant → s.dev.modes.mode ≠ .holdup →
      (s.dev.fnst (.pf p)).bme = true → k.num 8 8 % 4 = 0 →
      (s.dev.bcol.signed = true → firstNonZero k 24 = none → k.num 16 4 < s.dev.bcol.length → 0 < k.num 20 4 → k.num 20 4 ≤ 65536 →
        ∃ t, exec (.getColophon p k) s = .next t ∧ t.dev.bcol = s.dev.bcol
          ∧ (t.dev.box p).status = 0 ∧ (t.dev.box p).busy = false
          ∧ Out.kmbWrite p (k.num 8 8) ((s.dev.bcolBytes.drop (k.num 16 4)).take (k.num 20 4)) ∈ t.dev.out)
      ∧ (firstNonZero k 25 = none → 0 < k.num 16 4 → k.num 16 4 % 4 = 0 → k.num 16 4 ≤ 65536 → k.num 24 1 = 1 →
        ∃ t, exec (.getLedger p k) s = .next t ∧ t.dev.evl = s.dev.evl ∧ (t.dev.box p).status = 0 ∧ (t.dev.box p).busy = false)
      ∧ (firstNonZero k 25 = none → 0 < k.num 16 4 → k.num 16 4 % 4 = 0 → k.num 16 4 ≤ 65536 → k.num 24 1 = 0 →
          s.dev.evl.mainOn = true →
        ∃ t, exec (.getLedger p k) s = .next t ∧ t.dev.evl.main = s.dev.evl.main ∧ t.dev.evl.next = s.dev.evl.next
          ∧ (t.dev.evl.ctx 0).latched = true ∧ (t.dev.evl.ctx 0).head = s.dev.evl.next ∧ (t.dev.box p).status = 0
          ∧ (t.dev.box p).busy = false))

/-- The loading commands on the boot port in AWAIT_IMAGE: what each stages. The commands whose data are checked: the
Imposition, and an owner's enrolment or revocation. No fuse is blown but by the latter two. (R48, R50, R477, R56, R57,
R62, R479) -/
def Obligations.MailboxLoads : Prop :=
  (∀ (s : State) (p : Port) (k : KmbPkt), s.dev.loading p →
      (firstNonZero k 12 = none → k.num 8 4 % 4096 = 0 → 24576 ≤ k.num 8 4 → k.num 8 4 ≤ 33574912 →
        ∃ t, exec (.beginImage p k) s = .next t ∧ (t.dev.box p).ended 2 k 0 [] ∧ t.dev.boot.folio = some ⟨k.num 8 4, [], []⟩
          ∧ t.dev.boot.impo = s.dev.boot.impo)
      ∧ (∀ (f : Staged) (b : List Byte), s.dev.boot.folio = some f → firstNonZero k 24 = none → k.num 8 8 % 4 = 0 →
          k.num 16 4 % 4096 = 0 → k.num 20 4 % 4096 = 0 → 0 < k.num 20 4 → k.num 20 4 ≤ 0x400000 →
          k.num 16 4 + k.num 20 4 ≤ f.size → (s.dev.fnst (.pf p)).bme = true →
        ∃ t, exec (.writeChunk p k (.ok b)) s = .next t ∧ t.dev.boot.folio = some (f.write (k.num 16 4) (chunkBytes b (k.num 20 4)))
          ∧ (t.dev.box p).ended 3 k 0 (leBytes 4 ((f.write (k.num 16 4) (chunkBytes b (k.num 20 4))).pages.length * 4096)))
      ∧ (∀ f : Staged, s.dev.boot.folio = some f → f.complete = true → s.dev.boot.impo.isSome = true → firstNonZero k 8 = none →
        ∃ t, exec (.endImage p k) s = .next t ∧ t.dev.modes.mode = .verify ∧ t.dev.boot.verifying = some p
          ∧ (t.dev.box p).busy = true ∧ (t.dev.box p).status = 0xFF ∧ t.dev.boot.windowNs64 = s.dev.boot.windowNs64)
      ∧ (firstNonZero k 8 = none →
        ∃ t, exec (.abortLoad p k) s = .next t ∧ (t.dev.box p).ended 0x0A k 0 [] ∧ t.dev.boot.folio = none ∧ t.dev.boot.impo = none
          ∧ t.dev.boot.lastStatus = 0x52 ∧ t.dev.boot.windowNs64 = s.dev.boot.windowNs64))
  ∧ (∀ (s : State) (p : Port) (k : KmbPkt) (b : List Byte), s.dev.loading p → (s.dev.fnst (.pf p)).bme = true → k.num 8 8 % 4 = 0 →
      (∀ (i : Impo) (st dt : Nat), firstNonZero k 20 = none → 128 ≤ k.num 16 4 → k.num 16 4 % 4 = 0 → k.num 16 4 ≤ 262144 →
          checkImposition s.fuse (slice b 0 (k.num 16 4)) = (some i, st, dt) →
        ∃ t, exec (.putImposition p k (.ok b)) s = .next t ∧ (t.dev.box p).ended 5 k 0 (digestBytes i.digest)
          ∧ t.dev.boot.impo = some i ∧ t.dev.boot.mImpo = some i.digest ∧ t.fuse = s.fuse)
      ∧ (firstNonZero k 22 = none → k.num 16 4 = 5760 → k.num 21 1 ≤ 3 → s.dev.boot.folio = none →
        (k.num 20 1 ≤ 1 → enrolCheck s.fuse (slice b 0 5760) true (k.num 21 1) = none →
          ∃ t, exec (.enrollOwnerEnrol p k (.ok b)) s = .next t ∧ t.fuse = s.fuse.enrolled b true (k.num 21 1)
            ∧ (t.dev.box p).ended 9 k 0 (leBytes 1 t.fuse.slotByte))
        ∧ (k.num 20 1 ≤ 1 → enrolCheck s.fuse (slice b 0 5760) false (k.num 21 1) = none →
          ∃ t, exec (.enrollOwnerRevoke p k (.ok b)) s = .next t ∧ t.fuse = s.fuse.enrolled b false (k.num 21 1)
            ∧ (t.dev.box p).ended 9 k 0 (leBytes 1 t.fuse.slotByte))))

/-- A ring on a busy mailbox, and one before the mailbox is ready, which runs once it is. The end of a verification: a
Folio that passes Table 02-11 is measured and its keys derived, one that fails is discarded and AWAIT_IMAGE goes on
with the accepted Imposition. (R46, R39, R55, R62, R63, R72) -/
def Obligations.MailboxRingsAndVerification : Prop :=
  (∀ (s : State) (p : Port) (k : KmbPkt), s.dev.modes.mode ≠ .off → (s.dev.hport p).dl = true →
      ((s.dev.box p).busy = true → ∃ t, exec (.hello p k) s = .next t ∧ t.dev.butLog = s.dev.butLog ∧ t.fuse = s.fuse)
      ∧ ((s.dev.box p).busy = false → s.dev.boot.mboxReady = false → s.dev.modes.mode ≠ .dormant →
        ∃ t, exec (.hello p k) s = .next t ∧ (t.dev.box p).busy = true ∧ (t.dev.box p).held = some (.hello p k)
          ∧ (t.dev.box p).status = 0xFF)
      ∧ (s.dev.boot.port.isSome = true → s.dev.boot.mboxReady = false → (∀ q, (s.dev.box q).held = none) →
        exec .mailboxReady s = .next { s with dev := { s.dev with boot := { s.dev.boot with mboxReady := true } } }))
  ∧ (∀ (s : State) (p : Port) (f : Staged), s.dev.modes.mode = .verify → s.dev.boot.verifying = some p → s.dev.boot.folio = some f →
      (folioCheck s.fuse f.cells f.size = none →
        ∃ t, exec .folioVerifyDone s = .next t ∧ t.fuse = s.fuse ∧ (t.dev.box p).status = 0 ∧ (t.dev.box p).busy = false
          ∧ (t.dev.box p).results = digestBytes (runFolioOf s.fuse f.cells).mv
          ∧ t.dev.modes.mode = .assemble ∧ t.dev.boot.mMv = some (runFolioOf s.fuse f.cells).mv ∧ t.dev.boot.cdi0 = none)
      ∧ (∀ st dt : Nat, folioCheck s.fuse f.cells f.size = some (st, dt) → 0 < st →
        ∃ t, exec .folioVerifyDone s = .next t ∧ t.fuse = s.fuse ∧ (t.dev.box p).status = st ∧ (t.dev.box p).busy = false
          ∧ t.dev.modes.mode = .awaitImage ∧ t.dev.boot.folio = none ∧ t.dev.boot.impo = s.dev.boot.impo
          ∧ t.dev.boot.lastStatus = st ∧ t.dev.boot.windowNs64 = s.dev.boot.windowNs64))

/-- A write of WDN_PD_REQ with go = 1: ignored while a request is busy; refused requests leave only their code, and
every request during a mode transition is refused; an accepted one moves the domain. (R24, R22, R18) -/
def Obligations.DomainRequests : Prop :=
  ∀ (s : State) (k t : Nat), s.dev.modes.mode ≠ .off → k < 64 → t < 4 →
    (s.dev.pwr.busy.isSome = true → exec (.pdRequest k t) s = .next s)
    ∧ (s.dev.pwr.busy = none → s.dev.pdJudge k t ≠ 0 → ∃ u, exec (.pdRequest k t) s = .next u
        ∧ u.dev.pwr = { s.dev.pwr with result := s.dev.pdJudge k t } ∧ u.fuse = s.fuse
        ∧ u.dev.butLog = { s.dev.setCsr aPdReq (BitVec.ofNat 32 (k + 256 * t)) with pwr := u.dev.pwr }.butLog)
    ∧ (s.dev.inTransition = true → k ≤ 35 → t ≠ 1 → s.dev.pdJudge k t = 2)
    ∧ (s.dev.pwr.busy = none → s.dev.pdJudge k t = 0 →
        ∃ u, exec (.pdRequest k t) s = .next u ∧ u.fuse = s.fuse ∧ u.dev.modes = s.dev.modes
          ∧ (t = 0 → (s.dev.dom k).st ≠ .off → (u.dev.dom k).st = .trans ∧ (u.dev.dom k).up = .off ∧ (u.dev.dom k).offReq = true
              ∧ u.dev.pwr.busy = some (k, .off))
          ∧ (t = 0 → (s.dev.dom k).st = .off → (u.dev.dom k).st = .off ∧ u.dev.pwr.busy = none)
          ∧ (t = 2 → (s.dev.dom k).st = .on → (u.dev.dom k).st = .trans ∧ (u.dev.dom k).up = .gated ∧ u.dev.pwr.busy = some (k, .gated))
          ∧ (t = 3 → (s.dev.dom k).st = .off → (s.dev.dom k).wait = false → u.dev.pwr.busy = some (k, .on)
              ∧ (if s.dev.pwr.ramps < 4 then (u.dev.dom k).st = .trans ∧ (u.dev.dom k).up = .on ∧ (u.dev.dom k).ramp = true
                  else (u.dev.dom k).wait = true))
          ∧ (t = 3 → (s.dev.dom k).st = .on → (u.dev.dom k).st = .on ∧ u.dev.pwr.busy = none))

/-- The end of a ramp or a wake: outside IDLE the domain reads ON. The end of a drain takes a domain OFF, and the end
of gating takes it to GATED, unless something waits for it. A memory half asked OFF waits for its buffers, and a link
group for its links. A domain declared failed is OFF and stays failed. (R19, R20, R21, R22, R23, R83) -/
def Obligations.DomainTransitions : Prop :=
  (∀ (s : State) (k : Nat), (s.dev.dom k).st = .trans → (s.dev.dom k).up = .on → s.dev.modes.mode ≠ .idle →
      s.dev.pwr.busy ≠ some (k, .gated) →
      ∃ t, exec (.domainPowerUpDone k) s = .next t ∧ (t.dev.dom k).st = .on ∧ (t.dev.dom k).ramp = false ∧ t.fuse = s.fuse)
  ∧ (∀ (s : State) (k : Nat), (s.dev.dom k).st = .trans → (s.dev.dom k).want = false → s.dev.modes.mode ≠ .idle →
      ((s.dev.dom k).up = .off → (9 ≤ k → k ≤ 12 → servingMode s.dev.modes.mode = false) →
        ((k = 34 ∨ k = 35) → (s.dev.dom k).offReq = true → s.dev.halfBusy (k - 34) = false) →
        ∃ t, exec (.domainDrainDone k) s = .next t ∧ (t.dev.dom k).st = .off ∧ (t.dev.dom k).ramp = false ∧ t.fuse = s.fuse)
      ∧ ((k = 34 ∨ k = 35) → (s.dev.dom k).up = .off → (s.dev.dom k).offReq = true → s.dev.halfBusy (k - 34) = true →
        exec (.domainDrainDone k) s = .next s)
      ∧ ((s.dev.dom k).up = .gated →
        (13 ≤ k → k ≤ 20 → ∀ i, i < 8 → (s.dev.link (8 * (k - 13) + i)).st ≠ .active) →
        ∃ t, exec (.domainGated k) s = .next t ∧ (t.dev.dom k).st = .gated ∧ t.fuse = s.fuse)
      ∧ ∀ i, (s.dev.dom k).up = .gated → 13 ≤ k → k ≤ 20 → i < 8 → (s.dev.link (8 * (k - 13) + i)).st = .active →
        exec (.domainGated k) s = .next s)
  ∧ (∀ (s : State) (k : Nat), 2 ≤ k → k ≤ 35 → (s.dev.dom k).failed = false → s.dev.modes.mode ≠ .off → (s.dev.dom k).st ≠ .off →
      (13 ≤ k → k ≤ 20 → ∀ i, i < 8 → (s.dev.slot (8 * (k - 13) + i)).admitted = false) →
      ∃ t, exec (.domainFailed k) s = .next t ∧ (t.dev.dom k).failed = true ∧ (t.dev.dom k).st = .off ∧ t.fuse = s.fuse)

/-- In a serving mode a Demand domain without work is gated, unless the warm floor holds it. The warm floor and the
idle time, which firmware may rewrite in a serving mode: an out-of-range value is ignored in whole; under the
automatic policy only the policy field takes a write and the hardware keeps the others. (R84, R86, R87) -/
def Obligations.GatingAndTheWarmFloor : Prop :=
  (∀ (s : State) (k : Nat), servingMode s.dev.modes.mode = true →
      (s.dev.inFloor k = true → exec (.idleGateTimeout k) s = .next s)
      ∧ (s.dev.inFloor k = false → s.dev.ruleOf k = .demand → (s.dev.dom k).st = .on → (13 ≤ k → k ≤ 20 → s.dev.glBusy k = false) →
        ∃ t, exec (.idleGateTimeout k) s = .next t ∧ (t.dev.dom k).st = .trans ∧ (t.dev.dom k).up = .gated
          ∧ t.dev.modes = s.dev.modes ∧ t.fuse = s.fuse ∧ ∀ j, j ≠ k → t.dev.dom j = s.dev.dom j))
  ∧ (∀ (s : State) (v : W32), servingMode s.dev.modes.mode = true →
      ((8 < bitsOf v.toNat 3 0 ∨ 4 < bitsOf v.toNat 6 4 ∨ bitsOf v.toNat 9 7 = 0 ∨ 4 < bitsOf v.toNat 9 7) →
        ∃ t, exec (.warmFloorWrite v) s = .next t ∧ t.dev.butLog = s.dev.butLog ∧ t.fuse = s.fuse)
      ∧ (bitsOf v.toNat 3 0 ≤ 8 → bitsOf v.toNat 6 4 ≤ 4 → 1 ≤ bitsOf v.toNat 9 7 → bitsOf v.toNat 9 7 ≤ 4 →
        ∃ t, exec (.warmFloorWrite v) s = .next t ∧ t.fuse = s.fuse
          ∧ (bitOf (s.dev.csrW aWarmFloor).toNat 11 = true → bitOf v.toNat 11 = true → t.dev.csrW aWarmFloor = v &&& 0xFFFFF#32)
          ∧ (bitOf v.toNat 11 = false → t.dev.csrW aWarmFloor = BitVec.ofNat 32 s.dev.autoFloor))
      ∧ (10 ≤ bitsOf v.toNat 13 0 → bitsOf v.toNat 13 0 ≤ 10000 →
          exec (.idleGateWrite v) s = .next { s with dev := s.dev.setCsr aIdleGate (BitVec.ofNat 32 (bitsOf v.toNat 13 0)) })
      ∧ ((bitsOf v.toNat 13 0 < 10 ∨ 10000 < bitsOf v.toNat 13 0) → ∃ t, exec (.idleGateWrite v) s = .next t
          ∧ t.dev.butLog = s.dev.butLog ∧ t.fuse = s.fuse))

/-- Entry starts with PS3 or PS4 selected and nothing outstanding, and completes once no program runs. An autonomous
transition selects the state that the table names for the state in force. (R74, R79, R81, R110) -/
def Obligations.IdleAndPowerStates : Prop :=
  (∀ s : State, servingMode s.dev.modes.mode = true →
      (s.dev.modes.idleEntry = false → 3 ≤ s.dev.modes.selPs → s.dev.cmdsOutstanding = false → s.dev.modes.settle = [] →
        ∃ t, exec .idleEntry s = .next t ∧ t.dev.modes = { s.dev.modes with idleEntry := true } ∧ t.dev.inTransition = true
          ∧ t.dev.pwr = s.dev.pwr ∧ t.dev.hg = s.dev.hg ∧ t.fuse = s.fuse)
      ∧ (s.dev.cmdsOutstanding = true → exec .idleEntry s = .next s)
      ∧ (s.dev.modes.idleEntry = true → s.dev.progInFlight = false →
        ∃ t, exec .idleEntryComplete s = .next t ∧ t.dev.modes.mode = .idle ∧ t.dev.modes.prev = s.dev.modes.mode
          ∧ t.dev.modes.hostPs = s.dev.modes.selPs ∧ t.dev.modes.idleEntry = false ∧ t.fuse = s.fuse)
      ∧ (s.dev.modes.idleEntry = true → s.dev.progInFlight = true → exec .idleEntryComplete s = .next s))
  ∧ (∀ (s : State) (ps : Nat), (ps = 3 ∨ ps = 4) → bitOf (s.dev.adm.feats.get 0 0x0C).toNat 0 = true →
      (s.dev.apstEntry s.dev.modes.selPs).1 = ps → (s.dev.apstEntry s.dev.modes.selPs).2 ≠ 0 →
      (servingMode s.dev.modes.mode = true → exec (.apstTransition ps) s =
        .next { s with dev := { s.dev with modes := { s.dev.modes with selPs := ps } } })
      ∧ (s.dev.modes.mode = .idle → s.dev.modes.leaving = false → ∃ t, exec (.apstTransition ps) s = .next t
          ∧ t.dev.modes.mode = .idle ∧ t.dev.modes.hostPs = ps ∧ t.dev.modes.selPs = ps ∧ t.dev.modes.lastOpPs = s.dev.modes.lastOpPs))

/-- Before ASSEMBLE an assertion changes no mode and is only recorded; in ASSEMBLE the device halts with cause 0x04;
in a serving mode or IDLE the Hold-Up sequence starts. Its deassertion changes the pin alone. The Hold-Up sequence's
end: with nothing dirty and no step stuck the seal stands and the cause is 0x03, or 0x02 with THERMTRIP_N after a
thermal start; with a step stuck the cause is 0x04 and no seal is written. (R395, R396, R75, R78, R91, R355) -/
def Obligations.PowerFailureAndHoldUp : Prop :=
  (∀ s : State,
      (s.dev.pins.pwrfail = false → s.dev.hu.busy = false →
        ((s.dev.modes.mode = .dormant ∨ s.dev.modes.mode = .awaitImage ∨ s.dev.modes.mode = .verify) →
          exec .pwrfailNAssert s
            = .next { s with dev := { s.dev with pins := { s.dev.pins with pwrfail := true } }.ev evWdnPwrfailEarly 0 [] })
        ∧ (s.dev.modes.mode = .assemble → ∃ t, exec .pwrfailNAssert s = .next t ∧ t.dev.modes.mode = .halted
            ∧ t.dev.modes.haltCause = 4 ∧ t.dev.modes.haltMode = 4 ∧ t.dev.pins.pwrfail = true ∧ t.fuse = s.fuse)
        ∧ (hostMode s.dev.modes.mode = true → ∃ t, exec .pwrfailNAssert s = .next t ∧ t.dev.modes.mode = .holdup
            ∧ t.dev.pins.pwrfail = true ∧ t.fuse = s.fuse))
      ∧ (s.dev.modes.mode ≠ .off → exec .pwrfailNDeassert s
          = .next { s with dev := { s.dev with pins := { s.dev.pins with pwrfail := false } } }))
  ∧ (∀ s : State, s.dev.modes.mode = .holdup →
      (s.dev.holdupStuck = false → s.dev.dirtyBytes = 0 → ∃ t, exec .holdupSealWritten s = .next t ∧ t.dev.modes.mode = .halted
          ∧ t.dev.hu.sealed = true ∧ t.dev.modes.haltCause = (if s.dev.hu.thermal then 2 else 3)
          ∧ (s.dev.hu.thermal = true → t.dev.pins.thermtrip = true) ∧ t.fuse = s.fuse)
      ∧ (s.dev.holdupStuck = true → ∃ t, exec .holdupSealWritten s = .next t ∧ t.dev.modes.mode = .halted
          ∧ t.dev.hu.sealed = s.dev.hu.sealed ∧ t.dev.modes.haltCause = 4)
      ∧ (s.dev.holdupStuck = false → s.dev.dirtyBytes ≠ 0 → exec .holdupSealWritten s = .next s))

/-- A core rail outside its limits halts the device: cause 0x0A, or 0x04 while the Hold-Up sequence runs. (R465) -/
def Obligations.CoreRailHalts : Prop :=
  ∀ s : State,
    (s.dev.modes.mode ≠ .off → s.dev.modes.mode ≠ .halted → s.dev.modes.mode ≠ .holdup → s.dev.pins.pwrfail = false →
      ∃ t, exec .coreRailOutOfLimits s = .next t ∧ t.dev.modes.mode = .halted ∧ t.dev.modes.haltCause = 0x0A
        ∧ t.dev.modes.haltMode = modeCode s.dev.modes.mode ∧ t.fuse = s.fuse)
    ∧ (s.dev.modes.mode = .holdup → ∃ t, exec .coreRailOutOfLimits s = .next t ∧ t.dev.modes.mode = .halted
        ∧ t.dev.modes.haltCause = 4)
    ∧ (s.dev.modes.mode = .halted → exec .coreRailOutOfLimits s = .next s)

/-- One conversion of the 48 sensors: the junction, the weirs, and what their crossing does to the throttle count; two
samples of 120 °C on a sensor halt the device at once. The die's throttle count, the rail steps with rail_limit, and
the measured power. (R381, R382, R383, R384, R385, R389) -/
def Obligations.HeatAndRails : Prop :=
  (∀ (s : State) (temps : List Int), s.dev.modes.mode ≠ .off → temps.length = 48 →
      ((List.range 48).any (fun i => !((s.dev.takeSamples temps).sensor i).excluded && decide (2 ≤ ((s.dev.takeSamples temps).sensor i).hot)) = false →
        ((s.dev.takeSamples temps).thm.weirs (s.dev.takeSamples temps).junction).shutdown.crossed = false →
        ∃ t, exec (.tempSample temps) s = .next t ∧ t.fuse = s.fuse
          ∧ t.dev.thm = (s.dev.takeSamples temps).thm.weirs (s.dev.takeSamples temps).junction
          ∧ (t.dev.thm.critical.crossed = true → s.dev.thm.critical.crossed = false → t.dev.slu.kD = 16)
          ∧ (t.dev.thm.throttle.crossed = true → s.dev.thm.throttle.crossed = false → s.dev.thm.critical = t.dev.thm.critical →
              t.dev.slu.kD = min 16 (s.dev.slu.kD + 1))
          ∧ (t.dev.thm.throttle.crossed = s.dev.thm.throttle.crossed → t.dev.thm.critical.crossed = s.dev.thm.critical.crossed →
              t.dev.slu.kD = s.dev.slu.kD))
      ∧ ((List.range 48).any (fun i => !((s.dev.takeSamples temps).sensor i).excluded && decide (2 ≤ ((s.dev.takeSamples temps).sensor i).hot)) = true →
        s.dev.modes.mode ≠ .halted → ∃ t, exec (.tempSample temps) s = .next t ∧ t.dev.pins.thermtrip = true ∧ t.dev.modes.mode = .halted))
  ∧ (∀ s : State, s.dev.modes.mode ≠ .off →
      (∃ t, exec .dieThrottleStepTimer s = .next t ∧ t.fuse = s.fuse
        ∧ t.dev.slu.kD = (if s.dev.thm.throttle.crossed then min 16 (s.dev.slu.kD + 1) else s.dev.slu.kD - 1)
        ∧ (t.dev.slu.kD ≠ s.dev.slu.kD → t.dev.cond 0 = decide (0 < t.dev.slu.kD)))
      ∧ (∀ vcore icore iaux : Nat, ∃ t, exec (.railSample vcore icore iaux) s = .next t ∧ t.fuse = s.fuse
        ∧ t.dev.slu = { s.dev.slu with power := vcore * icore / 1000 + iaux })
      ∧ (maxPower s.dev.modes.hostPs < s.dev.slu.power → s.dev.slu.kR < 16 → ∃ t, exec .railStepTimer s = .next t
        ∧ t.dev.slu.kR = s.dev.slu.kR + 1 ∧ t.dev.cond 2 = true ∧ t.fuse = s.fuse)
      ∧ (100 * s.dev.slu.power ≤ 95 * maxPower s.dev.modes.hostPs → 0 < s.dev.slu.kR → ∃ t, exec .railStepTimer s = .next t
        ∧ t.dev.slu.kR = s.dev.slu.kR - 1 ∧ t.dev.modes = s.dev.modes ∧ t.fuse = s.fuse))

/-- Rail_limit clears once no step is left, and no_placement once some Quire can place a write. A capacitor test that
falls due starts, and its outcome sets the measured values, the result and the ceiling; an inconclusive one leaves
them and is tried again after 10 s. (R77, R186, R381, R392, R393) -/
def Obligations.ConditionsAndTheCapacitorTest : Prop :=
  (∀ s : State,
      (s.dev.slu.kR = 0 → ∃ t, exec .railLimitClearTimer s = .next t ∧ t.dev.cond 2 = false ∧ t.dev.slu = s.dev.slu ∧ t.fuse = s.fuse)
      ∧ (s.dev.slu.kR ≠ 0 → exec .railLimitClearTimer s = .next s)
      ∧ (s.dev.quires.any (fun q => s.dev.placeable q.1) = true → ∃ t, exec .noPlacementClearTimer s = .next t ∧ t.dev.cond 6 = false
          ∧ t.dev.quires = s.dev.quires ∧ t.fuse = s.fuse)
      ∧ (s.dev.quires.any (fun q => s.dev.placeable q.1) = false → exec .noPlacementClearTimer s = .next s))
  ∧ (∀ s : State,
      (s.dev.testMode = true → s.dev.hu.busy = false → exec .huTestDue s
        = .next { s with dev := { s.dev with hu := { s.dev.hu with
            busy := true, started := s.dev.now, due := s.dev.now + 86400000000000 } } })
      ∧ (s.dev.testMode = false → exec .huTestDue s = .next s)
      ∧ (s.dev.hu.busy = true → s.dev.hu.waiters = [] → ∀ v0 va ticks : Nat,
          ∃ t, exec (.huTestDone (.measured v0 va ticks)) s = .next t ∧ t.fuse = s.fuse ∧ t.dev.hu.busy = false
            ∧ t.dev.hu.esr = (s.dev.huMeasure v0 va ticks).1 ∧ t.dev.hu.cUf = (s.dev.huMeasure v0 va ticks).2
            ∧ t.dev.hu.result = (if s.dev.hbank 30 2 < t.dev.hu.esr then 2
                else if 1000 * t.dev.hu.cUf < s.dev.hbank 28 2 * s.dev.hbank 4 4 then 1 else 0)
            ∧ t.dev.hu.passed = decide (t.dev.hu.result = 0)
            ∧ t.dev.tc.ceiling = (if s.dev.hbank 30 2 < t.dev.hu.esr then 0 else s.dev.ceilingFor t.dev.hu.cUf))
      ∧ (s.dev.hu.busy = true → s.dev.hu.waiters = [] → ∀ o : HuOutcome, (o = .notCharged ∨ o = .timeout) →
          ∃ t, exec (.huTestDone o) s = .next t ∧ t.fuse = s.fuse ∧ t.dev.tc = s.dev.tc
            ∧ t.dev.hu = { s.dev.hu with busy := false, result := if o = .notCharged then 3 else 4, due := s.dev.now + 10000000000 }))

/-- An admitted module's monitor: a good answer gives the temperature in use, a third faulty one in a row excludes it.
A module's throttle count, its alerts, and an alert line that sticks. A sideband bus that sticks, fails, and comes
back. (R306, R307, R387, R385, R308, R292) -/
def Obligations.ModuleMonitorsAndBuses : Prop :=
  (∀ (s : State) (k : Nat) (c : Colo), s.dev.colo k = some c → (s.dev.slot k).admitted = true → (s.dev.slot k).absMax = ⟨false, 0⟩ →
      (∀ m : MonRegion, (s.dev.slot k).count ≠ some m.count → 4 * (c.temp 0 - 20) ≤ m.nand → m.nand ≤ 4 * (c.temp 2 + 20) →
          4 * (c.temp 0 - 20) ≤ m.bridge → m.bridge ≤ 4 * (c.temp 2 + 20) →
        ∃ t, exec (.monitorPoll k (some m)) s = .next t ∧ t.fuse = s.fuse ∧ (t.dev.slot k).nand = m.nand
          ∧ (t.dev.slot k).bridge = m.bridge ∧ (t.dev.slot k).faults = 0 ∧ (t.dev.slot k).admitted = true
          ∧ (2 ≤ (s.dev.slot k).goods → (t.dev.slot k).excluded = false)
          ∧ ∀ j, j ≠ k → t.dev.slot j = s.dev.slot j)
      ∧ (∃ t, exec (.monitorPoll k none) s = .next t ∧ t.fuse = s.fuse ∧ (t.dev.slot k).nand = (s.dev.slot k).nand
          ∧ (t.dev.slot k).faults = (s.dev.slot k).faults + 1 ∧ (2 ≤ (s.dev.slot k).faults → (t.dev.slot k).excluded = true)))
  ∧ (∀ (s : State) (k : Nat), k < 64 →
      (∃ t, exec (.moduleThrottleStepTimer k) s = .next t ∧ t.fuse = s.fuse
        ∧ t.dev.slot k = { s.dev.slot k with
            kS := if (s.dev.slot k).throttle.crossed then min 16 ((s.dev.slot k).kS + 1) else (s.dev.slot k).kS - 1 }
        ∧ t.dev.butWork = { s.dev with gl := t.dev.gl }.butWork ∧ ∀ j, j ≠ k → t.dev.slot j = s.dev.slot j)
      ∧ ((s.dev.slot k).alertMasked = false → (s.dev.slot k).pwren = true → ∀ bits : BitVec 32,
          bitOf bits.toNat 0 = true → bitOf bits.toNat 3 = false →
          exec (.moduleAlert k bits) s = .next { s with dev := s.dev.ev evGlModuleAlert (k / 8) [] })
      ∧ ((s.dev.slot k).alertMasked = true → ∀ bits : BitVec 32, exec (.moduleAlert k bits) s = .next s)
      ∧ ((s.dev.slot k).present = true → (s.dev.slot k).alertMasked = false →
          exec (.alertStuckTimer k) s = .next { s with dev :=
            (s.dev.modSt k (fun x => { x with alert := true, alertMasked := true })).ev evGlAlertStuck (k / 8) [] }))
  ∧ (∀ (s : State) (k : Nat), k < 8 →
      (∃ t, exec (.i3cBusStuck k) s = .next t ∧ bitOf t.dev.gl.busStuck.toNat k = true ∧ t.fuse = s.fuse
        ∧ t.dev = { s.dev with gl := { s.dev.gl with busStuck := t.dev.gl.busStuck } })
      ∧ (bitOf s.dev.gl.busStuck.toNat k = true → s.dev.modes.mode ≠ .assemble →
          ∃ t, exec (.i3cBusRecoveryTimeout k) s = .next t ∧ bitOf t.dev.gl.busStuck.toNat k = false
            ∧ bitOf t.dev.gl.busFailed.toNat k = true ∧ t.fuse = s.fuse
            ∧ ∀ i, i < 8 → (s.dev.slot (8 * k + i)).admitted = true → (t.dev.slot (8 * k + i)).excluded = true)
      ∧ ((bitOf s.dev.gl.busStuck.toNat k = true ∨ bitOf s.dev.gl.busFailed.toNat k = true) →
          ∃ t, exec (.i3cBusRecovered k) s = .next t ∧ bitOf t.dev.gl.busStuck.toNat k = false
            ∧ bitOf t.dev.gl.busFailed.toNat k = false ∧ t.fuse = s.fuse
            ∧ t.dev.counter aI3cBus 8 = sat 8 (s.dev.counter aI3cBus 8 + 1)))

/-- A controller enabled in a serving mode or IDLE becomes ready with the admin queues of AQA, ASQ and ACQ; before the
entry mode the write is stored and not acted upon; other entry sizes set CSTS.CFS. A controller reset and a Function
Level Reset take the queues away; CSTS.RDY falls once no slot is held. A shutdown notification reads complete once the
slots are free. (R119, R139, R140, R39, R104) -/
def Obligations.ControllersComeAndGo : Prop :=
  (∀ (s : State) (f : Fn) (cc : W32), s.dev.fnUp f = true → bitOf cc.toNat 0 = true → bitOf (s.dev.fnst f).cc.toNat 0 = false →
      (hostMode s.dev.modes.mode = true → (s.dev.fnst f).rdy = false → (s.dev.fnst f).cfs = false → (s.dev.fnst f).online = true →
        (bitsOf cc.toNat 19 16 = 6 → bitsOf cc.toNat 23 20 = 4 →
          ∃ t, exec (.controllerEnable f cc) s = .next t ∧ t.fuse = s.fuse ∧ t.dev = { s.dev with fns := t.dev.fns }
            ∧ (t.dev.fnst f).rdy = true ∧ (t.dev.fnst f).cc = cc
            ∧ (t.dev.fnst f).sqs = [(0, ⟨(s.dev.fnst f).asq.toNat, bitsOf (s.dev.fnst f).aqa.toNat 11 0 + 1, 0, 0, 0, []⟩)]
            ∧ (t.dev.fnst f).cqs.map (·.1) = [0] ∧ ∀ g, g.key ≠ f.key → t.dev.fnst g = s.dev.fnst g)
        ∧ ((bitsOf cc.toNat 19 16 ≠ 6 ∨ bitsOf cc.toNat 23 20 ≠ 4) →
          ∃ t, exec (.controllerEnable f cc) s = .next t ∧ t.fuse = s.fuse ∧ t.dev = { s.dev with fns := t.dev.fns }
            ∧ t.dev.fnst f = { s.dev.fnst f with cc := cc, cfs := true }))
      ∧ (hostMode s.dev.modes.mode = false → exec (.controllerEnable f cc) s
          = .next { s with dev := s.dev.modFn f (fun x => { x with cc := cc }) }))
  ∧ (∀ (s : State) (f : Fn), s.dev.fnUp f = true →
      (∀ cc : W32, bitOf cc.toNat 0 = false → bitOf (s.dev.fnst f).cc.toNat 0 = true →
        ∃ t, exec (.controllerReset f cc) s = .next t ∧ t.fuse = s.fuse ∧ t.dev.modes = s.dev.modes ∧ (t.dev.fnst f).sqs = []
          ∧ (t.dev.fnst f).cqs = [] ∧ (t.dev.fnst f).feats = [] ∧ (t.dev.fnst f).cc = cc
          ∧ (s.dev.slotsOf f = [] → (t.dev.fnst f).rdy = false))
      ∧ (∀ cc : W32, (bitsOf cc.toNat 15 14 = 1 ∨ bitsOf cc.toNat 15 14 = 2) → (s.dev.fnst f).rdy = true → (s.dev.fnst f).shst = 0 →
          (s.dev.fnst f).aers = [] →
        ∃ t, exec (.shutdownNotification f cc) s = .next t ∧ t.fuse = s.fuse ∧ (t.dev.fnst f).cc = cc
          ∧ (s.dev.slotsOf f ≠ [] → (t.dev.fnst f).shst = 1)
          ∧ (s.dev.slotsOf f = [] → f.isPf = false → s.dev.evl.persisting = none → s.dev.evl.waiting = [] → (t.dev.fnst f).shst = 2))
      ∧ (∃ t, exec (.functionLevelReset f) s = .next t ∧ t.fuse = s.fuse ∧ t.dev.modes = s.dev.modes
          ∧ t.dev.fnst f = { FnSt.reset with
              online := (s.dev.fnst f).online, errs := (s.dev.fnst f).errs, errCount := (s.dev.fnst f).errCount }
          ∧ (f.isPf = true → (t.dev.hport f.port).vfEn = false ∧ (t.dev.hport f.port).numVfs = 0)
          ∧ t.dev.hport f.port.other = s.dev.hport f.port.other))

/-- The doorbells of queues that exist move tail and head; one to a queue that does not exist, or that moves a pointer
outside its queue, is discarded with the event Invalid Doorbell Write. I/O queues come to be and go. (R99, R107, R115,
R123) -/
def Obligations.DoorbellsAndQueues : Prop :=
  (∀ (s : State) (f : Fn) (qid v : Nat), s.dev.bellOk f = true → s.dev.modes.mode ≠ .idle → s.dev.modes.idleEntry = false →
      (∀ q : Sq, (s.dev.fnst f).sqs.get? qid = some q → v < q.size → v ≠ q.tail →
        ∃ t, exec (.sqTailDoorbell f qid v) s = .next t ∧ t.fuse = s.fuse ∧ t.dev = { s.dev with fns := t.dev.fns }
          ∧ (t.dev.fnst f).sqs.get? qid = some { q with tail := v, bells := q.bells ++ [(v, s.dev.now)] })
      ∧ (∀ q : Cq, (s.dev.fnst f).cqs.get? qid = some q → v < q.size → q.held = [] →
          ringDist q.size q.head v ≤ ringDist q.size q.head q.tail →
        ∃ t, exec (.cqHeadDoorbell f qid v) s = .next t ∧ t.fuse = s.fuse ∧ t.dev = { s.dev with fns := t.dev.fns }
          ∧ (t.dev.fnst f).cqs.get? qid = some { q with head := v })
      ∧ ((s.dev.fnst f).sqs.get? qid = none → exec (.sqTailDoorbell f qid v) s = .next { s with dev := s.dev.aen f aeDoorbell })
      ∧ (∀ q : Sq, (s.dev.fnst f).sqs.get? qid = some q → q.size ≤ v →
          exec (.sqTailDoorbell f qid v) s = .next { s with dev := s.dev.aen f aeDoorbell })
      ∧ ((s.dev.fnst f).cqs.get? qid = none → exec (.cqHeadDoorbell f qid v) s = .next { s with dev := s.dev.aen f aeDoorbell }))
  ∧ (∀ (s : State) (cs : Nat) (x : CSlot),
      (s.dev.adminDue cs 0x05 x → queueRefusal x.fn (x.dw 10) ((s.dev.fnst x.fn).cqs.has (bitsOf (x.dw 10) 15 0)) = none →
          bitOf (x.dw 11) 0 = true → bitsOf (x.dw 11) 31 16 ≤ x.fn.queues →
        ∃ t, exec (.createIoCq cs) s = .next t ∧ t.fuse = s.fuse ∧ t.dev.posted s.dev.out cs x cqeOk
          ∧ (t.dev.fnst x.fn).cqs.get? (bitsOf (x.dw 10) 15 0) = some ⟨x.prp1, bitsOf (x.dw 10) 31 16 + 1, 0, 0, true,
              bitsOf (x.dw 11) 31 16, bitOf (x.dw 11) 1, [], false⟩)
      ∧ (s.dev.adminDue cs 0x01 x → queueRefusal x.fn (x.dw 10) ((s.dev.fnst x.fn).sqs.has (bitsOf (x.dw 10) 15 0)) = none →
          bitOf (x.dw 11) 0 = true → 1 ≤ bitsOf (x.dw 11) 31 16 → bitsOf (x.dw 11) 31 16 ≤ x.fn.queues →
          (s.dev.fnst x.fn).cqs.has (bitsOf (x.dw 11) 31 16) = true →
        ∃ t, exec (.createIoSq cs) s = .next t ∧ t.fuse = s.fuse ∧ t.dev.posted s.dev.out cs x cqeOk
          ∧ (t.dev.fnst x.fn).sqs.get? (bitsOf (x.dw 10) 15 0) = some ⟨x.prp1, bitsOf (x.dw 10) 31 16 + 1,
              bitsOf (x.dw 11) 31 16, 0, 0, []⟩)
      ∧ (s.dev.adminDue cs 0x00 x → bitsOf (x.dw 10) 15 0 ≠ 0 → (s.dev.fnst x.fn).sqs.has (bitsOf (x.dw 10) 15 0) = true →
          (s.dev.slotsOf x.fn).all (fun y => decide (y.2.sqid ≠ bitsOf (x.dw 10) 15 0)) = true →
        ∃ t, exec (.deleteIoSq cs) s = .next t ∧ t.fuse = s.fuse ∧ t.dev.posted s.dev.out cs x cqeOk
          ∧ (t.dev.fnst x.fn).sqs.get? (bitsOf (x.dw 10) 15 0) = none)
      ∧ (∀ q : Cq, s.dev.adminDue cs 0x04 x → bitsOf (x.dw 10) 15 0 ≠ 0 →
          (s.dev.fnst x.fn).cqs.get? (bitsOf (x.dw 10) 15 0) = some q → q.held = [] →
          (s.dev.fnst x.fn).sqs.any (fun y => decide (y.2.cqid = bitsOf (x.dw 10) 15 0)) = false →
        ∃ t, exec (.deleteIoCq cs) s = .next t ∧ t.fuse = s.fuse ∧ t.dev.posted s.dev.out cs x cqeOk
          ∧ (t.dev.fnst x.fn).cqs.get? (bitsOf (x.dw 10) 15 0) = none))

/-- A decision with one eligible admin queue and no eligible I/O queue fetches up to 8 of its entries, never across
the queue's end; with no eligible queue only the interval is counted, and no decision is made while fetching is off.
Entries that arrive take the lowest free slots; a failed fetch sets CSTS.CFS on that controller. (R123, R124, R132,
R133, R143) -/
def Obligations.FetchingCommands : Prop :=
  (∀ s : State,
      (s.dev.fetchOn = false → exec .fetchDecision s = .next s)
      ∧ (s.dev.fetchOn = true → ∀ x : SqRef, s.dev.adminQueues = [x] → s.dev.ioQueues = [] →
          ∃ t, exec .fetchDecision s = .next t ∧ t.fuse = s.fuse ∧ t.dev.hg.sinceAdmin = 0 ∧ t.dev.hg.rrAdmin = x.key
            ∧ t.dev.hg.fetches = s.dev.hg.fetches ++ [⟨x.fn, x.qid, min (min (min 8 s.dev.freeNow) (s.dev.sqPending x))
                (x.q.size - (x.q.head + s.dev.sqFlight x) % x.q.size)⟩] ∧ t.dev.hg.slots = s.dev.hg.slots)
      ∧ (s.dev.fetchOn = true → s.dev.adminQueues = [] → s.dev.ioQueues = [] →
          exec .fetchDecision s = .next { s with dev := { s.dev with hg := { s.dev.hg with sinceAdmin := s.dev.hg.sinceAdmin + 1 } } }))
  ∧ (∀ (s : State) (f : Fn) (qid n : Nat), s.dev.hg.fetches = [⟨f, qid, n⟩] →
      (∀ (q : Sq) (e : BitVec 512), 1 ≤ n → (s.dev.fnst f).sqs.get? qid = some q →
        ∃ t, exec (.sqFetchComplete f qid (.entries [e])) s = .next t ∧ t.fuse = s.fuse ∧ t.dev.hg.fetches = []
          ∧ ∃ x : CSlot, t.dev.hg.slots.get? (s.dev.freeCs (s.dev.hg.slots.length + 1) 0) = some x ∧ x.st = .fetched ∧ x.fn = f
            ∧ x.sqid = qid ∧ x.sqe = e ∧ x.cid = bitsOf e.toNat 31 16 ∧ x.order = s.dev.hg.order ∧ x.classified = false
            ∧ x.charged = false ∧ ∃ q', (t.dev.fnst f).sqs.get? qid = some q' ∧ q'.head = (q.head + 1) % q.size ∧ q'.tail = q.tail)
      ∧ (∃ t, exec (.sqFetchComplete f qid .failed) s = .next t ∧ t.fuse = s.fuse ∧ (t.dev.fnst f).cfs = true ∧ (t.dev.fnst f).sqs = []
          ∧ t.dev.hg.fetches = []))

/-- An admin command that its controller supports is classified, and any other ends with Invalid Command Opcode; an
I/O command that the search finds takes its tenant and namespace from the entry, and a miss ends it. A microsecond of
refill; each bucket of each contract gains its rate in millionths and stops at its burst. (R123, R107, R316, R324,
R130, R142) -/
def Obligations.ClassifyingCommands : Prop :=
  (∀ (s : State) (cs : Nat) (lost : Bool) (x : CSlot), s.dev.postable cs x → x.st = .fetched → x.classified = false →
      (x.sqid = 0 → s.dev.adminRefusal x = none →
        ∃ t, exec (.commandClassified cs lost) s = .next t ∧ t.fuse = s.fuse ∧ t.dev.hg.slots.get? cs
          = some { x with classified := true, tenant := x.fn.tenant } ∧ t.dev = { s.dev with hg := { s.dev.hg with slots := t.dev.hg.slots } })
      ∧ (x.sqid = 0 → adminKnown x.fn.isPf x.opcode = false →
        ∃ t, exec (.commandClassified cs lost) s = .next t ∧ t.fuse = s.fuse ∧ t.dev.posted s.dev.out cs x cqeInvalidOpcode)
      ∧ (x.sqid ≠ 0 → x.nsid ≠ 0 → x.nsid ≠ 0xFFFFFFFF → s.dev.domReady 5 = true →
        ((s.dev.colSearchL lost 0 (BitVec.ofNat 192 (ctlKey x.fn + 65536 * x.nsid)) 0).2 = [] →
          ∃ t, exec (.commandClassified cs lost) s = .next t ∧ t.fuse = s.fuse ∧ t.dev.posted s.dev.out cs x cqeInvalidNs)
        ∧ (∀ (i : Nat) (e : CEnt) (l : List (Nat × CEnt)) (n : Nsp),
            (s.dev.colSearchL lost 0 (BitVec.ofNat 192 (ctlKey x.fn + 65536 * x.nsid)) 0).2 = (i, e) :: l →
            s.dev.nsp (bitsOf e.res.toNat 19 10) = some n → s.dev.ioRefusal x n = none →
            ∃ t, exec (.commandClassified cs lost) s = .next t ∧ t.fuse = s.fuse
              ∧ t.dev.hg.slots.get? cs = some { x with classified := true, tenant := bitsOf e.res.toNat 9 0 })))
  ∧ (∀ s : State, s.dev.hg.slots = [] → s.dev.hg.contracts.wf = true →
      ∃ t, exec .tokenRefill s = .next t ∧ t.fuse = s.fuse ∧ t.dev.hg.slots = []
        ∧ ∀ (n : Nat) (c : Contract) (rd : Bool), s.dev.hg.contracts.get? n = some c →
            t.dev.bucket rd n = (match c.rate rd with
              | none => s.dev.bucket rd n
              | some r => (s.dev.bucket rd n).refill r (c.burst rd)))

/-- The contract window's commands, and HG_CTRL, whose fetch_en keeps its value before the entry mode. A contract that
passes its checks is in force, and a Get shows the one in force. (R128, R144, R145, R146, R149) -/
def Obligations.Contracts : Prop :=
  (∀ s : State, s.dev.domReady 2 = true →
      (s.dev.reg aHgContractIdx 9 0 ≤ 512 → ∃ t, exec .contractLoad s = .next t ∧ t.fuse = s.fuse ∧ t.dev.hg.cmdResult = 0
        ∧ t.dev.hg.contracts = s.dev.hg.contracts
        ∧ ∀ i, i < 16 → t.dev.csrW (aHgContractData + 4 * i) = BitVec.ofNat 32 (fieldAt (contractBytes (s.dev.reg aHgContractIdx 9 0)
            (s.dev.contract (s.dev.reg aHgContractIdx 9 0)) (s.dev.hg.saved.has (s.dev.reg aHgContractIdx 9 0))) (4 * i) 4))
      ∧ (s.dev.reg aHgContractIdx 9 0 ≤ 512 → fieldAt s.dev.windowRecord 0 2 ≤ 512 →
          contractOk (leBytes 2 (s.dev.reg aHgContractIdx 9 0) ++ s.dev.windowRecord.drop 2) false = true →
        ∃ t, exec .contractApply s = .next t ∧ t.fuse = s.fuse ∧ t.dev.hg.cmdResult = 0
          ∧ t.dev.contract (s.dev.reg aHgContractIdx 9 0) = parseContract s.dev.windowRecord)
      ∧ (512 < s.dev.reg aHgContractIdx 9 0 →
          exec .contractApply s = .next { s with dev := { s.dev with hg := { s.dev.hg with cmdResult := 2 } } })
      ∧ (∀ v : W32, exec (.hgCtrlWrite v) s = .next (s.onDev (fun d => d.setCsr aHgCtrl
          (if hostMode s.dev.modes.mode ∨ s.dev.modes.mode = .holdup ∨ s.dev.modes.mode = .halted then v &&& 0xFB#32
           else (v &&& 0xFA#32) ||| (s.dev.csrW aHgCtrl &&& 1#32))))))
  ∧ (∀ (s : State) (cs : Nat) (x : CSlot),
      (∀ b : List Byte, s.dev.seqDue cs 0xC1 x → (List.range 6).all (fun i => decide (x.dw (10 + i) = 0)) = true → zeroAt b 64 4032 = true →
          contractOk (slice b 0 64) false = true →
          (((s.dev.seqStart cs).withContract (fieldAt b 0 2) (parseContract (slice b 0 64))).contractRefusal (fieldAt b 0 2) = none →
            ∃ t, exec (.tenantContractSet cs (.ok b)) s = .next t ∧ t.fuse = s.fuse ∧ t.dev.hg.slots.get? cs = none
              ∧ t.dev.contract (fieldAt b 0 2) = parseContract (slice b 0 64)
              ∧ (∀ n, n ≠ fieldAt b 0 2 → t.dev.contract n = s.dev.contract n)
              ∧ ((parseContract (slice b 0 64)).save = false → t.dev.hg.saved = s.dev.hg.saved))
          ∧ (∀ sc : Nat, ((s.dev.seqStart cs).withContract (fieldAt b 0 2) (parseContract (slice b 0 64))).contractRefusal (fieldAt b 0 2) = some sc →
            ∃ t, exec (.tenantContractSet cs (.ok b)) s = .next t ∧ t.fuse = s.fuse ∧ t.dev.posted s.dev.out cs x (cqeVendor sc)
              ∧ t.dev.hg.contracts = s.dev.hg.contracts))
      ∧ (s.dev.seqDue cs 0xC2 x → x.dw 10 ≤ 512 → (List.range 5).any (fun i => decide (x.dw (11 + i) ≠ 0)) = false →
        ∃ t, exec (.tenantContractGet cs) s = .next t ∧ t.fuse = s.fuse ∧ t.dev.hg.contracts = s.dev.hg.contracts
          ∧ t.dev.posted (.hostWrite x.fn cs (contractBytes (x.dw 10) (s.dev.contract (x.dw 10)) (s.dev.hg.saved.has (x.dw 10))
              ++ List.replicate 4032 0) :: s.dev.out) cs x cqeOk))

/-- An Abort whose target no slot holds reports that it did not abort; an Asynchronous Event Request is held until an
event, and takes one that waits at once. (R137, R107, R115) -/
def Obligations.AbortAndEvents : Prop :=
  ∀ (s : State) (cs : Nat) (x : CSlot),
    (s.dev.adminDue cs 0x08 x → s.dev.abortsBefore x < 8 → s.dev.abortTarget cs x = none →
      ∃ t, exec (.abort cs) s = .next t ∧ t.fuse = s.fuse ∧ t.dev.posted s.dev.out cs x (cqeDw0 1#32)
        ∧ t.dev.counter aHgAbortCnt 16 = sat 16 (s.dev.counter aHgAbortCnt 16 + 1))
    ∧ (s.dev.adminDue cs 0x08 x → s.dev.abortsBefore x < 8 → ∀ (c : Nat) (y : CSlot), s.dev.abortTarget cs x = some (c, y) →
        (y.st = .committed ∨ y.st = .ending) →
      ∃ t, exec (.abort cs) s = .next t ∧ t.fuse = s.fuse ∧ t.dev.posted s.dev.out cs x (cqeDw0 1#32))
    ∧ (s.dev.adminDue cs 0x0C x → (s.dev.fnst x.fn).aers.length < 16 → (s.dev.fnst x.fn).events = [] →
      ∃ t, exec (.asyncEventRequest cs) s = .next t ∧ t.fuse = s.fuse ∧ t.dev.out = s.dev.out
        ∧ t.dev.hg.slots.get? cs = some { x with st := .executing, wait := .event }
        ∧ (t.dev.fnst x.fn).aers = (s.dev.fnst x.fn).aers ++ [cs])
    ∧ (∀ (e : AEvent) (l : List AEvent), s.dev.adminDue cs 0x0C x → (s.dev.fnst x.fn).aers = [] → (s.dev.fnst x.fn).events = e :: l →
      ∃ t, exec (.asyncEventRequest cs) s = .next t ∧ t.fuse = s.fuse ∧ (t.dev.fnst x.fn).events = l
        ∧ t.dev.posted s.dev.out cs x (cqeDw0 (BitVec.ofNat 32 (e.typ + 0x100 * e.info + 0x10000 * e.lid))))

/-- Identify, Get Log Page and Get Features send what they are asked for. Set Features: a feature of the controller is
stored with it; Power Management selects an operational state, device-wide; a VF cannot set a feature of the
subsystem. (R105, R107, R110, R111, R79) -/
def Obligations.AskingAndSetting : Prop :=
  (∀ (s : State) (cs : Nat) (x : CSlot),
      (s.dev.adminDue cs 0x06 x → ∀ b, s.dev.identified x = .inl b →
        ∃ t, exec (.identify cs) s = .next t ∧ t.fuse = s.fuse ∧ t.dev.posted (.hostWrite x.fn cs b :: s.dev.out) cs x cqeOk)
      ∧ (s.dev.adminDue cs 0x06 x → ∀ e, s.dev.identified x = .inr e →
        ∃ t, exec (.identify cs) s = .next t ∧ t.fuse = s.fuse ∧ t.dev.posted s.dev.out cs x e)
      ∧ (s.dev.adminDue cs 0x02 x → ∀ b, s.dev.logAnswer x = .inl b →
        ∃ t, exec (.getLogPage cs) s = .next t ∧ t.fuse = s.fuse ∧ t.dev.posted (.hostWrite x.fn cs b :: s.dev.out) cs x cqeOk)
      ∧ (s.dev.adminDue cs 0x02 x → ∀ e, s.dev.logAnswer x = .inr e →
        ∃ t, exec (.getLogPage cs) s = .next t ∧ t.fuse = s.fuse ∧ t.dev.posted s.dev.out cs x e)
      ∧ (∀ fid : Nat, s.dev.adminDue cs 0x0A x → bitsOf (x.dw 10) 7 0 = fid → bitsOf (x.dw 10) 10 8 = 0 →
          fid ∈ [0x01, 0x02, 0x07, 0x08, 0x0A, 0x0B, 0x11, 0x1D] →
        ∃ t, exec (.getFeatures cs) s = .next t ∧ t.fuse = s.fuse
          ∧ t.dev.posted s.dev.out cs x (cqeDw0 (BitVec.ofNat 32 (s.dev.featNow x fid (x.dw 11) (((s.dev.nsOf x).map (·.1)).getD 0))))))
  ∧ (∀ (s : State) (cs : Nat) (x : CSlot) (dma : DmaIn),
      (s.dev.adminDue cs 0x09 x → (bitsOf (x.dw 10) 7 0 = 0x01 ∨ bitsOf (x.dw 10) 7 0 = 0x0B) → bitOf (x.dw 10) 31 = false →
        ∃ t, exec (.setFeatures cs dma) s = .next t ∧ t.fuse = s.fuse ∧ t.dev.posted s.dev.out cs x cqeOk
          ∧ (t.dev.fnst x.fn).feats.get 0 (bitsOf (x.dw 10) 7 0) = BitVec.ofNat 32 (x.dw 11))
      ∧ (s.dev.seqDue cs 0x09 x → bitsOf (x.dw 10) 7 0 = 0x02 → x.fn.isPf = true → bitsOf (x.dw 11) 4 0 ≤ 2 →
          s.dev.modes.mode ≠ .idle → s.dev.modes.idleEntry = false →
        ∃ t, exec (.setFeatures cs dma) s = .next t ∧ t.fuse = s.fuse ∧ t.dev.hg.slots.get? cs = none
          ∧ t.dev.modes.selPs = bitsOf (x.dw 11) 4 0 ∧ t.dev.modes.hostPs = bitsOf (x.dw 11) 4 0
          ∧ t.dev.modes.lastOpPs = bitsOf (x.dw 11) 4 0 ∧ t.dev.cond 1 = decide (bitsOf (x.dw 11) 4 0 ≠ 0))
      ∧ (s.dev.seqDue cs 0x09 x → subsystemFeat (bitsOf (x.dw 10) 7 0) = true → x.fn.isPf = false →
        ∃ t, exec (.setFeatures cs dma) s = .next t ∧ t.fuse = s.fuse ∧ t.dev.posted s.dev.out cs x cqeNotChangeable))

/-- A piece of firmware is staged at its offset; a Firmware Commit of a whole and verified Folio starts the
activation, which drains I/O; once no I/O command holds a slot the new Folio is in force and the commit completes.
(R114, R141, R107) -/
def Obligations.FirmwareActivates : Prop :=
  ∀ (s : State) (cs : Nat) (x : CSlot),
    (∀ b : List Byte, s.dev.adminDue cs 0x11 x → (4 * (x.dw 10 + 1)) % 4096 = 0 → (4 * x.dw 11) % 4096 = 0 →
        4 * x.dw 11 + 4 * (x.dw 10 + 1) ≤ 33574912 →
      ∃ t, exec (.firmwareImageDownload cs (.ok b)) s = .next t ∧ t.fuse = s.fuse ∧ t.dev.posted s.dev.out cs x cqeOk
        ∧ t.dev.adm.fw = storeBytes s.dev.adm.fw (4 * x.dw 11) (slice b 0 (4 * (x.dw 10 + 1)))
        ∧ t.dev.adm.fwEnd = max s.dev.adm.fwEnd (4 * x.dw 11 + 4 * (x.dw 10 + 1)) ∧ t.dev.boot = s.dev.boot)
    ∧ (s.dev.seqDue cs 0x10 x → s.dev.adm.activating = none → bitsOf (x.dw 10) 5 3 = 3 → bitsOf (x.dw 10) 2 0 ≤ 1 →
        0 < s.dev.adm.fwEnd → s.dev.adm.fwPages.length * 4096 = s.dev.adm.fwEnd →
        folioCheck s.fuse s.dev.adm.fw s.dev.adm.fwEnd = none → (runFolioOf s.fuse s.dev.adm.fw).activatable = true → s.dev.bcol.full = false →
      ∃ t, exec (.firmwareCommit cs) s = .next t ∧ t.fuse = s.fuse ∧ t.dev.adm.fwEnd = 0 ∧ t.dev.adm.fw = []
        ∧ t.dev.adm.activating = some (s.dev.now, runFolioOf s.fuse s.dev.adm.fw)
        ∧ bitOf (t.dev.csrW aHgCtrl).toNat 1 = true ∧ bitOf (t.dev.csrW aHgCtrl).toNat 3 = true ∧ t.dev.boot = s.dev.boot)
    ∧ (∀ (t0 : Nat) (r : RunFolio), s.dev.adm.activating = some (t0, r) → s.dev.ioHeld = 0 → r.commitSvn = false →
      ∃ t, exec .activationDrained s = .next t ∧ t.fuse = s.fuse ∧ t.dev.boot.run = some r ∧ t.dev.adm.activating = none
        ∧ bitOf (t.dev.csrW aHgCtrl).toNat 1 = false ∧ bitOf (t.dev.csrW aHgCtrl).toNat 3 = false
        ∧ (s.dev.adm.running = some cs → s.dev.postable cs x → t.dev.posted s.dev.out cs x cqeOk))

/-- Device Self-test and Virtualization Management. In-band NVMe-MI: the response stands in Dword 0, and a Receive
sends the data; Get LBA Status lists the lost ranges. (R96, R107, R121, R187, R248) -/
def Obligations.TestsAndVirtualFunctions : Prop :=
  (∀ (s : State) (cs : Nat) (x : CSlot),
      (s.dev.adminDue cs 0x14 x → s.dev.adm.selfTest = none → (bitsOf (x.dw 10) 3 0 = 1 ∨ bitsOf (x.dw 10) 3 0 = 2) →
        ∃ t, exec (.deviceSelfTest cs) s = .next t ∧ t.fuse = s.fuse ∧ t.dev.posted s.dev.out cs x cqeOk
          ∧ t.dev.adm.selfTest = some (bitsOf (x.dw 10) 3 0))
      ∧ (∀ k : Nat, s.dev.adminDue cs 0x14 x → s.dev.adm.selfTest = some k → bitsOf (x.dw 10) 3 0 = 15 →
        ∃ t, exec (.deviceSelfTest cs) s = .next t ∧ t.fuse = s.fuse ∧ t.dev.posted s.dev.out cs x cqeOk ∧ t.dev.adm.selfTest = none
          ∧ t.dev.adm.selfLog = ((k, 1) :: s.dev.adm.selfLog).take 20)
      ∧ (∀ (k : Nat) (ok : Bool), s.dev.adm.selfTest = some k →
        exec (.deviceSelfTestDone ok) s = .next { s with dev := { s.dev with adm := { s.dev.adm with
          selfTest := none, selfLog := ((k, if ok then 0 else 7) :: s.dev.adm.selfLog).take 20 } } })
      ∧ (∀ f : Fn, s.dev.seqDue cs 0x1C x → s.dev.hg.slots.wf = true → x.fn.isPf = true → f.isPf = false → f.port = x.fn.port →
          fnOfCntlid (bitsOf (x.dw 10) 31 16) = some f → bitsOf (x.dw 10) 3 0 = 7 →
        ∃ t, exec (.virtualizationManagement cs) s = .next t ∧ t.fuse = s.fuse ∧ t.dev.posted s.dev.out cs x cqeOk
          ∧ (t.dev.fnst f).online = false ∧ (t.dev.fnst f).sqs = [] ∧ (t.dev.fnst f).cqs = [])
      ∧ (∀ f : Fn, s.dev.seqDue cs 0x1C x → x.fn.isPf = true → f.isPf = false → f.port = x.fn.port → s.dev.fnUp f = true →
          fnOfCntlid (bitsOf (x.dw 10) 31 16) = some f → bitsOf (x.dw 10) 3 0 = 9 →
        ∃ t, exec (.virtualizationManagement cs) s = .next t ∧ t.fuse = s.fuse ∧ t.dev.posted s.dev.out cs x cqeOk
          ∧ (t.dev.fnst f).online = true))
  ∧ (∀ (s : State) (cs : Nat) (x : CSlot),
      (∀ b : List Byte, s.dev.adminDue cs 0x1D x → bitsOf (x.dw 11) 7 0 ≤ 4 →
        ∃ t, exec (.nvmeMiSend cs (.ok b)) s = .next t ∧ t.fuse = s.fuse
          ∧ t.dev.posted s.dev.out cs x (cqeDw0 (BitVec.ofNat 32 ((s.dev.miRun (bitsOf (x.dw 11) 7 0) (x.dw 12) (x.dw 13)).2.status
              + 256 * (s.dev.miRun (bitsOf (x.dw 11) 7 0) (x.dw 12) (x.dw 13)).2.resp))))
      ∧ (s.dev.adminDue cs 0x1E x → bitsOf (x.dw 11) 7 0 ≤ 4 →
        ∃ t, exec (.nvmeMiReceive cs) s = .next t ∧ t.fuse = s.fuse
          ∧ t.dev.posted (.hostWrite x.fn cs (s.dev.miRun (bitsOf (x.dw 11) 7 0) (x.dw 12) (x.dw 13)).2.data :: s.dev.out) cs x
            (cqeDw0 (BitVec.ofNat 32 ((s.dev.miRun (bitsOf (x.dw 11) 7 0) (x.dw 12) (x.dw 13)).2.status
              + 256 * (s.dev.miRun (bitsOf (x.dw 11) 7 0) (x.dw 12) (x.dw 13)).2.resp))))
      ∧ (s.dev.adminDue cs 0x1D x → 4 < bitsOf (x.dw 11) 7 0 →
        ∃ t, exec (.nvmeMiSend cs (.ok [])) s = .next t ∧ t.fuse = s.fuse ∧ t.dev.posted s.dev.out cs x cqeInvalidOpcode)
      ∧ (∀ (ns : Nat) (n : Nsp), s.dev.adminDue cs 0x86 x → s.dev.nsOf x = some (ns, n) → x.slba < n.nsze → bitsOf (x.dw 13) 15 0 ≠ 0 →
          (bitsOf (x.dw 13) 31 24 = 0x10 ∨ bitsOf (x.dw 13) 31 24 = 0x11) →
          (clipRanges (s.dev.lostOf ns n) x.slba (bitsOf (x.dw 13) 15 0)).length ≤ (4 * (x.dw 12 + 1) - 8) / 16 →
        ∃ t, exec (.getLbaStatus cs) s = .next t ∧ t.fuse = s.fuse
          ∧ t.dev.posted (.hostWrite x.fn cs (leBytes 4 (clipRanges (s.dev.lostOf ns n) x.slba (bitsOf (x.dw 13) 15 0)).length ++ leBytes 1 2
              ++ leBytes 3 0 ++ (clipRanges (s.dev.lostOf ns n) x.slba (bitsOf (x.dw 13) 15 0)).flatMap (fun r => r.desc 0x10)) :: s.dev.out) cs x cqeOk))

/-- Quire Control: patrol now, the period, the mode, the release of a member, re-spread, and the end of a release.
(R255, R256, R206, R242, R252, R253) -/
def Obligations.QuireControl : Prop :=
  ∀ (s : State) (cs : Nat) (x : CSlot) (b : List Byte) (q : Nat) (y : Quire),
    s.dev.seqDue cs 0xC3 x → (List.range 6).any (fun i => decide (x.dw (10 + i) ≠ 0)) = false → zeroAt b 3 1 = true → zeroAt b 8 4088 = true →
    fieldAt b 1 1 = q → s.dev.quire q = some y →
      (fieldAt b 0 1 = 1 → ∃ t, exec (.quirePatrolNow cs (.ok b)) s = .next t ∧ t.fuse = s.fuse ∧ t.dev.posted s.dev.out cs x cqeOk
        ∧ t.dev.quire q = some { y with patNow := true })
      ∧ (fieldAt b 0 1 = 2 → 24 ≤ fieldAt b 4 4 → fieldAt b 4 4 ≤ 336 → ∃ t, exec (.quireSetPeriod cs (.ok b)) s = .next t ∧ t.fuse = s.fuse
        ∧ t.dev.posted s.dev.out cs x cqeOk
        ∧ t.dev.quire q = some { y with hours := fieldAt b 4 4, effective := min y.effective (fieldAt b 4 4) })
      ∧ (fieldAt b 0 1 = 2 → (fieldAt b 4 4 < 24 ∨ 336 < fieldAt b 4 4) → ∃ t, exec (.quireSetPeriod cs (.ok b)) s = .next t
        ∧ t.fuse = s.fuse ∧ t.dev.posted s.dev.out cs x cqeInvalidField ∧ t.dev.quires = s.dev.quires)
      ∧ (fieldAt b 0 1 = 3 → fieldAt b 4 4 = 0 → s.dev.lc0On q = false → ∃ t, exec (.quireSetMode cs (.ok b)) s = .next t ∧ t.fuse = s.fuse
        ∧ t.dev.posted s.dev.out cs x cqeOk ∧ t.dev.quire q = some { y with strict := false, active := false })
      ∧ (fieldAt b 0 1 = 3 → fieldAt b 4 4 = 0 → s.dev.lc0On q = true → ∃ t, exec (.quireSetMode cs (.ok b)) s = .next t ∧ t.fuse = s.fuse
        ∧ t.dev.posted s.dev.out cs x (cqeVendor 0xC1) ∧ t.dev.quires = s.dev.quires)
      ∧ (∀ m : Member, fieldAt b 0 1 = 4 → y.members.get? (fieldAt b 2 1) = some m → y.work = none → m.present = true →
          y.presentWidth < 4 → ∃ t, exec (.quireReleaseMember cs (.ok b)) s = .next t ∧ t.fuse = s.fuse
        ∧ t.dev.posted s.dev.out cs x (cqeVendor 0xC6) ∧ t.dev.quires = s.dev.quires)
      ∧ (fieldAt b 0 1 = 5 → y.work = none → y.held = false → y.anyIn .joining = false → ∃ t,
          exec (.quireStartRespread cs (.ok b)) s = .next t ∧ t.fuse = s.fuse ∧ t.dev.posted s.dev.out cs x (cqeVendor 0xC9)
          ∧ t.dev.quires = s.dev.quires)
      ∧ (∀ m : Member, fieldAt b 0 1 = 4 → y.members.get? (fieldAt b 2 1) = some m → y.work = none → m.present = true → 4 ≤ y.presentWidth →
          s.dev.canHold q y (y.presentWidth - 1) = true → ∃ t z, exec (.quireReleaseMember cs (.ok b)) s = .next t ∧ t.fuse = s.fuse
        ∧ t.dev.quire q = some z ∧ (z.memSt (fieldAt b 2 1) = .releasing ∨ z.memSt (fieldAt b 2 1) = .released))
      ∧ (fieldAt b 0 1 = 5 → y.work = none → y.held = false → y.anyIn .joining = true → ∃ t z,
          exec (.quireStartRespread cs (.ok b)) s = .next t ∧ t.fuse = s.fuse ∧ t.dev.quire q = some z
          ∧ (z.work = some .respread ∨ (z.work = none ∧ z.anyIn .joining = false)))
      ∧ (fieldAt b 0 1 = 6 → y.memSt (fieldAt b 2 1) = .releasing → ∃ t, exec (.quireCancelRelease cs (.ok b)) s = .next t ∧ t.fuse = s.fuse
        ∧ ((∀ f : Fn, (s.dev.fnst f).aers = []) → t.dev.hg.slots.get? cs = none)
        ∧ t.dev.quire q = some { y.modMember (fieldAt b 2 1) (fun m => { m with st := .active }) with work := none })

/-- A create that passes its checks takes the lowest free index; an attachment joins the controllers named, and a
detachment takes them off; a delete changes the keys and detaches the namespace, which is gone once the older key
rings are erased. (R154, R157, R145, R443) -/
def Obligations.NamespacesComeAndGo : Prop :=
  ∀ (s : State) (cs : Nat) (x : CSlot) (b : List Byte),
    (∀ (n : Nsp) (i : Nat), s.dev.seqDue cs 0x0D x → bitsOf (x.dw 10) 3 0 = 0 → s.dev.ring.waits = none →
        s.dev.createSpec (bitsOf (x.dw 11) 31 24) b = .inl n → s.dev.admits n = none → s.dev.freeNs = some i →
      ∃ t, exec (.namespaceCreate cs (.ok b)) s = .next t ∧ t.fuse = s.fuse ∧ t.dev.nsp i = some n
        ∧ ∀ j, j ≠ i → t.dev.nsp j = s.dev.nsp j)
    ∧ (∀ e : Cqe, s.dev.seqDue cs 0x0D x → bitsOf (x.dw 10) 3 0 = 0 →
        s.dev.createSpec (bitsOf (x.dw 11) 31 24) b = .inr e →
      ∃ t, exec (.namespaceCreate cs (.ok b)) s = .next t ∧ t.fuse = s.fuse ∧ t.dev.posted s.dev.out cs x e ∧ t.dev.tc = s.dev.tc)
    ∧ (∀ (ns : Nat) (n : Nsp) (l : List Nat), s.dev.seqDue cs 0x15 x → bitsOf (x.dw 10) 3 0 = 0 → s.dev.nspId x.nsid = some (ns, n) →
        n.deleting = false → listedCtls b = some l →
        n.tenants.all (fun t => decide (t = ((l.head?.bind fnOfCntlid).map Fn.tenant).getD 512)) = true →
        l.all (fun c => !(n.attached.contains c)) = true →
        (s.dev.modNsp ns (fun y => { y with attached := n.attached ++ l })).contractRefusal
          (((l.head?.bind fnOfCntlid).map Fn.tenant).getD 512) = none →
      ∃ t, exec (.namespaceAttach cs (.ok b)) s = .next t ∧ t.fuse = s.fuse ∧ t.dev.nsp ns = some { n with attached := n.attached ++ l }
        ∧ ∀ j, j ≠ ns → t.dev.nsp j = s.dev.nsp j)
    ∧ (∀ (ns : Nat) (n : Nsp) (l : List Nat), s.dev.seqDue cs 0x15 x → bitsOf (x.dw 10) 3 0 = 1 → s.dev.nspId x.nsid = some (ns, n) →
        n.deleting = false → listedCtls b = some l → l.all (fun c => n.attached.contains c) = true →
      ∃ t, exec (.namespaceDetach cs (.ok b)) s = .next t ∧ t.fuse = s.fuse
        ∧ t.dev.nsp ns = some { n with attached := n.attached.filter (fun c => !(l.contains c)) }
        ∧ ∀ j, j ≠ ns → t.dev.nsp j = s.dev.nsp j)
    ∧ (∀ (ns : Nat) (n : Nsp), s.dev.seqDue cs 0x0D x → bitsOf (x.dw 10) 3 0 = 1 → s.dev.nspId x.nsid = some (ns, n) → s.dev.tc.nss.wf = true →
      ∃ t, exec (.namespaceDelete cs) s = .next t ∧ t.fuse = s.fuse
        ∧ (t.dev.nsp ns = none ∨ ∃ m, t.dev.nsp ns = some m ∧ m.attached = [] ∧ m.deleting = true ∧ m.keyGen = (n.keyGen + 1) % 2 ^ 32))

/-- Format NVM gives the namespace its new format and changes its keys; Sanitize changes the keys of every namespace,
and ends, in failure mode where it did not erase everything, with a durable key ring; Exit Failure Mode ends that
mode. (R107, R443, R446, R447, R448, R435) -/
def Obligations.FormatAndSanitize : Prop :=
  ∀ (s : State) (cs : Nat) (x : CSlot),
    (∀ (ns : Nat) (n : Nsp), s.dev.seqDue cs 0x80 x → s.dev.nspId x.nsid = some (ns, n) → n.deleting = false → x.nsid ≠ 0xFFFFFFFF →
        s.dev.formatRefusal x [ns] = none →
      ∃ t, exec (.formatNvm cs) s = .next t ∧ t.fuse = s.fuse ∧ ∃ m, t.dev.nsp ns = some m ∧ m.lbaf = bitsOf (x.dw 10) 3 0
        ∧ m.pi = bitsOf (x.dw 10) 7 5 ∧ m.keyGen = (n.keyGen + 1) % 2 ^ 32 ∧ m.attached = n.attached
        ∧ m.nsze = n.nsze * lbasPerUnit (bitsOf (x.dw 10) 3 0) / lbasPerUnit n.lbaf)
    ∧ (s.dev.seqDue cs 0x84 x → s.dev.ring.waits = none → s.dev.tc.nss.wf = true →
        (bitsOf (x.dw 10) 2 0 = 4 →
          ∃ t, exec (.sanitizeCryptoErase cs) s = .next t ∧ t.fuse = s.fuse ∧ t.dev.san.running = true ∧ t.dev.san.action = 4
            ∧ t.dev.san.failure = false ∧ t.dev.san.ndas = bitOf (x.dw 10) 9 ∧ t.dev.san.ause = bitOf (x.dw 10) 3
            ∧ ∀ (ns : Nat) (n : Nsp), s.dev.nsp ns = some n → (t.dev.nsp ns).map (·.keyGen) = some ((n.keyGen + 1) % 2 ^ 32))
        ∧ (bitsOf (x.dw 10) 2 0 = 2 →
          ∃ t, exec (.sanitizeBlockErase cs) s = .next t ∧ t.fuse = s.fuse ∧ t.dev.san.running = true ∧ t.dev.san.action = 2
            ∧ t.dev.san.failure = false
            ∧ ∀ (ns : Nat) (n : Nsp), s.dev.nsp ns = some n → (t.dev.nsp ns).map (·.keyGen) = some ((n.keyGen + 1) % 2 ^ 32))
        ∧ (bitsOf (x.dw 10) 2 0 = 1 → s.dev.san.failure = true → s.dev.san.ause = true →
          ∃ t, exec (.sanitizeExitFailureMode cs) s = .next t ∧ t.fuse = s.fuse ∧ t.dev.san = { s.dev.san with failure := false, action := 1 }))
    ∧ (s.dev.seqDue cs 0x84 x → bitsOf (x.dw 10) 2 0 = 1 → s.dev.san.failure = true → s.dev.san.ause = false →
      ∃ t, exec (.sanitizeExitFailureMode cs) s = .next t ∧ t.fuse = s.fuse ∧ t.dev.san = s.dev.san
        ∧ t.dev.posted s.dev.out cs x cqeSanitizeFailed)
    ∧ (∀ ok : Bool, s.dev.san.running = true → s.dev.ring.waits = none → s.dev.ring.durable = true →
      ∃ t, exec (.sanitizeDone ok) s = .next t ∧ t.fuse = s.fuse
        ∧ (t.dev.ring.waits = some (.sanEnd (ok && !s.dev.memberUnerased && s.dev.ring.old.isEmpty)) ∧ t.dev.san = s.dev.san
          ∨ t.dev.ring.waits = none ∧ t.dev.san.running = false
            ∧ t.dev.san.failure = !(ok && !s.dev.memberUnerased && s.dev.ring.old.isEmpty)))
    ∧ (s.dev.san.running = false → ∀ ok : Bool, exec (.sanitizeDone ok) s = .next s)

/-- A reader context of the ledger, once the main ledger runs: a latch takes its head and volume, a write sets its
cursor, and the step to the next record moves the cursor to the next stored record after it, or by one where there is
none. Ledger New Volume starts a persist and completes with it; a persist that no Quire took moves nothing and fails
it; Hold-Up Test Now starts the capacitor test and waits for its end. (R424, R429, R427, R430, R392) -/
def Obligations.LedgerReadersAndVolumes : Prop :=
  (∀ (s : State) (k : Nat), k < 4 → s.dev.evl.mainOn = true →
      (∃ t, exec (.ledgerLatch k) s = .next t ∧ t.fuse = s.fuse ∧ t.dev.evl.ctx k
          = { s.dev.evl.ctx k with latched := true, head := s.dev.evl.next, volume := s.dev.evl.volume, stale := false }
          ∧ t.dev = { s.dev with evl := { s.dev.evl with ctxs := t.dev.evl.ctxs } })
      ∧ (∀ seq : Nat, ∃ t, exec (.ledgerCursorWrite k seq) s = .next t ∧ t.fuse = s.fuse
          ∧ t.dev.evl.ctx k = { s.dev.evl.ctx k with cursor := seq % 2 ^ 32 }
          ∧ t.dev = { s.dev with evl := { s.dev.evl with ctxs := t.dev.evl.ctxs } })
      ∧ (∃ t, exec (.ledgerNext k) s = .next t ∧ t.fuse = s.fuse
          ∧ t.dev = { s.dev with evl := { s.dev.evl with ctxs := t.dev.evl.ctxs } }
          ∧ (t.dev.evl.ctx k).cursor = (match s.dev.evl.nextAfter (s.dev.evl.ctx k).cursor with
              | some r => r.seq
              | none => ((s.dev.evl.ctx k).cursor + 1) % 2 ^ 32)
          ∧ (t.dev.evl.ctx k).latched = (s.dev.evl.ctx k).latched))
  ∧ (∀ (s : State) (cs : Nat) (x : CSlot),
      ((List.range 6).all (fun i => decide (x.dw (10 + i) = 0)) = true →
        (s.dev.seqDue cs 0xC0 x → s.dev.evl.persisting = none →
          ∃ t, exec (.ledgerNewVolume cs) s = .next t ∧ t.fuse = s.fuse ∧ t.dev.evl.persisting = some (.newVolume cs, s.dev.evl.next)
            ∧ t.dev.hg.slots.get? cs = some { x with st := .committed, wait := .persist } ∧ t.dev.out = s.dev.out)
        ∧ (s.dev.seqDue cs 0xC4 x → s.dev.testMode = true → s.dev.hu.busy = false →
          ∃ t, exec (.holdUpTestNow cs) s = .next t ∧ t.fuse = s.fuse ∧ t.dev.hu = { s.dev.hu with
              busy := true, started := s.dev.now, due := s.dev.now + 86400000000000, waiters := s.dev.hu.waiters ++ [cs] }
            ∧ t.dev.hg.slots.get? cs = some { x with st := .committed, wait := .test } ∧ t.dev.out = s.dev.out))
      ∧ (∀ head : Nat, s.dev.evl.persisting = some (.newVolume cs, head) → s.dev.evl.waiting = [] → s.dev.postable cs x →
          (∃ t, exec (.ledgerPersistDone 0) s = .next t ∧ t.fuse = s.fuse ∧ t.dev.posted s.dev.out cs x (cqeVendor 0xCA)
            ∧ t.dev.evl.persistNext = s.dev.evl.persistNext ∧ t.dev.evl.volume = s.dev.evl.volume ∧ t.dev.evl.lastFailed = true)
          ∧ (∀ n : Nat, 0 < n → ∃ t, exec (.ledgerPersistDone n) s = .next t ∧ t.fuse = s.fuse ∧ t.dev.posted s.dev.out cs x cqeOk
            ∧ t.dev.evl.persistNext = head ∧ t.dev.evl.volume = (s.dev.evl.volume + 1) % 2 ^ 32 ∧ t.dev.evl.lastFailed = false
            ∧ t.dev.evl.persisting = none ∧ t.dev.evl.main = s.dev.evl.main.filter (fun r => decide (head ≤ r.seq)))))

/-- R422: the 65th and later offers of a non-critical code from one source within its second are suppressed and
counted; the end of the second leaves one record with the code, the source and the number suppressed; critical codes
are never suppressed. (R422) -/
def Obligations.NonCriticalCodesAreSuppressed : Prop :=
  ∀ (s : State) (e : EvOffer) (code src : Nat), code = e.code % 0x10000 → src = e.src % 256 →
    (codeCritical code = true → ∃ t, exec (.ledgerRecordOffer e) s = .next t ∧ t.fuse = s.fuse ∧ t.dev.butLog = s.dev.butLog
      ∧ t.dev.evl.supp = s.dev.evl.supp ∧ t.dev.counter aEvlDrops 16 = s.dev.counter aEvlDrops 16
      ∧ (s.dev.evl.holding src < 8 → t.dev.evl.queues = s.dev.evl.queues ++ [⟨code, src, s.dev.now, (padTo 4 e.payload).take 236⟩]))
    ∧ (codeCritical code = false →
      (s.dev.evl.suppOf code src = none → ∃ t, exec (.ledgerRecordOffer e) s = .next t ∧ t.fuse = s.fuse ∧ t.dev.butLog = s.dev.butLog
        ∧ t.dev.evl.suppOf code src = some ⟨code, src, 1, 0⟩
        ∧ (s.dev.evl.holding src < 8 → t.dev.evl.queues = s.dev.evl.queues ++ [⟨code, src, s.dev.now, (padTo 4 e.payload).take 236⟩]))
      ∧ (∀ x : Supp, s.dev.evl.suppOf code src = some x →
        (x.offered < 64 → ∃ t, exec (.ledgerRecordOffer e) s = .next t ∧ t.fuse = s.fuse ∧ t.dev.butLog = s.dev.butLog
          ∧ t.dev.evl.suppOf code src = some { x with offered := x.offered + 1 }
          ∧ (s.dev.evl.holding src < 8 → t.dev.evl.queues = s.dev.evl.queues ++ [⟨code, src, s.dev.now, (padTo 4 e.payload).take 236⟩]))
        ∧ (64 ≤ x.offered → ∃ t, exec (.ledgerRecordOffer e) s = .next t ∧ t.fuse = s.fuse ∧ t.dev.butLog = s.dev.butLog
          ∧ t.dev.evl.suppOf code src = some { x with offered := x.offered + 1, suppressed := x.suppressed + 1 }
          ∧ t.dev.evl.queues = s.dev.evl.queues ∧ t.dev.counter aEvlDrops 16 = sat 16 (s.dev.counter aEvlDrops 16 + 1))))
    ∧ (∀ x : Supp, s.dev.evl.suppOf code src = some x → 0 < x.suppressed →
        (∀ y : Supp, s.dev.evl.suppOf evEvlSuppressed 192 = some y → y.offered < 64) → s.dev.evl.holding 192 < 8 →
        ∃ t, exec (.suppressionSecondEnd code src) s = .next t ∧ t.fuse = s.fuse ∧ t.dev.butLog = s.dev.butLog
          ∧ ((code ≠ evEvlSuppressed ∨ src ≠ 192) → t.dev.evl.suppOf code src = none)
          ∧ t.dev.evl.queues = s.dev.evl.queues
              ++ [⟨evEvlSuppressed, 192, s.dev.now, payloadOf [.num 2 code, .num 1 src, .num 4 x.suppressed]⟩])
    ∧ (∀ x : Supp, s.dev.evl.suppOf code src = some x → x.suppressed = 0 → ∃ t, exec (.suppressionSecondEnd code src) s = .next t
        ∧ t.fuse = s.fuse ∧ t.dev = { s.dev with evl := { s.dev.evl with supp := t.dev.evl.supp } } ∧ t.dev.evl.suppOf code src = none)

/-- R421: a record that does not fit in the main ledger's 512 KiB is not stored and counted in EVL_OVERFLOW, and from
then on none is until Ledger New Volume; no record is ever overwritten; before the main ledger runs the early buffer's
16 KiB follow the same rule with EVL_EARLY's count. (R421) -/
def Obligations.RecordsAreNeverOverwritten : Prop :=
  ∀ s : State,
    (∀ (h : Held) (l : List Held) (r : LRec), s.dev.evl.queues = h :: l → r = ⟨s.dev.evl.next, h.code, h.src, h.ts, h.payload⟩ →
      (s.dev.evl.mainOn = true →
        (s.dev.evl.mainFull = false → usedBy s.dev.evl.main + r.len ≤ 524288 → ∃ t, exec .ledgerIntake s = .next t ∧ t.fuse = s.fuse
          ∧ t.dev.butLog = s.dev.butLog ∧ t.dev.evl.queues = l ∧ t.dev.evl.main = s.dev.evl.main ++ [r] ∧ t.dev.evl.mainFull = false
          ∧ t.dev.evl.next = (s.dev.evl.next + 1) % 2 ^ 32 ∧ t.dev.evl.overflow = s.dev.evl.overflow
          ∧ (codeCritical h.code = false → t.dev.evl.early = s.dev.evl.early)
          ∧ (codeCritical h.code = true → s.dev.evl.earlyFull = false → usedBy s.dev.evl.early + r.len ≤ 16384 →
              t.dev.evl.early = s.dev.evl.early ++ [r]))
        ∧ ((s.dev.evl.mainFull = true ∨ 524288 < usedBy s.dev.evl.main + r.len) → exec .ledgerIntake s = .next { s with dev := { s.dev with
            evl := { s.dev.evl with queues := l, mainFull := true, overflow := sat 32 (s.dev.evl.overflow + 1) } } }))
      ∧ (s.dev.evl.mainOn = false →
        (s.dev.evl.earlyFull = false → usedBy s.dev.evl.early + r.len ≤ 16384 → exec .ledgerIntake s = .next { s with dev := { s.dev with
            evl := { s.dev.evl with queues := l, early := s.dev.evl.early ++ [r], next := (s.dev.evl.next + 1) % 2 ^ 32 } } })
        ∧ ((s.dev.evl.earlyFull = true ∨ 16384 < usedBy s.dev.evl.early + r.len) → exec .ledgerIntake s = .next { s with dev := { s.dev with
            evl := { s.dev.evl with queues := l, earlyFull := true, earlyOver := sat 16 (s.dev.evl.earlyOver + 1) } } })))
    ∧ (s.dev.evl.queues = [] → exec .ledgerIntake s = .next s)
    ∧ (∀ cs head n : Nat, s.dev.evl.persisting = some (.newVolume cs, head) → s.dev.evl.waiting = [] → 0 < n →
        ∃ t, exec (.ledgerPersistDone n) s = .next t ∧ t.fuse = s.fuse ∧ t.dev.evl.mainFull = false ∧ t.dev.evl.overflow = 0
          ∧ t.dev.evl.main = s.dev.evl.main.filter (fun r => decide (head ≤ r.seq)))

/-- Reads and Flush: with nothing in the write buffer a Read or Verify starts a leaf read for each unit its range
touches; a Flush completes at once; a fault of host memory ends a command that has not reached its commit point and no
other; a coalesced vector whose time is up is signalled. (R29, R138, R142, R134, R325, R192, R101) -/
def Obligations.ReadsFlushAndFaults : Prop :=
  ∀ (s : State) (cs : Nat) (x : CSlot),
    (∀ (ns : Nat) (n : Nsp), s.dev.col.rng = [] →
        (s.dev.ioDue cs 0x02 x ns n → ∃ t, exec (.read cs) s = .next t ∧ t.fuse = s.fuse
          ∧ t.dev.rp.nextRid = s.dev.rp.nextRid + (n.touched x.slba x.nlb).2 ∧ t.dev.out = s.dev.out ∧ t.dev.tc = s.dev.tc
          ∧ ∃ y, t.dev.hg.slots.get? cs = some y ∧ y.st = .executing ∧ y.wait = .units ∧ y.charged = true
            ∧ y.units.map (·.iu) = (List.range (n.touched x.slba x.nlb).2).map (fun i => (n.touched x.slba x.nlb).1 + i)
            ∧ y.units.all (fun u => decide (u.src = 2)) = true)
        ∧ (s.dev.ioDue cs 0x0C x ns n → ∃ t, exec (.verify cs) s = .next t ∧ t.fuse = s.fuse
          ∧ t.dev.rp.nextRid = s.dev.rp.nextRid + (n.touched x.slba x.nlb).2 ∧ t.dev.out = s.dev.out ∧ t.dev.tc = s.dev.tc
          ∧ ∃ y, t.dev.hg.slots.get? cs = some y ∧ y.st = .executing ∧ y.wait = .units ∧ y.charged = true
            ∧ y.units.map (·.iu) = (List.range (n.touched x.slba x.nlb).2).map (fun i => (n.touched x.slba x.nlb).1 + i)
            ∧ y.units.all (fun u => decide (u.src = 2)) = true))
    ∧ (s.dev.ioSlot cs [0x00] = some x → s.dev.postable cs x → (x.nsid = 0xFFFFFFFF ∨ (s.dev.nsOf x).isSome = true) →
      ∃ t, exec (.flush cs) s = .next t ∧ t.fuse = s.fuse ∧ t.dev.posted s.dev.out cs x cqeOk ∧ t.dev.butHost = s.dev.butHost)
    ∧ (s.dev.ioSlot cs [0x00] = some x → s.dev.postable cs x → x.nsid ≠ 0xFFFFFFFF → s.dev.nsOf x = none →
      ∃ t, exec (.flush cs) s = .next t ∧ t.fuse = s.fuse ∧ t.dev.posted s.dev.out cs x cqeInvalidNs ∧ t.dev.butHost = s.dev.butHost)
    ∧ (∀ f : DmaFault, s.dev.hg.slots.get? cs = some x →
        ((x.st = .fetched ∨ x.st = .paced) → s.dev.postable cs x → x.bufs = [] → x.rsv = 0 → x.reads = false →
            s.dev.rp.reads.any (fun r => decide (r.2.cs = some cs)) = false →
          ∃ t, exec (.hostMemoryFault cs f) s = .next t ∧ t.fuse = s.fuse ∧ t.dev.posted s.dev.out cs x cqeDataTransfer
            ∧ t.dev.tc = s.dev.tc)
        ∧ ((x.st = .fetched ∨ x.st = .paced ∨ x.st = .executing) → s.dev.postable cs x →
          ∃ t, exec (.hostMemoryFault cs f) s = .next t ∧ t.fuse = s.fuse ∧ t.dev.hg.slots.get? cs = none)
        ∧ ((x.st = .committed ∨ x.st = .ending ∨ x.st = .aborted) → exec (.hostMemoryFault cs f) s = .next s))
    ∧ (∀ (f : Fn) (vec : Nat),
        ((s.dev.fnst f).coal.get 0 vec = 0 → exec (.interruptAggregationTime f vec) s = .next s)
        ∧ ((s.dev.fnst f).coal.get 0 vec ≠ 0 → (s.dev.fnst f).bme = true → (s.dev.fnst f).msix = true → vec ∉ (s.dev.fnst f).msixMask →
          ∃ t, exec (.interruptAggregationTime f vec) s = .next t ∧ t.fuse = s.fuse
            ∧ t.dev = { s.dev with fns := t.dev.fns, out := .msix f vec :: s.dev.out }
            ∧ t.dev.fnst f = { s.dev.fnst f with coal := (s.dev.fnst f).coal.put 0 vec 0 }))

/-- Writes: a Write or Zone Append that finds space takes its range entries and one buffer and waits for its data;
without space it is paced. Its data, a Write Zeroes or a Dataset Management deallocation commits: one commit more, the
namespace's next generation. (R28, R131, R134, R169, R184, R185, R320, R326) -/
def Obligations.WritesCommit : Prop :=
  ∀ (s : State) (cs : Nat) (x : CSlot) (ns : Nat) (n : Nsp),
    (∀ (op units need : Nat) (d1 d2 : Dev) (h : W32), s.dev.ioDue cs op x ns n → d1 = (s.dev.charge cs).1 →
        units = (if n.lbaf = 3 ∧ op = 0x7D then x.nlb / 8 + 2 else x.unitsFor n) →
        need = (if n.lbaf = 3 then (if op = 0x7D then 3 else (n.rangeSpecs ns 1 x.slba x.nlb 0).length) else 1) →
        d1.readOnlyRefuses ns n x = false → (n.kind = 2 → d1.zoneRefusal ns (x.zone n) n = none) → (op = 0x7D → x.slba % n.zoneLbas = 0) →
        (d1.placeWait ns n units = none → (d1.reserve cs need).2 = true →
            (d1.reserve cs need).1.alloc 0 ((d1.reserve cs need).1.contract x.tenant).writeOwner true (4096 * units) = (d2, 0, h) →
          (op = 0x01 → ∃ t, exec (.write cs) s = .next t ∧ t.fuse = s.fuse ∧ t.dev.bpm = d2.bpm ∧ t.dev.tc = s.dev.tc
            ∧ ∃ y, t.dev.hg.slots.get? cs = some y ∧ y.st = .executing ∧ y.wait = .data ∧ y.bufs = [h] ∧ y.rsv = need ∧ y.charged = true)
          ∧ (op = 0x7D → ∃ t, exec (.zoneAppend cs) s = .next t ∧ t.fuse = s.fuse ∧ t.dev.bpm = d2.bpm ∧ t.dev.tc = s.dev.tc
            ∧ ∃ y, t.dev.hg.slots.get? cs = some y ∧ y.st = .executing ∧ y.wait = .data ∧ y.bufs = [h] ∧ y.rsv = need ∧ y.charged = true))
        ∧ (∀ w : SlWait, op = 0x01 → d1.placeWait ns n units = some w →
          ∃ t, exec (.write cs) s = .next t ∧ t.fuse = s.fuse ∧ t.dev.butHost = s.dev.butHost
            ∧ ∃ y, t.dev.hg.slots.get? cs = some y ∧ y.st = .paced ∧ y.wait = w ∧ y.charged = true))
    ∧ (s.dev.hg.slots.get? cs = some x → x.st = .executing → x.wait = .data → (x.opcode = 0x01 ∨ x.opcode = 0x7D) → x.sqid ≠ 0 →
        (s.dev.fnst x.fn).bme = true → s.dev.nsOf x = some (ns, n) → s.dev.nsp ns = some n → ∀ bytes : List Byte, x.writePi n bytes = none →
        (n.kind = 2 → s.dev.zoneCheck ns (x.zone n) n (if x.opcode = 0x7D then none else some (x.slba - x.zone n * n.zoneLbas)) x.nlb = none) →
      ∃ t, exec (.writeDataReceived cs (.ok bytes)) s = .next t ∧ t.fuse = s.fuse ∧ t.dev.hg.commits = s.dev.hg.commits + 1
        ∧ (t.dev.nsp ns).map (·.gen) = some ((n.gen + 1) % 2 ^ 48))
    ∧ (∀ f : DmaFault, s.dev.postable cs x → x.st = .executing → x.wait = .data → (x.opcode = 0x01 ∨ x.opcode = 0x7D) → x.sqid ≠ 0 →
      ∃ t, exec (.writeDataReceived cs (.fault f)) s = .next t ∧ t.fuse = s.fuse ∧ t.dev.hg.slots.get? cs = none
        ∧ t.dev.hg.commits = s.dev.hg.commits ∧ (t.dev.nsp ns).map (·.gen) = (s.dev.nsp ns).map (·.gen))
    ∧ (∀ (d1 : Dev) (l : List RSpec), s.dev.ioDue cs 0x08 x ns n → s.dev.nsp ns = some n → d1 = (s.dev.charge cs).1 →
        l = (if x.deac n then n.deallocSpecs ns x.slba x.nlb else n.rangeSpecs ns 2 x.slba x.nlb 0) →
        (x.deac n = false → d1.readOnlyRefuses ns n x = false ∧ d1.placeWait ns n (x.unitsFor n) = none) →
        (d1.reserve cs l.length).2 = true →
        (n.kind = 2 → s.dev.zoneCheck ns (x.zone n) n (some (x.slba - x.zone n * n.zoneLbas)) x.nlb = none) →
      ∃ t, exec (.writeZeroes cs) s = .next t ∧ t.fuse = s.fuse ∧ t.dev.hg.commits = s.dev.hg.commits + 1
        ∧ (t.dev.nsp ns).map (·.gen) = some ((n.gen + 1) % 2 ^ 48))
    ∧ (∀ bytes : List Byte, s.dev.ioDue cs 0x09 x ns n → s.dev.nsp ns = some n → bitOf (x.dw 11) 2 = true →
        (dsmRanges (bitsOf (x.dw 10) 7 0 + 1) bytes).all (fun r => decide (r.slba + r.nlb ≤ n.nsze)) = true →
        n.dsmSpecs ns (dsmRanges (bitsOf (x.dw 10) 7 0 + 1) bytes) ≠ [] →
        (n.dsmSpecs ns (dsmRanges (bitsOf (x.dw 10) 7 0 + 1) bytes)).length ≤ s.dev.col.capacity →
        ((s.dev.charge cs).1.reserve cs (n.dsmSpecs ns (dsmRanges (bitsOf (x.dw 10) 7 0 + 1) bytes)).length).2 = true →
      ∃ t, exec (.datasetManagement cs (.ok bytes)) s = .next t ∧ t.fuse = s.fuse ∧ t.dev.hg.commits = s.dev.hg.commits + 1
        ∧ (t.dev.nsp ns).map (·.gen) = some ((n.gen + 1) % 2 ^ 48))
    ∧ (∀ bytes : List Byte, s.dev.ioDue cs 0x09 x ns n → bitOf (x.dw 11) 2 = true →
        (dsmRanges (bitsOf (x.dw 10) 7 0 + 1) bytes).any (fun r => decide (n.nsze < r.slba + r.nlb)) = true →
      ∃ t, exec (.datasetManagement cs (.ok bytes)) s = .next t ∧ t.fuse = s.fuse ∧ t.dev.posted s.dev.out cs x cqeLbaRange
        ∧ t.dev.butHost = s.dev.butHost)

/-- Zone Management Send on one zone: each action's next zone state, and the transitions that are refused and change
nothing. (R109, R161, R164) -/
def Obligations.ZoneActions : Prop :=
  ∀ (s : State) (cs : Nat) (x : CSlot) (ns : Nat) (n : Nsp) (z : Nat) (st : ZState),
    s.dev.ioDue cs 0x79 x ns n → bitOf (x.dw 13) 8 = false → x.slba % n.zoneLbas = 0 → z = x.zone n → st = (s.dev.zone ns z).state →
      (x.zsa = 3 → (st = .implOpen ∨ st = .closed ∨ (st = .empty ∧ s.dev.activeZones ns < n.mar + 1)) →
        ∃ t, exec (.zoneOpen cs) s = .next t ∧ t.fuse = s.fuse ∧ t.dev.posted s.dev.out cs x cqeOk ∧ (t.dev.zone ns z).state = .explOpen
          ∧ (t.dev.zone ns z).furrow.isSome = true ∧ (t.dev.zone ns z).wp = (s.dev.zone ns z).wp)
      ∧ (x.zsa = 3 → st = .empty → n.mar + 1 ≤ s.dev.activeZones ns →
        ∃ t, exec (.zoneOpen cs) s = .next t ∧ t.fuse = s.fuse ∧ t.dev.posted s.dev.out cs x (cqeZone 0xBD) ∧ t.dev.tc = s.dev.tc)
      ∧ (x.zsa = 3 → (st = .full ∨ st = .readOnly ∨ st = .offline) →
        ∃ t, exec (.zoneOpen cs) s = .next t ∧ t.fuse = s.fuse ∧ t.dev.posted s.dev.out cs x (cqeZone 0xBF) ∧ t.dev.tc = s.dev.tc)
      ∧ (x.zsa = 1 → (st = .implOpen ∨ st = .explOpen) →
        ∃ t, exec (.zoneClose cs) s = .next t ∧ t.fuse = s.fuse ∧ t.dev.posted s.dev.out cs x cqeOk ∧ (t.dev.zone ns z).state = .closed
          ∧ (t.dev.zone ns z).furrow = (s.dev.zone ns z).furrow)
      ∧ (x.zsa = 1 → (st = .empty ∨ st = .full ∨ st = .readOnly ∨ st = .offline) →
        ∃ t, exec (.zoneClose cs) s = .next t ∧ t.fuse = s.fuse ∧ t.dev.posted s.dev.out cs x (cqeZone 0xBF) ∧ t.dev.tc = s.dev.tc)
      ∧ (x.zsa = 2 → (st = .empty ∨ st = .implOpen ∨ st = .explOpen ∨ st = .closed) →
        ∃ t, exec (.zoneFinish cs) s = .next t ∧ t.fuse = s.fuse ∧ t.dev.posted s.dev.out cs x cqeOk ∧ (t.dev.zone ns z).state = .full
          ∧ (t.dev.zone ns z).wp = s.dev.zcap n ∧ (t.dev.zone ns z).dataEnd = (s.dev.zone ns z).dataEnd)
      ∧ (x.zsa = 2 → (st = .readOnly ∨ st = .offline) →
        ∃ t, exec (.zoneFinish cs) s = .next t ∧ t.fuse = s.fuse ∧ t.dev.posted s.dev.out cs x (cqeZone 0xBF) ∧ t.dev.tc = s.dev.tc)
      ∧ (x.zsa = 4 → (st = .implOpen ∨ st = .explOpen ∨ st = .closed ∨ st = .full) →
        ∃ t, exec (.zoneReset cs) s = .next t ∧ t.fuse = s.fuse ∧ t.dev.hg.slots.get? cs = none
          ∧ t.dev.zone ns z = { Zone.fresh with gen := (s.dev.zone ns z).gen })
      ∧ (x.zsa = 4 → (st = .readOnly ∨ st = .offline) →
        ∃ t, exec (.zoneReset cs) s = .next t ∧ t.fuse = s.fuse ∧ t.dev.posted s.dev.out cs x (cqeZone 0xBF) ∧ t.dev.tc = s.dev.tc)
      ∧ (x.zsa = 5 → st = .readOnly →
        ∃ t, exec (.zoneOffline cs) s = .next t ∧ t.fuse = s.fuse ∧ t.dev.posted s.dev.out cs x cqeOk
          ∧ t.dev.zone ns z = { s.dev.zone ns z with state := .offline })
      ∧ (x.zsa = 5 → (st = .empty ∨ st = .implOpen ∨ st = .explOpen ∨ st = .closed ∨ st = .full) →
        ∃ t, exec (.zoneOffline cs) s = .next t ∧ t.fuse = s.fuse ∧ t.dev.posted s.dev.out cs x (cqeZone 0xBF) ∧ t.dev.tc = s.dev.tc)

/-- Zone Management Receive reports zones from the one its LBA names on; I/O Management Receive reports the handles of
a namespace; I/O Management Send drains the Furrow of the handle named, which then opens again. (R109, R165, R166,
R107) -/
def Obligations.ZoneReportsAndPlacement : Prop :=
  ∀ (s : State) (cs : Nat) (x : CSlot) (ns : Nat) (n : Nsp),
    (∀ zs : List Nat, s.dev.ioDue cs 0x7A x ns n → bitsOf (x.dw 13) 15 8 ≤ 7 →
        zs = (List.range n.zones).filter (fun z => decide (x.slba / max 1 n.zoneLbas ≤ z) && reported (bitsOf (x.dw 13) 15 8) (s.dev.zone ns z).state) →
      ∃ t, exec (.zoneManagementReceive cs) s = .next t ∧ t.fuse = s.fuse ∧ t.dev.butHost = s.dev.butHost
        ∧ t.dev.posted (.hostWrite x.fn cs ((leBytes 8 (if bitOf (x.dw 13) 16 then (zs.take ((4 * (x.dw 12 + 1) - 64) / 64)).length else zs.length)
            ++ leBytes 56 0 ++ (zs.take ((4 * (x.dw 12 + 1) - 64) / 64)).flatMap (fun z => s.dev.zoneDesc ns z n)).take (4 * (x.dw 12 + 1)))
            :: s.dev.out) cs x cqeOk)
    ∧ (s.dev.ioDue cs 0x12 x ns n →
      ∃ t, exec (.ioManagementReceive cs) s = .next t ∧ t.fuse = s.fuse ∧ t.dev.butHost = s.dev.butHost
        ∧ t.dev.posted (.hostWrite x.fn cs ((leBytes 14 0 ++ leBytes 2 n.handles.length
            ++ (List.range n.handles.length).flatMap (fun i => leBytes 2 (i + 4096 * n.quire) ++ leBytes 2 ((n.handles[i]?).getD 0)
              ++ leBytes 4 0 ++ leBytes 8 (s.dev.ruamw (s.dev.boundFurrow 2 n.quire none ((n.handles[i]?).getD 0 + 256 * n.quire)) n)
              ++ leBytes 16 0)).take (4 * (x.dw 11 + 1))) :: s.dev.out) cs x cqeOk)
    ∧ (∀ (bytes : List Byte) (f : Nat), s.dev.ioDue cs 0x1D x ns n → bitsOf (x.dw 10) 31 16 = 0 →
        bitsOf (fieldAt bytes 0 2) 15 12 = n.quire → bitsOf (fieldAt bytes 0 2) 11 8 = 0 → bitsOf (fieldAt bytes 0 2) 7 0 < n.handles.length →
        s.dev.boundFurrow 2 n.quire none ((n.handles[bitsOf (fieldAt bytes 0 2) 7 0]?).getD 0 + 256 * n.quire) = some f →
        (s.dev.furrow f).staged ≠ [] →
      ∃ t, exec (.ioManagementSend cs (.ok bytes)) s = .next t ∧ t.fuse = s.fuse ∧ t.dev.posted s.dev.out cs x cqeOk
        ∧ (t.dev.furrow f).st = .draining ∧ (t.dev.furrow f).reopen = true ∧ (t.dev.furrow f).staged = (s.dev.furrow f).staged)
    ∧ (∀ bytes : List Byte, s.dev.ioDue cs 0x1D x ns n → bitsOf (x.dw 10) 31 16 = 0 → bitsOf (fieldAt bytes 0 2) 15 12 ≠ n.quire →
      ∃ t, exec (.ioManagementSend cs (.ok bytes)) s = .next t ∧ t.fuse = s.fuse ∧ t.dev.posted s.dev.out cs x cqeInvalidField
        ∧ t.dev.butHost = s.dev.butHost)

/-- The command window with FAB powered and go = 1: what each operation shows and changes in its group. (R312, R314,
R319, R320, R334) -/
def Obligations.CollationWindow : Prop :=
  ∀ (s : State) (v : W32) (g : Nat), s.dev.domReady 2 = true → bitOf v.toNat 8 = true → bitsOf v.toNat 5 4 = g →
    (s.dev.col.tiles g).2 ≠ 0 →
      (bitsOf v.toNat 3 0 = 1 →
        (s.dev.col.hits g (s.dev.winWord aColKey) (s.dev.winWord aColMask) = [] →
          ∃ t, exec (.colSearch v false) s = .next t ∧ t.fuse = s.fuse ∧ t.dev.col.result = 1 ∧ t.dev.col.walk = none
            ∧ ∀ k, t.dev.col.grp k = s.dev.col.grp k)
        ∧ (∀ (x : Nat × CEnt) (l : List (Nat × CEnt)), s.dev.col.hits g (s.dev.winWord aColKey) (s.dev.winWord aColMask) = x :: l →
          ∃ t, exec (.colSearch v false) s = .next t ∧ t.fuse = s.fuse ∧ t.dev.col.result = 0 ∧ t.dev.col.hit = x.1
            ∧ t.dev.col.multi = !l.isEmpty ∧ t.dev.col.walk = some (g, s.dev.winWord aColKey, x.1) ∧ t.dev.winRes = x.2.res
            ∧ ∀ k, t.dev.col.grp k = s.dev.col.grp k))
      ∧ (∀ (q : BitVec 192) (i : Nat), bitsOf v.toNat 3 0 = 2 → g = 1 → s.dev.col.walk = some (1, q, i) →
        ((s.dev.col.hits 1 q (s.dev.winWord aColMask)).filter (fun x => decide (i < x.1)) = [] →
          ∃ t, exec (.colStep v false) s = .next t ∧ t.fuse = s.fuse ∧ t.dev.col.result = 1 ∧ t.dev.col.walk = none)
        ∧ (∀ (x : Nat × CEnt) (l : List (Nat × CEnt)),
            (s.dev.col.hits 1 q (s.dev.winWord aColMask)).filter (fun x => decide (i < x.1)) = x :: l →
          ∃ t, exec (.colStep v false) s = .next t ∧ t.fuse = s.fuse ∧ t.dev.col.result = 0 ∧ t.dev.col.hit = x.1
            ∧ t.dev.winRes = x.2.res ∧ t.dev.col.walk = some (1, q, x.1)))
      ∧ (bitsOf v.toNat 3 0 = 2 → g ≠ 1 → ∃ t, exec (.colStep v false) s = .next t ∧ t.fuse = s.fuse
          ∧ t.dev.col = { s.dev.col with result := 3 })
      ∧ (∀ i : Nat, bitsOf v.toNat 3 0 = 3 → (g = 0 ∨ g = 3) → s.dev.col.freeIdx g = some i →
          ∃ t, exec (.colInsert v) s = .next t ∧ t.fuse = s.fuse ∧ t.dev.col.result = 0 ∧ t.dev.col.hit = i
            ∧ (t.dev.col.grp g).get? i = some (s.dev.winEnt g) ∧ (∀ j, j ≠ i → (t.dev.col.grp g).get? j = (s.dev.col.grp g).get? j)
            ∧ ∀ k, k < 4 → k ≠ g → t.dev.col.grp k = s.dev.col.grp k)
      ∧ (bitsOf v.toNat 3 0 = 3 → (g = 0 ∨ g = 3) → s.dev.col.freeIdx g = none → ∃ t, exec (.colInsert v) s = .next t
          ∧ t.fuse = s.fuse ∧ t.dev.col = { s.dev.col with result := 1 })
      ∧ ((g = 1 ∨ g = 2) → (bitsOf v.toNat 3 0 = 3 → ∃ t, exec (.colInsert v) s = .next t ∧ t.fuse = s.fuse ∧ t.dev.col = { s.dev.col with result := 2 })
          ∧ (bitsOf v.toNat 3 0 = 4 → ∃ t, exec (.colRemove v) s = .next t ∧ t.fuse = s.fuse ∧ t.dev.col = { s.dev.col with result := 2 })
          ∧ (bitsOf v.toNat 3 0 = 6 → ∃ t, exec (.colWrite v) s = .next t ∧ t.fuse = s.fuse ∧ t.dev.col = { s.dev.col with result := 2 }))
      ∧ (∀ i : Nat, s.dev.reg aColIdx 15 0 = i → s.dev.col.idxOk g i = true →
          (bitsOf v.toNat 3 0 = 4 → (g = 0 ∨ g = 3) →
            ∃ t, exec (.colRemove v) s = .next t ∧ t.fuse = s.fuse ∧ t.dev.col.result = (if (s.dev.col.grp g).has i then 0 else 1)
              ∧ (t.dev.col.grp g).get? i = none ∧ ∀ j, j ≠ i → (t.dev.col.grp g).get? j = (s.dev.col.grp g).get? j)
          ∧ (∀ e : CEnt, bitsOf v.toNat 3 0 = 5 → (s.dev.col.grp g).get? i = some e →
            ∃ t, exec (.colRead v false) s = .next t ∧ t.fuse = s.fuse ∧ t.dev.col.result = 0 ∧ t.dev.winWord aColKey = e.key
              ∧ t.dev.winWord aColMask = e.mask ∧ t.dev.winRes = e.res ∧ ∀ k, t.dev.col.grp k = s.dev.col.grp k)
          ∧ (bitsOf v.toNat 3 0 = 6 → (g = 0 ∨ g = 3) →
            ∃ t, exec (.colWrite v) s = .next t ∧ t.fuse = s.fuse ∧ t.dev.col.result = 0
              ∧ (t.dev.col.grp g).get? i = some (s.dev.winEnt g) ∧ ∀ j, j ≠ i → (t.dev.col.grp g).get? j = (s.dev.col.grp g).get? j))
      ∧ (∀ i : Nat, s.dev.reg aColIdx 15 0 = i → s.dev.col.idxOk g i = false → bitsOf v.toNat 3 0 = 5 →
          ∃ t, exec (.colRead v false) s = .next t ∧ t.fuse = s.fuse ∧ t.dev.col = { s.dev.col with result := 3 })

/-- Injection, the partition, a scrub pass, the removal of an entry, and a reader that has finished. (R312, R322,
R328, R330, R334) -/
def Obligations.CollationUpkeep : Prop :=
  ∀ s : State,
    (∀ v : W32, s.dev.domReady 2 = true →
      (bitsOf v.toNat 8 2 ≤ 95 → bitOf v.toNat 1 = true → (s.dev.col.grp (s.dev.reg aColCmd 5 4)).has (s.dev.reg aColIdx 15 0) = true →
        ∃ t, exec (.colInject v) s = .next t ∧ t.fuse = s.fuse ∧ (∀ k, t.dev.col.grp k = s.dev.col.grp k)
          ∧ t.dev.col.flips.get 0 (65536 * s.dev.reg aColCmd 5 4 + s.dev.reg aColIdx 15 0)
            = s.dev.col.flips.get 0 (65536 * s.dev.reg aColCmd 5 4 + s.dev.reg aColIdx 15 0) ^^^ BitVec.ofNat 96 (2 ^ bitsOf v.toNat 8 2))
      ∧ (95 < bitsOf v.toNat 8 2 → ∃ t, exec (.colInject v) s = .next t ∧ t.fuse = s.fuse ∧ t.dev.butLog = s.dev.butLog)
      ∧ (bitsOf v.toNat 4 3 ≠ 3 → ∃ t, exec (.colPartWrite v) s = .next t ∧ t.fuse = s.fuse ∧ t.dev.col.tg = bitsOf v.toNat 4 3
          ∧ t.dev.col.tz = s.dev.col.tz ∧ t.dev.col.rng = s.dev.col.rng ∧ t.dev.reg aColPart 4 3 = bitsOf v.toNat 4 3
          ∧ (bitsOf v.toNat 4 3 = s.dev.col.tg → t.dev.col = s.dev.col)
          ∧ (bitsOf v.toNat 4 3 ≠ s.dev.col.tg → t.dev.col.busy = true ∨ (t.dev.col.z = t.dev.col.tz ∧ t.dev.col.g = t.dev.col.tg)))
      ∧ (bitsOf v.toNat 4 3 = 3 → ∃ t, exec (.colPartWrite v) s = .next t ∧ t.fuse = s.fuse ∧ t.dev.butLog = s.dev.butLog))
    ∧ (∀ k : Nat, bitOf (s.dev.csrW aColCtrl).toNat 0 = true → s.dev.domReady (5 + k / 16) = true →
        ∃ t, exec (.scrubPassDone k) s = .next t ∧ t.fuse = s.fuse
          ∧ ∀ (i : Nat) (e : CEnt), (s.dev.col.grp (s.dev.col.tileGroup k)).get? i = some e → s.dev.col.tileOf (s.dev.col.tileGroup k) i = k →
            t.dev.col.flips.has (65536 * s.dev.col.tileGroup k + i) = false)
    ∧ (∀ k : Nat, bitOf (s.dev.csrW aColCtrl).toNat 0 = false → exec (.scrubPassDone k) s = .next s)
    ∧ (∀ (tag i : Nat) (e : CEnt), (s.dev.col.rng.filter (fun x => decide (x.2.tag = tag))) = [(i, e)] → e.pending = false →
        s.dev.unitsLeft [tag] = false → s.dev.col.remWait = [] →
        (s.dev.col.blockedBy tag = false →
          ∃ t, exec (.collationRemove tag) s = .next t ∧ t.fuse = s.fuse ∧ t.dev.col.rng.all (fun x => decide (x.2.tag ≠ tag)) = true
            ∧ t.dev.col.remWait = []))
    ∧ (∀ (cs tag : Nat) (x : CSlot), s.dev.hg.slots.get? cs = some x → x.reads = true → x.tags.contains tag = true →
        x.units.all (fun u => (decide (u.src ≠ 1) && decide (u.src ≠ 2)) || !(s.dev.usesTag u tag)) = true →
        ∃ t, exec (.readerRelease cs tag) s = .next t ∧ t.fuse = s.fuse ∧ t.dev.out = s.dev.out
          ∧ t.dev.hg.slots.get? cs = some { x with tags := x.tags.filter (· ≠ tag) }
          ∧ t.dev.col.readers.get 0 tag = s.dev.col.readers.get 0 tag - 1)

/-- The map walk of a leaf read: a LOST unit ends its command with Unrecovered Read Error, an unwritten one is zeros
where the namespace does not ask for an error, and a mapped one is decided with its class's deadline. The timers of
the read path: a direct read that is late is decided once more; a suspension whose window has passed resumes; a
deferred program or erase is issued; a die is warm 60 s after its first operation; a window of LC0 reads on a Strict
Quire ends. (R153, R151, R187, R198, R204, R203, R197, R221, R209) -/
def Obligations.MapWalksAndReadTimers : Prop :=
  (∀ (s : State) (rid cs iu u : Nat) (r : LeafRead) (x : CSlot), s.dev.leafRead rid = some r → r.walked = false → r.cs = some cs →
      r.units = [(iu, u)] → r.peers = [] → rid < s.dev.rp.nextRid → s.dev.rp.reads.all (fun y => decide (y.2.cs ≠ some cs) || decide (y.1 = rid)) = true →
        (s.dev.walk r.ns iu = .lost → s.dev.postable cs x → x.tags = [] →
          ∃ t, exec (.mapWalkDone rid) s = .next t ∧ t.fuse = s.fuse ∧ t.dev.posted s.dev.out cs x cqeUnrecovered
            ∧ t.dev.leafRead rid = none ∧ t.dev.tc = s.dev.tc)
        ∧ ((s.dev.walk r.ns iu = .unwritten ∨ s.dev.walk r.ns iu = .dealloc) → s.dev.dulbe r.ns = false → s.dev.postable cs x →
            x.opcode = 0x0C → x.units.all (fun y => decide (y.iu = iu) || decide (y.src = 4)) = true →
          ∃ t, exec (.mapWalkDone rid) s = .next t ∧ t.fuse = s.fuse ∧ t.dev.posted s.dev.out cs x cqeOk ∧ t.dev.leafRead rid = none)
        ∧ ((s.dev.walk r.ns iu = .unwritten ∨ s.dev.walk r.ns iu = .dealloc) → s.dev.dulbe r.ns = true → s.dev.postable cs x → x.tags = [] →
          ∃ t, exec (.mapWalkDone rid) s = .next t ∧ t.fuse = s.fuse ∧ t.dev.posted s.dev.out cs x cqeDeallocated ∧ t.dev.leafRead rid = none)
        ∧ (∀ p : Nat, s.dev.walk r.ns iu = .mapped p →
          ∃ t y, exec (.mapWalkDone rid) s = .next t ∧ t.fuse = s.fuse ∧ t.dev.leafRead rid = some y ∧ y.walked = true ∧ y.pua = puaBase p
            ∧ y.units = [(iu, puaUnit p)] ∧ y.decidedAt = s.dev.now
            ∧ y.deadline = (s.dev.deadlineUs r.cls).map (fun us => s.dev.now + 1000 * us) ∧ t.dev.tc = s.dev.tc ∧ t.dev.hg.slots = s.dev.hg.slots))
  ∧ (∀ s : State,
      (∀ (rid : Nat) (r : LeafRead), s.dev.leafRead rid = some r → r.walked = true → r.path = .direct → r.issued = false → r.redecided = false →
          r.parent = none → r.deadline.isSome = true → r.peers = [] → rid < s.dev.rp.nextRid →
          s.dev.dieBusy (puaSlot r.pua) (s.dev.dieOfPua r.pua) = true → r.startAt + 10000 ≤ s.dev.now →
        ∃ t y, exec (.redecideTimer rid) s = .next t ∧ t.fuse = s.fuse ∧ t.dev.leafRead rid = some y ∧ y.redecided = true
          ∧ y.deadline = r.deadline ∧ y.pua = r.pua ∧ t.dev.counter (aRpCnt + 12) 0 = sat 32 (s.dev.counter (aRpCnt + 12) 0 + 1)
          ∧ t.dev.tc = s.dev.tc ∧ t.dev.hg = s.dev.hg)
      ∧ (∀ (k j : Nat), (s.dev.die k j).susp = true → (s.dev.die k j).susTag = none →
          (s.dev.die k j).susAt + 10000 * s.dev.reg aRpCtrl 15 8 ≤ s.dev.now →
        ∃ t, exec (.suspendWindowTimeout k j) s = .next t ∧ t.fuse = s.fuse ∧ (t.dev.die k j).susTag.isSome = true
          ∧ t.dev.butWork = s.dev.butWork)
      ∧ (∀ (k j : Nat), (s.dev.die k j).susp = true → s.dev.now < (s.dev.die k j).susAt + 10000 * s.dev.reg aRpCtrl 15 8 →
          exec (.suspendWindowTimeout k j) s = .next s)
      ∧ (∀ (n : Nat) (g : Grant), s.dev.slu.defer.any (fun x => decide (x.gid = n)) = true → s.dev.slu.held.get? n = some g →
          (s.dev.die g.req.slot g.req.die).hold = none → (s.dev.link g.req.slot).opsOk = true →
        ∃ t, exec (.progDeferTimeout n) s = .next t ∧ t.fuse = s.fuse ∧ (t.dev.die g.req.slot g.req.die).hold.isSome = true
          ∧ (t.dev.die g.req.slot g.req.die).kind = g.req.kind ∧ t.dev.slu.defer.any (fun x => decide (x.gid = n)) = false
          ∧ t.dev.butWork = s.dev.butWork)
      ∧ (∀ (k j t0 : Nat), (s.dev.die k j).firstAt = some t0 →
          (t0 + 60000000000 ≤ s.dev.now → ∃ t, exec (.dieWarmTimer k j) s = .next t ∧ t.fuse = s.fuse ∧ (t.dev.die k j).warm = true)
          ∧ (s.dev.now < t0 + 60000000000 → exec (.dieWarmTimer k j) s = .next s))
      ∧ (∀ (q : Nat) (x : Quire), s.dev.quire q = some x → x.strict = true →
        ∃ t, exec (.strictWriteWindow q) s = .next t ∧ t.fuse = s.fuse ∧ t.dev.quire q = some { x with winUnits := 0, winReads := [] }
          ∧ (∀ (n us : Nat), x.winReads = [(n, us)] → t.dev.hg.stats.get .reset n
              = (if s.dev.wStrict q < 50 * (x.winUnits * 4096)
                  then { s.dev.hg.stats.get .reset n with outside := sat 64 ((s.dev.hg.stats.get .reset n).outside + 1) }
                  else (s.dev.hg.stats.get .reset n).within 0 us))))

/-- A codeword whose hard decode fails goes on to soft-2, which needs two more senses; a unit that decodes and passes
its checks is sent to the host, and the last of a read completes it; so does one that the XOR of its peers yields.
(R210, R212, R213, R214, R441) -/
def Obligations.DecodesAndReconstructions : Prop :=
  ∀ (s : State) (rid cw cs iu : Nat) (r : LeafRead) (c : CwSt), s.dev.leafRead rid = some r → r.cws = [(cw, c)] → c.passed = false →
    r.cs = some cs → r.parent = none → r.units = [(iu, cw)] →
      (∀ x : DecodeIn, c.rung = .hard → c.need = 0 → x.frame = none → (1 < r.cls ∨ bitOf (s.dev.csrW aLadderCtrl).toNat 1 = false) →
        ∃ t y, exec (.decodeDone rid cw x) s = .next t ∧ t.fuse = s.fuse ∧ t.dev.leafRead rid = some y
          ∧ y = { r with cws := [(cw, { c with rung := .soft2, need := 2 })] } ∧ t.dev.out = s.dev.out ∧ t.dev.hg = s.dev.hg)
      ∧ (∀ (x : DecodeIn) (f : Frame) (y : CSlot) (n : Nsp), c.rung = .hard → c.need = 0 → x.frame = some f → r.peers = [] →
          bitOf (s.dev.csrW aLadderCtrl).toNat 0 = false → s.dev.checkCw r cw f = 0 → s.dev.postable cs y → y.opcode = 2 → y.tags = [] →
          y.units.all (fun u => decide (u.iu = iu) || decide (u.src = 4)) = true → y.units.all (fun u => decide (u.newer = [])) = true →
          s.dev.nsp r.ns = some n → y.piStatus n iu (leBytes 4096 (s.dev.openUnit f r.ns iu n.keyGen).1.toNat)
            (leBytes 64 (s.dev.openUnit f r.ns iu n.keyGen).2.toNat) = none →
        ∃ t, exec (.decodeDone rid cw x) s = .next t ∧ t.fuse = s.fuse ∧ t.dev.hg.slots.get? cs = none
          ∧ Out.readData y.fn cs iu (some (s.dev.openUnit f r.ns iu n.keyGen).1) ∈ t.dev.out ∧ t.dev.leafRead rid = none
          ∧ t.dev.counter aLadderCnt 0 = sat 32 (s.dev.counter aLadderCnt 0 + 1))
      ∧ (∀ (f : Frame) (y : CSlot) (n : Nsp), c.rung = .recon → c.early = false → c.failed = false →
          (r.peers.filterMap s.dev.leafRead).any (fun p => p.cwList.contains cw) = true →
          (r.peers.filterMap s.dev.leafRead).all (fun p => !(p.cwList.contains cw) || ((p.cws.get? cw).map (·.passed)).getD false) = true →
          s.dev.checkCw r cw f = 0 → s.dev.postable cs y → y.opcode = 2 → y.tags = [] →
          y.units.all (fun u => decide (u.iu = iu) || decide (u.src = 4)) = true → y.units.all (fun u => decide (u.newer = [])) = true →
          s.dev.nsp r.ns = some n → y.piStatus n iu (leBytes 4096 (s.dev.openUnit f r.ns iu n.keyGen).1.toNat)
            (leBytes 64 (s.dev.openUnit f r.ns iu n.keyGen).2.toNat) = none →
        ∃ t, exec (.reconstructionDone rid cw (some f)) s = .next t ∧ t.fuse = s.fuse ∧ t.dev.hg.slots.get? cs = none
          ∧ Out.readData y.fn cs iu (some (s.dev.openUnit f r.ns iu n.keyGen).1) ∈ t.dev.out
          ∧ t.dev.counter (aLadderCnt + 16) 0 = sat 32 (s.dev.counter (aLadderCnt + 16) 0 + 1))

/-- Folds, collection, the erase gate, checkpoints, the Furrow window and the weirs. (R174, R176, R178, R179, R188) -/
def Obligations.FoldsCollectionAndErases : Prop :=
  ∀ s : State,
    (∀ (q : Nat) (x : Quire), s.dev.quire q = some x →
      (∀ f : Nat, servingMode s.dev.modes.mode = true → x.foldHeld = false → s.dev.foldDue q x = true → x.folding = none → s.dev.foldPick q = some f →
        ∃ t, exec (.foldStart q) s = .next t ∧ t.fuse = s.fuse ∧ t.dev.quire q = some { x with folding := some f } ∧ t.dev.hg = s.dev.hg
          ∧ (t.dev.furrow f).staged = (s.dev.furrow f).staged)
      ∧ ((servingMode s.dev.modes.mode = false ∨ x.foldHeld = true ∨ s.dev.foldDue q x = false) → exec (.foldStart q) s = .next s)
      ∧ (∀ v : Nat, servingMode s.dev.modes.mode = true → s.dev.qlcBelow q (s.dev.reg aTcGcWeir 7 0) x = true → x.victim = none →
          s.dev.victimOf q = some v →
        ∃ t, exec (.gcStart q) s = .next t ∧ t.fuse = s.fuse ∧ t.dev.quire q = some { x with victim := some v } ∧ t.dev.hg = s.dev.hg
          ∧ (t.dev.furrow q).st = .open ∧ (t.dev.furrow q).kind = 8)
      ∧ ((servingMode s.dev.modes.mode = false ∨ s.dev.qlcBelow q (s.dev.reg aTcGcWeir 7 0) x = false) → exec (.gcStart q) s = .next s))
    ∧ (∀ q k : Nat, (s.dev.sb q k).st = .released →
        (s.dev.gateOpen (s.dev.sb q k) = true → exec (.eraseGateRelease q k) s
          = .next { s with dev := s.dev.modSb q k (fun b => { b with st := .erasing, row := 0 }) })
        ∧ (s.dev.gateOpen (s.dev.sb q k) = false → ∃ t, exec (.eraseGateRelease q k) s = .next t ∧ t.fuse = s.fuse ∧ t.dev.butLog = s.dev.butLog
          ∧ t.dev.counter aTcEraseGate 0 = sat 16 (s.dev.counter aTcEraseGate 0 + 1)))
    ∧ (servingMode s.dev.modes.mode = true → s.dev.tc.segBusy = none →
        ∃ t i, exec .checkpointSegmentDue s = .next t ∧ t.fuse = s.fuse ∧ t.dev = { s.dev with tc := { s.dev.tc with segBusy := some (i, s.dev.tc.head) } }
          ∧ (s.dev.tc.segs = [] → i = 0))
    ∧ exec .furrowWindowLoad s = .next { s with dev := { s.dev with tc := { s.dev.tc with window := s.dev.furrow (s.dev.reg aTcFurrowIdx 11 0) } } }
    ∧ (∀ v : W32,
        (bitsOf v.toNat 15 8 < bitsOf v.toNat 7 0 → bitsOf v.toNat 15 8 ≠ 0 → bitsOf v.toNat 23 16 ≠ 0 →
          exec (.gcWeirWrite v) s = .next { s with dev := s.dev.setCsr aTcGcWeir (v &&& 0xFFFFFF#32) })
        ∧ ((bitsOf v.toNat 7 0 ≤ bitsOf v.toNat 15 8 ∨ bitsOf v.toNat 15 8 = 0 ∨ bitsOf v.toNat 23 16 = 0) →
          ∃ t, exec (.gcWeirWrite v) s = .next t ∧ t.fuse = s.fuse ∧ t.dev.butLog = s.dev.butLog))

/-- A rebuild starts where the present members can hold the data and is held otherwise; the live records of a journal
region's block get new sequence numbers; a patrol row counts, and the last one ends the pass; an unfinished pass is
late at its period's end. (R245, R237, R238, R241, R242, R243) -/
def Obligations.RebuildsAndPatrol : Prop :=
  ∀ (s : State) (q : Nat) (x : Quire), s.dev.quire q = some x →
    (x.due = true → x.work = none → bitOf (s.dev.csrW aSigCtrl).toNat 1 = true → servingMode s.dev.modes.mode = true → s.dev.quireState q ≠ 4 →
      (s.dev.canHold q x x.presentWidth = false →
        ∃ t, exec (.rebuildStart q) s = .next t ∧ t.fuse = s.fuse ∧ t.dev.quire q = some { x with due := false, held := true }
          ∧ t.dev.tc = s.dev.tc)
      ∧ (s.dev.canHold q x x.presentWidth = true →
        ∃ t y, exec (.rebuildStart q) s = .next t ∧ t.fuse = s.fuse ∧ t.dev.quire q = some y ∧ y.due = false ∧ y.workSince = s.dev.now
          ∧ (t.dev.furrow q).st = .open))
    ∧ (x.due = false → exec (.rebuildStart q) s = .next s)
    ∧ (∀ (k j : Nat) (b : RBlk), (s.dev.hostOf k).isEmpty = false → s.dev.regionLow k = true → s.dev.regionOf k = [(j, b)] →
        ∃ t, exec (.journalRegionReclaim k) s = .next t ∧ t.fuse = s.fuse
          ∧ t.dev.tc.jseq = s.dev.tc.jseq + (b.recs.filter (s.dev.recLive k)).length ∧ t.dev.tc.regions = s.dev.tc.regions
          ∧ ∀ (f n : Nat) (y : JSlot), b.recs.filter (s.dev.recLive k) = [(f, n)] → s.dev.tc.jslots.get? f = some y →
              t.dev.tc.jslots.get? f = some { y with jseq := s.dev.tc.jseq + 1 })
    ∧ (∀ (k row : Nat) (cws : List PatrolCw), x.work = none → servingMode s.dev.modes.mode = true → bitOf (s.dev.csrW aSigCtrl).toNat 0 = true →
        (s.dev.sb q k).valid ≠ 0 → 1 ≤ row → row ≤ dataRows (x.rows (s.dev.sb q k).slc) → cws.all (fun c => decide (c.rung ≤ 1) && c.tagOk) = true →
        x.patRows ≠ 0 →
        (x.patRows + 1 < x.patTotal →
          ∃ t, exec (.patrolRowDue q k row cws false) s = .next t ∧ t.fuse = s.fuse ∧ t.dev.tc = s.dev.tc
            ∧ t.dev.counter aSigCnt 0 = sat 32 (s.dev.counter aSigCnt 0 + 1)
            ∧ t.dev.quire q = some { x with
              patRows := x.patRows + 1, patCws := x.patCws + 4 * (s.dev.sb q k).members.length, patBeyond := x.patBeyond + (cws.filter (fun c => c.rung ≠ 0)).length })
        ∧ (x.patTotal ≤ x.patRows + 1 →
          ∃ t y, exec (.patrolRowDue q k row cws false) s = .next t ∧ t.fuse = s.fuse ∧ t.dev.tc = s.dev.tc ∧ t.dev.quire q = some y
            ∧ y.passes = x.passes + 1 ∧ y.lastPass = s.dev.now ∧ y.patRows = 0 ∧ y.patLate = false))
    ∧ (∀ (k row : Nat) (cws : List PatrolCw) (m : Bool), (x.work ≠ none ∨ servingMode s.dev.modes.mode = false
          ∨ bitOf (s.dev.csrW aSigCtrl).toNat 0 = false) → exec (.patrolRowDue q k row cws m) s = .next s)
    ∧ (x.patRows < x.patTotal → ∃ t, exec (.patrolPeriodEnd q) s = .next t ∧ t.fuse = s.fuse ∧ t.dev.quire q = some { x with patLate := true })
    ∧ (x.patTotal ≤ x.patRows → exec (.patrolPeriodEnd q) s = .next s)

/-- The transitions of Table 09-2: an ACTIVE link that falls silent, loses block lock or is told to retrain goes to
RECOVERY, and so does one whose fourth replay in a row does not help; RECOVERY, DETECT, TRAIN and LOW_POWER end as the
table says. (R260, R264, R265, R266, R275, R290) -/
def Obligations.LinkTransitions : Prop :=
  ∀ (s : State) (k : Nat) (l : Link), k < 64 → s.dev.link k = l →
    (l.st = .active → (l.recovAt.filter (fun x => decide (s.dev.now < x + 1000000000))).length < 16 →
      (∃ t, exec (.silenceTimer k) s = .next t ∧ t.fuse = s.fuse ∧ t.dev.link k = { l with
          st := .recovery, since := s.dev.now, stuck := 0, recovAt := s.dev.now :: l.recovAt.filter (fun x => decide (s.dev.now < x + 1000000000)) })
      ∧ (∀ lane : Nat, lane < l.width → ∃ t, exec (.blockLockLost k lane) s = .next t ∧ t.fuse = s.fuse ∧ (t.dev.link k).st = .recovery
          ∧ (t.dev.link k).tags = l.tags ∧ (t.dev.link k).replay = l.replay)
      ∧ (s.dev.domReady (glDom k) = true → ∃ t, exec (.linkRetrain k) s = .next t ∧ t.fuse = s.fuse ∧ (t.dev.link k).st = .recovery
          ∧ (t.dev.link k).cmdResult = 0)
      ∧ (l.replay ≠ [] → l.stuck = 3 → ∃ t, exec (.replayTimer k) s = .next t ∧ t.fuse = s.fuse ∧ (t.dev.link k).st = .recovery
          ∧ t.dev.out = s.dev.out))
    ∧ (l.st = .active → ∀ lane : Nat, l.width ≤ lane → exec (.blockLockLost k lane) s = .next s)
    ∧ (l.st ≠ .active → s.dev.domReady (glDom k) = true → ∃ t, exec (.linkRetrain k) s = .next t ∧ t.fuse = s.fuse
        ∧ t.dev.link k = { l with cmdResult := 2 })
    ∧ (l.st = .active → l.replay ≠ [] → l.stuck < 3 → ∃ t, exec (.replayTimer k) s = .next t ∧ t.fuse = s.fuse
        ∧ t.dev.link k = { l with stuck := l.stuck + 1 }
        ∧ t.dev.out = (l.replay.map (fun r => Out.flit k r.what.kind r.what.arg r.n)).reverse ++ s.dev.out)
    ∧ (l.st = .active → l.replay = [] → exec (.replayTimer k) s = .next s)
    ∧ (l.st = .recovery → (∃ t, exec (.lockRegained k) s = .next t ∧ t.fuse = s.fuse ∧ (t.dev.link k).st = .active
          ∧ (t.dev.link k).since = s.dev.now ∧ (t.dev.link k).session = l.session ∧ t.dev.butWork = s.dev.butWork)
        ∧ (∃ t, exec (.recoveryTimer k) s = .next t ∧ t.fuse = s.fuse ∧ t.dev.link k = { l with st := .train, since := s.dev.now }))
    ∧ (l.st = .detect → (l.detectAt.filter (fun x => decide (s.dev.now < x + 60000000000))).length < 3 →
        ∃ t, exec (.partnerDetected k) s = .next t ∧ t.fuse = s.fuse ∧ t.dev.link k = { l with
          st := .train, viaDetect := true, since := s.dev.now, detectAt := s.dev.now :: l.detectAt.filter (fun x => decide (s.dev.now < x + 60000000000)) })
    ∧ (l.st = .train → ∀ (w : Nat) (rev : Bool), (w = 1 ∨ w = 2 ∨ w = 4) →
        ∃ t, exec (.trainingDone k w rev) s = .next t ∧ t.fuse = s.fuse ∧ t.dev.link k = { l with
          st := .init, width := w, reversed := rev, oldWidth := w, eqSaved := true, gotInit := false, peerSeen := false, initSent := 1 }
          ∧ t.dev.out = .flit k 2 0 1 :: s.dev.out)
    ∧ ((l.st = .train ∨ l.st = .init) → ∃ t, exec (.trainingTimeout k) s = .next t ∧ t.fuse = s.fuse
        ∧ t.dev.link k = { l with st := .detect, since := s.dev.now, width := 0, gotInit := false })
    ∧ (l.st = .init → ∃ t, exec (.initResendTimer k) s = .next t ∧ t.fuse = s.fuse ∧ t.dev.link k = { l with initSent := l.initSent + 1 }
        ∧ t.dev.out = .flit k 2 (bit l.gotInit) 1 :: s.dev.out)
    ∧ (l.st = .lowPower → ∃ t, exec (.lowPowerExit k) s = .next t ∧ t.fuse = s.fuse ∧ (t.dev.link k).st = .active
        ∧ (t.dev.link k).lpReq = false ∧ (t.dev.link k).session = l.session)

/-- What is received on a link: flits are counted and acknowledged, credits and acknowledgements taken, a completion
that waits for data is kept, and what breaks the protocol quarantines a module (its slot idle here) with reason 0x1.
(R263, R264, R266, R268, R271, R273, R279, R283, R284) -/
def Obligations.FlitsReceived : Prop :=
  ∀ (s : State) (k : Nat) (l : Link), k < 64 → s.dev.link k = l →
    (l.st = .active →
      (0 < l.rxUnacked → ∃ t, exec (.ackTimer k) s = .next t ∧ t.fuse = s.fuse
          ∧ t.dev.link k = { l with rxUnacked := 0, ackSent := s.dev.now }
          ∧ t.dev.out = .lctl k (some ((l.rxNext + 1023) % 1024)) none false :: s.dev.out)
      ∧ (l.rxUnacked = 0 → exec (.ackTimer k) s = .next s)
      ∧ (l.nakSent = none → ∃ t, exec (.flitCrcError k) s = .next t ∧ t.fuse = s.fuse
          ∧ t.dev.out = .lctl k (some ((l.rxNext + 1023) % 1024)) (some ((l.rxNext + 1023) % 1024)) false :: s.dev.out
          ∧ t.dev.counter (aLnk k + 0x0C) 0 = sat 16 (s.dev.counter (aLnk k + 0x0C) 0 + 1) ∧ (t.dev.link k).rxNext = l.rxNext)
      ∧ (l.rxUnacked < 31 → ∃ t, exec (.pongReceived k) s = .next t ∧ t.fuse = s.fuse ∧ t.dev.out = s.dev.out
          ∧ t.dev.link k = { l with
          rxNext := (l.rxNext + 1) % 1024, rxUnacked := l.rxUnacked + 1, nakSent := none, freed := setNth l.freed 2 (nth l.freed 2 + 1), progressAt := s.dev.now, ping := false })
      ∧ (∀ die : Nat, ∃ t, exec (.noticeReceived k 2 die) s = .next t ∧ t.fuse = s.fuse ∧ (t.dev.link k).st = .active
          ∧ (t.dev.link k).rxNext = (l.rxNext + 1) % 1024 ∧ t.dev.gl.slots = s.dev.gl.slots)
      ∧ (∀ (c : Cpl) (e : TagEnt), l.tags.get? c.tag = some e → c.rsvOk = true → e.cpl = none → c.opcode = OpCode e.op.kind → c.die = e.op.die →
          c.status = 0 → e.flits < e.op.flits → s.dev.hg.slots = [] →
          ∃ t, exec (.cplReceived k c) s = .next t ∧ t.fuse = s.fuse ∧ (t.dev.link k).tags.get? c.tag = some { e with cpl := some c }
            ∧ (t.dev.link k).rxNext = (l.rxNext + 1) % 1024 ∧ (t.dev.link k).progressAt = s.dev.now)
      ∧ (∀ (c : Cpl) (e : TagEnt), l.tags.get? c.tag = some e → c.rsvOk = true → e.cpl = none → c.opcode = 5 → e.op.kind = .resume →
          c.die = e.op.die → c.status = 0 →
          ∃ t, exec (.cplReceived k c) s = .next t ∧ t.fuse = s.fuse ∧ (t.dev.die k c.die).susp = false
            ∧ (t.dev.die k c.die).done = (s.dev.die k c.die).done + 1)
      ∧ (∀ (tag : Nat) (e : TagEnt), l.tags.get? tag = some e → e.flits + 1 < e.op.flits → s.dev.hg.slots = [] →
          ∃ t, exec (.dataFlitReceived k tag false true) s = .next t ∧ t.fuse = s.fuse
            ∧ (t.dev.link k).tags.get? tag = some { e with flits := e.flits + 1, gotLast := false }
            ∧ (t.dev.link k).rxNext = (l.rxNext + 1) % 1024)
      ∧ (∀ (m : Lctl) (l2 : Link), m.rsvOk = true → m.nak = none → m.lpAck = false → l.txQueue = [] →
          ((l.returned 0 m.ret0).bind (fun x => x.returned 1 m.ret1)).bind (fun x => x.returned 2 m.ret2) = some l2 →
          ∃ t, exec (.lctlReceived k m) s = .next t ∧ t.fuse = s.fuse ∧ (t.dev.link k).ret = l2.ret
            ∧ (t.dev.link k).replay = (match m.ack with
                | some n => (l2.ack n).replay
                | none => l2.replay))
      ∧ (∀ m : Lctl, s.dev.idleSlot k → (m.rsvOk = false ∨
            ((l.returned 0 m.ret0).bind (fun x => x.returned 1 m.ret1)).bind (fun x => x.returned 2 m.ret2) = none) →
          ∃ t, exec (.lctlReceived k m) s = .next t ∧ t.fuse = s.fuse ∧ (t.dev.link k).st = .quarantine ∧ (t.dev.link k).quar = 1))
    ∧ ((l.st = .active ∨ l.st = .init) → s.dev.idleSlot k →
        ∃ t, exec (.invalidFlitReceived k) s = .next t ∧ t.fuse = s.fuse ∧ (t.dev.link k).st = .quarantine ∧ (t.dev.link k).quar = 1
          ∧ (t.dev.slot k).pwren = false ∧ (t.dev.slot k).admitted = false ∧ (t.dev.slot k).blocked = true)
    ∧ (l.st ≠ .active → l.st ≠ .init → exec (.invalidFlitReceived k) s = .next s)
    ∧ (∀ m : InitPl, l.st = .init → l.initOk k m = true → (m.fresh = false ∨ l.tags = []) →
        (m.peerSeen = false → m.fresh = false → ∃ t, exec (.initReceived k m) s = .next t ∧ t.fuse = s.fuse
          ∧ t.dev.link k = { l with gotInit := true, peerSeen := false, initSent := l.initSent + 1 } ∧ t.dev.out = .flit k 2 1 1 :: s.dev.out)
        ∧ (m.peerSeen = true → (s.dev.slot k).validated = false → ∃ t, exec (.initReceived k m) s = .next t ∧ t.fuse = s.fuse
          ∧ (t.dev.link k).st = .active ∧ (t.dev.link k).adv = [m.vc0, m.vc1, m.vc2] ∧ (t.dev.link k).maxTags = m.maxTags))
    ∧ (∀ m : InitPl, l.st = .init → l.initOk k m = false → s.dev.idleSlot k →
        ∃ t, exec (.initReceived k m) s = .next t ∧ t.fuse = s.fuse ∧ (t.dev.link k).st = .quarantine ∧ (t.dev.link k).quar = 1)

/-- Authentication and slow partners: a response that verifies forms the session secret and is confirmed, and the
module's confirmation authenticates the link; a timer that expires quarantines it. An operation timer asks for STATUS
first; a link without progress is probed; a module that stays silent is powered off; a quarantine that would break a
Quire is refused. (R277, R278, R280, R281, R282, R283, R284, R291) -/
def Obligations.AuthenticationAndTimers : Prop :=
  ∀ (s : State) (k : Nat) (l : Link), k < 64 → s.dev.link k = l →
    (l.st = .active →
      (∀ (qm : BitVec 776) (sig : BitVec 768) (c : Colo), s.dev.colo k = some c → l.authStep = 1 →
          Config.ecdsaOk (slice c.bytes 0x1300 128)
            (Config.sha384 (ascii "CX512 GLAUTH" ++ leBytes 1 k ++ l.challenge ++ leBytes 97 qm.toNat ++ digestBytes c.digest))
            (leBytes 96 sig.toNat ++ List.replicate 32 0) = true →
        ∃ t, exec (.authResponseReceived k qm sig) s = .next t ∧ t.fuse = s.fuse ∧ (t.dev.link k).authStep = 2
          ∧ (t.dev.link k).session = some (Config.sessionSecret l.nonce (leBytes 97 qm.toNat))
          ∧ (t.dev.link k).authT = Config.sha384 (l.challenge ++ leBytes 97 qm.toNat ++ leBytes 96 sig.toNat))
      ∧ (∀ ss : Digest, l.session = some ss → l.authStep = 2 →
        ∃ t, exec (.authConfirmReceived k (Config.hmac384 (digestBytes ss) (ascii "M" ++ digestBytes l.authT))) s = .next t ∧ t.fuse = s.fuse
          ∧ (t.dev.link k).auth = 1 ∧ (t.dev.link k).authStep = 0 ∧ (t.dev.link k).session = some ss)
      ∧ (∀ ss : Digest, l.session = some ss → l.authStep = 3 →
        ∃ t, exec (.reauthResponseReceived k (Config.hmac384 (digestBytes ss) (ascii "R" ++ nonceOf l.nonce ++ leBytes 1 k))) s = .next t
          ∧ t.fuse = s.fuse ∧ (t.dev.link k).auth = 1 ∧ (t.dev.link k).authStep = 0 ∧ (t.dev.link k).session = some ss)
      ∧ (∀ (ss h : Digest), l.session = some ss → l.authStep = 2 → h ≠ Config.hmac384 (digestBytes ss) (ascii "M" ++ digestBytes l.authT) →
          s.dev.idleSlot k →
        ∃ t, exec (.authConfirmReceived k h) s = .next t ∧ t.fuse = s.fuse ∧ (t.dev.link k).st = .quarantine ∧ (t.dev.link k).quar = 2)
      ∧ (∀ (tag : Nat) (e : TagEnt), l.tags.get? tag = some e → e.tries = 0 →
        ∃ t n e', exec (.operationTimer k tag) s = .next t ∧ t.fuse = s.fuse ∧ (t.dev.link k).tags.get? n = some e' ∧ e'.op.kind = .status
          ∧ e'.op.die = e.op.die ∧ e'.target = some tag ∧ t.dev.butWork = s.dev.butWork)
      ∧ (l.tags ≠ [] → l.progressAt + 1000000 ≤ s.dev.now →
        ∃ t, exec (.progressProbeTimer k) s = .next t ∧ t.fuse = s.fuse ∧ (t.dev.link k).ping = true
          ∧ Out.mgmtMsg k 1 (leBytes 8 s.dev.now) ∈ t.dev.out ∧ t.dev.butWork = s.dev.butWork)
      ∧ ((l.tags = [] ∨ s.dev.now < l.progressAt + 1000000) → exec (.progressProbeTimer k) s = .next s))
    ∧ (l.authStep ≠ 0 → l.st ≠ .quarantine → s.dev.idleSlot k →
        ∃ t, exec (.authTimeout k) s = .next t ∧ t.fuse = s.fuse ∧ (t.dev.link k).st = .quarantine ∧ (t.dev.link k).quar = 2)
    ∧ (l.authStep = 0 → exec (.authTimeout k) s = .next s)
    ∧ (l.st ≠ .quarantine → l.st ≠ .disabled → l.tags ≠ [] → l.progressAt + 1000000 * s.dev.reg aGlTimer 11 8 ≤ s.dev.now →
        ∃ t, exec (.unresponsiveTimer k) s = .next t ∧ t.fuse = s.fuse ∧ (t.dev.slot k).pwren = false ∧ (t.dev.slot k).admitted = false
          ∧ (t.dev.link k).tags = [] ∧ (t.dev.link k).session = none)
    ∧ (s.dev.domReady (glDom k) = true →
        ((l.st = .quarantine ∨ (s.dev.slot k).pwren = false) → ∃ t, exec (.linkQuarantineRequest k) s = .next t ∧ t.fuse = s.fuse
          ∧ t.dev.link k = { l with cmdResult := 2 })
        ∧ (l.st ≠ .quarantine → (s.dev.slot k).pwren = true → s.dev.wouldBreak k = true → ∃ t, exec (.linkQuarantineRequest k) s = .next t
          ∧ t.fuse = s.fuse ∧ t.dev.link k = { l with cmdResult := 1 })
        ∧ (l.st ≠ .quarantine → (s.dev.slot k).pwren = true → s.dev.idleSlot k → ∃ t, exec (.linkQuarantineRequest k) s = .next t
          ∧ t.fuse = s.fuse ∧ (t.dev.link k).st = .quarantine ∧ (t.dev.link k).quar = 6 ∧ (t.dev.link k).cmdResult = 0))

/-- Sideband commands and the slot timers: a slot that is absent or not enabled, or that serves, is refused with the
result of GL_SB_CMD; an idle one is powered on with GRST_N held, powered off, or reset, which discards its session
secret; GRST_N is then released and the link starts; a slot that stayed empty is freed; a slot whose module was
powered off as unresponsive is powered again once. (R285, R286, R278, R310) -/
def Obligations.SlotCommandsAndTimers : Prop :=
  ∀ (s : State) (k : Nat) (x : SlotSt), k < 64 → s.dev.slot k = x →
    ((x.present = false ∨ s.dev.slotEnabled k = false) → ∀ c, c ∈ [Instr.slotPowerOn k, .slotPowerOff k, .slotResetPulse k] →
      exec c s = .next { s with dev := { s.dev with gl := { s.dev.gl with sbResult := 2 } } })
    ∧ (x.present = true → s.dev.slotEnabled k = true →
      (s.dev.slotHeld k = true → ∀ c, c ∈ [Instr.slotPowerOn k, .slotPowerOff k, .slotResetPulse k] →
        exec c s = .next { s with dev := { s.dev with gl := { s.dev.gl with sbResult := 1 } } })
      ∧ (s.dev.slotHeld k = false → x.blocked = false → x.pwren = false → ∃ t, exec (.slotPowerOn k) s = .next t ∧ t.fuse = s.fuse
          ∧ t.dev.slot k = { x with pwren := true, rst := true } ∧ t.dev.gl.sbResult = 0 ∧ t.dev.gl.links = s.dev.gl.links
          ∧ t.dev.butSlots = s.dev.butSlots)
      ∧ (s.dev.idleSlot k → (s.dev.link k).st ≠ .quarantine →
          (∃ t, exec (.slotPowerOff k) s = .next t ∧ t.fuse = s.fuse ∧ (t.dev.slot k).pwren = false ∧ (t.dev.slot k).admitted = false
            ∧ (t.dev.link k).st = .disabled ∧ (t.dev.link k).session = none ∧ t.dev.gl.sbResult = 0)
          ∧ (∃ t, exec (.slotResetPulse k) s = .next t ∧ t.fuse = s.fuse ∧ t.dev.slot k = { x with rst := true, pulse := true, admitted := false }
            ∧ (t.dev.link k).st = .disabled ∧ (t.dev.link k).session = none ∧ (t.dev.link k).auth = 0 ∧ t.dev.gl.sbResult = 0)))
    ∧ (x.pwren = true → x.rst = true → ∃ t, exec (.slotResetReleaseTimer k) s = .next t ∧ t.fuse = s.fuse
        ∧ t.dev.slot k = { x with rst := false, pulse := false, releasedAt := s.dev.now, reading := x.reading || x.inserting }
        ∧ ((s.dev.link k).st = .disabled → s.dev.domReady (glDom k) = true → bitOf (s.dev.csrW aGlCtrl).toNat 0 = true →
            s.dev.slotEnabled k = true → t.dev.link k = { s.dev.link k with st := .detect, since := s.dev.now })
        ∧ ((s.dev.link k).st ≠ .disabled → t.dev.link k = s.dev.link k) ∧ t.dev.butSlots = s.dev.butSlots)
    ∧ ((x.pwren = false ∨ x.rst = false) → exec (.slotResetReleaseTimer k) s = .next s)
    ∧ (x.present = false → (x.blocked = true ∨ (s.dev.link k).st = .quarantine) → ∃ t, exec (.quarantineReleaseTimer k) s = .next t
        ∧ t.fuse = s.fuse ∧ t.dev.slot k = .reset ∧ t.dev.link k = .reset ∧ t.dev.butSlots = s.dev.butSlots)
    ∧ ((x.present = true ∨ (x.blocked = false ∧ (s.dev.link k).st ≠ .quarantine)) → exec (.quarantineReleaseTimer k) s = .next s)
    ∧ (x.cycled = true → x.present = true → x.pwren = false → x.blocked = false → s.dev.slotEnabled k = true →
        bitOf s.dev.gl.busFailed.toNat (k / 8) = false → bitOf s.dev.gl.busStuck.toNat (k / 8) = false →
        ∃ t, exec (.unresponsivePowerCycle k) s = .next t ∧ t.fuse = s.fuse ∧ t.dev.butSlots = s.dev.butSlots
          ∧ t.dev.slot k = { x with cycled := false, validated := false, colo := none, outcome := 0, inserting := true, pwren := true, rst := true })
    ∧ ((x.cycled = false ∨ x.present = false ∨ x.pwren = true ∨ x.blocked = true) → exec (.unresponsivePowerCycle k) s = .next s)

/-- Insertion and removal: presence is accepted and GL_SB_CHG shows the change; in a serving mode, with insertion
enabled, an enabled slot is powered on at once (or when its bus recovers), and in IDLE after its exit; a removed
module leaves nothing of its slot and link but what blocks the slot. (R285, R287, R288, R289) -/
def Obligations.InsertionAndRemoval : Prop :=
  ∀ (s : State) (k : Nat) (x : SlotSt), k < 64 → s.dev.slot k = x →
    (x.present = false → s.dev.modes.mode ≠ .off → s.dev.modes.mode ≠ .halted → s.dev.modes.mode ≠ .holdup →
      ∃ t, exec (.slotInsertion k) s = .next t ∧ t.fuse = s.fuse ∧ t.dev.gl.changed = s.dev.gl.changed ||| BitVec.ofNat 64 (2 ^ k)
        ∧ t.dev.butSlots.butLog = s.dev.butSlots.butLog
        ∧ (bitOf (s.dev.csrW aGlCtrl).toNat 1 = false → t.dev.slot k = { x with present := true })
        ∧ (bitOf (s.dev.csrW aGlCtrl).toNat 1 = true →
          (servingMode s.dev.modes.mode = true →
            (s.dev.slotEnabled k = false → t.dev.slot k = { x with present := true, outcome := 6 })
            ∧ (s.dev.slotEnabled k = true → x.blocked = true → t.dev.slot k = { x with present := true })
            ∧ (s.dev.slotEnabled k = true → x.blocked = false →
                ((bitOf s.dev.gl.busFailed.toNat (k / 8) = true ∨ bitOf s.dev.gl.busStuck.toNat (k / 8) = true) →
                  t.dev.slot k = { x with present := true, inserting := true })
                ∧ (bitOf s.dev.gl.busFailed.toNat (k / 8) = false → bitOf s.dev.gl.busStuck.toNat (k / 8) = false → x.pwren = false →
                  t.dev.slot k = { x with present := true, inserting := true, pwren := true, rst := true })))
          ∧ (s.dev.modes.mode = .idle → t.dev.slot k = { x with present := true, inserting := true })
          ∧ (s.dev.modes.mode = .assemble → t.dev.slot k = { x with present := true })))
    ∧ (x.present = true → exec (.slotInsertion k) s = .next s)
    ∧ (x.present = true → s.dev.idleSlot k → ∃ t, exec (.slotRemoval k) s = .next t ∧ t.fuse = s.fuse
        ∧ t.dev.slot k = { SlotSt.reset with blocked := x.blocked } ∧ (t.dev.link k).eqSaved = false ∧ (t.dev.link k).oldWidth = 0
        ∧ (t.dev.link k).tags = [] ∧ (t.dev.link k).session = none)
    ∧ (x.present = false → exec (.slotRemoval k) s = .next s)

/-- A colophon read that brings no bytes, the wrong number, or none within 100 ms refuses the module with outcome 4
and check 1; a bad crc is read once more; a colophon that passes Table 10-3 validates the module with its outcome, and
one that fails refuses it. (R294, R299, R302, R303) -/
def Obligations.ColophonReads : Prop :=
  ∀ (s : State) (k : Nat) (x : SlotSt), k < 64 → s.dev.slot k = x →
    (x.reading = true →
      (s.dev.idleSlot k → ∀ (c : Instr) (b : List Byte), (c = .colophonReadDone k none ∨ (b.length ≠ 5248 ∧ c = .colophonReadDone k (some b))
            ∨ (x.releasedAt + 100000000 ≤ s.dev.now ∧ c = .colophonReadRetry k false)) →
        ∃ t, exec c s = .next t ∧ t.fuse = s.fuse ∧ (t.dev.slot k).outcome = 4 ∧ (t.dev.slot k).check = 1 ∧ (t.dev.slot k).validated = false
          ∧ (t.dev.slot k).blocked = true ∧ (t.dev.slot k).pwren = false ∧ (t.dev.slot k).admitted = false)
      ∧ (∀ b : List Byte, b.length = 5248 →
        ((⟨b⟩ : Colo).headOk = true → (⟨b⟩ : Colo).crcOk = false → x.crcAgain = false → ∃ t, exec (.colophonReadDone k (some b)) s = .next t
          ∧ t.fuse = s.fuse ∧ t.dev.slot k = { x with crcAgain := true })
        ∧ (∀ o : Nat, s.dev.judgeColo k ⟨b⟩ = (o, 0) → (s.dev.link k).st ≠ .active → ∃ t, exec (.colophonReadDone k (some b)) s = .next t
          ∧ t.fuse = s.fuse ∧ t.dev.link k = s.dev.link k
          ∧ t.dev.slot k = { x with colo := some b, crcAgain := false, reading := false, validated := true, outcome := o, check := 0 })
        ∧ (∀ o n : Nat, s.dev.judgeColo k ⟨b⟩ = (o, n) → n ≠ 0 → n ≠ 4 → s.dev.idleSlot k → ((⟨b⟩ : Colo).crcOk = true ∨ x.crcAgain = true) →
          ∃ t, exec (.colophonReadDone k (some b)) s = .next t ∧ t.fuse = s.fuse ∧ (t.dev.slot k).outcome = o ∧ (t.dev.slot k).check = n
            ∧ (t.dev.slot k).validated = false ∧ (t.dev.slot k).blocked = true ∧ (t.dev.slot k).pwren = false)))
    ∧ (x.reading = false → ∀ b : Option (List Byte), exec (.colophonReadDone k b) s = .next s)
    ∧ (∀ a : Bool, (x.reading = false ∨ a = true ∨ s.dev.now < x.releasedAt + 100000000) → exec (.colophonReadRetry k a) s = .next s)

/-- The end of ASSEMBLE: training of the last channel with fewer than 6 in service halts the boot and with 6 or more
goes on; a map restore that can't be trusted halts with the failure kept; any other is complete; without the minimum
service set the boot halts with the item that it lacks, and with it a serving mode is entered. (R354, R177, R88, R76,
R91) -/
def Obligations.AssembleEnds : Prop :=
  ∀ s : State, s.dev.modes.mode = .assemble →
    (∀ r : RestoreIn, s.dev.boot.dramDone = true → s.dev.boot.linksDone = true → s.dev.boot.mapDone = false →
      (r.sealed = false → r.scanOk = false → ∃ t, exec (.mapRestoreDone r) s = .next t ∧ t.fuse = s.fuse ∧ t.dev.modes.mode = .halted
        ∧ t.dev.modes.haltCause = 6 ∧ t.dev.boot.mapFailed = true)
      ∧ ((r.sealed = true ∨ r.scanOk = true) → ∃ t, exec (.mapRestoreDone r) s = .next t ∧ t.fuse = s.fuse ∧ t.dev.boot.mapDone = true
        ∧ t.dev.boot.mapPm = 1000 ∧ t.dev.boot.sealed = r.sealed))
    ∧ (∀ r : RestoreIn, (s.dev.boot.dramDone = false ∨ s.dev.boot.linksDone = false ∨ s.dev.boot.mapDone = true) →
        exec (.mapRestoreDone r) s = .next s)
    ∧ (s.dev.boot.mapDone = true →
      (∀ item : Nat, s.dev.minSet = some item → ∃ t, exec .assembleEntryDecision s = .next t ∧ t.fuse = s.fuse ∧ t.dev.modes.mode = .halted
        ∧ t.dev.modes.haltCause = 1 ∧ t.dev.modes.haltUnit = item)
      ∧ (s.dev.minSet = none → ∃ t, exec .assembleEntryDecision s = .next t ∧ servingMode t.dev.modes.mode = true))
    ∧ (s.dev.boot.mapDone = false → exec .assembleEntryDecision s = .next s)
    ∧ (∀ c step : Nat, (s.dev.chan c).st = .training → s.dev.boot.dramDone = false →
        (s.dev.dmc.chans.any (fun y => decide (y.1 ≠ c) && decide (y.2.st = .training))) = true → Tbl.wf s.dev.dmc.chans = true →
        ∃ t, exec (.dramTrainingDone c (.failed step)) s = .next t ∧ t.fuse = s.fuse ∧ (t.dev.chan c).st = .failed
          ∧ (t.dev.chan c).step = min 7 (max 1 step) ∧ t.dev.boot.dramDone = false ∧ t.dev.modes = s.dev.modes)
    ∧ (∀ (c : Nat) (list : Option (Digest × List Nat)) (soft : List Nat), (s.dev.chan c).st = .training → s.dev.boot.dramDone = false →
        (s.dev.dmc.chans.any (fun y => decide (y.1 ≠ c) && decide (y.2.st = .training))) = false → Tbl.wf s.dev.dmc.chans = true →
        ((s.dev.dmc.chans.filter (fun y => decide (y.2.st = .inService))).length < 5 →
          ∃ t, exec (.dramTrainingDone c (.trained list soft)) s = .next t ∧ t.fuse = s.fuse ∧ t.dev.modes.mode = .halted ∧ t.dev.modes.haltCause = 5)
        ∧ (5 ≤ (s.dev.dmc.chans.filter (fun y => decide (y.2.st = .inService))).length →
          ∃ t, exec (.dramTrainingDone c (.trained list soft)) s = .next t ∧ t.fuse = s.fuse ∧ t.dev.modes = s.dev.modes ∧ t.dev.boot.dramDone = true
            ∧ (t.dev.chan c).st = .inService ∧ c ∈ t.dev.dmc.order ∧ t.dev.dmc.used = [] ∧ t.dev.dmc.fills = []))
    ∧ (∀ (c : Nat) (r : TrainRes), (s.dev.chan c).st ≠ .training → exec (.dramTrainingDone c r) s = .next s)

/-- A grant request that is due takes the next number and is granted or waits in its rank, moving nothing but what
grants move; a burst or decode alone in the queue is granted exactly where its charge fits. A request that has waited
2 ms is counted once. (R375, R378, R379, R380) -/
def Obligations.GrantRequests : Prop :=
  ∀ s : State,
    (∀ r : OpReq, (s.dev.opsMode && s.dev.reqValid r && (!r.onSlot || s.dev.countOk r) && s.dev.asked r && (!r.onSlot || !s.dev.askedAlready r)) = true →
      (∃ t, exec (.grantRequest r) s = .next t ∧ t.fuse = s.fuse ∧ t.dev.butWork = s.dev.butWork ∧ t.dev.slu.nextId = s.dev.slu.nextId + 1
        ∧ ((∃ g, t.dev.slu.held.get? s.dev.slu.nextId = some g ∧ g.req = r ∧ g.charge = s.dev.chargeOf r)
            ∨ (⟨s.dev.slu.nextId, s.dev.now, r, false⟩ : SluWait) ∈ t.dev.slu.waiting))
      ∧ (r.onSlot = false → s.dev.slu.waiting = [] → s.dev.rankStops r = false →
        (∀ p : FloorPart × Bool, s.dev.fitPart r = some p → ∃ t, exec (.grantRequest r) s = .next t ∧ t.dev.slu.waiting = []
          ∧ t.dev.slu.held = s.dev.slu.held.ins s.dev.slu.nextId ⟨r, s.dev.chargeOf r, p.1, p.2⟩)
        ∧ (s.dev.fitPart r = none → ∃ t, exec (.grantRequest r) s = .next t ∧ t.dev.slu.held = s.dev.slu.held
          ∧ t.dev.slu.waiting = [⟨s.dev.slu.nextId, s.dev.now, r, false⟩])))
    ∧ (∀ r : OpReq, (s.dev.opsMode = false ∨ s.dev.reqValid r = false ∨ s.dev.asked r = false) → exec (.grantRequest r) s = .next s)
    ∧ (∀ (n : Nat) (w : SluWait), s.dev.slu.waiting.find? (fun w => w.id = n) = some w →
        (w.long = false → ∃ t, exec (.sluiceWaitLimit n) s = .next t ∧ t.fuse = s.fuse ∧ t.dev.slu.longs = sat 32 (s.dev.slu.longs + 1)
          ∧ t.dev.counter aSluWait 0 = sat 32 (s.dev.counter aSluWait 0 + 1) ∧ t.dev.slu.held = s.dev.slu.held ∧ { w with long := true } ∈ t.dev.slu.waiting
          ∧ ∀ y, y ∈ s.dev.slu.waiting → y.id ≠ n → y ∈ t.dev.slu.waiting)
        ∧ (w.long = true → exec (.sluiceWaitLimit n) s = .next s))
    ∧ (∀ n : Nat, s.dev.slu.waiting.find? (fun w => w.id = n) = none → exec (.sluiceWaitLimit n) s = .next s)

/-- The Buffer Pool Manager: a request granted takes a FREE buffer for its owner and is answered with its handle, one
refused leaves every buffer as it is; an accepted free starts zeroing and a rejected one changes no buffer, unless it
is the port's 16th within 1 s; a zeroed buffer is FREE and its written units are owed until they are overwritten; the
configuration locks if its checks pass. (R15, R337, R339, R340, R341, R342, R345, R346) -/
def Obligations.BufferPools : Prop :=
  ∀ s : State,
    (∀ (port owner size n : Nat) (dram : Bool), allocPool port owner dram size = .inl n →
        exec (.allocationRequest port owner dram size) s = .next { s with dev := s.dev.emit (.bpm port n 0) })
    ∧ (∀ (port owner size p : Nat) (dram : Bool), allocPool port owner dram size = .inr p →
        (s.dev.grantStatus owner p = 0 → ∃ t i, exec (.allocationRequest port owner dram size) s = .next t ∧ t.fuse = s.fuse
          ∧ (s.dev.bpm.buf p i).st = 0 ∧ t.dev.bpm.buf p i = { s.dev.bpm.buf p i with st := 1, owner := owner, holder := port, written := 0 }
          ∧ (∀ j : Nat, j ≠ bufKey p i → t.dev.bpm.bufs.get .free j = s.dev.bpm.bufs.get .free j)
          ∧ t.dev.out = .bpm port 0 (mkHandle p i 0) :: s.dev.out ∧ t.dev.slu = s.dev.slu)
        ∧ (s.dev.grantStatus owner p ≠ 0 → ∃ t, exec (.allocationRequest port owner dram size) s = .next t ∧ t.fuse = s.fuse
          ∧ t.dev.bpm.bufs = s.dev.bpm.bufs ∧ t.dev.out = .bpm port (s.dev.grantStatus owner p) 0 :: s.dev.out
          ∧ t.dev.counter (aBpmPoolFail + 4 * p) 0 = sat 32 (s.dev.counter (aBpmPoolFail + 4 * p) 0 + 1) ∧ (⟨port, owner, p⟩ : BpmWait) ∈ t.dev.bpm.waiting))
    ∧ (∀ (port : Nat) (h : W32),
        (s.dev.freeStatus port h = 0 → ∃ t, exec (.freeRequest port h) s = .next t ∧ t.fuse = s.fuse
          ∧ t.dev.bpm.buf (hPool h) (hIdx h) = { s.dev.bpm.buf (hPool h) (hIdx h) with st := 2, owner := 0, holder := 0 }
          ∧ (∀ j : Nat, j ≠ bufKey (hPool h) (hIdx h) → t.dev.bpm.bufs.get .free j = s.dev.bpm.bufs.get .free j)
          ∧ t.dev.out = .bpm port 0 h :: s.dev.out)
        ∧ (s.dev.freeStatus port h ≠ 0 → ∃ t, exec (.freeRequest port h) s = .next t ∧ t.fuse = s.fuse
          ∧ t.dev.out = .bpm port (s.dev.freeStatus port h) h :: s.dev.out ∧ t.dev.bpm.lastHandle = h ∧ t.dev.bpm.lastPort = port
          ∧ t.dev.bpm.lastReason = s.dev.freeStatus port h ∧ t.dev.counter aBpmMisfree 0 = sat 16 (s.dev.counter aBpmMisfree 0 + 1)
          ∧ ((s.dev.bpm.rejects.filter (fun x => decide (x.1 = port) && decide (s.dev.now < x.2 + 1000000000))).length < 15 →
              t.dev.bpm.bufs = s.dev.bpm.bufs)
          ∧ (15 ≤ (s.dev.bpm.rejects.filter (fun x => decide (x.1 = port) && decide (s.dev.now < x.2 + 1000000000))).length →
              Tbl.wf s.dev.bpm.bufs = true → ∀ p i : Nat, i < 2 ^ 19 → (s.dev.bpm.buf p i).st = 1 → (s.dev.bpm.buf p i).holder = port →
                (s.dev.bpm.buf p i).owner < 16 → (t.dev.bpm.buf p i).st = 2)))
    ∧ (∀ p i : Nat,
        (p < 8 → (s.dev.bpm.buf p i).st = 2 → ∃ t, exec (.zeroingDone p i) s = .next t ∧ t.fuse = s.fuse
          ∧ t.dev.bpm.buf p i = { s.dev.bpm.buf p i with
              st := 0, written := 0, owed := if p < 4 then 0 else (s.dev.bpm.buf p i).owed ||| (s.dev.bpm.buf p i).written }
          ∧ t.dev.bpm.data = (s.dev.bpm.dropData p i).data)
        ∧ ((8 ≤ p ∨ (s.dev.bpm.buf p i).st ≠ 2) → exec (.zeroingDone p i) s = .next s)
        ∧ ∀ u : Nat, u < 512 →
          (4 ≤ p → p < 8 → bitOf (s.dev.bpm.buf p i).owed u = true → ∃ t, exec (.zeroingBurstDone p i u) s = .next t ∧ t.fuse = s.fuse
            ∧ bitOf (t.dev.bpm.buf p i).owed u = false ∧ (t.dev.bpm.buf p i).st = (s.dev.bpm.buf p i).st
            ∧ (∀ v : Nat, v < 512 → v ≠ u → bitOf (t.dev.bpm.buf p i).owed v = bitOf (s.dev.bpm.buf p i).owed v) ∧ t.dev.bpm.data = s.dev.bpm.data)
          ∧ ((p < 4 ∨ bitOf (s.dev.bpm.buf p i).owed u = false) → exec (.zeroingBurstDone p i u) s = .next s))
    ∧ (s.dev.domReady 2 = true → s.dev.bpm.lock = false →
        (s.dev.cfgOk = true → ∃ t, exec .cfgLock s = .next t ∧ t.fuse = s.fuse
          ∧ t.dev.bpm = { s.dev.bpm with lock := true, error := false, dramTotal := ceilDiv s.dev.dramPools 256 })
        ∧ (s.dev.cfgOk = false → ∃ t, exec .cfgLock s = .next t ∧ t.fuse = s.fuse ∧ t.dev.bpm = { s.dev.bpm with error := true }))
    ∧ ((s.dev.domReady 2 = false ∨ s.dev.bpm.lock = true) → exec .cfgLock s = .next s)

/-- Refresh, temperature, ages and fills: an interval without a refresh owes one more and the fourth is forced; a
crossing of 85 °C doubles what is owed and one back halves it; an old request is promoted; a filled granule leaves its
slot. A cycle of the DRAM scheduler: a forced refresh goes before every request; a request alone at its rank is issued
and leaves; with none, a refresh owed is made; a request that arrives waits, and a read that touches no device does
not; an RT port that streams below its weir panics. (R357, R358, R359, R361, R366, R367) -/
def Obligations.DramCycles : Prop :=
  (∀ s : State,
      (∀ (c r : Nat) (x : DRank), s.dev.inService c = true → r < s.dev.rankCount → s.dev.rank c r = x →
        (∃ t, exec (.refreshInterval c r) s = .next t ∧ t.fuse = s.fuse
          ∧ t.dev.rank c r = { x with owed := min 7 (x.owed + 1), forced := x.forced || decide (3 ≤ x.owed) }
          ∧ t.dev.counter aDmcRefForced 0 = (if 3 ≤ x.owed ∧ x.forced = false then sat 32 (s.dev.counter aDmcRefForced 0 + 1) else s.dev.counter aDmcRefForced 0))
        ∧ (x.hot = false → ∃ t, exec (.mr4Poll c r true) s = .next t ∧ t.fuse = s.fuse
          ∧ t.dev.rank c r = { x with hot := true, owed := min 7 (2 * x.owed), forced := x.forced || decide (2 ≤ x.owed) })
        ∧ (x.hot = true → ∃ t, exec (.mr4Poll c r false) s = .next t ∧ t.fuse = s.fuse
          ∧ t.dev.rank c r = { x with hot := false, owed := (x.owed + 1) / 2 })
        ∧ (∃ t, exec (.mr4Poll c r x.hot) s = .next t ∧ t.fuse = s.fuse ∧ t.dev.rank c r = x))
      ∧ (∀ c r : Nat, (s.dev.inService c = false ∨ s.dev.rankCount ≤ r) → exec (.refreshInterval c r) s = .next s
          ∧ ∀ h : Bool, exec (.mr4Poll c r h) s = .next s)
      ∧ (∀ n : Nat, ∃ t, exec (.dramRequestAgeLimit n) s = .next t ∧ t.fuse = s.fuse ∧ t.dev.dmc.waiting.length = s.dev.dmc.waiting.length
          ∧ ∀ w, w ∈ s.dev.dmc.waiting →
            (w.req.id = n → w.req.arrival + 100 * s.dev.reg aDmcCtrl 15 8 < s.dev.now → { w with req := { w.req with promoted := true } } ∈ t.dev.dmc.waiting)
            ∧ ((w.req.id ≠ n ∨ s.dev.now ≤ w.req.arrival + 100 * s.dev.reg aDmcCtrl 15 8) → w ∈ t.dev.dmc.waiting))
      ∧ (∀ g : Nat, s.dev.dmc.fills.has g = true → ∃ t, exec (.freshGranuleFilled g) s = .next t ∧ t.fuse = s.fuse
          ∧ t.dev.dmc.fills.get? g = none ∧ g ∈ t.dev.dmc.used ∧ t.dev.dmc.fresh g = false
          ∧ ∀ j : Nat, j ≠ g → t.dev.dmc.fills.get? j = s.dev.dmc.fills.get? j ∧ t.dev.dmc.fresh j = s.dev.dmc.fresh j)
      ∧ (∀ g : Nat, s.dev.dmc.fills.has g = false → exec (.freshGranuleFilled g) s = .next s))
  ∧ (∀ (s : State) (c r : Nat) (x : DRank), s.dev.inService c = true → r < s.dev.rankCount → s.dev.rank c r = x →
      (x.forced = true → ∃ t, exec (.dramCommandCycle c 0 r [] []) s = .next t ∧ t.fuse = s.fuse
        ∧ t.dev.rank c r = { x with owed := x.owed - 1, forced := decide (1 < x.owed) } ∧ t.dev.dmc.waiting = s.dev.dmc.waiting)
      ∧ (x.forced = false → s.dev.reqsAt c 0 r = [] →
        (0 < x.owed → ∃ t, exec (.dramCommandCycle c 0 r [] []) s = .next t ∧ t.fuse = s.fuse
          ∧ t.dev.rank c r = { x with owed := x.owed - 1 } ∧ t.dev.dmc.waiting = s.dev.dmc.waiting)
        ∧ (x.owed = 0 → exec (.dramCommandCycle c 0 r [] []) s = .next s))
      ∧ (∀ (sub : Nat) (q : DReq), sub < 2 → x.forced = false → q.rank = r → s.dev.dmc.waiting = [⟨c, sub, q⟩] →
        (q.isWrite = false → ∃ t, exec (.dramCommandCycle c sub r [] []) s = .next t ∧ t.fuse = s.fuse ∧ t.dev.dmc.waiting = []
          ∧ t.dev.dmc.chans = s.dev.dmc.chans ∧ t.dev.dmc.fills = s.dev.dmc.fills)
        ∧ (q.isWrite = true → q.part = none → s.dev.reqReady c q = true → ∃ t, exec (.dramCommandCycle c sub r [] []) s = .next t ∧ t.fuse = s.fuse
          ∧ t.dev.dmc.waiting = [] ∧ q.word ∉ (t.dev.chan c).poison ∧ t.dev.dmc.fresh (s.dev.granuleOf c q.page) = false)
        ∧ (s.dev.reqReady c q = false → x.owed = 0 → ∃ t, exec (.dramCommandCycle c sub r [] []) s = .next t ∧ t.dev.dmc.waiting = [⟨c, sub, q⟩]))
      ∧ (x.forced = true → ∀ q : DReq, q.rank = r → dmcPort q.port = true → s.dev.dmc.waiting.any (fun w => w.req.id = q.id) = false →
          q.word < 64 * s.dev.localPages →
        (q.isWrite = false → s.dev.readsZero c q.page (q.word % 64) = true → exec (.dramCommandCycle c 1 r [q] []) s = .next s)
        ∧ ((q.isWrite = true ∨ s.dev.readsZero c q.page (q.word % 64) = false) → exec (.dramCommandCycle c 1 r [q] []) s
            = .next { s with dev := { s.dev with dmc := { s.dev.dmc with waiting := s.dev.dmc.waiting ++ [⟨c, 1, { q with promoted := false }⟩] } } }))
      ∧ (x.forced = true → ∀ p n : Nat, dmcPort p = true → s.dev.dclass p = .rt → (s.dev.dport p).panic = false → n < 1024 * (s.dev.dport p).weir →
          ∃ t, exec (.dramCommandCycle c 1 r [] [(p, n, true)]) s = .next t ∧ t.fuse = s.fuse ∧ (t.dev.dport p).panic = true
            ∧ (t.dev.dport p).fifo = n ∧ t.dev.counter aDmcPanic 0 = sat 32 (s.dev.counter aDmcPanic 0 + 1))
      ∧ (∀ (sub : Nat) (a : List DReq) (f : List (Nat × Nat × Bool)), 2 ≤ sub → exec (.dramCommandCycle c sub r a f) s = .next s))

/-- DRAM errors: a word that can't be corrected is counted and recorded, and one stored poisoned counted apart; data
for the host that carry the mark end the command; the patrol reads on from where it stands, poisons what it can't
correct, and ends its pass after the last word; firmware's pops and fixes: a rewrite that reads back clean is soft and
any other retires the row's pages, a retired page is redirected while the table has room, and a released one is not;
the injector arms what its mask names until it is locked. (R364, R365, R368, R369, R370, R371, R372) -/
def Obligations.DramErrorsAndRepair : Prop :=
  ∀ s : State,
    (∀ (c : Nat) (w : DWord), s.dev.inService c = true →
      (∀ (n : Nat) (rd : DramReader), rd ∈ [DramReader.other, .encode n, .core n, .mapWalk n, .journal n] →
        ∃ t, exec (.dramUncorrectableRead c w rd) s = .next t ∧ t.fuse = s.fuse ∧ t.dev.butLog = s.dev.butLog
          ∧ ((s.dev.chan c).poison.contains (64 * w.page + w.word) = true → t.dev.counter aDmcUeCnt 16 = sat 16 (s.dev.counter aDmcUeCnt 16 + 1))
          ∧ ((s.dev.chan c).poison.contains (64 * w.page + w.word) = false → t.dev.counter aDmcUeCnt 0 = sat 16 (s.dev.counter aDmcUeCnt 0 + 1)))
      ∧ (∀ (cs : Nat) (x : CSlot), s.dev.postable cs x → x.bufs = [] → x.rsv = 0 → x.reads = false →
          s.dev.rp.reads.any (fun r => decide (r.2.cs = some cs)) = false →
          ∃ t, exec (.dramUncorrectableRead c w (.hostDma cs)) s = .next t ∧ t.fuse = s.fuse ∧ t.dev.posted s.dev.out cs x cqeDataTransfer))
    ∧ (∀ (c : Nat) (w : DWord) (rd : DramReader), s.dev.inService c = false → exec (.dramUncorrectableRead c w rd) s = .next s)
    ∧ (s.dev.reg aDmcCtrl 0 0 ≠ 0 → s.dev.modes.mode ≠ .idle → s.dev.modes.mode ≠ .holdup → s.dev.dmc.order ≠ [] →
      (∀ w : Nat, s.dev.dmc.patrolNext s.dev.dmc.patrolAt = some w →
        ((s.dev.dmc.patrolNext (w + 1)).isSome = true → exec (.dramPatrolTick .clean) s
            = .next { s with dev := { s.dev with dmc := { s.dev.dmc with patrolAt := w + 1 } } })
        ∧ (s.dev.dmc.patrolNext (w + 1) = none → ∃ t, exec (.dramPatrolTick .clean) s = .next t ∧ t.fuse = s.fuse
            ∧ t.dev.dmc = { s.dev.dmc with
                patrolAt := 0, patrolSince := s.dev.now, patrolLate := decide (s.dev.dmc.patrolSince + 86400000000000 < s.dev.now) })
        ∧ ∀ c page : Nat, (s.dev.dmc.order[w / 64 % s.dev.dmc.order.length]?) = some c → page = w / 64 / s.dev.dmc.order.length →
            s.dev.readsZero c page (w % 64) = false → ∃ t, exec (.dramPatrolTick .uncorrectable) s = .next t ∧ t.fuse = s.fuse
              ∧ (64 * page + w % 64) ∈ (t.dev.chan c).poison ∧ t.dev.counter aDmcUeCnt 0 = sat 16 (s.dev.counter aDmcUeCnt 0 + 1)))
    ∧ (∀ e : EccResult, (s.dev.reg aDmcCtrl 0 0 = 0 ∨ s.dev.modes.mode = .idle ∨ s.dev.modes.mode = .holdup) → exec (.dramPatrolTick e) s = .next s)
    ∧ (∀ (v : W32) (c page : Nat), c = bitsOf v.toNat 3 0 → page = s.dev.reg aDmcFix 23 0 → bitOf v.toNat 6 = true → c ≤ 11 →
      (s.dev.inService c = true → page < s.dev.localPages →
        (bitsOf v.toNat 5 4 = 1 →
          (∃ t, exec (.dmcRewriteWord v .clean) s = .next t ∧ t.fuse = s.fuse ∧ t.dev.dmc = { s.dev.dmc with fixResult := 0 })
          ∧ ∀ e : EccResult, e ≠ .clean → ∃ t, exec (.dmcRewriteWord v e) s = .next t ∧ t.fuse = s.fuse ∧ t.dev.dmc.fixResult = 1
              ∧ ∀ p, p ∈ s.dev.rowPages page → (c, p) ∈ t.dev.dmc.retired)
        ∧ (bitsOf v.toNat 5 4 = 2 →
          ((s.dev.chan c).remap.length < 256 → ∃ t, exec (.dmcRetirePage v) s = .next t ∧ t.fuse = s.fuse ∧ t.dev.dmc.fixResult = 0
            ∧ (t.dev.chan c).remap.has page = true ∧ ∀ j, j ≠ page → (t.dev.chan c).remap.get? j = (s.dev.chan c).remap.get? j)
          ∧ (256 ≤ (s.dev.chan c).remap.length → (s.dev.chan c).remap.has page = false → ∃ t, exec (.dmcRetirePage v) s = .next t ∧ t.fuse = s.fuse
            ∧ t.dev.dmc = { s.dev.dmc with fixResult := 2 }))
        ∧ (bitsOf v.toNat 5 4 = 3 → ∃ t, exec (.dmcReleaseRemap v) s = .next t ∧ t.fuse = s.fuse ∧ t.dev.dmc.fixResult = 0
            ∧ (t.dev.chan c).remap.has page = false ∧ ∀ j, j ≠ page → (t.dev.chan c).remap.get? j = (s.dev.chan c).remap.get? j))
      ∧ (s.dev.inService c = false → ∀ (i : Instr) (e : EccResult), ((bitsOf v.toNat 5 4 = 1 ∧ i = .dmcRewriteWord v e) ∨ (bitsOf v.toNat 5 4 = 2 ∧ i = .dmcRetirePage v)
            ∨ (bitsOf v.toNat 5 4 = 3 ∧ i = .dmcReleaseRemap v)) →
          ∃ t, exec i s = .next t ∧ t.fuse = s.fuse ∧ t.dev.dmc = { s.dev.dmc with fixResult := 3 }))
    ∧ (∀ (c : Nat) (e : CeEnt) (l : List CeEnt), (s.dev.chan c).log = e :: l →
        ∃ t, exec (.ceLogPop c) s = .next t ∧ t.fuse = s.fuse ∧ (t.dev.chan c).log = l
          ∧ (⟨s.dev.now, c, e.w.rank, e.w.rowKey, 10 * e.w.subch + e.dev⟩ : CeSeen) ∈ t.dev.dmc.seen
          ∧ (s.dev.dmc.devFailed.contains (2 * c + e.w.rank, 10 * e.w.subch + e.dev) = false → s.dev.dmc.seen.length ≤ 15 →
              s.dev.dmc.seen.any (fun x => decide (s.dev.now ≤ x.time + 86400000000000) && decide (x.ch = c) && decide (x.rank = e.w.rank)
                && decide (x.row = e.w.rowKey) && decide (x.dev / 10 = e.w.subch)) = true →
              ∀ p, p ∈ s.dev.rowPages e.w.page → (c, p) ∈ t.dev.dmc.retired))
    ∧ (∀ c : Nat, (s.dev.chan c).log = [] → exec (.ceLogPop c) s = .next s)
    ∧ (s.dev.injLocked = false → ∃ t, exec .injectArm s = .next t ∧ t.fuse = s.fuse ∧ t.dev.csr = s.dev.csr
        ∧ (t.dev.dmc.armed0 = true ↔ ((s.dev.csrW aDmcInjMask).toNat ≠ 0 ∨ (s.dev.csrW (aDmcInjMask + 4)).toNat % 256 ≠ 0))
        ∧ (t.dev.dmc.armed1 = true ↔ ((s.dev.csrW (aDmcInjMask + 4)).toNat / 256 ≠ 0 ∨ s.dev.reg (aDmcInjMask + 8) 15 0 ≠ 0)))
    ∧ (s.dev.injLocked = true → exec .injectArm s = .next s)
    ∧ (∃ t, exec .injectLock s = .next t ∧ t.fuse = s.fuse ∧ t.dev.injLocked = true ∧ t.dev.dmc.armed0 = false ∧ t.dev.dmc.armed1 = false)

/-- Lockstep pairs: a pair that disagrees is fenced and self-tested, the taker takes its tasks over, and with none
able to the device halts with cause 0x07; a takeover ends with the taker active; a pair that passes with fewer than 3
mismatches in 24 h serves again, any other is retired; the standby's test takes it from service. (R409, R410, R411,
R412, R413, R34) -/
def Obligations.LockstepPairs : Prop :=
  ∀ (s : State) (k : Nat) (x : LPair), k < 8 → s.dev.lp k = x →
    (pairsRun s.dev.modes.mode = true →
      (x.st = .standby → ∃ t, exec (.lockstepMismatch k) s = .next t ∧ t.fuse = s.fuse ∧ (t.dev.lp k).st = .selfTest ∧ t.dev.fc.last = k)
      ∧ ((x.st = .active ∨ x.st = .taking) →
        (∀ j : Nat, s.dev.taker k = some j → ∃ t, exec (.lockstepMismatch k) s = .next t ∧ t.fuse = s.fuse ∧ j ≠ k
          ∧ (t.dev.lp k).st = .selfTest ∧ (t.dev.lp j).st = .taking ∧ (t.dev.lp j).takes = some (x.takes.getD k) ∧ t.dev.fc.last = k)
        ∧ (s.dev.taker k = none → ∃ t, exec (.lockstepMismatch k) s = .next t ∧ t.fuse = s.fuse ∧ t.dev.modes.mode = .halted
          ∧ t.dev.modes.haltCause = 7)))
    ∧ ((pairsRun s.dev.modes.mode = false ∨ x.st = .off ∨ x.st = .selfTest ∨ x.st = .retired) → exec (.lockstepMismatch k) s = .next s)
    ∧ (x.st = .taking → (s.dev.dom (tcDom k)).st = .on → ∃ t, exec (.takeoverComplete k) s = .next t ∧ t.fuse = s.fuse
        ∧ t.dev.lp k = { x with st := .active, takes := none })
    ∧ ((x.st ≠ .taking ∨ (s.dev.dom (tcDom k)).st ≠ .on) → exec (.takeoverComplete k) s = .next s)
    ∧ (x.st = .selfTest →
      ((x.misses.filter (fun m => decide (s.dev.now < m + dayNs))).length < 3 → s.dev.domUsable (tcDom k) = true →
        ∃ t, exec (.pairSelfTestDone k true) s = .next t ∧ t.fuse = s.fuse ∧ ((t.dev.lp k).st = .active ∨ (t.dev.lp k).st = .standby)
          ∧ (t.dev.lp k).misses = x.misses)
      ∧ (∀ ok : Bool, (ok = false ∨ 3 ≤ (x.misses.filter (fun m => decide (s.dev.now < m + dayNs))).length) →
        (∃ t, exec (.pairSelfTestDone k ok) s = .next t ∧ t.fuse = s.fuse ∧ (t.dev.lp k).st = .retired)
        ∧ (s.dev.modes.mode ≠ .off → s.dev.modes.mode ≠ .halted → (∀ j, j < 8 → j ≠ k → (s.dev.lp j).st = .retired) →
          ∃ t, exec (.pairSelfTestDone k ok) s = .next t ∧ t.fuse = s.fuse ∧ t.dev.modes.mode = .halted ∧ t.dev.modes.haltCause = 7)))
    ∧ (x.st ≠ .selfTest → ∀ ok : Bool, exec (.pairSelfTestDone k ok) s = .next s)
    ∧ (s.dev.standby = some k → ∃ t, exec .standbyTestDue s = .next t ∧ t.fuse = s.fuse ∧ (t.dev.lp k).st = .selfTest)
    ∧ (s.dev.standby = none → exec .standbyTestDue s = .next s)

/-- The Warden's own mismatch halts the device and sets CSTS.CFS; an engine's operation is run again, and a third
disagreement of a unit within 1 ms makes its domain fail; an audit of the books evaluates the promise and records what
does not hold; an access that reaches no register is recorded and changes nothing else. (R402, R404, R405, R415, R11,
R13) -/
def Obligations.MismatchesAndAudit : Prop :=
  ∀ s : State,
    (s.dev.modes.mode ≠ .off → s.dev.modes.mode ≠ .halted → ∃ t, exec .wardenMismatch s = .next t ∧ t.fuse = s.fuse ∧ t.dev.modes.mode = .halted
      ∧ t.dev.modes.haltCause = 8 ∧ ∀ p : Port, (t.dev.fnst (.pf p)).cfs = true)
    ∧ ((s.dev.modes.mode = .off ∨ s.dev.modes.mode = .halted) → exec .wardenMismatch s = .next s)
    ∧ (∀ u : EngineUnit, 2 ≤ u.dom → u.dom ≤ 35 → (s.dev.dom u.dom).st ≠ .off →
      (((s.dev.fc.engines.get [] (256 * u.dom + u.unit % 256)).filter (fun m => decide (s.dev.now < m + msNs))).length < 2 →
        ∃ t, exec (.engineMismatch u) s = .next t ∧ t.fuse = s.fuse ∧ t.dev.butLog = { s.dev with fc := t.dev.fc }.butLog
          ∧ t.dev.fc.engines.get [] (256 * u.dom + u.unit % 256)
            = s.dev.now :: (s.dev.fc.engines.get [] (256 * u.dom + u.unit % 256)).filter (fun m => decide (s.dev.now < m + msNs)))
      ∧ (2 ≤ ((s.dev.fc.engines.get [] (256 * u.dom + u.unit % 256)).filter (fun m => decide (s.dev.now < m + msNs))).length →
          s.dev.modes.mode ≠ .off → (s.dev.dom u.dom).failed = false →
          (13 ≤ u.dom → u.dom ≤ 20 → ∀ i, i < 8 → (s.dev.slot (8 * (u.dom - 13) + i)).admitted = false) →
        ∃ t, exec (.engineMismatch u) s = .next t ∧ t.fuse = s.fuse ∧ (t.dev.dom u.dom).failed = true ∧ (t.dev.dom u.dom).st = .off))
    ∧ (∀ u : EngineUnit, (u.dom < 2 ∨ 35 < u.dom ∨ (s.dev.dom u.dom).st = .off) → exec (.engineMismatch u) s = .next s)
    ∧ (s.dev.domReady 2 = true → ∃ t, exec .booksAudit s = .next t ∧ t.fuse = s.fuse
        ∧ t.dev.butLog = { s.dev with modes := { s.dev.modes with promise := s.dev.promiseBits } }.butLog)
    ∧ (s.dev.domReady 2 = false → exec .booksAudit s = .next s)
    ∧ (∀ (q : Requester) (a : Nat) (w : Bool),
        (∃ t, exec (.csrUnassignedAccess q a w) s = .next t ∧ t.fuse = s.fuse ∧ t.dev.butLog = s.dev.butLog)
        ∧ ((s.dev.modes.mode = .off ∨ csrAssigned a = true) → exec (.csrUnassignedAccess q a w) s = .next s)
        ∧ (∃ t, exec (.csrDomainOffAccess q a w) s = .next t ∧ t.fuse = s.fuse ∧ t.dev.butLog = s.dev.butLog)
        ∧ ((s.dev.modes.mode = .off ∨ csrAssigned a = false ∨ s.dev.domDark (s.dev.csrDomain a) = false) →
            exec (.csrDomainOffAccess q a w) s = .next s)
        ∧ (s.dev.modes.mode ≠ .off → csrAssigned a = false → s.dev.evl.queues = [] → s.dev.evl.supp = [] →
            ∃ t, exec (.csrUnassignedAccess q a w) s = .next t
              ∧ t.dev.evl.queues = [⟨evWdnCsrUnassigned, 16 * codeSub evWdnCsrUnassigned, s.dev.now, payloadOf [.num 4 a, .num 1 q.num]⟩]))

/-- SPDM's negotiation and what needs no session: GET_VERSION starts it afresh, each step needs the one before,
everything later answers Busy until the Boot Colophon is signed; a port whose link is down hears nothing. (R64, R71,
R103, R476) -/
def Obligations.SpdmNegotiation : Prop :=
  ∀ (s : State) (via : SpdmVia) (m : SpdmReq),
    (s.dev.spdmHears via = false → ∀ c, c ∈ [Instr.spdmGetVersion via m, .spdmGetCapabilities via m, .spdmNegotiateAlgorithms via m,
        .spdmGetDigests via m, .spdmGetCertificate via m, .spdmChallenge via m, .spdmGetMeasurements via m, .spdmKeyExchange via m, .spdmFinish via m,
        .spdmHeartbeat via m, .spdmKeyUpdate via m, .spdmEndSession via m] → exec c s = .next s)
    ∧ (s.dev.spdmHears via = true →
      (m.version = 0x10 → ∃ t, exec (.spdmGetVersion via m) s = .next t ∧ t.fuse = s.fuse ∧ t.dev.spdm via = { s.dev.spdm via with phase := 1 }
        ∧ t.dev.out = .spdm via.port 0x04 (leBytes 3 0 ++ leBytes 1 1 ++ leBytes 2 0x1300) :: s.dev.out)
      ∧ (m.version ≠ 0x10 → exec (.spdmGetVersion via m) s = .next { s with dev := s.dev.spdmError via 0x41 })
      ∧ (m.version = 0x13 →
        (1 ≤ (s.dev.spdm via).phase → ∃ t b, exec (.spdmGetCapabilities via m) s = .next t ∧ t.fuse = s.fuse
          ∧ t.dev.spdm via = { s.dev.spdm via with phase := 2 } ∧ t.dev.out = .spdm via.port 0x61 b :: s.dev.out)
        ∧ ((s.dev.spdm via).phase = 0 → exec (.spdmGetCapabilities via m) s = .next { s with dev := s.dev.spdmError via 0x04 })
        ∧ (2 ≤ (s.dev.spdm via).phase → ∃ t b, exec (.spdmNegotiateAlgorithms via m) s = .next t ∧ t.fuse = s.fuse
          ∧ t.dev.spdm via = { s.dev.spdm via with phase := 3 } ∧ t.dev.out = .spdm via.port 0x63 b :: s.dev.out)
        ∧ ((s.dev.spdm via).phase < 2 → exec (.spdmNegotiateAlgorithms via m) s = .next { s with dev := s.dev.spdmError via 0x04 }))
      ∧ (s.dev.bcol.signed = false → ∀ c, c ∈ [Instr.spdmGetDigests via m, .spdmGetCertificate via m, .spdmChallenge via m, .spdmGetMeasurements via m,
          .spdmKeyExchange via m, .spdmFinish via m, .spdmHeartbeat via m, .spdmKeyUpdate via m, .spdmEndSession via m] →
            exec c s = .next { s with dev := s.dev.spdmError via 0x03 })
      ∧ (s.dev.bcol.signed = true → m.version = 0x13 → 3 ≤ (s.dev.spdm via).phase → m.session = none →
        (exec (.spdmGetDigests via m) s
          = .next { s with dev := s.dev.spdmAnswer via 0x01 (leBytes 1 1 ++ leBytes 1 1 ++ digestBytes (Config.sha384 s.dev.spdmChain)) })
        ∧ (m.param1 % 16 = 0 → fieldAt m.body 0 2 < s.dev.spdmChain.length → fieldAt m.body 0 2 + fieldAt m.body 2 2 ≤ s.dev.spdmChain.length →
          ∃ t h, exec (.spdmGetCertificate via m) s = .next t ∧ t.fuse = s.fuse
            ∧ t.dev.out = .spdm via.port 0x02 (h ++ slice s.dev.spdmChain (fieldAt m.body 0 2) (fieldAt m.body 2 2)) :: s.dev.out ∧ h.length = 6)
        ∧ (m.param1 % 16 ≠ 0 → exec (.spdmGetCertificate via m) s = .next { s with dev := s.dev.spdmError via 0x01 }
          ∧ exec (.spdmChallenge via m) s = .next { s with dev := s.dev.spdmError via 0x01 })
        ∧ (m.param1 % 16 = 0 → ∃ t b, exec (.spdmChallenge via m) s = .next t ∧ t.fuse = s.fuse
          ∧ t.dev = { s.dev with free := s.dev.free + 1, out := .spdm via.port 0x03 b :: s.dev.out })
        ∧ (bitOf m.param1 0 = false → (m.param2 = 0 ∨ m.param2 = 0xFF ∨ m.param2 ∈ measureIdx) → ∃ t b, exec (.spdmGetMeasurements via m) s = .next t
          ∧ t.fuse = s.fuse ∧ t.dev = { s.dev with free := s.dev.free + 1, out := .spdm via.port 0x60 b :: s.dev.out })
        ∧ (m.param2 ≠ 0 → m.param2 ≠ 0xFF → m.param2 ∉ measureIdx →
            exec (.spdmGetMeasurements via m) s = .next { s with dev := s.dev.spdmError via 0x01 })))

/-- SPDM sessions and what they carry: KEY_EXCHANGE opens one in its handshake while one is free, FINISH establishes
it, HEARTBEAT keeps it, KEY_UPDATE counts, END_SESSION closes it, and a message whose authentication fails ends it;
IDE keys go to a stream only in an established session of a port, and an IDE check that fails makes its stream
insecure. (R102, R103) -/
def Obligations.SpdmSessionsAndIde : Prop :=
  ∀ s : State,
    (∀ (via : SpdmVia) (m : SpdmReq), s.dev.spdmHears via = true → s.dev.bcol.signed = true → m.version = 0x13 → 3 ≤ (s.dev.spdm via).phase →
    (m.session = none → m.param2 % 16 = 0 →
      ((s.dev.spdm via).sessions.length < via.limit → ∃ t n, exec (.spdmKeyExchange via m) s = .next t ∧ t.fuse = s.fuse
        ∧ (s.dev.spdm via).sessions.get? n = none ∧ t.dev.spdm via = { s.dev.spdm via with sessions := (s.dev.spdm via).sessions.ins n ⟨.handshaking, 0⟩ })
      ∧ (via.limit ≤ (s.dev.spdm via).sessions.length → exec (.spdmKeyExchange via m) s = .next { s with dev := s.dev.spdmError via 0x0A }))
    ∧ (∀ (n : Nat) (y : Sess), m.session = some n → (s.dev.spdm via).sessions.get? n = some y →
      (m.authOk = true → y.st = .handshaking → ∃ t, exec (.spdmFinish via m) s = .next t ∧ t.fuse = s.fuse
        ∧ t.dev.spdm via = { s.dev.spdm via with sessions := (s.dev.spdm via).sessions.ins n ⟨.established, 0⟩ })
      ∧ (m.authOk = true → y.st = .established →
        exec (.spdmHeartbeat via m) s = .next { s with dev := s.dev.spdmAnswer via 0x68 (leBytes 2 0) }
        ∧ (1 ≤ m.param1 → m.param1 ≤ 2 → ∃ t, exec (.spdmKeyUpdate via m) s = .next t ∧ t.fuse = s.fuse
          ∧ (t.dev.spdm via).sessions.get? n = some { y with updates := y.updates + 1 })
        ∧ (∃ t, exec (.spdmEndSession via m) s = .next t ∧ t.fuse = s.fuse ∧ (t.dev.spdm via).sessions.get? n = none
          ∧ t.dev.out = .spdm via.port 0x6C (leBytes 2 0) :: s.dev.out))
      ∧ (m.authOk = false → ∀ c, c ∈ [Instr.spdmFinish via m, .spdmHeartbeat via m, .spdmKeyUpdate via m, .spdmEndSession via m] →
          ∃ t, exec c s = .next t ∧ t.fuse = s.fuse ∧ (t.dev.spdm via).sessions.get? n = none
            ∧ t.dev.out = .spdm via.port 0x7F (leBytes 1 0x06 ++ leBytes 1 0) :: s.dev.out))
    )
    ∧ (∀ (via : SpdmVia), s.dev.spdmHears via = true → s.dev.bcol.signed = true →
    (∀ (p : Port) (i : IdeKm) (n : Nat), via = .doe p → i.session = some n → ((s.dev.spdm via).sessions.get? n).map (·.st) = some .established →
        i.stream ≤ 4 →
      (i.op = .keyProg → i.keySet ≤ 1 → i.sub ≤ 2 → i.keyOk = true → (s.dev.hport p).stream i.stream = .insecure →
        ∃ t, exec (.ideKmRequest via i) s = .next t ∧ t.fuse = s.fuse ∧ (t.dev.hport p).stream i.stream = .keyed
          ∧ (t.dev.hport p).spdm = (s.dev.hport p).spdm)
      ∧ (i.op = .setGo → (s.dev.hport p).stream i.stream ≠ .insecure → ∃ t, exec (.ideKmRequest via i) s = .next t ∧ t.fuse = s.fuse
          ∧ (t.dev.hport p).stream i.stream = .secure)
      ∧ (i.op = .setStop → ∃ t, exec (.ideKmRequest via i) s = .next t ∧ t.fuse = s.fuse ∧ (t.dev.hport p).stream i.stream = .insecure))
    ∧ (∀ i : IdeKm, via = .mctp → exec (.ideKmRequest via i) s = .next { s with dev := s.dev.spdmError .mctp 0x07 })
    ∧ (∀ (p : Port) (i : IdeKm), via = .doe p → i.session = none → exec (.ideKmRequest via i) s = .next { s with dev := s.dev.spdmError via 0x04 })
    )
    ∧ (∀ (p : Port) (n : Nat),
        ((s.dev.hport p).dl = true → (s.dev.hport p).stream n = .secure →
          (∃ t, exec (.ideCheckFailed p n none) s = .next t ∧ t.fuse = s.fuse ∧ (t.dev.hport p).stream n = .insecure ∧ t.dev.hg = s.dev.hg)
          ∧ ∀ (cs : Nat) (x : CSlot), s.dev.postable cs x → (x.st = .fetched ∨ x.st = .paced) → x.bufs = [] → x.rsv = 0 → x.reads = false →
              s.dev.rp.reads.any (fun r => decide (r.2.cs = some cs)) = false →
              ∃ t, exec (.ideCheckFailed p n (some cs)) s = .next t ∧ t.fuse = s.fuse ∧ (t.dev.hport p).stream n = .insecure
                ∧ t.dev.posted s.dev.out cs x cqeDataTransfer)
        ∧ (((s.dev.hport p).dl = false ∨ (s.dev.hport p).stream n ≠ .secure) → ∀ cs : Option Nat, exec (.ideCheckFailed p n cs) s = .next s))

/-- The management bus and NVMe-MI over MCTP: the endpoint ID and the I3C address are taken, the five commands of the
subset answer, the health poll shows the mode and clears the pending change, DORMANT serves that poll alone, and a
Configuration Set of a value outside its range changes nothing. (R120, R121) -/
def Obligations.ManagementBus : Prop :=
  ∀ s : State, s.dev.modes.mode ≠ .off →
    (∀ n : Nat,
      (1 ≤ n → n < 0xFF → ∃ t, exec (.mctpSetEndpointId n) s = .next t ∧ t.fuse = s.fuse ∧ t.dev.mgmt = { s.dev.mgmt with eid := n })
      ∧ ((n = 0 ∨ 0xFF ≤ n) → ∃ t, exec (.mctpSetEndpointId n) s = .next t ∧ t.fuse = s.fuse ∧ t.dev.mgmt = s.dev.mgmt)
      ∧ (s.dev.mgmt.i3cAddr = none → n ≤ 0x7F → exec (.i3cEntdaa n) s = .next { s with dev := { s.dev with mgmt := { s.dev.mgmt with i3cAddr := some n } } })
      ∧ ((s.dev.mgmt.i3cAddr.isSome = true ∨ 0x7F < n) → exec (.i3cEntdaa n) s = .next s))
    ∧ (∀ m : MiReq,
      (∃ t b, exec (.miSubsystemHealthPoll .mctp m) s = .next t ∧ t.fuse = s.fuse ∧ t.dev.out = .mi 0 b :: s.dev.out
        ∧ b[9]? = some (BitVec.ofNat 8 (modeCode s.dev.modes.mode))
        ∧ (bitOf m.dw1.toNat 31 = true → t.dev.mgmt.health = 0 ∧ t.dev.pins.mgmtAlert = false)
        ∧ (bitOf m.dw1.toNat 31 = false → t.dev.mgmt = s.dev.mgmt ∧ t.dev.pins = s.dev.pins))
      ∧ (s.dev.modes.mode = .dormant → ∀ c, c ∈ [Instr.miReadDataStructure .mctp m, .miControllerHealthPoll .mctp m, .miConfigurationSet .mctp m,
          .miConfigurationGet .mctp m] → exec c s = .next s)
      ∧ (s.dev.modes.mode ≠ .dormant →
        (∃ t n b, exec (.miReadDataStructure .mctp m) s = .next t ∧ t.fuse = s.fuse ∧ t.dev = s.dev.emit (.mi n b)
          ∧ (4 < bitsOf m.dw0.toNat 31 24 → n = 4) ∧ ((bitsOf m.dw0.toNat 31 24 = 0 ∨ bitsOf m.dw0.toNat 31 24 = 2) → n = 0))
        ∧ (∃ t b, exec (.miControllerHealthPoll .mctp m) s = .next t ∧ t.fuse = s.fuse ∧ t.dev.out = .mi 0 b :: s.dev.out
          ∧ (bitOf m.dw1.toNat 31 = false → t.dev.mgmt = s.dev.mgmt))
        ∧ (bitsOf m.dw0.toNat 7 0 = 1 → 1 ≤ bitsOf m.dw0.toNat 11 8 → bitsOf m.dw0.toNat 11 8 ≤ 3 →
            ∃ t b, exec (.miConfigurationSet .mctp m) s = .next t ∧ t.fuse = s.fuse
              ∧ t.dev = { s.dev with mgmt := { s.dev.mgmt with freq := bitsOf m.dw0.toNat 11 8 }, out := .mi 0 b :: s.dev.out })
        ∧ (bitsOf m.dw0.toNat 7 0 = 3 → 64 ≤ bitsOf m.dw1.toNat 15 0 → bitsOf m.dw1.toNat 15 0 ≤ 250 →
            ∃ t b, exec (.miConfigurationSet .mctp m) s = .next t ∧ t.fuse = s.fuse
              ∧ t.dev = { s.dev with mgmt := { s.dev.mgmt with mtu := bitsOf m.dw1.toNat 15 0 }, out := .mi 0 b :: s.dev.out })
        ∧ (bitsOf m.dw0.toNat 7 0 = 2 → ∃ t, exec (.miConfigurationSet .mctp m) s = .next t ∧ t.fuse = s.fuse
            ∧ t.dev.mgmt = { s.dev.mgmt with healthEn := m.dw1.toNat }
            ∧ (t.dev.pins.mgmtAlert = true ↔ (s.dev.mgmt.health ≠ 0 ∧ m.dw1.toNat ≠ 0)))
        ∧ (((bitsOf m.dw0.toNat 7 0 = 1 ∧ 3 < bitsOf m.dw0.toNat 11 8) ∨ (bitsOf m.dw0.toNat 7 0 = 3 ∧ 250 < bitsOf m.dw1.toNat 15 0)
              ∨ 3 < bitsOf m.dw0.toNat 7 0 ∨ bitsOf m.dw0.toNat 7 0 = 0) →
            ∃ t b, exec (.miConfigurationSet .mctp m) s = .next t ∧ t.dev = s.dev.emit (.mi 4 b))
        ∧ (bitsOf m.dw0.toNat 7 0 = 3 → exec (.miConfigurationGet .mctp m) s = .next { s with dev := s.dev.emit (.mi 0 (leBytes 3 s.dev.mgmt.mtu ++ [])) })))
    ∧ (∀ (m : MiReq) (cs : Nat) (x : CSlot), s.dev.hg.slots.get? cs = some x →
        (bitsOf (x.dw 11) 7 0 ≠ 0 → exec (.miReadDataStructure (.inBand cs) m) s = .next s)
        ∧ (bitsOf (x.dw 11) 7 0 = 0 → x.opcode = 0x1E → exec (.miReadDataStructure (.inBand cs) m) s = exec (.nvmeMiReceive cs) s))

/-- The JTAG port: each instruction is loaded and shifts out its data register; EXTEST, CLAMP and HIGHZ take effect
only while POR_N is asserted, and are BYPASS otherwise. Register writes: an assigned register of plain fields takes
the bits that its RW fields cover, and its RWL fields while their lock is open, unless a field is out of its range,
which leaves it and is recorded; a write that reaches no register changes nothing; the configuration space's items
take theirs. (R471, R9, R10, R11, R13, R96, R101) -/
def Obligations.JtagAndRegisterWrites : Prop :=
  (∀ s : State,
      exec .jtagBypass s = .next { s with dev := { s.dev with jtag := { s.dev.jtag with instr := .bypass, dr := 0 }, out := .tdo 0 :: s.dev.out } }
      ∧ exec .jtagIdcode s = .next { s with dev := { s.dev with
          jtag := { s.dev.jtag with instr := .idcode, dr := jtagId }, out := .tdo jtagId :: s.dev.out } }
      ∧ (∀ x y : BitVec 64, exec (.jtagSamplePreload x y) s = .next { s with dev := { s.dev with
          jtag := ⟨.samplePreload, x, y⟩, out := .tdo x :: s.dev.out } })
      ∧ (s.dev.pins.por = true →
        exec .jtagExtest s = .next { s with dev := { s.dev with
          jtag := { s.dev.jtag with instr := .extest, dr := s.dev.jtag.chain }, out := .tdo s.dev.jtag.chain :: s.dev.out } }
        ∧ exec .jtagClamp s = .next { s with dev := { s.dev with jtag := { s.dev.jtag with instr := .clamp, dr := 0 }, out := .tdo 0 :: s.dev.out } }
        ∧ exec .jtagHighz s = .next { s with dev := { s.dev with jtag := { s.dev.jtag with instr := .highz, dr := 0 }, out := .tdo 0 :: s.dev.out } })
      ∧ (s.dev.pins.por = false → ∀ c, c ∈ [Instr.jtagExtest, .jtagClamp, .jtagHighz] → exec c s = exec .jtagBypass s))
  ∧ (∀ (s : State) (v : W32), s.dev.modes.mode ≠ .off →
      (∀ (q : Requester) (a : Nat) (r : RegDesc), a ∈ [aHgSlotAdmin, aTcLpCkpt, aGlCtrl, aGlTimer, aRpCtrl, aLadderCtrl, aDmcCtrl, aSluCharge] →
          regDesc a = some r → s.dev.domDark (s.dev.csrDomain a) = false →
        (csrInRange a v.toNat = true → ∃ t, exec (.registerWrite (.csr q a) v) s = .next t ∧ t.fuse = s.fuse ∧ t.dev = { s.dev with csr := t.dev.csr }
          ∧ t.dev.csrW a = mergeWord r (s.dev.rwlLocked a) (s.dev.csrW a) v ∧ ∀ b : Nat, b ≠ a → t.dev.csrW b = s.dev.csrW b)
        ∧ (csrInRange a v.toNat = false → ∃ t, exec (.registerWrite (.csr q a) v) s = .next t ∧ t.fuse = s.fuse ∧ t.dev.butLog = s.dev.butLog))
      ∧ (∀ (q : Requester) (a : Nat), (csrAssigned a = false ∨ s.dev.domDark (s.dev.csrDomain a) = true) →
          ∃ t, exec (.registerWrite (.csr q a) v) s = .next t ∧ t.fuse = s.fuse ∧ t.dev.butLog = s.dev.butLog)
      ∧ (∀ f : Fn,
        (s.dev.fnUp f = true →
          exec (.registerWrite (.busMaster f) v) s = .next { s with dev := s.dev.modFn f (fun x => { x with bme := bitOf v.toNat 0 }) }
          ∧ exec (.registerWrite (.msixEnable f) v) s = .next { s with dev := s.dev.modFn f (fun x => { x with msix := bitOf v.toNat 0 }) }
          ∧ (∃ t, exec (.registerWrite (.bar0 f 0x24) v) s = .next t ∧ t.fuse = s.fuse ∧ (t.dev.fnst f).aqa = v &&& 0x0FFF0FFF#32)
          ∧ (∀ vec : Nat, vec ≤ 16 → bitOf v.toNat 0 = true → ∃ t, exec (.registerWrite (.msixMask f vec) v) s = .next t ∧ t.fuse = s.fuse
              ∧ vec ∈ (t.dev.fnst f).msixMask ∧ t.dev.out = s.dev.out)
          ∧ (∀ vec : Nat, vec ≤ 16 → bitOf v.toNat 0 = false → vec ∈ (s.dev.fnst f).pba → (s.dev.fnst f).bme = true → (s.dev.fnst f).msix = true →
              ∃ t, exec (.registerWrite (.msixMask f vec) v) s = .next t ∧ t.fuse = s.fuse ∧ vec ∉ (t.dev.fnst f).msixMask
                ∧ vec ∉ (t.dev.fnst f).pba ∧ t.dev.out = .msix f vec :: s.dev.out))
        ∧ (s.dev.fnUp f = false → ∀ o : Nat, exec (.registerWrite (.bar0 f o) v) s = .next s ∧ exec (.registerWrite (.busMaster f) v) s = .next s))
      ∧ (∀ p : Port, (s.dev.hport p).dl = true →
        ((s.dev.hport p).vfEn = false → v.toNat ≤ 512 →
          exec (.registerWrite (.numVfs p) v) s = .next { s with dev := s.dev.modPort p (fun h => { h with numVfs := v.toNat }) })
        ∧ ((s.dev.hport p).vfEn = true ∨ 512 < v.toNat → exec (.registerWrite (.numVfs p) v) s = .next s)
        ∧ (bitOf v.toNat 0 = true → ∃ t, exec (.registerWrite (.vfEnable p) v) s = .next t ∧ t.fuse = s.fuse ∧ (t.dev.hport p).vfEn = true
            ∧ t.dev.fns = s.dev.fns)
        ∧ exec (.registerWrite (.msiEnable p) v) s = .next { s with dev := s.dev.modFn (.pf p) (fun x => { x with msi := bitOf v.toNat 0 }) }))

/-- A step takes the command at the front of the queue and is that command's effect on everything else, with the rest
of the queue. With none waiting, time passes by one tick of the AON clock, unless the device is OFF (the model's
choice: log entry 2). (R32, R417) -/
def Obligations.StepRunsFront : Prop :=
  (∀ (c : Instr) (s : State), step { s with pending := c :: s.pending } = exec c s)
  ∧ (∀ s : State, s.pending = [] → s.dev.modes.mode = .off → step s = .next s)
  ∧ (∀ s : State, s.pending = [] → s.dev.modes.mode ≠ .off → ∃ t, step s = .next t ∧ t.fuse = s.fuse ∧ t.pending = []
      ∧ t.dev.clk.ns64 = s.dev.clk.ns64 + 1953125 ∧ t.dev.modes = s.dev.modes ∧ t.dev.csr = s.dev.csr)

/-- No command touches the queue: the commands that wait are the same after it. Every step keeps the fuses formed.
Fuses only burn: whatever step is taken, in any mode, an owner slot that is enrolled stays enrolled under the same
keys, one that is revoked stays revoked, the minimum SVN never falls, and no SVN fuse is unblown. (R2, R56, R58) -/
def Obligations.FusesAndQueueKept : Prop :=
  (∀ (c : Instr) (s t : State), exec c s = .next t → t.pending = s.pending)
  ∧ (∀ s t : State, s.fuse.formed → step s = .next t → t.fuse.formed)
  ∧ (∀ s t : State, step s = .next t →
      (∀ k : Nat, (s.fuse.owner k).enrolled = true → (t.fuse.owner k).enrolled = true ∧ (t.fuse.owner k).ecdsa = (s.fuse.owner k).ecdsa
        ∧ (t.fuse.owner k).mldsa = (s.fuse.owner k).mldsa)
      ∧ (∀ k : Nat, (s.fuse.owner k).revoked = true → (t.fuse.owner k).revoked = true)
      ∧ (∀ i : Nat, s.fuse.svn.getLsbD i = true → t.fuse.svn.getLsbD i = true) ∧ s.fuse.minSvn ≤ t.fuse.minSvn
      ∧ t.fuse.set0Revoked = s.fuse.set0Revoked ∧ t.fuse.injLock = s.fuse.injLock ∧ t.fuse.jtagLock = s.fuse.jtagLock)

/-- The state after reset: OFF, with POR_N and both PERST asserted, nothing waiting, every domain OFF, no slot, queue
or function in use, the fuses formed; and reading: an unassigned address and a register of a dark domain return 0, a
function that is not up reads as all ones, an RC field clears on the read that returns it, and WDN_MODE shows the
mode. (R8, R9, R10, R13, R45, R466) -/
def Obligations.ResetAndReads : Prop :=
  State.reset.pending = [] ∧ State.reset.dev.modes.mode = .off ∧ State.reset.dev.pins.por = true ∧ State.reset.dev.pins.perstA = true
  ∧ State.reset.dev.pins.perstB = true ∧ (∀ k : Nat, k ≠ 0 → (State.reset.dev.dom k).st = .off) ∧ State.reset.dev.hg.slots = []
  ∧ State.reset.dev.evl.queues = [] ∧ State.reset.dev.csr = [] ∧ (∀ f : Fn, (State.reset.dev.fnst f).rdy = false)
  ∧ State.reset.fuse.formed
  ∧ (∀ (d : Dev) (a : Nat), (csrAssigned a = false ∨ d.domDark (d.csrDomain a) = true) → d.csrRead a = 0)
  ∧ (∀ (d : Dev) (f : Fn) (o : Nat), d.fnUp f = false → d.bar0Read f o = 0xFFFFFFFF#32)
  ∧ (∀ (d : Dev) (a lo : Nat), lo < 32 → csrAssigned a = true → d.domDark (d.csrDomain a) = false → (d.csrReadClear a).1.counter a lo = 0)
  ∧ (∀ (d : Dev) (a b lo : Nat), lo < 32 → a ≠ b → (d.csrReadClear a).1.counter b lo = d.counter b lo)
  ∧ (∀ d : Dev, d.modes.mode ≠ .off → d.wdnMode.toNat % 16 = modeCode d.modes.mode)
end

