-- ==== Sys2Proof/Laws/Tbl.lean ====
section
/-! SUPPORT. Reading a table after writing it: the key written reads what was written, every other key as before, and a
write keeps the keys rising. -/

namespace Sys2Proof.Machine

variable {α : Type}

@[simp] theorem Tbl.get?_set?_same (t : Tbl α) (k : Nat) (v : Option α) : Tbl.get? (Tbl.set? t k v) k = v := by
  induction t with
  | nil => cases v <;> simp [Tbl.set?, Tbl.get?]
  | cons x t ih =>
    obtain ⟨k', v'⟩ := x
    cases v with
    | none =>
      by_cases h : k = k'
      · simpa [Tbl.set?, h] using h ▸ ih
      · simpa [Tbl.set?, Tbl.get?, h] using ih
    | some w =>
      by_cases h1 : k < k'
      · simp [Tbl.set?, Tbl.get?, h1]
      · by_cases h : k = k'
        · simp [Tbl.set?, Tbl.get?, h]
        · simpa [Tbl.set?, Tbl.get?, h1, h] using ih

theorem Tbl.get?_set?_ne (t : Tbl α) {j k : Nat} (v : Option α) (h : j ≠ k) : Tbl.get? (Tbl.set? t k v) j = Tbl.get? t j := by
  induction t with
  | nil => cases v <;> simp [Tbl.set?, Tbl.get?, h]
  | cons x t ih =>
    obtain ⟨k', v'⟩ := x
    cases v with
    | none =>
      by_cases h2 : k = k'
      · subst h2; simpa [Tbl.set?, Tbl.get?, h] using ih
      · by_cases h3 : j = k' <;> simp [Tbl.set?, Tbl.get?, h2, h3, ih]
    | some w =>
      by_cases h1 : k < k'
      · simp [Tbl.set?, Tbl.get?, h1, h]
      · by_cases h2 : k = k'
        · subst h2; simp [Tbl.set?, Tbl.get?, h]
        · by_cases h3 : j = k' <;> simp [Tbl.set?, Tbl.get?, h1, h2, h3, ih]

@[simp] theorem Tbl.get_put_same [DecidableEq α] (d : α) (t : Tbl α) (k : Nat) (v : α) : Tbl.get d (Tbl.put d t k v) k = v := by
  unfold Tbl.get Tbl.put
  by_cases h : v = d <;> simp [h]

theorem Tbl.get_put_ne [DecidableEq α] (d : α) (t : Tbl α) {j k : Nat} (v : α) (h : j ≠ k) :
    Tbl.get d (Tbl.put d t k v) j = Tbl.get d t j := by
  simp [Tbl.get, Tbl.put, Tbl.get?_set?_ne _ _ h]

@[simp] theorem Tbl.get_mod_same [DecidableEq α] (d : α) (t : Tbl α) (k : Nat) (f : α → α) :
    Tbl.get d (Tbl.mod d t k f) k = f (Tbl.get d t k) := by simp [Tbl.mod]

theorem Tbl.get_mod_ne [DecidableEq α] (d : α) (t : Tbl α) {j k : Nat} (f : α → α) (h : j ≠ k) :
    Tbl.get d (Tbl.mod d t k f) j = Tbl.get d t j := by simp [Tbl.mod, Tbl.get_put_ne _ _ _ h]

@[simp] theorem Tbl.get?_ins_same (t : Tbl α) (k : Nat) (v : α) : Tbl.get? (Tbl.ins t k v) k = some v := by simp [Tbl.ins]

theorem Tbl.get?_ins_ne (t : Tbl α) {j k : Nat} (v : α) (h : j ≠ k) : Tbl.get? (Tbl.ins t k v) j = Tbl.get? t j := by
  simp [Tbl.ins, Tbl.get?_set?_ne _ _ h]

@[simp] theorem Tbl.get?_del_same (t : Tbl α) (k : Nat) : Tbl.get? (Tbl.del t k) k = none := by simp [Tbl.del]

theorem Tbl.get?_del_ne (t : Tbl α) {j k : Nat} (h : j ≠ k) : Tbl.get? (Tbl.del t k) j = Tbl.get? t j := by
  simp [Tbl.del, Tbl.get?_set?_ne _ _ h]

@[simp] theorem Tbl.get?_upd_same (t : Tbl α) (k : Nat) (f : α → α) : Tbl.get? (Tbl.upd t k f) k = (Tbl.get? t k).map f := by
  unfold Tbl.upd
  split <;> simp_all

theorem Tbl.get?_upd_ne (t : Tbl α) {j k : Nat} (f : α → α) (h : j ≠ k) : Tbl.get? (Tbl.upd t k f) j = Tbl.get? t j := by
  unfold Tbl.upd
  split <;> simp [Tbl.get?_set?_ne _ _ h]

/-- Every key of a table is above `b`. -/
def Tbl.above (b : Nat) : Tbl α → Bool
  | [] => true
  | (k, _) :: t => decide (b < k) && Tbl.above k t

theorem Tbl.wf_cons (k : Nat) (v : α) (t : Tbl α) : Tbl.wf ((k, v) :: t) = Tbl.above k t := by
  induction t generalizing k v with
  | nil => rfl
  | cons x t ih => obtain ⟨k', v'⟩ := x; simp [Tbl.wf, Tbl.above, ih]

theorem Tbl.above_mono {a b : Nat} (h : a ≤ b) (t : Tbl α) (ht : Tbl.above b t = true) : Tbl.above a t = true := by
  cases t with
  | nil => rfl
  | cons x t => obtain ⟨k, v⟩ := x; simp [Tbl.above] at *; exact ⟨by omega, ht.2⟩

/-- Taking away a key below every key of a table changes nothing. -/
theorem Tbl.set?_none_above {k : Nat} (t : Tbl α) : ∀ b : Nat, Tbl.above b t = true → k ≤ b → Tbl.set? t k none = t := by
  induction t with
  | nil => intro _ _ _; rfl
  | cons y t ih2 =>
    intro b h4 h5; obtain ⟨k2, v2⟩ := y; simp [Tbl.above] at h4
    have h6 : k ≠ k2 := by omega
    simp [Tbl.set?, h6, ih2 k2 h4.2 (by omega)]

theorem Tbl.above_set? {b k : Nat} (h : b < k) (v : Option α) (t : Tbl α) (ht : Tbl.above b t = true) :
    Tbl.above b (Tbl.set? t k v) = true := by
  induction t generalizing b with
  | nil => cases v <;> simp [Tbl.set?, Tbl.above, h]
  | cons x t ih =>
    obtain ⟨k', v'⟩ := x
    simp [Tbl.above] at ht
    cases v with
    | none =>
      by_cases h2 : k = k'
      · subst h2
        simp only [Tbl.set?, if_true]
        exact ih h (Tbl.above_mono (by omega) t ht.2)
      · simp [Tbl.set?, h2, Tbl.above, ht.1]
        by_cases h3 : k < k'
        · rw [Tbl.set?_none_above t k' ht.2 (by omega)]; exact ht.2
        · exact ih (by omega) ht.2
    | some w =>
      by_cases h1 : k < k'
      · simp [Tbl.set?, h1, Tbl.above, h, ht.2]
      · by_cases h2 : k = k'
        · subst h2; simp [Tbl.set?, Tbl.above, ht]
        · simp [Tbl.set?, h1, h2, Tbl.above, ht.1, ih (show k' < k by omega) ht.2]

/-- A write keeps the keys strictly rising. -/
theorem Tbl.wf_set? (k : Nat) (v : Option α) (t : Tbl α) (ht : Tbl.wf t = true) : Tbl.wf (Tbl.set? t k v) = true := by
  cases t with
  | nil => cases v <;> rfl
  | cons x t =>
    obtain ⟨k', v'⟩ := x
    rw [Tbl.wf_cons] at ht
    cases v with
    | none =>
      by_cases h2 : k = k'
      · subst h2
        simp only [Tbl.set?, if_true]
        rw [Tbl.set?_none_above t k ht (Nat.le_refl k)]
        cases t with
        | nil => rfl
        | cons y t => obtain ⟨k2, v2⟩ := y; rw [Tbl.wf_cons]; simp [Tbl.above] at ht; exact ht.2
      · simp only [Tbl.set?, h2, if_false]
        rw [Tbl.wf_cons]
        by_cases h3 : k' < k
        · exact Tbl.above_set? h3 none t ht
        · rw [Tbl.set?_none_above t k' ht (by omega)]; exact ht
    | some w =>
      by_cases h1 : k < k'
      · simp only [Tbl.set?, h1, if_true]; rw [Tbl.wf_cons]; simp [Tbl.above, h1, ht]
      · by_cases h2 : k = k'
        · subst h2; simp only [Tbl.set?, h1, if_false, if_true]; rw [Tbl.wf_cons]; exact ht
        · simp only [Tbl.set?, h1, h2, if_false]; rw [Tbl.wf_cons]
          exact Tbl.above_set? (show k' < k by omega) (some w) t ht

end Sys2Proof.Machine
end

