-- ==== Sys2Proof/Laws/State.lean ====
section
/-! SUPPORT. What each small update of the device leaves alone, one lemma per update and part of the device, and what it reads
back. -/

namespace Sys2Proof.Machine

variable (d : Dev)

@[simp] theorem State.onDev_dev (s : State) (f : Dev → Dev) : (s.onDev f).dev = f s.dev := rfl
@[simp] theorem State.onDev_pending (s : State) (f : Dev → Dev) : (s.onDev f).pending = s.pending := rfl
@[simp] theorem State.onDev_fuse (s : State) (f : Dev → Dev) : (s.onDev f).fuse = s.fuse := rfl

/-! ### emit -/

@[simp] theorem Dev.emit_clk (o : Out) : (d.emit o).clk = d.clk := rfl
@[simp] theorem Dev.emit_pins (o : Out) : (d.emit o).pins = d.pins := rfl
@[simp] theorem Dev.emit_pwr (o : Out) : (d.emit o).pwr = d.pwr := rfl
@[simp] theorem Dev.emit_modes (o : Out) : (d.emit o).modes = d.modes := rfl
@[simp] theorem Dev.emit_csr (o : Out) : (d.emit o).csr = d.csr := rfl
@[simp] theorem Dev.emit_cnt (o : Out) : (d.emit o).cnt = d.cnt := rfl
@[simp] theorem Dev.emit_evl (o : Out) : (d.emit o).evl = d.evl := rfl
@[simp] theorem Dev.emit_kmb (o : Out) : (d.emit o).kmb = d.kmb := rfl
@[simp] theorem Dev.emit_boot (o : Out) : (d.emit o).boot = d.boot := rfl
@[simp] theorem Dev.emit_bcol (o : Out) : (d.emit o).bcol = d.bcol := rfl
@[simp] theorem Dev.emit_ports (o : Out) : (d.emit o).ports = d.ports := rfl
@[simp] theorem Dev.emit_fns (o : Out) : (d.emit o).fns = d.fns := rfl
@[simp] theorem Dev.emit_hg (o : Out) : (d.emit o).hg = d.hg := rfl
@[simp] theorem Dev.emit_adm (o : Out) : (d.emit o).adm = d.adm := rfl
@[simp] theorem Dev.emit_mgmt (o : Out) : (d.emit o).mgmt = d.mgmt := rfl
@[simp] theorem Dev.emit_jtag (o : Out) : (d.emit o).jtag = d.jtag := rfl
@[simp] theorem Dev.emit_gl (o : Out) : (d.emit o).gl = d.gl := rfl
@[simp] theorem Dev.emit_rp (o : Out) : (d.emit o).rp = d.rp := rfl
@[simp] theorem Dev.emit_quires (o : Out) : (d.emit o).quires = d.quires := rfl
@[simp] theorem Dev.emit_tc (o : Out) : (d.emit o).tc = d.tc := rfl
@[simp] theorem Dev.emit_slu (o : Out) : (d.emit o).slu = d.slu := rfl
@[simp] theorem Dev.emit_thm (o : Out) : (d.emit o).thm = d.thm := rfl
@[simp] theorem Dev.emit_hu (o : Out) : (d.emit o).hu = d.hu := rfl
@[simp] theorem Dev.emit_col (o : Out) : (d.emit o).col = d.col := rfl
@[simp] theorem Dev.emit_bpm (o : Out) : (d.emit o).bpm = d.bpm := rfl
@[simp] theorem Dev.emit_dmc (o : Out) : (d.emit o).dmc = d.dmc := rfl
@[simp] theorem Dev.emit_fc (o : Out) : (d.emit o).fc = d.fc := rfl
@[simp] theorem Dev.emit_ring (o : Out) : (d.emit o).ring = d.ring := rfl
@[simp] theorem Dev.emit_san (o : Out) : (d.emit o).san = d.san := rfl
@[simp] theorem Dev.emit_free (o : Out) : (d.emit o).free = d.free := rfl

/-! ### tickFree -/

@[simp] theorem Dev.tickFree_clk : (d.tickFree).clk = d.clk := rfl
@[simp] theorem Dev.tickFree_pins : (d.tickFree).pins = d.pins := rfl
@[simp] theorem Dev.tickFree_pwr : (d.tickFree).pwr = d.pwr := rfl
@[simp] theorem Dev.tickFree_modes : (d.tickFree).modes = d.modes := rfl
@[simp] theorem Dev.tickFree_csr : (d.tickFree).csr = d.csr := rfl
@[simp] theorem Dev.tickFree_cnt : (d.tickFree).cnt = d.cnt := rfl
@[simp] theorem Dev.tickFree_evl : (d.tickFree).evl = d.evl := rfl
@[simp] theorem Dev.tickFree_kmb : (d.tickFree).kmb = d.kmb := rfl
@[simp] theorem Dev.tickFree_boot : (d.tickFree).boot = d.boot := rfl
@[simp] theorem Dev.tickFree_bcol : (d.tickFree).bcol = d.bcol := rfl
@[simp] theorem Dev.tickFree_ports : (d.tickFree).ports = d.ports := rfl
@[simp] theorem Dev.tickFree_fns : (d.tickFree).fns = d.fns := rfl
@[simp] theorem Dev.tickFree_hg : (d.tickFree).hg = d.hg := rfl
@[simp] theorem Dev.tickFree_adm : (d.tickFree).adm = d.adm := rfl
@[simp] theorem Dev.tickFree_mgmt : (d.tickFree).mgmt = d.mgmt := rfl
@[simp] theorem Dev.tickFree_jtag : (d.tickFree).jtag = d.jtag := rfl
@[simp] theorem Dev.tickFree_gl : (d.tickFree).gl = d.gl := rfl
@[simp] theorem Dev.tickFree_rp : (d.tickFree).rp = d.rp := rfl
@[simp] theorem Dev.tickFree_quires : (d.tickFree).quires = d.quires := rfl
@[simp] theorem Dev.tickFree_tc : (d.tickFree).tc = d.tc := rfl
@[simp] theorem Dev.tickFree_slu : (d.tickFree).slu = d.slu := rfl
@[simp] theorem Dev.tickFree_thm : (d.tickFree).thm = d.thm := rfl
@[simp] theorem Dev.tickFree_hu : (d.tickFree).hu = d.hu := rfl
@[simp] theorem Dev.tickFree_col : (d.tickFree).col = d.col := rfl
@[simp] theorem Dev.tickFree_bpm : (d.tickFree).bpm = d.bpm := rfl
@[simp] theorem Dev.tickFree_dmc : (d.tickFree).dmc = d.dmc := rfl
@[simp] theorem Dev.tickFree_fc : (d.tickFree).fc = d.fc := rfl
@[simp] theorem Dev.tickFree_ring : (d.tickFree).ring = d.ring := rfl
@[simp] theorem Dev.tickFree_san : (d.tickFree).san = d.san := rfl
@[simp] theorem Dev.tickFree_out : (d.tickFree).out = d.out := rfl

/-! ### count -/

@[simp] theorem Dev.count_clk (a lo w n : Nat) : (d.count a lo w n).clk = d.clk := rfl
@[simp] theorem Dev.count_pins (a lo w n : Nat) : (d.count a lo w n).pins = d.pins := rfl
@[simp] theorem Dev.count_pwr (a lo w n : Nat) : (d.count a lo w n).pwr = d.pwr := rfl
@[simp] theorem Dev.count_modes (a lo w n : Nat) : (d.count a lo w n).modes = d.modes := rfl
@[simp] theorem Dev.count_csr (a lo w n : Nat) : (d.count a lo w n).csr = d.csr := rfl
@[simp] theorem Dev.count_evl (a lo w n : Nat) : (d.count a lo w n).evl = d.evl := rfl
@[simp] theorem Dev.count_kmb (a lo w n : Nat) : (d.count a lo w n).kmb = d.kmb := rfl
@[simp] theorem Dev.count_boot (a lo w n : Nat) : (d.count a lo w n).boot = d.boot := rfl
@[simp] theorem Dev.count_bcol (a lo w n : Nat) : (d.count a lo w n).bcol = d.bcol := rfl
@[simp] theorem Dev.count_ports (a lo w n : Nat) : (d.count a lo w n).ports = d.ports := rfl
@[simp] theorem Dev.count_fns (a lo w n : Nat) : (d.count a lo w n).fns = d.fns := rfl
@[simp] theorem Dev.count_hg (a lo w n : Nat) : (d.count a lo w n).hg = d.hg := rfl
@[simp] theorem Dev.count_adm (a lo w n : Nat) : (d.count a lo w n).adm = d.adm := rfl
@[simp] theorem Dev.count_mgmt (a lo w n : Nat) : (d.count a lo w n).mgmt = d.mgmt := rfl
@[simp] theorem Dev.count_jtag (a lo w n : Nat) : (d.count a lo w n).jtag = d.jtag := rfl
@[simp] theorem Dev.count_gl (a lo w n : Nat) : (d.count a lo w n).gl = d.gl := rfl
@[simp] theorem Dev.count_rp (a lo w n : Nat) : (d.count a lo w n).rp = d.rp := rfl
@[simp] theorem Dev.count_quires (a lo w n : Nat) : (d.count a lo w n).quires = d.quires := rfl
@[simp] theorem Dev.count_tc (a lo w n : Nat) : (d.count a lo w n).tc = d.tc := rfl
@[simp] theorem Dev.count_slu (a lo w n : Nat) : (d.count a lo w n).slu = d.slu := rfl
@[simp] theorem Dev.count_thm (a lo w n : Nat) : (d.count a lo w n).thm = d.thm := rfl
@[simp] theorem Dev.count_hu (a lo w n : Nat) : (d.count a lo w n).hu = d.hu := rfl
@[simp] theorem Dev.count_col (a lo w n : Nat) : (d.count a lo w n).col = d.col := rfl
@[simp] theorem Dev.count_bpm (a lo w n : Nat) : (d.count a lo w n).bpm = d.bpm := rfl
@[simp] theorem Dev.count_dmc (a lo w n : Nat) : (d.count a lo w n).dmc = d.dmc := rfl
@[simp] theorem Dev.count_fc (a lo w n : Nat) : (d.count a lo w n).fc = d.fc := rfl
@[simp] theorem Dev.count_ring (a lo w n : Nat) : (d.count a lo w n).ring = d.ring := rfl
@[simp] theorem Dev.count_san (a lo w n : Nat) : (d.count a lo w n).san = d.san := rfl
@[simp] theorem Dev.count_out (a lo w n : Nat) : (d.count a lo w n).out = d.out := rfl
@[simp] theorem Dev.count_free (a lo w n : Nat) : (d.count a lo w n).free = d.free := rfl

/-! ### setCsr -/

@[simp] theorem Dev.setCsr_clk (a : Nat) (w : W32) : (d.setCsr a w).clk = d.clk := rfl
@[simp] theorem Dev.setCsr_pins (a : Nat) (w : W32) : (d.setCsr a w).pins = d.pins := rfl
@[simp] theorem Dev.setCsr_pwr (a : Nat) (w : W32) : (d.setCsr a w).pwr = d.pwr := rfl
@[simp] theorem Dev.setCsr_modes (a : Nat) (w : W32) : (d.setCsr a w).modes = d.modes := rfl
@[simp] theorem Dev.setCsr_cnt (a : Nat) (w : W32) : (d.setCsr a w).cnt = d.cnt := rfl
@[simp] theorem Dev.setCsr_evl (a : Nat) (w : W32) : (d.setCsr a w).evl = d.evl := rfl
@[simp] theorem Dev.setCsr_kmb (a : Nat) (w : W32) : (d.setCsr a w).kmb = d.kmb := rfl
@[simp] theorem Dev.setCsr_boot (a : Nat) (w : W32) : (d.setCsr a w).boot = d.boot := rfl
@[simp] theorem Dev.setCsr_bcol (a : Nat) (w : W32) : (d.setCsr a w).bcol = d.bcol := rfl
@[simp] theorem Dev.setCsr_ports (a : Nat) (w : W32) : (d.setCsr a w).ports = d.ports := rfl
@[simp] theorem Dev.setCsr_fns (a : Nat) (w : W32) : (d.setCsr a w).fns = d.fns := rfl
@[simp] theorem Dev.setCsr_hg (a : Nat) (w : W32) : (d.setCsr a w).hg = d.hg := rfl
@[simp] theorem Dev.setCsr_adm (a : Nat) (w : W32) : (d.setCsr a w).adm = d.adm := rfl
@[simp] theorem Dev.setCsr_mgmt (a : Nat) (w : W32) : (d.setCsr a w).mgmt = d.mgmt := rfl
@[simp] theorem Dev.setCsr_jtag (a : Nat) (w : W32) : (d.setCsr a w).jtag = d.jtag := rfl
@[simp] theorem Dev.setCsr_gl (a : Nat) (w : W32) : (d.setCsr a w).gl = d.gl := rfl
@[simp] theorem Dev.setCsr_rp (a : Nat) (w : W32) : (d.setCsr a w).rp = d.rp := rfl
@[simp] theorem Dev.setCsr_quires (a : Nat) (w : W32) : (d.setCsr a w).quires = d.quires := rfl
@[simp] theorem Dev.setCsr_tc (a : Nat) (w : W32) : (d.setCsr a w).tc = d.tc := rfl
@[simp] theorem Dev.setCsr_slu (a : Nat) (w : W32) : (d.setCsr a w).slu = d.slu := rfl
@[simp] theorem Dev.setCsr_thm (a : Nat) (w : W32) : (d.setCsr a w).thm = d.thm := rfl
@[simp] theorem Dev.setCsr_hu (a : Nat) (w : W32) : (d.setCsr a w).hu = d.hu := rfl
@[simp] theorem Dev.setCsr_col (a : Nat) (w : W32) : (d.setCsr a w).col = d.col := rfl
@[simp] theorem Dev.setCsr_bpm (a : Nat) (w : W32) : (d.setCsr a w).bpm = d.bpm := rfl
@[simp] theorem Dev.setCsr_dmc (a : Nat) (w : W32) : (d.setCsr a w).dmc = d.dmc := rfl
@[simp] theorem Dev.setCsr_fc (a : Nat) (w : W32) : (d.setCsr a w).fc = d.fc := rfl
@[simp] theorem Dev.setCsr_ring (a : Nat) (w : W32) : (d.setCsr a w).ring = d.ring := rfl
@[simp] theorem Dev.setCsr_san (a : Nat) (w : W32) : (d.setCsr a w).san = d.san := rfl
@[simp] theorem Dev.setCsr_out (a : Nat) (w : W32) : (d.setCsr a w).out = d.out := rfl
@[simp] theorem Dev.setCsr_free (a : Nat) (w : W32) : (d.setCsr a w).free = d.free := rfl

/-! ### offer -/

@[simp] theorem Dev.offer_clk (c s : Nat) (p : List Byte) : (d.offer c s p).clk = d.clk := by simp only [Dev.offer]; (repeat' split) <;> rfl
@[simp] theorem Dev.offer_pins (c s : Nat) (p : List Byte) : (d.offer c s p).pins = d.pins := by simp only [Dev.offer]; (repeat' split) <;> rfl
@[simp] theorem Dev.offer_pwr (c s : Nat) (p : List Byte) : (d.offer c s p).pwr = d.pwr := by simp only [Dev.offer]; (repeat' split) <;> rfl
@[simp] theorem Dev.offer_modes (c s : Nat) (p : List Byte) : (d.offer c s p).modes = d.modes := by simp only [Dev.offer]; (repeat' split) <;> rfl
@[simp] theorem Dev.offer_csr (c s : Nat) (p : List Byte) : (d.offer c s p).csr = d.csr := by simp only [Dev.offer]; (repeat' split) <;> rfl
@[simp] theorem Dev.offer_kmb (c s : Nat) (p : List Byte) : (d.offer c s p).kmb = d.kmb := by simp only [Dev.offer]; (repeat' split) <;> rfl
@[simp] theorem Dev.offer_boot (c s : Nat) (p : List Byte) : (d.offer c s p).boot = d.boot := by simp only [Dev.offer]; (repeat' split) <;> rfl
@[simp] theorem Dev.offer_bcol (c s : Nat) (p : List Byte) : (d.offer c s p).bcol = d.bcol := by simp only [Dev.offer]; (repeat' split) <;> rfl
@[simp] theorem Dev.offer_ports (c s : Nat) (p : List Byte) : (d.offer c s p).ports = d.ports := by simp only [Dev.offer]; (repeat' split) <;> rfl
@[simp] theorem Dev.offer_fns (c s : Nat) (p : List Byte) : (d.offer c s p).fns = d.fns := by simp only [Dev.offer]; (repeat' split) <;> rfl
@[simp] theorem Dev.offer_hg (c s : Nat) (p : List Byte) : (d.offer c s p).hg = d.hg := by simp only [Dev.offer]; (repeat' split) <;> rfl
@[simp] theorem Dev.offer_adm (c s : Nat) (p : List Byte) : (d.offer c s p).adm = d.adm := by simp only [Dev.offer]; (repeat' split) <;> rfl
@[simp] theorem Dev.offer_mgmt (c s : Nat) (p : List Byte) : (d.offer c s p).mgmt = d.mgmt := by simp only [Dev.offer]; (repeat' split) <;> rfl
@[simp] theorem Dev.offer_jtag (c s : Nat) (p : List Byte) : (d.offer c s p).jtag = d.jtag := by simp only [Dev.offer]; (repeat' split) <;> rfl
@[simp] theorem Dev.offer_gl (c s : Nat) (p : List Byte) : (d.offer c s p).gl = d.gl := by simp only [Dev.offer]; (repeat' split) <;> rfl
@[simp] theorem Dev.offer_rp (c s : Nat) (p : List Byte) : (d.offer c s p).rp = d.rp := by simp only [Dev.offer]; (repeat' split) <;> rfl
@[simp] theorem Dev.offer_quires (c s : Nat) (p : List Byte) : (d.offer c s p).quires = d.quires := by simp only [Dev.offer]; (repeat' split) <;> rfl
@[simp] theorem Dev.offer_tc (c s : Nat) (p : List Byte) : (d.offer c s p).tc = d.tc := by simp only [Dev.offer]; (repeat' split) <;> rfl
@[simp] theorem Dev.offer_slu (c s : Nat) (p : List Byte) : (d.offer c s p).slu = d.slu := by simp only [Dev.offer]; (repeat' split) <;> rfl
@[simp] theorem Dev.offer_thm (c s : Nat) (p : List Byte) : (d.offer c s p).thm = d.thm := by simp only [Dev.offer]; (repeat' split) <;> rfl
@[simp] theorem Dev.offer_hu (c s : Nat) (p : List Byte) : (d.offer c s p).hu = d.hu := by simp only [Dev.offer]; (repeat' split) <;> rfl
@[simp] theorem Dev.offer_col (c s : Nat) (p : List Byte) : (d.offer c s p).col = d.col := by simp only [Dev.offer]; (repeat' split) <;> rfl
@[simp] theorem Dev.offer_bpm (c s : Nat) (p : List Byte) : (d.offer c s p).bpm = d.bpm := by simp only [Dev.offer]; (repeat' split) <;> rfl
@[simp] theorem Dev.offer_dmc (c s : Nat) (p : List Byte) : (d.offer c s p).dmc = d.dmc := by simp only [Dev.offer]; (repeat' split) <;> rfl
@[simp] theorem Dev.offer_fc (c s : Nat) (p : List Byte) : (d.offer c s p).fc = d.fc := by simp only [Dev.offer]; (repeat' split) <;> rfl
@[simp] theorem Dev.offer_ring (c s : Nat) (p : List Byte) : (d.offer c s p).ring = d.ring := by simp only [Dev.offer]; (repeat' split) <;> rfl
@[simp] theorem Dev.offer_san (c s : Nat) (p : List Byte) : (d.offer c s p).san = d.san := by simp only [Dev.offer]; (repeat' split) <;> rfl
@[simp] theorem Dev.offer_out (c s : Nat) (p : List Byte) : (d.offer c s p).out = d.out := by simp only [Dev.offer]; (repeat' split) <;> rfl
@[simp] theorem Dev.offer_free (c s : Nat) (p : List Byte) : (d.offer c s p).free = d.free := by simp only [Dev.offer]; (repeat' split) <;> rfl

/-! ### ev -/

@[simp] theorem Dev.ev_clk (c i : Nat) (l : List PField) : (d.ev c i l).clk = d.clk := by simp [Dev.ev]
@[simp] theorem Dev.ev_pins (c i : Nat) (l : List PField) : (d.ev c i l).pins = d.pins := by simp [Dev.ev]
@[simp] theorem Dev.ev_pwr (c i : Nat) (l : List PField) : (d.ev c i l).pwr = d.pwr := by simp [Dev.ev]
@[simp] theorem Dev.ev_modes (c i : Nat) (l : List PField) : (d.ev c i l).modes = d.modes := by simp [Dev.ev]
@[simp] theorem Dev.ev_csr (c i : Nat) (l : List PField) : (d.ev c i l).csr = d.csr := by simp [Dev.ev]
@[simp] theorem Dev.ev_kmb (c i : Nat) (l : List PField) : (d.ev c i l).kmb = d.kmb := by simp [Dev.ev]
@[simp] theorem Dev.ev_boot (c i : Nat) (l : List PField) : (d.ev c i l).boot = d.boot := by simp [Dev.ev]
@[simp] theorem Dev.ev_bcol (c i : Nat) (l : List PField) : (d.ev c i l).bcol = d.bcol := by simp [Dev.ev]
@[simp] theorem Dev.ev_ports (c i : Nat) (l : List PField) : (d.ev c i l).ports = d.ports := by simp [Dev.ev]
@[simp] theorem Dev.ev_fns (c i : Nat) (l : List PField) : (d.ev c i l).fns = d.fns := by simp [Dev.ev]
@[simp] theorem Dev.ev_hg (c i : Nat) (l : List PField) : (d.ev c i l).hg = d.hg := by simp [Dev.ev]
@[simp] theorem Dev.ev_adm (c i : Nat) (l : List PField) : (d.ev c i l).adm = d.adm := by simp [Dev.ev]
@[simp] theorem Dev.ev_mgmt (c i : Nat) (l : List PField) : (d.ev c i l).mgmt = d.mgmt := by simp [Dev.ev]
@[simp] theorem Dev.ev_jtag (c i : Nat) (l : List PField) : (d.ev c i l).jtag = d.jtag := by simp [Dev.ev]
@[simp] theorem Dev.ev_gl (c i : Nat) (l : List PField) : (d.ev c i l).gl = d.gl := by simp [Dev.ev]
@[simp] theorem Dev.ev_rp (c i : Nat) (l : List PField) : (d.ev c i l).rp = d.rp := by simp [Dev.ev]
@[simp] theorem Dev.ev_quires (c i : Nat) (l : List PField) : (d.ev c i l).quires = d.quires := by simp [Dev.ev]
@[simp] theorem Dev.ev_tc (c i : Nat) (l : List PField) : (d.ev c i l).tc = d.tc := by simp [Dev.ev]
@[simp] theorem Dev.ev_slu (c i : Nat) (l : List PField) : (d.ev c i l).slu = d.slu := by simp [Dev.ev]
@[simp] theorem Dev.ev_thm (c i : Nat) (l : List PField) : (d.ev c i l).thm = d.thm := by simp [Dev.ev]
@[simp] theorem Dev.ev_hu (c i : Nat) (l : List PField) : (d.ev c i l).hu = d.hu := by simp [Dev.ev]
@[simp] theorem Dev.ev_col (c i : Nat) (l : List PField) : (d.ev c i l).col = d.col := by simp [Dev.ev]
@[simp] theorem Dev.ev_bpm (c i : Nat) (l : List PField) : (d.ev c i l).bpm = d.bpm := by simp [Dev.ev]
@[simp] theorem Dev.ev_dmc (c i : Nat) (l : List PField) : (d.ev c i l).dmc = d.dmc := by simp [Dev.ev]
@[simp] theorem Dev.ev_fc (c i : Nat) (l : List PField) : (d.ev c i l).fc = d.fc := by simp [Dev.ev]
@[simp] theorem Dev.ev_ring (c i : Nat) (l : List PField) : (d.ev c i l).ring = d.ring := by simp [Dev.ev]
@[simp] theorem Dev.ev_san (c i : Nat) (l : List PField) : (d.ev c i l).san = d.san := by simp [Dev.ev]
@[simp] theorem Dev.ev_out (c i : Nat) (l : List PField) : (d.ev c i l).out = d.out := by simp [Dev.ev]
@[simp] theorem Dev.ev_free (c i : Nat) (l : List PField) : (d.ev c i l).free = d.free := by simp [Dev.ev]

/-! ### modDom -/

@[simp] theorem Dev.modDom_clk (k : Nat) (f : Dom → Dom) : (d.modDom k f).clk = d.clk := rfl
@[simp] theorem Dev.modDom_pins (k : Nat) (f : Dom → Dom) : (d.modDom k f).pins = d.pins := rfl
@[simp] theorem Dev.modDom_modes (k : Nat) (f : Dom → Dom) : (d.modDom k f).modes = d.modes := rfl
@[simp] theorem Dev.modDom_csr (k : Nat) (f : Dom → Dom) : (d.modDom k f).csr = d.csr := rfl
@[simp] theorem Dev.modDom_cnt (k : Nat) (f : Dom → Dom) : (d.modDom k f).cnt = d.cnt := rfl
@[simp] theorem Dev.modDom_evl (k : Nat) (f : Dom → Dom) : (d.modDom k f).evl = d.evl := rfl
@[simp] theorem Dev.modDom_kmb (k : Nat) (f : Dom → Dom) : (d.modDom k f).kmb = d.kmb := rfl
@[simp] theorem Dev.modDom_boot (k : Nat) (f : Dom → Dom) : (d.modDom k f).boot = d.boot := rfl
@[simp] theorem Dev.modDom_bcol (k : Nat) (f : Dom → Dom) : (d.modDom k f).bcol = d.bcol := rfl
@[simp] theorem Dev.modDom_ports (k : Nat) (f : Dom → Dom) : (d.modDom k f).ports = d.ports := rfl
@[simp] theorem Dev.modDom_fns (k : Nat) (f : Dom → Dom) : (d.modDom k f).fns = d.fns := rfl
@[simp] theorem Dev.modDom_hg (k : Nat) (f : Dom → Dom) : (d.modDom k f).hg = d.hg := rfl
@[simp] theorem Dev.modDom_adm (k : Nat) (f : Dom → Dom) : (d.modDom k f).adm = d.adm := rfl
@[simp] theorem Dev.modDom_mgmt (k : Nat) (f : Dom → Dom) : (d.modDom k f).mgmt = d.mgmt := rfl
@[simp] theorem Dev.modDom_jtag (k : Nat) (f : Dom → Dom) : (d.modDom k f).jtag = d.jtag := rfl
@[simp] theorem Dev.modDom_gl (k : Nat) (f : Dom → Dom) : (d.modDom k f).gl = d.gl := rfl
@[simp] theorem Dev.modDom_rp (k : Nat) (f : Dom → Dom) : (d.modDom k f).rp = d.rp := rfl
@[simp] theorem Dev.modDom_quires (k : Nat) (f : Dom → Dom) : (d.modDom k f).quires = d.quires := rfl
@[simp] theorem Dev.modDom_tc (k : Nat) (f : Dom → Dom) : (d.modDom k f).tc = d.tc := rfl
@[simp] theorem Dev.modDom_slu (k : Nat) (f : Dom → Dom) : (d.modDom k f).slu = d.slu := rfl
@[simp] theorem Dev.modDom_thm (k : Nat) (f : Dom → Dom) : (d.modDom k f).thm = d.thm := rfl
@[simp] theorem Dev.modDom_hu (k : Nat) (f : Dom → Dom) : (d.modDom k f).hu = d.hu := rfl
@[simp] theorem Dev.modDom_col (k : Nat) (f : Dom → Dom) : (d.modDom k f).col = d.col := rfl
@[simp] theorem Dev.modDom_bpm (k : Nat) (f : Dom → Dom) : (d.modDom k f).bpm = d.bpm := rfl
@[simp] theorem Dev.modDom_dmc (k : Nat) (f : Dom → Dom) : (d.modDom k f).dmc = d.dmc := rfl
@[simp] theorem Dev.modDom_fc (k : Nat) (f : Dom → Dom) : (d.modDom k f).fc = d.fc := rfl
@[simp] theorem Dev.modDom_ring (k : Nat) (f : Dom → Dom) : (d.modDom k f).ring = d.ring := rfl
@[simp] theorem Dev.modDom_san (k : Nat) (f : Dom → Dom) : (d.modDom k f).san = d.san := rfl
@[simp] theorem Dev.modDom_out (k : Nat) (f : Dom → Dom) : (d.modDom k f).out = d.out := rfl
@[simp] theorem Dev.modDom_free (k : Nat) (f : Dom → Dom) : (d.modDom k f).free = d.free := rfl

/-! ### modPort -/

@[simp] theorem Dev.modPort_clk (p : Port) (f : HPort → HPort) : (d.modPort p f).clk = d.clk := rfl
@[simp] theorem Dev.modPort_pins (p : Port) (f : HPort → HPort) : (d.modPort p f).pins = d.pins := rfl
@[simp] theorem Dev.modPort_pwr (p : Port) (f : HPort → HPort) : (d.modPort p f).pwr = d.pwr := rfl
@[simp] theorem Dev.modPort_modes (p : Port) (f : HPort → HPort) : (d.modPort p f).modes = d.modes := rfl
@[simp] theorem Dev.modPort_csr (p : Port) (f : HPort → HPort) : (d.modPort p f).csr = d.csr := rfl
@[simp] theorem Dev.modPort_cnt (p : Port) (f : HPort → HPort) : (d.modPort p f).cnt = d.cnt := rfl
@[simp] theorem Dev.modPort_evl (p : Port) (f : HPort → HPort) : (d.modPort p f).evl = d.evl := rfl
@[simp] theorem Dev.modPort_kmb (p : Port) (f : HPort → HPort) : (d.modPort p f).kmb = d.kmb := rfl
@[simp] theorem Dev.modPort_boot (p : Port) (f : HPort → HPort) : (d.modPort p f).boot = d.boot := rfl
@[simp] theorem Dev.modPort_bcol (p : Port) (f : HPort → HPort) : (d.modPort p f).bcol = d.bcol := rfl
@[simp] theorem Dev.modPort_fns (p : Port) (f : HPort → HPort) : (d.modPort p f).fns = d.fns := rfl
@[simp] theorem Dev.modPort_hg (p : Port) (f : HPort → HPort) : (d.modPort p f).hg = d.hg := rfl
@[simp] theorem Dev.modPort_adm (p : Port) (f : HPort → HPort) : (d.modPort p f).adm = d.adm := rfl
@[simp] theorem Dev.modPort_mgmt (p : Port) (f : HPort → HPort) : (d.modPort p f).mgmt = d.mgmt := rfl
@[simp] theorem Dev.modPort_jtag (p : Port) (f : HPort → HPort) : (d.modPort p f).jtag = d.jtag := rfl
@[simp] theorem Dev.modPort_gl (p : Port) (f : HPort → HPort) : (d.modPort p f).gl = d.gl := rfl
@[simp] theorem Dev.modPort_rp (p : Port) (f : HPort → HPort) : (d.modPort p f).rp = d.rp := rfl
@[simp] theorem Dev.modPort_quires (p : Port) (f : HPort → HPort) : (d.modPort p f).quires = d.quires := rfl
@[simp] theorem Dev.modPort_tc (p : Port) (f : HPort → HPort) : (d.modPort p f).tc = d.tc := rfl
@[simp] theorem Dev.modPort_slu (p : Port) (f : HPort → HPort) : (d.modPort p f).slu = d.slu := rfl
@[simp] theorem Dev.modPort_thm (p : Port) (f : HPort → HPort) : (d.modPort p f).thm = d.thm := rfl
@[simp] theorem Dev.modPort_hu (p : Port) (f : HPort → HPort) : (d.modPort p f).hu = d.hu := rfl
@[simp] theorem Dev.modPort_col (p : Port) (f : HPort → HPort) : (d.modPort p f).col = d.col := rfl
@[simp] theorem Dev.modPort_bpm (p : Port) (f : HPort → HPort) : (d.modPort p f).bpm = d.bpm := rfl
@[simp] theorem Dev.modPort_dmc (p : Port) (f : HPort → HPort) : (d.modPort p f).dmc = d.dmc := rfl
@[simp] theorem Dev.modPort_fc (p : Port) (f : HPort → HPort) : (d.modPort p f).fc = d.fc := rfl
@[simp] theorem Dev.modPort_ring (p : Port) (f : HPort → HPort) : (d.modPort p f).ring = d.ring := rfl
@[simp] theorem Dev.modPort_san (p : Port) (f : HPort → HPort) : (d.modPort p f).san = d.san := rfl
@[simp] theorem Dev.modPort_out (p : Port) (f : HPort → HPort) : (d.modPort p f).out = d.out := rfl
@[simp] theorem Dev.modPort_free (p : Port) (f : HPort → HPort) : (d.modPort p f).free = d.free := rfl

/-! ### modFn -/

@[simp] theorem Dev.modFn_clk (n : Fn) (f : FnSt → FnSt) : (d.modFn n f).clk = d.clk := rfl
@[simp] theorem Dev.modFn_pins (n : Fn) (f : FnSt → FnSt) : (d.modFn n f).pins = d.pins := rfl
@[simp] theorem Dev.modFn_pwr (n : Fn) (f : FnSt → FnSt) : (d.modFn n f).pwr = d.pwr := rfl
@[simp] theorem Dev.modFn_modes (n : Fn) (f : FnSt → FnSt) : (d.modFn n f).modes = d.modes := rfl
@[simp] theorem Dev.modFn_csr (n : Fn) (f : FnSt → FnSt) : (d.modFn n f).csr = d.csr := rfl
@[simp] theorem Dev.modFn_cnt (n : Fn) (f : FnSt → FnSt) : (d.modFn n f).cnt = d.cnt := rfl
@[simp] theorem Dev.modFn_evl (n : Fn) (f : FnSt → FnSt) : (d.modFn n f).evl = d.evl := rfl
@[simp] theorem Dev.modFn_kmb (n : Fn) (f : FnSt → FnSt) : (d.modFn n f).kmb = d.kmb := rfl
@[simp] theorem Dev.modFn_boot (n : Fn) (f : FnSt → FnSt) : (d.modFn n f).boot = d.boot := rfl
@[simp] theorem Dev.modFn_bcol (n : Fn) (f : FnSt → FnSt) : (d.modFn n f).bcol = d.bcol := rfl
@[simp] theorem Dev.modFn_ports (n : Fn) (f : FnSt → FnSt) : (d.modFn n f).ports = d.ports := rfl
@[simp] theorem Dev.modFn_hg (n : Fn) (f : FnSt → FnSt) : (d.modFn n f).hg = d.hg := rfl
@[simp] theorem Dev.modFn_adm (n : Fn) (f : FnSt → FnSt) : (d.modFn n f).adm = d.adm := rfl
@[simp] theorem Dev.modFn_mgmt (n : Fn) (f : FnSt → FnSt) : (d.modFn n f).mgmt = d.mgmt := rfl
@[simp] theorem Dev.modFn_jtag (n : Fn) (f : FnSt → FnSt) : (d.modFn n f).jtag = d.jtag := rfl
@[simp] theorem Dev.modFn_gl (n : Fn) (f : FnSt → FnSt) : (d.modFn n f).gl = d.gl := rfl
@[simp] theorem Dev.modFn_rp (n : Fn) (f : FnSt → FnSt) : (d.modFn n f).rp = d.rp := rfl
@[simp] theorem Dev.modFn_quires (n : Fn) (f : FnSt → FnSt) : (d.modFn n f).quires = d.quires := rfl
@[simp] theorem Dev.modFn_tc (n : Fn) (f : FnSt → FnSt) : (d.modFn n f).tc = d.tc := rfl
@[simp] theorem Dev.modFn_slu (n : Fn) (f : FnSt → FnSt) : (d.modFn n f).slu = d.slu := rfl
@[simp] theorem Dev.modFn_thm (n : Fn) (f : FnSt → FnSt) : (d.modFn n f).thm = d.thm := rfl
@[simp] theorem Dev.modFn_hu (n : Fn) (f : FnSt → FnSt) : (d.modFn n f).hu = d.hu := rfl
@[simp] theorem Dev.modFn_col (n : Fn) (f : FnSt → FnSt) : (d.modFn n f).col = d.col := rfl
@[simp] theorem Dev.modFn_bpm (n : Fn) (f : FnSt → FnSt) : (d.modFn n f).bpm = d.bpm := rfl
@[simp] theorem Dev.modFn_dmc (n : Fn) (f : FnSt → FnSt) : (d.modFn n f).dmc = d.dmc := rfl
@[simp] theorem Dev.modFn_fc (n : Fn) (f : FnSt → FnSt) : (d.modFn n f).fc = d.fc := rfl
@[simp] theorem Dev.modFn_ring (n : Fn) (f : FnSt → FnSt) : (d.modFn n f).ring = d.ring := rfl
@[simp] theorem Dev.modFn_san (n : Fn) (f : FnSt → FnSt) : (d.modFn n f).san = d.san := rfl
@[simp] theorem Dev.modFn_out (n : Fn) (f : FnSt → FnSt) : (d.modFn n f).out = d.out := rfl
@[simp] theorem Dev.modFn_free (n : Fn) (f : FnSt → FnSt) : (d.modFn n f).free = d.free := rfl

/-! ### modBox -/

@[simp] theorem Dev.modBox_clk (p : Port) (f : Kmb → Kmb) : (d.modBox p f).clk = d.clk := rfl
@[simp] theorem Dev.modBox_pins (p : Port) (f : Kmb → Kmb) : (d.modBox p f).pins = d.pins := rfl
@[simp] theorem Dev.modBox_pwr (p : Port) (f : Kmb → Kmb) : (d.modBox p f).pwr = d.pwr := rfl
@[simp] theorem Dev.modBox_modes (p : Port) (f : Kmb → Kmb) : (d.modBox p f).modes = d.modes := rfl
@[simp] theorem Dev.modBox_csr (p : Port) (f : Kmb → Kmb) : (d.modBox p f).csr = d.csr := rfl
@[simp] theorem Dev.modBox_cnt (p : Port) (f : Kmb → Kmb) : (d.modBox p f).cnt = d.cnt := rfl
@[simp] theorem Dev.modBox_evl (p : Port) (f : Kmb → Kmb) : (d.modBox p f).evl = d.evl := rfl
@[simp] theorem Dev.modBox_boot (p : Port) (f : Kmb → Kmb) : (d.modBox p f).boot = d.boot := rfl
@[simp] theorem Dev.modBox_bcol (p : Port) (f : Kmb → Kmb) : (d.modBox p f).bcol = d.bcol := rfl
@[simp] theorem Dev.modBox_ports (p : Port) (f : Kmb → Kmb) : (d.modBox p f).ports = d.ports := rfl
@[simp] theorem Dev.modBox_fns (p : Port) (f : Kmb → Kmb) : (d.modBox p f).fns = d.fns := rfl
@[simp] theorem Dev.modBox_hg (p : Port) (f : Kmb → Kmb) : (d.modBox p f).hg = d.hg := rfl
@[simp] theorem Dev.modBox_adm (p : Port) (f : Kmb → Kmb) : (d.modBox p f).adm = d.adm := rfl
@[simp] theorem Dev.modBox_mgmt (p : Port) (f : Kmb → Kmb) : (d.modBox p f).mgmt = d.mgmt := rfl
@[simp] theorem Dev.modBox_jtag (p : Port) (f : Kmb → Kmb) : (d.modBox p f).jtag = d.jtag := rfl
@[simp] theorem Dev.modBox_gl (p : Port) (f : Kmb → Kmb) : (d.modBox p f).gl = d.gl := rfl
@[simp] theorem Dev.modBox_rp (p : Port) (f : Kmb → Kmb) : (d.modBox p f).rp = d.rp := rfl
@[simp] theorem Dev.modBox_quires (p : Port) (f : Kmb → Kmb) : (d.modBox p f).quires = d.quires := rfl
@[simp] theorem Dev.modBox_tc (p : Port) (f : Kmb → Kmb) : (d.modBox p f).tc = d.tc := rfl
@[simp] theorem Dev.modBox_slu (p : Port) (f : Kmb → Kmb) : (d.modBox p f).slu = d.slu := rfl
@[simp] theorem Dev.modBox_thm (p : Port) (f : Kmb → Kmb) : (d.modBox p f).thm = d.thm := rfl
@[simp] theorem Dev.modBox_hu (p : Port) (f : Kmb → Kmb) : (d.modBox p f).hu = d.hu := rfl
@[simp] theorem Dev.modBox_col (p : Port) (f : Kmb → Kmb) : (d.modBox p f).col = d.col := rfl
@[simp] theorem Dev.modBox_bpm (p : Port) (f : Kmb → Kmb) : (d.modBox p f).bpm = d.bpm := rfl
@[simp] theorem Dev.modBox_dmc (p : Port) (f : Kmb → Kmb) : (d.modBox p f).dmc = d.dmc := rfl
@[simp] theorem Dev.modBox_fc (p : Port) (f : Kmb → Kmb) : (d.modBox p f).fc = d.fc := rfl
@[simp] theorem Dev.modBox_ring (p : Port) (f : Kmb → Kmb) : (d.modBox p f).ring = d.ring := rfl
@[simp] theorem Dev.modBox_san (p : Port) (f : Kmb → Kmb) : (d.modBox p f).san = d.san := rfl
@[simp] theorem Dev.modBox_out (p : Port) (f : Kmb → Kmb) : (d.modBox p f).out = d.out := rfl
@[simp] theorem Dev.modBox_free (p : Port) (f : Kmb → Kmb) : (d.modBox p f).free = d.free := rfl

/-! ### modCtx -/

@[simp] theorem Dev.modCtx_clk (k : Nat) (f : RCtx → RCtx) : (d.modCtx k f).clk = d.clk := rfl
@[simp] theorem Dev.modCtx_pins (k : Nat) (f : RCtx → RCtx) : (d.modCtx k f).pins = d.pins := rfl
@[simp] theorem Dev.modCtx_pwr (k : Nat) (f : RCtx → RCtx) : (d.modCtx k f).pwr = d.pwr := rfl
@[simp] theorem Dev.modCtx_modes (k : Nat) (f : RCtx → RCtx) : (d.modCtx k f).modes = d.modes := rfl
@[simp] theorem Dev.modCtx_csr (k : Nat) (f : RCtx → RCtx) : (d.modCtx k f).csr = d.csr := rfl
@[simp] theorem Dev.modCtx_cnt (k : Nat) (f : RCtx → RCtx) : (d.modCtx k f).cnt = d.cnt := rfl
@[simp] theorem Dev.modCtx_kmb (k : Nat) (f : RCtx → RCtx) : (d.modCtx k f).kmb = d.kmb := rfl
@[simp] theorem Dev.modCtx_boot (k : Nat) (f : RCtx → RCtx) : (d.modCtx k f).boot = d.boot := rfl
@[simp] theorem Dev.modCtx_bcol (k : Nat) (f : RCtx → RCtx) : (d.modCtx k f).bcol = d.bcol := rfl
@[simp] theorem Dev.modCtx_ports (k : Nat) (f : RCtx → RCtx) : (d.modCtx k f).ports = d.ports := rfl
@[simp] theorem Dev.modCtx_fns (k : Nat) (f : RCtx → RCtx) : (d.modCtx k f).fns = d.fns := rfl
@[simp] theorem Dev.modCtx_hg (k : Nat) (f : RCtx → RCtx) : (d.modCtx k f).hg = d.hg := rfl
@[simp] theorem Dev.modCtx_adm (k : Nat) (f : RCtx → RCtx) : (d.modCtx k f).adm = d.adm := rfl
@[simp] theorem Dev.modCtx_mgmt (k : Nat) (f : RCtx → RCtx) : (d.modCtx k f).mgmt = d.mgmt := rfl
@[simp] theorem Dev.modCtx_jtag (k : Nat) (f : RCtx → RCtx) : (d.modCtx k f).jtag = d.jtag := rfl
@[simp] theorem Dev.modCtx_gl (k : Nat) (f : RCtx → RCtx) : (d.modCtx k f).gl = d.gl := rfl
@[simp] theorem Dev.modCtx_rp (k : Nat) (f : RCtx → RCtx) : (d.modCtx k f).rp = d.rp := rfl
@[simp] theorem Dev.modCtx_quires (k : Nat) (f : RCtx → RCtx) : (d.modCtx k f).quires = d.quires := rfl
@[simp] theorem Dev.modCtx_tc (k : Nat) (f : RCtx → RCtx) : (d.modCtx k f).tc = d.tc := rfl
@[simp] theorem Dev.modCtx_slu (k : Nat) (f : RCtx → RCtx) : (d.modCtx k f).slu = d.slu := rfl
@[simp] theorem Dev.modCtx_thm (k : Nat) (f : RCtx → RCtx) : (d.modCtx k f).thm = d.thm := rfl
@[simp] theorem Dev.modCtx_hu (k : Nat) (f : RCtx → RCtx) : (d.modCtx k f).hu = d.hu := rfl
@[simp] theorem Dev.modCtx_col (k : Nat) (f : RCtx → RCtx) : (d.modCtx k f).col = d.col := rfl
@[simp] theorem Dev.modCtx_bpm (k : Nat) (f : RCtx → RCtx) : (d.modCtx k f).bpm = d.bpm := rfl
@[simp] theorem Dev.modCtx_dmc (k : Nat) (f : RCtx → RCtx) : (d.modCtx k f).dmc = d.dmc := rfl
@[simp] theorem Dev.modCtx_fc (k : Nat) (f : RCtx → RCtx) : (d.modCtx k f).fc = d.fc := rfl
@[simp] theorem Dev.modCtx_ring (k : Nat) (f : RCtx → RCtx) : (d.modCtx k f).ring = d.ring := rfl
@[simp] theorem Dev.modCtx_san (k : Nat) (f : RCtx → RCtx) : (d.modCtx k f).san = d.san := rfl
@[simp] theorem Dev.modCtx_out (k : Nat) (f : RCtx → RCtx) : (d.modCtx k f).out = d.out := rfl
@[simp] theorem Dev.modCtx_free (k : Nat) (f : RCtx → RCtx) : (d.modCtx k f).free = d.free := rfl

/-! ### modSlot -/

@[simp] theorem Dev.modSlot_clk (k : Nat) (f : CSlot → CSlot) : (d.modSlot k f).clk = d.clk := rfl
@[simp] theorem Dev.modSlot_pins (k : Nat) (f : CSlot → CSlot) : (d.modSlot k f).pins = d.pins := rfl
@[simp] theorem Dev.modSlot_pwr (k : Nat) (f : CSlot → CSlot) : (d.modSlot k f).pwr = d.pwr := rfl
@[simp] theorem Dev.modSlot_modes (k : Nat) (f : CSlot → CSlot) : (d.modSlot k f).modes = d.modes := rfl
@[simp] theorem Dev.modSlot_csr (k : Nat) (f : CSlot → CSlot) : (d.modSlot k f).csr = d.csr := rfl
@[simp] theorem Dev.modSlot_cnt (k : Nat) (f : CSlot → CSlot) : (d.modSlot k f).cnt = d.cnt := rfl
@[simp] theorem Dev.modSlot_evl (k : Nat) (f : CSlot → CSlot) : (d.modSlot k f).evl = d.evl := rfl
@[simp] theorem Dev.modSlot_kmb (k : Nat) (f : CSlot → CSlot) : (d.modSlot k f).kmb = d.kmb := rfl
@[simp] theorem Dev.modSlot_boot (k : Nat) (f : CSlot → CSlot) : (d.modSlot k f).boot = d.boot := rfl
@[simp] theorem Dev.modSlot_bcol (k : Nat) (f : CSlot → CSlot) : (d.modSlot k f).bcol = d.bcol := rfl
@[simp] theorem Dev.modSlot_ports (k : Nat) (f : CSlot → CSlot) : (d.modSlot k f).ports = d.ports := rfl
@[simp] theorem Dev.modSlot_fns (k : Nat) (f : CSlot → CSlot) : (d.modSlot k f).fns = d.fns := rfl
@[simp] theorem Dev.modSlot_adm (k : Nat) (f : CSlot → CSlot) : (d.modSlot k f).adm = d.adm := rfl
@[simp] theorem Dev.modSlot_mgmt (k : Nat) (f : CSlot → CSlot) : (d.modSlot k f).mgmt = d.mgmt := rfl
@[simp] theorem Dev.modSlot_jtag (k : Nat) (f : CSlot → CSlot) : (d.modSlot k f).jtag = d.jtag := rfl
@[simp] theorem Dev.modSlot_gl (k : Nat) (f : CSlot → CSlot) : (d.modSlot k f).gl = d.gl := rfl
@[simp] theorem Dev.modSlot_rp (k : Nat) (f : CSlot → CSlot) : (d.modSlot k f).rp = d.rp := rfl
@[simp] theorem Dev.modSlot_quires (k : Nat) (f : CSlot → CSlot) : (d.modSlot k f).quires = d.quires := rfl
@[simp] theorem Dev.modSlot_tc (k : Nat) (f : CSlot → CSlot) : (d.modSlot k f).tc = d.tc := rfl
@[simp] theorem Dev.modSlot_slu (k : Nat) (f : CSlot → CSlot) : (d.modSlot k f).slu = d.slu := rfl
@[simp] theorem Dev.modSlot_thm (k : Nat) (f : CSlot → CSlot) : (d.modSlot k f).thm = d.thm := rfl
@[simp] theorem Dev.modSlot_hu (k : Nat) (f : CSlot → CSlot) : (d.modSlot k f).hu = d.hu := rfl
@[simp] theorem Dev.modSlot_col (k : Nat) (f : CSlot → CSlot) : (d.modSlot k f).col = d.col := rfl
@[simp] theorem Dev.modSlot_bpm (k : Nat) (f : CSlot → CSlot) : (d.modSlot k f).bpm = d.bpm := rfl
@[simp] theorem Dev.modSlot_dmc (k : Nat) (f : CSlot → CSlot) : (d.modSlot k f).dmc = d.dmc := rfl
@[simp] theorem Dev.modSlot_fc (k : Nat) (f : CSlot → CSlot) : (d.modSlot k f).fc = d.fc := rfl
@[simp] theorem Dev.modSlot_ring (k : Nat) (f : CSlot → CSlot) : (d.modSlot k f).ring = d.ring := rfl
@[simp] theorem Dev.modSlot_san (k : Nat) (f : CSlot → CSlot) : (d.modSlot k f).san = d.san := rfl
@[simp] theorem Dev.modSlot_out (k : Nat) (f : CSlot → CSlot) : (d.modSlot k f).out = d.out := rfl
@[simp] theorem Dev.modSlot_free (k : Nat) (f : CSlot → CSlot) : (d.modSlot k f).free = d.free := rfl

/-! ### modStat -/

@[simp] theorem Dev.modStat_clk (k : Nat) (f : TStat → TStat) : (d.modStat k f).clk = d.clk := rfl
@[simp] theorem Dev.modStat_pins (k : Nat) (f : TStat → TStat) : (d.modStat k f).pins = d.pins := rfl
@[simp] theorem Dev.modStat_pwr (k : Nat) (f : TStat → TStat) : (d.modStat k f).pwr = d.pwr := rfl
@[simp] theorem Dev.modStat_modes (k : Nat) (f : TStat → TStat) : (d.modStat k f).modes = d.modes := rfl
@[simp] theorem Dev.modStat_csr (k : Nat) (f : TStat → TStat) : (d.modStat k f).csr = d.csr := rfl
@[simp] theorem Dev.modStat_cnt (k : Nat) (f : TStat → TStat) : (d.modStat k f).cnt = d.cnt := rfl
@[simp] theorem Dev.modStat_evl (k : Nat) (f : TStat → TStat) : (d.modStat k f).evl = d.evl := rfl
@[simp] theorem Dev.modStat_kmb (k : Nat) (f : TStat → TStat) : (d.modStat k f).kmb = d.kmb := rfl
@[simp] theorem Dev.modStat_boot (k : Nat) (f : TStat → TStat) : (d.modStat k f).boot = d.boot := rfl
@[simp] theorem Dev.modStat_bcol (k : Nat) (f : TStat → TStat) : (d.modStat k f).bcol = d.bcol := rfl
@[simp] theorem Dev.modStat_ports (k : Nat) (f : TStat → TStat) : (d.modStat k f).ports = d.ports := rfl
@[simp] theorem Dev.modStat_fns (k : Nat) (f : TStat → TStat) : (d.modStat k f).fns = d.fns := rfl
@[simp] theorem Dev.modStat_adm (k : Nat) (f : TStat → TStat) : (d.modStat k f).adm = d.adm := rfl
@[simp] theorem Dev.modStat_mgmt (k : Nat) (f : TStat → TStat) : (d.modStat k f).mgmt = d.mgmt := rfl
@[simp] theorem Dev.modStat_jtag (k : Nat) (f : TStat → TStat) : (d.modStat k f).jtag = d.jtag := rfl
@[simp] theorem Dev.modStat_gl (k : Nat) (f : TStat → TStat) : (d.modStat k f).gl = d.gl := rfl
@[simp] theorem Dev.modStat_rp (k : Nat) (f : TStat → TStat) : (d.modStat k f).rp = d.rp := rfl
@[simp] theorem Dev.modStat_quires (k : Nat) (f : TStat → TStat) : (d.modStat k f).quires = d.quires := rfl
@[simp] theorem Dev.modStat_tc (k : Nat) (f : TStat → TStat) : (d.modStat k f).tc = d.tc := rfl
@[simp] theorem Dev.modStat_slu (k : Nat) (f : TStat → TStat) : (d.modStat k f).slu = d.slu := rfl
@[simp] theorem Dev.modStat_thm (k : Nat) (f : TStat → TStat) : (d.modStat k f).thm = d.thm := rfl
@[simp] theorem Dev.modStat_hu (k : Nat) (f : TStat → TStat) : (d.modStat k f).hu = d.hu := rfl
@[simp] theorem Dev.modStat_col (k : Nat) (f : TStat → TStat) : (d.modStat k f).col = d.col := rfl
@[simp] theorem Dev.modStat_bpm (k : Nat) (f : TStat → TStat) : (d.modStat k f).bpm = d.bpm := rfl
@[simp] theorem Dev.modStat_dmc (k : Nat) (f : TStat → TStat) : (d.modStat k f).dmc = d.dmc := rfl
@[simp] theorem Dev.modStat_fc (k : Nat) (f : TStat → TStat) : (d.modStat k f).fc = d.fc := rfl
@[simp] theorem Dev.modStat_ring (k : Nat) (f : TStat → TStat) : (d.modStat k f).ring = d.ring := rfl
@[simp] theorem Dev.modStat_san (k : Nat) (f : TStat → TStat) : (d.modStat k f).san = d.san := rfl
@[simp] theorem Dev.modStat_out (k : Nat) (f : TStat → TStat) : (d.modStat k f).out = d.out := rfl
@[simp] theorem Dev.modStat_free (k : Nat) (f : TStat → TStat) : (d.modStat k f).free = d.free := rfl

/-! ### modLink -/

@[simp] theorem Dev.modLink_clk (k : Nat) (f : Link → Link) : (d.modLink k f).clk = d.clk := rfl
@[simp] theorem Dev.modLink_pins (k : Nat) (f : Link → Link) : (d.modLink k f).pins = d.pins := rfl
@[simp] theorem Dev.modLink_pwr (k : Nat) (f : Link → Link) : (d.modLink k f).pwr = d.pwr := rfl
@[simp] theorem Dev.modLink_modes (k : Nat) (f : Link → Link) : (d.modLink k f).modes = d.modes := rfl
@[simp] theorem Dev.modLink_csr (k : Nat) (f : Link → Link) : (d.modLink k f).csr = d.csr := rfl
@[simp] theorem Dev.modLink_cnt (k : Nat) (f : Link → Link) : (d.modLink k f).cnt = d.cnt := rfl
@[simp] theorem Dev.modLink_evl (k : Nat) (f : Link → Link) : (d.modLink k f).evl = d.evl := rfl
@[simp] theorem Dev.modLink_kmb (k : Nat) (f : Link → Link) : (d.modLink k f).kmb = d.kmb := rfl
@[simp] theorem Dev.modLink_boot (k : Nat) (f : Link → Link) : (d.modLink k f).boot = d.boot := rfl
@[simp] theorem Dev.modLink_bcol (k : Nat) (f : Link → Link) : (d.modLink k f).bcol = d.bcol := rfl
@[simp] theorem Dev.modLink_ports (k : Nat) (f : Link → Link) : (d.modLink k f).ports = d.ports := rfl
@[simp] theorem Dev.modLink_fns (k : Nat) (f : Link → Link) : (d.modLink k f).fns = d.fns := rfl
@[simp] theorem Dev.modLink_hg (k : Nat) (f : Link → Link) : (d.modLink k f).hg = d.hg := rfl
@[simp] theorem Dev.modLink_adm (k : Nat) (f : Link → Link) : (d.modLink k f).adm = d.adm := rfl
@[simp] theorem Dev.modLink_mgmt (k : Nat) (f : Link → Link) : (d.modLink k f).mgmt = d.mgmt := rfl
@[simp] theorem Dev.modLink_jtag (k : Nat) (f : Link → Link) : (d.modLink k f).jtag = d.jtag := rfl
@[simp] theorem Dev.modLink_rp (k : Nat) (f : Link → Link) : (d.modLink k f).rp = d.rp := rfl
@[simp] theorem Dev.modLink_quires (k : Nat) (f : Link → Link) : (d.modLink k f).quires = d.quires := rfl
@[simp] theorem Dev.modLink_tc (k : Nat) (f : Link → Link) : (d.modLink k f).tc = d.tc := rfl
@[simp] theorem Dev.modLink_slu (k : Nat) (f : Link → Link) : (d.modLink k f).slu = d.slu := rfl
@[simp] theorem Dev.modLink_thm (k : Nat) (f : Link → Link) : (d.modLink k f).thm = d.thm := rfl
@[simp] theorem Dev.modLink_hu (k : Nat) (f : Link → Link) : (d.modLink k f).hu = d.hu := rfl
@[simp] theorem Dev.modLink_col (k : Nat) (f : Link → Link) : (d.modLink k f).col = d.col := rfl
@[simp] theorem Dev.modLink_bpm (k : Nat) (f : Link → Link) : (d.modLink k f).bpm = d.bpm := rfl
@[simp] theorem Dev.modLink_dmc (k : Nat) (f : Link → Link) : (d.modLink k f).dmc = d.dmc := rfl
@[simp] theorem Dev.modLink_fc (k : Nat) (f : Link → Link) : (d.modLink k f).fc = d.fc := rfl
@[simp] theorem Dev.modLink_ring (k : Nat) (f : Link → Link) : (d.modLink k f).ring = d.ring := rfl
@[simp] theorem Dev.modLink_san (k : Nat) (f : Link → Link) : (d.modLink k f).san = d.san := rfl
@[simp] theorem Dev.modLink_out (k : Nat) (f : Link → Link) : (d.modLink k f).out = d.out := rfl
@[simp] theorem Dev.modLink_free (k : Nat) (f : Link → Link) : (d.modLink k f).free = d.free := rfl

/-! ### modSt -/

@[simp] theorem Dev.modSt_clk (k : Nat) (f : SlotSt → SlotSt) : (d.modSt k f).clk = d.clk := rfl
@[simp] theorem Dev.modSt_pins (k : Nat) (f : SlotSt → SlotSt) : (d.modSt k f).pins = d.pins := rfl
@[simp] theorem Dev.modSt_pwr (k : Nat) (f : SlotSt → SlotSt) : (d.modSt k f).pwr = d.pwr := rfl
@[simp] theorem Dev.modSt_modes (k : Nat) (f : SlotSt → SlotSt) : (d.modSt k f).modes = d.modes := rfl
@[simp] theorem Dev.modSt_csr (k : Nat) (f : SlotSt → SlotSt) : (d.modSt k f).csr = d.csr := rfl
@[simp] theorem Dev.modSt_cnt (k : Nat) (f : SlotSt → SlotSt) : (d.modSt k f).cnt = d.cnt := rfl
@[simp] theorem Dev.modSt_evl (k : Nat) (f : SlotSt → SlotSt) : (d.modSt k f).evl = d.evl := rfl
@[simp] theorem Dev.modSt_kmb (k : Nat) (f : SlotSt → SlotSt) : (d.modSt k f).kmb = d.kmb := rfl
@[simp] theorem Dev.modSt_boot (k : Nat) (f : SlotSt → SlotSt) : (d.modSt k f).boot = d.boot := rfl
@[simp] theorem Dev.modSt_bcol (k : Nat) (f : SlotSt → SlotSt) : (d.modSt k f).bcol = d.bcol := rfl
@[simp] theorem Dev.modSt_ports (k : Nat) (f : SlotSt → SlotSt) : (d.modSt k f).ports = d.ports := rfl
@[simp] theorem Dev.modSt_fns (k : Nat) (f : SlotSt → SlotSt) : (d.modSt k f).fns = d.fns := rfl
@[simp] theorem Dev.modSt_hg (k : Nat) (f : SlotSt → SlotSt) : (d.modSt k f).hg = d.hg := rfl
@[simp] theorem Dev.modSt_adm (k : Nat) (f : SlotSt → SlotSt) : (d.modSt k f).adm = d.adm := rfl
@[simp] theorem Dev.modSt_mgmt (k : Nat) (f : SlotSt → SlotSt) : (d.modSt k f).mgmt = d.mgmt := rfl
@[simp] theorem Dev.modSt_jtag (k : Nat) (f : SlotSt → SlotSt) : (d.modSt k f).jtag = d.jtag := rfl
@[simp] theorem Dev.modSt_rp (k : Nat) (f : SlotSt → SlotSt) : (d.modSt k f).rp = d.rp := rfl
@[simp] theorem Dev.modSt_quires (k : Nat) (f : SlotSt → SlotSt) : (d.modSt k f).quires = d.quires := rfl
@[simp] theorem Dev.modSt_tc (k : Nat) (f : SlotSt → SlotSt) : (d.modSt k f).tc = d.tc := rfl
@[simp] theorem Dev.modSt_slu (k : Nat) (f : SlotSt → SlotSt) : (d.modSt k f).slu = d.slu := rfl
@[simp] theorem Dev.modSt_thm (k : Nat) (f : SlotSt → SlotSt) : (d.modSt k f).thm = d.thm := rfl
@[simp] theorem Dev.modSt_hu (k : Nat) (f : SlotSt → SlotSt) : (d.modSt k f).hu = d.hu := rfl
@[simp] theorem Dev.modSt_col (k : Nat) (f : SlotSt → SlotSt) : (d.modSt k f).col = d.col := rfl
@[simp] theorem Dev.modSt_bpm (k : Nat) (f : SlotSt → SlotSt) : (d.modSt k f).bpm = d.bpm := rfl
@[simp] theorem Dev.modSt_dmc (k : Nat) (f : SlotSt → SlotSt) : (d.modSt k f).dmc = d.dmc := rfl
@[simp] theorem Dev.modSt_fc (k : Nat) (f : SlotSt → SlotSt) : (d.modSt k f).fc = d.fc := rfl
@[simp] theorem Dev.modSt_ring (k : Nat) (f : SlotSt → SlotSt) : (d.modSt k f).ring = d.ring := rfl
@[simp] theorem Dev.modSt_san (k : Nat) (f : SlotSt → SlotSt) : (d.modSt k f).san = d.san := rfl
@[simp] theorem Dev.modSt_out (k : Nat) (f : SlotSt → SlotSt) : (d.modSt k f).out = d.out := rfl
@[simp] theorem Dev.modSt_free (k : Nat) (f : SlotSt → SlotSt) : (d.modSt k f).free = d.free := rfl

/-! ### modDie -/

@[simp] theorem Dev.modDie_clk (s k : Nat) (f : Die → Die) : (d.modDie s k f).clk = d.clk := rfl
@[simp] theorem Dev.modDie_pins (s k : Nat) (f : Die → Die) : (d.modDie s k f).pins = d.pins := rfl
@[simp] theorem Dev.modDie_pwr (s k : Nat) (f : Die → Die) : (d.modDie s k f).pwr = d.pwr := rfl
@[simp] theorem Dev.modDie_modes (s k : Nat) (f : Die → Die) : (d.modDie s k f).modes = d.modes := rfl
@[simp] theorem Dev.modDie_csr (s k : Nat) (f : Die → Die) : (d.modDie s k f).csr = d.csr := rfl
@[simp] theorem Dev.modDie_cnt (s k : Nat) (f : Die → Die) : (d.modDie s k f).cnt = d.cnt := rfl
@[simp] theorem Dev.modDie_evl (s k : Nat) (f : Die → Die) : (d.modDie s k f).evl = d.evl := rfl
@[simp] theorem Dev.modDie_kmb (s k : Nat) (f : Die → Die) : (d.modDie s k f).kmb = d.kmb := rfl
@[simp] theorem Dev.modDie_boot (s k : Nat) (f : Die → Die) : (d.modDie s k f).boot = d.boot := rfl
@[simp] theorem Dev.modDie_bcol (s k : Nat) (f : Die → Die) : (d.modDie s k f).bcol = d.bcol := rfl
@[simp] theorem Dev.modDie_ports (s k : Nat) (f : Die → Die) : (d.modDie s k f).ports = d.ports := rfl
@[simp] theorem Dev.modDie_fns (s k : Nat) (f : Die → Die) : (d.modDie s k f).fns = d.fns := rfl
@[simp] theorem Dev.modDie_hg (s k : Nat) (f : Die → Die) : (d.modDie s k f).hg = d.hg := rfl
@[simp] theorem Dev.modDie_adm (s k : Nat) (f : Die → Die) : (d.modDie s k f).adm = d.adm := rfl
@[simp] theorem Dev.modDie_mgmt (s k : Nat) (f : Die → Die) : (d.modDie s k f).mgmt = d.mgmt := rfl
@[simp] theorem Dev.modDie_jtag (s k : Nat) (f : Die → Die) : (d.modDie s k f).jtag = d.jtag := rfl
@[simp] theorem Dev.modDie_gl (s k : Nat) (f : Die → Die) : (d.modDie s k f).gl = d.gl := rfl
@[simp] theorem Dev.modDie_quires (s k : Nat) (f : Die → Die) : (d.modDie s k f).quires = d.quires := rfl
@[simp] theorem Dev.modDie_tc (s k : Nat) (f : Die → Die) : (d.modDie s k f).tc = d.tc := rfl
@[simp] theorem Dev.modDie_slu (s k : Nat) (f : Die → Die) : (d.modDie s k f).slu = d.slu := rfl
@[simp] theorem Dev.modDie_thm (s k : Nat) (f : Die → Die) : (d.modDie s k f).thm = d.thm := rfl
@[simp] theorem Dev.modDie_hu (s k : Nat) (f : Die → Die) : (d.modDie s k f).hu = d.hu := rfl
@[simp] theorem Dev.modDie_col (s k : Nat) (f : Die → Die) : (d.modDie s k f).col = d.col := rfl
@[simp] theorem Dev.modDie_bpm (s k : Nat) (f : Die → Die) : (d.modDie s k f).bpm = d.bpm := rfl
@[simp] theorem Dev.modDie_dmc (s k : Nat) (f : Die → Die) : (d.modDie s k f).dmc = d.dmc := rfl
@[simp] theorem Dev.modDie_fc (s k : Nat) (f : Die → Die) : (d.modDie s k f).fc = d.fc := rfl
@[simp] theorem Dev.modDie_ring (s k : Nat) (f : Die → Die) : (d.modDie s k f).ring = d.ring := rfl
@[simp] theorem Dev.modDie_san (s k : Nat) (f : Die → Die) : (d.modDie s k f).san = d.san := rfl
@[simp] theorem Dev.modDie_out (s k : Nat) (f : Die → Die) : (d.modDie s k f).out = d.out := rfl
@[simp] theorem Dev.modDie_free (s k : Nat) (f : Die → Die) : (d.modDie s k f).free = d.free := rfl

/-! ### modQuire -/

@[simp] theorem Dev.modQuire_clk (q : Nat) (f : Quire → Quire) : (d.modQuire q f).clk = d.clk := rfl
@[simp] theorem Dev.modQuire_pins (q : Nat) (f : Quire → Quire) : (d.modQuire q f).pins = d.pins := rfl
@[simp] theorem Dev.modQuire_pwr (q : Nat) (f : Quire → Quire) : (d.modQuire q f).pwr = d.pwr := rfl
@[simp] theorem Dev.modQuire_modes (q : Nat) (f : Quire → Quire) : (d.modQuire q f).modes = d.modes := rfl
@[simp] theorem Dev.modQuire_csr (q : Nat) (f : Quire → Quire) : (d.modQuire q f).csr = d.csr := rfl
@[simp] theorem Dev.modQuire_cnt (q : Nat) (f : Quire → Quire) : (d.modQuire q f).cnt = d.cnt := rfl
@[simp] theorem Dev.modQuire_evl (q : Nat) (f : Quire → Quire) : (d.modQuire q f).evl = d.evl := rfl
@[simp] theorem Dev.modQuire_kmb (q : Nat) (f : Quire → Quire) : (d.modQuire q f).kmb = d.kmb := rfl
@[simp] theorem Dev.modQuire_boot (q : Nat) (f : Quire → Quire) : (d.modQuire q f).boot = d.boot := rfl
@[simp] theorem Dev.modQuire_bcol (q : Nat) (f : Quire → Quire) : (d.modQuire q f).bcol = d.bcol := rfl
@[simp] theorem Dev.modQuire_ports (q : Nat) (f : Quire → Quire) : (d.modQuire q f).ports = d.ports := rfl
@[simp] theorem Dev.modQuire_fns (q : Nat) (f : Quire → Quire) : (d.modQuire q f).fns = d.fns := rfl
@[simp] theorem Dev.modQuire_hg (q : Nat) (f : Quire → Quire) : (d.modQuire q f).hg = d.hg := rfl
@[simp] theorem Dev.modQuire_adm (q : Nat) (f : Quire → Quire) : (d.modQuire q f).adm = d.adm := rfl
@[simp] theorem Dev.modQuire_mgmt (q : Nat) (f : Quire → Quire) : (d.modQuire q f).mgmt = d.mgmt := rfl
@[simp] theorem Dev.modQuire_jtag (q : Nat) (f : Quire → Quire) : (d.modQuire q f).jtag = d.jtag := rfl
@[simp] theorem Dev.modQuire_gl (q : Nat) (f : Quire → Quire) : (d.modQuire q f).gl = d.gl := rfl
@[simp] theorem Dev.modQuire_rp (q : Nat) (f : Quire → Quire) : (d.modQuire q f).rp = d.rp := rfl
@[simp] theorem Dev.modQuire_tc (q : Nat) (f : Quire → Quire) : (d.modQuire q f).tc = d.tc := rfl
@[simp] theorem Dev.modQuire_slu (q : Nat) (f : Quire → Quire) : (d.modQuire q f).slu = d.slu := rfl
@[simp] theorem Dev.modQuire_thm (q : Nat) (f : Quire → Quire) : (d.modQuire q f).thm = d.thm := rfl
@[simp] theorem Dev.modQuire_hu (q : Nat) (f : Quire → Quire) : (d.modQuire q f).hu = d.hu := rfl
@[simp] theorem Dev.modQuire_col (q : Nat) (f : Quire → Quire) : (d.modQuire q f).col = d.col := rfl
@[simp] theorem Dev.modQuire_bpm (q : Nat) (f : Quire → Quire) : (d.modQuire q f).bpm = d.bpm := rfl
@[simp] theorem Dev.modQuire_dmc (q : Nat) (f : Quire → Quire) : (d.modQuire q f).dmc = d.dmc := rfl
@[simp] theorem Dev.modQuire_fc (q : Nat) (f : Quire → Quire) : (d.modQuire q f).fc = d.fc := rfl
@[simp] theorem Dev.modQuire_ring (q : Nat) (f : Quire → Quire) : (d.modQuire q f).ring = d.ring := rfl
@[simp] theorem Dev.modQuire_san (q : Nat) (f : Quire → Quire) : (d.modQuire q f).san = d.san := rfl
@[simp] theorem Dev.modQuire_out (q : Nat) (f : Quire → Quire) : (d.modQuire q f).out = d.out := rfl
@[simp] theorem Dev.modQuire_free (q : Nat) (f : Quire → Quire) : (d.modQuire q f).free = d.free := rfl

/-! ### modNsp -/

@[simp] theorem Dev.modNsp_clk (k : Nat) (f : Nsp → Nsp) : (d.modNsp k f).clk = d.clk := rfl
@[simp] theorem Dev.modNsp_pins (k : Nat) (f : Nsp → Nsp) : (d.modNsp k f).pins = d.pins := rfl
@[simp] theorem Dev.modNsp_pwr (k : Nat) (f : Nsp → Nsp) : (d.modNsp k f).pwr = d.pwr := rfl
@[simp] theorem Dev.modNsp_modes (k : Nat) (f : Nsp → Nsp) : (d.modNsp k f).modes = d.modes := rfl
@[simp] theorem Dev.modNsp_csr (k : Nat) (f : Nsp → Nsp) : (d.modNsp k f).csr = d.csr := rfl
@[simp] theorem Dev.modNsp_cnt (k : Nat) (f : Nsp → Nsp) : (d.modNsp k f).cnt = d.cnt := rfl
@[simp] theorem Dev.modNsp_evl (k : Nat) (f : Nsp → Nsp) : (d.modNsp k f).evl = d.evl := rfl
@[simp] theorem Dev.modNsp_kmb (k : Nat) (f : Nsp → Nsp) : (d.modNsp k f).kmb = d.kmb := rfl
@[simp] theorem Dev.modNsp_boot (k : Nat) (f : Nsp → Nsp) : (d.modNsp k f).boot = d.boot := rfl
@[simp] theorem Dev.modNsp_bcol (k : Nat) (f : Nsp → Nsp) : (d.modNsp k f).bcol = d.bcol := rfl
@[simp] theorem Dev.modNsp_ports (k : Nat) (f : Nsp → Nsp) : (d.modNsp k f).ports = d.ports := rfl
@[simp] theorem Dev.modNsp_fns (k : Nat) (f : Nsp → Nsp) : (d.modNsp k f).fns = d.fns := rfl
@[simp] theorem Dev.modNsp_hg (k : Nat) (f : Nsp → Nsp) : (d.modNsp k f).hg = d.hg := rfl
@[simp] theorem Dev.modNsp_adm (k : Nat) (f : Nsp → Nsp) : (d.modNsp k f).adm = d.adm := rfl
@[simp] theorem Dev.modNsp_mgmt (k : Nat) (f : Nsp → Nsp) : (d.modNsp k f).mgmt = d.mgmt := rfl
@[simp] theorem Dev.modNsp_jtag (k : Nat) (f : Nsp → Nsp) : (d.modNsp k f).jtag = d.jtag := rfl
@[simp] theorem Dev.modNsp_gl (k : Nat) (f : Nsp → Nsp) : (d.modNsp k f).gl = d.gl := rfl
@[simp] theorem Dev.modNsp_rp (k : Nat) (f : Nsp → Nsp) : (d.modNsp k f).rp = d.rp := rfl
@[simp] theorem Dev.modNsp_quires (k : Nat) (f : Nsp → Nsp) : (d.modNsp k f).quires = d.quires := rfl
@[simp] theorem Dev.modNsp_slu (k : Nat) (f : Nsp → Nsp) : (d.modNsp k f).slu = d.slu := rfl
@[simp] theorem Dev.modNsp_thm (k : Nat) (f : Nsp → Nsp) : (d.modNsp k f).thm = d.thm := rfl
@[simp] theorem Dev.modNsp_hu (k : Nat) (f : Nsp → Nsp) : (d.modNsp k f).hu = d.hu := rfl
@[simp] theorem Dev.modNsp_col (k : Nat) (f : Nsp → Nsp) : (d.modNsp k f).col = d.col := rfl
@[simp] theorem Dev.modNsp_bpm (k : Nat) (f : Nsp → Nsp) : (d.modNsp k f).bpm = d.bpm := rfl
@[simp] theorem Dev.modNsp_dmc (k : Nat) (f : Nsp → Nsp) : (d.modNsp k f).dmc = d.dmc := rfl
@[simp] theorem Dev.modNsp_fc (k : Nat) (f : Nsp → Nsp) : (d.modNsp k f).fc = d.fc := rfl
@[simp] theorem Dev.modNsp_ring (k : Nat) (f : Nsp → Nsp) : (d.modNsp k f).ring = d.ring := rfl
@[simp] theorem Dev.modNsp_san (k : Nat) (f : Nsp → Nsp) : (d.modNsp k f).san = d.san := rfl
@[simp] theorem Dev.modNsp_out (k : Nat) (f : Nsp → Nsp) : (d.modNsp k f).out = d.out := rfl
@[simp] theorem Dev.modNsp_free (k : Nat) (f : Nsp → Nsp) : (d.modNsp k f).free = d.free := rfl

/-! ### modFurrow -/

@[simp] theorem Dev.modFurrow_clk (k : Nat) (f : Furrow → Furrow) : (d.modFurrow k f).clk = d.clk := rfl
@[simp] theorem Dev.modFurrow_pins (k : Nat) (f : Furrow → Furrow) : (d.modFurrow k f).pins = d.pins := rfl
@[simp] theorem Dev.modFurrow_pwr (k : Nat) (f : Furrow → Furrow) : (d.modFurrow k f).pwr = d.pwr := rfl
@[simp] theorem Dev.modFurrow_modes (k : Nat) (f : Furrow → Furrow) : (d.modFurrow k f).modes = d.modes := rfl
@[simp] theorem Dev.modFurrow_csr (k : Nat) (f : Furrow → Furrow) : (d.modFurrow k f).csr = d.csr := rfl
@[simp] theorem Dev.modFurrow_cnt (k : Nat) (f : Furrow → Furrow) : (d.modFurrow k f).cnt = d.cnt := rfl
@[simp] theorem Dev.modFurrow_evl (k : Nat) (f : Furrow → Furrow) : (d.modFurrow k f).evl = d.evl := rfl
@[simp] theorem Dev.modFurrow_kmb (k : Nat) (f : Furrow → Furrow) : (d.modFurrow k f).kmb = d.kmb := rfl
@[simp] theorem Dev.modFurrow_boot (k : Nat) (f : Furrow → Furrow) : (d.modFurrow k f).boot = d.boot := rfl
@[simp] theorem Dev.modFurrow_bcol (k : Nat) (f : Furrow → Furrow) : (d.modFurrow k f).bcol = d.bcol := rfl
@[simp] theorem Dev.modFurrow_ports (k : Nat) (f : Furrow → Furrow) : (d.modFurrow k f).ports = d.ports := rfl
@[simp] theorem Dev.modFurrow_fns (k : Nat) (f : Furrow → Furrow) : (d.modFurrow k f).fns = d.fns := rfl
@[simp] theorem Dev.modFurrow_hg (k : Nat) (f : Furrow → Furrow) : (d.modFurrow k f).hg = d.hg := rfl
@[simp] theorem Dev.modFurrow_adm (k : Nat) (f : Furrow → Furrow) : (d.modFurrow k f).adm = d.adm := rfl
@[simp] theorem Dev.modFurrow_mgmt (k : Nat) (f : Furrow → Furrow) : (d.modFurrow k f).mgmt = d.mgmt := rfl
@[simp] theorem Dev.modFurrow_jtag (k : Nat) (f : Furrow → Furrow) : (d.modFurrow k f).jtag = d.jtag := rfl
@[simp] theorem Dev.modFurrow_gl (k : Nat) (f : Furrow → Furrow) : (d.modFurrow k f).gl = d.gl := rfl
@[simp] theorem Dev.modFurrow_rp (k : Nat) (f : Furrow → Furrow) : (d.modFurrow k f).rp = d.rp := rfl
@[simp] theorem Dev.modFurrow_quires (k : Nat) (f : Furrow → Furrow) : (d.modFurrow k f).quires = d.quires := rfl
@[simp] theorem Dev.modFurrow_slu (k : Nat) (f : Furrow → Furrow) : (d.modFurrow k f).slu = d.slu := rfl
@[simp] theorem Dev.modFurrow_thm (k : Nat) (f : Furrow → Furrow) : (d.modFurrow k f).thm = d.thm := rfl
@[simp] theorem Dev.modFurrow_hu (k : Nat) (f : Furrow → Furrow) : (d.modFurrow k f).hu = d.hu := rfl
@[simp] theorem Dev.modFurrow_col (k : Nat) (f : Furrow → Furrow) : (d.modFurrow k f).col = d.col := rfl
@[simp] theorem Dev.modFurrow_bpm (k : Nat) (f : Furrow → Furrow) : (d.modFurrow k f).bpm = d.bpm := rfl
@[simp] theorem Dev.modFurrow_dmc (k : Nat) (f : Furrow → Furrow) : (d.modFurrow k f).dmc = d.dmc := rfl
@[simp] theorem Dev.modFurrow_fc (k : Nat) (f : Furrow → Furrow) : (d.modFurrow k f).fc = d.fc := rfl
@[simp] theorem Dev.modFurrow_ring (k : Nat) (f : Furrow → Furrow) : (d.modFurrow k f).ring = d.ring := rfl
@[simp] theorem Dev.modFurrow_san (k : Nat) (f : Furrow → Furrow) : (d.modFurrow k f).san = d.san := rfl
@[simp] theorem Dev.modFurrow_out (k : Nat) (f : Furrow → Furrow) : (d.modFurrow k f).out = d.out := rfl
@[simp] theorem Dev.modFurrow_free (k : Nat) (f : Furrow → Furrow) : (d.modFurrow k f).free = d.free := rfl

/-! ### modSb -/

@[simp] theorem Dev.modSb_clk (q k : Nat) (f : Superblock → Superblock) : (d.modSb q k f).clk = d.clk := rfl
@[simp] theorem Dev.modSb_pins (q k : Nat) (f : Superblock → Superblock) : (d.modSb q k f).pins = d.pins := rfl
@[simp] theorem Dev.modSb_pwr (q k : Nat) (f : Superblock → Superblock) : (d.modSb q k f).pwr = d.pwr := rfl
@[simp] theorem Dev.modSb_modes (q k : Nat) (f : Superblock → Superblock) : (d.modSb q k f).modes = d.modes := rfl
@[simp] theorem Dev.modSb_csr (q k : Nat) (f : Superblock → Superblock) : (d.modSb q k f).csr = d.csr := rfl
@[simp] theorem Dev.modSb_cnt (q k : Nat) (f : Superblock → Superblock) : (d.modSb q k f).cnt = d.cnt := rfl
@[simp] theorem Dev.modSb_evl (q k : Nat) (f : Superblock → Superblock) : (d.modSb q k f).evl = d.evl := rfl
@[simp] theorem Dev.modSb_kmb (q k : Nat) (f : Superblock → Superblock) : (d.modSb q k f).kmb = d.kmb := rfl
@[simp] theorem Dev.modSb_boot (q k : Nat) (f : Superblock → Superblock) : (d.modSb q k f).boot = d.boot := rfl
@[simp] theorem Dev.modSb_bcol (q k : Nat) (f : Superblock → Superblock) : (d.modSb q k f).bcol = d.bcol := rfl
@[simp] theorem Dev.modSb_ports (q k : Nat) (f : Superblock → Superblock) : (d.modSb q k f).ports = d.ports := rfl
@[simp] theorem Dev.modSb_fns (q k : Nat) (f : Superblock → Superblock) : (d.modSb q k f).fns = d.fns := rfl
@[simp] theorem Dev.modSb_hg (q k : Nat) (f : Superblock → Superblock) : (d.modSb q k f).hg = d.hg := rfl
@[simp] theorem Dev.modSb_adm (q k : Nat) (f : Superblock → Superblock) : (d.modSb q k f).adm = d.adm := rfl
@[simp] theorem Dev.modSb_mgmt (q k : Nat) (f : Superblock → Superblock) : (d.modSb q k f).mgmt = d.mgmt := rfl
@[simp] theorem Dev.modSb_jtag (q k : Nat) (f : Superblock → Superblock) : (d.modSb q k f).jtag = d.jtag := rfl
@[simp] theorem Dev.modSb_gl (q k : Nat) (f : Superblock → Superblock) : (d.modSb q k f).gl = d.gl := rfl
@[simp] theorem Dev.modSb_rp (q k : Nat) (f : Superblock → Superblock) : (d.modSb q k f).rp = d.rp := rfl
@[simp] theorem Dev.modSb_quires (q k : Nat) (f : Superblock → Superblock) : (d.modSb q k f).quires = d.quires := rfl
@[simp] theorem Dev.modSb_slu (q k : Nat) (f : Superblock → Superblock) : (d.modSb q k f).slu = d.slu := rfl
@[simp] theorem Dev.modSb_thm (q k : Nat) (f : Superblock → Superblock) : (d.modSb q k f).thm = d.thm := rfl
@[simp] theorem Dev.modSb_hu (q k : Nat) (f : Superblock → Superblock) : (d.modSb q k f).hu = d.hu := rfl
@[simp] theorem Dev.modSb_col (q k : Nat) (f : Superblock → Superblock) : (d.modSb q k f).col = d.col := rfl
@[simp] theorem Dev.modSb_bpm (q k : Nat) (f : Superblock → Superblock) : (d.modSb q k f).bpm = d.bpm := rfl
@[simp] theorem Dev.modSb_dmc (q k : Nat) (f : Superblock → Superblock) : (d.modSb q k f).dmc = d.dmc := rfl
@[simp] theorem Dev.modSb_fc (q k : Nat) (f : Superblock → Superblock) : (d.modSb q k f).fc = d.fc := rfl
@[simp] theorem Dev.modSb_ring (q k : Nat) (f : Superblock → Superblock) : (d.modSb q k f).ring = d.ring := rfl
@[simp] theorem Dev.modSb_san (q k : Nat) (f : Superblock → Superblock) : (d.modSb q k f).san = d.san := rfl
@[simp] theorem Dev.modSb_out (q k : Nat) (f : Superblock → Superblock) : (d.modSb q k f).out = d.out := rfl
@[simp] theorem Dev.modSb_free (q k : Nat) (f : Superblock → Superblock) : (d.modSb q k f).free = d.free := rfl

/-! ### modChan -/

@[simp] theorem Dev.modChan_clk (k : Nat) (f : DChan → DChan) : (d.modChan k f).clk = d.clk := rfl
@[simp] theorem Dev.modChan_pins (k : Nat) (f : DChan → DChan) : (d.modChan k f).pins = d.pins := rfl
@[simp] theorem Dev.modChan_pwr (k : Nat) (f : DChan → DChan) : (d.modChan k f).pwr = d.pwr := rfl
@[simp] theorem Dev.modChan_modes (k : Nat) (f : DChan → DChan) : (d.modChan k f).modes = d.modes := rfl
@[simp] theorem Dev.modChan_csr (k : Nat) (f : DChan → DChan) : (d.modChan k f).csr = d.csr := rfl
@[simp] theorem Dev.modChan_cnt (k : Nat) (f : DChan → DChan) : (d.modChan k f).cnt = d.cnt := rfl
@[simp] theorem Dev.modChan_evl (k : Nat) (f : DChan → DChan) : (d.modChan k f).evl = d.evl := rfl
@[simp] theorem Dev.modChan_kmb (k : Nat) (f : DChan → DChan) : (d.modChan k f).kmb = d.kmb := rfl
@[simp] theorem Dev.modChan_boot (k : Nat) (f : DChan → DChan) : (d.modChan k f).boot = d.boot := rfl
@[simp] theorem Dev.modChan_bcol (k : Nat) (f : DChan → DChan) : (d.modChan k f).bcol = d.bcol := rfl
@[simp] theorem Dev.modChan_ports (k : Nat) (f : DChan → DChan) : (d.modChan k f).ports = d.ports := rfl
@[simp] theorem Dev.modChan_fns (k : Nat) (f : DChan → DChan) : (d.modChan k f).fns = d.fns := rfl
@[simp] theorem Dev.modChan_hg (k : Nat) (f : DChan → DChan) : (d.modChan k f).hg = d.hg := rfl
@[simp] theorem Dev.modChan_adm (k : Nat) (f : DChan → DChan) : (d.modChan k f).adm = d.adm := rfl
@[simp] theorem Dev.modChan_mgmt (k : Nat) (f : DChan → DChan) : (d.modChan k f).mgmt = d.mgmt := rfl
@[simp] theorem Dev.modChan_jtag (k : Nat) (f : DChan → DChan) : (d.modChan k f).jtag = d.jtag := rfl
@[simp] theorem Dev.modChan_gl (k : Nat) (f : DChan → DChan) : (d.modChan k f).gl = d.gl := rfl
@[simp] theorem Dev.modChan_rp (k : Nat) (f : DChan → DChan) : (d.modChan k f).rp = d.rp := rfl
@[simp] theorem Dev.modChan_quires (k : Nat) (f : DChan → DChan) : (d.modChan k f).quires = d.quires := rfl
@[simp] theorem Dev.modChan_tc (k : Nat) (f : DChan → DChan) : (d.modChan k f).tc = d.tc := rfl
@[simp] theorem Dev.modChan_slu (k : Nat) (f : DChan → DChan) : (d.modChan k f).slu = d.slu := rfl
@[simp] theorem Dev.modChan_thm (k : Nat) (f : DChan → DChan) : (d.modChan k f).thm = d.thm := rfl
@[simp] theorem Dev.modChan_hu (k : Nat) (f : DChan → DChan) : (d.modChan k f).hu = d.hu := rfl
@[simp] theorem Dev.modChan_col (k : Nat) (f : DChan → DChan) : (d.modChan k f).col = d.col := rfl
@[simp] theorem Dev.modChan_bpm (k : Nat) (f : DChan → DChan) : (d.modChan k f).bpm = d.bpm := rfl
@[simp] theorem Dev.modChan_fc (k : Nat) (f : DChan → DChan) : (d.modChan k f).fc = d.fc := rfl
@[simp] theorem Dev.modChan_ring (k : Nat) (f : DChan → DChan) : (d.modChan k f).ring = d.ring := rfl
@[simp] theorem Dev.modChan_san (k : Nat) (f : DChan → DChan) : (d.modChan k f).san = d.san := rfl
@[simp] theorem Dev.modChan_out (k : Nat) (f : DChan → DChan) : (d.modChan k f).out = d.out := rfl
@[simp] theorem Dev.modChan_free (k : Nat) (f : DChan → DChan) : (d.modChan k f).free = d.free := rfl

/-! ### modDport -/

@[simp] theorem Dev.modDport_clk (k : Nat) (f : DPort → DPort) : (d.modDport k f).clk = d.clk := rfl
@[simp] theorem Dev.modDport_pins (k : Nat) (f : DPort → DPort) : (d.modDport k f).pins = d.pins := rfl
@[simp] theorem Dev.modDport_pwr (k : Nat) (f : DPort → DPort) : (d.modDport k f).pwr = d.pwr := rfl
@[simp] theorem Dev.modDport_modes (k : Nat) (f : DPort → DPort) : (d.modDport k f).modes = d.modes := rfl
@[simp] theorem Dev.modDport_csr (k : Nat) (f : DPort → DPort) : (d.modDport k f).csr = d.csr := rfl
@[simp] theorem Dev.modDport_cnt (k : Nat) (f : DPort → DPort) : (d.modDport k f).cnt = d.cnt := rfl
@[simp] theorem Dev.modDport_evl (k : Nat) (f : DPort → DPort) : (d.modDport k f).evl = d.evl := rfl
@[simp] theorem Dev.modDport_kmb (k : Nat) (f : DPort → DPort) : (d.modDport k f).kmb = d.kmb := rfl
@[simp] theorem Dev.modDport_boot (k : Nat) (f : DPort → DPort) : (d.modDport k f).boot = d.boot := rfl
@[simp] theorem Dev.modDport_bcol (k : Nat) (f : DPort → DPort) : (d.modDport k f).bcol = d.bcol := rfl
@[simp] theorem Dev.modDport_ports (k : Nat) (f : DPort → DPort) : (d.modDport k f).ports = d.ports := rfl
@[simp] theorem Dev.modDport_fns (k : Nat) (f : DPort → DPort) : (d.modDport k f).fns = d.fns := rfl
@[simp] theorem Dev.modDport_hg (k : Nat) (f : DPort → DPort) : (d.modDport k f).hg = d.hg := rfl
@[simp] theorem Dev.modDport_adm (k : Nat) (f : DPort → DPort) : (d.modDport k f).adm = d.adm := rfl
@[simp] theorem Dev.modDport_mgmt (k : Nat) (f : DPort → DPort) : (d.modDport k f).mgmt = d.mgmt := rfl
@[simp] theorem Dev.modDport_jtag (k : Nat) (f : DPort → DPort) : (d.modDport k f).jtag = d.jtag := rfl
@[simp] theorem Dev.modDport_gl (k : Nat) (f : DPort → DPort) : (d.modDport k f).gl = d.gl := rfl
@[simp] theorem Dev.modDport_rp (k : Nat) (f : DPort → DPort) : (d.modDport k f).rp = d.rp := rfl
@[simp] theorem Dev.modDport_quires (k : Nat) (f : DPort → DPort) : (d.modDport k f).quires = d.quires := rfl
@[simp] theorem Dev.modDport_tc (k : Nat) (f : DPort → DPort) : (d.modDport k f).tc = d.tc := rfl
@[simp] theorem Dev.modDport_slu (k : Nat) (f : DPort → DPort) : (d.modDport k f).slu = d.slu := rfl
@[simp] theorem Dev.modDport_thm (k : Nat) (f : DPort → DPort) : (d.modDport k f).thm = d.thm := rfl
@[simp] theorem Dev.modDport_hu (k : Nat) (f : DPort → DPort) : (d.modDport k f).hu = d.hu := rfl
@[simp] theorem Dev.modDport_col (k : Nat) (f : DPort → DPort) : (d.modDport k f).col = d.col := rfl
@[simp] theorem Dev.modDport_bpm (k : Nat) (f : DPort → DPort) : (d.modDport k f).bpm = d.bpm := rfl
@[simp] theorem Dev.modDport_fc (k : Nat) (f : DPort → DPort) : (d.modDport k f).fc = d.fc := rfl
@[simp] theorem Dev.modDport_ring (k : Nat) (f : DPort → DPort) : (d.modDport k f).ring = d.ring := rfl
@[simp] theorem Dev.modDport_san (k : Nat) (f : DPort → DPort) : (d.modDport k f).san = d.san := rfl
@[simp] theorem Dev.modDport_out (k : Nat) (f : DPort → DPort) : (d.modDport k f).out = d.out := rfl
@[simp] theorem Dev.modDport_free (k : Nat) (f : DPort → DPort) : (d.modDport k f).free = d.free := rfl

/-! ### modLp -/

@[simp] theorem Dev.modLp_clk (k : Nat) (f : LPair → LPair) : (d.modLp k f).clk = d.clk := rfl
@[simp] theorem Dev.modLp_pins (k : Nat) (f : LPair → LPair) : (d.modLp k f).pins = d.pins := rfl
@[simp] theorem Dev.modLp_pwr (k : Nat) (f : LPair → LPair) : (d.modLp k f).pwr = d.pwr := rfl
@[simp] theorem Dev.modLp_modes (k : Nat) (f : LPair → LPair) : (d.modLp k f).modes = d.modes := rfl
@[simp] theorem Dev.modLp_csr (k : Nat) (f : LPair → LPair) : (d.modLp k f).csr = d.csr := rfl
@[simp] theorem Dev.modLp_cnt (k : Nat) (f : LPair → LPair) : (d.modLp k f).cnt = d.cnt := rfl
@[simp] theorem Dev.modLp_evl (k : Nat) (f : LPair → LPair) : (d.modLp k f).evl = d.evl := rfl
@[simp] theorem Dev.modLp_kmb (k : Nat) (f : LPair → LPair) : (d.modLp k f).kmb = d.kmb := rfl
@[simp] theorem Dev.modLp_boot (k : Nat) (f : LPair → LPair) : (d.modLp k f).boot = d.boot := rfl
@[simp] theorem Dev.modLp_bcol (k : Nat) (f : LPair → LPair) : (d.modLp k f).bcol = d.bcol := rfl
@[simp] theorem Dev.modLp_ports (k : Nat) (f : LPair → LPair) : (d.modLp k f).ports = d.ports := rfl
@[simp] theorem Dev.modLp_fns (k : Nat) (f : LPair → LPair) : (d.modLp k f).fns = d.fns := rfl
@[simp] theorem Dev.modLp_hg (k : Nat) (f : LPair → LPair) : (d.modLp k f).hg = d.hg := rfl
@[simp] theorem Dev.modLp_adm (k : Nat) (f : LPair → LPair) : (d.modLp k f).adm = d.adm := rfl
@[simp] theorem Dev.modLp_mgmt (k : Nat) (f : LPair → LPair) : (d.modLp k f).mgmt = d.mgmt := rfl
@[simp] theorem Dev.modLp_jtag (k : Nat) (f : LPair → LPair) : (d.modLp k f).jtag = d.jtag := rfl
@[simp] theorem Dev.modLp_gl (k : Nat) (f : LPair → LPair) : (d.modLp k f).gl = d.gl := rfl
@[simp] theorem Dev.modLp_rp (k : Nat) (f : LPair → LPair) : (d.modLp k f).rp = d.rp := rfl
@[simp] theorem Dev.modLp_quires (k : Nat) (f : LPair → LPair) : (d.modLp k f).quires = d.quires := rfl
@[simp] theorem Dev.modLp_tc (k : Nat) (f : LPair → LPair) : (d.modLp k f).tc = d.tc := rfl
@[simp] theorem Dev.modLp_slu (k : Nat) (f : LPair → LPair) : (d.modLp k f).slu = d.slu := rfl
@[simp] theorem Dev.modLp_thm (k : Nat) (f : LPair → LPair) : (d.modLp k f).thm = d.thm := rfl
@[simp] theorem Dev.modLp_hu (k : Nat) (f : LPair → LPair) : (d.modLp k f).hu = d.hu := rfl
@[simp] theorem Dev.modLp_col (k : Nat) (f : LPair → LPair) : (d.modLp k f).col = d.col := rfl
@[simp] theorem Dev.modLp_bpm (k : Nat) (f : LPair → LPair) : (d.modLp k f).bpm = d.bpm := rfl
@[simp] theorem Dev.modLp_dmc (k : Nat) (f : LPair → LPair) : (d.modLp k f).dmc = d.dmc := rfl
@[simp] theorem Dev.modLp_ring (k : Nat) (f : LPair → LPair) : (d.modLp k f).ring = d.ring := rfl
@[simp] theorem Dev.modLp_san (k : Nat) (f : LPair → LPair) : (d.modLp k f).san = d.san := rfl
@[simp] theorem Dev.modLp_out (k : Nat) (f : LPair → LPair) : (d.modLp k f).out = d.out := rfl
@[simp] theorem Dev.modLp_free (k : Nat) (f : LPair → LPair) : (d.modLp k f).free = d.free := rfl

/-! ### modRing -/

@[simp] theorem Dev.modRing_clk (f : Ring → Ring) : (d.modRing f).clk = d.clk := rfl
@[simp] theorem Dev.modRing_pins (f : Ring → Ring) : (d.modRing f).pins = d.pins := rfl
@[simp] theorem Dev.modRing_pwr (f : Ring → Ring) : (d.modRing f).pwr = d.pwr := rfl
@[simp] theorem Dev.modRing_modes (f : Ring → Ring) : (d.modRing f).modes = d.modes := rfl
@[simp] theorem Dev.modRing_csr (f : Ring → Ring) : (d.modRing f).csr = d.csr := rfl
@[simp] theorem Dev.modRing_cnt (f : Ring → Ring) : (d.modRing f).cnt = d.cnt := rfl
@[simp] theorem Dev.modRing_evl (f : Ring → Ring) : (d.modRing f).evl = d.evl := rfl
@[simp] theorem Dev.modRing_kmb (f : Ring → Ring) : (d.modRing f).kmb = d.kmb := rfl
@[simp] theorem Dev.modRing_boot (f : Ring → Ring) : (d.modRing f).boot = d.boot := rfl
@[simp] theorem Dev.modRing_bcol (f : Ring → Ring) : (d.modRing f).bcol = d.bcol := rfl
@[simp] theorem Dev.modRing_ports (f : Ring → Ring) : (d.modRing f).ports = d.ports := rfl
@[simp] theorem Dev.modRing_fns (f : Ring → Ring) : (d.modRing f).fns = d.fns := rfl
@[simp] theorem Dev.modRing_hg (f : Ring → Ring) : (d.modRing f).hg = d.hg := rfl
@[simp] theorem Dev.modRing_adm (f : Ring → Ring) : (d.modRing f).adm = d.adm := rfl
@[simp] theorem Dev.modRing_mgmt (f : Ring → Ring) : (d.modRing f).mgmt = d.mgmt := rfl
@[simp] theorem Dev.modRing_jtag (f : Ring → Ring) : (d.modRing f).jtag = d.jtag := rfl
@[simp] theorem Dev.modRing_gl (f : Ring → Ring) : (d.modRing f).gl = d.gl := rfl
@[simp] theorem Dev.modRing_rp (f : Ring → Ring) : (d.modRing f).rp = d.rp := rfl
@[simp] theorem Dev.modRing_quires (f : Ring → Ring) : (d.modRing f).quires = d.quires := rfl
@[simp] theorem Dev.modRing_tc (f : Ring → Ring) : (d.modRing f).tc = d.tc := rfl
@[simp] theorem Dev.modRing_slu (f : Ring → Ring) : (d.modRing f).slu = d.slu := rfl
@[simp] theorem Dev.modRing_thm (f : Ring → Ring) : (d.modRing f).thm = d.thm := rfl
@[simp] theorem Dev.modRing_hu (f : Ring → Ring) : (d.modRing f).hu = d.hu := rfl
@[simp] theorem Dev.modRing_col (f : Ring → Ring) : (d.modRing f).col = d.col := rfl
@[simp] theorem Dev.modRing_bpm (f : Ring → Ring) : (d.modRing f).bpm = d.bpm := rfl
@[simp] theorem Dev.modRing_dmc (f : Ring → Ring) : (d.modRing f).dmc = d.dmc := rfl
@[simp] theorem Dev.modRing_fc (f : Ring → Ring) : (d.modRing f).fc = d.fc := rfl
@[simp] theorem Dev.modRing_san (f : Ring → Ring) : (d.modRing f).san = d.san := rfl
@[simp] theorem Dev.modRing_out (f : Ring → Ring) : (d.modRing f).out = d.out := rfl
@[simp] theorem Dev.modRing_free (f : Ring → Ring) : (d.modRing f).free = d.free := rfl

/-! ### modBuf -/

@[simp] theorem Dev.modBuf_clk (p k : Nat) (f : Buf → Buf) : (d.modBuf p k f).clk = d.clk := rfl
@[simp] theorem Dev.modBuf_pins (p k : Nat) (f : Buf → Buf) : (d.modBuf p k f).pins = d.pins := rfl
@[simp] theorem Dev.modBuf_pwr (p k : Nat) (f : Buf → Buf) : (d.modBuf p k f).pwr = d.pwr := rfl
@[simp] theorem Dev.modBuf_modes (p k : Nat) (f : Buf → Buf) : (d.modBuf p k f).modes = d.modes := rfl
@[simp] theorem Dev.modBuf_csr (p k : Nat) (f : Buf → Buf) : (d.modBuf p k f).csr = d.csr := rfl
@[simp] theorem Dev.modBuf_cnt (p k : Nat) (f : Buf → Buf) : (d.modBuf p k f).cnt = d.cnt := rfl
@[simp] theorem Dev.modBuf_evl (p k : Nat) (f : Buf → Buf) : (d.modBuf p k f).evl = d.evl := rfl
@[simp] theorem Dev.modBuf_kmb (p k : Nat) (f : Buf → Buf) : (d.modBuf p k f).kmb = d.kmb := rfl
@[simp] theorem Dev.modBuf_boot (p k : Nat) (f : Buf → Buf) : (d.modBuf p k f).boot = d.boot := rfl
@[simp] theorem Dev.modBuf_bcol (p k : Nat) (f : Buf → Buf) : (d.modBuf p k f).bcol = d.bcol := rfl
@[simp] theorem Dev.modBuf_ports (p k : Nat) (f : Buf → Buf) : (d.modBuf p k f).ports = d.ports := rfl
@[simp] theorem Dev.modBuf_fns (p k : Nat) (f : Buf → Buf) : (d.modBuf p k f).fns = d.fns := rfl
@[simp] theorem Dev.modBuf_hg (p k : Nat) (f : Buf → Buf) : (d.modBuf p k f).hg = d.hg := rfl
@[simp] theorem Dev.modBuf_adm (p k : Nat) (f : Buf → Buf) : (d.modBuf p k f).adm = d.adm := rfl
@[simp] theorem Dev.modBuf_mgmt (p k : Nat) (f : Buf → Buf) : (d.modBuf p k f).mgmt = d.mgmt := rfl
@[simp] theorem Dev.modBuf_jtag (p k : Nat) (f : Buf → Buf) : (d.modBuf p k f).jtag = d.jtag := rfl
@[simp] theorem Dev.modBuf_gl (p k : Nat) (f : Buf → Buf) : (d.modBuf p k f).gl = d.gl := rfl
@[simp] theorem Dev.modBuf_rp (p k : Nat) (f : Buf → Buf) : (d.modBuf p k f).rp = d.rp := rfl
@[simp] theorem Dev.modBuf_quires (p k : Nat) (f : Buf → Buf) : (d.modBuf p k f).quires = d.quires := rfl
@[simp] theorem Dev.modBuf_tc (p k : Nat) (f : Buf → Buf) : (d.modBuf p k f).tc = d.tc := rfl
@[simp] theorem Dev.modBuf_slu (p k : Nat) (f : Buf → Buf) : (d.modBuf p k f).slu = d.slu := rfl
@[simp] theorem Dev.modBuf_thm (p k : Nat) (f : Buf → Buf) : (d.modBuf p k f).thm = d.thm := rfl
@[simp] theorem Dev.modBuf_hu (p k : Nat) (f : Buf → Buf) : (d.modBuf p k f).hu = d.hu := rfl
@[simp] theorem Dev.modBuf_col (p k : Nat) (f : Buf → Buf) : (d.modBuf p k f).col = d.col := rfl
@[simp] theorem Dev.modBuf_dmc (p k : Nat) (f : Buf → Buf) : (d.modBuf p k f).dmc = d.dmc := rfl
@[simp] theorem Dev.modBuf_fc (p k : Nat) (f : Buf → Buf) : (d.modBuf p k f).fc = d.fc := rfl
@[simp] theorem Dev.modBuf_ring (p k : Nat) (f : Buf → Buf) : (d.modBuf p k f).ring = d.ring := rfl
@[simp] theorem Dev.modBuf_san (p k : Nat) (f : Buf → Buf) : (d.modBuf p k f).san = d.san := rfl
@[simp] theorem Dev.modBuf_out (p k : Nat) (f : Buf → Buf) : (d.modBuf p k f).out = d.out := rfl
@[simp] theorem Dev.modBuf_free (p k : Nat) (f : Buf → Buf) : (d.modBuf p k f).free = d.free := rfl

/-! ### What is read through a view, where the update leaves its part alone -/

@[simp] theorem Dev.emit_dom (o : Out) (j : Nat) : (d.emit o).dom j = d.dom j := by simp [Dev.dom]
@[simp] theorem Dev.emit_hport (o : Out) (r : Port) : (d.emit o).hport r = d.hport r := by simp [Dev.hport]
@[simp] theorem Dev.emit_fnst (o : Out) (m : Fn) : (d.emit o).fnst m = d.fnst m := by simp [Dev.fnst]
@[simp] theorem Dev.emit_box (o : Out) (r : Port) : (d.emit o).box r = d.box r := by simp [Dev.box]
@[simp] theorem Dev.emit_link (o : Out) (j : Nat) : (d.emit o).link j = d.link j := by simp [Dev.link]
@[simp] theorem Dev.emit_slot (o : Out) (j : Nat) : (d.emit o).slot j = d.slot j := by simp [Dev.slot]
@[simp] theorem Dev.emit_quire (o : Out) (j : Nat) : (d.emit o).quire j = d.quire j := by simp [Dev.quire]
@[simp] theorem Dev.emit_chan (o : Out) (j : Nat) : (d.emit o).chan j = d.chan j := by simp [Dev.chan]
@[simp] theorem Dev.emit_lp (o : Out) (j : Nat) : (d.emit o).lp j = d.lp j := by simp [Dev.lp]
@[simp] theorem Dev.emit_csrW (o : Out) (j : Nat) : (d.emit o).csrW j = d.csrW j := by simp [Dev.csrW]
@[simp] theorem Dev.emit_cond (o : Out) (j : Nat) : (d.emit o).cond j = d.cond j := by simp [Dev.cond]
@[simp] theorem Dev.emit_now (o : Out) : (d.emit o).now = d.now := by simp [Dev.now]

@[simp] theorem Dev.tickFree_dom (j : Nat) : (d.tickFree).dom j = d.dom j := by simp [Dev.dom]
@[simp] theorem Dev.tickFree_hport (r : Port) : (d.tickFree).hport r = d.hport r := by simp [Dev.hport]
@[simp] theorem Dev.tickFree_fnst (m : Fn) : (d.tickFree).fnst m = d.fnst m := by simp [Dev.fnst]
@[simp] theorem Dev.tickFree_box (r : Port) : (d.tickFree).box r = d.box r := by simp [Dev.box]
@[simp] theorem Dev.tickFree_link (j : Nat) : (d.tickFree).link j = d.link j := by simp [Dev.link]
@[simp] theorem Dev.tickFree_slot (j : Nat) : (d.tickFree).slot j = d.slot j := by simp [Dev.slot]
@[simp] theorem Dev.tickFree_quire (j : Nat) : (d.tickFree).quire j = d.quire j := by simp [Dev.quire]
@[simp] theorem Dev.tickFree_chan (j : Nat) : (d.tickFree).chan j = d.chan j := by simp [Dev.chan]
@[simp] theorem Dev.tickFree_lp (j : Nat) : (d.tickFree).lp j = d.lp j := by simp [Dev.lp]
@[simp] theorem Dev.tickFree_csrW (j : Nat) : (d.tickFree).csrW j = d.csrW j := by simp [Dev.csrW]
@[simp] theorem Dev.tickFree_cond (j : Nat) : (d.tickFree).cond j = d.cond j := by simp [Dev.cond]
@[simp] theorem Dev.tickFree_now  : (d.tickFree).now = d.now := by simp [Dev.now]

@[simp] theorem Dev.count_dom (a lo w n : Nat) (j : Nat) : (d.count a lo w n).dom j = d.dom j := by simp [Dev.dom]
@[simp] theorem Dev.count_hport (a lo w n : Nat) (r : Port) : (d.count a lo w n).hport r = d.hport r := by simp [Dev.hport]
@[simp] theorem Dev.count_fnst (a lo w n : Nat) (m : Fn) : (d.count a lo w n).fnst m = d.fnst m := by simp [Dev.fnst]
@[simp] theorem Dev.count_box (a lo w n : Nat) (r : Port) : (d.count a lo w n).box r = d.box r := by simp [Dev.box]
@[simp] theorem Dev.count_link (a lo w n : Nat) (j : Nat) : (d.count a lo w n).link j = d.link j := by simp [Dev.link]
@[simp] theorem Dev.count_slot (a lo w n : Nat) (j : Nat) : (d.count a lo w n).slot j = d.slot j := by simp [Dev.slot]
@[simp] theorem Dev.count_quire (a lo w n : Nat) (j : Nat) : (d.count a lo w n).quire j = d.quire j := by simp [Dev.quire]
@[simp] theorem Dev.count_chan (a lo w n : Nat) (j : Nat) : (d.count a lo w n).chan j = d.chan j := by simp [Dev.chan]
@[simp] theorem Dev.count_lp (a lo w n : Nat) (j : Nat) : (d.count a lo w n).lp j = d.lp j := by simp [Dev.lp]
@[simp] theorem Dev.count_csrW (a lo w n : Nat) (j : Nat) : (d.count a lo w n).csrW j = d.csrW j := by simp [Dev.csrW]
@[simp] theorem Dev.count_cond (a lo w n : Nat) (j : Nat) : (d.count a lo w n).cond j = d.cond j := by simp [Dev.cond]
@[simp] theorem Dev.count_now (a lo w n : Nat) : (d.count a lo w n).now = d.now := by simp [Dev.now]

@[simp] theorem Dev.setCsr_dom (a : Nat) (w : W32) (j : Nat) : (d.setCsr a w).dom j = d.dom j := by simp [Dev.dom]
@[simp] theorem Dev.setCsr_hport (a : Nat) (w : W32) (r : Port) : (d.setCsr a w).hport r = d.hport r := by simp [Dev.hport]
@[simp] theorem Dev.setCsr_fnst (a : Nat) (w : W32) (m : Fn) : (d.setCsr a w).fnst m = d.fnst m := by simp [Dev.fnst]
@[simp] theorem Dev.setCsr_box (a : Nat) (w : W32) (r : Port) : (d.setCsr a w).box r = d.box r := by simp [Dev.box]
@[simp] theorem Dev.setCsr_link (a : Nat) (w : W32) (j : Nat) : (d.setCsr a w).link j = d.link j := by simp [Dev.link]
@[simp] theorem Dev.setCsr_slot (a : Nat) (w : W32) (j : Nat) : (d.setCsr a w).slot j = d.slot j := by simp [Dev.slot]
@[simp] theorem Dev.setCsr_quire (a : Nat) (w : W32) (j : Nat) : (d.setCsr a w).quire j = d.quire j := by simp [Dev.quire]
@[simp] theorem Dev.setCsr_chan (a : Nat) (w : W32) (j : Nat) : (d.setCsr a w).chan j = d.chan j := by simp [Dev.chan]
@[simp] theorem Dev.setCsr_lp (a : Nat) (w : W32) (j : Nat) : (d.setCsr a w).lp j = d.lp j := by simp [Dev.lp]
@[simp] theorem Dev.setCsr_cond (a : Nat) (w : W32) (j : Nat) : (d.setCsr a w).cond j = d.cond j := by simp [Dev.cond]
@[simp] theorem Dev.setCsr_now (a : Nat) (w : W32) : (d.setCsr a w).now = d.now := by simp [Dev.now]

@[simp] theorem Dev.offer_dom (c s : Nat) (p : List Byte) (j : Nat) : (d.offer c s p).dom j = d.dom j := by simp [Dev.dom]
@[simp] theorem Dev.offer_hport (c s : Nat) (p : List Byte) (r : Port) : (d.offer c s p).hport r = d.hport r := by simp [Dev.hport]
@[simp] theorem Dev.offer_fnst (c s : Nat) (p : List Byte) (m : Fn) : (d.offer c s p).fnst m = d.fnst m := by simp [Dev.fnst]
@[simp] theorem Dev.offer_box (c s : Nat) (p : List Byte) (r : Port) : (d.offer c s p).box r = d.box r := by simp [Dev.box]
@[simp] theorem Dev.offer_link (c s : Nat) (p : List Byte) (j : Nat) : (d.offer c s p).link j = d.link j := by simp [Dev.link]
@[simp] theorem Dev.offer_slot (c s : Nat) (p : List Byte) (j : Nat) : (d.offer c s p).slot j = d.slot j := by simp [Dev.slot]
@[simp] theorem Dev.offer_quire (c s : Nat) (p : List Byte) (j : Nat) : (d.offer c s p).quire j = d.quire j := by simp [Dev.quire]
@[simp] theorem Dev.offer_chan (c s : Nat) (p : List Byte) (j : Nat) : (d.offer c s p).chan j = d.chan j := by simp [Dev.chan]
@[simp] theorem Dev.offer_lp (c s : Nat) (p : List Byte) (j : Nat) : (d.offer c s p).lp j = d.lp j := by simp [Dev.lp]
@[simp] theorem Dev.offer_csrW (c s : Nat) (p : List Byte) (j : Nat) : (d.offer c s p).csrW j = d.csrW j := by simp [Dev.csrW]
@[simp] theorem Dev.offer_cond (c s : Nat) (p : List Byte) (j : Nat) : (d.offer c s p).cond j = d.cond j := by simp [Dev.cond]
@[simp] theorem Dev.offer_now (c s : Nat) (p : List Byte) : (d.offer c s p).now = d.now := by simp [Dev.now]

@[simp] theorem Dev.ev_dom (c i : Nat) (l : List PField) (j : Nat) : (d.ev c i l).dom j = d.dom j := by simp [Dev.dom]
@[simp] theorem Dev.ev_hport (c i : Nat) (l : List PField) (r : Port) : (d.ev c i l).hport r = d.hport r := by simp [Dev.hport]
@[simp] theorem Dev.ev_fnst (c i : Nat) (l : List PField) (m : Fn) : (d.ev c i l).fnst m = d.fnst m := by simp [Dev.fnst]
@[simp] theorem Dev.ev_box (c i : Nat) (l : List PField) (r : Port) : (d.ev c i l).box r = d.box r := by simp [Dev.box]
@[simp] theorem Dev.ev_link (c i : Nat) (l : List PField) (j : Nat) : (d.ev c i l).link j = d.link j := by simp [Dev.link]
@[simp] theorem Dev.ev_slot (c i : Nat) (l : List PField) (j : Nat) : (d.ev c i l).slot j = d.slot j := by simp [Dev.slot]
@[simp] theorem Dev.ev_quire (c i : Nat) (l : List PField) (j : Nat) : (d.ev c i l).quire j = d.quire j := by simp [Dev.quire]
@[simp] theorem Dev.ev_chan (c i : Nat) (l : List PField) (j : Nat) : (d.ev c i l).chan j = d.chan j := by simp [Dev.chan]
@[simp] theorem Dev.ev_lp (c i : Nat) (l : List PField) (j : Nat) : (d.ev c i l).lp j = d.lp j := by simp [Dev.lp]
@[simp] theorem Dev.ev_csrW (c i : Nat) (l : List PField) (j : Nat) : (d.ev c i l).csrW j = d.csrW j := by simp [Dev.csrW]
@[simp] theorem Dev.ev_cond (c i : Nat) (l : List PField) (j : Nat) : (d.ev c i l).cond j = d.cond j := by simp [Dev.cond]
@[simp] theorem Dev.ev_now (c i : Nat) (l : List PField) : (d.ev c i l).now = d.now := by simp [Dev.now]

@[simp] theorem Dev.modDom_hport (k : Nat) (f : Dom → Dom) (r : Port) : (d.modDom k f).hport r = d.hport r := by simp [Dev.hport]
@[simp] theorem Dev.modDom_fnst (k : Nat) (f : Dom → Dom) (m : Fn) : (d.modDom k f).fnst m = d.fnst m := by simp [Dev.fnst]
@[simp] theorem Dev.modDom_box (k : Nat) (f : Dom → Dom) (r : Port) : (d.modDom k f).box r = d.box r := by simp [Dev.box]
@[simp] theorem Dev.modDom_link (k : Nat) (f : Dom → Dom) (j : Nat) : (d.modDom k f).link j = d.link j := by simp [Dev.link]
@[simp] theorem Dev.modDom_slot (k : Nat) (f : Dom → Dom) (j : Nat) : (d.modDom k f).slot j = d.slot j := by simp [Dev.slot]
@[simp] theorem Dev.modDom_quire (k : Nat) (f : Dom → Dom) (j : Nat) : (d.modDom k f).quire j = d.quire j := by simp [Dev.quire]
@[simp] theorem Dev.modDom_chan (k : Nat) (f : Dom → Dom) (j : Nat) : (d.modDom k f).chan j = d.chan j := by simp [Dev.chan]
@[simp] theorem Dev.modDom_lp (k : Nat) (f : Dom → Dom) (j : Nat) : (d.modDom k f).lp j = d.lp j := by simp [Dev.lp]
@[simp] theorem Dev.modDom_csrW (k : Nat) (f : Dom → Dom) (j : Nat) : (d.modDom k f).csrW j = d.csrW j := by simp [Dev.csrW]
@[simp] theorem Dev.modDom_cond (k : Nat) (f : Dom → Dom) (j : Nat) : (d.modDom k f).cond j = d.cond j := by simp [Dev.cond]
@[simp] theorem Dev.modDom_now (k : Nat) (f : Dom → Dom) : (d.modDom k f).now = d.now := by simp [Dev.now]

@[simp] theorem Dev.modPort_dom (p : Port) (f : HPort → HPort) (j : Nat) : (d.modPort p f).dom j = d.dom j := by simp [Dev.dom]
@[simp] theorem Dev.modPort_fnst (p : Port) (f : HPort → HPort) (m : Fn) : (d.modPort p f).fnst m = d.fnst m := by simp [Dev.fnst]
@[simp] theorem Dev.modPort_box (p : Port) (f : HPort → HPort) (r : Port) : (d.modPort p f).box r = d.box r := by simp [Dev.box]
@[simp] theorem Dev.modPort_link (p : Port) (f : HPort → HPort) (j : Nat) : (d.modPort p f).link j = d.link j := by simp [Dev.link]
@[simp] theorem Dev.modPort_slot (p : Port) (f : HPort → HPort) (j : Nat) : (d.modPort p f).slot j = d.slot j := by simp [Dev.slot]
@[simp] theorem Dev.modPort_quire (p : Port) (f : HPort → HPort) (j : Nat) : (d.modPort p f).quire j = d.quire j := by simp [Dev.quire]
@[simp] theorem Dev.modPort_chan (p : Port) (f : HPort → HPort) (j : Nat) : (d.modPort p f).chan j = d.chan j := by simp [Dev.chan]
@[simp] theorem Dev.modPort_lp (p : Port) (f : HPort → HPort) (j : Nat) : (d.modPort p f).lp j = d.lp j := by simp [Dev.lp]
@[simp] theorem Dev.modPort_csrW (p : Port) (f : HPort → HPort) (j : Nat) : (d.modPort p f).csrW j = d.csrW j := by simp [Dev.csrW]
@[simp] theorem Dev.modPort_cond (p : Port) (f : HPort → HPort) (j : Nat) : (d.modPort p f).cond j = d.cond j := by simp [Dev.cond]
@[simp] theorem Dev.modPort_now (p : Port) (f : HPort → HPort) : (d.modPort p f).now = d.now := by simp [Dev.now]

@[simp] theorem Dev.modFn_dom (n : Fn) (f : FnSt → FnSt) (j : Nat) : (d.modFn n f).dom j = d.dom j := by simp [Dev.dom]
@[simp] theorem Dev.modFn_hport (n : Fn) (f : FnSt → FnSt) (r : Port) : (d.modFn n f).hport r = d.hport r := by simp [Dev.hport]
@[simp] theorem Dev.modFn_box (n : Fn) (f : FnSt → FnSt) (r : Port) : (d.modFn n f).box r = d.box r := by simp [Dev.box]
@[simp] theorem Dev.modFn_link (n : Fn) (f : FnSt → FnSt) (j : Nat) : (d.modFn n f).link j = d.link j := by simp [Dev.link]
@[simp] theorem Dev.modFn_slot (n : Fn) (f : FnSt → FnSt) (j : Nat) : (d.modFn n f).slot j = d.slot j := by simp [Dev.slot]
@[simp] theorem Dev.modFn_quire (n : Fn) (f : FnSt → FnSt) (j : Nat) : (d.modFn n f).quire j = d.quire j := by simp [Dev.quire]
@[simp] theorem Dev.modFn_chan (n : Fn) (f : FnSt → FnSt) (j : Nat) : (d.modFn n f).chan j = d.chan j := by simp [Dev.chan]
@[simp] theorem Dev.modFn_lp (n : Fn) (f : FnSt → FnSt) (j : Nat) : (d.modFn n f).lp j = d.lp j := by simp [Dev.lp]
@[simp] theorem Dev.modFn_csrW (n : Fn) (f : FnSt → FnSt) (j : Nat) : (d.modFn n f).csrW j = d.csrW j := by simp [Dev.csrW]
@[simp] theorem Dev.modFn_cond (n : Fn) (f : FnSt → FnSt) (j : Nat) : (d.modFn n f).cond j = d.cond j := by simp [Dev.cond]
@[simp] theorem Dev.modFn_now (n : Fn) (f : FnSt → FnSt) : (d.modFn n f).now = d.now := by simp [Dev.now]

@[simp] theorem Dev.modBox_dom (p : Port) (f : Kmb → Kmb) (j : Nat) : (d.modBox p f).dom j = d.dom j := by simp [Dev.dom]
@[simp] theorem Dev.modBox_hport (p : Port) (f : Kmb → Kmb) (r : Port) : (d.modBox p f).hport r = d.hport r := by simp [Dev.hport]
@[simp] theorem Dev.modBox_fnst (p : Port) (f : Kmb → Kmb) (m : Fn) : (d.modBox p f).fnst m = d.fnst m := by simp [Dev.fnst]
@[simp] theorem Dev.modBox_link (p : Port) (f : Kmb → Kmb) (j : Nat) : (d.modBox p f).link j = d.link j := by simp [Dev.link]
@[simp] theorem Dev.modBox_slot (p : Port) (f : Kmb → Kmb) (j : Nat) : (d.modBox p f).slot j = d.slot j := by simp [Dev.slot]
@[simp] theorem Dev.modBox_quire (p : Port) (f : Kmb → Kmb) (j : Nat) : (d.modBox p f).quire j = d.quire j := by simp [Dev.quire]
@[simp] theorem Dev.modBox_chan (p : Port) (f : Kmb → Kmb) (j : Nat) : (d.modBox p f).chan j = d.chan j := by simp [Dev.chan]
@[simp] theorem Dev.modBox_lp (p : Port) (f : Kmb → Kmb) (j : Nat) : (d.modBox p f).lp j = d.lp j := by simp [Dev.lp]
@[simp] theorem Dev.modBox_csrW (p : Port) (f : Kmb → Kmb) (j : Nat) : (d.modBox p f).csrW j = d.csrW j := by simp [Dev.csrW]
@[simp] theorem Dev.modBox_cond (p : Port) (f : Kmb → Kmb) (j : Nat) : (d.modBox p f).cond j = d.cond j := by simp [Dev.cond]
@[simp] theorem Dev.modBox_now (p : Port) (f : Kmb → Kmb) : (d.modBox p f).now = d.now := by simp [Dev.now]

@[simp] theorem Dev.modCtx_dom (k : Nat) (f : RCtx → RCtx) (j : Nat) : (d.modCtx k f).dom j = d.dom j := by simp [Dev.dom]
@[simp] theorem Dev.modCtx_hport (k : Nat) (f : RCtx → RCtx) (r : Port) : (d.modCtx k f).hport r = d.hport r := by simp [Dev.hport]
@[simp] theorem Dev.modCtx_fnst (k : Nat) (f : RCtx → RCtx) (m : Fn) : (d.modCtx k f).fnst m = d.fnst m := by simp [Dev.fnst]
@[simp] theorem Dev.modCtx_box (k : Nat) (f : RCtx → RCtx) (r : Port) : (d.modCtx k f).box r = d.box r := by simp [Dev.box]
@[simp] theorem Dev.modCtx_link (k : Nat) (f : RCtx → RCtx) (j : Nat) : (d.modCtx k f).link j = d.link j := by simp [Dev.link]
@[simp] theorem Dev.modCtx_slot (k : Nat) (f : RCtx → RCtx) (j : Nat) : (d.modCtx k f).slot j = d.slot j := by simp [Dev.slot]
@[simp] theorem Dev.modCtx_quire (k : Nat) (f : RCtx → RCtx) (j : Nat) : (d.modCtx k f).quire j = d.quire j := by simp [Dev.quire]
@[simp] theorem Dev.modCtx_chan (k : Nat) (f : RCtx → RCtx) (j : Nat) : (d.modCtx k f).chan j = d.chan j := by simp [Dev.chan]
@[simp] theorem Dev.modCtx_lp (k : Nat) (f : RCtx → RCtx) (j : Nat) : (d.modCtx k f).lp j = d.lp j := by simp [Dev.lp]
@[simp] theorem Dev.modCtx_csrW (k : Nat) (f : RCtx → RCtx) (j : Nat) : (d.modCtx k f).csrW j = d.csrW j := by simp [Dev.csrW]
@[simp] theorem Dev.modCtx_cond (k : Nat) (f : RCtx → RCtx) (j : Nat) : (d.modCtx k f).cond j = d.cond j := by simp [Dev.cond]
@[simp] theorem Dev.modCtx_now (k : Nat) (f : RCtx → RCtx) : (d.modCtx k f).now = d.now := by simp [Dev.now]

@[simp] theorem Dev.modSlot_dom (k : Nat) (f : CSlot → CSlot) (j : Nat) : (d.modSlot k f).dom j = d.dom j := by simp [Dev.dom]
@[simp] theorem Dev.modSlot_hport (k : Nat) (f : CSlot → CSlot) (r : Port) : (d.modSlot k f).hport r = d.hport r := by simp [Dev.hport]
@[simp] theorem Dev.modSlot_fnst (k : Nat) (f : CSlot → CSlot) (m : Fn) : (d.modSlot k f).fnst m = d.fnst m := by simp [Dev.fnst]
@[simp] theorem Dev.modSlot_box (k : Nat) (f : CSlot → CSlot) (r : Port) : (d.modSlot k f).box r = d.box r := by simp [Dev.box]
@[simp] theorem Dev.modSlot_link (k : Nat) (f : CSlot → CSlot) (j : Nat) : (d.modSlot k f).link j = d.link j := by simp [Dev.link]
@[simp] theorem Dev.modSlot_slot (k : Nat) (f : CSlot → CSlot) (j : Nat) : (d.modSlot k f).slot j = d.slot j := by simp [Dev.slot]
@[simp] theorem Dev.modSlot_quire (k : Nat) (f : CSlot → CSlot) (j : Nat) : (d.modSlot k f).quire j = d.quire j := by simp [Dev.quire]
@[simp] theorem Dev.modSlot_chan (k : Nat) (f : CSlot → CSlot) (j : Nat) : (d.modSlot k f).chan j = d.chan j := by simp [Dev.chan]
@[simp] theorem Dev.modSlot_lp (k : Nat) (f : CSlot → CSlot) (j : Nat) : (d.modSlot k f).lp j = d.lp j := by simp [Dev.lp]
@[simp] theorem Dev.modSlot_csrW (k : Nat) (f : CSlot → CSlot) (j : Nat) : (d.modSlot k f).csrW j = d.csrW j := by simp [Dev.csrW]
@[simp] theorem Dev.modSlot_cond (k : Nat) (f : CSlot → CSlot) (j : Nat) : (d.modSlot k f).cond j = d.cond j := by simp [Dev.cond]
@[simp] theorem Dev.modSlot_now (k : Nat) (f : CSlot → CSlot) : (d.modSlot k f).now = d.now := by simp [Dev.now]

@[simp] theorem Dev.modStat_dom (k : Nat) (f : TStat → TStat) (j : Nat) : (d.modStat k f).dom j = d.dom j := by simp [Dev.dom]
@[simp] theorem Dev.modStat_hport (k : Nat) (f : TStat → TStat) (r : Port) : (d.modStat k f).hport r = d.hport r := by simp [Dev.hport]
@[simp] theorem Dev.modStat_fnst (k : Nat) (f : TStat → TStat) (m : Fn) : (d.modStat k f).fnst m = d.fnst m := by simp [Dev.fnst]
@[simp] theorem Dev.modStat_box (k : Nat) (f : TStat → TStat) (r : Port) : (d.modStat k f).box r = d.box r := by simp [Dev.box]
@[simp] theorem Dev.modStat_link (k : Nat) (f : TStat → TStat) (j : Nat) : (d.modStat k f).link j = d.link j := by simp [Dev.link]
@[simp] theorem Dev.modStat_slot (k : Nat) (f : TStat → TStat) (j : Nat) : (d.modStat k f).slot j = d.slot j := by simp [Dev.slot]
@[simp] theorem Dev.modStat_quire (k : Nat) (f : TStat → TStat) (j : Nat) : (d.modStat k f).quire j = d.quire j := by simp [Dev.quire]
@[simp] theorem Dev.modStat_chan (k : Nat) (f : TStat → TStat) (j : Nat) : (d.modStat k f).chan j = d.chan j := by simp [Dev.chan]
@[simp] theorem Dev.modStat_lp (k : Nat) (f : TStat → TStat) (j : Nat) : (d.modStat k f).lp j = d.lp j := by simp [Dev.lp]
@[simp] theorem Dev.modStat_csrW (k : Nat) (f : TStat → TStat) (j : Nat) : (d.modStat k f).csrW j = d.csrW j := by simp [Dev.csrW]
@[simp] theorem Dev.modStat_cond (k : Nat) (f : TStat → TStat) (j : Nat) : (d.modStat k f).cond j = d.cond j := by simp [Dev.cond]
@[simp] theorem Dev.modStat_now (k : Nat) (f : TStat → TStat) : (d.modStat k f).now = d.now := by simp [Dev.now]

@[simp] theorem Dev.modLink_dom (k : Nat) (f : Link → Link) (j : Nat) : (d.modLink k f).dom j = d.dom j := by simp [Dev.dom]
@[simp] theorem Dev.modLink_hport (k : Nat) (f : Link → Link) (r : Port) : (d.modLink k f).hport r = d.hport r := by simp [Dev.hport]
@[simp] theorem Dev.modLink_fnst (k : Nat) (f : Link → Link) (m : Fn) : (d.modLink k f).fnst m = d.fnst m := by simp [Dev.fnst]
@[simp] theorem Dev.modLink_box (k : Nat) (f : Link → Link) (r : Port) : (d.modLink k f).box r = d.box r := by simp [Dev.box]
@[simp] theorem Dev.modLink_quire (k : Nat) (f : Link → Link) (j : Nat) : (d.modLink k f).quire j = d.quire j := by simp [Dev.quire]
@[simp] theorem Dev.modLink_chan (k : Nat) (f : Link → Link) (j : Nat) : (d.modLink k f).chan j = d.chan j := by simp [Dev.chan]
@[simp] theorem Dev.modLink_lp (k : Nat) (f : Link → Link) (j : Nat) : (d.modLink k f).lp j = d.lp j := by simp [Dev.lp]
@[simp] theorem Dev.modLink_csrW (k : Nat) (f : Link → Link) (j : Nat) : (d.modLink k f).csrW j = d.csrW j := by simp [Dev.csrW]
@[simp] theorem Dev.modLink_cond (k : Nat) (f : Link → Link) (j : Nat) : (d.modLink k f).cond j = d.cond j := by simp [Dev.cond]
@[simp] theorem Dev.modLink_now (k : Nat) (f : Link → Link) : (d.modLink k f).now = d.now := by simp [Dev.now]

@[simp] theorem Dev.modSt_dom (k : Nat) (f : SlotSt → SlotSt) (j : Nat) : (d.modSt k f).dom j = d.dom j := by simp [Dev.dom]
@[simp] theorem Dev.modSt_hport (k : Nat) (f : SlotSt → SlotSt) (r : Port) : (d.modSt k f).hport r = d.hport r := by simp [Dev.hport]
@[simp] theorem Dev.modSt_fnst (k : Nat) (f : SlotSt → SlotSt) (m : Fn) : (d.modSt k f).fnst m = d.fnst m := by simp [Dev.fnst]
@[simp] theorem Dev.modSt_box (k : Nat) (f : SlotSt → SlotSt) (r : Port) : (d.modSt k f).box r = d.box r := by simp [Dev.box]
@[simp] theorem Dev.modSt_quire (k : Nat) (f : SlotSt → SlotSt) (j : Nat) : (d.modSt k f).quire j = d.quire j := by simp [Dev.quire]
@[simp] theorem Dev.modSt_chan (k : Nat) (f : SlotSt → SlotSt) (j : Nat) : (d.modSt k f).chan j = d.chan j := by simp [Dev.chan]
@[simp] theorem Dev.modSt_lp (k : Nat) (f : SlotSt → SlotSt) (j : Nat) : (d.modSt k f).lp j = d.lp j := by simp [Dev.lp]
@[simp] theorem Dev.modSt_csrW (k : Nat) (f : SlotSt → SlotSt) (j : Nat) : (d.modSt k f).csrW j = d.csrW j := by simp [Dev.csrW]
@[simp] theorem Dev.modSt_cond (k : Nat) (f : SlotSt → SlotSt) (j : Nat) : (d.modSt k f).cond j = d.cond j := by simp [Dev.cond]
@[simp] theorem Dev.modSt_now (k : Nat) (f : SlotSt → SlotSt) : (d.modSt k f).now = d.now := by simp [Dev.now]

@[simp] theorem Dev.modDie_dom (s k : Nat) (f : Die → Die) (j : Nat) : (d.modDie s k f).dom j = d.dom j := by simp [Dev.dom]
@[simp] theorem Dev.modDie_hport (s k : Nat) (f : Die → Die) (r : Port) : (d.modDie s k f).hport r = d.hport r := by simp [Dev.hport]
@[simp] theorem Dev.modDie_fnst (s k : Nat) (f : Die → Die) (m : Fn) : (d.modDie s k f).fnst m = d.fnst m := by simp [Dev.fnst]
@[simp] theorem Dev.modDie_box (s k : Nat) (f : Die → Die) (r : Port) : (d.modDie s k f).box r = d.box r := by simp [Dev.box]
@[simp] theorem Dev.modDie_link (s k : Nat) (f : Die → Die) (j : Nat) : (d.modDie s k f).link j = d.link j := by simp [Dev.link]
@[simp] theorem Dev.modDie_slot (s k : Nat) (f : Die → Die) (j : Nat) : (d.modDie s k f).slot j = d.slot j := by simp [Dev.slot]
@[simp] theorem Dev.modDie_quire (s k : Nat) (f : Die → Die) (j : Nat) : (d.modDie s k f).quire j = d.quire j := by simp [Dev.quire]
@[simp] theorem Dev.modDie_chan (s k : Nat) (f : Die → Die) (j : Nat) : (d.modDie s k f).chan j = d.chan j := by simp [Dev.chan]
@[simp] theorem Dev.modDie_lp (s k : Nat) (f : Die → Die) (j : Nat) : (d.modDie s k f).lp j = d.lp j := by simp [Dev.lp]
@[simp] theorem Dev.modDie_csrW (s k : Nat) (f : Die → Die) (j : Nat) : (d.modDie s k f).csrW j = d.csrW j := by simp [Dev.csrW]
@[simp] theorem Dev.modDie_cond (s k : Nat) (f : Die → Die) (j : Nat) : (d.modDie s k f).cond j = d.cond j := by simp [Dev.cond]
@[simp] theorem Dev.modDie_now (s k : Nat) (f : Die → Die) : (d.modDie s k f).now = d.now := by simp [Dev.now]

@[simp] theorem Dev.modQuire_dom (q : Nat) (f : Quire → Quire) (j : Nat) : (d.modQuire q f).dom j = d.dom j := by simp [Dev.dom]
@[simp] theorem Dev.modQuire_hport (q : Nat) (f : Quire → Quire) (r : Port) : (d.modQuire q f).hport r = d.hport r := by simp [Dev.hport]
@[simp] theorem Dev.modQuire_fnst (q : Nat) (f : Quire → Quire) (m : Fn) : (d.modQuire q f).fnst m = d.fnst m := by simp [Dev.fnst]
@[simp] theorem Dev.modQuire_box (q : Nat) (f : Quire → Quire) (r : Port) : (d.modQuire q f).box r = d.box r := by simp [Dev.box]
@[simp] theorem Dev.modQuire_link (q : Nat) (f : Quire → Quire) (j : Nat) : (d.modQuire q f).link j = d.link j := by simp [Dev.link]
@[simp] theorem Dev.modQuire_slot (q : Nat) (f : Quire → Quire) (j : Nat) : (d.modQuire q f).slot j = d.slot j := by simp [Dev.slot]
@[simp] theorem Dev.modQuire_chan (q : Nat) (f : Quire → Quire) (j : Nat) : (d.modQuire q f).chan j = d.chan j := by simp [Dev.chan]
@[simp] theorem Dev.modQuire_lp (q : Nat) (f : Quire → Quire) (j : Nat) : (d.modQuire q f).lp j = d.lp j := by simp [Dev.lp]
@[simp] theorem Dev.modQuire_csrW (q : Nat) (f : Quire → Quire) (j : Nat) : (d.modQuire q f).csrW j = d.csrW j := by simp [Dev.csrW]
@[simp] theorem Dev.modQuire_cond (q : Nat) (f : Quire → Quire) (j : Nat) : (d.modQuire q f).cond j = d.cond j := by simp [Dev.cond]
@[simp] theorem Dev.modQuire_now (q : Nat) (f : Quire → Quire) : (d.modQuire q f).now = d.now := by simp [Dev.now]

@[simp] theorem Dev.modNsp_dom (k : Nat) (f : Nsp → Nsp) (j : Nat) : (d.modNsp k f).dom j = d.dom j := by simp [Dev.dom]
@[simp] theorem Dev.modNsp_hport (k : Nat) (f : Nsp → Nsp) (r : Port) : (d.modNsp k f).hport r = d.hport r := by simp [Dev.hport]
@[simp] theorem Dev.modNsp_fnst (k : Nat) (f : Nsp → Nsp) (m : Fn) : (d.modNsp k f).fnst m = d.fnst m := by simp [Dev.fnst]
@[simp] theorem Dev.modNsp_box (k : Nat) (f : Nsp → Nsp) (r : Port) : (d.modNsp k f).box r = d.box r := by simp [Dev.box]
@[simp] theorem Dev.modNsp_link (k : Nat) (f : Nsp → Nsp) (j : Nat) : (d.modNsp k f).link j = d.link j := by simp [Dev.link]
@[simp] theorem Dev.modNsp_slot (k : Nat) (f : Nsp → Nsp) (j : Nat) : (d.modNsp k f).slot j = d.slot j := by simp [Dev.slot]
@[simp] theorem Dev.modNsp_quire (k : Nat) (f : Nsp → Nsp) (j : Nat) : (d.modNsp k f).quire j = d.quire j := by simp [Dev.quire]
@[simp] theorem Dev.modNsp_chan (k : Nat) (f : Nsp → Nsp) (j : Nat) : (d.modNsp k f).chan j = d.chan j := by simp [Dev.chan]
@[simp] theorem Dev.modNsp_lp (k : Nat) (f : Nsp → Nsp) (j : Nat) : (d.modNsp k f).lp j = d.lp j := by simp [Dev.lp]
@[simp] theorem Dev.modNsp_csrW (k : Nat) (f : Nsp → Nsp) (j : Nat) : (d.modNsp k f).csrW j = d.csrW j := by simp [Dev.csrW]
@[simp] theorem Dev.modNsp_cond (k : Nat) (f : Nsp → Nsp) (j : Nat) : (d.modNsp k f).cond j = d.cond j := by simp [Dev.cond]
@[simp] theorem Dev.modNsp_now (k : Nat) (f : Nsp → Nsp) : (d.modNsp k f).now = d.now := by simp [Dev.now]

@[simp] theorem Dev.modFurrow_dom (k : Nat) (f : Furrow → Furrow) (j : Nat) : (d.modFurrow k f).dom j = d.dom j := by simp [Dev.dom]
@[simp] theorem Dev.modFurrow_hport (k : Nat) (f : Furrow → Furrow) (r : Port) : (d.modFurrow k f).hport r = d.hport r := by simp [Dev.hport]
@[simp] theorem Dev.modFurrow_fnst (k : Nat) (f : Furrow → Furrow) (m : Fn) : (d.modFurrow k f).fnst m = d.fnst m := by simp [Dev.fnst]
@[simp] theorem Dev.modFurrow_box (k : Nat) (f : Furrow → Furrow) (r : Port) : (d.modFurrow k f).box r = d.box r := by simp [Dev.box]
@[simp] theorem Dev.modFurrow_link (k : Nat) (f : Furrow → Furrow) (j : Nat) : (d.modFurrow k f).link j = d.link j := by simp [Dev.link]
@[simp] theorem Dev.modFurrow_slot (k : Nat) (f : Furrow → Furrow) (j : Nat) : (d.modFurrow k f).slot j = d.slot j := by simp [Dev.slot]
@[simp] theorem Dev.modFurrow_quire (k : Nat) (f : Furrow → Furrow) (j : Nat) : (d.modFurrow k f).quire j = d.quire j := by simp [Dev.quire]
@[simp] theorem Dev.modFurrow_chan (k : Nat) (f : Furrow → Furrow) (j : Nat) : (d.modFurrow k f).chan j = d.chan j := by simp [Dev.chan]
@[simp] theorem Dev.modFurrow_lp (k : Nat) (f : Furrow → Furrow) (j : Nat) : (d.modFurrow k f).lp j = d.lp j := by simp [Dev.lp]
@[simp] theorem Dev.modFurrow_csrW (k : Nat) (f : Furrow → Furrow) (j : Nat) : (d.modFurrow k f).csrW j = d.csrW j := by simp [Dev.csrW]
@[simp] theorem Dev.modFurrow_cond (k : Nat) (f : Furrow → Furrow) (j : Nat) : (d.modFurrow k f).cond j = d.cond j := by simp [Dev.cond]
@[simp] theorem Dev.modFurrow_now (k : Nat) (f : Furrow → Furrow) : (d.modFurrow k f).now = d.now := by simp [Dev.now]

@[simp] theorem Dev.modSb_dom (q k : Nat) (f : Superblock → Superblock) (j : Nat) : (d.modSb q k f).dom j = d.dom j := by simp [Dev.dom]
@[simp] theorem Dev.modSb_hport (q k : Nat) (f : Superblock → Superblock) (r : Port) : (d.modSb q k f).hport r = d.hport r := by simp [Dev.hport]
@[simp] theorem Dev.modSb_fnst (q k : Nat) (f : Superblock → Superblock) (m : Fn) : (d.modSb q k f).fnst m = d.fnst m := by simp [Dev.fnst]
@[simp] theorem Dev.modSb_box (q k : Nat) (f : Superblock → Superblock) (r : Port) : (d.modSb q k f).box r = d.box r := by simp [Dev.box]
@[simp] theorem Dev.modSb_link (q k : Nat) (f : Superblock → Superblock) (j : Nat) : (d.modSb q k f).link j = d.link j := by simp [Dev.link]
@[simp] theorem Dev.modSb_slot (q k : Nat) (f : Superblock → Superblock) (j : Nat) : (d.modSb q k f).slot j = d.slot j := by simp [Dev.slot]
@[simp] theorem Dev.modSb_quire (q k : Nat) (f : Superblock → Superblock) (j : Nat) : (d.modSb q k f).quire j = d.quire j := by simp [Dev.quire]
@[simp] theorem Dev.modSb_chan (q k : Nat) (f : Superblock → Superblock) (j : Nat) : (d.modSb q k f).chan j = d.chan j := by simp [Dev.chan]
@[simp] theorem Dev.modSb_lp (q k : Nat) (f : Superblock → Superblock) (j : Nat) : (d.modSb q k f).lp j = d.lp j := by simp [Dev.lp]
@[simp] theorem Dev.modSb_csrW (q k : Nat) (f : Superblock → Superblock) (j : Nat) : (d.modSb q k f).csrW j = d.csrW j := by simp [Dev.csrW]
@[simp] theorem Dev.modSb_cond (q k : Nat) (f : Superblock → Superblock) (j : Nat) : (d.modSb q k f).cond j = d.cond j := by simp [Dev.cond]
@[simp] theorem Dev.modSb_now (q k : Nat) (f : Superblock → Superblock) : (d.modSb q k f).now = d.now := by simp [Dev.now]

@[simp] theorem Dev.modChan_dom (k : Nat) (f : DChan → DChan) (j : Nat) : (d.modChan k f).dom j = d.dom j := by simp [Dev.dom]
@[simp] theorem Dev.modChan_hport (k : Nat) (f : DChan → DChan) (r : Port) : (d.modChan k f).hport r = d.hport r := by simp [Dev.hport]
@[simp] theorem Dev.modChan_fnst (k : Nat) (f : DChan → DChan) (m : Fn) : (d.modChan k f).fnst m = d.fnst m := by simp [Dev.fnst]
@[simp] theorem Dev.modChan_box (k : Nat) (f : DChan → DChan) (r : Port) : (d.modChan k f).box r = d.box r := by simp [Dev.box]
@[simp] theorem Dev.modChan_link (k : Nat) (f : DChan → DChan) (j : Nat) : (d.modChan k f).link j = d.link j := by simp [Dev.link]
@[simp] theorem Dev.modChan_slot (k : Nat) (f : DChan → DChan) (j : Nat) : (d.modChan k f).slot j = d.slot j := by simp [Dev.slot]
@[simp] theorem Dev.modChan_quire (k : Nat) (f : DChan → DChan) (j : Nat) : (d.modChan k f).quire j = d.quire j := by simp [Dev.quire]
@[simp] theorem Dev.modChan_lp (k : Nat) (f : DChan → DChan) (j : Nat) : (d.modChan k f).lp j = d.lp j := by simp [Dev.lp]
@[simp] theorem Dev.modChan_csrW (k : Nat) (f : DChan → DChan) (j : Nat) : (d.modChan k f).csrW j = d.csrW j := by simp [Dev.csrW]
@[simp] theorem Dev.modChan_cond (k : Nat) (f : DChan → DChan) (j : Nat) : (d.modChan k f).cond j = d.cond j := by simp [Dev.cond]
@[simp] theorem Dev.modChan_now (k : Nat) (f : DChan → DChan) : (d.modChan k f).now = d.now := by simp [Dev.now]

@[simp] theorem Dev.modDport_dom (k : Nat) (f : DPort → DPort) (j : Nat) : (d.modDport k f).dom j = d.dom j := by simp [Dev.dom]
@[simp] theorem Dev.modDport_hport (k : Nat) (f : DPort → DPort) (r : Port) : (d.modDport k f).hport r = d.hport r := by simp [Dev.hport]
@[simp] theorem Dev.modDport_fnst (k : Nat) (f : DPort → DPort) (m : Fn) : (d.modDport k f).fnst m = d.fnst m := by simp [Dev.fnst]
@[simp] theorem Dev.modDport_box (k : Nat) (f : DPort → DPort) (r : Port) : (d.modDport k f).box r = d.box r := by simp [Dev.box]
@[simp] theorem Dev.modDport_link (k : Nat) (f : DPort → DPort) (j : Nat) : (d.modDport k f).link j = d.link j := by simp [Dev.link]
@[simp] theorem Dev.modDport_slot (k : Nat) (f : DPort → DPort) (j : Nat) : (d.modDport k f).slot j = d.slot j := by simp [Dev.slot]
@[simp] theorem Dev.modDport_quire (k : Nat) (f : DPort → DPort) (j : Nat) : (d.modDport k f).quire j = d.quire j := by simp [Dev.quire]
@[simp] theorem Dev.modDport_lp (k : Nat) (f : DPort → DPort) (j : Nat) : (d.modDport k f).lp j = d.lp j := by simp [Dev.lp]
@[simp] theorem Dev.modDport_csrW (k : Nat) (f : DPort → DPort) (j : Nat) : (d.modDport k f).csrW j = d.csrW j := by simp [Dev.csrW]
@[simp] theorem Dev.modDport_cond (k : Nat) (f : DPort → DPort) (j : Nat) : (d.modDport k f).cond j = d.cond j := by simp [Dev.cond]
@[simp] theorem Dev.modDport_now (k : Nat) (f : DPort → DPort) : (d.modDport k f).now = d.now := by simp [Dev.now]

@[simp] theorem Dev.modLp_dom (k : Nat) (f : LPair → LPair) (j : Nat) : (d.modLp k f).dom j = d.dom j := by simp [Dev.dom]
@[simp] theorem Dev.modLp_hport (k : Nat) (f : LPair → LPair) (r : Port) : (d.modLp k f).hport r = d.hport r := by simp [Dev.hport]
@[simp] theorem Dev.modLp_fnst (k : Nat) (f : LPair → LPair) (m : Fn) : (d.modLp k f).fnst m = d.fnst m := by simp [Dev.fnst]
@[simp] theorem Dev.modLp_box (k : Nat) (f : LPair → LPair) (r : Port) : (d.modLp k f).box r = d.box r := by simp [Dev.box]
@[simp] theorem Dev.modLp_link (k : Nat) (f : LPair → LPair) (j : Nat) : (d.modLp k f).link j = d.link j := by simp [Dev.link]
@[simp] theorem Dev.modLp_slot (k : Nat) (f : LPair → LPair) (j : Nat) : (d.modLp k f).slot j = d.slot j := by simp [Dev.slot]
@[simp] theorem Dev.modLp_quire (k : Nat) (f : LPair → LPair) (j : Nat) : (d.modLp k f).quire j = d.quire j := by simp [Dev.quire]
@[simp] theorem Dev.modLp_chan (k : Nat) (f : LPair → LPair) (j : Nat) : (d.modLp k f).chan j = d.chan j := by simp [Dev.chan]
@[simp] theorem Dev.modLp_csrW (k : Nat) (f : LPair → LPair) (j : Nat) : (d.modLp k f).csrW j = d.csrW j := by simp [Dev.csrW]
@[simp] theorem Dev.modLp_cond (k : Nat) (f : LPair → LPair) (j : Nat) : (d.modLp k f).cond j = d.cond j := by simp [Dev.cond]
@[simp] theorem Dev.modLp_now (k : Nat) (f : LPair → LPair) : (d.modLp k f).now = d.now := by simp [Dev.now]

@[simp] theorem Dev.modRing_dom (f : Ring → Ring) (j : Nat) : (d.modRing f).dom j = d.dom j := by simp [Dev.dom]
@[simp] theorem Dev.modRing_hport (f : Ring → Ring) (r : Port) : (d.modRing f).hport r = d.hport r := by simp [Dev.hport]
@[simp] theorem Dev.modRing_fnst (f : Ring → Ring) (m : Fn) : (d.modRing f).fnst m = d.fnst m := by simp [Dev.fnst]
@[simp] theorem Dev.modRing_box (f : Ring → Ring) (r : Port) : (d.modRing f).box r = d.box r := by simp [Dev.box]
@[simp] theorem Dev.modRing_link (f : Ring → Ring) (j : Nat) : (d.modRing f).link j = d.link j := by simp [Dev.link]
@[simp] theorem Dev.modRing_slot (f : Ring → Ring) (j : Nat) : (d.modRing f).slot j = d.slot j := by simp [Dev.slot]
@[simp] theorem Dev.modRing_quire (f : Ring → Ring) (j : Nat) : (d.modRing f).quire j = d.quire j := by simp [Dev.quire]
@[simp] theorem Dev.modRing_chan (f : Ring → Ring) (j : Nat) : (d.modRing f).chan j = d.chan j := by simp [Dev.chan]
@[simp] theorem Dev.modRing_lp (f : Ring → Ring) (j : Nat) : (d.modRing f).lp j = d.lp j := by simp [Dev.lp]
@[simp] theorem Dev.modRing_csrW (f : Ring → Ring) (j : Nat) : (d.modRing f).csrW j = d.csrW j := by simp [Dev.csrW]
@[simp] theorem Dev.modRing_cond (f : Ring → Ring) (j : Nat) : (d.modRing f).cond j = d.cond j := by simp [Dev.cond]
@[simp] theorem Dev.modRing_now (f : Ring → Ring) : (d.modRing f).now = d.now := by simp [Dev.now]

@[simp] theorem Dev.modBuf_dom (p k : Nat) (f : Buf → Buf) (j : Nat) : (d.modBuf p k f).dom j = d.dom j := by simp [Dev.dom]
@[simp] theorem Dev.modBuf_hport (p k : Nat) (f : Buf → Buf) (r : Port) : (d.modBuf p k f).hport r = d.hport r := by simp [Dev.hport]
@[simp] theorem Dev.modBuf_fnst (p k : Nat) (f : Buf → Buf) (m : Fn) : (d.modBuf p k f).fnst m = d.fnst m := by simp [Dev.fnst]
@[simp] theorem Dev.modBuf_box (p k : Nat) (f : Buf → Buf) (r : Port) : (d.modBuf p k f).box r = d.box r := by simp [Dev.box]
@[simp] theorem Dev.modBuf_link (p k : Nat) (f : Buf → Buf) (j : Nat) : (d.modBuf p k f).link j = d.link j := by simp [Dev.link]
@[simp] theorem Dev.modBuf_slot (p k : Nat) (f : Buf → Buf) (j : Nat) : (d.modBuf p k f).slot j = d.slot j := by simp [Dev.slot]
@[simp] theorem Dev.modBuf_quire (p k : Nat) (f : Buf → Buf) (j : Nat) : (d.modBuf p k f).quire j = d.quire j := by simp [Dev.quire]
@[simp] theorem Dev.modBuf_chan (p k : Nat) (f : Buf → Buf) (j : Nat) : (d.modBuf p k f).chan j = d.chan j := by simp [Dev.chan]
@[simp] theorem Dev.modBuf_lp (p k : Nat) (f : Buf → Buf) (j : Nat) : (d.modBuf p k f).lp j = d.lp j := by simp [Dev.lp]
@[simp] theorem Dev.modBuf_csrW (p k : Nat) (f : Buf → Buf) (j : Nat) : (d.modBuf p k f).csrW j = d.csrW j := by simp [Dev.csrW]
@[simp] theorem Dev.modBuf_cond (p k : Nat) (f : Buf → Buf) (j : Nat) : (d.modBuf p k f).cond j = d.cond j := by simp [Dev.cond]
@[simp] theorem Dev.modBuf_now (p k : Nat) (f : Buf → Buf) : (d.modBuf p k f).now = d.now := by simp [Dev.now]

/-! ### Reading back what an update wrote -/

@[simp] theorem Dev.emit_out (o : Out) : (d.emit o).out = o :: d.out := rfl
@[simp] theorem Dev.tickFree_free : d.tickFree.free = d.free + 1 := rfl

theorem Port.num_inj {p q : Port} (h : p ≠ q) : p.num ≠ q.num := by cases p <;> cases q <;> simp_all [Port.num]

@[simp] theorem Dev.dom_modDom (k : Nat) (f : Dom → Dom) : (d.modDom k f).dom k = f (d.dom k) := by simp [Dev.dom, Dev.modDom]
theorem Dev.dom_modDom_ne {j k : Nat} (f : Dom → Dom) (h : j ≠ k) : (d.modDom k f).dom j = d.dom j := by
  simp [Dev.dom, Dev.modDom, Tbl.get_mod_ne _ _ _ h]
@[simp] theorem Dev.hport_modPort (p : Port) (f : HPort → HPort) : (d.modPort p f).hport p = f (d.hport p) := by
  simp [Dev.hport, Dev.modPort]
theorem Dev.hport_modPort_ne {p q : Port} (f : HPort → HPort) (h : q ≠ p) : (d.modPort p f).hport q = d.hport q := by
  simp [Dev.hport, Dev.modPort, Tbl.get_mod_ne _ _ _ (Port.num_inj h)]
@[simp] theorem Dev.fnst_modFn (n : Fn) (f : FnSt → FnSt) : (d.modFn n f).fnst n = f (d.fnst n) := by simp [Dev.fnst, Dev.modFn]
theorem Dev.fnst_modFn_ne {m n : Fn} (f : FnSt → FnSt) (h : m.key ≠ n.key) : (d.modFn n f).fnst m = d.fnst m := by
  simp [Dev.fnst, Dev.modFn, Tbl.get_mod_ne _ _ _ h]
@[simp] theorem Dev.box_modBox (p : Port) (f : Kmb → Kmb) : (d.modBox p f).box p = f (d.box p) := by simp [Dev.box, Dev.modBox]
theorem Dev.box_modBox_ne {p q : Port} (f : Kmb → Kmb) (h : q ≠ p) : (d.modBox p f).box q = d.box q := by
  simp [Dev.box, Dev.modBox, Tbl.get_mod_ne _ _ _ (Port.num_inj h)]
@[simp] theorem Dev.link_modLink (k : Nat) (f : Link → Link) : (d.modLink k f).link k = f (d.link k) := by
  simp [Dev.link, Dev.modLink]
theorem Dev.link_modLink_ne {j k : Nat} (f : Link → Link) (h : j ≠ k) : (d.modLink k f).link j = d.link j := by
  simp [Dev.link, Dev.modLink, Tbl.get_mod_ne _ _ _ h]
@[simp] theorem Dev.slot_modLink (j k : Nat) (f : Link → Link) : (d.modLink k f).slot j = d.slot j := rfl
@[simp] theorem Dev.link_modSt (j k : Nat) (f : SlotSt → SlotSt) : (d.modSt k f).link j = d.link j := rfl
@[simp] theorem Dev.slot_modSt (k : Nat) (f : SlotSt → SlotSt) : (d.modSt k f).slot k = f (d.slot k) := by
  simp [Dev.slot, Dev.modSt]
theorem Dev.slot_modSt_ne {j k : Nat} (f : SlotSt → SlotSt) (h : j ≠ k) : (d.modSt k f).slot j = d.slot j := by
  simp [Dev.slot, Dev.modSt, Tbl.get_mod_ne _ _ _ h]
@[simp] theorem Dev.die_modDie (s k : Nat) (f : Die → Die) : (d.modDie s k f).die s k = f (d.die s k) := by
  simp [Dev.die, Dev.modDie]
@[simp] theorem Dev.quire_modQuire (q : Nat) (f : Quire → Quire) : (d.modQuire q f).quire q = (d.quire q).map f := by
  simp [Dev.quire, Dev.modQuire]
theorem Dev.quire_modQuire_ne {p q : Nat} (f : Quire → Quire) (h : p ≠ q) : (d.modQuire q f).quire p = d.quire p := by
  simp [Dev.quire, Dev.modQuire, Tbl.get?_upd_ne _ _ h]
@[simp] theorem Dev.furrow_modFurrow (k : Nat) (f : Furrow → Furrow) : (d.modFurrow k f).furrow k = f (d.furrow k) := by
  simp [Dev.furrow, Dev.modFurrow]
@[simp] theorem Dev.chan_modChan (k : Nat) (f : DChan → DChan) : (d.modChan k f).chan k = f (d.chan k) := by
  simp [Dev.chan, Dev.modChan]
theorem Dev.chan_modChan_ne {j k : Nat} (f : DChan → DChan) (h : j ≠ k) : (d.modChan k f).chan j = d.chan j := by
  simp [Dev.chan, Dev.modChan, Tbl.get_mod_ne _ _ _ h]
@[simp] theorem Dev.dport_modDport (k : Nat) (f : DPort → DPort) : (d.modDport k f).dport k = f (d.dport k) := by
  simp [Dev.dport, Dev.modDport]
@[simp] theorem Dev.lp_modLp (k : Nat) (f : LPair → LPair) : (d.modLp k f).lp k = f (d.lp k) := by simp [Dev.lp, Dev.modLp]
theorem Dev.lp_modLp_ne {j k : Nat} (f : LPair → LPair) (h : j ≠ k) : (d.modLp k f).lp j = d.lp j := by
  simp [Dev.lp, Dev.modLp, Tbl.get_mod_ne _ _ _ h]
@[simp] theorem Dev.csrW_setCsr (a : Nat) (w : W32) : (d.setCsr a w).csrW a = w := by simp [Dev.csrW, Dev.setCsr]
theorem Dev.csrW_setCsr_ne {a b : Nat} (w : W32) (h : b ≠ a) : (d.setCsr a w).csrW b = d.csrW b := by
  simp [Dev.csrW, Dev.setCsr, Tbl.get, Tbl.put, Tbl.get?_set?_ne _ _ h]
@[simp] theorem Dev.counter_count (a lo w n : Nat) : (d.count a lo w n).counter a lo = sat w (d.counter a lo + n) := by
  simp [Dev.counter, Dev.count]
@[simp] theorem Dev.slots_modSlot (k : Nat) (f : CSlot → CSlot) : Tbl.get? (d.modSlot k f).hg.slots k = (Tbl.get? d.hg.slots k).map f := by
  simp [Dev.modSlot]

end Sys2Proof.Machine
end

