-- ==== Sys2Proof/Laws/Frames.lean ====
section
/-! SUPPORT. What the shared operations can touch, one lemma per operation: an operation that touches some parts of the
device leaves the device with those parts taken away as it was. `congrArg Dev.gl (butHost_complete d cs e)` then says
that completing a command leaves the links and slots alone. -/

namespace Sys2Proof.Machine

/-- What a fold keeps if each of its changes does. -/
theorem foldl_keeps {α β γ : Type} (π : α → γ) (g : α → β → α) (h : ∀ a b, π (g a b) = π a) (l : List β) (a : α) :
    π (l.foldl g a) = π a := by
  induction l generalizing a with
  | nil => rfl
  | cons b l ih => simp [ih, h]

variable (d : Dev)

/-! ### Records, interrupts and completions -/

@[simp] theorem butLog_count (a lo w n : Nat) : (d.count a lo w n).butLog = d.butLog := rfl
@[simp] theorem butLog_offer (c s : Nat) (p : List Byte) : (d.offer c s p).butLog = d.butLog := by
  simp only [Dev.offer]; (repeat' split) <;> rfl
@[simp] theorem butLog_ev (c s : Nat) (p : List PField) : (d.ev c s p).butLog = d.butLog := by simp [Dev.ev]


@[simp] theorem butHost_modFn (n : Fn) (f : FnSt → FnSt) : (d.modFn n f).butHost = d.butHost := rfl
@[simp] theorem butHost_emit (o : Out) : (d.emit o).butHost = d.butHost := rfl
@[simp] theorem butHost_count (a lo w n : Nat) : (d.count a lo w n).butHost = d.butHost := rfl
@[simp] theorem butHost_offer (c s : Nat) (p : List Byte) : (d.offer c s p).butHost = d.butHost := by
  simp only [Dev.offer]; (repeat' split) <;> rfl
@[simp] theorem butHost_ev (c s : Nat) (p : List PField) : (d.ev c s p).butHost = d.butHost := by simp [Dev.ev]
@[simp] theorem butHost_modSlot (n : Nat) (f : CSlot → CSlot) : (d.modSlot n f).butHost = d.butHost := rfl
@[simp] theorem butHost_modStat (n : Nat) (f : TStat → TStat) : (d.modStat n f).butHost = d.butHost := rfl
@[simp] theorem butHost_signal (n : Fn) (v : Nat) : (d.signal n v).butHost = d.butHost := by
  simp only [Dev.signal]; (repeat' split) <;> simp
@[simp] theorem butHost_kmbSignal (p : Port) : (d.kmbSignal p).butHost = d.butHost := by
  simp only [Dev.kmbSignal]; (repeat' split) <;> simp
@[simp] theorem butHost_cqInterrupt (n : Fn) (v : Nat) : (d.cqInterrupt n v).butHost = d.butHost := by
  simp only [Dev.cqInterrupt]; (repeat' split) <;> simp
@[simp] theorem butHost_settleFn (n : Fn) : (d.settleFn n).butHost = d.butHost := by
  simp only [Dev.settleFn]; (repeat' split) <;> simp
@[simp] theorem butHost_freeSlot (n : Nat) : (d.freeSlot n).butHost = d.butHost := by
  simp only [Dev.freeSlot]; (repeat' split) <;> simp <;> rfl
@[simp] theorem butHost_discardCpl (s : CSlot) : (d.discardCpl s).butHost = d.butHost := by simp [Dev.discardCpl]
@[simp] theorem butHost_post (cs : Nat) (s : CSlot) (q : Nat) (c : Cq) (e : Cqe) : (d.post cs s q c e).butHost = d.butHost := by
  simp only [Dev.post]; (repeat' split) <;> simp
@[simp] theorem butHost_complete (cs : Nat) (e : Cqe) : (d.complete cs e).butHost = d.butHost := by
  simp only [Dev.complete]; (repeat' split) <;> first | rfl | (simp; done) | (simp; rfl)
@[simp] theorem butHost_postHeld (n : Fn) (q k : Nat) : (d.postHeld n q k).butHost = d.butHost := by
  induction k generalizing d with
  | zero => rfl
  | succ k ih => simp only [Dev.postHeld]; (repeat' split) <;> simp [ih]
@[simp] theorem butHost_pumpAer (n : Fn) : (d.pumpAer n).butHost = d.butHost := by
  simp only [Dev.pumpAer]; (repeat' split) <;> simp
@[simp] theorem butHost_aen (n : Fn) (e : AEvent) (w : Option Nat) : (d.aen n e w).butHost = d.butHost := by
  simp only [Dev.aen]; (repeat' split) <;> simp
@[simp] theorem butHost_aenAll (e : AEvent) (w : Option Nat) (p : Fn → Bool) : (d.aenAll e w p).butHost = d.butHost := by
  simp only [Dev.aenAll]; exact foldl_keeps Dev.butHost _ (by simp) _ _

/-! ### Modes and conditions -/

@[simp] theorem butMode_modDom (k : Nat) (f : Dom → Dom) : (d.modDom k f).butMode = d.butMode := rfl
@[simp] theorem butMode_startRamp (k : Nat) : (d.startRamp k).butMode = d.butMode := by
  simp only [Dev.startRamp]; (repeat' split) <;> rfl
@[simp] theorem butMode_powerOn (k : Nat) : (d.powerOn k).butMode = d.butMode := by
  simp only [Dev.powerOn]; (repeat' split) <;> simp
@[simp] theorem butMode_gateDom (k : Nat) : (d.gateDom k).butMode = d.butMode := by
  simp only [Dev.gateDom]; split <;> simp
@[simp] theorem butMode_drainDom (k : Nat) : (d.drainDom k).butMode = d.butMode := by
  simp only [Dev.drainDom]; split <;> simp
@[simp] theorem butMode_applyRule (k : Nat) : (d.applyRule k).butMode = d.butMode := by
  simp only [Dev.applyRule]; split <;> simp
theorem butMode_column (l : List Nat) : (l.foldl (fun d k => d.applyRule k) d).butMode = d.butMode :=
  foldl_keeps Dev.butMode _ butMode_applyRule l d
@[simp] theorem butMode_applyColumn : d.applyColumn.butMode = d.butMode := by
  have h : ∀ (x : Dev) (m : Modes), Dev.butMode { x with modes := m } = x.butMode := fun _ _ => rfl
  simp only [Dev.applyColumn]
  rw [h, butMode_column]
@[simp] theorem butMode_modBox (p : Port) (f : Kmb → Kmb) : (d.modBox p f).butMode = d.butMode := rfl
@[simp] theorem butMode_ev (c s : Nat) (p : List PField) : (d.ev c s p).butMode = d.butMode := by
  simp only [Dev.ev, Dev.offer]; (repeat' split) <;> rfl
@[simp] theorem butMode_kmbSignal (p : Port) : (d.kmbSignal p).butMode = d.butMode := by
  simp only [Dev.kmbSignal]; (repeat' split) <;> rfl
@[simp] theorem butMode_modeChanged : d.modeChanged.butMode = d.butMode := by
  refine foldl_keeps Dev.butMode _ ?_ _ d
  intro x p; dsimp only; split <;> simp
@[simp] theorem butMode_enterMode (m : Mode) : (d.enterMode m).butMode = d.butMode := by
  simp only [Dev.enterMode]; split <;> simp <;> rfl
@[simp] theorem butMode_decideServing : d.decideServing.butMode = d.butMode := by
  simp only [Dev.decideServing]; split <;> simp

theorem butCond_of_host {a b : Dev} (h : a.butHost = b.butHost) : a.butCond = b.butCond := by simp [Dev.butCond, h]
theorem butCond_of_mode {a b : Dev} (h : a.butMode = b.butMode) : a.butCond = b.butCond := by
  have h2 : ∀ x : Dev, x.butCond = { x.butMode with fns := [], hg := .reset, adm := .reset, pins := .reset, mgmt := .reset } := fun _ => rfl
  rw [h2 a, h2 b, h]
@[simp] theorem butCond_healthChange : d.healthChange.butCond = d.butCond := by
  simp only [Dev.healthChange]; split <;> rfl
@[simp] theorem butCond_setCond (i : Nat) (v : Bool) : (d.setCond i v).butCond = d.butCond := by
  have e1 : ∀ (x : Dev) c s p, (x.ev c s p).butCond = x.butCond := fun x c s p => butCond_of_host (butHost_ev x c s p)
  have e2 : ∀ x : Dev, x.decideServing.butCond = x.butCond := fun x => butCond_of_mode (butMode_decideServing x)
  have e3 : ∀ (x : Dev) e w p, (x.aenAll e w p).butCond = x.butCond := fun x e w p => butCond_of_host (butHost_aenAll x e w p)
  simp only [Dev.setCond]
  (repeat' split) <;> simp [e1, e2, e3] <;> rfl

end Sys2Proof.Machine
end

