-- ==== Sys2Proof/Laws/Effects.lean ====
section
/-! SUPPORT. More frames: slots and domains, the work that grants and links move, the mailbox's end of a command, and what
entering a mode leaves of the mode. -/

namespace Sys2Proof.Machine

variable (d : Dev)

/-! ### Slots and domains -/

@[simp] theorem butSlots_modSt (s : Nat) (f : SlotSt → SlotSt) : (d.modSt s f).butSlots = d.butSlots := rfl
@[simp] theorem butSlots_modLink (s : Nat) (f : Link → Link) : (d.modLink s f).butSlots = d.butSlots := rfl
@[simp] theorem butSlots_modDom (s : Nat) (f : Dom → Dom) : (d.modDom s f).butSlots = d.butSlots := rfl
@[simp] theorem butSlots_startRamp (s : Nat) : (d.startRamp s).butSlots = d.butSlots := by
  simp only [Dev.startRamp]; (repeat' split) <;> rfl
@[simp] theorem butSlots_powerOn (s : Nat) : (d.powerOn s).butSlots = d.butSlots := by
  simp only [Dev.powerOn]; (repeat' split) <;> simp
@[simp] theorem butSlots_demand (s : Nat) : (d.demand s).butSlots = d.butSlots := by
  simp only [Dev.demand]; (repeat' split) <;> simp
@[simp] theorem butSlots_slotUp (s : Nat) : (d.slotUp s).butSlots = d.butSlots := by
  simp only [Dev.slotUp]; (repeat' split) <;> simp
@[simp] theorem butSlots_slotDown (s : Nat) : (d.slotDown s).butSlots = d.butSlots := by
  simp only [Dev.slotDown, Dev.linkDisable]; rfl
@[simp] theorem butSlots_powerSlots : d.powerSlots.butSlots = d.butSlots := by
  refine foldl_keeps Dev.butSlots _ ?_ _ d
  intro x s; (repeat' split) <;> simp

/-! ### Work -/

@[simp] theorem butWork_modLink (s : Nat) (f : Link → Link) : (d.modLink s f).butWork = d.butWork := rfl
@[simp] theorem butWork_modDie (s k : Nat) (f : Die → Die) : (d.modDie s k f).butWork = d.butWork := rfl
@[simp] theorem butWork_emit (o : Out) : (d.emit o).butWork = d.butWork := rfl
@[simp] theorem butWork_linkPump (s : Nat) : (d.linkPump s).butWork = d.butWork := by
  simp only [Dev.linkPump]; split
  · rw [foldl_keeps Dev.butWork _ (fun a b => butWork_emit a b)]; rfl
  · rfl
@[simp] theorem butWork_linkQueue (s : Nat) (l : List TxItem) : (d.linkQueue s l).butWork = d.butWork := by
  simp [Dev.linkQueue]
@[simp] theorem butWork_issueOp (o : OpReq) (g t : Option Nat) : (d.issueOp o g t).1.butWork = d.butWork := by
  simp [Dev.issueOp]
@[simp] theorem butWork_startBusy (g : Nat) (r : OpReq) : (d.startBusy g r).butWork = d.butWork := by simp [Dev.startBusy]
@[simp] theorem butWork_startRead (g : Nat) (r : OpReq) (n : Option Nat) : (d.startRead g r n).butWork = d.butWork := by
  have h : ∀ (x : Dev) (t : Tbl LeafRead), Dev.butWork { x with rp := { x.rp with reads := t } } = x.butWork := fun _ _ => rfl
  simp only [Dev.startRead]; split <;> simp [h]
@[simp] theorem butWork_startGrant (g : Nat) (r : OpReq) : (d.startGrant g r).butWork = d.butWork := by
  have h : ∀ (x : Dev) (t : List Deferred), Dev.butWork { x with slu := { x.slu with defer := t } } = x.butWork := fun _ _ => rfl
  simp only [Dev.startGrant]; (repeat' split) <;> simp [h]
@[simp] theorem butWork_grant (n : Nat) (r : OpReq) (p : FloorPart × Bool) : (d.grant n r p).butWork = d.butWork := by
  have h : ∀ (x : Dev) (t : Tbl Grant) (w : List SluWait), Dev.butWork { x with slu := { x.slu with held := t, waiting := w } } = x.butWork :=
    fun _ _ _ => rfl
  simp [Dev.grant, h]
@[simp] theorem butWork_sluPump : d.sluPump.butWork = d.butWork := by
  refine foldl_keeps Dev.butWork _ ?_ _ d
  intro x k
  refine foldl_keeps Dev.butWork _ ?_ _ x
  intro y w; split <;> simp
@[simp] theorem butWork_giveBack (g : Option Nat) : (d.giveBack g).butWork = d.butWork := by
  have h : ∀ (x : Dev) (t : Tbl Grant) (w : List Deferred), Dev.butWork { x with slu := { x.slu with held := t, defer := w } } = x.butWork :=
    fun _ _ _ => rfl
  simp only [Dev.giveBack]; split <;> simp [h]
@[simp] theorem butWork_dropSlotGrants (s : Nat) : (d.dropSlotGrants s).butWork = d.butWork := by
  have h : ∀ (x : Dev) (t : Tbl Grant) (v : List SluWait) (w : List Deferred),
      Dev.butWork { x with slu := { x.slu with held := t, waiting := v, defer := w } } = x.butWork := fun _ _ _ _ => rfl
  simp [Dev.dropSlotGrants, h]
@[simp] theorem butWork_joinQueue (r : OpReq) : (d.joinQueue r).butWork = d.butWork := by
  simp only [Dev.joinQueue]; split <;> simp
@[simp] theorem butWork_request (r : OpReq) : (d.request r).butWork = d.butWork := by
  have h : ∀ (x : Dev) (n : Nat) (v : List SluWait),
      Dev.butWork { x with slu := { x.slu with nextId := n, waiting := v } } = x.butWork := fun _ _ _ => rfl
  simp only [Dev.request]; (repeat' split) <;> simp [h]
@[simp] theorem butWork_startDeferred (g : Nat) : (d.startDeferred g).butWork = d.butWork := by
  have h : ∀ (x : Dev) (w : List Deferred), Dev.butWork { x with slu := { x.slu with defer := w } } = x.butWork := fun _ _ => rfl
  simp only [Dev.startDeferred]; (repeat' split) <;> simp [h]
@[simp] theorem butWork_pumpDeferred (s k : Nat) : (d.pumpDeferred s k).butWork = d.butWork := by
  refine foldl_keeps Dev.butWork _ ?_ _ d
  intro x y; (repeat' split) <;> simp
@[simp] theorem butWork_sendLctl (s : Nat) (n l : Bool) : (d.sendLctl s n l).butWork = d.butWork := by simp [Dev.sendLctl]
@[simp] theorem butWork_sendMgmt (s t : Nat) (c : List Byte) : (d.sendMgmt s t c).butWork = d.butWork := by simp [Dev.sendMgmt]
@[simp] theorem butWork_acceptFlit (s v : Nat) : (d.acceptFlit s v).butWork = d.butWork := by
  simp only [Dev.acceptFlit]; split <;> simp
@[simp] theorem butWork_acceptMgmt (s n : Nat) : (d.acceptMgmt s n).butWork = d.butWork := by
  refine foldl_keeps Dev.butWork _ ?_ _ d
  intro x y; simp
@[simp] theorem butWork_linkProgress (s : Nat) : (d.linkProgress s).butWork = d.butWork := by simp [Dev.linkProgress]
@[simp] theorem butWork_linkResend (s : Nat) : (d.linkResend s).butWork = d.butWork :=
  foldl_keeps Dev.butWork _ (fun a b => butWork_emit a _) _ d
@[simp] theorem butWork_freeTag (s t : Nat) : (d.freeTag s t).butWork = d.butWork := by simp [Dev.freeTag]
@[simp] theorem butWork_linkDisable (s : Nat) (f : Bool) : (d.linkDisable s f).butWork = d.butWork := by simp [Dev.linkDisable]
@[simp] theorem butWork_linkEnable (s : Nat) : (d.linkEnable s).butWork = d.butWork := by
  simp only [Dev.linkEnable]; split <;> simp
@[simp] theorem butWork_sendInit (s : Nat) : (d.sendInit s).butWork = d.butWork := by simp [Dev.sendInit]

/-! ### The end of a mailbox command -/

theorem kmbEnd_box (p : Port) (st dt : Nat) (r : List Byte) :
    (d.kmbEnd p st dt r).box p = { d.box p with
      busy := false, status := st, detail := dt % 256, mode := d.modeByte, uptime := d.uptimeMs, await := d.awaitS, results := r, done := true } := by
  have k : ∀ x : Dev, (x.kmbSignal p).kmb = x.kmb := fun x => by have h := congrArg Dev.kmb (butHost_kmbSignal x p); exact h
  have e : ∀ (x : Dev) (q : Port), (x.kmbSignal p).box q = x.box q := fun x q => by simp [Dev.box, k]
  simp only [Dev.kmbEnd]
  (repeat' split) <;> simp [Dev.modeByte, Dev.uptimeMs, Dev.awaitS, e] <;> simp [Dev.box, Dev.modBox]

/-! ### Entering a mode -/

@[simp] theorem applyRule_modes (k : Nat) : (d.applyRule k).modes = d.modes := by
  simp only [Dev.applyRule, Dev.powerOn, Dev.gateDom, Dev.drainDom, Dev.startRamp]; (repeat' split) <;> rfl
theorem column_modes (l : List Nat) : (l.foldl (fun d k => d.applyRule k) d).modes = d.modes :=
  foldl_keeps Dev.modes _ applyRule_modes l d
theorem applyColumn_mode : d.applyColumn.modes.mode = d.modes.mode := by
  simp only [Dev.applyColumn]; rw [column_modes]
@[simp] theorem modeChanged_modes : d.modeChanged.modes = d.modes := by
  have k : ∀ (x : Dev) (p : Port), (x.kmbSignal p).modes = x.modes :=
    fun x p => by have h := congrArg Dev.modes (butHost_kmbSignal x p); exact h
  refine foldl_keeps Dev.modes _ ?_ _ d
  intro x p; dsimp only; split <;> simp [k]
theorem enterMode_mode (m : Mode) (h : d.modes.mode ≠ .halted) : (d.enterMode m).modes.mode = m := by
  simp only [Dev.enterMode, h, if_false]; rw [applyColumn_mode]; simp
theorem enterMode_halted (m : Mode) (h : d.modes.mode = .halted) : d.enterMode m = d := by simp [Dev.enterMode, h]

end Sys2Proof.Machine
end

