-- ==== Sys2Proof/Tests/Slice0.lean ====
section
/-! SUPPORT. Tests: ill-formed commands that WellFormed refuses, small steps with what the spec gives for them, and for
every statement with hypotheses a witness, a concrete state and operands that meet them together. -/

namespace Sys2Proof.Machine

/-- A state with its device changed. -/
def State.d (s : State) (f : Dev → Dev) : State := { s with dev := f s.dev }

/-- A state with a command slot set. -/
def State.cmd (s : State) (cs : Nat) (x : CSlot) : State := s.d fun d => { d with hg := { d.hg with slots := Tbl.ins d.hg.slots cs x } }

end Sys2Proof.Machine

namespace Sys2Proof.Tests

open Sys2Proof Sys2Proof.Machine

set_option Elab.async false

/-! ### Small states -/

def pk (l : List (Nat × Nat × Nat)) : KmbPkt := ⟨0, 0, 0, BitVec.ofNat 448 ((l.map (fun x => x.2.2 * 256 ^ (x.1 - 8))).sum)⟩

def dv (f : Dev → Dev) : State := { State.reset with dev := f State.reset.dev }

def inMode (m : Mode) : State := dv fun d => { d with modes := { d.modes with mode := m }, pins := { d.pins with por := false, perstA := false } }

def nat (n : Nat) : List Nat := List.range n

def at2 (b : List Byte) (l : List (Nat × Nat × Nat)) : List Byte := (List.range (max b.length (l.foldl (fun a x => max a (x.1 + x.2.1)) 0))).map (fun i => match l.find? (fun x => decide (x.1 ≤ i) && decide (i < x.1 + x.2.1)) with | some x => BitVec.ofNat 8 (x.2.2 / 256 ^ (i - x.1)) | none => (b[i]?).getD 0)

def coloB : List Byte := at2 [] [(0x50,1,2),(0x51,1,2),(0x54,4,64),(0x58,2,1024),(0x5A,2,256),(0x5C,1,4),(0x5D,1,1),(0x64,4,1),
  (0x70,2,100),(0x72,2,200),(0x74,2,30),(0x76,2,60),(0x78,2,2000),(0x7A,2,4000),(0x7C,2,400),(0x7E,2,800),(0x80,2,5000),(0x82,2,9000),(0x84,2,20),(0x86,2,40),(0x88,2,20),(0x8A,2,40),
  (0x8C,1,8),(0x8D,1,8),(0x8E,2,100),(0x90,2,100),(0xA0,2,10),(0xA2,2,10),(0xA4,2,30),(0xA6,2,20),(0xA8,2,25),(0xAC,4,1000),(0xC0,1,0),(0xC1,1,70),(0xC2,1,85),(0xDB,1,4),(0x10F,1,0)]

def allS (m : Mode) (st : Pd) : State := (inMode m).d fun d => { d with pwr := { d.pwr with doms := (List.range 36).map (fun k => (k, if k < 3 then Dom.on else { Dom.off with st := st, up := st })) } }

def mem0 (k : Nat) : Member := ⟨.active, some k, 0, 0, 4, 1024⟩

def quire0 : Quire := { width := 4, strict := false, active := false, autoRespread := false, members := (List.range 4).map (fun k => (k, mem0 k)), slcShare := 64, opPm := 100, spareFloor := 1, hours := 168, effective := 168, gcReserve := 4, rebuildShare := 10, ucap := 10000, spares := [(0,4),(1,4),(2,4),(3,4)], sparesFirst := 16, held := false, due := false, work := none, workSince := 0, workDone := 0, workTotal := 0, hostA := some 0, hostB := some 1, patRows := 0, patTotal := 0, patCws := 0, patBeyond := 0, patNow := false, patLate := false, passAt := 0, passes := 0, lastPass := 0, repaired := 0, misparity := 0, lostUnits := 0, rehomedTo := none, foldHeld := false, folding := none, victim := none, refreshing := none, winUnits := 0, winReads := [], lastWrite := 0, debt := 0 }

def slotA : SlotSt := { SlotSt.reset with present := true, pwren := true, rst := false, validated := true, outcome := 1, colo := some coloB, admitted := true }

def linkA : Link := { Link.reset with st := .active, width := 4, adv := [64, 256, 64], maxTags := 64 }

def impo0 : Impo := ⟨1, 1, 0, false, 0, true, [(1, at2 [] ((List.range 8).map (fun k => (8 + 4 * k, 1, 1)))), (4, at2 [] [(2,1,1),(3,1,0),(8,2,0xFFF)]), (5, at2 [] [(4,4,1000000),(12,2,300),(16,4,500),(28,2,800),(30,2,200)])]⟩

def world : State := (allS .serve .on).d fun d => { d with quires := [(0, quire0)], gl := { d.gl with slots := (List.range 4).map (fun k => (k, slotA)), links := (List.range 4).map (fun k => (k, linkA)) }, clk := { d.clk with ns64 := 64 * 10 ^ 12 }, boot := { d.boot with impo := some impo0 } }

def sqe (l : List (Nat × Nat)) : BitVec 512 := BitVec.ofNat 512 ((l.map (fun x => x.2 * 2 ^ (32 * x.1))).sum)

def slot0 : CSlot := { st := .fetched, wait := .nothing, fn := .pf .a, sqid := 0, cid := 9, sqe := 0, order := 3, t0 := 0, tenant := 512, classified := true, charged := false, pacedAt := none, wasPaced := false, discard := false, bufs := [], tags := [], units := [], want := 0, rsv := 0, commitAt := 0, stage := 0, cqe := none }

def adm (op : Nat) (l : List (Nat × Nat)) : CSlot := { slot0 with sqe := sqe ((0, op + 9 * 65536) :: l) }

def ioc (op : Nat) (l : List (Nat × Nat)) : CSlot := { slot0 with sqid := 1, sqe := sqe ((0, op + 9 * 65536) :: l), charged := true, st := .executing }

def sq0 : Sq := ⟨4096, 16, 0, 2, 5, [(5, 0)]⟩

def cq0 : Cq := ⟨8192, 16, 3, 7, true, 0, true, [], false⟩

def fn0 : FnSt := { FnSt.reset with bme := true, msix := true, rdy := true, cc := 0x460001, aqa := 0xF000F, asq := 4096, acq := 8192, sqs := [(0, sq0), (1, { sq0 with cqid := 1 })], cqs := [(0, cq0), (1, { cq0 with vector := 1 })] }

def ns0 : Nsp := { kind := 0, lbaf := 0, nsze := 4096, iu16 := false, pi := 0, zoneShift := 0, mar := 0, quire := 0, handles := [], attached := [1], gen := 5, keyGen := 1, keySeq := 1, formatting := none, deleting := false, ndasReset := false }

def ct0 : Contract := ⟨1, false, some 3000, none, 100, 100, 0, 1024, 16, 1⟩

def hw : State := world.d fun d => ({ d with ports := [(0, { HPort.reset with dl := true, vfEn := true, numVfs := 4 })], fns := (Tbl.put .reset (Tbl.put .reset ([] : Tbl FnSt) (Fn.pf .a).key fn0) (Fn.vf .a 1).key fn0), tc := { d.tc with nss := [(0, ns0)], ceiling := 1024 } }).setCsr aHgCtrl 0x81

def hwf (f : Dev → Dev) (x : CSlot) : State := (hw.d f).cmd 3 x



/-! ### Boot -/

namespace Boot

def s01a : State := (inMode .awaitImage).d fun d => { d with ports := d.ports.put .reset 0 { HPort.reset with dl := true }, boot := { d.boot with mboxReady := true, port := some .a }, fns := d.fns.put .reset (Fn.pf .a).key { FnSt.reset with bme := true } }

def s01m (m : Mode) : State := s01a.d fun d => { d with modes := { d.modes with mode := m } }

def st01 : Staged := ⟨24576, [], [0,1,2,3,4,5]⟩

/-- One instance of the functions that Config leaves opaque: every digest is 1, every signature verifies. The witnesses
of clauses that ask for a signature or a digest are stated under it. -/
def Crypto0 : Prop :=
  (∀ l, Config.sha384 l = 1#384) ∧ (∀ n, Config.vendorDigest n = 1#384) ∧ (∀ k m x, Config.ecdsaOk k m x = true)
    ∧ (∀ k m x, Config.mldsaOk k m x = true) ∧ Config.romVersion = 0 ∧ Config.serial = 7#128

/-- A Folio of one segment, unsigned by an owner. -/
def folioCells : Tbl Byte :=
  [(0, 0x46), (1, 0x4F), (2, 0x4C), (3, 0x4F), (4, 1), (6, 4), (9, 0x60), (0x15, 0xFF), (0x16, 1), (0x1C, 1),
   (0x101, 0x10), (0x105, 0x10), (0x10C, 1), (0x110, 1)]

theorem folio_passes (h : Crypto0) : folioCheck Fuses.reset folioCells 24576 = none := by
  obtain ⟨hs, hv, he, hm, hr, hn⟩ := h
  simp only [folioCheck, partSigs, folioOwner, folioDigests, folioMv, partDigests, hs, hv, he, hm, hr]
  decide +kernel

def folio0 : Staged := ⟨24576, folioCells, [0, 1, 2, 3, 4, 5]⟩

/-- An Imposition with the six sections that R60 requires: slots 0 to 5, one Quire of four. -/
def impoBytes : List Byte :=
  let sec (t : Nat) (b : List Byte) : List Byte := leBytes 4 t ++ leBytes 4 b.length ++ b
  let body := sec 1 (at2 [] ([(0,1,1),(263,1,0)] ++ (List.range 6).map (fun k => (8 + 4 * k, 1, 1))))
    ++ sec 2 (at2 [] ([(0,1,1),(1,1,1),(9,1,4),(12,4,0x03020100),(28,1,64),(30,2,400),(34,2,168),(36,2,16),(38,1,10),(55,1,0)]
        ++ (List.range 12).map (fun k => (16 + k, 1, 0xFF))))
    ++ sec 3 (at2 [] [(0,1,1),(4,4,10000),(8,4,10000),(12,4,10000),(16,4,1000),(20,4,100),(28,1,1),(287,1,0)])
    ++ sec 4 (at2 [] [(0,1,1),(1,1,1),(2,1,1),(8,2,0xFFF),(16,1,1),(31,1,0)])
    ++ sec 5 (at2 [] [(0,1,1),(4,4,1000000),(8,2,8000),(10,2,1000),(12,2,300),(14,2,4000),(16,4,1000000),(20,4,1000),(24,2,500),
        (28,2,500),(30,2,1),(39,1,0)])
    ++ sec 6 (at2 [] [(0,1,1),(1,1,1),(7,1,0)])
  leBytes 4 0x504D4924 ++ leBytes 4 1 ++ leBytes 4 800 ++ leBytes 4 0 ++ [0xFF, 6] ++ List.replicate 46 0 ++ body

/-- The blob of ENROLL_OWNER for slot 0: `act` 0 enrols under its own key, 1 revokes under slot 0's. -/
def ownerBlob (act auth : Nat) (d : Nat) : List Byte :=
  leBytes 4 0x4C4E524F ++ leBytes 1 act ++ leBytes 1 0 ++ leBytes 1 auth ++ leBytes 1 0 ++ leBytes 16 7 ++ leBytes 8 0
    ++ leBytes 48 d ++ leBytes 48 d ++ List.replicate 5632 0

def enrolled0 : Fuses := { Fuses.reset with owners := [(0, ⟨1, 1, true, false⟩)] }

theorem enrol_passes (h : Crypto0) : enrolCheck Fuses.reset (slice (ownerBlob 0 0xFF 1) 0 5760) true 0 = none := by
  obtain ⟨hs, hv, he, hm, hr, hn⟩ := h
  simp only [enrolCheck, partDigests, hs, he, hm, hn]
  decide +kernel

theorem revoke_passes (h : Crypto0) : enrolCheck enrolled0 (slice (ownerBlob 1 0 0) 0 5760) false 0 = none := by
  obtain ⟨hs, hv, he, hm, hr, hn⟩ := h
  simp only [enrolCheck, partDigests, hs, he, hm, hn]
  decide +kernel

theorem pair_of {α : Type} (r : Option α × Nat × Nat) (h : r.1.isSome = true) : ∃ i x y, r = (some i, x, y) := by
  obtain ⟨i, x, y⟩ := r
  cases i with
  | none => cases h
  | some i => exact ⟨i, x, y, rfl⟩

theorem witness_PorReleaseAwaitsImage :
    ∃ (s : State), s.dev.pins.por = true ∧ s.dev.modes.mode = .off :=
  ⟨State.reset, by (repeat' apply And.intro) <;> decide +kernel⟩

theorem witness_ClockCommands :
    (∃ (s : State), s.dev.modes.mode ≠ .off) ∧
    (∃ (s : State) (p : Port), s.dev.modes.mode ≠ .off ∧ s.dev.clk.lost p = false) ∧
    (∃ (s : State) (p : Port), s.dev.modes.mode ≠ .off ∧ s.dev.clk.lost p = true) := by
  refine ⟨?_, ?_, ?_⟩
  · exact ⟨((inMode .serve).d fun d => {d with clk := {d.clk with refSel := .a}}), by decide +kernel⟩
  · exact ⟨((inMode .serve).d fun d => {d with clk := {d.clk with refSel := .a}}),
    .a, by (repeat' apply And.intro) <;> decide +kernel⟩
  · exact ⟨((inMode .serve).d fun d =>
    {d with clk := {d.clk with refSel := .a, lostA := true, lostB := true, holdover := true}}),
    .a, by (repeat' apply And.intro) <;> decide +kernel⟩

theorem witness_AwaitWindowExpires :
    ∃ (s : State), s.dev.modes.mode = .awaitImage :=
  ⟨(inMode .awaitImage), by decide +kernel⟩

theorem witness_PerstResetsThePort :
    (∃ (s : State) (p : Port), s.dev.pins.perst p = true ∧ s.dev.pins.por = false ∧ s.dev.portOff p = false ∧ (s.dev.dom
      (portDom p)).failed = false ∧ (s.dev.dom (portDom p)).st = .off ∧ (s.dev.dom (portDom p)).wait = false) ∧
    (∃ (s : State) (p : Port), s.dev.pins.perst p = false ∧ s.dev.modes.mode ≠ .off ∧ s.dev.portOff p = false) := by
  refine ⟨?_, ?_⟩
  · exact ⟨((inMode .serve).d fun d =>
    {d with pins := {d.pins with perstB := true}, pwr := {d.pwr with doms := d.pwr.doms.put Dom.off (portDom .a) Dom.on}}),
    .b, by (repeat' apply And.intro) <;> decide +kernel⟩
  · exact ⟨((inMode .serve).d fun d =>
    {d with pins := {d.pins with perstB := true}, pwr := {d.pwr with doms := d.pwr.doms.put Dom.off (portDom .a) Dom.on}}),
    .a, by (repeat' apply And.intro) <;> decide +kernel⟩

theorem witness_HostLinkUpAndDown :
    (∃ (s : State) (p : Port), s.dev.modes.mode ≠ .off ∧ s.dev.pins.perst p = false ∧ s.dev.portOff p = false) ∧
    (∃ (s : State) (p : Port), (s.dev.hport p).dl = true) := by
  refine ⟨?_, ?_⟩
  · exact ⟨(inMode .awaitImage), .a, by (repeat' apply And.intro) <;> decide +kernel⟩
  · exact ⟨s01a, .a, by decide +kernel⟩

theorem witness_MailboxHelloStatusBadOpcode :
    (∃ (s : State) (p : Port) (k : KmbPkt), s.dev.mailboxFree p ∧ s.dev.modes.mode ≠ .holdup ∧ firstNonZero k 42 = none ∧ k.num
      41 1 = 1) ∧
    (∃ (s : State) (p : Port) (k : KmbPkt), s.dev.mailboxFree p ∧ firstNonZero k 8 = none) ∧
    (∃ (s : State) (p : Port) (op : Byte), s.dev.mailboxFree p ∧ (op = 0 ∨ 0x0A < op.toNat)) := by
  refine ⟨?_, ?_, ?_⟩
  · exact ⟨s01a, .a, (pk [(41,1,1)]), by (repeat' apply And.intro) <;> decide +kernel⟩
  · exact ⟨s01a, .a, (pk []), by (repeat' apply And.intro) <;> decide +kernel⟩
  · exact ⟨s01a, .a, (0xB#8), by (repeat' apply And.intro) <;> decide +kernel⟩

theorem witness_MailboxReads :
    (∃ (s : State) (p : Port) (k : KmbPkt), s.dev.mailboxFree p ∧ s.dev.modes.mode ≠ .dormant ∧ s.dev.modes.mode ≠ .holdup ∧
      (s.dev.fnst (.pf p)).bme = true ∧ k.num 8 8 % 4 = 0 ∧ s.dev.bcol.signed = true ∧ firstNonZero k 24 = none ∧ k.num 16 4 <
      s.dev.bcol.length ∧ 0 < k.num 20 4 ∧ k.num 20 4 ≤ 65536) ∧
    (∃ (s : State) (p : Port) (k : KmbPkt), s.dev.mailboxFree p ∧ s.dev.modes.mode ≠ .dormant ∧ s.dev.modes.mode ≠ .holdup ∧
      (s.dev.fnst (.pf p)).bme = true ∧ k.num 8 8 % 4 = 0 ∧ firstNonZero k 25 = none ∧ 0 < k.num 16 4 ∧ k.num 16 4 % 4 = 0 ∧
      k.num 16 4 ≤ 65536 ∧ k.num 24 1 = 1) ∧
    (∃ (s : State) (p : Port) (k : KmbPkt), s.dev.mailboxFree p ∧ s.dev.modes.mode ≠ .dormant ∧ s.dev.modes.mode ≠ .holdup ∧
      (s.dev.fnst (.pf p)).bme = true ∧ k.num 8 8 % 4 = 0 ∧ firstNonZero k 25 = none ∧ 0 < k.num 16 4 ∧ k.num 16 4 % 4 = 0 ∧
      k.num 16 4 ≤ 65536 ∧ k.num 24 1 = 0 ∧ s.dev.evl.mainOn = true) := by
  refine ⟨?_, ?_, ?_⟩
  · exact ⟨((s01m .serve).d fun d => {d with bcol := {d.bcol with signed := true, head := List.replicate 9216 1}}), .a, (pk
    [(8,8,4096),(16,4,9000),(20,4,65536)]), by (repeat' apply And.intro) <;> decide +kernel⟩
  · exact ⟨(s01m .halted), .a, (pk [(8,8,4096),(16,4,65536),(24,1,1)]), by (repeat' apply And.intro) <;> decide +kernel⟩
  · exact ⟨((s01m .serve).d fun d => {d with evl := {d.evl with mainOn := true, next := 7}}), .a, (pk
    [(8,8,4096),(16,4,4),(24,1,0)]), by (repeat' apply And.intro) <;> decide +kernel⟩

theorem witness_MailboxLoads :
    (∃ (s : State) (p : Port) (k : KmbPkt), s.dev.loading p ∧ firstNonZero k 12 = none ∧ k.num 8 4 % 4096 = 0 ∧ 24576 ≤ k.num 8
      4 ∧ k.num 8 4 ≤ 33574912) ∧
    (∃ (s : State) (p : Port) (k : KmbPkt) (f : Staged), s.dev.loading p ∧ s.dev.boot.folio = some f ∧ firstNonZero k 24 = none
      ∧ k.num 8 8 % 4 = 0 ∧ k.num 16 4 % 4096 = 0 ∧ k.num 20 4 % 4096 = 0 ∧ 0 < k.num 20 4 ∧ k.num 20 4 ≤ 0x400000 ∧ k.num 16 4
      + k.num 20 4 ≤ f.size ∧ (s.dev.fnst (.pf p)).bme = true) ∧
    (∃ (s : State) (p : Port) (k : KmbPkt) (f : Staged), s.dev.loading p ∧ s.dev.boot.folio = some f ∧ f.complete = true ∧
      s.dev.boot.impo.isSome = true ∧ firstNonZero k 8 = none) ∧
    (∃ (s : State) (p : Port) (k : KmbPkt), s.dev.loading p ∧ firstNonZero k 8 = none) := by
  refine ⟨?_, ?_, ?_, ?_⟩
  · exact ⟨s01a, .a, (pk [(8,4,33574912)]), by (repeat' apply And.intro) <;> decide +kernel⟩
  · exact ⟨(s01a.d fun d => {d with boot := {d.boot with folio := some ⟨24576,[],[]⟩}}), .a, (pk
    [(8,8,64),(16,4,20480),(20,4,4096)]), ⟨24576,[],[]⟩, by (repeat' apply And.intro) <;> decide +kernel⟩
  · exact ⟨(s01a.d fun d => {d with boot := {d.boot with folio := some st01, impo := some ⟨0,0,0,false,0,true,[]⟩}}), .a, (pk
    []), st01, by (repeat' apply And.intro) <;> decide +kernel⟩
  · exact ⟨s01a, .a, (pk []), by (repeat' apply And.intro) <;> decide +kernel⟩

theorem witness_MailboxRingRules :
    (∃ (s : State) (p : Port), s.dev.modes.mode ≠ .off ∧ (s.dev.hport p).dl = true ∧ (s.dev.box p).busy = true) ∧
    (∃ (s : State) (p : Port), s.dev.modes.mode ≠ .off ∧ (s.dev.hport p).dl = true ∧ (s.dev.box p).busy = false ∧
      s.dev.boot.mboxReady = false ∧ s.dev.modes.mode ≠ .dormant) ∧
    (∃ (s : State) (p : Port), s.dev.modes.mode ≠ .off ∧ (s.dev.hport p).dl = true ∧ s.dev.boot.port.isSome = true ∧
      s.dev.boot.mboxReady = false ∧ (∀ q, (s.dev.box q).held = none)) := by
  refine ⟨?_, ?_, ?_⟩
  · exact ⟨(s01a.d fun d => {d with kmb := d.kmb.put .reset 0 {Kmb.reset with busy := true}}),
    .a, by (repeat' apply And.intro) <;> decide +kernel⟩
  · exact ⟨(s01a.d fun d => {d with boot := {d.boot with mboxReady := false}}),
    .a, by (repeat' apply And.intro) <;> decide +kernel⟩
  · exact ⟨(s01a.d fun d => {d with boot := {d.boot with mboxReady := false}}),
    .a, by (repeat' apply And.intro) <;> first | decide +kernel | (intro q; cases q <;> decide +kernel)⟩

theorem witness_VerificationEnds :
    ∃ (s : State) (p : Port) (f : Staged) (st dt : Nat), s.dev.modes.mode = .verify ∧ s.dev.boot.verifying = some p ∧
      s.dev.boot.folio = some f ∧ folioCheck s.fuse f.cells f.size = some (st, dt) ∧ 0 < st :=
  ⟨((s01m .verify).d fun d =>
    {d with boot := {d.boot with verifying := some .a, folio := some st01}, kmb := d.kmb.put .reset 0 {Kmb.reset with busy := true}}),
    .a, st01, ((folioCheck (((s01m .verify).d fun d =>
    {d with boot := {d.boot with verifying := some .a, folio := some st01}, kmb := d.kmb.put .reset 0 {Kmb.reset with busy := true}})
    : State).fuse st01.cells st01.size).getD (0,0)).1, ((folioCheck (((s01m .verify).d fun d =>
    {d with boot := {d.boot with verifying := some .a, folio := some st01}, kmb := d.kmb.put .reset 0 {Kmb.reset with busy := true}})
    : State).fuse st01.cells st01.size).getD (0,0)).2, by (repeat' apply And.intro) <;> decide +kernel⟩

theorem witness_MailboxImpositionAndOwners_1 :
    ∃ (s : State) (p : Port) (k : KmbPkt) (b : List Byte) (i : Impo) (st dt : Nat), s.dev.loading p
      ∧ (s.dev.fnst (.pf p)).bme = true ∧ k.num 8 8 % 4 = 0 ∧ firstNonZero k 20 = none ∧ 128 ≤ k.num 16 4 ∧ k.num 16 4 % 4 = 0
      ∧ k.num 16 4 ≤ 262144 ∧ checkImposition s.fuse (slice b 0 (k.num 16 4)) = (some i, st, dt) := by
  obtain ⟨i, st, dt, h⟩ := pair_of (checkImposition Fuses.reset (slice impoBytes 0 800)) (by decide +kernel)
  refine ⟨s01a, .a, pk [(16,4,800)], impoBytes, i, st, dt, ?_, ?_, ?_, ?_, ?_, ?_, ?_, h⟩
  · unfold Dev.loading Dev.mailboxFree; decide +kernel
  all_goals decide +kernel

theorem witness_MailboxImpositionAndOwners_2 (h : Crypto0) :
    (∃ (s : State) (p : Port) (k : KmbPkt) (b : List Byte), s.dev.loading p ∧ (s.dev.fnst (.pf p)).bme = true ∧ k.num 8 8 % 4 = 0
      ∧ firstNonZero k 22 = none ∧ k.num 16 4 = 5760 ∧ k.num 21 1 ≤ 3 ∧ s.dev.boot.folio = none ∧ k.num 20 1 ≤ 1
      ∧ enrolCheck s.fuse (slice b 0 5760) true (k.num 21 1) = none) ∧
    (∃ (s : State) (p : Port) (k : KmbPkt) (b : List Byte), s.dev.loading p ∧ (s.dev.fnst (.pf p)).bme = true ∧ k.num 8 8 % 4 = 0
      ∧ firstNonZero k 22 = none ∧ k.num 16 4 = 5760 ∧ k.num 21 1 ≤ 3 ∧ s.dev.boot.folio = none ∧ k.num 20 1 ≤ 1
      ∧ enrolCheck s.fuse (slice b 0 5760) false (k.num 21 1) = none) := by
  constructor
  · refine ⟨s01a, .a, pk [(16,4,5760)], ownerBlob 0 0xFF 1, ?_, ?_, ?_, ?_, ?_, ?_, ?_, ?_, enrol_passes h⟩
    · unfold Dev.loading Dev.mailboxFree; decide +kernel
    all_goals decide +kernel
  · refine ⟨{ s01a with fuse := enrolled0 }, .a, pk [(16,4,5760),(20,1,1)], ownerBlob 1 0 0, ?_, ?_, ?_, ?_, ?_, ?_, ?_, ?_, revoke_passes h⟩
    · unfold Dev.loading Dev.mailboxFree; decide +kernel
    all_goals decide +kernel

theorem witness_VerificationEnds_ok (h : Crypto0) :
    ∃ (s : State) (p : Port) (f : Staged), s.dev.modes.mode = .verify ∧ s.dev.boot.verifying = some p ∧ s.dev.boot.folio = some f
      ∧ folioCheck s.fuse f.cells f.size = none :=
  ⟨(s01m .verify).d fun d => { d with boot := { d.boot with verifying := some .a, folio := some folio0 } }, .a, folio0,
    by decide +kernel, by decide +kernel, by decide +kernel, folio_passes h⟩

end Boot


/-! ### Domains -/

namespace Domains

def domS (m : Mode) (k : Nat) (x : Dom) : State := (inMode m).d fun d => { d with pwr := { d.pwr with doms := d.pwr.doms.put Dom.off k x } }

def tr (up : Pd) : Dom := { Dom.off with st := .trans, up := up }

def s02s (f : Modes → Modes) : State := (allS .serve .on).d fun d => { d with modes := f d.modes }

def slot02 : CSlot := { st := .fetched, wait := .nothing, fn := .pf .a, sqid := 0, cid := 0, sqe := 0, order := 0, t0 := 0, tenant := 0, classified := false, charged := false, pacedAt := none, wasPaced := false, discard := false, bufs := [], tags := [], units := [], want := 0, rsv := 0, commitAt := 0, stage := 0, cqe := none }

def die02 : Die := { hold := some 1, kind := .progSlc, susp := false, susTag := none, suspends := 0, ranNs := 0, runAt := 0, refused := false, susAt := 0, batch := 0, reads := [], preds := [], done := 0, firstAt := none, warm := false, failed := false, acceptAt := 0 }

theorem witness_DomainRequests :
    (∃ (s : State) (k t : Nat), s.dev.modes.mode ≠ .off ∧ k < 64 ∧ t < 4 ∧ s.dev.pwr.busy.isSome = true) ∧
    (∃ (s : State) (k t : Nat), s.dev.modes.mode ≠ .off ∧ k < 64 ∧ t < 4 ∧ s.dev.pwr.busy = none ∧ s.dev.pdJudge k t ≠ 0) ∧
    (∃ (s : State) (k t : Nat), s.dev.modes.mode ≠ .off ∧ k < 64 ∧ t < 4 ∧ s.dev.inTransition = true ∧ k ≤ 35 ∧ t ≠ 1) ∧
    (∃ (s : State) (k t : Nat), s.dev.modes.mode ≠ .off ∧ k < 64 ∧ t < 4 ∧ s.dev.pwr.busy = none ∧ s.dev.pdJudge k t = 0) := by
  refine ⟨?_, ?_, ?_, ?_⟩
  · exact ⟨((allS .serve .on).d fun d => {d with pwr := {d.pwr with busy := some (7, .on)}}), (nat 64 : List (Nat)).getD 0 (0),
    (nat 4 : List (Nat)).getD 0 (0), by (repeat' apply And.intro) <;> decide +kernel⟩
  · exact ⟨allS .serve .on, (nat 64 : List (Nat)).getD 0 (0), (nat 4 : List (Nat)).getD 0
    (0), by (repeat' apply And.intro) <;> decide +kernel⟩
  · exact ⟨((allS .serve .on).d fun d => {d with modes := {d.modes with settle := [(3,.on)]}}), (nat 64 : List (Nat)).getD 0
    (0), (nat 4 : List (Nat)).getD 0 (0), by (repeat' apply And.intro) <;> decide +kernel⟩
  · exact ⟨allS .serve .on, (nat 64 : List (Nat)).getD 2 (0), (nat 4 : List (Nat)).getD 3
    (0), by (repeat' apply And.intro) <;> decide +kernel⟩

theorem witness_DomainPowerUp :
    ∃ (s : State) (k : Nat), (s.dev.dom k).st = .trans ∧ (s.dev.dom k).up = .on ∧ s.dev.modes.mode ≠ .idle ∧ s.dev.pwr.busy ≠
      some (k, .gated) :=
  ⟨((nat 36).flatMap (fun k => [domS .serve k (tr .on), domS .assemble k (tr .on), domS .halted k (tr .on), domS .serve k
    {tr .on with ramp := true}]) : List (State)).getD 0 (State.reset), (nat 36 : List (Nat)).getD 0
    (0), by (repeat' apply And.intro) <;> decide +kernel⟩

theorem witness_DomainDown :
    (∃ (s : State) (k : Nat), (s.dev.dom k).st = .trans ∧ (s.dev.dom k).want = false ∧ s.dev.modes.mode ≠ .idle ∧ (s.dev.dom
      k).up = .off ∧ (9 ≤ k → k ≤ 12 → servingMode s.dev.modes.mode = false) ∧ ((k = 34 ∨ k = 35) → (s.dev.dom k).offReq = true
      → s.dev.halfBusy (k - 34) = false)) ∧
    (∃ (s : State) (k : Nat), (s.dev.dom k).st = .trans ∧ (s.dev.dom k).want = false ∧ s.dev.modes.mode ≠ .idle ∧ (k = 34 ∨ k =
      35) ∧ (s.dev.dom k).up = .off ∧ (s.dev.dom k).offReq = true ∧ s.dev.halfBusy (k - 34) = true) ∧
    (∃ (s : State) (k : Nat), (s.dev.dom k).st = .trans ∧ (s.dev.dom k).want = false ∧ s.dev.modes.mode ≠ .idle ∧ (s.dev.dom
      k).up = .gated ∧ (13 ≤ k → k ≤ 20 → ∀ i, i < 8 → (s.dev.link (8 * (k - 13) + i)).st ≠ .active)) ∧
    (∃ (s : State) (k i : Nat), (s.dev.dom k).st = .trans ∧ (s.dev.dom k).want = false ∧ s.dev.modes.mode ≠ .idle ∧ (s.dev.dom
      k).up = .gated ∧ 13 ≤ k ∧ k ≤ 20 ∧ i < 8 ∧ (s.dev.link (8 * (k - 13) + i)).st = .active) := by
  refine ⟨?_, ?_, ?_, ?_⟩
  · exact ⟨((nat 36).flatMap (fun k => [domS .serve k (tr .off), domS .assemble k (tr .off), domS .halted k
    {tr .off with offReq := true}]) : List (State)).getD 0 (State.reset), (nat 36 : List (Nat)).getD 0
    (0), by (repeat' apply And.intro) <;> decide +kernel⟩
  · exact ⟨([34,35].map (fun k => (domS .serve k {tr .off with offReq := true}).d fun d =>
    {d with bpm := {d.bpm with bufs := [(0,⟨1,0,0,0,0⟩)]}}) : List (State)).getD 1 (State.reset),
    35, by (repeat' apply And.intro) <;> decide +kernel⟩
  · exact ⟨((nat 36).flatMap (fun k => [domS .serve k (tr .gated), domS .assemble k (tr .gated), domS .halted k (tr .gated)]) :
    List (State)).getD 0 (State.reset), (nat 36 : List (Nat)).getD 0 (0), by (repeat' apply And.intro) <;> decide +kernel⟩
  · exact ⟨((domS .serve 14 (tr .gated)).d fun d =>
    {d with gl := {d.gl with links := [(12, {Link.reset with st := .active})]}}), (nat 36 : List (Nat)).getD 14 (0), (nat 8 :
    List (Nat)).getD 4 (0), by (repeat' apply And.intro) <;> decide +kernel⟩

theorem witness_DomainFails :
    ∃ (s : State) (k : Nat), 2 ≤ k ∧ k ≤ 35 ∧ (s.dev.dom k).failed = false ∧ s.dev.modes.mode ≠ .off ∧ (s.dev.dom k).st ≠ .off
      ∧ (13 ≤ k → k ≤ 20 → ∀ i, i < 8 → (s.dev.slot (8 * (k - 13) + i)).admitted = false) :=
  ⟨allS .serve .on, (nat 36 : List (Nat)).getD 2 (0), by (repeat' apply And.intro) <;> decide +kernel⟩

theorem witness_IdleGating :
    (∃ (s : State) (k : Nat), servingMode s.dev.modes.mode = true ∧ s.dev.inFloor k = true) ∧
    (∃ (s : State) (k : Nat), servingMode s.dev.modes.mode = true ∧ s.dev.inFloor k = false ∧ s.dev.ruleOf k = .demand ∧
      (s.dev.dom k).st = .on ∧ (13 ≤ k → k ≤ 20 → s.dev.glBusy k = false)) := by
  refine ⟨?_, ?_⟩
  · exact ⟨allS .serve .on, (nat 36 : List (Nat)).getD 9 (0), by (repeat' apply And.intro) <;> decide +kernel⟩
  · exact ⟨allS .serve .on, (nat 36 : List (Nat)).getD 5 (0), by (repeat' apply And.intro) <;> decide +kernel⟩

theorem witness_WarmFloorRegisters :
    (∃ (s : State) (v : W32), servingMode s.dev.modes.mode = true ∧ (8 < bitsOf v.toNat 3 0 ∨ 4 < bitsOf v.toNat 6 4 ∨ bitsOf
      v.toNat 9 7 = 0 ∨ 4 < bitsOf v.toNat 9 7)) ∧
    (∃ (s : State) (v : W32), servingMode s.dev.modes.mode = true ∧ bitsOf v.toNat 3 0 ≤ 8 ∧ bitsOf v.toNat 6 4 ≤ 4 ∧ 1 ≤
      bitsOf v.toNat 9 7 ∧ bitsOf v.toNat 9 7 ≤ 4) ∧
    (∃ (s : State) (v : W32), servingMode s.dev.modes.mode = true ∧ 10 ≤ bitsOf v.toNat 13 0 ∧ bitsOf v.toNat 13 0 ≤ 10000) ∧
    (∃ (s : State) (v : W32), servingMode s.dev.modes.mode = true ∧ (bitsOf v.toNat 13 0 < 10 ∨ 10000 < bitsOf v.toNat 13 0)) := by
  refine ⟨?_, ?_, ?_, ?_⟩
  · exact ⟨(allS .serve .on), 0, by (repeat' apply And.intro) <;> decide +kernel⟩
  · exact ⟨(allS .serve .on), 0x80, by (repeat' apply And.intro) <;> decide +kernel⟩
  · exact ⟨(allS .serve .on), 10, by (repeat' apply And.intro) <;> decide +kernel⟩
  · exact ⟨(allS .serve .on), 0, by (repeat' apply And.intro) <;> decide +kernel⟩

theorem witness_IdleEntryAndCompletion :
    (∃ (s : State), servingMode s.dev.modes.mode = true ∧ s.dev.modes.idleEntry = false ∧ 3 ≤ s.dev.modes.selPs ∧
      s.dev.cmdsOutstanding = false ∧ s.dev.modes.settle = []) ∧
    (∃ (s : State), servingMode s.dev.modes.mode = true ∧ s.dev.cmdsOutstanding = true) ∧
    (∃ (s : State), servingMode s.dev.modes.mode = true ∧ s.dev.modes.idleEntry = true ∧ s.dev.progInFlight = false) ∧
    (∃ (s : State), servingMode s.dev.modes.mode = true ∧ s.dev.modes.idleEntry = true ∧ s.dev.progInFlight = true) := by
  refine ⟨?_, ?_, ?_, ?_⟩
  · exact ⟨s02s (fun m => {m with selPs := 3}), by (repeat' apply And.intro) <;> decide +kernel⟩
  · exact ⟨(s02s (fun m => {m with selPs := 3})).d (fun d =>
    {d with hg := {d.hg with slots := [(3, slot02)]}}), by (repeat' apply And.intro) <;> decide +kernel⟩
  · exact ⟨s02s (fun m => {m with selPs := 4, idleEntry := true}), by (repeat' apply And.intro) <;> decide +kernel⟩
  · exact ⟨(s02s (fun m => {m with selPs := 4, idleEntry := true})).d (fun d =>
    {d with rp := {d.rp with dies := [(0, die02)]}}), by (repeat' apply And.intro) <;> decide +kernel⟩

theorem witness_AutonomousPowerState :
    (∃ (s : State) (ps : Nat), (ps = 3 ∨ ps = 4) ∧ bitOf (s.dev.adm.feats.get 0 0x0C).toNat 0 = true ∧ (s.dev.apstEntry
      s.dev.modes.selPs).1 = ps ∧ (s.dev.apstEntry s.dev.modes.selPs).2 ≠ 0 ∧ servingMode s.dev.modes.mode = true) ∧
    (∃ (s : State) (ps : Nat), (ps = 3 ∨ ps = 4) ∧ bitOf (s.dev.adm.feats.get 0 0x0C).toNat 0 = true ∧ (s.dev.apstEntry
      s.dev.modes.selPs).1 = ps ∧ (s.dev.apstEntry s.dev.modes.selPs).2 ≠ 0 ∧ s.dev.modes.mode = .idle ∧ s.dev.modes.leaving =
      false) := by
  refine ⟨?_, ?_⟩
  · exact ⟨(allS .serve .on).d fun d => {d with adm := {d.adm with feats := [(0x0C,1)], apst := [0x18,1]}},
    3, by (repeat' apply And.intro) <;> decide +kernel⟩
  · exact ⟨(allS .idle .on).d fun d =>
    {d with modes := {d.modes with selPs := 3, hostPs := 3}, adm := {d.adm with feats := [(0x0C,1)], apst := (List.replicate 24 0) ++ [0x20,1]}},
    4, by (repeat' apply And.intro) <;> decide +kernel⟩

end Domains


/-! ### Thermal -/

namespace Thermal

def kS (f : SlotSt → SlotSt) : State := world.d fun d => d.modSt 2 f

theorem witness_PowerFailPin :
    (∃ (s : State), s.dev.pins.pwrfail = false ∧ s.dev.hu.busy = false ∧ (s.dev.modes.mode = .dormant ∨ s.dev.modes.mode =
      .awaitImage ∨ s.dev.modes.mode = .verify)) ∧
    (∃ (s : State), s.dev.pins.pwrfail = false ∧ s.dev.hu.busy = false ∧ s.dev.modes.mode = .assemble) ∧
    (∃ (s : State), s.dev.pins.pwrfail = false ∧ s.dev.hu.busy = false ∧ hostMode s.dev.modes.mode = true) ∧
    (∃ (s : State), s.dev.modes.mode ≠ .off) := by
  refine ⟨?_, ?_, ?_, ?_⟩
  · exact ⟨inMode .dormant, by (repeat' apply And.intro) <;> decide +kernel⟩
  · exact ⟨inMode .assemble, by (repeat' apply And.intro) <;> decide +kernel⟩
  · exact ⟨world, by (repeat' apply And.intro) <;> decide +kernel⟩
  · exact ⟨inMode .dormant, by decide +kernel⟩

theorem witness_HoldUpEnds :
    (∃ (s : State), s.dev.modes.mode = .holdup ∧ s.dev.holdupStuck = false ∧ s.dev.dirtyBytes = 0) ∧
    (∃ (s : State), s.dev.modes.mode = .holdup ∧ s.dev.holdupStuck = true) ∧
    (∃ (s : State), s.dev.modes.mode = .holdup ∧ s.dev.holdupStuck = false ∧ s.dev.dirtyBytes ≠ 0) := by
  refine ⟨?_, ?_, ?_⟩
  · exact ⟨inMode .holdup, by (repeat' apply And.intro) <;> decide +kernel⟩
  · exact ⟨(inMode .holdup).d fun d =>
    {d with hu := {d.hu with stuck := true}}, by (repeat' apply And.intro) <;> decide +kernel⟩
  · exact ⟨(world.d fun d =>
    {d with modes := {d.modes with mode := .holdup}, tc := {d.tc with jslots := [(0, ⟨0,4,1,1,0,0,0,0,0,false⟩)]}}), by (repeat' apply And.intro) <;> decide +kernel⟩

theorem witness_CoreRailHalts :
    (∃ (s : State), s.dev.modes.mode ≠ .off ∧ s.dev.modes.mode ≠ .halted ∧ s.dev.modes.mode ≠ .holdup ∧ s.dev.pins.pwrfail =
      false) ∧
    (∃ (s : State), s.dev.modes.mode = .holdup) ∧
    (∃ (s : State), s.dev.modes.mode = .halted) := by
  refine ⟨?_, ?_, ?_⟩
  · exact ⟨world, by (repeat' apply And.intro) <;> decide +kernel⟩
  · exact ⟨inMode .holdup, by decide +kernel⟩
  · exact ⟨inMode .halted, by decide +kernel⟩

theorem witness_TemperatureSamples :
    (∃ (s : State) (temps : List Int), s.dev.modes.mode ≠ .off ∧ temps.length = 48 ∧ (List.range 48).any (fun i =>
      !((s.dev.takeSamples temps).sensor i).excluded && decide (2 ≤ ((s.dev.takeSamples temps).sensor i).hot)) = false ∧
      ((s.dev.takeSamples temps).thm.weirs (s.dev.takeSamples temps).junction).shutdown.crossed = false) ∧
    (∃ (s : State) (temps : List Int), s.dev.modes.mode ≠ .off ∧ temps.length = 48 ∧ (List.range 48).any (fun i =>
      !((s.dev.takeSamples temps).sensor i).excluded && decide (2 ≤ ((s.dev.takeSamples temps).sensor i).hot)) = true ∧
      s.dev.modes.mode ≠ .halted) := by
  refine ⟨?_, ?_⟩
  · exact ⟨world, List.replicate 48 100, by (repeat' apply And.intro) <;> decide +kernel⟩
  · exact ⟨world.d fun d => {d with thm := {d.thm with sensors := (nat 48).map (fun i => (i, ⟨480, false, 0, 0, 1⟩))}},
    List.replicate 48 480, by (repeat' apply And.intro) <;> decide +kernel⟩

theorem witness_ThrottleAndRailSteps :
    (∃ (s : State), s.dev.modes.mode ≠ .off) ∧
    (∃ (s : State), s.dev.modes.mode ≠ .off ∧ maxPower s.dev.modes.hostPs < s.dev.slu.power ∧ s.dev.slu.kR < 16) ∧
    (∃ (s : State), s.dev.modes.mode ≠ .off ∧ 100 * s.dev.slu.power ≤ 95 * maxPower s.dev.modes.hostPs ∧ 0 < s.dev.slu.kR) := by
  refine ⟨?_, ?_, ?_⟩
  · exact ⟨world, by decide +kernel⟩
  · exact ⟨world.d fun d =>
    {d with slu := {d.slu with power := 10000000, kR := 15}}, by (repeat' apply And.intro) <;> decide +kernel⟩
  · exact ⟨world.d fun d =>
    {d with slu := {d.slu with power := 5, kR := 2, kD := 5}}, by (repeat' apply And.intro) <;> decide +kernel⟩

theorem witness_ConditionsClear :
    (∃ (s : State), s.dev.slu.kR = 0) ∧
    (∃ (s : State), s.dev.slu.kR ≠ 0) ∧
    (∃ (s : State), s.dev.quires.any (fun q => s.dev.placeable q.1) = true) ∧
    (∃ (s : State), s.dev.quires.any (fun q => s.dev.placeable q.1) = false) := by
  refine ⟨?_, ?_, ?_, ?_⟩
  · exact ⟨world, by decide +kernel⟩
  · exact ⟨world.d fun d => {d with slu := {d.slu with kR := 2}}, by decide +kernel⟩
  · exact ⟨world, by decide +kernel⟩
  · exact ⟨inMode .serve, by decide +kernel⟩

theorem witness_CapacitorTest :
    (∃ (s : State), s.dev.testMode = true ∧ s.dev.hu.busy = false) ∧
    (∃ (s : State), s.dev.testMode = false) ∧
    (∃ (s : State), s.dev.hu.busy = true ∧ s.dev.hu.waiters = []) ∧
    (∃ (s : State) (o : HuOutcome), s.dev.hu.busy = true ∧ s.dev.hu.waiters = [] ∧ (o = .notCharged ∨ o = .timeout)) := by
  refine ⟨?_, ?_, ?_, ?_⟩
  · exact ⟨world, by (repeat' apply And.intro) <;> decide +kernel⟩
  · exact ⟨inMode .halted, by decide +kernel⟩
  · exact ⟨world.d fun d => {d with hu := {d.hu with busy := true}}, by (repeat' apply And.intro) <;> decide +kernel⟩
  · exact ⟨world.d fun d => {d with hu := {d.hu with busy := true}},
    HuOutcome.notCharged, by (repeat' apply And.intro) <;> decide +kernel⟩

theorem witness_ModuleMonitors :
    (∃ (s : State) (k : Nat) (c : Colo) (m : MonRegion), s.dev.colo k = some c ∧ (s.dev.slot k).admitted = true ∧ (s.dev.slot
      k).absMax = ⟨false, 0⟩ ∧ (s.dev.slot k).count ≠ some m.count ∧ 4 * (c.temp 0 - 20) ≤ m.nand ∧ m.nand ≤ 4 * (c.temp 2 +
      20) ∧ 4 * (c.temp 0 - 20) ≤ m.bridge ∧ m.bridge ≤ 4 * (c.temp 2 + 20)) ∧
    (∃ (s : State) (k : Nat) (c : Colo), s.dev.colo k = some c ∧ (s.dev.slot k).admitted = true ∧ (s.dev.slot k).absMax =
      ⟨false, 0⟩) := by
  refine ⟨?_, ?_⟩
  · exact ⟨world, 2, (⟨coloB⟩ : Colo), ⟨100,120,1,2,3,6⟩, by (repeat' apply And.intro) <;> decide +kernel⟩
  · exact ⟨world, 2, (⟨coloB⟩ : Colo), by (repeat' apply And.intro) <;> decide +kernel⟩

theorem witness_ModuleStepsAndAlerts :
    (∃ (k : Nat), k < 64) ∧
    (∃ (s : State) (k : Nat) (bits : BitVec 32), k < 64 ∧ (s.dev.slot k).alertMasked = false ∧ (s.dev.slot k).pwren = true ∧
      bitOf bits.toNat 0 = true ∧ bitOf bits.toNat 3 = false) ∧
    (∃ (s : State) (k : Nat), k < 64 ∧ (s.dev.slot k).alertMasked = true) ∧
    (∃ (s : State) (k : Nat), k < 64 ∧ (s.dev.slot k).present = true ∧ (s.dev.slot k).alertMasked = false) := by
  refine ⟨?_, ?_, ?_, ?_⟩
  · exact ⟨2, by decide +kernel⟩
  · exact ⟨world, 2, 1, by (repeat' apply And.intro) <;> decide +kernel⟩
  · exact ⟨kS (fun x => {x with alertMasked := true}), 2, by (repeat' apply And.intro) <;> decide +kernel⟩
  · exact ⟨world, 2, by (repeat' apply And.intro) <;> decide +kernel⟩

theorem witness_SidebandBuses :
    (∃ (k : Nat), k < 8) ∧
    (∃ (s : State) (k : Nat), k < 8 ∧ bitOf s.dev.gl.busStuck.toNat k = true ∧ s.dev.modes.mode ≠ .assemble) ∧
    (∃ (s : State) (k : Nat), k < 8 ∧ (bitOf s.dev.gl.busStuck.toNat k = true ∨ bitOf s.dev.gl.busFailed.toNat k = true)) := by
  refine ⟨?_, ?_, ?_⟩
  · exact ⟨0, by decide +kernel⟩
  · exact ⟨world.d fun d => {d with gl := {d.gl with busStuck := 1}}, 0, by (repeat' apply And.intro) <;> decide +kernel⟩
  · exact ⟨world.d fun d => {d with gl := {d.gl with busStuck := 1}}, 0, by (repeat' apply And.intro) <;> decide +kernel⟩

end Thermal


/-! ### HostSide -/

namespace HostSide

def hoff : State := hw.d fun d => d.modFn (.pf .a) (fun x => { x with rdy := false, cc := 0, sqs := [], cqs := [] })

def sel (f : FnSt → FnSt) : State := hw.d fun d => d.modFn (.pf .a) f

theorem witness_ControllerEnables :
    (∃ (s : State) (f : Fn) (cc : W32), s.dev.fnUp f = true ∧ bitOf cc.toNat 0 = true ∧ bitOf (s.dev.fnst f).cc.toNat 0 = false
      ∧ hostMode s.dev.modes.mode = true ∧ (s.dev.fnst f).rdy = false ∧ (s.dev.fnst f).cfs = false ∧ (s.dev.fnst f).online =
      true ∧ bitsOf cc.toNat 19 16 = 6 ∧ bitsOf cc.toNat 23 20 = 4) ∧
    (∃ (s : State) (f : Fn) (cc : W32), s.dev.fnUp f = true ∧ bitOf cc.toNat 0 = true ∧ bitOf (s.dev.fnst f).cc.toNat 0 = false
      ∧ hostMode s.dev.modes.mode = true ∧ (s.dev.fnst f).rdy = false ∧ (s.dev.fnst f).cfs = false ∧ (s.dev.fnst f).online =
      true ∧ (bitsOf cc.toNat 19 16 ≠ 6 ∨ bitsOf cc.toNat 23 20 ≠ 4)) ∧
    (∃ (s : State) (f : Fn) (cc : W32), s.dev.fnUp f = true ∧ bitOf cc.toNat 0 = true ∧ bitOf (s.dev.fnst f).cc.toNat 0 = false
      ∧ hostMode s.dev.modes.mode = false) := by
  refine ⟨?_, ?_, ?_⟩
  · exact ⟨hoff, .pf .a, 0x460001, by (repeat' apply And.intro) <;> decide +kernel⟩
  · exact ⟨hoff, .pf .a, 0x470001, by (repeat' apply And.intro) <;> decide +kernel⟩
  · exact ⟨hoff.d fun d => {d with modes := {d.modes with mode := .assemble}}, .pf .a,
    0x460001, by (repeat' apply And.intro) <;> decide +kernel⟩

theorem witness_ControllersEnd :
    (∃ (s : State) (f : Fn) (cc : W32), s.dev.fnUp f = true ∧ bitOf cc.toNat 0 = false ∧ bitOf (s.dev.fnst f).cc.toNat 0 =
      true) ∧
    (∃ (s : State) (f : Fn) (cc : W32), s.dev.fnUp f = true ∧ (bitsOf cc.toNat 15 14 = 1 ∨ bitsOf cc.toNat 15 14 = 2) ∧
      (s.dev.fnst f).rdy = true ∧ (s.dev.fnst f).shst = 0 ∧ (s.dev.fnst f).aers = []) ∧
    (∃ (s : State) (f : Fn), s.dev.fnUp f = true) := by
  refine ⟨?_, ?_, ?_⟩
  · exact ⟨hw, .pf .a, 0x460000, by (repeat' apply And.intro) <;> decide +kernel⟩
  · exact ⟨hw, .pf .a, 0x464001, by (repeat' apply And.intro) <;> decide +kernel⟩
  · exact ⟨hw, .pf .a, by decide +kernel⟩

theorem witness_Doorbells :
    (∃ (s : State) (f : Fn) (qid v : Nat) (q : Sq), s.dev.bellOk f = true ∧ s.dev.modes.mode ≠ .idle ∧ s.dev.modes.idleEntry =
      false ∧ (s.dev.fnst f).sqs.get? qid = some q ∧ v < q.size ∧ v ≠ q.tail) ∧
    (∃ (s : State) (f : Fn) (qid v : Nat) (q : Cq), s.dev.bellOk f = true ∧ s.dev.modes.mode ≠ .idle ∧ s.dev.modes.idleEntry =
      false ∧ (s.dev.fnst f).cqs.get? qid = some q ∧ v < q.size ∧ q.held = [] ∧ ringDist q.size q.head v ≤ ringDist q.size
      q.head q.tail) ∧
    (∃ (s : State) (f : Fn) (qid : Nat), s.dev.bellOk f = true ∧ s.dev.modes.mode ≠ .idle ∧ s.dev.modes.idleEntry = false ∧
      (s.dev.fnst f).sqs.get? qid = none) ∧
    (∃ (s : State) (f : Fn) (qid v : Nat) (q : Sq), s.dev.bellOk f = true ∧ s.dev.modes.mode ≠ .idle ∧ s.dev.modes.idleEntry =
      false ∧ (s.dev.fnst f).sqs.get? qid = some q ∧ q.size ≤ v) ∧
    (∃ (s : State) (f : Fn) (qid : Nat), s.dev.bellOk f = true ∧ s.dev.modes.mode ≠ .idle ∧ s.dev.modes.idleEntry = false ∧
      (s.dev.fnst f).cqs.get? qid = none) := by
  refine ⟨?_, ?_, ?_, ?_, ?_⟩
  · exact ⟨hw, .pf .a, 0, 0, ((hw.dev.fnst (.pf .a : Fn)).sqs.get? 0).getD
    sq0, by (repeat' apply And.intro) <;> decide +kernel⟩
  · exact ⟨hw, .pf .a, 0, 3, ((hw.dev.fnst (.pf .a : Fn)).cqs.get? 0).getD
    cq0, by (repeat' apply And.intro) <;> decide +kernel⟩
  · exact ⟨hw, .pf .a, 2, by (repeat' apply And.intro) <;> decide +kernel⟩
  · exact ⟨hw, .pf .a, 0, 16, ((hw.dev.fnst (.pf .a : Fn)).sqs.get? 0).getD
    sq0, by (repeat' apply And.intro) <;> decide +kernel⟩
  · exact ⟨hw, .pf .a, 2, by (repeat' apply And.intro) <;> decide +kernel⟩

theorem witness_FetchDecisions :
    (∃ (s : State), s.dev.fetchOn = false) ∧
    (∃ (s : State) (x : SqRef), s.dev.fetchOn = true ∧ s.dev.adminQueues = [x] ∧ s.dev.ioQueues = []) ∧
    (∃ (s : State), s.dev.fetchOn = true ∧ s.dev.adminQueues = [] ∧ s.dev.ioQueues = []) := by
  refine ⟨?_, ?_, ?_⟩
  · exact ⟨hw.d fun d => d.setCsr aHgCtrl 0x83, by decide +kernel⟩
  · exact ⟨(sel (fun x => {x with sqs := [(0, {sq0 with head := 14, tail := 3})]})).d fun d => d.modFn (.vf .a 1) (fun x =>
    {x with sqs := []}), (((sel (fun x => {x with sqs := [(0, {sq0 with head := 14, tail := 3})]})).d fun d => d.modFn (.vf .a
    1) (fun x => {x with sqs := []}) : State).dev.adminQueues.head?).getD ⟨.pf .a, 0,
    sq0⟩, by (repeat' apply And.intro) <;> decide +kernel⟩
  · exact ⟨(sel (fun x => {x with sqs := []})).d fun d => d.modFn (.vf .a 1) (fun x =>
    {x with sqs := []}), by (repeat' apply And.intro) <;> decide +kernel⟩

theorem witness_FetchedEntries :
    (∃ (s : State) (f : Fn) (qid n : Nat) (q : Sq), s.dev.hg.fetches = [⟨f, qid, n⟩] ∧ 1 ≤ n ∧ (s.dev.fnst f).sqs.get? qid =
      some q) ∧
    (∃ (s : State) (f : Fn) (qid n : Nat), s.dev.hg.fetches = [⟨f, qid, n⟩]) := by
  refine ⟨?_, ?_⟩
  · exact ⟨((nat 2).flatMap (fun q => (nat 4).flatMap (fun n => [hw.d fun d =>
    {d with hg := {d.hg with fetches := [⟨.pf .a, q, n⟩]}}, (hw.cmd 0 (adm 2 [])).d fun d =>
    {d with hg := {d.hg with fetches := [⟨.pf .a, q, n⟩]}}])) : List (State)).getD 2 (State.reset), .pf .a, 0, 1, (((((nat
    2).flatMap (fun q => (nat 4).flatMap (fun n => [hw.d fun d => {d with hg := {d.hg with fetches := [⟨.pf .a, q, n⟩]}},
    (hw.cmd 0 (adm 2 [])).d fun d => {d with hg := {d.hg with fetches := [⟨.pf .a, q, n⟩]}}])) : List (State)).getD 2
    (State.reset) : State).dev.fnst (.pf .a : Fn)).sqs.get? 0).getD sq0, by (repeat' apply And.intro) <;> decide +kernel⟩
  · exact ⟨((nat 2).flatMap (fun q => (nat 4).flatMap (fun n => [hw.d fun d =>
    {d with hg := {d.hg with fetches := [⟨.pf .a, q, n⟩]}}, (hw.cmd 0 (adm 2 [])).d fun d =>
    {d with hg := {d.hg with fetches := [⟨.pf .a, q, n⟩]}}])) : List (State)).getD 0 (State.reset), .pf .a, 0,
    0, by decide +kernel⟩

theorem witness_Classification :
    (∃ (s : State) (cs : Nat) (x : CSlot), s.dev.postable cs x ∧ x.st = .fetched ∧ x.classified = false ∧ x.sqid = 0 ∧
      s.dev.adminRefusal x = none) ∧
    (∃ (s : State) (cs : Nat) (x : CSlot), s.dev.postable cs x ∧ x.st = .fetched ∧ x.classified = false ∧ x.sqid = 0 ∧
      adminKnown x.fn.isPf x.opcode = false) ∧
    (∃ (s : State) (cs : Nat) (lost : Bool) (x : CSlot), s.dev.postable cs x ∧ x.st = .fetched ∧ x.classified = false ∧ x.sqid
      ≠ 0 ∧ x.nsid ≠ 0 ∧ x.nsid ≠ 0xFFFFFFFF ∧ s.dev.domReady 5 = true ∧ (s.dev.colSearchL lost 0 (BitVec.ofNat 192 (ctlKey
      x.fn + 65536 * x.nsid)) 0).2 = []) ∧
    (∃ (s : State) (cs : Nat) (lost : Bool) (x : CSlot) (i : Nat) (e : CEnt) (l : List (Nat × CEnt)) (n : Nsp), s.dev.postable
      cs x ∧ x.st = .fetched ∧ x.classified = false ∧ x.sqid ≠ 0 ∧ x.nsid ≠ 0 ∧ x.nsid ≠ 0xFFFFFFFF ∧ s.dev.domReady 5 = true ∧
      (s.dev.colSearchL lost 0 (BitVec.ofNat 192 (ctlKey x.fn + 65536 * x.nsid)) 0).2 = (i, e) :: l ∧ s.dev.nsp (bitsOf
      e.res.toNat 19 10) = some n ∧ s.dev.ioRefusal x n = none) := by
  refine ⟨?_, ?_, ?_, ?_⟩
  · exact ⟨hw.cmd 3 ((([2,6,9,0x0C,0xC1,0x77,0x1C].map (fun op => {adm op [] with classified := false})) : List (CSlot)).getD 0
    (slot0) : CSlot), 3, (([2,6,9,0x0C,0xC1,0x77,0x1C].map (fun op => {adm op [] with classified := false})) : List
    (CSlot)).getD 0 (slot0), by (repeat' apply And.intro) <;> decide +kernel⟩
  · exact ⟨hw.cmd 3 ((([2,6,9,0x0C,0xC1,0x77,0x1C].map (fun op => {adm op [] with classified := false})) : List (CSlot)).getD 5
    (slot0) : CSlot), 3, (([2,6,9,0x0C,0xC1,0x77,0x1C].map (fun op => {adm op [] with classified := false})) : List
    (CSlot)).getD 5 (slot0), by (repeat' apply And.intro) <;> decide +kernel⟩
  · exact ⟨hw.cmd 3 ({ioc 2 [(1,1)] with classified := false, charged := false, st := .fetched} : CSlot), 3, true,
    {ioc 2 [(1,1)] with classified := false, charged := false, st := .fetched}, by (repeat' apply And.intro) <;> decide +kernel⟩
  · exact ⟨((hw.cmd 3 ({ioc 2 [(1,1),(10,5)] with classified := false, charged := false, st := .fetched} : CSlot)).d fun d =>
    d.classInsert (ctlKey (.pf .a)) false 1 512 0 0 0), 3, false,
    {ioc 2 [(1,1),(10,5)] with classified := false, charged := false, st := .fetched}, ((((((hw.cmd 3
    ({ioc 2 [(1,1),(10,5)] with classified := false, charged := false, st := .fetched} : CSlot)).d fun d => d.classInsert
    (ctlKey (.pf .a)) false 1 512 0 0 0) : State).dev.colSearchL false 0 (BitVec.ofNat 192 (ctlKey
    ({ioc 2 [(1,1),(10,5)] with classified := false, charged := false, st := .fetched} : CSlot).fn + 65536 *
    ({ioc 2 [(1,1),(10,5)] with classified := false, charged := false, st := .fetched} : CSlot).nsid)) 0).2.head?).getD
    (0,⟨0,0,0⟩)).1, ((((((hw.cmd 3 ({ioc 2 [(1,1),(10,5)] with classified := false, charged := false, st := .fetched} :
    CSlot)).d fun d => d.classInsert (ctlKey (.pf .a)) false 1 512 0 0 0) : State).dev.colSearchL false 0 (BitVec.ofNat 192
    (ctlKey ({ioc 2 [(1,1),(10,5)] with classified := false, charged := false, st := .fetched} : CSlot).fn + 65536 *
    ({ioc 2 [(1,1),(10,5)] with classified := false, charged := false, st := .fetched} : CSlot).nsid)) 0).2.head?).getD
    (0,⟨0,0,0⟩)).2, (((((hw.cmd 3 ({ioc 2 [(1,1),(10,5)] with classified := false, charged := false, st := .fetched} :
    CSlot)).d fun d => d.classInsert (ctlKey (.pf .a)) false 1 512 0 0 0) : State).dev.colSearchL false 0 (BitVec.ofNat 192
    (ctlKey ({ioc 2 [(1,1),(10,5)] with classified := false, charged := false, st := .fetched} : CSlot).fn + 65536 *
    ({ioc 2 [(1,1),(10,5)] with classified := false, charged := false, st := .fetched} : CSlot).nsid)) 0).2.tail),
    ns0, by (repeat' apply And.intro) <;> decide +kernel⟩

theorem witness_TokenRefills :
    ∃ (s : State), s.dev.hg.slots = [] ∧ s.dev.hg.contracts.wf = true :=
  ⟨hw.d fun d =>
    {d with hg := {d.hg with contracts := [(0,ct0),(3,{ct0 with readRate := some 2000000, readBurst := 3}),(512,{ct0 with writeRate := some 5})]}}, by (repeat' apply And.intro) <;> decide +kernel⟩

theorem witness_ContractWindow :
    (∃ (s : State), s.dev.domReady 2 = true ∧ s.dev.reg aHgContractIdx 9 0 ≤ 512) ∧
    (∃ (s : State), s.dev.domReady 2 = true ∧ s.dev.reg aHgContractIdx 9 0 ≤ 512 ∧ fieldAt s.dev.windowRecord 0 2 ≤ 512 ∧
      contractOk (leBytes 2 (s.dev.reg aHgContractIdx 9 0) ++ s.dev.windowRecord.drop 2) false = true) ∧
    (∃ (s : State), s.dev.domReady 2 = true ∧ 512 < s.dev.reg aHgContractIdx 9 0) ∧
    (∃ (s : State), s.dev.domReady 2 = true) := by
  refine ⟨?_, ?_, ?_, ?_⟩
  · exact ⟨hw, by (repeat' apply And.intro) <;> decide +kernel⟩
  · exact ⟨hw.d fun d => (nat 16).foldl (fun d i => d.setCsr (aHgContractData + 4 * i) (BitVec.ofNat 32 (fieldAt (contractBytes
    0 ct0 false) (4*i) 4))) d, by (repeat' apply And.intro) <;> decide +kernel⟩
  · exact ⟨hw.d fun d => d.setCsr aHgContractIdx 513, by (repeat' apply And.intro) <;> decide +kernel⟩
  · exact ⟨hw, by decide +kernel⟩

theorem witness_IoQueues :
    (∃ (s : State) (cs : Nat) (x : CSlot), s.dev.adminDue cs 0x05 x ∧ queueRefusal x.fn (x.dw 10) ((s.dev.fnst x.fn).cqs.has
      (bitsOf (x.dw 10) 15 0)) = none ∧ bitOf (x.dw 11) 0 = true ∧ bitsOf (x.dw 11) 31 16 ≤ x.fn.queues) ∧
    (∃ (s : State) (cs : Nat) (x : CSlot), s.dev.adminDue cs 0x01 x ∧ queueRefusal x.fn (x.dw 10) ((s.dev.fnst x.fn).sqs.has
      (bitsOf (x.dw 10) 15 0)) = none ∧ bitOf (x.dw 11) 0 = true ∧ 1 ≤ bitsOf (x.dw 11) 31 16 ∧ bitsOf (x.dw 11) 31 16 ≤
      x.fn.queues ∧ (s.dev.fnst x.fn).cqs.has (bitsOf (x.dw 11) 31 16) = true) ∧
    (∃ (s : State) (cs : Nat) (x : CSlot), s.dev.adminDue cs 0x00 x ∧ bitsOf (x.dw 10) 15 0 ≠ 0 ∧ (s.dev.fnst x.fn).sqs.has
      (bitsOf (x.dw 10) 15 0) = true ∧ (s.dev.slotsOf x.fn).all (fun y => decide (y.2.sqid ≠ bitsOf (x.dw 10) 15 0)) = true) ∧
    (∃ (s : State) (cs : Nat) (x : CSlot) (q : Cq), s.dev.adminDue cs 0x04 x ∧ bitsOf (x.dw 10) 15 0 ≠ 0 ∧ (s.dev.fnst
      x.fn).cqs.get? (bitsOf (x.dw 10) 15 0) = some q ∧ q.held = [] ∧ (s.dev.fnst x.fn).sqs.any (fun y => decide (y.2.cqid =
      bitsOf (x.dw 10) 15 0)) = false) := by
  refine ⟨?_, ?_, ?_, ?_⟩
  · exact ⟨hw.cmd 3 (adm 5 [(10, 2 + 7 * 65536), (11, 3 + 5 * 65536)] : CSlot), 3, adm 5 [(10, 2 + 7 * 65536), (11, 3 + 5 *
    65536)], by (repeat' apply And.intro) <;> decide +kernel⟩
  · exact ⟨hw.cmd 3 (adm 1 [(10, 2 + 7 * 65536), (11, 1 + 1 * 65536)] : CSlot), 3, adm 1 [(10, 2 + 7 * 65536), (11, 1 + 1 *
    65536)], by (repeat' apply And.intro) <;> decide +kernel⟩
  · exact ⟨hw.cmd 3 (adm 0 [(10, 1)] : CSlot), 3, adm 0 [(10, 1)], by (repeat' apply And.intro) <;> decide +kernel⟩
  · exact ⟨(sel (fun y => {y with sqs := [(0, sq0)]})).cmd 3 (adm 4 [(10, 1)] : CSlot), 3, adm 4 [(10, 1)], ((((sel (fun y =>
    {y with sqs := [(0, sq0)]})).cmd 3 (adm 4 [(10, 1)] : CSlot) : State).dev.fnst (.pf .a)).cqs.get? 1).getD
    cq0, by (repeat' apply And.intro) <;> decide +kernel⟩

theorem witness_AbortAndEvents :
    (∃ (s : State) (cs : Nat) (x : CSlot), s.dev.adminDue cs 0x08 x ∧ s.dev.abortsBefore x < 8 ∧ s.dev.abortTarget cs x = none) ∧
    (∃ (s : State) (cs : Nat) (x : CSlot) (c : Nat) (y : CSlot), s.dev.adminDue cs 0x08 x ∧ s.dev.abortsBefore x < 8 ∧
      s.dev.abortTarget cs x = some (c, y) ∧ (y.st = .committed ∨ y.st = .ending)) ∧
    (∃ (s : State) (cs : Nat) (x : CSlot), s.dev.adminDue cs 0x0C x ∧ (s.dev.fnst x.fn).aers.length < 16 ∧ (s.dev.fnst
      x.fn).events = []) ∧
    (∃ (s : State) (cs : Nat) (x : CSlot) (e : AEvent) (l : List AEvent), s.dev.adminDue cs 0x0C x ∧ (s.dev.fnst x.fn).aers =
      [] ∧ (s.dev.fnst x.fn).events = e :: l) := by
  refine ⟨?_, ?_, ?_, ?_⟩
  · exact ⟨hw.cmd 3 (adm 8 [(10, 1 + 5 * 65536)] : CSlot), 3, adm 8 [(10, 1 + 5 *
    65536)], by (repeat' apply And.intro) <;> decide +kernel⟩
  · exact ⟨(hw.cmd 3 (adm 8 [(10, 1 + 5 * 65536)] : CSlot)).cmd 4 {ioc 1 [] with cid := 5, st := .committed}, 3, adm 8 [(10, 1
    + 5 * 65536)], ((((hw.cmd 3 (adm 8 [(10, 1 + 5 * 65536)] : CSlot)).cmd 4 {ioc 1 [] with cid := 5, st := .committed} :
    State).dev.abortTarget 3 (adm 8 [(10, 1 + 5 * 65536)] : CSlot)).getD (0,slot0)).1, ((((hw.cmd 3 (adm 8 [(10, 1 + 5 *
    65536)] : CSlot)).cmd 4 {ioc 1 [] with cid := 5, st := .committed} : State).dev.abortTarget 3 (adm 8 [(10, 1 + 5 * 65536)]
    : CSlot)).getD (0,slot0)).2, by (repeat' apply And.intro) <;> decide +kernel⟩
  · exact ⟨hw.cmd 3 (adm 12 [] : CSlot), 3, adm 12 [], by (repeat' apply And.intro) <;> decide +kernel⟩
  · exact ⟨(sel (fun y => {y with events := [⟨1,2,3⟩,⟨2,0,1⟩]})).cmd 3 (adm 12 [] : CSlot), 3, adm 12 [], ⟨1,2,3⟩,
    [⟨2,0,1⟩], by (repeat' apply And.intro) <;> decide +kernel⟩

theorem witness_IdentifyLogsFeatures :
    (∃ (s : State) (cs : Nat) (x : CSlot) (b : _), s.dev.adminDue cs 0x06 x ∧ s.dev.identified x = .inl b) ∧
    (∃ (s : State) (cs : Nat) (x : CSlot) (e : _), s.dev.adminDue cs 0x06 x ∧ s.dev.identified x = .inr e) ∧
    (∃ (s : State) (cs : Nat) (x : CSlot) (b : _), s.dev.adminDue cs 0x02 x ∧ s.dev.logAnswer x = .inl b) ∧
    (∃ (s : State) (cs : Nat) (x : CSlot) (e : _), s.dev.adminDue cs 0x02 x ∧ s.dev.logAnswer x = .inr e) ∧
    (∃ (s : State) (cs : Nat) (x : CSlot) (fid : Nat), s.dev.adminDue cs 0x0A x ∧ bitsOf (x.dw 10) 7 0 = fid ∧ bitsOf (x.dw 10)
      10 8 = 0 ∧ fid ∈ [0x01, 0x02, 0x07, 0x08, 0x0A, 0x0B, 0x11, 0x1D]) := by
  refine ⟨?_, ?_, ?_, ?_, ?_⟩
  · obtain ⟨b, hb⟩ := Sum.isLeft_iff.mp (by decide +kernel : ((hw.cmd 3 (adm 6 [(1,1)])).dev.identified (adm 6 [(1,1)])).isLeft = true)
    refine ⟨hw.cmd 3 (adm 6 [(1,1)]), 3, adm 6 [(1,1)], b, ?_, hb⟩
    (repeat' apply And.intro) <;> decide +kernel
  · exact ⟨hw.cmd 3 (adm 6 [(10, 0x77)] : CSlot), 3, adm 6 [(10, 0x77)],
    (match ((hw.cmd 3 (adm 6 [(10, 0x77)] : CSlot) : State).dev.identified (adm 6 [(10, 0x77)] : CSlot)) with | .inr b => b | _ => cqeOk), by (repeat' apply And.intro) <;> decide +kernel⟩
  · obtain ⟨b, hb⟩ := Sum.isLeft_iff.mp (by decide +kernel : ((hw.cmd 3 (adm 2 [(10, 2 + 127 * 65536),(1,0xFFFFFFFF)])).dev.logAnswer (adm 2 [(10, 2 + 127 * 65536),(1,0xFFFFFFFF)])).isLeft = true)
    refine ⟨hw.cmd 3 (adm 2 [(10, 2 + 127 * 65536),(1,0xFFFFFFFF)]), 3, adm 2 [(10, 2 + 127 * 65536),(1,0xFFFFFFFF)], b, ?_, hb⟩
    (repeat' apply And.intro) <;> decide +kernel
  · exact ⟨hw.cmd 3 (adm 2 [(10, 0x99)] : CSlot), 3, adm 2 [(10, 0x99)],
    (match ((hw.cmd 3 (adm 2 [(10, 0x99)] : CSlot) : State).dev.logAnswer (adm 2 [(10, 0x99)] : CSlot)) with | .inr b => b | _ => cqeOk), by (repeat' apply And.intro) <;> decide +kernel⟩
  · exact ⟨hw.cmd 3 (adm 10 [(10, 1)] : CSlot), 3, adm 10 [(10, 1)], 1, by (repeat' apply And.intro) <;> decide +kernel⟩

theorem witness_SettingFeatures :
    (∃ (s : State) (cs : Nat) (x : CSlot), s.dev.adminDue cs 0x09 x ∧ (bitsOf (x.dw 10) 7 0 = 0x01 ∨ bitsOf (x.dw 10) 7 0 =
      0x0B) ∧ bitOf (x.dw 10) 31 = false) ∧
    (∃ (s : State) (cs : Nat) (x : CSlot), s.dev.seqDue cs 0x09 x ∧ bitsOf (x.dw 10) 7 0 = 0x02 ∧ x.fn.isPf = true ∧ bitsOf
      (x.dw 11) 4 0 ≤ 2 ∧ s.dev.modes.mode ≠ .idle ∧ s.dev.modes.idleEntry = false) ∧
    (∃ (s : State) (cs : Nat) (x : CSlot), s.dev.seqDue cs 0x09 x ∧ subsystemFeat (bitsOf (x.dw 10) 7 0) = true ∧ x.fn.isPf =
      false) := by
  refine ⟨?_, ?_, ?_⟩
  · exact ⟨hw.cmd 3 (adm 9 [(10,1),(11,0x0102_0304)] : CSlot), 3, adm 9
    [(10,1),(11,0x0102_0304)], by (repeat' apply And.intro) <;> decide +kernel⟩
  · exact ⟨hw.cmd 3 (adm 9 [(10,2),(11,2)] : CSlot), 3, adm 9
    [(10,2),(11,2)], by (repeat' apply And.intro) <;> decide +kernel⟩
  · exact ⟨hw.cmd 3 ({adm 9 [(10,2),(11,2)] with fn := .vf .a 1} : CSlot), 3,
    {adm 9 [(10,2),(11,2)] with fn := .vf .a 1}, by (repeat' apply And.intro) <;> decide +kernel⟩

end HostSide


/-! ### AdminSide -/

namespace AdminSide

open Sys2Proof.Tests.Boot

def rf : RunFolio := ⟨7, 3, false, true, 0, 0, false, 0, 0, []⟩

def qw (f : Quire → Quire) (x : CSlot) : State := hwf (fun d => {d with quires := [(0, f quire0)]}) x

def qc (l : List (Nat × Nat × Nat)) : List Byte := at2 [] l

theorem witness_FirmwareActivates :
    (∃ (s : State) (cs : Nat) (x : CSlot), s.dev.adminDue cs 0x11 x ∧ (4 * (x.dw 10 + 1)) % 4096 = 0 ∧ (4 * x.dw 11) % 4096 = 0
      ∧ 4 * x.dw 11 + 4 * (x.dw 10 + 1) ≤ 33574912) ∧
    (∃ (s : State) (t0 : Nat) (r : RunFolio), s.dev.adm.activating = some (t0, r) ∧ s.dev.ioHeld = 0 ∧ r.commitSvn = false) := by
  refine ⟨?_, ?_⟩
  · exact ⟨hw.cmd 3 (adm 0x11 [(10,1023)] : CSlot), 3, adm 0x11 [(10,1023)], by (repeat' apply And.intro) <;> decide +kernel⟩
  · exact ⟨(hw.cmd 3 ({adm 0x10 [(10,24)] with st := .committed, wait := .drain})).d fun d =>
    ({d with adm := {d.adm with running := some 3, activating := some (5, rf)}}).setCsr aHgCtrl 0x8B, 5,
    rf, by (repeat' apply And.intro) <;> decide +kernel⟩

theorem witness_SelfTestAndVirtualization :
    (∃ (s : State) (cs : Nat) (x : CSlot), s.dev.adminDue cs 0x14 x ∧ s.dev.adm.selfTest = none ∧ (bitsOf (x.dw 10) 3 0 = 1 ∨
      bitsOf (x.dw 10) 3 0 = 2)) ∧
    (∃ (s : State) (cs : Nat) (x : CSlot) (k : Nat), s.dev.adminDue cs 0x14 x ∧ s.dev.adm.selfTest = some k ∧ bitsOf (x.dw 10)
      3 0 = 15) ∧
    (∃ (s : State) (k : Nat), s.dev.adm.selfTest = some k) ∧
    (∃ (s : State) (cs : Nat) (x : CSlot) (f : Fn), s.dev.seqDue cs 0x1C x ∧ s.dev.hg.slots.wf = true ∧ x.fn.isPf = true ∧
      f.isPf = false ∧ f.port = x.fn.port ∧ fnOfCntlid (bitsOf (x.dw 10) 31 16) = some f ∧ bitsOf (x.dw 10) 3 0 = 7) ∧
    (∃ (s : State) (cs : Nat) (x : CSlot) (f : Fn), s.dev.seqDue cs 0x1C x ∧ x.fn.isPf = true ∧ f.isPf = false ∧ f.port =
      x.fn.port ∧ s.dev.fnUp f = true ∧ fnOfCntlid (bitsOf (x.dw 10) 31 16) = some f ∧ bitsOf (x.dw 10) 3 0 = 9) := by
  refine ⟨?_, ?_, ?_, ?_, ?_⟩
  · exact ⟨hw.cmd 3 (adm 0x14 [(10,1)] : CSlot), 3, adm 0x14 [(10,1)], by (repeat' apply And.intro) <;> decide +kernel⟩
  · exact ⟨hwf (fun d => {d with adm := {d.adm with selfTest := some 2, selfLog := List.replicate 20 (1,0)}}) (adm 0x14
    [(10,15)] : CSlot), 3, adm 0x14 [(10,15)], 2, by (repeat' apply And.intro) <;> decide +kernel⟩
  · exact ⟨hwf (fun d => {d with adm := {d.adm with selfTest := some 1}}) slot0, 1, by decide +kernel⟩
  · exact ⟨hw.cmd 3 (adm 0x1C [(10, 7 + 0x1001 * 65536)] : CSlot), 3, adm 0x1C [(10, 7 + 0x1001 * 65536)], .vf .a
    1, by (repeat' apply And.intro) <;> decide +kernel⟩
  · exact ⟨hw.cmd 3 (adm 0x1C [(10, 9 + 0x1001 * 65536)] : CSlot), 3, adm 0x1C [(10, 9 + 0x1001 * 65536)], .vf .a
    1, by (repeat' apply And.intro) <;> decide +kernel⟩

theorem witness_InBandManagement :
    (∃ (s : State) (cs : Nat) (x : CSlot), s.dev.adminDue cs 0x1D x ∧ bitsOf (x.dw 11) 7 0 ≤ 4) ∧
    (∃ (s : State) (cs : Nat) (x : CSlot), s.dev.adminDue cs 0x1E x ∧ bitsOf (x.dw 11) 7 0 ≤ 4) ∧
    (∃ (s : State) (cs : Nat) (x : CSlot), s.dev.adminDue cs 0x1D x ∧ 4 < bitsOf (x.dw 11) 7 0) ∧
    (∃ (s : State) (cs : Nat) (x : CSlot) (ns : Nat) (n : Nsp), s.dev.adminDue cs 0x86 x ∧ s.dev.nsOf x = some (ns, n) ∧ x.slba
      < n.nsze ∧ bitsOf (x.dw 13) 15 0 ≠ 0 ∧ (bitsOf (x.dw 13) 31 24 = 0x10 ∨ bitsOf (x.dw 13) 31 24 = 0x11) ∧ (clipRanges
      (s.dev.lostOf ns n) x.slba (bitsOf (x.dw 13) 15 0)).length ≤ (4 * (x.dw 12 + 1) - 8) / 16) := by
  refine ⟨?_, ?_, ?_, ?_⟩
  · exact ⟨hw.cmd 3 (adm 0x1D [(11,0)] : CSlot), 3, adm 0x1D [(11,0)], by (repeat' apply And.intro) <;> decide +kernel⟩
  · exact ⟨hw.cmd 3 (adm 0x1E [(11,0)] : CSlot), 3, adm 0x1E [(11,0)], by (repeat' apply And.intro) <;> decide +kernel⟩
  · exact ⟨hw.cmd 3 (adm 0x1D [(11,5)] : CSlot), 3, adm 0x1D [(11,5)], by (repeat' apply And.intro) <;> decide +kernel⟩
  · exact ⟨hwf (fun d => {d with tc := {d.tc with lost := [(0,⟨20,4⟩),(0,⟨40,100⟩)]}}) (adm 0x86 [(1,1),(10,16),(12,100),(13,32
    + 0x10000000)] : CSlot), 3, adm 0x86 [(1,1),(10,16),(12,100),(13,32 + 0x10000000)], 0,
    ns0, by (repeat' apply And.intro) <;> decide +kernel⟩

theorem witness_TenantContracts :
    (∃ (s : State) (cs : Nat) (x : CSlot) (b : List Byte), s.dev.seqDue cs 0xC1 x ∧ (List.range 6).all (fun i => decide (x.dw
      (10 + i) = 0)) = true ∧ zeroAt b 64 4032 = true ∧ contractOk (slice b 0 64) false = true ∧ ((s.dev.seqStart
      cs).withContract (fieldAt b 0 2) (parseContract (slice b 0 64))).contractRefusal (fieldAt b 0 2) = none) ∧
    (∃ (s : State) (cs : Nat) (x : CSlot) (b : List Byte) (sc : Nat), s.dev.seqDue cs 0xC1 x ∧ (List.range 6).all (fun i =>
      decide (x.dw (10 + i) = 0)) = true ∧ zeroAt b 64 4032 = true ∧ contractOk (slice b 0 64) false = true ∧ ((s.dev.seqStart
      cs).withContract (fieldAt b 0 2) (parseContract (slice b 0 64))).contractRefusal (fieldAt b 0 2) = some sc) ∧
    (∃ (s : State) (cs : Nat) (x : CSlot), s.dev.seqDue cs 0xC2 x ∧ x.dw 10 ≤ 512 ∧ (List.range 5).any (fun i => decide (x.dw
      (11 + i) ≠ 0)) = false) := by
  refine ⟨?_, ?_, ?_⟩
  · exact ⟨hw.cmd 3 (adm 0xC1 [] : CSlot), 3, adm 0xC1 [], contractBytes 512 ct0
    false, by (repeat' apply And.intro) <;> decide +kernel⟩
  · exact ⟨hw.cmd 3 (adm 0xC1 [] : CSlot), 3, adm 0xC1 [], contractBytes 512 {ct0 with cls := 0} false, ((((hw.cmd 3 (adm 0xC1
    [] : CSlot) : State).dev.seqStart 3).withContract (fieldAt (contractBytes 512 {ct0 with cls := 0} false : List Byte) 0 2)
    (parseContract (slice (contractBytes 512 {ct0 with cls := 0} false : List Byte) 0 64))).contractRefusal (fieldAt
    (contractBytes 512 {ct0 with cls := 0} false : List Byte) 0 2)).getD 0, by (repeat' apply And.intro) <;> decide +kernel⟩
  · exact ⟨hw.cmd 3 (adm 0xC2 [(10,512)] : CSlot), 3, adm 0xC2 [(10,512)], by (repeat' apply And.intro) <;> decide +kernel⟩

theorem witness_QuireControl_1 :
    (∃ (s : State) (cs : Nat) (x : CSlot) (b : List Byte) (q : Nat) (y : Quire), s.dev.seqDue cs 0xC3 x ∧ (List.range 6).any
      (fun i => decide (x.dw (10 + i) ≠ 0)) = false ∧ zeroAt b 3 1 = true ∧ zeroAt b 8 4088 = true ∧ fieldAt b 1 1 = q ∧
      s.dev.quire q = some y ∧ fieldAt b 0 1 = 1) ∧
    (∃ (s : State) (cs : Nat) (x : CSlot) (b : List Byte) (q : Nat) (y : Quire), s.dev.seqDue cs 0xC3 x ∧ (List.range 6).any
      (fun i => decide (x.dw (10 + i) ≠ 0)) = false ∧ zeroAt b 3 1 = true ∧ zeroAt b 8 4088 = true ∧ fieldAt b 1 1 = q ∧
      s.dev.quire q = some y ∧ fieldAt b 0 1 = 2 ∧ 24 ≤ fieldAt b 4 4 ∧ fieldAt b 4 4 ≤ 336) ∧
    (∃ (s : State) (cs : Nat) (x : CSlot) (b : List Byte) (q : Nat) (y : Quire), s.dev.seqDue cs 0xC3 x ∧ (List.range 6).any
      (fun i => decide (x.dw (10 + i) ≠ 0)) = false ∧ zeroAt b 3 1 = true ∧ zeroAt b 8 4088 = true ∧ fieldAt b 1 1 = q ∧
      s.dev.quire q = some y ∧ fieldAt b 0 1 = 2 ∧ (fieldAt b 4 4 < 24 ∨ 336 < fieldAt b 4 4)) ∧
    (∃ (s : State) (cs : Nat) (x : CSlot) (b : List Byte) (q : Nat) (y : Quire), s.dev.seqDue cs 0xC3 x ∧ (List.range 6).any
      (fun i => decide (x.dw (10 + i) ≠ 0)) = false ∧ zeroAt b 3 1 = true ∧ zeroAt b 8 4088 = true ∧ fieldAt b 1 1 = q ∧
      s.dev.quire q = some y ∧ fieldAt b 0 1 = 3 ∧ fieldAt b 4 4 = 0 ∧ s.dev.lc0On q = false) ∧
    (∃ (s : State) (cs : Nat) (x : CSlot) (b : List Byte) (q : Nat) (y : Quire), s.dev.seqDue cs 0xC3 x ∧ (List.range 6).any
      (fun i => decide (x.dw (10 + i) ≠ 0)) = false ∧ zeroAt b 3 1 = true ∧ zeroAt b 8 4088 = true ∧ fieldAt b 1 1 = q ∧
      s.dev.quire q = some y ∧ fieldAt b 0 1 = 3 ∧ fieldAt b 4 4 = 0 ∧ s.dev.lc0On q = true) ∧
    (∃ (s : State) (cs : Nat) (x : CSlot) (b : List Byte) (q : Nat) (y : Quire) (m : Member), s.dev.seqDue cs 0xC3 x ∧
      (List.range 6).any (fun i => decide (x.dw (10 + i) ≠ 0)) = false ∧ zeroAt b 3 1 = true ∧ zeroAt b 8 4088 = true ∧ fieldAt
      b 1 1 = q ∧ s.dev.quire q = some y ∧ fieldAt b 0 1 = 4 ∧ y.members.get? (fieldAt b 2 1) = some m ∧ y.work = none ∧
      m.present = true ∧ y.presentWidth < 4) := by
  refine ⟨?_, ?_, ?_, ?_, ?_, ?_⟩
  · exact ⟨qw (fun _ => quire0) (adm 0xC3 [] : CSlot), 3, adm 0xC3 [], qc [(0,1,1)], 0,
    quire0, by (repeat' apply And.intro) <;> decide +kernel⟩
  · exact ⟨qw (fun _ => quire0) (adm 0xC3 [] : CSlot), 3, adm 0xC3 [], qc [(0,1,2),(4,4,24)], 0,
    quire0, by (repeat' apply And.intro) <;> decide +kernel⟩
  · exact ⟨qw (fun _ => quire0) (adm 0xC3 [] : CSlot), 3, adm 0xC3 [], qc [(0,1,2),(4,4,23)], 0,
    quire0, by (repeat' apply And.intro) <;> decide +kernel⟩
  · exact ⟨qw (fun _ => quire0) (adm 0xC3 [] : CSlot), 3, adm 0xC3 [], qc [(0,1,3)], 0,
    quire0, by (repeat' apply And.intro) <;> decide +kernel⟩
  · exact ⟨(qw (fun _ => ({quire0 with strict := true} : Quire)) (adm 0xC3 [] : CSlot)).d fun d =>
    {d with hg := {d.hg with contracts := [(512,{ct0 with cls := 0})]}}, 3, adm 0xC3 [], qc [(0,1,3)], 0,
    {quire0 with strict := true}, by (repeat' apply And.intro) <;> decide +kernel⟩
  · exact ⟨qw (fun _ => ({quire0 with width := 3, members := [(0, mem0 0),(1,mem0 1),(2,mem0 2)]} : Quire)) (adm 0xC3 [] :
    CSlot), 3, adm 0xC3 [], qc [(0,1,4),(2,1,1)], 0, {quire0 with width := 3, members := [(0, mem0 0),(1,mem0 1),(2,mem0 2)]},
    mem0 1, by (repeat' apply And.intro) <;> decide +kernel⟩

theorem witness_QuireControl_2 :
    (∃ (s : State) (cs : Nat) (x : CSlot) (b : List Byte) (q : Nat) (y : Quire), s.dev.seqDue cs 0xC3 x ∧ (List.range 6).any
      (fun i => decide (x.dw (10 + i) ≠ 0)) = false ∧ zeroAt b 3 1 = true ∧ zeroAt b 8 4088 = true ∧ fieldAt b 1 1 = q ∧
      s.dev.quire q = some y ∧ fieldAt b 0 1 = 5 ∧ y.work = none ∧ y.held = false ∧ y.anyIn .joining = false) ∧
    (∃ (s : State) (cs : Nat) (x : CSlot) (b : List Byte) (q : Nat) (y : Quire) (m : Member), s.dev.seqDue cs 0xC3 x ∧
      (List.range 6).any (fun i => decide (x.dw (10 + i) ≠ 0)) = false ∧ zeroAt b 3 1 = true ∧ zeroAt b 8 4088 = true ∧ fieldAt
      b 1 1 = q ∧ s.dev.quire q = some y ∧ fieldAt b 0 1 = 4 ∧ y.members.get? (fieldAt b 2 1) = some m ∧ y.work = none ∧
      m.present = true ∧ 4 ≤ y.presentWidth ∧ s.dev.canHold q y (y.presentWidth - 1) = true) ∧
    (∃ (s : State) (cs : Nat) (x : CSlot) (b : List Byte) (q : Nat) (y : Quire), s.dev.seqDue cs 0xC3 x ∧ (List.range 6).any
      (fun i => decide (x.dw (10 + i) ≠ 0)) = false ∧ zeroAt b 3 1 = true ∧ zeroAt b 8 4088 = true ∧ fieldAt b 1 1 = q ∧
      s.dev.quire q = some y ∧ fieldAt b 0 1 = 5 ∧ y.work = none ∧ y.held = false ∧ y.anyIn .joining = true) ∧
    (∃ (s : State) (cs : Nat) (x : CSlot) (b : List Byte) (q : Nat) (y : Quire), s.dev.seqDue cs 0xC3 x ∧ (List.range 6).any
      (fun i => decide (x.dw (10 + i) ≠ 0)) = false ∧ zeroAt b 3 1 = true ∧ zeroAt b 8 4088 = true ∧ fieldAt b 1 1 = q ∧
      s.dev.quire q = some y ∧ fieldAt b 0 1 = 6 ∧ y.memSt (fieldAt b 2 1) = .releasing) := by
  refine ⟨?_, ?_, ?_, ?_⟩
  · exact ⟨qw (fun _ => quire0) (adm 0xC3 [] : CSlot), 3, adm 0xC3 [], qc [(0,1,5)], 0,
    quire0, by (repeat' apply And.intro) <;> decide +kernel⟩
  · exact ⟨qw (fun _ => quire0) (adm 0xC3 [] : CSlot), 3, adm 0xC3 [], qc [(0,1,4),(2,1,1)], 0, quire0, (quire0.members.get?
    (fieldAt (qc [(0,1,4),(2,1,1)] : List Byte) 2 1)).getD (mem0 0), by (repeat' apply And.intro) <;> decide +kernel⟩
  · exact ⟨qw (fun _ => {quire0 with members := quire0.members.ins 3 {mem0 3 with st := .joining}}) (adm 0xC3 [] : CSlot), 3,
    adm 0xC3 [], qc [(0,1,5)], 0,
    {quire0 with members := quire0.members.ins 3 {mem0 3 with st := .joining}}, by (repeat' apply And.intro) <;> decide +kernel⟩
  · exact ⟨qw (fun _ =>
    ({quire0 with members := quire0.members.ins 1 {mem0 1 with st := .releasing}, work := some (.release 1)} : Quire)) (adm
    0xC3 [] : CSlot), 3, adm 0xC3 [], qc [(0,1,6),(2,1,1)], 0,
    {quire0 with members := quire0.members.ins 1 {mem0 1 with st := .releasing}, work := some (.release 1)}, by (repeat' apply And.intro) <;> decide +kernel⟩

theorem witness_FirmwareActivates_commit (h : Crypto0) :
    ∃ (s : State) (cs : Nat) (x : CSlot), s.dev.seqDue cs 0x10 x ∧ s.dev.adm.activating = none ∧ bitsOf (x.dw 10) 5 3 = 3
      ∧ bitsOf (x.dw 10) 2 0 ≤ 1 ∧ 0 < s.dev.adm.fwEnd ∧ s.dev.adm.fwPages.length * 4096 = s.dev.adm.fwEnd
      ∧ folioCheck s.fuse s.dev.adm.fw s.dev.adm.fwEnd = none ∧ (runFolioOf s.fuse s.dev.adm.fw).activatable = true
      ∧ s.dev.bcol.full = false := by
  refine ⟨(hw.cmd 3 (adm 0x10 [(10, 24)])).d fun d =>
      { d with adm := { d.adm with fw := folioCells, fwEnd := 24576, fwPages := [0, 1, 2, 3, 4, 5] } }, 3, adm 0x10 [(10, 24)],
    ?_, ?_, ?_, ?_, ?_, ?_, folio_passes h, ?_, ?_⟩
  · unfold Dev.seqDue; (repeat' apply And.intro) <;> decide +kernel
  all_goals decide +kernel

end AdminSide


/-! ### Spaces -/

namespace Spaces

def s6 (f : San → San) (x : CSlot) : State := hwf (fun d => {d with san := f d.san}) x

def cre (l : List (Nat × Nat × Nat)) : List Byte := at2 [] ([(0,8,1000),(8,8,1000)] ++ l)

theorem witness_NamespacesComeAndGo :
    (∃ (s : State) (cs : Nat) (x : CSlot) (b : List Byte) (n : Nsp) (i : Nat), s.dev.seqDue cs 0x0D x ∧ bitsOf (x.dw 10) 3 0 =
      0 ∧ s.dev.ring.waits = none ∧ s.dev.createSpec (bitsOf (x.dw 11) 31 24) b = .inl n ∧ s.dev.admits n = none ∧ s.dev.freeNs
      = some i) ∧
    (∃ (s : State) (cs : Nat) (x : CSlot) (b : List Byte) (e : Cqe), s.dev.seqDue cs 0x0D x ∧ bitsOf (x.dw 10) 3 0 = 0 ∧
      s.dev.createSpec (bitsOf (x.dw 11) 31 24) b = .inr e) ∧
    (∃ (s : State) (cs : Nat) (x : CSlot) (b : List Byte) (ns : Nat) (n : Nsp) (l : List Nat), s.dev.seqDue cs 0x15 x ∧ bitsOf
      (x.dw 10) 3 0 = 0 ∧ s.dev.nspId x.nsid = some (ns, n) ∧ n.deleting = false ∧ listedCtls b = some l ∧ n.tenants.all (fun t
      => decide (t = ((l.head?.bind fnOfCntlid).map Fn.tenant).getD 512)) = true ∧ l.all (fun c => !(n.attached.contains c)) =
      true ∧ (s.dev.modNsp ns (fun y => { y with attached := n.attached ++ l })).contractRefusal (((l.head?.bind
      fnOfCntlid).map Fn.tenant).getD 512) = none) ∧
    (∃ (s : State) (cs : Nat) (x : CSlot) (b : List Byte) (ns : Nat) (n : Nsp) (l : List Nat), s.dev.seqDue cs 0x15 x ∧ bitsOf
      (x.dw 10) 3 0 = 1 ∧ s.dev.nspId x.nsid = some (ns, n) ∧ n.deleting = false ∧ listedCtls b = some l ∧ l.all (fun c =>
      n.attached.contains c) = true) ∧
    (∃ (s : State) (cs : Nat) (x : CSlot) (ns : Nat) (n : Nsp), s.dev.seqDue cs 0x0D x ∧ bitsOf (x.dw 10) 3 0 = 1 ∧ s.dev.nspId
      x.nsid = some (ns, n) ∧ s.dev.tc.nss.wf = true) := by
  refine ⟨?_, ?_, ?_, ?_, ?_⟩
  · exact ⟨hwf (fun d => {d with dmc := {d.dmc with order := [0,1,2,3,4,5]}, tc := {d.tc with budget := 1000000000}}) (adm 0x0D
    [] : CSlot), 3, adm 0x0D [], cre [],
    (match ((hwf (fun d => {d with dmc := {d.dmc with order := [0,1,2,3,4,5]}, tc := {d.tc with budget := 1000000000}}) (adm 0x0D [] : CSlot) : State).dev.createSpec 0 (cre [] : List Byte)) with | .inl n => n | _ => ns0),
    ((hwf (fun d => {d with dmc := {d.dmc with order := [0,1,2,3,4,5]}, tc := {d.tc with budget := 1000000000}}) (adm 0x0D [] :
    CSlot) : State).dev.freeNs).getD 77, by (repeat' apply And.intro) <;> decide +kernel⟩
  · exact ⟨hw.cmd 3 (adm 0x0D [] : CSlot), 3, adm 0x0D [], cre [(26,1,4)],
    (match ((hw.cmd 3 (adm 0x0D [] : CSlot) : State).dev.createSpec 0 (cre [(26,1,4)] : List Byte)) with | .inr n => n | _ => cqeOk), by (repeat' apply And.intro) <;> decide +kernel⟩
  · exact ⟨hwf (fun d => {d with tc := {d.tc with nss := [(0,{ns0 with attached := []})]}}) (adm 0x15 [(1,1)] : CSlot), 3, adm
    0x15 [(1,1)], at2 [] [(0,2,1),(2,2,1)], 0, (((hwf (fun d =>
    {d with tc := {d.tc with nss := [(0,{ns0 with attached := []})]}}) (adm 0x15 [(1,1)] : CSlot) : State).dev.nsp 0).getD
    ns0), (listedCtls (at2 [] [(0,2,1),(2,2,1)] : List Byte)).getD [], by (repeat' apply And.intro) <;> decide +kernel⟩
  · exact ⟨hw.cmd 3 (adm 0x15 [(1,1),(10,1)] : CSlot), 3, adm 0x15 [(1,1),(10,1)], at2 [] [(0,2,1),(2,2,1)], 0, (((hw.cmd 3
    (adm 0x15 [(1,1),(10,1)] : CSlot) : State).dev.nsp 0).getD ns0), (listedCtls (at2 [] [(0,2,1),(2,2,1)] : List Byte)).getD
    [], by (repeat' apply And.intro) <;> decide +kernel⟩
  · exact ⟨hw.cmd 3 (adm 0x0D [(1,1),(10,1)] : CSlot), 3, adm 0x0D [(1,1),(10,1)], 0,
    ns0, by (repeat' apply And.intro) <;> decide +kernel⟩

theorem witness_FormatAndSanitize_1 :
    (∃ (s : State) (cs : Nat) (x : CSlot) (ns : Nat) (n : Nsp), s.dev.seqDue cs 0x80 x ∧ s.dev.nspId x.nsid = some (ns, n) ∧
      n.deleting = false ∧ x.nsid ≠ 0xFFFFFFFF ∧ s.dev.formatRefusal x [ns] = none) ∧
    (∃ (s : State) (cs : Nat) (x : CSlot), s.dev.seqDue cs 0x84 x ∧ s.dev.ring.waits = none ∧ s.dev.tc.nss.wf = true ∧ bitsOf
      (x.dw 10) 2 0 = 4) ∧
    (∃ (s : State) (cs : Nat) (x : CSlot), s.dev.seqDue cs 0x84 x ∧ s.dev.ring.waits = none ∧ s.dev.tc.nss.wf = true ∧ bitsOf
      (x.dw 10) 2 0 = 2) ∧
    (∃ (s : State) (cs : Nat) (x : CSlot), s.dev.seqDue cs 0x84 x ∧ s.dev.ring.waits = none ∧ s.dev.tc.nss.wf = true ∧ bitsOf
      (x.dw 10) 2 0 = 1 ∧ s.dev.san.failure = true ∧ s.dev.san.ause = true) ∧
    (∃ (s : State) (cs : Nat) (x : CSlot), s.dev.seqDue cs 0x84 x ∧ bitsOf (x.dw 10) 2 0 = 1 ∧ s.dev.san.failure = true ∧
      s.dev.san.ause = false) ∧
    (∃ (s : State), s.dev.san.running = true ∧ s.dev.ring.waits = none ∧ s.dev.ring.durable = true) := by
  refine ⟨?_, ?_, ?_, ?_, ?_, ?_⟩
  · exact ⟨hw.cmd 3 (adm 0x80 [(1,1),(10,0)] : CSlot), 3, adm 0x80 [(1,1),(10,0)], 0,
    ns0, by (repeat' apply And.intro) <;> decide +kernel⟩
  · exact ⟨hw.cmd 3 (adm 0x84 [(10,4)] : CSlot), 3, adm 0x84 [(10,4)], by (repeat' apply And.intro) <;> decide +kernel⟩
  · exact ⟨hw.cmd 3 (adm 0x84 [(10,2)] : CSlot), 3, adm 0x84 [(10,2)], by (repeat' apply And.intro) <;> decide +kernel⟩
  · exact ⟨s6 (fun y => {y with failure := true, ause := true}) (adm 0x84 [(10,1)] : CSlot), 3, adm 0x84
    [(10,1)], by (repeat' apply And.intro) <;> decide +kernel⟩
  · exact ⟨s6 (fun y => {y with failure := true}) (adm 0x84 [(10,1)] : CSlot), 3, adm 0x84
    [(10,1)], by (repeat' apply And.intro) <;> decide +kernel⟩
  · exact ⟨(hw.d fun d =>
    {d with san := {d.san with running := true, action := 2}, ring := {d.ring with durable := true}}), by (repeat' apply And.intro) <;> decide +kernel⟩

theorem witness_FormatAndSanitize_2 :
    ∃ (s : State), s.dev.san.running = false :=
  ⟨hw, by decide +kernel⟩

theorem witness_LedgerReaders :
    ∃ (s : State) (k : Nat), k < 4 ∧ s.dev.evl.mainOn = true :=
  ⟨hw.d fun d => {d with evl := {d.evl with mainOn := true, next := 9, volume := 3, main := [⟨2,1,1,0,[]⟩,⟨5,1,1,0,[]⟩]}},
    0, by (repeat' apply And.intro) <;> decide +kernel⟩

theorem witness_LedgerVolumesAndTests :
    (∃ (s : State) (cs : Nat) (x : CSlot), (List.range 6).all (fun i => decide (x.dw (10 + i) = 0)) = true ∧ s.dev.seqDue cs
      0xC0 x ∧ s.dev.evl.persisting = none) ∧
    (∃ (s : State) (cs : Nat) (x : CSlot), (List.range 6).all (fun i => decide (x.dw (10 + i) = 0)) = true ∧ s.dev.seqDue cs
      0xC4 x ∧ s.dev.testMode = true ∧ s.dev.hu.busy = false) ∧
    (∃ (s : State) (cs : Nat) (x : CSlot) (head : Nat), s.dev.evl.persisting = some (.newVolume cs, head) ∧ s.dev.evl.waiting =
      [] ∧ s.dev.postable cs x) ∧
    (∃ (s : State) (cs : Nat) (x : CSlot) (head n : Nat), s.dev.evl.persisting = some (.newVolume cs, head) ∧ s.dev.evl.waiting
      = [] ∧ s.dev.postable cs x ∧ 0 < n) := by
  refine ⟨?_, ?_, ?_, ?_⟩
  · exact ⟨hw.cmd 3 (adm 0xC0 [] : CSlot), 3, adm 0xC0 [], by (repeat' apply And.intro) <;> decide +kernel⟩
  · exact ⟨hw.cmd 3 (adm 0xC4 [] : CSlot), 3, adm 0xC4 [], by (repeat' apply And.intro) <;> decide +kernel⟩
  · exact ⟨(hw.cmd 3 (adm 0xC0 [] : CSlot)).d fun d =>
    {d with evl := {d.evl with mainOn := true, next := 9, persisting := some (.newVolume 3, 5), mainFull := true, overflow := 3, main := [⟨2,1,1,0,[]⟩,⟨5,1,1,0,[]⟩]}},
    3, adm 0xC0 [], 5, by (repeat' apply And.intro) <;> decide +kernel⟩
  · exact ⟨(hw.cmd 3 (adm 0xC0 [] : CSlot)).d fun d =>
    {d with evl := {d.evl with mainOn := true, next := 9, persisting := some (.newVolume 3, 5), mainFull := true, overflow := 3, main := [⟨2,1,1,0,[]⟩,⟨5,1,1,0,[]⟩]}},
    3, adm 0xC0 [], 5, 1, by (repeat' apply And.intro) <;> decide +kernel⟩

end Spaces


/-! ### IoSide -/

namespace IoSide

def zn : Nsp := {ns0 with kind := 2, zoneShift := 28, mar := 2, nsze := 4 * 65536}

def fd : Nsp := {ns0 with kind := 1, handles := [3,4]}

def zst (st : ZState) : Zone := {Zone.fresh with state := st, wp := 100, dataEnd := 100, furrow := (if st = .implOpen ∨ st = .explOpen ∨ st = .closed then some 70 else none)}

def fur (k : Nat) : Furrow := {Furrow.reset with st := .open, kind := k}

def hz (sts : List ZState) (x : CSlot) : State := hwf (fun d => {d with tc := {d.tc with nss := [(0,zn)], zones := (List.range sts.length).map (fun i => (i, zst ((sts[i]?).getD .empty))), furrows := [(70, {fur 2 with st := .open, kind := 2})]}}) x

def zs7 : List ZState := [.empty, .implOpen, .explOpen, .closed, .readOnly, .full, .offline]

def zall (x : CSlot) : List State := zs7.map (fun st => hz [st] x) ++ [hz [.empty, .implOpen, .explOpen, .closed] x, hz [.implOpen, .implOpen, .explOpen, .closed] x]

def bpmS (f : Dev → Dev) (x : CSlot) : State := hwf (fun d => f (({d with bpm := {d.bpm with lock := true, dramTotal := 100}}).setCsr (aBpmPoolCnt + 16) 1000)) x

theorem witness_ReadsFlushAndFaults_1 :
    (∃ (s : State) (cs : Nat) (x : CSlot) (ns : Nat) (n : Nsp), s.dev.col.rng = [] ∧ s.dev.ioDue cs 0x02 x ns n) ∧
    (∃ (s : State) (cs : Nat) (x : CSlot) (ns : Nat) (n : Nsp), s.dev.col.rng = [] ∧ s.dev.ioDue cs 0x0C x ns n) ∧
    (∃ (s : State) (cs : Nat) (x : CSlot), s.dev.ioSlot cs [0x00] = some x ∧ s.dev.postable cs x ∧ (x.nsid = 0xFFFFFFFF ∨
      (s.dev.nsOf x).isSome = true)) ∧
    (∃ (s : State) (cs : Nat) (x : CSlot), s.dev.ioSlot cs [0x00] = some x ∧ s.dev.postable cs x ∧ x.nsid ≠ 0xFFFFFFFF ∧
      s.dev.nsOf x = none) ∧
    (∃ (s : State) (cs : Nat) (x : CSlot), s.dev.hg.slots.get? cs = some x ∧ (x.st = .fetched ∨ x.st = .paced) ∧ s.dev.postable
      cs x ∧ x.bufs = [] ∧ x.rsv = 0 ∧ x.reads = false ∧ s.dev.rp.reads.any (fun r => decide (r.2.cs = some cs)) = false) ∧
    (∃ (s : State) (cs : Nat) (x : CSlot), s.dev.hg.slots.get? cs = some x ∧ (x.st = .fetched ∨ x.st = .paced ∨ x.st =
      .executing) ∧ s.dev.postable cs x) := by
  refine ⟨?_, ?_, ?_, ?_, ?_, ?_⟩
  · exact ⟨hw.cmd 3 (ioc 2 [(1,1),(10,5),(12,0)] : CSlot), 3, ioc 2 [(1,1),(10,5),(12,0)], 0,
    ns0, by (repeat' apply And.intro) <;> decide +kernel⟩
  · exact ⟨hw.cmd 3 (ioc 12 [(1,1),(10,5),(12,0)] : CSlot), 3, ioc 12 [(1,1),(10,5),(12,0)], 0,
    ns0, by (repeat' apply And.intro) <;> decide +kernel⟩
  · exact ⟨hw.cmd 3 (ioc 0 [(1,1)] : CSlot), 3, ioc 0 [(1,1)], by (repeat' apply And.intro) <;> decide +kernel⟩
  · exact ⟨hw.cmd 3 (ioc 0 [(1,2)] : CSlot), 3, ioc 0 [(1,2)], by (repeat' apply And.intro) <;> decide +kernel⟩
  · exact ⟨hw.cmd 3 ({ioc 1 [(1,1)] with st := .paced, wait := .tokens} : CSlot), 3,
    {ioc 1 [(1,1)] with st := .paced, wait := .tokens}, by (repeat' apply And.intro) <;> decide +kernel⟩
  · exact ⟨hw.cmd 3 ({ioc 2 [(1,1),(10,5),(12,0)] with st := .fetched} : CSlot), 3,
    {ioc 2 [(1,1),(10,5),(12,0)] with st := .fetched}, by (repeat' apply And.intro) <;> decide +kernel⟩

theorem witness_ReadsFlushAndFaults_2 :
    (∃ (s : State) (cs : Nat) (x : CSlot), s.dev.hg.slots.get? cs = some x ∧ (x.st = .committed ∨ x.st = .ending ∨ x.st =
      .aborted)) ∧
    (∃ (s : State) (f : Fn) (vec : Nat), (s.dev.fnst f).coal.get 0 vec = 0) ∧
    (∃ (s : State) (f : Fn) (vec : Nat), (s.dev.fnst f).coal.get 0 vec ≠ 0 ∧ (s.dev.fnst f).bme = true ∧ (s.dev.fnst f).msix =
      true ∧ vec ∉ (s.dev.fnst f).msixMask) := by
  refine ⟨?_, ?_, ?_⟩
  · exact ⟨hw.cmd 3 ({ioc 1 [(1,1)] with st := .committed} : CSlot), 3,
    {ioc 1 [(1,1)] with st := .committed}, by (repeat' apply And.intro) <;> decide +kernel⟩
  · exact ⟨hw, .pf .a, 0, by decide +kernel⟩
  · exact ⟨hw.d fun d => d.modFn (.pf .a) (fun y => {y with coal := [(1,3)]}), .pf .a,
    1, by (repeat' apply And.intro) <;> decide +kernel⟩

theorem witness_WritesCommit_1 :
    (∃ (s : State) (cs : Nat) (x : CSlot) (ns : Nat) (n : Nsp) (op units need : Nat) (d1 d2 : Dev) (h : W32), s.dev.ioDue cs op
      x ns n ∧ d1 = (s.dev.charge cs).1 ∧ units = (if n.lbaf = 3 ∧ op = 0x7D then x.nlb / 8 + 2 else x.unitsFor n) ∧ need = (if
      n.lbaf = 3 then (if op = 0x7D then 3 else (n.rangeSpecs ns 1 x.slba x.nlb 0).length) else 1) ∧ d1.readOnlyRefuses ns n x
      = false ∧ (n.kind = 2 → d1.zoneRefusal ns (x.zone n) n = none) ∧ (op = 0x7D → x.slba % n.zoneLbas = 0) ∧ d1.placeWait ns
      n units = none ∧ (d1.reserve cs need).2 = true ∧ (d1.reserve cs need).1.alloc 0 ((d1.reserve cs need).1.contract
      x.tenant).writeOwner true (4096 * units) = (d2, 0, h) ∧ op = 0x01) ∧
    (∃ (s : State) (cs : Nat) (x : CSlot) (ns : Nat) (n : Nsp) (op units need : Nat) (d1 d2 : Dev) (h : W32), s.dev.ioDue cs op
      x ns n ∧ d1 = (s.dev.charge cs).1 ∧ units = (if n.lbaf = 3 ∧ op = 0x7D then x.nlb / 8 + 2 else x.unitsFor n) ∧ need = (if
      n.lbaf = 3 then (if op = 0x7D then 3 else (n.rangeSpecs ns 1 x.slba x.nlb 0).length) else 1) ∧ d1.readOnlyRefuses ns n x
      = false ∧ (n.kind = 2 → d1.zoneRefusal ns (x.zone n) n = none) ∧ (op = 0x7D → x.slba % n.zoneLbas = 0) ∧ d1.placeWait ns
      n units = none ∧ (d1.reserve cs need).2 = true ∧ (d1.reserve cs need).1.alloc 0 ((d1.reserve cs need).1.contract
      x.tenant).writeOwner true (4096 * units) = (d2, 0, h) ∧ op = 0x7D) ∧
    (∃ (s : State) (cs : Nat) (x : CSlot) (ns : Nat) (n : Nsp) (op units need : Nat) (d1 : Dev) (w : SlWait), s.dev.ioDue cs op
      x ns n ∧ d1 = (s.dev.charge cs).1 ∧ units = (if n.lbaf = 3 ∧ op = 0x7D then x.nlb / 8 + 2 else x.unitsFor n) ∧ need = (if
      n.lbaf = 3 then (if op = 0x7D then 3 else (n.rangeSpecs ns 1 x.slba x.nlb 0).length) else 1) ∧ d1.readOnlyRefuses ns n x
      = false ∧ (n.kind = 2 → d1.zoneRefusal ns (x.zone n) n = none) ∧ (op = 0x7D → x.slba % n.zoneLbas = 0) ∧ op = 0x01 ∧
      d1.placeWait ns n units = some w) ∧
    (∃ (s : State) (cs : Nat) (x : CSlot) (ns : Nat) (n : Nsp) (bytes : List Byte), s.dev.hg.slots.get? cs = some x ∧ x.st =
      .executing ∧ x.wait = .data ∧ (x.opcode = 0x01 ∨ x.opcode = 0x7D) ∧ x.sqid ≠ 0 ∧ (s.dev.fnst x.fn).bme = true ∧
      s.dev.nsOf x = some (ns, n) ∧ s.dev.nsp ns = some n ∧ x.writePi n bytes = none ∧ (n.kind = 2 → s.dev.zoneCheck ns (x.zone
      n) n (if x.opcode = 0x7D then none else some (x.slba - x.zone n * n.zoneLbas)) x.nlb = none)) ∧
    (∃ (s : State) (cs : Nat) (x : CSlot), s.dev.postable cs x ∧ x.st = .executing ∧ x.wait = .data ∧ (x.opcode = 0x01 ∨
      x.opcode = 0x7D) ∧ x.sqid ≠ 0) ∧
    (∃ (s : State) (cs : Nat) (x : CSlot) (ns : Nat) (n : Nsp) (d1 : Dev) (l : List RSpec), s.dev.ioDue cs 0x08 x ns n ∧
      s.dev.nsp ns = some n ∧ d1 = (s.dev.charge cs).1 ∧ l = (if x.deac n then n.deallocSpecs ns x.slba x.nlb else n.rangeSpecs
      ns 2 x.slba x.nlb 0) ∧ (x.deac n = false → d1.readOnlyRefuses ns n x = false ∧ d1.placeWait ns n (x.unitsFor n) = none) ∧
      (d1.reserve cs l.length).2 = true ∧ (n.kind = 2 → s.dev.zoneCheck ns (x.zone n) n (some (x.slba - x.zone n * n.zoneLbas))
      x.nlb = none)) := by
  refine ⟨?_, ?_, ?_, ?_, ?_, ?_⟩
  · exact ⟨bpmS (fun d => {d with tc := {d.tc with nss := [(0,ns0)]}}) (ioc 1 [(1,1),(10,5),(12,0)] : CSlot), 3, ioc 1
    [(1,1),(10,5),(12,0)], 0, ns0, 1, (if ns0.lbaf = 3 ∧ 1 = 0x7D then (ioc 1 [(1,1),(10,5),(12,0)] : CSlot).nlb / 8 + 2 else
    (ioc 1 [(1,1),(10,5),(12,0)] : CSlot).unitsFor ns0), (if ns0.lbaf = 3 then (if 1 = 0x7D then 3 else (ns0.rangeSpecs 0 1
    (ioc 1 [(1,1),(10,5),(12,0)] : CSlot).slba (ioc 1 [(1,1),(10,5),(12,0)] : CSlot).nlb 0).length) else 1), ((bpmS (fun d =>
    {d with tc := {d.tc with nss := [(0,ns0)]}}) (ioc 1 [(1,1),(10,5),(12,0)] : CSlot) : State).dev.charge 3).1, (((((bpmS (fun
    d => {d with tc := {d.tc with nss := [(0,ns0)]}}) (ioc 1 [(1,1),(10,5),(12,0)] : CSlot) : State).dev.charge 3).1 :
    Dev).reserve 3 ((if ns0.lbaf = 3 then (if 1 = 0x7D then 3 else (ns0.rangeSpecs 0 1 (ioc 1 [(1,1),(10,5),(12,0)] :
    CSlot).slba (ioc 1 [(1,1),(10,5),(12,0)] : CSlot).nlb 0).length) else 1) : Nat)).1.alloc 0 (((((bpmS (fun d =>
    {d with tc := {d.tc with nss := [(0,ns0)]}}) (ioc 1 [(1,1),(10,5),(12,0)] : CSlot) : State).dev.charge 3).1 : Dev).reserve
    3 ((if ns0.lbaf = 3 then (if 1 = 0x7D then 3 else (ns0.rangeSpecs 0 1 (ioc 1 [(1,1),(10,5),(12,0)] : CSlot).slba (ioc 1
    [(1,1),(10,5),(12,0)] : CSlot).nlb 0).length) else 1) : Nat)).1.contract (ioc 1 [(1,1),(10,5),(12,0)] :
    CSlot).tenant).writeOwner true (4096 * ((if ns0.lbaf = 3 ∧ 1 = 0x7D then (ioc 1 [(1,1),(10,5),(12,0)] : CSlot).nlb / 8 + 2
    else (ioc 1 [(1,1),(10,5),(12,0)] : CSlot).unitsFor ns0) : Nat))).1, (((((bpmS (fun d =>
    {d with tc := {d.tc with nss := [(0,ns0)]}}) (ioc 1 [(1,1),(10,5),(12,0)] : CSlot) : State).dev.charge 3).1 : Dev).reserve
    3 ((if ns0.lbaf = 3 then (if 1 = 0x7D then 3 else (ns0.rangeSpecs 0 1 (ioc 1 [(1,1),(10,5),(12,0)] : CSlot).slba (ioc 1
    [(1,1),(10,5),(12,0)] : CSlot).nlb 0).length) else 1) : Nat)).1.alloc 0 (((((bpmS (fun d =>
    {d with tc := {d.tc with nss := [(0,ns0)]}}) (ioc 1 [(1,1),(10,5),(12,0)] : CSlot) : State).dev.charge 3).1 : Dev).reserve
    3 ((if ns0.lbaf = 3 then (if 1 = 0x7D then 3 else (ns0.rangeSpecs 0 1 (ioc 1 [(1,1),(10,5),(12,0)] : CSlot).slba (ioc 1
    [(1,1),(10,5),(12,0)] : CSlot).nlb 0).length) else 1) : Nat)).1.contract (ioc 1 [(1,1),(10,5),(12,0)] :
    CSlot).tenant).writeOwner true (4096 * ((if ns0.lbaf = 3 ∧ 1 = 0x7D then (ioc 1 [(1,1),(10,5),(12,0)] : CSlot).nlb / 8 + 2
    else (ioc 1 [(1,1),(10,5),(12,0)] : CSlot).unitsFor ns0) : Nat))).2.2, by (repeat' apply And.intro) <;> decide +kernel⟩
  · exact ⟨bpmS (fun d => {d with tc := {d.tc with nss := [(0,zn)]}}) (ioc 0x7D [(1,1),(10,0),(12,0)] : CSlot), 3, ioc 0x7D
    [(1,1),(10,0),(12,0)], 0, zn, 0x7D, (if zn.lbaf = 3 ∧ 0x7D = 0x7D then (ioc 0x7D [(1,1),(10,0),(12,0)] : CSlot).nlb / 8 + 2
    else (ioc 0x7D [(1,1),(10,0),(12,0)] : CSlot).unitsFor zn), (if zn.lbaf = 3 then (if 0x7D = 0x7D then 3 else (zn.rangeSpecs
    0 1 (ioc 0x7D [(1,1),(10,0),(12,0)] : CSlot).slba (ioc 0x7D [(1,1),(10,0),(12,0)] : CSlot).nlb 0).length) else 1), ((bpmS
    (fun d => {d with tc := {d.tc with nss := [(0,zn)]}}) (ioc 0x7D [(1,1),(10,0),(12,0)] : CSlot) : State).dev.charge 3).1,
    (((((bpmS (fun d => {d with tc := {d.tc with nss := [(0,zn)]}}) (ioc 0x7D [(1,1),(10,0),(12,0)] : CSlot) :
    State).dev.charge 3).1 : Dev).reserve 3 ((if zn.lbaf = 3 then (if 0x7D = 0x7D then 3 else (zn.rangeSpecs 0 1 (ioc 0x7D
    [(1,1),(10,0),(12,0)] : CSlot).slba (ioc 0x7D [(1,1),(10,0),(12,0)] : CSlot).nlb 0).length) else 1) : Nat)).1.alloc 0
    (((((bpmS (fun d => {d with tc := {d.tc with nss := [(0,zn)]}}) (ioc 0x7D [(1,1),(10,0),(12,0)] : CSlot) :
    State).dev.charge 3).1 : Dev).reserve 3 ((if zn.lbaf = 3 then (if 0x7D = 0x7D then 3 else (zn.rangeSpecs 0 1 (ioc 0x7D
    [(1,1),(10,0),(12,0)] : CSlot).slba (ioc 0x7D [(1,1),(10,0),(12,0)] : CSlot).nlb 0).length) else 1) : Nat)).1.contract (ioc
    0x7D [(1,1),(10,0),(12,0)] : CSlot).tenant).writeOwner true (4096 * ((if zn.lbaf = 3 ∧ 0x7D = 0x7D then (ioc 0x7D
    [(1,1),(10,0),(12,0)] : CSlot).nlb / 8 + 2 else (ioc 0x7D [(1,1),(10,0),(12,0)] : CSlot).unitsFor zn) : Nat))).1, (((((bpmS
    (fun d => {d with tc := {d.tc with nss := [(0,zn)]}}) (ioc 0x7D [(1,1),(10,0),(12,0)] : CSlot) : State).dev.charge 3).1 :
    Dev).reserve 3 ((if zn.lbaf = 3 then (if 0x7D = 0x7D then 3 else (zn.rangeSpecs 0 1 (ioc 0x7D [(1,1),(10,0),(12,0)] :
    CSlot).slba (ioc 0x7D [(1,1),(10,0),(12,0)] : CSlot).nlb 0).length) else 1) : Nat)).1.alloc 0 (((((bpmS (fun d =>
    {d with tc := {d.tc with nss := [(0,zn)]}}) (ioc 0x7D [(1,1),(10,0),(12,0)] : CSlot) : State).dev.charge 3).1 :
    Dev).reserve 3 ((if zn.lbaf = 3 then (if 0x7D = 0x7D then 3 else (zn.rangeSpecs 0 1 (ioc 0x7D [(1,1),(10,0),(12,0)] :
    CSlot).slba (ioc 0x7D [(1,1),(10,0),(12,0)] : CSlot).nlb 0).length) else 1) : Nat)).1.contract (ioc 0x7D
    [(1,1),(10,0),(12,0)] : CSlot).tenant).writeOwner true (4096 * ((if zn.lbaf = 3 ∧ 0x7D = 0x7D then (ioc 0x7D
    [(1,1),(10,0),(12,0)] : CSlot).nlb / 8 + 2 else (ioc 0x7D [(1,1),(10,0),(12,0)] : CSlot).unitsFor zn) :
    Nat))).2.2, by (repeat' apply And.intro) <;> decide +kernel⟩
  · exact ⟨bpmS (fun d => {d with tc := {d.tc with nss := [(0,ns0)]}, ring := {d.ring with pending := [0]}}) (ioc 1
    [(1,1),(10,5),(12,0)] : CSlot), 3, ioc 1 [(1,1),(10,5),(12,0)], 0, ns0, 1, (if ns0.lbaf = 3 ∧ 1 = 0x7D then (ioc 1
    [(1,1),(10,5),(12,0)] : CSlot).nlb / 8 + 2 else (ioc 1 [(1,1),(10,5),(12,0)] : CSlot).unitsFor ns0), (if ns0.lbaf = 3 then
    (if 1 = 0x7D then 3 else (ns0.rangeSpecs 0 1 (ioc 1 [(1,1),(10,5),(12,0)] : CSlot).slba (ioc 1 [(1,1),(10,5),(12,0)] :
    CSlot).nlb 0).length) else 1), ((bpmS (fun d =>
    {d with tc := {d.tc with nss := [(0,ns0)]}, ring := {d.ring with pending := [0]}}) (ioc 1 [(1,1),(10,5),(12,0)] : CSlot) :
    State).dev.charge 3).1, .dirty, by (repeat' apply And.intro) <;> decide +kernel⟩
  · exact ⟨bpmS (fun d => {d with col := {d.col with resv := 1}})
    ({ioc 1 [(1,1),(10,5),(12,0)] with wait := .data, bufs := [0x01000000#32], rsv := 1} : CSlot), 3,
    {ioc 1 [(1,1),(10,5),(12,0)] with wait := .data, bufs := [0x01000000#32], rsv := 1}, 0, ns0,
    [], by (repeat' apply And.intro) <;> decide +kernel⟩
  · exact ⟨bpmS (fun d => {d with col := {d.col with resv := 1}})
    ({ioc 1 [(1,1),(10,5),(12,0)] with wait := .data, bufs := [0x01000000#32], rsv := 1} : CSlot), 3,
    {ioc 1 [(1,1),(10,5),(12,0)] with wait := .data, bufs := [0x01000000#32], rsv := 1}, by (repeat' apply And.intro) <;> decide +kernel⟩
  · exact ⟨bpmS (fun d => d) (ioc 8 [(1,1),(10,5),(12,0)] : CSlot), 3, ioc 8 [(1,1),(10,5),(12,0)], 0, ns0, ((bpmS (fun d => d)
    (ioc 8 [(1,1),(10,5),(12,0)] : CSlot) : State).dev.charge 3).1, (if (ioc 8 [(1,1),(10,5),(12,0)] : CSlot).deac ns0 then
    ns0.deallocSpecs 0 (ioc 8 [(1,1),(10,5),(12,0)] : CSlot).slba (ioc 8 [(1,1),(10,5),(12,0)] : CSlot).nlb else ns0.rangeSpecs
    0 2 (ioc 8 [(1,1),(10,5),(12,0)] : CSlot).slba (ioc 8 [(1,1),(10,5),(12,0)] : CSlot).nlb 0),
    by unfold Dev.ioDue; (repeat' apply And.intro) <;> decide +kernel, by decide +kernel, by decide +kernel, by decide +kernel, by decide +kernel, by decide +kernel, by decide +kernel⟩

theorem witness_WritesCommit_2 :
    (∃ (s : State) (cs : Nat) (x : CSlot) (ns : Nat) (n : Nsp) (bytes : List Byte), s.dev.ioDue cs 0x09 x ns n ∧ s.dev.nsp ns =
      some n ∧ bitOf (x.dw 11) 2 = true ∧ (dsmRanges (bitsOf (x.dw 10) 7 0 + 1) bytes).all (fun r => decide (r.slba + r.nlb ≤
      n.nsze)) = true ∧ n.dsmSpecs ns (dsmRanges (bitsOf (x.dw 10) 7 0 + 1) bytes) ≠ [] ∧ (n.dsmSpecs ns (dsmRanges (bitsOf
      (x.dw 10) 7 0 + 1) bytes)).length ≤ s.dev.col.capacity ∧ ((s.dev.charge cs).1.reserve cs (n.dsmSpecs ns (dsmRanges
      (bitsOf (x.dw 10) 7 0 + 1) bytes)).length).2 = true) ∧
    (∃ (s : State) (cs : Nat) (x : CSlot) (ns : Nat) (n : Nsp) (bytes : List Byte), s.dev.ioDue cs 0x09 x ns n ∧ bitOf (x.dw
      11) 2 = true ∧ (dsmRanges (bitsOf (x.dw 10) 7 0 + 1) bytes).any (fun r => decide (n.nsze < r.slba + r.nlb)) = true) := by
  refine ⟨?_, ?_⟩
  · exact ⟨bpmS (fun d => d) (ioc 9 [(1,1),(10,1),(11,4)] : CSlot), 3, ioc 9 [(1,1),(10,1),(11,4)], 0, ns0, at2 []
    [(4,4,16),(8,8,32),(20,4,8),(24,8,100)], by (repeat' apply And.intro) <;> decide +kernel⟩
  · exact ⟨bpmS (fun d => d) (ioc 9 [(1,1),(10,1),(11,4)] : CSlot), 3, ioc 9 [(1,1),(10,1),(11,4)], 0, ns0, at2 []
    [(4,4,16),(8,8,32),(20,4,8),(24,8,4090)], by (repeat' apply And.intro) <;> decide +kernel⟩

theorem witness_ZoneActions_1 :
    (∃ (s : State) (cs : Nat) (x : CSlot) (ns : Nat) (n : Nsp) (z : Nat) (st : ZState), s.dev.ioDue cs 0x79 x ns n ∧ bitOf
      (x.dw 13) 8 = false ∧ x.slba % n.zoneLbas = 0 ∧ z = x.zone n ∧ st = (s.dev.zone ns z).state ∧ x.zsa = 3 ∧ (st = .implOpen
      ∨ st = .closed ∨ (st = .empty ∧ s.dev.activeZones ns < n.mar + 1))) ∧
    (∃ (s : State) (cs : Nat) (x : CSlot) (ns : Nat) (n : Nsp) (z : Nat) (st : ZState), s.dev.ioDue cs 0x79 x ns n ∧ bitOf
      (x.dw 13) 8 = false ∧ x.slba % n.zoneLbas = 0 ∧ z = x.zone n ∧ st = (s.dev.zone ns z).state ∧ x.zsa = 3 ∧ st = .empty ∧
      n.mar + 1 ≤ s.dev.activeZones ns) ∧
    (∃ (s : State) (cs : Nat) (x : CSlot) (ns : Nat) (n : Nsp) (z : Nat) (st : ZState), s.dev.ioDue cs 0x79 x ns n ∧ bitOf
      (x.dw 13) 8 = false ∧ x.slba % n.zoneLbas = 0 ∧ z = x.zone n ∧ st = (s.dev.zone ns z).state ∧ x.zsa = 3 ∧ (st = .full ∨
      st = .readOnly ∨ st = .offline)) ∧
    (∃ (s : State) (cs : Nat) (x : CSlot) (ns : Nat) (n : Nsp) (z : Nat) (st : ZState), s.dev.ioDue cs 0x79 x ns n ∧ bitOf
      (x.dw 13) 8 = false ∧ x.slba % n.zoneLbas = 0 ∧ z = x.zone n ∧ st = (s.dev.zone ns z).state ∧ x.zsa = 1 ∧ (st = .implOpen
      ∨ st = .explOpen)) ∧
    (∃ (s : State) (cs : Nat) (x : CSlot) (ns : Nat) (n : Nsp) (z : Nat) (st : ZState), s.dev.ioDue cs 0x79 x ns n ∧ bitOf
      (x.dw 13) 8 = false ∧ x.slba % n.zoneLbas = 0 ∧ z = x.zone n ∧ st = (s.dev.zone ns z).state ∧ x.zsa = 1 ∧ (st = .empty ∨
      st = .full ∨ st = .readOnly ∨ st = .offline)) ∧
    (∃ (s : State) (cs : Nat) (x : CSlot) (ns : Nat) (n : Nsp) (z : Nat) (st : ZState), s.dev.ioDue cs 0x79 x ns n ∧ bitOf
      (x.dw 13) 8 = false ∧ x.slba % n.zoneLbas = 0 ∧ z = x.zone n ∧ st = (s.dev.zone ns z).state ∧ x.zsa = 2 ∧ (st = .empty ∨
      st = .implOpen ∨ st = .explOpen ∨ st = .closed)) := by
  refine ⟨?_, ?_, ?_, ?_, ?_, ?_⟩
  · exact ⟨(zall (ioc 0x79 [(1,1),(13,3)] : CSlot) : List (State)).getD 0 (State.reset), 3, ioc 0x79 [(1,1),(13,3)], 0, zn, 0,
    (zs7 : List (ZState)).getD 0 (.empty), by (repeat' apply And.intro) <;> decide +kernel⟩
  · exact ⟨(zall (ioc 0x79 [(1,1),(13,3)] : CSlot) : List (State)).getD 7 (State.reset), 3, ioc 0x79 [(1,1),(13,3)], 0, zn, 0,
    (zs7 : List (ZState)).getD 0 (.empty), by (repeat' apply And.intro) <;> decide +kernel⟩
  · exact ⟨(zall (ioc 0x79 [(1,1),(13,3)] : CSlot) : List (State)).getD 4 (State.reset), 3, ioc 0x79 [(1,1),(13,3)], 0, zn, 0,
    (zs7 : List (ZState)).getD 4 (.empty), by (repeat' apply And.intro) <;> decide +kernel⟩
  · exact ⟨(zall (ioc 0x79 [(1,1),(13,1)] : CSlot) : List (State)).getD 1 (State.reset), 3, ioc 0x79 [(1,1),(13,1)], 0, zn, 0,
    (zs7 : List (ZState)).getD 1 (.empty), by (repeat' apply And.intro) <;> decide +kernel⟩
  · exact ⟨(zall (ioc 0x79 [(1,1),(13,1)] : CSlot) : List (State)).getD 0 (State.reset), 3, ioc 0x79 [(1,1),(13,1)], 0, zn, 0,
    (zs7 : List (ZState)).getD 0 (.empty), by (repeat' apply And.intro) <;> decide +kernel⟩
  · exact ⟨(zall (ioc 0x79 [(1,1),(13,2)] : CSlot) : List (State)).getD 0 (State.reset), 3, ioc 0x79 [(1,1),(13,2)], 0, zn, 0,
    (zs7 : List (ZState)).getD 0 (.empty), by (repeat' apply And.intro) <;> decide +kernel⟩

theorem witness_ZoneActions_2 :
    (∃ (s : State) (cs : Nat) (x : CSlot) (ns : Nat) (n : Nsp) (z : Nat) (st : ZState), s.dev.ioDue cs 0x79 x ns n ∧ bitOf
      (x.dw 13) 8 = false ∧ x.slba % n.zoneLbas = 0 ∧ z = x.zone n ∧ st = (s.dev.zone ns z).state ∧ x.zsa = 2 ∧ (st = .readOnly
      ∨ st = .offline)) ∧
    (∃ (s : State) (cs : Nat) (x : CSlot) (ns : Nat) (n : Nsp) (z : Nat) (st : ZState), s.dev.ioDue cs 0x79 x ns n ∧ bitOf
      (x.dw 13) 8 = false ∧ x.slba % n.zoneLbas = 0 ∧ z = x.zone n ∧ st = (s.dev.zone ns z).state ∧ x.zsa = 4 ∧ (st = .implOpen
      ∨ st = .explOpen ∨ st = .closed ∨ st = .full)) ∧
    (∃ (s : State) (cs : Nat) (x : CSlot) (ns : Nat) (n : Nsp) (z : Nat) (st : ZState), s.dev.ioDue cs 0x79 x ns n ∧ bitOf
      (x.dw 13) 8 = false ∧ x.slba % n.zoneLbas = 0 ∧ z = x.zone n ∧ st = (s.dev.zone ns z).state ∧ x.zsa = 4 ∧ (st = .readOnly
      ∨ st = .offline)) ∧
    (∃ (s : State) (cs : Nat) (x : CSlot) (ns : Nat) (n : Nsp) (z : Nat) (st : ZState), s.dev.ioDue cs 0x79 x ns n ∧ bitOf
      (x.dw 13) 8 = false ∧ x.slba % n.zoneLbas = 0 ∧ z = x.zone n ∧ st = (s.dev.zone ns z).state ∧ x.zsa = 5 ∧ st = .readOnly) ∧
    (∃ (s : State) (cs : Nat) (x : CSlot) (ns : Nat) (n : Nsp) (z : Nat) (st : ZState), s.dev.ioDue cs 0x79 x ns n ∧ bitOf
      (x.dw 13) 8 = false ∧ x.slba % n.zoneLbas = 0 ∧ z = x.zone n ∧ st = (s.dev.zone ns z).state ∧ x.zsa = 5 ∧ (st = .empty ∨
      st = .implOpen ∨ st = .explOpen ∨ st = .closed ∨ st = .full)) := by
  refine ⟨?_, ?_, ?_, ?_, ?_⟩
  · exact ⟨(zall (ioc 0x79 [(1,1),(13,2)] : CSlot) : List (State)).getD 4 (State.reset), 3, ioc 0x79 [(1,1),(13,2)], 0, zn, 0,
    (zs7 : List (ZState)).getD 4 (.empty), by (repeat' apply And.intro) <;> decide +kernel⟩
  · exact ⟨(zall (ioc 0x79 [(1,1),(13,4)] : CSlot) : List (State)).getD 1 (State.reset), 3, ioc 0x79 [(1,1),(13,4)], 0, zn, 0,
    (zs7 : List (ZState)).getD 1 (.empty), by (repeat' apply And.intro) <;> decide +kernel⟩
  · exact ⟨(zall (ioc 0x79 [(1,1),(13,4)] : CSlot) : List (State)).getD 4 (State.reset), 3, ioc 0x79 [(1,1),(13,4)], 0, zn, 0,
    (zs7 : List (ZState)).getD 4 (.empty), by (repeat' apply And.intro) <;> decide +kernel⟩
  · exact ⟨(zall (ioc 0x79 [(1,1),(13,5)] : CSlot) : List (State)).getD 4 (State.reset), 3, ioc 0x79 [(1,1),(13,5)], 0, zn, 0,
    (zs7 : List (ZState)).getD 4 (.empty), by (repeat' apply And.intro) <;> decide +kernel⟩
  · exact ⟨(zall (ioc 0x79 [(1,1),(13,5)] : CSlot) : List (State)).getD 0 (State.reset), 3, ioc 0x79 [(1,1),(13,5)], 0, zn, 0,
    (zs7 : List (ZState)).getD 0 (.empty), by (repeat' apply And.intro) <;> decide +kernel⟩

theorem witness_ZoneReportsAndPlacement :
    (∃ (s : State) (cs : Nat) (x : CSlot) (ns : Nat) (n : Nsp) (zs : List Nat), s.dev.ioDue cs 0x7A x ns n ∧ bitsOf (x.dw 13)
      15 8 ≤ 7 ∧ zs = (List.range n.zones).filter (fun z => decide (x.slba / max 1 n.zoneLbas ≤ z) && reported (bitsOf (x.dw
      13) 15 8) (s.dev.zone ns z).state)) ∧
    (∃ (s : State) (cs : Nat) (x : CSlot) (ns : Nat) (n : Nsp), s.dev.ioDue cs 0x12 x ns n) ∧
    (∃ (s : State) (cs : Nat) (x : CSlot) (ns : Nat) (n : Nsp) (bytes : List Byte) (f : Nat), s.dev.ioDue cs 0x1D x ns n ∧
      bitsOf (x.dw 10) 31 16 = 0 ∧ bitsOf (fieldAt bytes 0 2) 15 12 = n.quire ∧ bitsOf (fieldAt bytes 0 2) 11 8 = 0 ∧ bitsOf
      (fieldAt bytes 0 2) 7 0 < n.handles.length ∧ s.dev.boundFurrow 2 n.quire none ((n.handles[bitsOf (fieldAt bytes 0 2) 7
      0]?).getD 0 + 256 * n.quire) = some f ∧ (s.dev.furrow f).staged ≠ []) ∧
    (∃ (s : State) (cs : Nat) (x : CSlot) (ns : Nat) (n : Nsp) (bytes : List Byte), s.dev.ioDue cs 0x1D x ns n ∧ bitsOf (x.dw
      10) 31 16 = 0 ∧ bitsOf (fieldAt bytes 0 2) 15 12 ≠ n.quire) := by
  refine ⟨?_, ?_, ?_, ?_⟩
  · exact ⟨hz [.empty, .implOpen, .full] (ioc 0x7A [(1,1),(12,63)] : CSlot), 3, ioc 0x7A [(1,1),(12,63)], 0, zn, (List.range
    zn.zones).filter (fun z => decide ((ioc 0x7A [(1,1),(12,63)] : CSlot).slba / max 1 zn.zoneLbas ≤ z) && reported (bitsOf
    ((ioc 0x7A [(1,1),(12,63)] : CSlot).dw 13) 15 8) ((hz [.empty, .implOpen, .full] (ioc 0x7A [(1,1),(12,63)] : CSlot) :
    State).dev.zone 0 z).state), by (repeat' apply And.intro) <;> decide +kernel⟩
  · exact ⟨hwf (fun d => {d with tc := {d.tc with nss := [(0,fd)]}}) (ioc 0x12 [(1,1),(10,1),(11,50)] : CSlot), 3, ioc 0x12
    [(1,1),(10,1),(11,50)], 0, fd, by (repeat' apply And.intro) <;> decide +kernel⟩
  · exact ⟨hwf (fun d =>
    {d with tc := {d.tc with nss := [(0,fd)], furrows := [(80, {fur 2 with binding := 4, staged := [⟨0,0,5,1,1,0⟩]})]}}) (ioc
    0x1D [(1,1),(10,1)] : CSlot), 3, ioc 0x1D [(1,1),(10,1)], 0, fd, [1,0], (((hwf (fun d =>
    {d with tc := {d.tc with nss := [(0,fd)], furrows := [(80, {fur 2 with binding := 4, staged := [⟨0,0,5,1,1,0⟩]})]}}) (ioc
    0x1D [(1,1),(10,1)] : CSlot) : State).dev.boundFurrow 2 fd.quire none ((fd.handles[bitsOf (fieldAt ([1,0] : List Byte) 0 2)
    7 0]?).getD 0 + 256 * fd.quire)).getD 0), by (repeat' apply And.intro) <;> decide +kernel⟩
  · exact ⟨hwf (fun d =>
    {d with tc := {d.tc with nss := [(0,fd)], furrows := [(80, {fur 2 with binding := 4, staged := [⟨0,0,5,1,1,0⟩]})]}}) (ioc
    0x1D [(1,1),(10,1)] : CSlot), 3, ioc 0x1D [(1,1),(10,1)], 0, fd,
    [0,0x10], by (repeat' apply And.intro) <;> decide +kernel⟩

end IoSide


/-! ### ColSide -/

namespace ColSide

def ent (first count ns kind tag : Nat) : CEnt := ⟨rangeKey first count ns kind tag 0 false, 0, BitVec.ofNat 64 (0x01000000 + 2^32 * first)⟩

def genE (k : Nat) : CEnt := ⟨BitVec.ofNat 192 (k + 2^100), 0xF, 77⟩

def colD (c : Col) : Col := { c with rng := [(2, ent 100 8 0 0 5), (4, ent 104 8 0 0 6), (7, ent 104 2 0 0 7), (9, {ent 300 2 0 0 8 with key := rangeKey 300 2 0 0 8 0 true})], gen := [(0, genE 16), (1, genE 17), (2048, genE 400)], cls := [(0, genE 3)], zone := [(0, genE 5)], flips := [(65536 + 4, 1), (65536*3, 2), (65536+2, 2^40)], walk := some (1, rangeKey 104 1 0 0 0 0 false, 2), z := 2, tz := 2, g := 2, tg := 2 }

def wkey (k : BitVec 192) (m : BitVec 192) (d : Dev) : Dev := (List.range 6).foldl (fun d i => (d.setCsr (aColKey + 4*i) ((k >>> (32*i)).truncate 32)).setCsr (aColMask + 4*i) ((m >>> (32*i)).truncate 32)) d

def cw (k m : BitVec 192) (idx : Nat) : State := (hw.d fun d => { d with col := colD d.col }).d fun d => (wkey k m d).setCsr aColIdx (BitVec.ofNat 32 idx)

def ks : List (BitVec 192) := [rangeKey 104 1 0 0 0 0 false, rangeKey 101 1 0 0 0 0 false, rangeKey 300 1 0 0 0 0 false, rangeKey 5000 1 0 0 0 0 false, (genE 16).key, (genE 5).key, (genE 3).key, 0]

def cws : List State := ks.flatMap (fun k => [0, walkMask, 1].flatMap (fun m => [0, 1, 2, 4, 2048, 5000].map (fun i => cw k m i))) ++ [(cw 0 0 0).d fun d => { d with col := { d.col with walk := some (1, rangeKey 104 1 0 0 0 0 false, 7) } }, (cw 0 walkMask 0).d fun d => { d with col := { d.col with walk := some (1, rangeKey 104 1 0 0 0 0 false, 7) } }, (cw 0 0 0).d fun d => { d with col := { d.col with cls := (List.range 1024).map (fun k => (k, genE k)) } }]

def gs (op : Nat) : List W32 := (List.range 4).map (fun g => BitVec.ofNat 32 (op + 16 * g + 256))

def cfx (f : Col → Col) (x : CSlot) : State := hwf (fun d => { d with col := f (colD d.col) }) x

theorem witness_CollationWindow_1 :
    (∃ (s : State) (v : W32) (g : Nat), s.dev.domReady 2 = true ∧ bitOf v.toNat 8 = true ∧ bitsOf v.toNat 5 4 = g ∧
      (s.dev.col.tiles g).2 ≠ 0 ∧ bitsOf v.toNat 3 0 = 1 ∧ s.dev.col.hits g (s.dev.winWord aColKey) (s.dev.winWord aColMask) =
      []) ∧
    (∃ (s : State) (v : W32) (g : Nat) (x : Nat × CEnt) (l : List (Nat × CEnt)), s.dev.domReady 2 = true ∧ bitOf v.toNat 8 =
      true ∧ bitsOf v.toNat 5 4 = g ∧ (s.dev.col.tiles g).2 ≠ 0 ∧ bitsOf v.toNat 3 0 = 1 ∧ s.dev.col.hits g (s.dev.winWord
      aColKey) (s.dev.winWord aColMask) = x :: l) ∧
    (∃ (s : State) (v : W32) (g : Nat) (q : BitVec 192) (i : Nat), s.dev.domReady 2 = true ∧ bitOf v.toNat 8 = true ∧ bitsOf
      v.toNat 5 4 = g ∧ (s.dev.col.tiles g).2 ≠ 0 ∧ bitsOf v.toNat 3 0 = 2 ∧ g = 1 ∧ s.dev.col.walk = some (1, q, i) ∧
      (s.dev.col.hits 1 q (s.dev.winWord aColMask)).filter (fun x => decide (i < x.1)) = []) ∧
    (∃ (s : State) (v : W32) (g : Nat) (q : BitVec 192) (i : Nat) (x : Nat × CEnt) (l : List (Nat × CEnt)), s.dev.domReady 2 =
      true ∧ bitOf v.toNat 8 = true ∧ bitsOf v.toNat 5 4 = g ∧ (s.dev.col.tiles g).2 ≠ 0 ∧ bitsOf v.toNat 3 0 = 2 ∧ g = 1 ∧
      s.dev.col.walk = some (1, q, i) ∧ (s.dev.col.hits 1 q (s.dev.winWord aColMask)).filter (fun x => decide (i < x.1)) = x ::
      l) ∧
    (∃ (s : State) (v : W32) (g : Nat), s.dev.domReady 2 = true ∧ bitOf v.toNat 8 = true ∧ bitsOf v.toNat 5 4 = g ∧
      (s.dev.col.tiles g).2 ≠ 0 ∧ bitsOf v.toNat 3 0 = 2 ∧ g ≠ 1) ∧
    (∃ (s : State) (v : W32) (g i : Nat), s.dev.domReady 2 = true ∧ bitOf v.toNat 8 = true ∧ bitsOf v.toNat 5 4 = g ∧
      (s.dev.col.tiles g).2 ≠ 0 ∧ bitsOf v.toNat 3 0 = 3 ∧ (g = 0 ∨ g = 3) ∧ s.dev.col.freeIdx g = some i) := by
  refine ⟨?_, ?_, ?_, ?_, ?_, ?_⟩
  · exact ⟨(cws : List (State)).getD 0 (State.reset), (gs 1 : List (W32)).getD 0 (0), bitsOf ((gs 1 : List (W32)).getD 0 (0) :
    W32).toNat 5 4, by (repeat' apply And.intro) <;> decide +kernel⟩
  · exact ⟨(cws : List (State)).getD 6 (State.reset), (gs 1 : List (W32)).getD 1 (0), bitsOf ((gs 1 : List (W32)).getD 1 (0) :
    W32).toNat 5 4, ((((cws : List (State)).getD 6 (State.reset) : State).dev.col.hits (bitsOf ((gs 1 : List (W32)).getD 1 (0)
    : W32).toNat 5 4 : Nat) (((cws : List (State)).getD 6 (State.reset) : State).dev.winWord aColKey) (((cws : List
    (State)).getD 6 (State.reset) : State).dev.winWord aColMask)).head?).getD (0, genE 0), (((cws : List (State)).getD 6
    (State.reset) : State).dev.col.hits (bitsOf ((gs 1 : List (W32)).getD 1 (0) : W32).toNat 5 4 : Nat) (((cws : List
    (State)).getD 6 (State.reset) : State).dev.winWord aColKey) (((cws : List (State)).getD 6 (State.reset) :
    State).dev.winWord aColMask)).tail, by (repeat' apply And.intro) <;> decide +kernel⟩
  · exact ⟨(cws : List (State)).getD 0 (State.reset), (gs 2 : List (W32)).getD 1 (0), bitsOf ((gs 2 : List (W32)).getD 1 (0) :
    W32).toNat 5 4, (((cws : List (State)).getD 0 (State.reset) : State).dev.col.walk.getD (0,0,0)).2.1, (((cws : List
    (State)).getD 0 (State.reset) : State).dev.col.walk.getD (0,0,0)).2.2, by (repeat' apply And.intro) <;> decide +kernel⟩
  · exact ⟨(cws : List (State)).getD 6 (State.reset), (gs 2 : List (W32)).getD 1 (0), bitsOf ((gs 2 : List (W32)).getD 1 (0) :
    W32).toNat 5 4, (((cws : List (State)).getD 6 (State.reset) : State).dev.col.walk.getD (0,0,0)).2.1, (((cws : List
    (State)).getD 6 (State.reset) : State).dev.col.walk.getD (0,0,0)).2.2, (((((cws : List (State)).getD 6 (State.reset) :
    State).dev.col.hits 1 ((((cws : List (State)).getD 6 (State.reset) : State).dev.col.walk.getD (0,0,0)).2.1 : BitVec 192)
    (((cws : List (State)).getD 6 (State.reset) : State).dev.winWord aColMask)).filter (fun x => decide (((((cws : List
    (State)).getD 6 (State.reset) : State).dev.col.walk.getD (0,0,0)).2.2 : Nat) < x.1))).head?).getD (0, genE 0), ((((cws :
    List (State)).getD 6 (State.reset) : State).dev.col.hits 1 ((((cws : List (State)).getD 6 (State.reset) :
    State).dev.col.walk.getD (0,0,0)).2.1 : BitVec 192) (((cws : List (State)).getD 6 (State.reset) : State).dev.winWord
    aColMask)).filter (fun x => decide (((((cws : List (State)).getD 6 (State.reset) : State).dev.col.walk.getD (0,0,0)).2.2 :
    Nat) < x.1))).tail, by (repeat' apply And.intro) <;> decide +kernel⟩
  · exact ⟨(cws : List (State)).getD 0 (State.reset), (gs 2 : List (W32)).getD 0 (0), bitsOf ((gs 2 : List (W32)).getD 0 (0) :
    W32).toNat 5 4, by (repeat' apply And.intro) <;> decide +kernel⟩
  · exact ⟨(cws : List (State)).getD 0 (State.reset), (gs 3 : List (W32)).getD 0 (0), bitsOf ((gs 3 : List (W32)).getD 0 (0) :
    W32).toNat 5 4, (((cws : List (State)).getD 0 (State.reset) : State).dev.col.freeIdx (bitsOf ((gs 3 : List (W32)).getD 0
    (0) : W32).toNat 5 4 : Nat)).getD 0, by (repeat' apply And.intro) <;> decide +kernel⟩

theorem witness_CollationWindow_2 :
    (∃ (s : State) (v : W32) (g : Nat), s.dev.domReady 2 = true ∧ bitOf v.toNat 8 = true ∧ bitsOf v.toNat 5 4 = g ∧
      (s.dev.col.tiles g).2 ≠ 0 ∧ (g = 1 ∨ g = 2) ∧ bitsOf v.toNat 3 0 = 3) ∧
    (∃ (s : State) (v : W32) (g : Nat), s.dev.domReady 2 = true ∧ bitOf v.toNat 8 = true ∧ bitsOf v.toNat 5 4 = g ∧
      (s.dev.col.tiles g).2 ≠ 0 ∧ (g = 1 ∨ g = 2) ∧ bitsOf v.toNat 3 0 = 4) ∧
    (∃ (s : State) (v : W32) (g : Nat), s.dev.domReady 2 = true ∧ bitOf v.toNat 8 = true ∧ bitsOf v.toNat 5 4 = g ∧
      (s.dev.col.tiles g).2 ≠ 0 ∧ (g = 1 ∨ g = 2) ∧ bitsOf v.toNat 3 0 = 6) ∧
    (∃ (s : State) (v : W32) (g i : Nat), s.dev.domReady 2 = true ∧ bitOf v.toNat 8 = true ∧ bitsOf v.toNat 5 4 = g ∧
      (s.dev.col.tiles g).2 ≠ 0 ∧ s.dev.reg aColIdx 15 0 = i ∧ s.dev.col.idxOk g i = true ∧ bitsOf v.toNat 3 0 = 4 ∧ (g = 0 ∨ g
      = 3)) ∧
    (∃ (s : State) (v : W32) (g i : Nat) (e : CEnt), s.dev.domReady 2 = true ∧ bitOf v.toNat 8 = true ∧ bitsOf v.toNat 5 4 = g
      ∧ (s.dev.col.tiles g).2 ≠ 0 ∧ s.dev.reg aColIdx 15 0 = i ∧ s.dev.col.idxOk g i = true ∧ bitsOf v.toNat 3 0 = 5 ∧
      (s.dev.col.grp g).get? i = some e) ∧
    (∃ (s : State) (v : W32) (g i : Nat), s.dev.domReady 2 = true ∧ bitOf v.toNat 8 = true ∧ bitsOf v.toNat 5 4 = g ∧
      (s.dev.col.tiles g).2 ≠ 0 ∧ s.dev.reg aColIdx 15 0 = i ∧ s.dev.col.idxOk g i = true ∧ bitsOf v.toNat 3 0 = 6 ∧ (g = 0 ∨ g
      = 3)) := by
  refine ⟨?_, ?_, ?_, ?_, ?_, ?_⟩
  · exact ⟨(cws : List (State)).getD 0 (State.reset), (gs 3 : List (W32)).getD 1 (0), bitsOf ((gs 3 : List (W32)).getD 1 (0) :
    W32).toNat 5 4, by (repeat' apply And.intro) <;> decide +kernel⟩
  · exact ⟨(cws : List (State)).getD 0 (State.reset), (gs 4 : List (W32)).getD 1 (0), bitsOf ((gs 4 : List (W32)).getD 1 (0) :
    W32).toNat 5 4, by (repeat' apply And.intro) <;> decide +kernel⟩
  · exact ⟨(cws : List (State)).getD 0 (State.reset), (gs 6 : List (W32)).getD 1 (0), bitsOf ((gs 6 : List (W32)).getD 1 (0) :
    W32).toNat 5 4, by (repeat' apply And.intro) <;> decide +kernel⟩
  · exact ⟨(cws : List (State)).getD 0 (State.reset), (gs 4 : List (W32)).getD 0 (0), bitsOf ((gs 4 : List (W32)).getD 0 (0) :
    W32).toNat 5 4, ((cws : List (State)).getD 0 (State.reset) : State).dev.reg aColIdx 15
    0, by (repeat' apply And.intro) <;> decide +kernel⟩
  · exact ⟨(cws : List (State)).getD 0 (State.reset), (gs 5 : List (W32)).getD 0 (0), bitsOf ((gs 5 : List (W32)).getD 0 (0) :
    W32).toNat 5 4, ((cws : List (State)).getD 0 (State.reset) : State).dev.reg aColIdx 15 0, ((((cws : List (State)).getD 0
    (State.reset) : State).dev.col.grp (bitsOf ((gs 5 : List (W32)).getD 0 (0) : W32).toNat 5 4 : Nat)).get? (((cws : List
    (State)).getD 0 (State.reset) : State).dev.reg aColIdx 15 0 : Nat)).getD (genE
    0), by (repeat' apply And.intro) <;> decide +kernel⟩
  · exact ⟨(cws : List (State)).getD 0 (State.reset), (gs 6 : List (W32)).getD 0 (0), bitsOf ((gs 6 : List (W32)).getD 0 (0) :
    W32).toNat 5 4, ((cws : List (State)).getD 0 (State.reset) : State).dev.reg aColIdx 15
    0, by (repeat' apply And.intro) <;> decide +kernel⟩

theorem witness_CollationWindow_3 :
    ∃ (s : State) (v : W32) (g i : Nat), s.dev.domReady 2 = true ∧ bitOf v.toNat 8 = true ∧ bitsOf v.toNat 5 4 = g ∧
      (s.dev.col.tiles g).2 ≠ 0 ∧ s.dev.reg aColIdx 15 0 = i ∧ s.dev.col.idxOk g i = false ∧ bitsOf v.toNat 3 0 = 5 :=
  ⟨(cws : List (State)).getD 4 (State.reset), (gs 5 : List (W32)).getD 0 (0), bitsOf ((gs 5 : List (W32)).getD 0 (0) :
    W32).toNat 5 4, ((cws : List (State)).getD 4 (State.reset) : State).dev.reg aColIdx 15
    0, by (repeat' apply And.intro) <;> decide +kernel⟩

theorem witness_CollationUpkeep_1 :
    (∃ (s : State) (v : W32), s.dev.domReady 2 = true ∧ bitsOf v.toNat 8 2 ≤ 95 ∧ bitOf v.toNat 1 = true ∧ (s.dev.col.grp
      (s.dev.reg aColCmd 5 4)).has (s.dev.reg aColIdx 15 0) = true) ∧
    (∃ (s : State) (v : W32), s.dev.domReady 2 = true ∧ 95 < bitsOf v.toNat 8 2) ∧
    (∃ (s : State) (v : W32), s.dev.domReady 2 = true ∧ bitsOf v.toNat 4 3 ≠ 3) ∧
    (∃ (s : State) (v : W32), s.dev.domReady 2 = true ∧ bitsOf v.toNat 4 3 = 3) ∧
    (∃ (s : State) (k : Nat), bitOf (s.dev.csrW aColCtrl).toNat 0 = true ∧ s.dev.domReady (5 + k / 16) = true) ∧
    (∃ (s : State), bitOf (s.dev.csrW aColCtrl).toNat 0 = false) := by
  refine ⟨?_, ?_, ?_, ?_, ?_, ?_⟩
  · exact ⟨(cw 0 0 2).d (fun d => d.setCsr aColCmd 16), 2, by (repeat' apply And.intro) <;> decide +kernel⟩
  · exact ⟨cw 0 0 4, 4 * 96, by (repeat' apply And.intro) <;> decide +kernel⟩
  · exact ⟨cw 0 0 4, 0, by (repeat' apply And.intro) <;> decide +kernel⟩
  · exact ⟨cw 0 0 4, 24, by (repeat' apply And.intro) <;> decide +kernel⟩
  · exact ⟨(cw 0 0 4).d (fun d => d.setCsr aColCtrl 1), 0, by (repeat' apply And.intro) <;> decide +kernel⟩
  · exact ⟨(cw 0 0 4).d (fun d => d.setCsr aColCtrl 0), by decide +kernel⟩

theorem witness_CollationUpkeep_2 :
    (∃ (s : State) (tag i : Nat) (e : CEnt), (s.dev.col.rng.filter (fun x => decide (x.2.tag = tag))) = [(i, e)] ∧ e.pending =
      false ∧ s.dev.unitsLeft [tag] = false ∧ s.dev.col.remWait = [] ∧ s.dev.col.blockedBy tag = false) ∧
    (∃ (s : State) (cs tag : Nat) (x : CSlot), s.dev.hg.slots.get? cs = some x ∧ x.reads = true ∧ x.tags.contains tag = true ∧
      x.units.all (fun u => (decide (u.src ≠ 1) && decide (u.src ≠ 2)) || !(s.dev.usesTag u tag)) = true) := by
  refine ⟨?_, ?_⟩
  · exact ⟨cw 0 0 4, 7, ((((cw 0 0 4 : State).dev.col.rng.find? (fun x => x.2.tag = 7)).map (·.1)).getD 0), ((((cw 0 0 4 :
    State).dev.col.rng.find? (fun x => x.2.tag = 7)).map (·.2)).getD (genE
    0)), by (repeat' apply And.intro) <;> decide +kernel⟩
  · exact ⟨cfx (fun c => {c with readers := [(7,1),(5,255)], dying := [(7,[0x01000000])]}) ({ioc 2 [] with tags := [7,5]} :
    CSlot), 3, 5, {ioc 2 [] with tags := [7,5]}, by (repeat' apply And.intro) <;> decide +kernel⟩

end ColSide


/-! ### ReadSide -/

namespace ReadSide

def lr (f : LeafRead → LeafRead) : LeafRead := f { LeafRead.fresh 3 0 1 5 0 with }

def wr (r : LeafRead) (f : Dev → Dev) (x : CSlot) : State := hwf (fun d => f { d with rp := { d.rp with reads := [(7, r)], nextRid := 8 } }) x

def vrf (src : Nat) : CSlot := { ioc 0x0C [(1,1),(10,5),(12,0)] with units := [⟨5, src, 0, 7, []⟩] }

def rdx (src : Nat) : CSlot := { ioc 2 [(1,1),(10,5),(12,0)] with units := [⟨5, src, 0, 7, []⟩] }

def mp (e : MapEntry) (dul : Bool) (d : Dev) : Dev := { d with tc := { d.tc with map := [(mapKey 0 5, e)] }, adm := d.adm }

def dieS (y : Die) (f : Dev → Dev) (x : CSlot) : State := hwf (fun d => f { d with rp := { d.rp with dies := [(64 * 2 + 1, y)] } }) x

def dq : LeafRead := lr fun r => { r with walked := true, units := [(5, 2)], pua := mkPua 2 0 0, path := .direct, deadline := some (10^12 + 500000), startAt := 10 ^ 12 - 10000 }

def frm : Frame := ⟨5, 0, BitVec.ofNat 256 (1 + 2 ^ 16 * 512 + 2 ^ 64 * 5 + 2 ^ 216), 9⟩

def cwr (c : CwSt) (f : LeafRead → LeafRead) : LeafRead := f (lr fun r => { r with walked := true, units := [(5, 2)], pua := mkPua 2 0 0, path := .direct, cws := [(2, c)] })

def lOk (d : Dev) : Dev := { d with gl := { d.gl with links := [(2, {linkA with auth := 1})] } }

def held0 : Grant := ⟨{ OpReq.bare .progQlc 2 1 .freshFill with count := 1 }, 10, .general, false⟩

theorem witness_MapWalks :
    (∃ (s : State) (rid cs iu u : Nat) (r : LeafRead) (x : CSlot), s.dev.leafRead rid = some r ∧ r.walked = false ∧ r.cs = some
      cs ∧ r.units = [(iu, u)] ∧ r.peers = [] ∧ rid < s.dev.rp.nextRid ∧ s.dev.rp.reads.all (fun y => decide (y.2.cs ≠ some cs)
      || decide (y.1 = rid)) = true ∧ s.dev.walk r.ns iu = .lost ∧ s.dev.postable cs x ∧ x.tags = []) ∧
    (∃ (s : State) (rid cs iu u : Nat) (r : LeafRead) (x : CSlot), s.dev.leafRead rid = some r ∧ r.walked = false ∧ r.cs = some
      cs ∧ r.units = [(iu, u)] ∧ r.peers = [] ∧ rid < s.dev.rp.nextRid ∧ s.dev.rp.reads.all (fun y => decide (y.2.cs ≠ some cs)
      || decide (y.1 = rid)) = true ∧ (s.dev.walk r.ns iu = .unwritten ∨ s.dev.walk r.ns iu = .dealloc) ∧ s.dev.dulbe r.ns =
      false ∧ s.dev.postable cs x ∧ x.opcode = 0x0C ∧ x.units.all (fun y => decide (y.iu = iu) || decide (y.src = 4)) = true) ∧
    (∃ (s : State) (rid cs iu u : Nat) (r : LeafRead) (x : CSlot), s.dev.leafRead rid = some r ∧ r.walked = false ∧ r.cs = some
      cs ∧ r.units = [(iu, u)] ∧ r.peers = [] ∧ rid < s.dev.rp.nextRid ∧ s.dev.rp.reads.all (fun y => decide (y.2.cs ≠ some cs)
      || decide (y.1 = rid)) = true ∧ (s.dev.walk r.ns iu = .unwritten ∨ s.dev.walk r.ns iu = .dealloc) ∧ s.dev.dulbe r.ns =
      true ∧ s.dev.postable cs x ∧ x.tags = []) ∧
    (∃ (s : State) (rid cs iu u : Nat) (r : LeafRead) (p : Nat), s.dev.leafRead rid = some r ∧ r.walked = false ∧ r.cs = some
      cs ∧ r.units = [(iu, u)] ∧ r.peers = [] ∧ rid < s.dev.rp.nextRid ∧ s.dev.rp.reads.all (fun y => decide (y.2.cs ≠ some cs)
      || decide (y.1 = rid)) = true ∧ s.dev.walk r.ns iu = .mapped p) := by
  refine ⟨?_, ?_, ?_, ?_⟩
  · exact ⟨wr (LeafRead.fresh 3 0 1 5 0 : LeafRead) (mp .lost false) (rdx 0 : CSlot), 7, 3, 5, 0, LeafRead.fresh 3 0 1 5 0, rdx
    0, by (repeat' apply And.intro) <;> decide +kernel⟩
  · exact ⟨wr (LeafRead.fresh 3 0 1 5 0 : LeafRead) (mp .unwritten false) (vrf 0 : CSlot), 7, 3, 5, 0, LeafRead.fresh 3 0 1 5
    0, vrf 0, by (repeat' apply And.intro) <;> decide +kernel⟩
  · exact ⟨wr (LeafRead.fresh 3 0 1 5 0 : LeafRead) (fun d =>
    { mp .dealloc true d with adm := { d.adm with feats := [(nsFeat 0x05 0, 0x10000)] } }) (rdx 0 : CSlot), 7, 3, 5, 0,
    LeafRead.fresh 3 0 1 5 0, rdx 0, by (repeat' apply And.intro) <;> decide +kernel⟩
  · exact ⟨wr (LeafRead.fresh 3 0 1 5 0 : LeafRead) (mp (.mapped (mkPua 2 5 1 : Nat)) false) (rdx 0 : CSlot), 7, 3, 5, 0,
    LeafRead.fresh 3 0 1 5 0, mkPua 2 5 1, by (repeat' apply And.intro) <;> decide +kernel⟩

theorem witness_ReadPathTimers_1 :
    (∃ (s : State) (rid : Nat) (r : LeafRead), s.dev.leafRead rid = some r ∧ r.walked = true ∧ r.path = .direct ∧ r.issued =
      false ∧ r.redecided = false ∧ r.parent = none ∧ r.deadline.isSome = true ∧ r.peers = [] ∧ rid < s.dev.rp.nextRid ∧
      s.dev.dieBusy (puaSlot r.pua) (s.dev.dieOfPua r.pua) = true ∧ r.startAt + 10000 ≤ s.dev.now) ∧
    (∃ (s : State) (k j : Nat), (s.dev.die k j).susp = true ∧ (s.dev.die k j).susTag = none ∧ (s.dev.die k j).susAt + 10000 *
      s.dev.reg aRpCtrl 15 8 ≤ s.dev.now) ∧
    (∃ (s : State) (k j : Nat), (s.dev.die k j).susp = true ∧ s.dev.now < (s.dev.die k j).susAt + 10000 * s.dev.reg aRpCtrl 15
      8) ∧
    (∃ (s : State) (n : Nat) (g : Grant), s.dev.slu.defer.any (fun x => decide (x.gid = n)) = true ∧ s.dev.slu.held.get? n =
      some g ∧ (s.dev.die g.req.slot g.req.die).hold = none ∧ (s.dev.link g.req.slot).opsOk = true) ∧
    (∃ (s : State) (k j t0 : Nat), (s.dev.die k j).firstAt = some t0 ∧ t0 + 60000000000 ≤ s.dev.now) ∧
    (∃ (s : State) (k j t0 : Nat), (s.dev.die k j).firstAt = some t0 ∧ s.dev.now < t0 + 60000000000) := by
  refine ⟨?_, ?_, ?_, ?_, ?_, ?_⟩
  · exact ⟨(([{Die.reset with hold := some 1, kind := .progQlc}, {Die.reset with hold := some 1, kind := .erase, warm := true},
    {Die.reset with hold := some 1, kind := .erase, reads := [⟨10, some 7, true, none, false⟩]},
    {Die.reset with failed := true, hold := some 2}].flatMap (fun y => [64*2+0, 64*2+1].flatMap (fun kk => [true, false].map
    (fun b => wr dq (fun d => (if b then (fun d =>
    {d with gl := {d.gl with links := d.gl.links.ins 2 {linkA with st := .recovery}}}) else id)
    ({ d with rp := { d.rp with dies := [(kk, y)] } } : Dev)) (rdx 0))))) : List (State)).getD 0 (State.reset), 7,
    dq, by (repeat' apply And.intro) <;> decide +kernel⟩
  · exact ⟨dieS {Die.reset with susp := true, hold := some 1, kind := .erase} id slot0, 2,
    1, by (repeat' apply And.intro) <;> decide +kernel⟩
  · exact ⟨dieS {Die.reset with susp := true, hold := some 1, susAt := 10^12} (fun d => d.setCsr aRpCtrl 0xFFFF) slot0, 2,
    1, by (repeat' apply And.intro) <;> decide +kernel⟩
  · exact ⟨hwf (fun d => lOk {d with slu := {d.slu with defer := [⟨4,0⟩], held := [(4, held0)]}}) slot0, 4,
    held0, by (repeat' apply And.intro) <;> decide +kernel⟩
  · exact ⟨dieS {Die.reset with firstAt := some 0} id slot0, 2, 1, 0, by (repeat' apply And.intro) <;> decide +kernel⟩
  · exact ⟨dieS {Die.reset with firstAt := some (10^12 - 1 : Nat)} id slot0, 2, 1, 10^12 -
    1, by (repeat' apply And.intro) <;> decide +kernel⟩

theorem witness_ReadPathTimers_2 :
    ∃ (s : State) (q : Nat) (x : Quire), s.dev.quire q = some x ∧ x.strict = true :=
  ⟨hwf (fun d =>
    {d with quires := [(0, ({quire0 with strict := true, active := true, winReads := [(512, 120)], winUnits := 3} : Quire))]})
    slot0, 0,
    {quire0 with strict := true, active := true, winReads := [(512, 120)], winUnits := 3}, by (repeat' apply And.intro) <;> decide +kernel⟩

theorem witness_DecodesAndReconstructions :
    ∃ (s : State) (rid cw cs iu : Nat) (r : LeafRead) (c : CwSt) (x : DecodeIn), s.dev.leafRead rid = some r ∧ r.cws = [(cw,
      c)] ∧ c.passed = false ∧ r.cs = some cs ∧ r.parent = none ∧ r.units = [(iu, cw)] ∧ c.rung = .hard ∧ c.need = 0 ∧ x.frame
      = none ∧ (1 < r.cls ∨ bitOf (s.dev.csrW aLadderCtrl).toNat 1 = false) :=
  ⟨wr (cwr ({CwSt.fresh with need := 0} : CwSt) (fun r => {r with cls := 3}) : LeafRead) id (rdx 2), 7, 2, 3, 5, cwr
    ({CwSt.fresh with need := 0} : CwSt) (fun r => {r with cls := 3}), {CwSt.fresh with need := 0}, ⟨none, 5, [],
    []⟩, by (repeat' apply And.intro) <;> decide +kernel⟩

theorem witness_DecodesAndReconstructions_pass (hg : ∀ a b c e f g i, Config.gmac a b c e f g i = 9) (ho : ∀ t x, Config.hdrOpen t x = x) :
    (∃ (s : State) (rid cw cs iu : Nat) (r : LeafRead) (c : CwSt) (x : DecodeIn) (f : Frame) (y : CSlot) (n : Nsp),
      s.dev.leafRead rid = some r ∧ r.cws = [(cw, c)] ∧ c.passed = false ∧ r.cs = some cs ∧ r.parent = none ∧ r.units = [(iu, cw)]
      ∧ c.rung = .hard ∧ c.need = 0 ∧ x.frame = some f ∧ r.peers = [] ∧ bitOf (s.dev.csrW aLadderCtrl).toNat 0 = false
      ∧ s.dev.checkCw r cw f = 0 ∧ s.dev.postable cs y ∧ y.opcode = 2 ∧ y.tags = []
      ∧ y.units.all (fun u => decide (u.iu = iu) || decide (u.src = 4)) = true
      ∧ y.units.all (fun u => decide (u.newer = [])) = true ∧ s.dev.nsp r.ns = some n
      ∧ y.piStatus n iu (leBytes 4096 (s.dev.openUnit f r.ns iu n.keyGen).1.toNat)
          (leBytes 64 (s.dev.openUnit f r.ns iu n.keyGen).2.toNat) = none) ∧
    (∃ (s : State) (rid cw cs iu : Nat) (r : LeafRead) (c : CwSt) (f : Frame) (y : CSlot) (n : Nsp),
      s.dev.leafRead rid = some r ∧ r.cws = [(cw, c)] ∧ c.passed = false ∧ r.cs = some cs ∧ r.parent = none ∧ r.units = [(iu, cw)]
      ∧ c.rung = .recon ∧ c.early = false ∧ c.failed = false
      ∧ (r.peers.filterMap s.dev.leafRead).any (fun p => p.cwList.contains cw) = true
      ∧ (r.peers.filterMap s.dev.leafRead).all (fun p => !(p.cwList.contains cw) || ((p.cws.get? cw).map (·.passed)).getD false) = true
      ∧ s.dev.checkCw r cw f = 0 ∧ s.dev.postable cs y ∧ y.opcode = 2 ∧ y.tags = []
      ∧ y.units.all (fun u => decide (u.iu = iu) || decide (u.src = 4)) = true
      ∧ y.units.all (fun u => decide (u.newer = [])) = true ∧ s.dev.nsp r.ns = some n
      ∧ y.piStatus n iu (leBytes 4096 (s.dev.openUnit f r.ns iu n.keyGen).1.toNat)
          (leBytes 64 (s.dev.openUnit f r.ns iu n.keyGen).2.toNat) = none) := by
  let c0 : CwSt := { CwSt.fresh with need := 0 }
  let r1 : LeafRead := cwr { c0 with rung := .recon } (fun r => { r with peers := [8, 9], path := .around })
  let peer (rank : Nat) : LeafRead := { cwr { CwSt.fresh with passed := true, frame := some frm } id with
    cs := none, parent := some 7, pua := mkPua rank 0 0, units := [(0, 2)] }
  refine ⟨⟨(wr (cwr c0 id) id (rdx 2)).d fun d => d.setCsr aLadderCtrl 2, 7, 2, 3, 5, cwr c0 id, c0, ⟨some frm, 5, [], []⟩, frm, rdx 2, ns0, ?_⟩,
    ⟨(wr r1 id (rdx 2)).d fun d => { d with rp := { d.rp with nextRid := 12, reads := [(7, r1), (8, peer 1), (9, peer 3)] } },
      7, 2, 3, 5, r1, { c0 with rung := .recon }, frm, rdx 2, ns0, ?_⟩⟩
  all_goals simp only [Dev.checkCw, Dev.checkUnit, hg, ho]
  all_goals (repeat' apply And.intro) <;> decide +kernel

end ReadSide


/-! ### MapSide -/

namespace MapSide

def fur (k : Nat) : Furrow := {Furrow.reset with st := .open, kind := k}

def sbX (st : SbState) (valid : Nat) (slc : Bool) (fu : Nat) : Superblock := { Superblock.fresh with st := st, members := [0,1,2,3], valid := valid, slc := slc, furrow := fu, openSeq := 3 }

def qs (fq : Quire → Quire) (sbs : List (Nat × Superblock)) (f : Dev → Dev) (x : CSlot) : State := (hwf (fun d => f ({ d with quires := [(0, fq quire0)], tc := { d.tc with sbs := sbs, openSeq := 7 } } : Dev)) x).cmd 5 { adm 0x0C [] with fn := .pf .a }

def stg (n : Nat) : List ProgUnit := (List.range n).map (fun k => ⟨0, k, 5, 1, 1, 0⟩)

def furs : List (Nat × Furrow) := [(70, {fur 2 with staged := stg 3}), (71, {fur 2 with staged := stg 5}), (80, {fur 2 with st := .draining, staged := stg 1})]

def sbsA : List (Nat × Superblock) := [(5, sbX .closed 100 false 70), (6, sbX .closed 20 false 71), (7, sbX .closed 5 true 80), (9, sbX .open 1 false 70)]

def js0 : JSlot := ⟨0, 4, 0, 7, 0, 0, 5, 1, 9, false⟩

def ctl3 (d : Dev) : Dev := d.setCsr aSigCtrl 7

theorem witness_FoldsCollectionAndErases_1 :
    (∃ (s : State) (q : Nat) (x : Quire) (f : Nat), s.dev.quire q = some x ∧ servingMode s.dev.modes.mode = true ∧ x.foldHeld =
      false ∧ s.dev.foldDue q x = true ∧ x.folding = none ∧ s.dev.foldPick q = some f) ∧
    (∃ (s : State) (q : Nat) (x : Quire), s.dev.quire q = some x ∧ (servingMode s.dev.modes.mode = false ∨ x.foldHeld = true ∨
      s.dev.foldDue q x = false)) ∧
    (∃ (s : State) (q : Nat) (x : Quire) (v : Nat), s.dev.quire q = some x ∧ servingMode s.dev.modes.mode = true ∧
      s.dev.qlcBelow q (s.dev.reg aTcGcWeir 7 0) x = true ∧ x.victim = none ∧ s.dev.victimOf q = some v) ∧
    (∃ (s : State) (q : Nat) (x : Quire), s.dev.quire q = some x ∧ (servingMode s.dev.modes.mode = false ∨ s.dev.qlcBelow q
      (s.dev.reg aTcGcWeir 7 0) x = false)) ∧
    (∃ (s : State) (q k : Nat), (s.dev.sb q k).st = .released ∧ s.dev.gateOpen (s.dev.sb q k) = true) ∧
    (∃ (s : State) (q k : Nat), (s.dev.sb q k).st = .released ∧ s.dev.gateOpen (s.dev.sb q k) = false) := by
  refine ⟨?_, ?_, ?_, ?_, ?_, ?_⟩
  · exact ⟨qs (fun _ => quire0) sbsA (fun d => {d with tc := {d.tc with furrows := furs}}) slot0, 0, quire0, ((qs (fun _ =>
    quire0) sbsA (fun d => {d with tc := {d.tc with furrows := furs}}) slot0 : State).dev.foldPick 0).getD
    0, by (repeat' apply And.intro) <;> decide +kernel⟩
  · exact ⟨(qs (fun _ => quire0) sbsA (fun d => {d with tc := {d.tc with furrows := furs}}) slot0).d fun d =>
    {d with modes := {d.modes with mode := .idle}}, 0, quire0, by (repeat' apply And.intro) <;> decide +kernel⟩
  · exact ⟨qs (fun _ => quire0) sbsA (fun d => ({d with tc := {d.tc with furrows := furs}}).setCsr aTcGcWeir 0xFF02FF) slot0,
    0, quire0, ((qs (fun _ => quire0) sbsA (fun d => ({d with tc := {d.tc with furrows := furs}}).setCsr aTcGcWeir 0xFF02FF)
    slot0 : State).dev.victimOf 0).getD 0, by (repeat' apply And.intro) <;> decide +kernel⟩
  · exact ⟨qs (fun _ => quire0) sbsA (fun d => d.setCsr aTcGcWeir 0xFF0201) slot0, 0,
    quire0, by (repeat' apply And.intro) <;> decide +kernel⟩
  · exact ⟨qs id [(5, {sbX .released 0 false 0 with relSeq := 0}), (6,
    {sbX .released 0 false 0 with relSeq := 500, relEpoch := 4})] (fun d =>
    {d with tc := {d.tc with programmed := 900, jseq := 1000, head := 1000}, rp := {d.rp with reads := [(7, LeafRead.fresh 3 0 1 5 2)]}})
    slot0, 0, 5, by (repeat' apply And.intro) <;> decide +kernel⟩
  · exact ⟨qs id [(5, {sbX .released 0 false 0 with relSeq := 0}), (6,
    {sbX .released 0 false 0 with relSeq := 500, relEpoch := 4})] id slot0, 0,
    5, by (repeat' apply And.intro) <;> decide +kernel⟩

theorem witness_FoldsCollectionAndErases_2 :
    (∃ (s : State), servingMode s.dev.modes.mode = true ∧ s.dev.tc.segBusy = none) ∧
    (∃ (v : W32), bitsOf v.toNat 15 8 < bitsOf v.toNat 7 0 ∧ bitsOf v.toNat 15 8 ≠ 0 ∧ bitsOf v.toNat 23 16 ≠ 0) ∧
    (∃ (v : W32), (bitsOf v.toNat 7 0 ≤ bitsOf v.toNat 15 8 ∨ bitsOf v.toNat 15 8 = 0 ∨ bitsOf v.toNat 23 16 = 0)) := by
  refine ⟨?_, ?_, ?_⟩
  · exact ⟨hw, by (repeat' apply And.intro) <;> decide +kernel⟩
  · exact ⟨0x100204, by (repeat' apply And.intro) <;> decide +kernel⟩
  · exact ⟨0x100404, by decide +kernel⟩

theorem witness_RebuildsAndPatrol_1 :
    (∃ (s : State) (q : Nat) (x : Quire), s.dev.quire q = some x ∧ x.due = true ∧ x.work = none ∧ bitOf (s.dev.csrW
      aSigCtrl).toNat 1 = true ∧ servingMode s.dev.modes.mode = true ∧ s.dev.quireState q ≠ 4 ∧ s.dev.canHold q x
      x.presentWidth = false) ∧
    (∃ (s : State) (q : Nat) (x : Quire), s.dev.quire q = some x ∧ x.due = true ∧ x.work = none ∧ bitOf (s.dev.csrW
      aSigCtrl).toNat 1 = true ∧ servingMode s.dev.modes.mode = true ∧ s.dev.quireState q ≠ 4 ∧ s.dev.canHold q x
      x.presentWidth = true) ∧
    (∃ (s : State) (q : Nat) (x : Quire), s.dev.quire q = some x ∧ x.due = false) ∧
    (∃ (s : State) (q : Nat) (x : Quire) (k j : Nat) (b : RBlk), s.dev.quire q = some x ∧ (s.dev.hostOf k).isEmpty = false ∧
      s.dev.regionLow k = true ∧ s.dev.regionOf k = [(j, b)]) ∧
    (∃ (s : State) (q : Nat) (x : Quire) (k row : Nat) (cws : List PatrolCw), s.dev.quire q = some x ∧ x.work = none ∧
      servingMode s.dev.modes.mode = true ∧ bitOf (s.dev.csrW aSigCtrl).toNat 0 = true ∧ (s.dev.sb q k).valid ≠ 0 ∧ 1 ≤ row ∧
      row ≤ dataRows (x.rows (s.dev.sb q k).slc) ∧ cws.all (fun c => decide (c.rung ≤ 1) && c.tagOk) = true ∧ x.patRows ≠ 0 ∧
      x.patRows + 1 < x.patTotal) ∧
    (∃ (s : State) (q : Nat) (x : Quire) (k row : Nat) (cws : List PatrolCw), s.dev.quire q = some x ∧ x.work = none ∧
      servingMode s.dev.modes.mode = true ∧ bitOf (s.dev.csrW aSigCtrl).toNat 0 = true ∧ (s.dev.sb q k).valid ≠ 0 ∧ 1 ≤ row ∧
      row ≤ dataRows (x.rows (s.dev.sb q k).slc) ∧ cws.all (fun c => decide (c.rung ≤ 1) && c.tagOk) = true ∧ x.patRows ≠ 0 ∧
      x.patTotal ≤ x.patRows + 1) := by
  refine ⟨?_, ?_, ?_, ?_, ?_, ?_⟩
  · exact ⟨qs (fun _ =>
    ({quire0 with due := true, members := (quire0.members.ins 2 {mem0 2 with st := .lost}).ins 1 {mem0 1 with st := .lost}} :
    Quire)) [] ctl3 slot0, 0,
    {quire0 with due := true, members := (quire0.members.ins 2 {mem0 2 with st := .lost}).ins 1 {mem0 1 with st := .lost}}, by (repeat' apply And.intro) <;> decide +kernel⟩
  · exact ⟨qs (fun _ => ({quire0 with due := true} : Quire)) sbsA ctl3 slot0, 0,
    {quire0 with due := true}, by (repeat' apply And.intro) <;> decide +kernel⟩
  · exact ⟨qs (fun _ => quire0) sbsA ctl3 slot0, 0, quire0, by (repeat' apply And.intro) <;> decide +kernel⟩
  · exact ⟨(qs (fun _ => quire0) sbsA (fun d =>
    {d with tc := {d.tc with regions := [((2^32*64*0 + 5 : Nat), (⟨1000000, 3, [(70, 9)]⟩ : RBlk))], jslots := [(70, js0), (71, js0)], jseq := 20}})
    slot0), 0, quire0, 0, 2^32*64*0 + 5, ⟨1000000, 3, [(70, 9)]⟩, by (repeat' apply And.intro) <;> decide +kernel⟩
  · exact ⟨qs (fun _ => ({quire0 with patRows := 3, patTotal := 10, patBeyond := 2, patCws := 48} : Quire)) sbsA ctl3 slot0, 0,
    {quire0 with patRows := 3, patTotal := 10, patBeyond := 2, patCws := 48}, 5, 1,
    [], by (repeat' apply And.intro) <;> decide +kernel⟩
  · exact ⟨qs (fun _ => ({quire0 with patRows := 9, patTotal := 10, patBeyond := 2, patCws := 48, patLate := true} : Quire))
    sbsA ctl3 slot0, 0, {quire0 with patRows := 9, patTotal := 10, patBeyond := 2, patCws := 48, patLate := true}, 5, 1,
    [], by (repeat' apply And.intro) <;> decide +kernel⟩

theorem witness_RebuildsAndPatrol_2 :
    (∃ (s : State) (q : Nat) (x : Quire), s.dev.quire q = some x ∧ (x.work ≠ none ∨ servingMode s.dev.modes.mode = false ∨
      bitOf (s.dev.csrW aSigCtrl).toNat 0 = false)) ∧
    (∃ (s : State) (q : Nat) (x : Quire), s.dev.quire q = some x ∧ x.patRows < x.patTotal) ∧
    (∃ (s : State) (q : Nat) (x : Quire), s.dev.quire q = some x ∧ x.patTotal ≤ x.patRows) := by
  refine ⟨?_, ?_, ?_⟩
  · exact ⟨qs (fun _ => ({quire0 with patRows := 3, patTotal := 10, patBeyond := 2, patCws := 48} : Quire)) sbsA (fun d =>
    d.setCsr aSigCtrl 0) slot0, 0,
    {quire0 with patRows := 3, patTotal := 10, patBeyond := 2, patCws := 48}, by (repeat' apply And.intro) <;> decide +kernel⟩
  · exact ⟨qs (fun _ => ({quire0 with patRows := 3, patTotal := 10} : Quire)) sbsA ctl3 slot0, 0,
    {quire0 with patRows := 3, patTotal := 10}, by (repeat' apply And.intro) <;> decide +kernel⟩
  · exact ⟨qs (fun _ => ({quire0 with patRows := 10, patTotal := 10} : Quire)) sbsA ctl3 slot0, 0,
    {quire0 with patRows := 10, patTotal := 10}, by (repeat' apply And.intro) <;> decide +kernel⟩

end MapSide


/-! ### LinkSide -/

namespace LinkSide

def te (f : TagEnt → TagEnt) : TagEnt := f ⟨{ OpReq.bare .readQlc 2 1 (.hostRead 7) with cwMask := 5, count := 1 }, 0, false, none, 0, 0, none, none⟩

def lk (f : Link → Link) (g : Dev → Dev) : State := hwf (fun d => g { d with gl := { d.gl with links := (List.range 4).map (fun k => (k, if k = 2 then f linkA else linkA)) } }) slot0

def lk0 (f : Link → Link) (g : Dev → Dev) : State := (lk f g).d fun d => { d with hg := { d.hg with slots := [] } }

def noq (d : Dev) : Dev := { d with quires := [] }

def rp3 : List TxRun := [⟨1020, 3, 0, .cmd 4⟩, ⟨1023, 2, 1, .data 4⟩]

def tags3 : List (Nat × TagEnt) := [(4, te id), (6, te fun e => { e with op := OpReq.bare .resume 2 1 .freshFill }), (8, te fun e => { e with op := OpReq.bare .progQlc 2 3 .freshFill, tries := 1 })]

def actives : List State := [lk id id, lk (fun l => { l with tags := tags3, replay := rp3, txQueue := [⟨0, 2, .cmd 6⟩] }) id, lk (fun l => { l with tags := tags3, replay := rp3, stuck := 3 }) noq, lk (fun l => { l with recovAt := (List.range 15).map (fun k => 10^12 - k) ++ [5,6], replay := rp3, stuck := 2, tags := tags3 }) id, (lk (fun l => { l with stuck := 3, replay := rp3 }) id).cmd 5 { adm 0x0C [] with fn := .pf .a }]

def lst (st : LinkSt) (f : Link → Link) (g : Dev → Dev) : State := lk (fun l => f { l with st := st }) g

def initP : InitPl := ⟨0x100, 1, false, false, 0, 64, 320, 4, 256, 2, true⟩

def cpl (tag op die : Nat) : Cpl := ⟨op, 0, tag, die, 0, 10, 0, 0, true⟩

theorem witness_LinkTransitions_1 :
    (∃ (s : State) (k : Nat) (l : Link), k < 64 ∧ s.dev.link k = l ∧ l.st = .active ∧ (l.recovAt.filter (fun x => decide
      (s.dev.now < x + 1000000000))).length < 16) ∧
    (∃ (s : State) (k : Nat) (l : Link) (lane : Nat), k < 64 ∧ s.dev.link k = l ∧ l.st = .active ∧ (l.recovAt.filter (fun x =>
      decide (s.dev.now < x + 1000000000))).length < 16 ∧ lane < l.width) ∧
    (∃ (s : State) (k : Nat) (l : Link), k < 64 ∧ s.dev.link k = l ∧ l.st = .active ∧ (l.recovAt.filter (fun x => decide
      (s.dev.now < x + 1000000000))).length < 16 ∧ s.dev.domReady (glDom k) = true) ∧
    (∃ (s : State) (k : Nat) (l : Link), k < 64 ∧ s.dev.link k = l ∧ l.st = .active ∧ (l.recovAt.filter (fun x => decide
      (s.dev.now < x + 1000000000))).length < 16 ∧ l.replay ≠ [] ∧ l.stuck = 3) ∧
    (∃ (s : State) (k : Nat) (l : Link) (lane : Nat), k < 64 ∧ s.dev.link k = l ∧ l.st = .active ∧ l.width ≤ lane) ∧
    (∃ (s : State) (k : Nat) (l : Link), k < 64 ∧ s.dev.link k = l ∧ l.st ≠ .active ∧ s.dev.domReady (glDom k) = true) := by
  refine ⟨?_, ?_, ?_, ?_, ?_, ?_⟩
  · exact ⟨(actives : List (State)).getD 0 (State.reset), 2, ((actives : List (State)).getD 0 (State.reset) : State).dev.link
    2, by (repeat' apply And.intro) <;> decide +kernel⟩
  · exact ⟨(actives : List (State)).getD 0 (State.reset), 2, ((actives : List (State)).getD 0 (State.reset) : State).dev.link
    2, 0, by (repeat' apply And.intro) <;> decide +kernel⟩
  · exact ⟨(actives : List (State)).getD 0 (State.reset), 2, ((actives : List (State)).getD 0 (State.reset) : State).dev.link
    2, by (repeat' apply And.intro) <;> decide +kernel⟩
  · exact ⟨(actives : List (State)).getD 2 (State.reset), 2, ((actives : List (State)).getD 2 (State.reset) : State).dev.link
    2, by (repeat' apply And.intro) <;> decide +kernel⟩
  · exact ⟨(actives : List (State)).getD 0 (State.reset), 2, ((actives : List (State)).getD 0 (State.reset) : State).dev.link
    2, 4, by (repeat' apply And.intro) <;> decide +kernel⟩
  · exact ⟨lst .recovery id id, 2, (lst .recovery id id : State).dev.link 2, by (repeat' apply And.intro) <;> decide +kernel⟩

theorem witness_LinkTransitions_2 :
    (∃ (s : State) (k : Nat) (l : Link), k < 64 ∧ s.dev.link k = l ∧ l.st = .active ∧ l.replay ≠ [] ∧ l.stuck < 3) ∧
    (∃ (s : State) (k : Nat) (l : Link), k < 64 ∧ s.dev.link k = l ∧ l.st = .active ∧ l.replay = []) ∧
    (∃ (s : State) (k : Nat) (l : Link), k < 64 ∧ s.dev.link k = l ∧ l.st = .recovery) ∧
    (∃ (s : State) (k : Nat) (l : Link), k < 64 ∧ s.dev.link k = l ∧ l.st = .detect ∧ (l.detectAt.filter (fun x => decide
      (s.dev.now < x + 60000000000))).length < 3) ∧
    (∃ (s : State) (k : Nat) (l : Link) (w : Nat), k < 64 ∧ s.dev.link k = l ∧ l.st = .train ∧ (w = 1 ∨ w = 2 ∨ w = 4)) ∧
    (∃ (s : State) (k : Nat) (l : Link), k < 64 ∧ s.dev.link k = l ∧ (l.st = .train ∨ l.st = .init)) := by
  refine ⟨?_, ?_, ?_, ?_, ?_, ?_⟩
  · exact ⟨(actives : List (State)).getD 1 (State.reset), 2, ((actives : List (State)).getD 1 (State.reset) : State).dev.link
    2, by (repeat' apply And.intro) <;> decide +kernel⟩
  · exact ⟨(actives : List (State)).getD 0 (State.reset), 2, ((actives : List (State)).getD 0 (State.reset) : State).dev.link
    2, by (repeat' apply And.intro) <;> decide +kernel⟩
  · exact ⟨lst .recovery (fun l => { l with tags := tags3, replay := rp3, txQueue := [⟨0, 2, .cmd 6⟩], session := some 4 }) id,
    2, (lst .recovery (fun l => { l with tags := tags3, replay := rp3, txQueue := [⟨0, 2, .cmd 6⟩], session := some 4 }) id :
    State).dev.link 2, by (repeat' apply And.intro) <;> decide +kernel⟩
  · exact ⟨lst .detect id id, 2, (lst .detect id id : State).dev.link 2, by (repeat' apply And.intro) <;> decide +kernel⟩
  · exact ⟨lst .train id id, 2, (lst .train id id : State).dev.link 2, 1, by (repeat' apply And.intro) <;> decide +kernel⟩
  · exact ⟨lst .train id id, 2, (lst .train id id : State).dev.link 2, by (repeat' apply And.intro) <;> decide +kernel⟩

theorem witness_LinkTransitions_3 :
    (∃ (s : State) (k : Nat) (l : Link), k < 64 ∧ s.dev.link k = l ∧ l.st = .init) ∧
    (∃ (s : State) (k : Nat) (l : Link), k < 64 ∧ s.dev.link k = l ∧ l.st = .lowPower) := by
  refine ⟨?_, ?_⟩
  · exact ⟨lst .init (fun l => { l with gotInit := true, initSent := 3 }) id, 2, (lst .init (fun l =>
    { l with gotInit := true, initSent := 3 }) id : State).dev.link 2, by (repeat' apply And.intro) <;> decide +kernel⟩
  · exact ⟨lst .lowPower (fun l => { l with session := some 4, lpReq := true }) id, 2, (lst .lowPower (fun l =>
    { l with session := some 4, lpReq := true }) id : State).dev.link 2, by (repeat' apply And.intro) <;> decide +kernel⟩

theorem witness_FlitsReceived_1 :
    (∃ (s : State) (k : Nat) (l : Link), k < 64 ∧ s.dev.link k = l ∧ l.st = .active ∧ 0 < l.rxUnacked) ∧
    (∃ (s : State) (k : Nat) (l : Link), k < 64 ∧ s.dev.link k = l ∧ l.st = .active ∧ l.rxUnacked = 0) ∧
    (∃ (s : State) (k : Nat) (l : Link), k < 64 ∧ s.dev.link k = l ∧ l.st = .active ∧ l.nakSent = none) ∧
    (∃ (s : State) (k : Nat) (l : Link), k < 64 ∧ s.dev.link k = l ∧ l.st = .active ∧ l.rxUnacked < 31) ∧
    (∃ (s : State) (k : Nat) (l : Link), k < 64 ∧ s.dev.link k = l ∧ l.st = .active) ∧
    (∃ (s : State) (k : Nat) (l : Link) (c : Cpl) (e : TagEnt), k < 64 ∧ s.dev.link k = l ∧ l.st = .active ∧ l.tags.get? c.tag
      = some e ∧ c.rsvOk = true ∧ e.cpl = none ∧ c.opcode = OpCode e.op.kind ∧ c.die = e.op.die ∧ c.status = 0 ∧ e.flits <
      e.op.flits ∧ s.dev.hg.slots = []) := by
  refine ⟨?_, ?_, ?_, ?_, ?_, ?_⟩
  · exact ⟨lk (fun l => { l with rxUnacked := 5, rxNext := 0, freed := [70000,3,4] }) id, 2, (lk (fun l =>
    { l with rxUnacked := 5, rxNext := 0, freed := [70000,3,4] }) id : State).dev.link
    2, by (repeat' apply And.intro) <;> decide +kernel⟩
  · exact ⟨lk id id, 2, (lk id id : State).dev.link 2, by (repeat' apply And.intro) <;> decide +kernel⟩
  · exact ⟨(actives ++ [lk (fun l => { l with rxUnacked := 30, rxNext := 1023, ping := true }) id] : List (State)).getD 0
    (State.reset), 2, ((actives ++ [lk (fun l => { l with rxUnacked := 30, rxNext := 1023, ping := true }) id] : List
    (State)).getD 0 (State.reset) : State).dev.link 2, by (repeat' apply And.intro) <;> decide +kernel⟩
  · exact ⟨(actives ++ [lk (fun l => { l with rxUnacked := 30, rxNext := 1023, ping := true }) id] : List (State)).getD 0
    (State.reset), 2, ((actives ++ [lk (fun l => { l with rxUnacked := 30, rxNext := 1023, ping := true }) id] : List
    (State)).getD 0 (State.reset) : State).dev.link 2, by (repeat' apply And.intro) <;> decide +kernel⟩
  · exact ⟨(actives ++ [lk (fun l => { l with rxUnacked := 31, rxNext := 1023, ping := true }) id] : List (State)).getD 0
    (State.reset), 2, ((actives ++ [lk (fun l => { l with rxUnacked := 31, rxNext := 1023, ping := true }) id] : List
    (State)).getD 0 (State.reset) : State).dev.link 2, by (repeat' apply And.intro) <;> decide +kernel⟩
  · exact ⟨lk0 (fun l => { l with tags := tags3 }) id, 2, (lk0 (fun l => { l with tags := tags3 }) id : State).dev.link 2, cpl
    4 1 1, (((lk0 (fun l => { l with tags := tags3 }) id : State).dev.link 2 : Link).tags.get? (cpl 4 1 1 : Cpl).tag).getD (te
    id), by (repeat' apply And.intro) <;> decide +kernel⟩

theorem witness_FlitsReceived_2 :
    (∃ (s : State) (k : Nat) (l : Link) (c : Cpl) (e : TagEnt), k < 64 ∧ s.dev.link k = l ∧ l.st = .active ∧ l.tags.get? c.tag
      = some e ∧ c.rsvOk = true ∧ e.cpl = none ∧ c.opcode = 5 ∧ e.op.kind = .resume ∧ c.die = e.op.die ∧ c.status = 0) ∧
    (∃ (s : State) (k : Nat) (l : Link) (tag : Nat) (e : TagEnt), k < 64 ∧ s.dev.link k = l ∧ l.st = .active ∧ l.tags.get? tag
      = some e ∧ e.flits + 1 < e.op.flits ∧ s.dev.hg.slots = []) ∧
    (∃ (s : State) (k : Nat) (l : Link) (m : Lctl) (l2 : Link), k < 64 ∧ s.dev.link k = l ∧ l.st = .active ∧ m.rsvOk = true ∧
      m.nak = none ∧ m.lpAck = false ∧ l.txQueue = [] ∧ ((l.returned 0 m.ret0).bind (fun x => x.returned 1 m.ret1)).bind (fun x
      => x.returned 2 m.ret2) = some l2) ∧
    (∃ (s : State) (k : Nat) (l : Link) (m : Lctl), k < 64 ∧ s.dev.link k = l ∧ l.st = .active ∧ s.dev.idleSlot k ∧ (m.rsvOk =
      false ∨ ((l.returned 0 m.ret0).bind (fun x => x.returned 1 m.ret1)).bind (fun x => x.returned 2 m.ret2) = none)) ∧
    (∃ (s : State) (k : Nat) (l : Link), k < 64 ∧ s.dev.link k = l ∧ (l.st = .active ∨ l.st = .init) ∧ s.dev.idleSlot k) ∧
    (∃ (s : State) (k : Nat) (l : Link), k < 64 ∧ s.dev.link k = l ∧ l.st ≠ .active ∧ l.st ≠ .init) := by
  refine ⟨?_, ?_, ?_, ?_, ?_, ?_⟩
  · exact ⟨lk (fun l => { l with tags := tags3 }) (fun d =>
    { d with rp := { d.rp with dies := [(64*2+1, { Die.reset with susp := true, hold := some 1, susTag := some 6, kind := .erase, reads := [⟨10, some 7, true, none, false⟩] })] } }),
    2, (lk (fun l => { l with tags := tags3 }) (fun d =>
    { d with rp := { d.rp with dies := [(64*2+1, { Die.reset with susp := true, hold := some 1, susTag := some 6, kind := .erase, reads := [⟨10, some 7, true, none, false⟩] })] } })
    : State).dev.link 2, cpl 6 5 1, (((lk (fun l => { l with tags := tags3 }) (fun d =>
    { d with rp := { d.rp with dies := [(64*2+1, { Die.reset with susp := true, hold := some 1, susTag := some 6, kind := .erase, reads := [⟨10, some 7, true, none, false⟩] })] } })
    : State).dev.link 2 : Link).tags.get? (cpl 6 5 1 : Cpl).tag).getD (te
    id), by (repeat' apply And.intro) <;> decide +kernel⟩
  · exact ⟨lk0 (fun l => { l with tags := tags3 }) id, 2, (lk0 (fun l => { l with tags := tags3 }) id : State).dev.link 2, 4,
    (((lk0 (fun l => { l with tags := tags3 }) id : State).dev.link 2 : Link).tags.get? 4).getD (te
    id), by (repeat' apply And.intro) <;> decide +kernel⟩
  · exact ⟨lk (fun l => { l with replay := rp3, sent := [65540, 4, 3], ret := [65530, 2, 3] }) id, 2, (lk (fun l =>
    { l with replay := rp3, sent := [65540, 4, 3], ret := [65530, 2, 3] }) id : State).dev.link 2, ⟨some 1021, none, 4, 4, 3,
    false, false, true⟩, ((((((lk (fun l => { l with replay := rp3, sent := [65540, 4, 3], ret := [65530, 2, 3] }) id :
    State).dev.link 2 : Link).returned 0 (⟨some 1021, none, 4, 4, 3, false, false, true⟩ : Lctl).ret0).bind (fun x =>
    x.returned 1 (⟨some 1021, none, 4, 4, 3, false, false, true⟩ : Lctl).ret1)).bind (fun x => x.returned 2 (⟨some 1021, none,
    4, 4, 3, false, false, true⟩ : Lctl).ret2)).getD ((lk (fun l =>
    { l with replay := rp3, sent := [65540, 4, 3], ret := [65530, 2, 3] }) id : State).dev.link 2 :
    Link)), by (repeat' apply And.intro) <;> decide +kernel⟩
  · exact ⟨lk (fun l => { l with replay := rp3, sent := [65540, 4, 3], ret := [65530, 2, 3], lpReq := true }) noq, 2, (lk (fun
    l => { l with replay := rp3, sent := [65540, 4, 3], ret := [65530, 2, 3], lpReq := true }) noq : State).dev.link 2, ⟨some
    1021, none, 5, 4, 3, false, false, true⟩, by (repeat' apply And.intro) <;> decide +kernel⟩
  · exact ⟨lk id noq, 2, (lk id noq : State).dev.link 2, by (repeat' apply And.intro) <;> decide +kernel⟩
  · exact ⟨lst .recovery id noq, 2, (lst .recovery id noq : State).dev.link
    2, by (repeat' apply And.intro) <;> decide +kernel⟩

theorem witness_FlitsReceived_3 :
    (∃ (s : State) (k : Nat) (l : Link) (m : InitPl), k < 64 ∧ s.dev.link k = l ∧ l.st = .init ∧ l.initOk k m = true ∧ (m.fresh
      = false ∨ l.tags = []) ∧ m.peerSeen = false ∧ m.fresh = false) ∧
    (∃ (s : State) (k : Nat) (l : Link) (m : InitPl), k < 64 ∧ s.dev.link k = l ∧ l.st = .init ∧ l.initOk k m = true ∧ (m.fresh
      = false ∨ l.tags = []) ∧ m.peerSeen = true ∧ (s.dev.slot k).validated = false) ∧
    (∃ (s : State) (k : Nat) (l : Link) (m : InitPl), k < 64 ∧ s.dev.link k = l ∧ l.st = .init ∧ l.initOk k m = false ∧
      s.dev.idleSlot k) := by
  refine ⟨?_, ?_, ?_⟩
  · exact ⟨lst .init id id, 2, (lst .init id id : State).dev.link 2, initP, by (repeat' apply And.intro) <;> decide +kernel⟩
  · exact ⟨lst .init (fun l => { l with replay := rp3, txNext := 1, gotInit := true }) (fun d => noq (d.modSt 2 (fun x =>
    { x with validated := false }))), 2, (lst .init (fun l => { l with replay := rp3, txNext := 1, gotInit := true }) (fun d =>
    noq (d.modSt 2 (fun x => { x with validated := false }))) : State).dev.link 2,
    { initP with peerSeen := true }, by (repeat' apply And.intro) <;> decide +kernel⟩
  · exact ⟨lst .init (fun l => { l with replay := rp3, txNext := 1, gotInit := true }) (fun d => noq (d.modSt 2 (fun x =>
    { x with validated := false }))), 2, (lst .init (fun l => { l with replay := rp3, txNext := 1, gotInit := true }) (fun d =>
    noq (d.modSt 2 (fun x => { x with validated := false }))) : State).dev.link 2,
    { initP with vc0 := 63 }, by (repeat' apply And.intro) <;> decide +kernel⟩

theorem witness_AuthenticationAndTimers_1 :
    (∃ (s : State) (k : Nat) (l : Link) (ss : Digest), k < 64 ∧ s.dev.link k = l ∧ l.st = .active ∧ l.session = some ss ∧
      l.authStep = 2) ∧
    (∃ (s : State) (k : Nat) (l : Link) (ss : Digest), k < 64 ∧ s.dev.link k = l ∧ l.st = .active ∧ l.session = some ss ∧
      l.authStep = 3) ∧
    (∃ (s : State) (k : Nat) (l : Link) (tag : Nat) (e : TagEnt), k < 64 ∧ s.dev.link k = l ∧ l.st = .active ∧ l.tags.get? tag
      = some e ∧ e.tries = 0) ∧
    (∃ (s : State) (k : Nat) (l : Link), k < 64 ∧ s.dev.link k = l ∧ l.st = .active ∧ l.tags ≠ [] ∧ l.progressAt + 1000000 ≤
      s.dev.now) ∧
    (∃ (s : State) (k : Nat) (l : Link), k < 64 ∧ s.dev.link k = l ∧ l.st = .active ∧ (l.tags = [] ∨ s.dev.now < l.progressAt +
      1000000)) ∧
    (∃ (s : State) (k : Nat) (l : Link), k < 64 ∧ s.dev.link k = l ∧ l.authStep ≠ 0 ∧ l.st ≠ .quarantine ∧ s.dev.idleSlot k) := by
  refine ⟨?_, ?_, ?_, ?_, ?_, ?_⟩
  · exact ⟨lk (fun l => { l with authStep := 2, nonce := 4, session := some 5, authT := 9 }) id, 2, (lk (fun l =>
    { l with authStep := 2, nonce := 4, session := some 5, authT := 9 }) id : State).dev.link 2, (((lk (fun l =>
    { l with authStep := 2, nonce := 4, session := some 5, authT := 9 }) id : State).dev.link 2 : Link).session).getD
    0, by (repeat' apply And.intro) <;> decide +kernel⟩
  · exact ⟨lk (fun l => { l with authStep := 3, nonce := 4, session := some 5, authT := 9 }) id, 2, (lk (fun l =>
    { l with authStep := 3, nonce := 4, session := some 5, authT := 9 }) id : State).dev.link 2, (((lk (fun l =>
    { l with authStep := 3, nonce := 4, session := some 5, authT := 9 }) id : State).dev.link 2 : Link).session).getD
    0, by (repeat' apply And.intro) <;> decide +kernel⟩
  · exact ⟨lk (fun l => { l with tags := tags3 }) id, 2, (lk (fun l => { l with tags := tags3 }) id : State).dev.link 2, 4,
    (((lk (fun l => { l with tags := tags3 }) id : State).dev.link 2 : Link).tags.get? 4).getD (te
    id), by (repeat' apply And.intro) <;> decide +kernel⟩
  · exact ⟨lk (fun l => { l with tags := tags3 }) id, 2, (lk (fun l => { l with tags := tags3 }) id : State).dev.link
    2, by (repeat' apply And.intro) <;> decide +kernel⟩
  · exact ⟨lk (fun l => { l with tags := tags3, progressAt := 10^12 - 5 }) id, 2, (lk (fun l =>
    { l with tags := tags3, progressAt := 10^12 - 5 }) id : State).dev.link
    2, by (repeat' apply And.intro) <;> decide +kernel⟩
  · exact ⟨lk (fun l => { l with authStep := 2 }) noq, 2, (lk (fun l => { l with authStep := 2 }) noq : State).dev.link
    2, by (repeat' apply And.intro) <;> decide +kernel⟩

theorem witness_AuthenticationAndTimers_2 :
    (∃ (s : State) (k : Nat) (l : Link), k < 64 ∧ s.dev.link k = l ∧ l.authStep = 0) ∧
    (∃ (s : State) (k : Nat) (l : Link), k < 64 ∧ s.dev.link k = l ∧ l.st ≠ .quarantine ∧ l.st ≠ .disabled ∧ l.tags ≠ [] ∧
      l.progressAt + 1000000 * s.dev.reg aGlTimer 11 8 ≤ s.dev.now) ∧
    (∃ (s : State) (k : Nat) (l : Link), k < 64 ∧ s.dev.link k = l ∧ s.dev.domReady (glDom k) = true ∧ (l.st = .quarantine ∨
      (s.dev.slot k).pwren = false)) ∧
    (∃ (s : State) (k : Nat) (l : Link), k < 64 ∧ s.dev.link k = l ∧ s.dev.domReady (glDom k) = true ∧ l.st ≠ .quarantine ∧
      (s.dev.slot k).pwren = true ∧ s.dev.wouldBreak k = true) ∧
    (∃ (s : State) (k : Nat) (l : Link), k < 64 ∧ s.dev.link k = l ∧ s.dev.domReady (glDom k) = true ∧ l.st ≠ .quarantine ∧
      (s.dev.slot k).pwren = true ∧ s.dev.idleSlot k) := by
  refine ⟨?_, ?_, ?_, ?_, ?_⟩
  · exact ⟨lk id id, 2, (lk id id : State).dev.link 2, by (repeat' apply And.intro) <;> decide +kernel⟩
  · exact ⟨lk (fun l => { l with tags := tags3 }) id, 2, (lk (fun l => { l with tags := tags3 }) id : State).dev.link
    2, by (repeat' apply And.intro) <;> decide +kernel⟩
  · exact ⟨lst .quarantine id noq, 2, (lst .quarantine id noq : State).dev.link
    2, by (repeat' apply And.intro) <;> decide +kernel⟩
  · exact ⟨lk id (fun d =>
    {d with quires := [(0, {quire0 with width := 3, members := [(0, mem0 0), (1, mem0 1), (2, mem0 2)]})], tc := {d.tc with sbs := [(5, {Superblock.fresh with st := .closed, members := [0,1,2], valid := 6})]}}),
    2, (lk id (fun d =>
    {d with quires := [(0, {quire0 with width := 3, members := [(0, mem0 0), (1, mem0 1), (2, mem0 2)]})], tc := {d.tc with sbs := [(5, {Superblock.fresh with st := .closed, members := [0,1,2], valid := 6})]}})
    : State).dev.link 2, by (repeat' apply And.intro) <;> decide +kernel⟩
  · exact ⟨lk id noq, 2, (lk id noq : State).dev.link 2, by (repeat' apply And.intro) <;> decide +kernel⟩

theorem add_one_ne (x : Digest) : x + 1 ≠ x := by
  intro h
  have := congrArg (· - x) h
  simp at this

theorem witness_AuthenticationAndTimers_checks :
    ((∀ k m x, Config.ecdsaOk k m x = true) → ∃ (s : State) (k : Nat) (l : Link) (qm : BitVec 776) (sig : BitVec 768) (c : Colo), k < 64
      ∧ s.dev.link k = l ∧ l.st = .active ∧ s.dev.colo k = some c ∧ l.authStep = 1
      ∧ Config.ecdsaOk (slice c.bytes 0x1300 128) (Config.sha384 (ascii "CX512 GLAUTH" ++ leBytes 1 k ++ l.challenge
          ++ leBytes 97 qm.toNat ++ digestBytes c.digest)) (leBytes 96 sig.toNat ++ List.replicate 32 0) = true) ∧
    (∃ (s : State) (k : Nat) (l : Link) (ss h : Digest), k < 64 ∧ s.dev.link k = l ∧ l.st = .active ∧ l.session = some ss ∧ l.authStep = 2
      ∧ h ≠ Config.hmac384 (digestBytes ss) (ascii "M" ++ digestBytes l.authT) ∧ s.dev.idleSlot k) := by
  constructor
  · intro he
    exact ⟨lk (fun l => { l with authStep := 1, nonce := 4, rxUnacked := 31 }) id, 2, { linkA with authStep := 1, nonce := 4, rxUnacked := 31 },
      5, 9, ⟨coloB⟩, by decide +kernel, by decide +kernel, by decide +kernel, by decide +kernel, by decide +kernel, he _ _ _⟩
  · refine ⟨lk (fun l => { l with authStep := 2, session := some 5, authT := 9 }) noq, 2,
      { linkA with authStep := 2, session := some 5, authT := 9 }, 5, _, ?_, ?_, ?_, ?_, ?_, add_one_ne _, ?_⟩
    · decide +kernel
    · decide +kernel
    · decide +kernel
    · decide +kernel
    · decide +kernel
    · unfold Dev.idleSlot; decide +kernel

end LinkSide


/-! ### SlotSide -/

namespace SlotSide

def sl (k : Nat) (f : SlotSt → SlotSt) (g : Dev → Dev) : State := hwf (fun d => g (d.modSt k f)) slot0

def nq (d : Dev) : Dev := { d with quires := [] }

def pol (d : Dev) : Dev := { d with boot := { d.boot with impo := some { impo0 with sections := (6, at2 [] [(1,1,1),(7,1,0)]) :: impo0.sections } } }

def sls : List State := [sl 2 (fun x => { x with present := false }) id, sl 2 (fun x => { x with present := false }) nq, sl 2 id id, sl 2 id nq, sl 2 (fun x => { x with pwren := false }) nq, sl 2 (fun x => { x with pwren := false, blocked := true, present := false }) nq, sl 2 (fun x => { x with pwren := false, rst := true }) nq, sl 2 (fun x => { x with rst := true, pulse := true, reading := false, inserting := true }) nq, sl 2 (fun x => { x with rst := true, pulse := true }) (fun d => d.modLink 2 (fun l => { l with st := .disabled })), sl 2 (fun x => { x with present := false, blocked := true }) (fun d => nq (d.modLink 2 (fun l => { l with st := .quarantine }))), sl 2 (fun x => { x with cycled := true, pwren := false }) nq, sl 2 (fun x => { x with cycled := true, pwren := false }) (fun d => d.setCsr aGlCtrl 3), sl 2 id (fun d => d.modLink 2 (fun l => { l with st := .quarantine })), sl 2 (fun x => { x with present := false }) (fun d => d.setCsr aGlCtrl 3), sl 2 (fun x => { x with present := false }) (fun d => { d.setCsr aGlCtrl 3 with modes := { d.modes with mode := .idle } }), sl 2 (fun x => { x with present := false }) (fun d => { d.setCsr aGlCtrl 3 with modes := { d.modes with mode := .assemble } })]

def rds (f : Dev → Dev) : List State := [sl 2 (fun x => { x with reading := true, validated := false, colo := none, admitted := false, outcome := 0 }) (fun d => nq (f d)), sl 2 (fun x => { x with reading := true, validated := false, crcAgain := true }) (fun d => nq (f (d.modLink 2 (fun l => { l with st := .train })))), sl 2 (fun x => { x with reading := true, validated := false }) (fun d => f (nq (({ d with modes := { d.modes with mode := .assemble } } : Dev).modLink 2 (fun l => { l with st := .train })))), sl 2 id id]

def asmD (f : Dev → Dev) : State := world.d fun d => f { d with modes := { d.modes with mode := .assemble }, boot := { d.boot with dramDone := true, linksDone := true, mapDone := false } }

def ri0 : RestoreIn := ⟨true, true, [], [], [], [], [], [], [], [], [], [], [], [], [], [], [], [], [], [], 0, 0, [], [], 0, [], 0, false, [], 0⟩

def ch (st : ChSt) : DChan := { DChan.reset with st := st }

def tr (n : Nat) (l : List ChSt) (f : Dev → Dev) : State := asmD fun d => f { d with boot := { d.boot with dramDone := false }, dmc := { d.dmc with chans := (List.range l.length).map (fun k => (k, ch ((l[k]?).getD .absent))), used := [n] } }

def dom4 : List (Nat × DChan) := (List.range 6).map (fun k => (k, ch .inService))

/-- A colophon but for its crc field: 12 bytes before it and 5,232 after. -/
def coloHead : List Byte := leBytes 4 0x4C4F434D ++ leBytes 4 1 ++ leBytes 4 5248

def coloLow : List Byte := (at2 coloB [(0x10,8,77),(0x48,2,0x100),(0x50,1,1),(0x51,1,2),(0x54,4,64),(0x58,2,1024),(0x5A,2,256),(0x5C,1,4),
  (0x5D,1,1),(0x60,4,18816),(0x64,4,2 * 64 * 1024 * 16384 / 2^30),(0x92,2,400),(0xA0,2,4),(0xA2,2,4),(0xA4,2,4),(0xA6,2,4),(0xA8,2,4),
  (0xAA,2,1),(0xAC,4,1000),(0xC0,1,0),(0xC1,1,90),(0xC2,1,100),(0xC3,1,60),(0xC4,1,70),(0xC5,1,3),(0xC6,1,5),(0xD0,4,100),(0xD4,4,100),
  (0xD8,1,1),(0xD9,1,1),(0xDA,1,20),(0xDB,1,0)]).drop 16

def coloRest : List Byte := coloLow ++ List.replicate 4976 0

/-- The crc it should have. -/
def coloCrc : Nat := (crc32c (coloHead ++ List.replicate 4 0 ++ coloRest)).toNat

/-- The colophon with a crc field. -/
def coloWith (v : Nat) : List Byte := coloHead ++ (leBytes 4 v ++ coloRest)

theorem coloRest_length : coloRest.length = 5232 := by
  have : coloLow.length = 256 := by decide +kernel
  simp only [coloRest, List.length_append, List.length_replicate, this]

theorem leBytes4_length (v : Nat) : (leBytes 4 v).length = 4 := rfl

theorem coloWith_length (v : Nat) : (coloWith v).length = 5248 := by
  simp only [coloWith, List.length_append, coloRest_length, leBytes4_length]
  rfl

theorem leNat_leBytes4 (v : Nat) (h : v < 2 ^ 32) : leNat (leBytes 4 v) = v := by
  simp only [leBytes, leNat, BitVec.toNat_ofNat]
  omega

theorem coloWith_crc (v : Nat) : (Colo.mk (coloWith v)).crc = coloCrc := by
  have h1 : slice (coloWith v) 0 0x0C = coloHead := by
    rw [slice, List.drop_zero, coloWith, List.take_left' (i := 12) (l₁ := coloHead) rfl]; rfl
  have h2 : slice (coloWith v) 0x10 0x1470 = coloRest := by
    have : (coloWith v).drop 0x10 = coloRest := by
      rw [show coloWith v = (coloHead ++ leBytes 4 v) ++ coloRest from (List.append_assoc _ _ _).symm]
      exact List.drop_left' rfl
    simp only [slice, this]
    rw [List.take_of_length_le (by rw [coloRest_length]), coloRest_length]
    simp
  show (crc32c (slice (coloWith v) 0 0x0C ++ List.replicate 4 0 ++ slice (coloWith v) 0x10 0x1470)).toNat = coloCrc
  rw [h1, h2]
  rfl

theorem coloWith_crcOk (v : Nat) (h : v < 2 ^ 32) : (Colo.mk (coloWith v)).crcOk = decide (v = coloCrc) := by
  have : (Colo.mk (coloWith v)).f 0x0C 4 = leNat (leBytes 4 v) := rfl
  simp only [Colo.crcOk, this, coloWith_crc, leNat_leBytes4 v h]

theorem coloCrc_lt : coloCrc < 2 ^ 32 := BitVec.isLt _

theorem witness_SlotCommandsAndTimers_1 :
    (∃ (s : State) (k : Nat) (x : SlotSt) (c : Instr), k < 64 ∧ s.dev.slot k = x ∧ (x.present = false ∨ s.dev.slotEnabled k =
      false) ∧ c ∈ [Instr.slotPowerOn k, .slotPowerOff k, .slotResetPulse k]) ∧
    (∃ (s : State) (k : Nat) (x : SlotSt) (c : Instr), k < 64 ∧ s.dev.slot k = x ∧ x.present = true ∧ s.dev.slotEnabled k =
      true ∧ s.dev.slotHeld k = true ∧ c ∈ [Instr.slotPowerOn k, .slotPowerOff k, .slotResetPulse k]) ∧
    (∃ (s : State) (k : Nat) (x : SlotSt), k < 64 ∧ s.dev.slot k = x ∧ x.present = true ∧ s.dev.slotEnabled k = true ∧
      s.dev.slotHeld k = false ∧ x.blocked = false ∧ x.pwren = false) ∧
    (∃ (s : State) (k : Nat) (x : SlotSt), k < 64 ∧ s.dev.slot k = x ∧ x.present = true ∧ s.dev.slotEnabled k = true ∧
      s.dev.idleSlot k ∧ (s.dev.link k).st ≠ .quarantine) ∧
    (∃ (s : State) (k : Nat) (x : SlotSt), k < 64 ∧ s.dev.slot k = x ∧ x.pwren = true ∧ x.rst = true) ∧
    (∃ (s : State) (k : Nat) (x : SlotSt), k < 64 ∧ s.dev.slot k = x ∧ (x.pwren = false ∨ x.rst = false)) := by
  refine ⟨?_, ?_, ?_, ?_, ?_, ?_⟩
  · exact ⟨(sls : List (State)).getD 0 (State.reset), 2, ((sls : List (State)).getD 0 (State.reset) : State).dev.slot 2,
    Instr.slotPowerOn 2, by (repeat' apply And.intro) <;> decide +kernel⟩
  · exact ⟨(sls : List (State)).getD 2 (State.reset), 2, ((sls : List (State)).getD 2 (State.reset) : State).dev.slot 2,
    Instr.slotPowerOn 2, by (repeat' apply And.intro) <;> decide +kernel⟩
  · exact ⟨(sls : List (State)).getD 4 (State.reset), 2, ((sls : List (State)).getD 4 (State.reset) : State).dev.slot
    2, by (repeat' apply And.intro) <;> decide +kernel⟩
  · exact ⟨(sls : List (State)).getD 3 (State.reset), 2, ((sls : List (State)).getD 3 (State.reset) : State).dev.slot
    2, by (repeat' apply And.intro) <;> decide +kernel⟩
  · exact ⟨(sls : List (State)).getD 7 (State.reset), 2, ((sls : List (State)).getD 7 (State.reset) : State).dev.slot
    2, by (repeat' apply And.intro) <;> decide +kernel⟩
  · exact ⟨(sls : List (State)).getD 0 (State.reset), 2, ((sls : List (State)).getD 0 (State.reset) : State).dev.slot
    2, by (repeat' apply And.intro) <;> decide +kernel⟩

theorem witness_SlotCommandsAndTimers_2 :
    (∃ (s : State) (k : Nat) (x : SlotSt), k < 64 ∧ s.dev.slot k = x ∧ x.present = false ∧ (x.blocked = true ∨ (s.dev.link
      k).st = .quarantine)) ∧
    (∃ (s : State) (k : Nat) (x : SlotSt), k < 64 ∧ s.dev.slot k = x ∧ (x.present = true ∨ (x.blocked = false ∧ (s.dev.link
      k).st ≠ .quarantine))) ∧
    (∃ (s : State) (k : Nat) (x : SlotSt), k < 64 ∧ s.dev.slot k = x ∧ x.cycled = true ∧ x.present = true ∧ x.pwren = false ∧
      x.blocked = false ∧ s.dev.slotEnabled k = true ∧ bitOf s.dev.gl.busFailed.toNat (k / 8) = false ∧ bitOf
      s.dev.gl.busStuck.toNat (k / 8) = false) ∧
    (∃ (s : State) (k : Nat) (x : SlotSt), k < 64 ∧ s.dev.slot k = x ∧ (x.cycled = false ∨ x.present = false ∨ x.pwren = true ∨
      x.blocked = true)) := by
  refine ⟨?_, ?_, ?_, ?_⟩
  · exact ⟨(sls : List (State)).getD 5 (State.reset), 2, ((sls : List (State)).getD 5 (State.reset) : State).dev.slot
    2, by (repeat' apply And.intro) <;> decide +kernel⟩
  · exact ⟨(sls : List (State)).getD 0 (State.reset), 2, ((sls : List (State)).getD 0 (State.reset) : State).dev.slot
    2, by (repeat' apply And.intro) <;> decide +kernel⟩
  · exact ⟨(sls : List (State)).getD 10 (State.reset), 2, ((sls : List (State)).getD 10 (State.reset) : State).dev.slot
    2, by (repeat' apply And.intro) <;> decide +kernel⟩
  · exact ⟨(sls : List (State)).getD 0 (State.reset), 2, ((sls : List (State)).getD 0 (State.reset) : State).dev.slot
    2, by (repeat' apply And.intro) <;> decide +kernel⟩

theorem witness_InsertionAndRemoval :
    (∃ (s : State) (k : Nat) (x : SlotSt), k < 64 ∧ s.dev.slot k = x ∧ x.present = false ∧ s.dev.modes.mode ≠ .off ∧
      s.dev.modes.mode ≠ .halted ∧ s.dev.modes.mode ≠ .holdup) ∧
    (∃ (s : State) (k : Nat) (x : SlotSt), k < 64 ∧ s.dev.slot k = x ∧ x.present = true) ∧
    (∃ (s : State) (k : Nat) (x : SlotSt), k < 64 ∧ s.dev.slot k = x ∧ x.present = true ∧ s.dev.idleSlot k) ∧
    (∃ (s : State) (k : Nat) (x : SlotSt), k < 64 ∧ s.dev.slot k = x ∧ x.present = false) := by
  refine ⟨?_, ?_, ?_, ?_⟩
  · exact ⟨(sls : List (State)).getD 0 (State.reset), 2, ((sls : List (State)).getD 0 (State.reset) : State).dev.slot
    2, by (repeat' apply And.intro) <;> decide +kernel⟩
  · exact ⟨(sls : List (State)).getD 2 (State.reset), 2, ((sls : List (State)).getD 2 (State.reset) : State).dev.slot
    2, by (repeat' apply And.intro) <;> decide +kernel⟩
  · exact ⟨(sls : List (State)).getD 3 (State.reset), 2, ((sls : List (State)).getD 3 (State.reset) : State).dev.slot
    2, by (repeat' apply And.intro) <;> decide +kernel⟩
  · exact ⟨(sls : List (State)).getD 0 (State.reset), 2, ((sls : List (State)).getD 0 (State.reset) : State).dev.slot
    2, by (repeat' apply And.intro) <;> decide +kernel⟩

theorem witness_ColophonReads :
    (∃ (s : State) (k : Nat) (x : SlotSt) (c : Instr) (b : List Byte), k < 64 ∧ s.dev.slot k = x ∧ x.reading = true ∧
      s.dev.idleSlot k ∧ (c = .colophonReadDone k none ∨ (b.length ≠ 5248 ∧ c = .colophonReadDone k (some b)) ∨ (x.releasedAt +
      100000000 ≤ s.dev.now ∧ c = .colophonReadRetry k false))) ∧
    (∃ (s : State) (k : Nat) (x : SlotSt), k < 64 ∧ s.dev.slot k = x ∧ x.reading = false) ∧
    (∃ (s : State) (k : Nat) (x : SlotSt) (a : Bool), k < 64 ∧ s.dev.slot k = x ∧ (x.reading = false ∨ a = true ∨ s.dev.now <
      x.releasedAt + 100000000)) := by
  refine ⟨?_, ?_, ?_⟩
  · exact ⟨(rds id ++ rds pol : List (State)).getD 0 (State.reset), 2, ((rds id ++ rds pol : List (State)).getD 0 (State.reset)
    : State).dev.slot 2, .colophonReadDone 2 none, [], by (repeat' apply And.intro) <;> decide +kernel⟩
  · exact ⟨(rds id ++ rds pol : List (State)).getD 3 (State.reset), 2, ((rds id ++ rds pol : List (State)).getD 3 (State.reset)
    : State).dev.slot 2, by (repeat' apply And.intro) <;> decide +kernel⟩
  · exact ⟨(rds (fun d => d.modSt 2 (fun x => { x with releasedAt := 10^12 - 5 })) : List (State)).getD 0 (State.reset), 2,
    ((rds (fun d => d.modSt 2 (fun x => { x with releasedAt := 10^12 - 5 })) : List (State)).getD 0 (State.reset) :
    State).dev.slot 2, true, by (repeat' apply And.intro) <;> decide +kernel⟩

theorem witness_AssembleEnds_1 :
    (∃ (s : State) (r : RestoreIn), s.dev.modes.mode = .assemble ∧ s.dev.boot.dramDone = true ∧ s.dev.boot.linksDone = true ∧
      s.dev.boot.mapDone = false ∧ r.sealed = false ∧ r.scanOk = false) ∧
    (∃ (s : State) (r : RestoreIn), s.dev.modes.mode = .assemble ∧ s.dev.boot.dramDone = true ∧ s.dev.boot.linksDone = true ∧
      s.dev.boot.mapDone = false ∧ (r.sealed = true ∨ r.scanOk = true)) ∧
    (∃ (s : State), s.dev.modes.mode = .assemble ∧ (s.dev.boot.dramDone = false ∨ s.dev.boot.linksDone = false ∨
      s.dev.boot.mapDone = true)) ∧
    (∃ (s : State) (item : Nat), s.dev.modes.mode = .assemble ∧ s.dev.boot.mapDone = true ∧ s.dev.minSet = some item) ∧
    (∃ (s : State), s.dev.modes.mode = .assemble ∧ s.dev.boot.mapDone = true ∧ s.dev.minSet = none) ∧
    (∃ (s : State), s.dev.modes.mode = .assemble ∧ s.dev.boot.mapDone = false) := by
  refine ⟨?_, ?_, ?_, ?_, ?_, ?_⟩
  · exact ⟨asmD id, { ri0 with sealed := false, scanOk := false }, by (repeat' apply And.intro) <;> decide +kernel⟩
  · exact ⟨asmD id, ri0, by (repeat' apply And.intro) <;> decide +kernel⟩
  · exact ⟨asmD (fun d =>
    { d with boot := { d.boot with linksDone := false } }), by (repeat' apply And.intro) <;> decide +kernel⟩
  · exact ⟨asmD (fun d => { d with boot := { d.boot with mapDone := true } }), ((asmD (fun d =>
    { d with boot := { d.boot with mapDone := true } }) : State).dev.minSet).getD
    0, by (repeat' apply And.intro) <;> decide +kernel⟩
  · exact ⟨asmD (fun d =>
    { d with boot := { d.boot with mapDone := true }, dmc := { d.dmc with order := [0,1,2,3,4,5], chans := dom4 } }), by (repeat' apply And.intro) <;> decide +kernel⟩
  · exact ⟨asmD id, by (repeat' apply And.intro) <;> decide +kernel⟩

theorem witness_AssembleEnds_2 :
    (∃ (s : State) (c : Nat), s.dev.modes.mode = .assemble ∧ (s.dev.chan c).st = .training ∧ s.dev.boot.dramDone = false ∧
      (s.dev.dmc.chans.any (fun y => decide (y.1 ≠ c) && decide (y.2.st = .training))) = true ∧ Tbl.wf s.dev.dmc.chans = true) ∧
    (∃ (s : State) (c : Nat), s.dev.modes.mode = .assemble ∧ (s.dev.chan c).st = .training ∧ s.dev.boot.dramDone = false ∧
      (s.dev.dmc.chans.any (fun y => decide (y.1 ≠ c) && decide (y.2.st = .training))) = false ∧ Tbl.wf s.dev.dmc.chans = true
      ∧ (s.dev.dmc.chans.filter (fun y => decide (y.2.st = .inService))).length < 5) ∧
    (∃ (s : State) (c : Nat), s.dev.modes.mode = .assemble ∧ (s.dev.chan c).st = .training ∧ s.dev.boot.dramDone = false ∧
      (s.dev.dmc.chans.any (fun y => decide (y.1 ≠ c) && decide (y.2.st = .training))) = false ∧ Tbl.wf s.dev.dmc.chans = true
      ∧ 5 ≤ (s.dev.dmc.chans.filter (fun y => decide (y.2.st = .inService))).length) ∧
    (∃ (s : State) (c : Nat), s.dev.modes.mode = .assemble ∧ (s.dev.chan c).st ≠ .training) := by
  refine ⟨?_, ?_, ?_, ?_⟩
  · exact ⟨tr 5 [.training, .inService, .training] id, 0, by (repeat' apply And.intro) <;> decide +kernel⟩
  · exact ⟨tr 5 [.training, .inService, .failed] id, 0, by (repeat' apply And.intro) <;> decide +kernel⟩
  · exact ⟨tr 5 [.training, .inService, .inService, .inService, .inService, .inService] id,
    0, by (repeat' apply And.intro) <;> decide +kernel⟩
  · exact ⟨tr 5 [.training, .inService, .training] id, 1, by (repeat' apply And.intro) <;> decide +kernel⟩

theorem witness_ColophonReads_crc :
    (∃ (s : State) (k : Nat) (x : SlotSt) (b : List Byte), k < 64 ∧ s.dev.slot k = x ∧ x.reading = true ∧ b.length = 5248
      ∧ (⟨b⟩ : Colo).headOk = true ∧ (⟨b⟩ : Colo).crcOk = false ∧ x.crcAgain = false) ∧
    (∃ (s : State) (k : Nat) (x : SlotSt) (b : List Byte) (o : Nat), k < 64 ∧ s.dev.slot k = x ∧ x.reading = true ∧ b.length = 5248
      ∧ s.dev.judgeColo k ⟨b⟩ = (o, 0) ∧ (s.dev.link k).st ≠ .active) ∧
    (∃ (s : State) (k : Nat) (x : SlotSt) (b : List Byte) (o n : Nat), k < 64 ∧ s.dev.slot k = x ∧ x.reading = true ∧ b.length = 5248
      ∧ s.dev.judgeColo k ⟨b⟩ = (o, n) ∧ n ≠ 0 ∧ n ≠ 4 ∧ s.dev.idleSlot k ∧ ((⟨b⟩ : Colo).crcOk = true ∨ x.crcAgain = true)) := by
  refine ⟨?_, ?_, ?_⟩
  · let s := sl 2 (fun x => { x with reading := true, validated := false }) nq
    have hv : (coloCrc + 1) % 2 ^ 32 < 2 ^ 32 := Nat.mod_lt _ (by decide)
    refine ⟨s, 2, s.dev.slot 2, coloWith ((coloCrc + 1) % 2 ^ 32), by decide, rfl, by decide +kernel, coloWith_length _, by decide +kernel, ?_, by decide +kernel⟩
    rw [coloWith_crcOk _ hv]
    have := coloCrc_lt
    exact decide_eq_false (by omega)
  · let s := (sl 2 (fun x => { x with reading := true, validated := false }) (fun d => nq (pol (d.modLink 2 (fun l => { l with st := .train })))))
    refine ⟨s, 2, s.dev.slot 2, coloWith coloCrc, 2, by decide, rfl, by decide +kernel, coloWith_length _, ?_, by decide +kernel⟩
    have hc : (Colo.mk (coloWith coloCrc)).crcOk = true := by rw [coloWith_crcOk _ coloCrc_lt]; exact decide_eq_true rfl
    have hh : (Colo.mk (coloWith coloCrc)).headOk = true := by decide +kernel
    have hf : (Colo.mk (coloWith coloCrc)).fieldsOk = true := by decide +kernel
    have hs : s.dev.sameSerial 2 (Colo.mk (coloWith coloCrc)) = none := by decide +kernel
    have hg : (Colo.mk (coloWith coloCrc)).signed = false := by decide +kernel
    have hr : s.dev.recordOk 2 (Colo.mk (coloWith coloCrc)) = true := by decide +kernel
    have ht : (Colo.mk (coloWith coloCrc)).trust (s.dev.section 6) = 2 := by decide +kernel
    simp only [Dev.judgeColo, hc, hh, hf, hs, hg, hr, ht]
    decide
  · let s := sl 2 (fun x => { x with reading := true, validated := false, crcAgain := true }) nq
    exact ⟨s, 2, s.dev.slot 2, List.replicate 5248 0, 4, 2, by decide, rfl, by decide +kernel, List.length_replicate, by decide +kernel,
      by decide, by decide, by unfold Dev.idleSlot; decide +kernel, Or.inr (by decide +kernel)⟩

end SlotSide


/-! ### MemSide -/

namespace MemSide

def slq (f : Slu → Slu) (g : Dev → Dev) : State := hwf (fun d => g { d with slu := f { d.slu with nextId := 40 } }) slot0

def pwB (d : Dev) : Dev := { d with boot := { d.boot with impo := some { impo0 with sections := [(3, at2 [] ((List.range 80).map (fun k => (4 * k, 4, if k = 5 then 300 else if k = 6 then 300 else 1000))))] ++ impo0.sections } } }

def burst0 : OpReq := { OpReq.bare .progQlc 0 0 .freshFill with burst := true }

def onS : OpReq := { OpReq.bare .readQlc 2 0 (.hostRead 7) with cwMask := 4, count := 1, block := 0, page := 0 }

def rdD (d : Dev) : Dev := { d with rp := { d.rp with reads := [(7, { LeafRead.fresh 3 0 1 5 0 with walked := true, units := [(5, 2)], pua := mkPua 2 0 0, path := .direct, cws := [(2, CwSt.fresh)] })], nextRid := 8 }, gl := { d.gl with links := [(2, { linkA with auth := 1 })] } }

def longW : SluWait := ⟨9, 0, burst0, false⟩

def bp (f : Bpm → Bpm) (g : Dev → Dev) : State := hwf (fun d => g (({ d with bpm := f { d.bpm with lock := true } } : Dev).setCsr aBpmPoolCnt 4 |>.setCsr (aBpmPoolCnt + 4) 8 |>.setCsr (aBpmPoolCnt + 8) 8 |>.setCsr (aBpmPoolCnt + 16) 8 |>.setCsr (aBpmPoolCnt + 24) 2)) slot0

def b1 (o : Nat) : Buf := ⟨1, o, 0x10, 3, 0⟩

def bufsA : List (Nat × Buf) := [(bufKey 0 0, b1 0), (bufKey 0 1, ⟨2,0,0,5,0⟩), (bufKey 4 0, ⟨0,0,0,0,6⟩), (bufKey 4 1, ⟨2,0,0,5,8⟩), (bufKey 4 2, { b1 16 with owed := 4 })]

def bps : List State := [bp (fun b => { b with bufs := bufsA }) id, bp (fun b => { b with bufs := bufsA, lock := false }) id, bp (fun b => { b with bufs := bufsA, caps := [(0, 1), (8*16+4, 0)], waiting := [⟨0, 16, 4⟩, ⟨0x10, 0, 0⟩] }) id, bp (fun b => { b with bufs := [(0, b1 0), (1, b1 0), (2, b1 0), (3, b1 0)], mins := [(8*17+4, 100)], waiting := [⟨0x10, 0, 0⟩] }) id, bp (fun b => { b with bufs := bufsA, rejects := (List.range 16).map (fun k => (0x10, 10^12 - k)) }) id]

def dm (f : Dmc → Dmc) (g : Dev → Dev) : State := hwf (fun d => g { d with boot := { d.boot with impo := some { impo0 with sections := [(4, at2 [] [(2,1,2),(3,1,0),(8,2,0xFFF)])] ++ impo0.sections } }, dmc := f { d.dmc with order := [0,1,2,3,4,5], chans := (List.range 6).map (fun k => (k, { DChan.reset with st := .inService })) } }) slot0

def rk (x : DRank) (f : Dmc → Dmc) : State := dm (fun m => f { m with chans := [(0, { DChan.reset with st := .inService, ranks := [(1, x)] }), (1, { DChan.reset with st := .selfRefresh })] }) id

def rks : List State := (List.range 9).flatMap (fun n => [(true,true),(true,false),(false,true),(false,false)].map (fun b => rk ⟨b.1, n, b.2⟩ id))

def rq (w : Bool) (p : Option EccResult) : DReq := ⟨77, 0x10, 1, 5, false, w, 64 * 3 + 2, false, false, p⟩

def cyc (x : DRank) (w : List DWait) (f : Dmc → Dmc) : State := rk x (fun m => f { m with waiting := w })

def wd : DWord := ⟨3, 2, 0, 1, 0, 0, 5⟩

def fixS (v : Nat) (f : DChan → DChan) : State := dm (fun m => { m with chans := [(0, f { DChan.reset with st := .inService }), (1, { DChan.reset with st := .selfRefresh })] }) (fun d => d.setCsr aDmcFix (BitVec.ofNat 32 v))

def ce0 (k : Nat) : CeEnt := ⟨{wd with page := k}, 3, 1⟩

theorem witness_GrantRequests_1 :
    (∃ (s : State) (r : OpReq), (s.dev.opsMode && s.dev.reqValid r && (!r.onSlot || s.dev.countOk r) && s.dev.asked r &&
      (!r.onSlot || !s.dev.askedAlready r)) = true) ∧
    (∃ (s : State) (r : OpReq) (p : FloorPart × Bool), (s.dev.opsMode && s.dev.reqValid r && (!r.onSlot || s.dev.countOk r) &&
      s.dev.asked r && (!r.onSlot || !s.dev.askedAlready r)) = true ∧ r.onSlot = false ∧ s.dev.slu.waiting = [] ∧
      s.dev.rankStops r = false ∧ s.dev.fitPart r = some p) ∧
    (∃ (s : State) (r : OpReq), (s.dev.opsMode && s.dev.reqValid r && (!r.onSlot || s.dev.countOk r) && s.dev.asked r &&
      (!r.onSlot || !s.dev.askedAlready r)) = true ∧ r.onSlot = false ∧ s.dev.slu.waiting = [] ∧ s.dev.rankStops r = false ∧
      s.dev.fitPart r = none) ∧
    (∃ (s : State) (r : OpReq), (s.dev.opsMode = false ∨ s.dev.reqValid r = false ∨ s.dev.asked r = false)) ∧
    (∃ (s : State) (n : Nat) (w : SluWait), s.dev.slu.waiting.find? (fun w => w.id = n) = some w ∧ w.long = false) ∧
    (∃ (s : State) (n : Nat) (w : SluWait), s.dev.slu.waiting.find? (fun w => w.id = n) = some w ∧ w.long = true) := by
  refine ⟨?_, ?_, ?_, ?_, ?_, ?_⟩
  · exact ⟨slq id rdD, burst0, by decide +kernel⟩
  · exact ⟨slq id (fun d => rdD (pwB d)), burst0, ((slq id (fun d => rdD (pwB d)) : State).dev.fitPart burst0).getD (.general,
    false), by (repeat' apply And.intro) <;> decide +kernel⟩
  · exact ⟨slq id rdD, burst0, by (repeat' apply And.intro) <;> decide +kernel⟩
  · exact ⟨slq id rdD, { burst0 with purpose := .zeroBurst true }, by decide +kernel⟩
  · exact ⟨slq (fun l => { l with waiting := [longW, ⟨10, 5, onS, true⟩, ⟨9, 5, onS, true⟩] }) rdD, 9, ((slq (fun l =>
    { l with waiting := [longW, ⟨10, 5, onS, true⟩, ⟨9, 5, onS, true⟩] }) rdD : State).dev.slu.waiting.find? (fun w => w.id =
    9)).getD longW, by (repeat' apply And.intro) <;> decide +kernel⟩
  · exact ⟨slq (fun l => { l with waiting := [longW, ⟨10, 5, onS, true⟩, ⟨9, 5, onS, true⟩] }) rdD, 10, ((slq (fun l =>
    { l with waiting := [longW, ⟨10, 5, onS, true⟩, ⟨9, 5, onS, true⟩] }) rdD : State).dev.slu.waiting.find? (fun w => w.id =
    10)).getD longW, by (repeat' apply And.intro) <;> decide +kernel⟩

theorem witness_GrantRequests_2 :
    ∃ (s : State) (n : Nat), s.dev.slu.waiting.find? (fun w => w.id = n) = none :=
  ⟨slq id rdD, 9, by decide +kernel⟩

theorem witness_BufferPools_1 :
    (∃ (port owner size n : Nat) (dram : Bool), allocPool port owner dram size = .inl n) ∧
    (∃ (s : State) (port owner size p : Nat) (dram : Bool), allocPool port owner dram size = .inr p ∧ s.dev.grantStatus owner p
      = 0) ∧
    (∃ (s : State) (port owner size p : Nat) (dram : Bool), allocPool port owner dram size = .inr p ∧ s.dev.grantStatus owner p
      ≠ 0) ∧
    (∃ (s : State) (port : Nat) (h : W32), s.dev.freeStatus port h = 0) ∧
    (∃ (s : State) (port : Nat) (h : W32), s.dev.freeStatus port h ≠ 0) ∧
    (∃ (s : State) (p i : Nat), p < 8 ∧ (s.dev.bpm.buf p i).st = 2) := by
  refine ⟨?_, ?_, ?_, ?_, ?_, ?_⟩
  · exact ⟨0, 0, 0, (match allocPool 0 0 true 0 with | .inl k => k | .inr _ => 99), true, by decide +kernel⟩
  · exact ⟨(bps : List (State)).getD 0 (State.reset), 0, 16, 100,
    (match allocPool 0 16 true 100 with | .inl _ => 99 | .inr k => k),
    true, by (repeat' apply And.intro) <;> decide +kernel⟩
  · exact ⟨(bps : List (State)).getD 0 (State.reset), 0, 16, 20000,
    (match allocPool 0 16 true 20000 with | .inl _ => 99 | .inr k => k),
    true, by (repeat' apply And.intro) <;> decide +kernel⟩
  · exact ⟨(bps : List (State)).getD 0 (State.reset), 0, mkHandle 0 0 0, by decide +kernel⟩
  · exact ⟨(bps ++ [bp (fun b => { b with bufs := bufsA, rejects := (List.range 14).map (fun k => (0x10, 10^12 - k)) }) id] :
    List (State)).getD 0 (State.reset), 0, mkHandle 0 1 0, by decide +kernel⟩
  · exact ⟨(bps : List (State)).getD 0 (State.reset), 0, 1, by (repeat' apply And.intro) <;> decide +kernel⟩

theorem witness_BufferPools_2 :
    (∃ (s : State) (p i : Nat), (8 ≤ p ∨ (s.dev.bpm.buf p i).st ≠ 2)) ∧
    (∃ (s : State) (p i u : Nat), u < 512 ∧ 4 ≤ p ∧ p < 8 ∧ bitOf (s.dev.bpm.buf p i).owed u = true) ∧
    (∃ (s : State) (p i u : Nat), u < 512 ∧ (p < 4 ∨ bitOf (s.dev.bpm.buf p i).owed u = false)) ∧
    (∃ (s : State), s.dev.domReady 2 = true ∧ s.dev.bpm.lock = false ∧ s.dev.cfgOk = true) ∧
    (∃ (s : State), s.dev.domReady 2 = true ∧ s.dev.bpm.lock = false ∧ s.dev.cfgOk = false) ∧
    (∃ (s : State), (s.dev.domReady 2 = false ∨ s.dev.bpm.lock = true)) := by
  refine ⟨?_, ?_, ?_, ?_, ?_, ?_⟩
  · exact ⟨(bps : List (State)).getD 0 (State.reset), 0, 0, by decide +kernel⟩
  · exact ⟨(bps : List (State)).getD 0 (State.reset), 4, 0, 1, by (repeat' apply And.intro) <;> decide +kernel⟩
  · exact ⟨(bps : List (State)).getD 0 (State.reset), 0, 0, 0, by (repeat' apply And.intro) <;> decide +kernel⟩
  · exact ⟨bp (fun b => { b with lock := false }) id, by (repeat' apply And.intro) <;> decide +kernel⟩
  · exact ⟨bp (fun b => { b with lock := false, mins := [(8*17+4, 100)] })
    id, by (repeat' apply And.intro) <;> decide +kernel⟩
  · exact ⟨bp id id, by decide +kernel⟩

theorem witness_RefreshAndFills :
    (∃ (s : State) (c r : Nat) (x : DRank), s.dev.inService c = true ∧ r < s.dev.rankCount ∧ s.dev.rank c r = x) ∧
    (∃ (s : State) (c r : Nat) (x : DRank), s.dev.inService c = true ∧ r < s.dev.rankCount ∧ s.dev.rank c r = x ∧ x.hot =
      false) ∧
    (∃ (s : State) (c r : Nat) (x : DRank), s.dev.inService c = true ∧ r < s.dev.rankCount ∧ s.dev.rank c r = x ∧ x.hot = true) ∧
    (∃ (s : State) (c r : Nat), (s.dev.inService c = false ∨ s.dev.rankCount ≤ r)) ∧
    (∃ (s : State) (g : Nat), s.dev.dmc.fills.has g = true) ∧
    (∃ (s : State) (g : Nat), s.dev.dmc.fills.has g = false) := by
  refine ⟨?_, ?_, ?_, ?_, ?_, ?_⟩
  · exact ⟨(rks : List (State)).getD 0 (State.reset), 0, 0, ((rks : List (State)).getD 0 (State.reset) : State).dev.rank 0
    0, by (repeat' apply And.intro) <;> decide +kernel⟩
  · exact ⟨(rks : List (State)).getD 0 (State.reset), 0, 0, ((rks : List (State)).getD 0 (State.reset) : State).dev.rank 0
    0, by (repeat' apply And.intro) <;> decide +kernel⟩
  · exact ⟨(rks : List (State)).getD 0 (State.reset), 0, 1, ((rks : List (State)).getD 0 (State.reset) : State).dev.rank 0
    1, by (repeat' apply And.intro) <;> decide +kernel⟩
  · exact ⟨(rks : List (State)).getD 0 (State.reset), 0, 2, by decide +kernel⟩
  · exact ⟨dm (fun m => { m with fills := [(1, 5), (5, 7)], used := [3, 5] }) id, 1, by decide +kernel⟩
  · exact ⟨dm (fun m => { m with fills := [(1, 5), (5, 7)], used := [3, 5] }) id, 0, by decide +kernel⟩

theorem witness_DramCycles_1 :
    (∃ (s : State) (c r : Nat) (x : DRank), s.dev.inService c = true ∧ r < s.dev.rankCount ∧ s.dev.rank c r = x ∧ x.forced =
      true) ∧
    (∃ (s : State) (c r : Nat) (x : DRank), s.dev.inService c = true ∧ r < s.dev.rankCount ∧ s.dev.rank c r = x ∧ x.forced =
      false ∧ s.dev.reqsAt c 0 r = [] ∧ 0 < x.owed) ∧
    (∃ (s : State) (c r : Nat) (x : DRank), s.dev.inService c = true ∧ r < s.dev.rankCount ∧ s.dev.rank c r = x ∧ x.forced =
      false ∧ s.dev.reqsAt c 0 r = [] ∧ x.owed = 0) ∧
    (∃ (s : State) (c r : Nat) (x : DRank) (sub : Nat) (q : DReq), s.dev.inService c = true ∧ r < s.dev.rankCount ∧ s.dev.rank
      c r = x ∧ sub < 2 ∧ x.forced = false ∧ q.rank = r ∧ s.dev.dmc.waiting = [⟨c, sub, q⟩] ∧ q.isWrite = false) ∧
    (∃ (s : State) (c r : Nat) (x : DRank) (sub : Nat) (q : DReq), s.dev.inService c = true ∧ r < s.dev.rankCount ∧ s.dev.rank
      c r = x ∧ sub < 2 ∧ x.forced = false ∧ q.rank = r ∧ s.dev.dmc.waiting = [⟨c, sub, q⟩] ∧ q.isWrite = true ∧ q.part = none
      ∧ s.dev.reqReady c q = true) ∧
    (∃ (s : State) (c r : Nat) (x : DRank) (sub : Nat) (q : DReq), s.dev.inService c = true ∧ r < s.dev.rankCount ∧ s.dev.rank
      c r = x ∧ sub < 2 ∧ x.forced = false ∧ q.rank = r ∧ s.dev.dmc.waiting = [⟨c, sub, q⟩] ∧ s.dev.reqReady c q = false ∧
      x.owed = 0) := by
  refine ⟨?_, ?_, ?_, ?_, ?_, ?_⟩
  · exact ⟨(rks : List (State)).getD 0 (State.reset), 0, 1, ((rks : List (State)).getD 0 (State.reset) : State).dev.rank 0
    1, by (repeat' apply And.intro) <;> decide +kernel⟩
  · exact ⟨(rks : List (State)).getD 5 (State.reset), 0, 1, ((rks : List (State)).getD 5 (State.reset) : State).dev.rank 0
    1, by (repeat' apply And.intro) <;> decide +kernel⟩
  · exact ⟨(rks : List (State)).getD 0 (State.reset), 0, 0, ((rks : List (State)).getD 0 (State.reset) : State).dev.rank 0
    0, by (repeat' apply And.intro) <;> decide +kernel⟩
  · exact ⟨cyc ⟨false,0,false⟩ [⟨0,0,(rq false none : DReq)⟩] id, 0, 1, (cyc ⟨false,0,false⟩ [⟨0,0,(rq false none : DReq)⟩] id
    : State).dev.rank 0 1, 0, rq false none, by (repeat' apply And.intro) <;> decide +kernel⟩
  · exact ⟨cyc ⟨false,0,false⟩ [⟨0,0,(rq true none : DReq)⟩] id, 0, 1, (cyc ⟨false,0,false⟩ [⟨0,0,(rq true none : DReq)⟩] id :
    State).dev.rank 0 1, 0, rq true none, by (repeat' apply And.intro) <;> decide +kernel⟩
  · exact ⟨cyc ⟨false,0,false⟩ [⟨0,0,(rq true none : DReq)⟩] (fun m =>
    { m with fills := (List.range 16).map (fun k => (k + 50, 1)) }), 0, 1, (cyc ⟨false,0,false⟩ [⟨0,0,(rq true none : DReq)⟩]
    (fun m => { m with fills := (List.range 16).map (fun k => (k + 50, 1)) }) : State).dev.rank 0 1, 0, rq true
    none, by (repeat' apply And.intro) <;> decide +kernel⟩

theorem witness_DramCycles_2 :
    (∃ (s : State) (c r : Nat) (x : DRank) (q : DReq), s.dev.inService c = true ∧ r < s.dev.rankCount ∧ s.dev.rank c r = x ∧
      x.forced = true ∧ q.rank = r ∧ dmcPort q.port = true ∧ s.dev.dmc.waiting.any (fun w => w.req.id = q.id) = false ∧ q.word
      < 64 * s.dev.localPages ∧ q.isWrite = false ∧ s.dev.readsZero c q.page (q.word % 64) = true) ∧
    (∃ (s : State) (c r : Nat) (x : DRank) (q : DReq), s.dev.inService c = true ∧ r < s.dev.rankCount ∧ s.dev.rank c r = x ∧
      x.forced = true ∧ q.rank = r ∧ dmcPort q.port = true ∧ s.dev.dmc.waiting.any (fun w => w.req.id = q.id) = false ∧ q.word
      < 64 * s.dev.localPages ∧ (q.isWrite = true ∨ s.dev.readsZero c q.page (q.word % 64) = false)) ∧
    (∃ (s : State) (c r : Nat) (x : DRank) (p n : Nat), s.dev.inService c = true ∧ r < s.dev.rankCount ∧ s.dev.rank c r = x ∧
      x.forced = true ∧ dmcPort p = true ∧ s.dev.dclass p = .rt ∧ (s.dev.dport p).panic = false ∧ n < 1024 * (s.dev.dport
      p).weir) ∧
    (∃ (s : State) (c r : Nat) (x : DRank) (sub : Nat), s.dev.inService c = true ∧ r < s.dev.rankCount ∧ s.dev.rank c r = x ∧ 2
      ≤ sub) := by
  refine ⟨?_, ?_, ?_, ?_⟩
  · exact ⟨cyc ⟨false,3,true⟩ [] id, 0, 1, (cyc ⟨false,3,true⟩ [] id : State).dev.rank 0 1, rq false
    none, by (repeat' apply And.intro) <;> decide +kernel⟩
  · exact ⟨cyc ⟨false,3,true⟩ [] id, 0, 1, (cyc ⟨false,3,true⟩ [] id : State).dev.rank 0 1, rq true
    none, by (repeat' apply And.intro) <;> decide +kernel⟩
  · exact ⟨cyc ⟨false,3,true⟩ [] id, 0, 1, (cyc ⟨false,3,true⟩ [] id : State).dev.rank 0 1, 0,
    0, by (repeat' apply And.intro) <;> decide +kernel⟩
  · exact ⟨(rks : List (State)).getD 0 (State.reset), 0, 0, ((rks : List (State)).getD 0 (State.reset) : State).dev.rank 0 0,
    2, by (repeat' apply And.intro) <;> decide +kernel⟩

theorem witness_DramErrorsAndRepair_1 :
    (∃ (s : State) (c n : Nat) (rd : DramReader), s.dev.inService c = true ∧ rd ∈ [DramReader.other, .encode n, .core n,
      .mapWalk n, .journal n]) ∧
    (∃ (s : State) (c cs : Nat) (x : CSlot), s.dev.inService c = true ∧ s.dev.postable cs x ∧ x.bufs = [] ∧ x.rsv = 0 ∧ x.reads
      = false ∧ s.dev.rp.reads.any (fun r => decide (r.2.cs = some cs)) = false) ∧
    (∃ (s : State) (c : Nat), s.dev.inService c = false) ∧
    (∃ (s : State) (w : Nat), s.dev.reg aDmcCtrl 0 0 ≠ 0 ∧ s.dev.modes.mode ≠ .idle ∧ s.dev.modes.mode ≠ .holdup ∧
      s.dev.dmc.order ≠ [] ∧ s.dev.dmc.patrolNext s.dev.dmc.patrolAt = some w ∧ (s.dev.dmc.patrolNext (w + 1)).isSome = true) ∧
    (∃ (s : State) (w : Nat), s.dev.reg aDmcCtrl 0 0 ≠ 0 ∧ s.dev.modes.mode ≠ .idle ∧ s.dev.modes.mode ≠ .holdup ∧
      s.dev.dmc.order ≠ [] ∧ s.dev.dmc.patrolNext s.dev.dmc.patrolAt = some w ∧ s.dev.dmc.patrolNext (w + 1) = none) ∧
    (∃ (s : State) (w c page : Nat), s.dev.reg aDmcCtrl 0 0 ≠ 0 ∧ s.dev.modes.mode ≠ .idle ∧ s.dev.modes.mode ≠ .holdup ∧
      s.dev.dmc.order ≠ [] ∧ s.dev.dmc.patrolNext s.dev.dmc.patrolAt = some w ∧ (s.dev.dmc.order[w / 64 %
      s.dev.dmc.order.length]?) = some c ∧ page = w / 64 / s.dev.dmc.order.length ∧ s.dev.readsZero c page (w % 64) = false) := by
  refine ⟨?_, ?_, ?_, ?_, ?_, ?_⟩
  · exact ⟨fixS 3 id, 0, 4, DramReader.other, by (repeat' apply And.intro) <;> decide +kernel⟩
  · exact ⟨(fixS 3 id).cmd 3 (ioc 1 [(1,1)] : CSlot), 0, 3, ioc 1 [(1,1)], by (repeat' apply And.intro) <;> decide +kernel⟩
  · exact ⟨fixS 3 id, 1, by decide +kernel⟩
  · exact ⟨(dm (fun m => { m with used := [0, 3], patrolAt := 32767 }) (fun d => d.setCsr aDmcCtrl 1)), (((dm (fun m =>
    { m with used := [0, 3], patrolAt := 32767 }) (fun d => d.setCsr aDmcCtrl 1)) : State).dev.dmc.patrolNext ((dm (fun m =>
    { m with used := [0, 3], patrolAt := 32767 }) (fun d => d.setCsr aDmcCtrl 1)) : State).dev.dmc.patrolAt).getD
    0, by (repeat' apply And.intro) <;> decide +kernel⟩
  · exact ⟨(dm (fun m => { m with used := [0, 3], patrolAt := 4*32768 - 1 }) (fun d => d.setCsr aDmcCtrl 1)), (((dm (fun m =>
    { m with used := [0, 3], patrolAt := 4*32768 - 1 }) (fun d => d.setCsr aDmcCtrl 1)) : State).dev.dmc.patrolNext ((dm (fun m
    => { m with used := [0, 3], patrolAt := 4*32768 - 1 }) (fun d => d.setCsr aDmcCtrl 1)) : State).dev.dmc.patrolAt).getD
    0, by (repeat' apply And.intro) <;> decide +kernel⟩
  · exact ⟨(dm (fun m => { m with used := [0, 3], patrolAt := 32767 }) (fun d => d.setCsr aDmcCtrl 1)), (((dm (fun m =>
    { m with used := [0, 3], patrolAt := 32767 }) (fun d => d.setCsr aDmcCtrl 1)) : State).dev.dmc.patrolNext ((dm (fun m =>
    { m with used := [0, 3], patrolAt := 32767 }) (fun d => d.setCsr aDmcCtrl 1)) : State).dev.dmc.patrolAt).getD 0, ((((dm
    (fun m => { m with used := [0, 3], patrolAt := 32767 }) (fun d => d.setCsr aDmcCtrl 1)) : State).dev.dmc.order[((((dm (fun
    m => { m with used := [0, 3], patrolAt := 32767 }) (fun d => d.setCsr aDmcCtrl 1)) : State).dev.dmc.patrolNext ((dm (fun m
    => { m with used := [0, 3], patrolAt := 32767 }) (fun d => d.setCsr aDmcCtrl 1)) : State).dev.dmc.patrolAt).getD 0 : Nat) /
    64 % ((dm (fun m => { m with used := [0, 3], patrolAt := 32767 }) (fun d => d.setCsr aDmcCtrl 1)) :
    State).dev.dmc.order.length]?).getD 0), (((((dm (fun m => { m with used := [0, 3], patrolAt := 32767 }) (fun d => d.setCsr
    aDmcCtrl 1)) : State).dev.dmc.patrolNext ((dm (fun m => { m with used := [0, 3], patrolAt := 32767 }) (fun d => d.setCsr
    aDmcCtrl 1)) : State).dev.dmc.patrolAt).getD 0 : Nat) / 64 / ((dm (fun m => { m with used := [0, 3], patrolAt := 32767 })
    (fun d => d.setCsr aDmcCtrl 1)) : State).dev.dmc.order.length), by (repeat' apply And.intro) <;> decide +kernel⟩

theorem witness_DramErrorsAndRepair_2 :
    (∃ (s : State), (s.dev.reg aDmcCtrl 0 0 = 0 ∨ s.dev.modes.mode = .idle ∨ s.dev.modes.mode = .holdup)) ∧
    (∃ (s : State) (v : W32) (c page : Nat), c = bitsOf v.toNat 3 0 ∧ page = s.dev.reg aDmcFix 23 0 ∧ bitOf v.toNat 6 = true ∧
      c ≤ 11 ∧ s.dev.inService c = true ∧ page < s.dev.localPages ∧ bitsOf v.toNat 5 4 = 1) ∧
    (∃ (s : State) (v : W32) (c page : Nat) (e : EccResult), c = bitsOf v.toNat 3 0 ∧ page = s.dev.reg aDmcFix 23 0 ∧ bitOf
      v.toNat 6 = true ∧ c ≤ 11 ∧ s.dev.inService c = true ∧ page < s.dev.localPages ∧ bitsOf v.toNat 5 4 = 1 ∧ e ≠ .clean) ∧
    (∃ (s : State) (v : W32) (c page : Nat), c = bitsOf v.toNat 3 0 ∧ page = s.dev.reg aDmcFix 23 0 ∧ bitOf v.toNat 6 = true ∧
      c ≤ 11 ∧ s.dev.inService c = true ∧ page < s.dev.localPages ∧ bitsOf v.toNat 5 4 = 2 ∧ (s.dev.chan c).remap.length < 256) ∧
    (∃ (s : State) (v : W32) (c page : Nat), c = bitsOf v.toNat 3 0 ∧ page = s.dev.reg aDmcFix 23 0 ∧ bitOf v.toNat 6 = true ∧
      c ≤ 11 ∧ s.dev.inService c = true ∧ page < s.dev.localPages ∧ bitsOf v.toNat 5 4 = 2 ∧ 256 ≤ (s.dev.chan c).remap.length
      ∧ (s.dev.chan c).remap.has page = false) ∧
    (∃ (s : State) (v : W32) (c page : Nat), c = bitsOf v.toNat 3 0 ∧ page = s.dev.reg aDmcFix 23 0 ∧ bitOf v.toNat 6 = true ∧
      c ≤ 11 ∧ s.dev.inService c = true ∧ page < s.dev.localPages ∧ bitsOf v.toNat 5 4 = 3) := by
  refine ⟨?_, ?_, ?_, ?_, ?_, ?_⟩
  · exact ⟨dm id (fun d => d.setCsr aDmcCtrl 0), by decide +kernel⟩
  · exact ⟨fixS 3 id, 0x50, bitsOf (0x50 : W32).toNat 3 0, (fixS 3 id : State).dev.reg aDmcFix 23
    0, by (repeat' apply And.intro) <;> decide +kernel⟩
  · exact ⟨fixS 3 id, 0x50, bitsOf (0x50 : W32).toNat 3 0, (fixS 3 id : State).dev.reg aDmcFix 23 0,
    .uncorrectable, by (repeat' apply And.intro) <;> decide +kernel⟩
  · exact ⟨fixS 3 id, 0x60, bitsOf (0x60 : W32).toNat 3 0, (fixS 3 id : State).dev.reg aDmcFix 23
    0, by (repeat' apply And.intro) <;> decide +kernel⟩
  · exact ⟨fixS 3 (fun x => { x with remap := (List.range 256).map (fun k => (k + 7, k)) }), 0x60, bitsOf (0x60 : W32).toNat 3
    0, (fixS 3 (fun x => { x with remap := (List.range 256).map (fun k => (k + 7, k)) }) : State).dev.reg aDmcFix 23
    0, by (repeat' apply And.intro) <;> decide +kernel⟩
  · exact ⟨fixS 3 id, 0x70, bitsOf (0x70 : W32).toNat 3 0, (fixS 3 id : State).dev.reg aDmcFix 23
    0, by (repeat' apply And.intro) <;> decide +kernel⟩

theorem witness_DramErrorsAndRepair_3 :
    (∃ (s : State) (v : W32) (c page : Nat) (i : Instr) (e : EccResult), c = bitsOf v.toNat 3 0 ∧ page = s.dev.reg aDmcFix 23 0
      ∧ bitOf v.toNat 6 = true ∧ c ≤ 11 ∧ s.dev.inService c = false ∧ ((bitsOf v.toNat 5 4 = 1 ∧ i = .dmcRewriteWord v e) ∨
      (bitsOf v.toNat 5 4 = 2 ∧ i = .dmcRetirePage v) ∨ (bitsOf v.toNat 5 4 = 3 ∧ i = .dmcReleaseRemap v))) ∧
    (∃ (s : State) (c : Nat) (e : CeEnt) (l : List CeEnt), (s.dev.chan c).log = e :: l) ∧
    (∃ (s : State) (c : Nat), (s.dev.chan c).log = []) ∧
    (∃ (s : State), s.dev.injLocked = false) ∧
    (∃ (s : State), s.dev.injLocked = true) := by
  refine ⟨?_, ?_, ?_, ?_, ?_⟩
  · exact ⟨fixS 3 id, 0x51, bitsOf (0x51 : W32).toNat 3 0, (fixS 3 id : State).dev.reg aDmcFix 23 0, Instr.dmcRewriteWord (0x51
    : W32) (.clean : EccResult), .clean, by (repeat' apply And.intro) <;> decide +kernel⟩
  · exact ⟨fixS 3 (fun x => { x with log := [ce0 3, ce0 8] }), 0, ce0 3, [ce0 8], by decide +kernel⟩
  · exact ⟨fixS 3 (fun x => { x with log := [ce0 3, ce0 8] }), 1, by decide +kernel⟩
  · exact ⟨fixS 3 id, by decide +kernel⟩
  · exact ⟨((fixS 3 id).d fun d => d.setCsr aDmcInjCtrl 0x400), by decide +kernel⟩

end MemSide


/-! ### GuardSide -/

namespace GuardSide

def lps (l : List (Nat × LPair)) (g : Dev → Dev) : State := hwf (fun d => g { d with fc := { d.fc with pairs := l }, dmc := { d.dmc with order := [0,1,2,3,4,5], chans := (List.range 6).map (fun k => (k, { DChan.reset with st := .inService })) } }) slot0

def lpA (st : LpSt) : LPair := ⟨st, [], none⟩

def lall (k : Nat) (x : LPair) : List (Nat × LPair) := (List.range 8).map (fun j => (j, if j = k then x else if j = 7 then lpA .standby else lpA .active))

def lret (k : Nat) (x : LPair) (n : Nat) : List (Nat × LPair) := (List.range 8).map (fun j => (j, if j = k then x else if j < n then lpA .active else lpA .retired))

def tcSt (st : Pd) (d : Dev) : Dev := { d with pwr := { d.pwr with doms := d.pwr.doms.map (fun y => (y.1, if y.1 = 12 then { y.2 with st := st, up := st } else y.2)) } }

def lss : List State := [LpSt.off, .active, .standby, .taking, .selfTest, .retired].flatMap (fun st => [lps (lall 2 (lpA st)) id, lps (lall 2 ⟨st, [10^12 - 5, 10^12 - 6, 10^12 - 7, 4], some 5⟩) id, lps (lret 2 ⟨st, [10^12 - 5], some 5⟩ 0) id, lps (lret 2 (lpA st) 2) id, lps (lret 2 (lpA st) 1) id, lps (lall 2 (lpA st)) (tcSt .off), lps (lall 2 (lpA st)) (fun d => { d with modes := { d.modes with mode := .idle } }), lps (lall 2 (lpA st)) (fun d => { d with modes := { d.modes with mode := .halted } })]) ++ [lps (lall 7 (lpA .selfTest)) (tcSt .gated), lps (lall 2 (lpA .taking)) (fun d => { d with pwr := { d.pwr with doms := d.pwr.doms.map (fun y => (y.1, if y.1 = tcDom 2 then { y.2 with st := .gated } else y.2)) } })]

def eng (l : List Nat) (g : Dev → Dev) (k : Nat) (u : EngineUnit) : State := lps (lall k (lpA .active)) (fun d => g { d with fc := { d.fc with engines := [(256 * u.dom + u.unit % 256, l)] } })

def spq (ver p1 p2 : Nat) (b : List Byte) (se : Option Nat) (ok : Bool) : SpdmReq := ⟨ver, p1, p2, b, se, ok⟩

def spS (ph : Nat) (ss : List (Nat × Sess)) (g : Dev → Dev) : State := hwf (fun d => g { d with bcol := { d.bcol with signed := true, head := [1,2,3] }, boot := { d.boot with chain := [0x30, 3, 1, 2, 3, 9, 9] }, mgmt := { d.mgmt with spdm := ⟨ph, ss⟩, i3cAddr := none }, ports := [(0, { HPort.reset with dl := true, vfEn := true, numVfs := 4, spdm := ⟨ph, ss⟩, ide := [(1, .keyed), (2, .secure)] }), (1, { HPort.reset with dl := true })] }) slot0

def sss : List (Nat × Sess) := [(0, ⟨.established, 3⟩), (1, ⟨.handshaking, 0⟩)]

def vias : List SpdmVia := [.doe .a, .doe .b, .mctp]

def spall : List State := (List.range 4).map (fun k => spS k sss id) ++ [spS 3 [] id, spS 3 (sss ++ [(2, ⟨.established, 3⟩), (3, ⟨.established, 3⟩)]) id, spS 3 sss (fun d => { d with bcol := { d.bcol with signed := false } }), spS 3 sss (fun d => { d with modes := { d.modes with mode := .dormant } })]

def mi0 (a b : Nat) : MiReq := ⟨BitVec.ofNat 32 a, BitVec.ofNat 32 b, []⟩

def mgS : List State := [hw, hw.d (fun d => { d with mgmt := { d.mgmt with i3cAddr := some 5, health := 5, healthEn := 0 } }), hw.d (fun d => { d with modes := { d.modes with mode := .dormant } }), hw.d (fun d => { d with mgmt := { d.mgmt with health := 5, healthEn := 1 }, pins := { d.pins with mgmtAlert := true } })]

def mis : List MiReq := [mi0 0 0, mi0 (2*2^24) (2^31), mi0 (3*2^24 + 65) 0, mi0 (4*2^24) 0, mi0 (9*2^24) 5, mi0 0x201 0, mi0 0x401 0, mi0 2 7, mi0 2 0, mi0 3 64, mi0 3 250, mi0 3 251, mi0 3 63, mi0 9 3, mi0 (2^31 + 2^25 + 0xFF0000) (2^31)]

def instrs (via : SpdmVia) (m : SpdmReq) : List Instr := [Instr.spdmGetVersion via m, .spdmGetCapabilities via m, .spdmNegotiateAlgorithms via m, .spdmGetDigests via m, .spdmGetCertificate via m, .spdmChallenge via m, .spdmGetMeasurements via m, .spdmKeyExchange via m, .spdmFinish via m, .spdmHeartbeat via m, .spdmKeyUpdate via m, .spdmEndSession via m]

def rwS : List State := [hw, hw.d (fun d => d.setCsr aHgSlotAdmin 0xFFFFFFFF), hw.d (fun d => { d with pwr := { d.pwr with doms := d.pwr.doms.map (fun y => (y.1, if y.1 = 21 ∨ y.1 = 31 ∨ y.1 = 13 then { y.2 with st := .off, up := .off } else y.2)) } }), hw.d (fun d => { d with bpm := { d.bpm with lock := true } })]

theorem witness_LockstepPairs_1 :
    (∃ (s : State) (k : Nat) (x : LPair), k < 8 ∧ s.dev.lp k = x ∧ pairsRun s.dev.modes.mode = true ∧ x.st = .standby) ∧
    (∃ (s : State) (k : Nat) (x : LPair) (j : Nat), k < 8 ∧ s.dev.lp k = x ∧ pairsRun s.dev.modes.mode = true ∧ (x.st = .active
      ∨ x.st = .taking) ∧ s.dev.taker k = some j) ∧
    (∃ (s : State) (k : Nat) (x : LPair), k < 8 ∧ s.dev.lp k = x ∧ pairsRun s.dev.modes.mode = true ∧ (x.st = .active ∨ x.st =
      .taking) ∧ s.dev.taker k = none) ∧
    (∃ (s : State) (k : Nat) (x : LPair), k < 8 ∧ s.dev.lp k = x ∧ (pairsRun s.dev.modes.mode = false ∨ x.st = .off ∨ x.st =
      .selfTest ∨ x.st = .retired)) ∧
    (∃ (s : State) (k : Nat) (x : LPair), k < 8 ∧ s.dev.lp k = x ∧ x.st = .taking ∧ (s.dev.dom (tcDom k)).st = .on) ∧
    (∃ (s : State) (k : Nat) (x : LPair), k < 8 ∧ s.dev.lp k = x ∧ (x.st ≠ .taking ∨ (s.dev.dom (tcDom k)).st ≠ .on)) := by
  refine ⟨?_, ?_, ?_, ?_, ?_, ?_⟩
  · exact ⟨(lss : List (State)).getD 0 (State.reset), 7, ((lss : List (State)).getD 0 (State.reset) : State).dev.lp
    7, by (repeat' apply And.intro) <;> decide +kernel⟩
  · exact ⟨(lss : List (State)).getD 8 (State.reset), 2, ((lss : List (State)).getD 8 (State.reset) : State).dev.lp 2, (((lss :
    List (State)).getD 8 (State.reset) : State).dev.taker 2).getD 9, by (repeat' apply And.intro) <;> decide +kernel⟩
  · exact ⟨(lss : List (State)).getD 10 (State.reset), 2, ((lss : List (State)).getD 10 (State.reset) : State).dev.lp
    2, by (repeat' apply And.intro) <;> decide +kernel⟩
  · exact ⟨(lss : List (State)).getD 0 (State.reset), 2, ((lss : List (State)).getD 0 (State.reset) : State).dev.lp
    2, by (repeat' apply And.intro) <;> decide +kernel⟩
  · exact ⟨(lss : List (State)).getD 24 (State.reset), 2, ((lss : List (State)).getD 24 (State.reset) : State).dev.lp
    2, by (repeat' apply And.intro) <;> decide +kernel⟩
  · exact ⟨(lss : List (State)).getD 0 (State.reset), 2, ((lss : List (State)).getD 0 (State.reset) : State).dev.lp
    2, by (repeat' apply And.intro) <;> decide +kernel⟩

theorem witness_LockstepPairs_2 :
    (∃ (s : State) (k : Nat) (x : LPair), k < 8 ∧ s.dev.lp k = x ∧ x.st = .selfTest ∧ (x.misses.filter (fun m => decide
      (s.dev.now < m + dayNs))).length < 3 ∧ s.dev.domUsable (tcDom k) = true) ∧
    (∃ (s : State) (k : Nat) (x : LPair) (ok : Bool), k < 8 ∧ s.dev.lp k = x ∧ x.st = .selfTest ∧ (ok = false ∨ 3 ≤
      (x.misses.filter (fun m => decide (s.dev.now < m + dayNs))).length)) ∧
    (∃ (s : State) (k : Nat) (x : LPair) (ok : Bool), k < 8 ∧ s.dev.lp k = x ∧ x.st = .selfTest ∧ (ok = false ∨ 3 ≤
      (x.misses.filter (fun m => decide (s.dev.now < m + dayNs))).length) ∧ s.dev.modes.mode ≠ .off ∧ s.dev.modes.mode ≠
      .halted ∧ (∀ j, j < 8 → j ≠ k → (s.dev.lp j).st = .retired)) ∧
    (∃ (s : State) (k : Nat) (x : LPair), k < 8 ∧ s.dev.lp k = x ∧ x.st ≠ .selfTest) ∧
    (∃ (s : State) (k : Nat) (x : LPair), k < 8 ∧ s.dev.lp k = x ∧ s.dev.standby = some k) ∧
    (∃ (s : State) (k : Nat) (x : LPair), k < 8 ∧ s.dev.lp k = x ∧ s.dev.standby = none) := by
  refine ⟨?_, ?_, ?_, ?_, ?_, ?_⟩
  · exact ⟨(lss : List (State)).getD 32 (State.reset), 2, ((lss : List (State)).getD 32 (State.reset) : State).dev.lp
    2, by (repeat' apply And.intro) <;> decide +kernel⟩
  · exact ⟨(lss : List (State)).getD 32 (State.reset), 2, ((lss : List (State)).getD 32 (State.reset) : State).dev.lp 2,
    false, by (repeat' apply And.intro) <;> decide +kernel⟩
  · exact ⟨(lss : List (State)).getD 34 (State.reset), 2, ((lss : List (State)).getD 34 (State.reset) : State).dev.lp 2,
    false, by (repeat' apply And.intro) <;> decide +kernel⟩
  · exact ⟨(lss : List (State)).getD 0 (State.reset), 2, ((lss : List (State)).getD 0 (State.reset) : State).dev.lp
    2, by (repeat' apply And.intro) <;> decide +kernel⟩
  · exact ⟨(lss : List (State)).getD 0 (State.reset), 7, ((lss : List (State)).getD 0 (State.reset) : State).dev.lp
    7, by (repeat' apply And.intro) <;> decide +kernel⟩
  · exact ⟨(lss : List (State)).getD 2 (State.reset), 2, ((lss : List (State)).getD 2 (State.reset) : State).dev.lp
    2, by (repeat' apply And.intro) <;> decide +kernel⟩

theorem witness_MismatchesAndAudit_1 :
    (∃ (s : State), s.dev.modes.mode ≠ .off ∧ s.dev.modes.mode ≠ .halted) ∧
    (∃ (s : State), (s.dev.modes.mode = .off ∨ s.dev.modes.mode = .halted)) ∧
    (∃ (s : State) (u : EngineUnit), 2 ≤ u.dom ∧ u.dom ≤ 35 ∧ (s.dev.dom u.dom).st ≠ .off ∧ ((s.dev.fc.engines.get [] (256 *
      u.dom + u.unit % 256)).filter (fun m => decide (s.dev.now < m + msNs))).length < 2) ∧
    (∃ (s : State) (u : EngineUnit), 2 ≤ u.dom ∧ u.dom ≤ 35 ∧ (s.dev.dom u.dom).st ≠ .off ∧ 2 ≤ ((s.dev.fc.engines.get [] (256
      * u.dom + u.unit % 256)).filter (fun m => decide (s.dev.now < m + msNs))).length ∧ s.dev.modes.mode ≠ .off ∧ (s.dev.dom
      u.dom).failed = false ∧ (13 ≤ u.dom → u.dom ≤ 20 → ∀ i, i < 8 → (s.dev.slot (8 * (u.dom - 13) + i)).admitted = false)) ∧
    (∃ (s : State) (u : EngineUnit), (u.dom < 2 ∨ 35 < u.dom ∨ (s.dev.dom u.dom).st = .off)) ∧
    (∃ (s : State), s.dev.domReady 2 = true) := by
  refine ⟨?_, ?_, ?_, ?_, ?_, ?_⟩
  · exact ⟨lps (lall 2 (lpA .active)) id, by (repeat' apply And.intro) <;> decide +kernel⟩
  · exact ⟨State.reset, by decide +kernel⟩
  · exact ⟨eng [] id 2 (((List.range 37).map (fun k => (⟨k, 5⟩ : EngineUnit)) : List (EngineUnit)).getD 2 (⟨0,0⟩) :
    EngineUnit), ((List.range 37).map (fun k => (⟨k, 5⟩ : EngineUnit)) : List (EngineUnit)).getD 2
    (⟨0,0⟩), by (repeat' apply And.intro) <;> decide +kernel⟩
  · exact ⟨eng [10^12-5, 10^12 - 9, 5] id 2 (((List.range 37).map (fun k => (⟨k, 5⟩ : EngineUnit)) : List (EngineUnit)).getD 2
    (⟨0,0⟩) : EngineUnit), ((List.range 37).map (fun k => (⟨k, 5⟩ : EngineUnit)) : List (EngineUnit)).getD 2
    (⟨0,0⟩), by (repeat' apply And.intro) <;> decide +kernel⟩
  · exact ⟨eng [] id 2 (((List.range 37).map (fun k => (⟨k, 5⟩ : EngineUnit)) : List (EngineUnit)).getD 0 (⟨0,0⟩) :
    EngineUnit), ((List.range 37).map (fun k => (⟨k, 5⟩ : EngineUnit)) : List (EngineUnit)).getD 0
    (⟨0,0⟩), by decide +kernel⟩
  · exact ⟨lps (lall 2 (lpA .active)) id, by decide +kernel⟩

theorem witness_MismatchesAndAudit_2 :
    (∃ (s : State), s.dev.domReady 2 = false) ∧
    (∃ (s : State) (a : Nat), (s.dev.modes.mode = .off ∨ csrAssigned a = true)) ∧
    (∃ (s : State) (a : Nat), (s.dev.modes.mode = .off ∨ csrAssigned a = false ∨ s.dev.domDark (s.dev.csrDomain a) = false)) ∧
    (∃ (s : State) (a : Nat), s.dev.modes.mode ≠ .off ∧ csrAssigned a = false ∧ s.dev.evl.queues = [] ∧ s.dev.evl.supp = []) := by
  refine ⟨?_, ?_, ?_, ?_⟩
  · exact ⟨lps (lall 2 (lpA .active)) (fun d => { d with pwr := { d.pwr with doms := [] } }), by decide +kernel⟩
  · exact ⟨lps (lall 2 (lpA .active)) id, aGlCtrl, by decide +kernel⟩
  · exact ⟨lps (lall 2 (lpA .active)) id, 0x80001, by decide +kernel⟩
  · exact ⟨lps (lall 2 (lpA .active)) id, 0x80001, by (repeat' apply And.intro) <;> decide +kernel⟩

theorem witness_SpdmNegotiation_1 :
    (∃ (s : State) (via : SpdmVia) (m : SpdmReq) (c : Instr), s.dev.spdmHears via = false ∧ c ∈ [Instr.spdmGetVersion via m,
      .spdmGetCapabilities via m, .spdmNegotiateAlgorithms via m, .spdmGetDigests via m, .spdmGetCertificate via m,
      .spdmChallenge via m, .spdmGetMeasurements via m, .spdmKeyExchange via m, .spdmFinish via m, .spdmHeartbeat via m,
      .spdmKeyUpdate via m, .spdmEndSession via m]) ∧
    (∃ (s : State) (via : SpdmVia) (m : SpdmReq), s.dev.spdmHears via = true ∧ m.version = 0x10) ∧
    (∃ (s : State) (via : SpdmVia) (m : SpdmReq), s.dev.spdmHears via = true ∧ m.version ≠ 0x10) ∧
    (∃ (s : State) (via : SpdmVia) (m : SpdmReq), s.dev.spdmHears via = true ∧ m.version = 0x13 ∧ 1 ≤ (s.dev.spdm via).phase) ∧
    (∃ (s : State) (via : SpdmVia) (m : SpdmReq), s.dev.spdmHears via = true ∧ m.version = 0x13 ∧ (s.dev.spdm via).phase = 0) ∧
    (∃ (s : State) (via : SpdmVia) (m : SpdmReq), s.dev.spdmHears via = true ∧ m.version = 0x13 ∧ 2 ≤ (s.dev.spdm via).phase) := by
  refine ⟨?_, ?_, ?_, ?_, ?_, ?_⟩
  · exact ⟨(spall : List (State)).getD 7 (State.reset), (vias : List (SpdmVia)).getD 2 (.doe .a), spq 0x10 0 0 [] none true,
    (instrs ((vias : List (SpdmVia)).getD 2 (.doe .a) : SpdmVia) (spq 0x10 0 0 [] none true : SpdmReq) : List (Instr)).getD 0
    (Instr.jtagBypass), by (repeat' apply And.intro) <;> decide +kernel⟩
  · exact ⟨(spall : List (State)).getD 0 (State.reset), (vias : List (SpdmVia)).getD 0 (.doe .a), spq 0x10 0 0 [] none
    true, by (repeat' apply And.intro) <;> decide +kernel⟩
  · exact ⟨(spall : List (State)).getD 0 (State.reset), (vias : List (SpdmVia)).getD 0 (.doe .a), spq 0x13 0 0 [] none
    true, by (repeat' apply And.intro) <;> decide +kernel⟩
  · exact ⟨(spall : List (State)).getD 1 (State.reset), (vias : List (SpdmVia)).getD 0 (.doe .a), spq 0x13 0 0 [] none
    true, by (repeat' apply And.intro) <;> decide +kernel⟩
  · exact ⟨(spall : List (State)).getD 0 (State.reset), (vias : List (SpdmVia)).getD 0 (.doe .a), spq 0x13 0 0 [] none
    true, by (repeat' apply And.intro) <;> decide +kernel⟩
  · exact ⟨(spall : List (State)).getD 2 (State.reset), (vias : List (SpdmVia)).getD 0 (.doe .a), spq 0x13 0 0 [] none
    true, by (repeat' apply And.intro) <;> decide +kernel⟩

theorem witness_SpdmNegotiation_2 :
    (∃ (s : State) (via : SpdmVia) (m : SpdmReq), s.dev.spdmHears via = true ∧ m.version = 0x13 ∧ (s.dev.spdm via).phase < 2) ∧
    (∃ (s : State) (via : SpdmVia) (m : SpdmReq) (c : Instr), s.dev.spdmHears via = true ∧ s.dev.bcol.signed = false ∧ c ∈
      [Instr.spdmGetDigests via m, .spdmGetCertificate via m, .spdmChallenge via m, .spdmGetMeasurements via m,
      .spdmKeyExchange via m, .spdmFinish via m, .spdmHeartbeat via m, .spdmKeyUpdate via m, .spdmEndSession via m]) ∧
    (∃ (s : State) (via : SpdmVia) (m : SpdmReq), s.dev.spdmHears via = true ∧ s.dev.bcol.signed = true ∧ m.version = 0x13 ∧ 3
      ≤ (s.dev.spdm via).phase ∧ m.session = none) ∧
    (∃ (s : State) (via : SpdmVia) (m : SpdmReq), s.dev.spdmHears via = true ∧ s.dev.bcol.signed = true ∧ m.version = 0x13 ∧ 3
      ≤ (s.dev.spdm via).phase ∧ m.session = none ∧ m.param1 % 16 = 0 ∧ fieldAt m.body 0 2 < s.dev.spdmChain.length ∧ fieldAt
      m.body 0 2 + fieldAt m.body 2 2 ≤ s.dev.spdmChain.length) ∧
    (∃ (s : State) (via : SpdmVia) (m : SpdmReq), s.dev.spdmHears via = true ∧ s.dev.bcol.signed = true ∧ m.version = 0x13 ∧ 3
      ≤ (s.dev.spdm via).phase ∧ m.session = none ∧ m.param1 % 16 ≠ 0) ∧
    (∃ (s : State) (via : SpdmVia) (m : SpdmReq), s.dev.spdmHears via = true ∧ s.dev.bcol.signed = true ∧ m.version = 0x13 ∧ 3
      ≤ (s.dev.spdm via).phase ∧ m.session = none ∧ m.param1 % 16 = 0) := by
  refine ⟨?_, ?_, ?_, ?_, ?_, ?_⟩
  · exact ⟨(spall : List (State)).getD 0 (State.reset), (vias : List (SpdmVia)).getD 0 (.doe .a), spq 0x13 0 0 [] none
    true, by (repeat' apply And.intro) <;> decide +kernel⟩
  · exact ⟨(spall : List (State)).getD 6 (State.reset), (vias : List (SpdmVia)).getD 0 (.doe .a), spq 0x10 0 0 [] none true,
    (instrs ((vias : List (SpdmVia)).getD 0 (.doe .a) : SpdmVia) (spq 0x10 0 0 [] none true : SpdmReq) : List (Instr)).getD 3
    (Instr.jtagBypass), by (repeat' apply And.intro) <;> decide +kernel⟩
  · exact ⟨(spall : List (State)).getD 3 (State.reset), (vias : List (SpdmVia)).getD 0 (.doe .a), spq 0x13 0 0 [] none
    true, by (repeat' apply And.intro) <;> decide +kernel⟩
  · exact ⟨(spall : List (State)).getD 3 (State.reset), (vias : List (SpdmVia)).getD 0 (.doe .a), spq 0x13 0 0 [] none
    true, by (repeat' apply And.intro) <;> decide +kernel⟩
  · exact ⟨(spall : List (State)).getD 3 (State.reset), (vias : List (SpdmVia)).getD 0 (.doe .a), spq 0x13 1 0xFF [] none
    true, by (repeat' apply And.intro) <;> decide +kernel⟩
  · exact ⟨(spall : List (State)).getD 3 (State.reset), (vias : List (SpdmVia)).getD 0 (.doe .a), spq 0x13 0 0 [] none
    true, by (repeat' apply And.intro) <;> decide +kernel⟩

theorem witness_SpdmNegotiation_3 :
    (∃ (s : State) (via : SpdmVia) (m : SpdmReq), s.dev.spdmHears via = true ∧ s.dev.bcol.signed = true ∧ m.version = 0x13 ∧ 3
      ≤ (s.dev.spdm via).phase ∧ m.session = none ∧ bitOf m.param1 0 = false ∧ (m.param2 = 0 ∨ m.param2 = 0xFF ∨ m.param2 ∈
      measureIdx)) ∧
    (∃ (s : State) (via : SpdmVia) (m : SpdmReq), s.dev.spdmHears via = true ∧ s.dev.bcol.signed = true ∧ m.version = 0x13 ∧ 3
      ≤ (s.dev.spdm via).phase ∧ m.session = none ∧ m.param2 ≠ 0 ∧ m.param2 ≠ 0xFF ∧ m.param2 ∉ measureIdx) := by
  refine ⟨?_, ?_⟩
  · exact ⟨(spall : List (State)).getD 3 (State.reset), (vias : List (SpdmVia)).getD 0 (.doe .a), spq 0x13 0 0 [] none
    true, by (repeat' apply And.intro) <;> decide +kernel⟩
  · exact ⟨(spall : List (State)).getD 3 (State.reset), (vias : List (SpdmVia)).getD 0 (.doe .a), spq 0x13 0 9 [] none
    true, by (repeat' apply And.intro) <;> decide +kernel⟩

theorem witness_SpdmSessionsAndIde_1 :
    (∃ (s : State) (via : SpdmVia) (m : SpdmReq), s.dev.spdmHears via = true ∧ s.dev.bcol.signed = true ∧ m.version = 0x13 ∧ 3
      ≤ (s.dev.spdm via).phase ∧ m.session = none ∧ m.param2 % 16 = 0 ∧ (s.dev.spdm via).sessions.length < via.limit) ∧
    (∃ (s : State) (via : SpdmVia) (m : SpdmReq), s.dev.spdmHears via = true ∧ s.dev.bcol.signed = true ∧ m.version = 0x13 ∧ 3
      ≤ (s.dev.spdm via).phase ∧ m.session = none ∧ m.param2 % 16 = 0 ∧ via.limit ≤ (s.dev.spdm via).sessions.length) ∧
    (∃ (s : State) (via : SpdmVia) (m : SpdmReq) (n : Nat) (y : Sess), s.dev.spdmHears via = true ∧ s.dev.bcol.signed = true ∧
      m.version = 0x13 ∧ 3 ≤ (s.dev.spdm via).phase ∧ m.session = some n ∧ (s.dev.spdm via).sessions.get? n = some y ∧ m.authOk
      = true ∧ y.st = .handshaking) ∧
    (∃ (s : State) (via : SpdmVia) (m : SpdmReq) (n : Nat) (y : Sess), s.dev.spdmHears via = true ∧ s.dev.bcol.signed = true ∧
      m.version = 0x13 ∧ 3 ≤ (s.dev.spdm via).phase ∧ m.session = some n ∧ (s.dev.spdm via).sessions.get? n = some y ∧ m.authOk
      = true ∧ y.st = .established) ∧
    (∃ (s : State) (via : SpdmVia) (m : SpdmReq) (n : Nat) (y : Sess), s.dev.spdmHears via = true ∧ s.dev.bcol.signed = true ∧
      m.version = 0x13 ∧ 3 ≤ (s.dev.spdm via).phase ∧ m.session = some n ∧ (s.dev.spdm via).sessions.get? n = some y ∧ m.authOk
      = true ∧ y.st = .established ∧ 1 ≤ m.param1 ∧ m.param1 ≤ 2) ∧
    (∃ (s : State) (via : SpdmVia) (m : SpdmReq) (n : Nat) (y : Sess) (c : Instr), s.dev.spdmHears via = true ∧
      s.dev.bcol.signed = true ∧ m.version = 0x13 ∧ 3 ≤ (s.dev.spdm via).phase ∧ m.session = some n ∧ (s.dev.spdm
      via).sessions.get? n = some y ∧ m.authOk = false ∧ c ∈ [Instr.spdmFinish via m, .spdmHeartbeat via m, .spdmKeyUpdate via
      m, .spdmEndSession via m]) := by
  refine ⟨?_, ?_, ?_, ?_, ?_, ?_⟩
  · exact ⟨(spall : List (State)).getD 3 (State.reset), (vias : List (SpdmVia)).getD 0 (.doe .a), spq 0x13 0 0 [] none
    true, by (repeat' apply And.intro) <;> decide +kernel⟩
  · exact ⟨(spall : List (State)).getD 3 (State.reset), (vias : List (SpdmVia)).getD 2 (.doe .a), spq 0x13 0 0 [] none
    true, by (repeat' apply And.intro) <;> decide +kernel⟩
  · exact ⟨(spall : List (State)).getD 3 (State.reset), (vias : List (SpdmVia)).getD 0 (.doe .a), spq 0x13 2 0 [] (some 1)
    true, ((spq 0x13 2 0 [] (some 1) true : SpdmReq).session.getD 9), ((((spall : List (State)).getD 3 (State.reset) :
    State).dev.spdm ((vias : List (SpdmVia)).getD 0 (.doe .a) : SpdmVia)).sessions.get? (((spq 0x13 2 0 [] (some 1) true :
    SpdmReq).session.getD 9) : Nat)).getD ⟨.established, 0⟩, by (repeat' apply And.intro) <;> decide +kernel⟩
  · exact ⟨(spall : List (State)).getD 3 (State.reset), (vias : List (SpdmVia)).getD 0 (.doe .a), spq 0x13 1 0 [] (some 0)
    true, ((spq 0x13 1 0 [] (some 0) true : SpdmReq).session.getD 9), ((((spall : List (State)).getD 3 (State.reset) :
    State).dev.spdm ((vias : List (SpdmVia)).getD 0 (.doe .a) : SpdmVia)).sessions.get? (((spq 0x13 1 0 [] (some 0) true :
    SpdmReq).session.getD 9) : Nat)).getD ⟨.established, 0⟩, by (repeat' apply And.intro) <;> decide +kernel⟩
  · exact ⟨(spall : List (State)).getD 3 (State.reset), (vias : List (SpdmVia)).getD 0 (.doe .a), spq 0x13 1 0 [] (some 0)
    true, ((spq 0x13 1 0 [] (some 0) true : SpdmReq).session.getD 9), ((((spall : List (State)).getD 3 (State.reset) :
    State).dev.spdm ((vias : List (SpdmVia)).getD 0 (.doe .a) : SpdmVia)).sessions.get? (((spq 0x13 1 0 [] (some 0) true :
    SpdmReq).session.getD 9) : Nat)).getD ⟨.established, 0⟩, by (repeat' apply And.intro) <;> decide +kernel⟩
  · exact ⟨(spall : List (State)).getD 3 (State.reset), (vias : List (SpdmVia)).getD 0 (.doe .a), spq 0x13 0 0 [] (some 0)
    false, ((spq 0x13 0 0 [] (some 0) false : SpdmReq).session.getD 9), ((((spall : List (State)).getD 3 (State.reset) :
    State).dev.spdm ((vias : List (SpdmVia)).getD 0 (.doe .a) : SpdmVia)).sessions.get? (((spq 0x13 0 0 [] (some 0) false :
    SpdmReq).session.getD 9) : Nat)).getD ⟨.established, 0⟩, (instrs ((vias : List (SpdmVia)).getD 0 (.doe .a) : SpdmVia) (spq
    0x13 0 0 [] (some 0) false : SpdmReq) : List (Instr)).getD 8
    (Instr.jtagBypass), by (repeat' apply And.intro) <;> decide +kernel⟩

theorem witness_SpdmSessionsAndIde_2 :
    (∃ (s : State) (via : SpdmVia) (p : Port) (i : IdeKm) (n : Nat), s.dev.spdmHears via = true ∧ s.dev.bcol.signed = true ∧
      via = .doe p ∧ i.session = some n ∧ ((s.dev.spdm via).sessions.get? n).map (·.st) = some .established ∧ i.stream ≤ 4 ∧
      i.op = .keyProg ∧ i.keySet ≤ 1 ∧ i.sub ≤ 2 ∧ i.keyOk = true ∧ (s.dev.hport p).stream i.stream = .insecure) ∧
    (∃ (s : State) (via : SpdmVia) (p : Port) (i : IdeKm) (n : Nat), s.dev.spdmHears via = true ∧ s.dev.bcol.signed = true ∧
      via = .doe p ∧ i.session = some n ∧ ((s.dev.spdm via).sessions.get? n).map (·.st) = some .established ∧ i.stream ≤ 4 ∧
      i.op = .setGo ∧ (s.dev.hport p).stream i.stream ≠ .insecure) ∧
    (∃ (s : State) (via : SpdmVia) (p : Port) (i : IdeKm) (n : Nat), s.dev.spdmHears via = true ∧ s.dev.bcol.signed = true ∧
      via = .doe p ∧ i.session = some n ∧ ((s.dev.spdm via).sessions.get? n).map (·.st) = some .established ∧ i.stream ≤ 4 ∧
      i.op = .setStop) ∧
    (∃ (s : State) (via : SpdmVia), s.dev.spdmHears via = true ∧ s.dev.bcol.signed = true ∧ via = .mctp) ∧
    (∃ (s : State) (via : SpdmVia) (p : Port) (i : IdeKm), s.dev.spdmHears via = true ∧ s.dev.bcol.signed = true ∧ via = .doe p
      ∧ i.session = none) ∧
    (∃ (s : State) (p : Port) (n : Nat), (s.dev.hport p).dl = true ∧ (s.dev.hport p).stream n = .secure) := by
  refine ⟨?_, ?_, ?_, ?_, ?_, ?_⟩
  · exact ⟨(spall : List (State)).getD 0 (State.reset), (vias : List (SpdmVia)).getD 0 (.doe .a), .a, (([IdeOp.query, .keyProg,
    .setGo, .setStop].flatMap (fun o => (List.range 6).flatMap (fun st => [some 0, none, some 1].map (fun se => (⟨se, o, st, 0,
    true, 1, true⟩ : IdeKm))))) : List (IdeKm)).getD 18 (⟨none,.query,0,0,true,1,true⟩), (((([IdeOp.query, .keyProg, .setGo,
    .setStop].flatMap (fun o => (List.range 6).flatMap (fun st => [some 0, none, some 1].map (fun se => (⟨se, o, st, 0, true,
    1, true⟩ : IdeKm))))) : List (IdeKm)).getD 18 (⟨none,.query,0,0,true,1,true⟩) : IdeKm).session.getD
    9), by (repeat' apply And.intro) <;> decide +kernel⟩
  · exact ⟨(spall : List (State)).getD 0 (State.reset), (vias : List (SpdmVia)).getD 0 (.doe .a), .a, (([IdeOp.query, .keyProg,
    .setGo, .setStop].flatMap (fun o => (List.range 6).flatMap (fun st => [some 0, none, some 1].map (fun se => (⟨se, o, st, 0,
    true, 1, true⟩ : IdeKm))))) : List (IdeKm)).getD 39 (⟨none,.query,0,0,true,1,true⟩), (((([IdeOp.query, .keyProg, .setGo,
    .setStop].flatMap (fun o => (List.range 6).flatMap (fun st => [some 0, none, some 1].map (fun se => (⟨se, o, st, 0, true,
    1, true⟩ : IdeKm))))) : List (IdeKm)).getD 39 (⟨none,.query,0,0,true,1,true⟩) : IdeKm).session.getD
    9), by (repeat' apply And.intro) <;> decide +kernel⟩
  · exact ⟨(spall : List (State)).getD 0 (State.reset), (vias : List (SpdmVia)).getD 0 (.doe .a), .a, (([IdeOp.query, .keyProg,
    .setGo, .setStop].flatMap (fun o => (List.range 6).flatMap (fun st => [some 0, none, some 1].map (fun se => (⟨se, o, st, 0,
    true, 1, true⟩ : IdeKm))))) : List (IdeKm)).getD 54 (⟨none,.query,0,0,true,1,true⟩), (((([IdeOp.query, .keyProg, .setGo,
    .setStop].flatMap (fun o => (List.range 6).flatMap (fun st => [some 0, none, some 1].map (fun se => (⟨se, o, st, 0, true,
    1, true⟩ : IdeKm))))) : List (IdeKm)).getD 54 (⟨none,.query,0,0,true,1,true⟩) : IdeKm).session.getD
    9), by (repeat' apply And.intro) <;> decide +kernel⟩
  · exact ⟨(spall : List (State)).getD 0 (State.reset), (vias : List (SpdmVia)).getD 2 (.doe
    .a), by (repeat' apply And.intro) <;> decide +kernel⟩
  · exact ⟨(spall : List (State)).getD 0 (State.reset), (vias : List (SpdmVia)).getD 0 (.doe .a), .a, (([IdeOp.query, .keyProg,
    .setGo, .setStop].flatMap (fun o => (List.range 6).flatMap (fun st => [some 0, none, some 1].map (fun se => (⟨se, o, st, 0,
    true, 1, true⟩ : IdeKm))))) : List (IdeKm)).getD 1
    (⟨none,.query,0,0,true,1,true⟩), by (repeat' apply And.intro) <;> decide +kernel⟩
  · exact ⟨(spall : List (State)).getD 0 (State.reset), .a, 2, by (repeat' apply And.intro) <;> decide +kernel⟩

theorem witness_SpdmSessionsAndIde_3 :
    (∃ (s : State) (p : Port) (n cs : Nat) (x : CSlot), (s.dev.hport p).dl = true ∧ (s.dev.hport p).stream n = .secure ∧
      s.dev.postable cs x ∧ (x.st = .fetched ∨ x.st = .paced) ∧ x.bufs = [] ∧ x.rsv = 0 ∧ x.reads = false ∧ s.dev.rp.reads.any
      (fun r => decide (r.2.cs = some cs)) = false) ∧
    (∃ (s : State) (p : Port) (n : Nat), ((s.dev.hport p).dl = false ∨ (s.dev.hport p).stream n ≠ .secure)) := by
  refine ⟨?_, ?_⟩
  · exact ⟨(spS 3 sss id).cmd 3 ({ioc 1 [(1,1)] with st := .fetched} : CSlot), .a, 2, 3,
    {ioc 1 [(1,1)] with st := .fetched}, by (repeat' apply And.intro) <;> decide +kernel⟩
  · exact ⟨(spall : List (State)).getD 0 (State.reset), .a, 0, by decide +kernel⟩

theorem witness_ManagementBus_1 :
    (∃ (s : State) (n : Nat), s.dev.modes.mode ≠ .off ∧ 1 ≤ n ∧ n < 0xFF) ∧
    (∃ (s : State) (n : Nat), s.dev.modes.mode ≠ .off ∧ (n = 0 ∨ 0xFF ≤ n)) ∧
    (∃ (s : State) (n : Nat), s.dev.modes.mode ≠ .off ∧ s.dev.mgmt.i3cAddr = none ∧ n ≤ 0x7F) ∧
    (∃ (s : State) (n : Nat), s.dev.modes.mode ≠ .off ∧ (s.dev.mgmt.i3cAddr.isSome = true ∨ 0x7F < n)) ∧
    (∃ (s : State), s.dev.modes.mode ≠ .off) ∧
    (∃ (s : State) (m : MiReq) (c : Instr), s.dev.modes.mode ≠ .off ∧ s.dev.modes.mode = .dormant ∧ c ∈
      [Instr.miReadDataStructure .mctp m, .miControllerHealthPoll .mctp m, .miConfigurationSet .mctp m, .miConfigurationGet
      .mctp m]) := by
  refine ⟨?_, ?_, ?_, ?_, ?_, ?_⟩
  · exact ⟨(mgS : List (State)).getD 0 (State.reset), 1, by (repeat' apply And.intro) <;> decide +kernel⟩
  · exact ⟨(mgS : List (State)).getD 0 (State.reset), 0, by (repeat' apply And.intro) <;> decide +kernel⟩
  · exact ⟨(mgS : List (State)).getD 0 (State.reset), 0, by (repeat' apply And.intro) <;> decide +kernel⟩
  · exact ⟨(mgS : List (State)).getD 0 (State.reset), 0x80, by (repeat' apply And.intro) <;> decide +kernel⟩
  · exact ⟨(mgS : List (State)).getD 0 (State.reset), by decide +kernel⟩
  · exact ⟨(mgS : List (State)).getD 2 (State.reset), (mis : List (MiReq)).getD 0 (⟨0,0,[]⟩), Instr.miReadDataStructure .mctp
    ((mis : List (MiReq)).getD 0 (⟨0,0,[]⟩) : MiReq), by (repeat' apply And.intro) <;> decide +kernel⟩

theorem witness_ManagementBus_2 :
    (∃ (s : State), s.dev.modes.mode ≠ .off ∧ s.dev.modes.mode ≠ .dormant) ∧
    (∃ (s : State) (m : MiReq), s.dev.modes.mode ≠ .off ∧ s.dev.modes.mode ≠ .dormant ∧ bitsOf m.dw0.toNat 7 0 = 1 ∧ 1 ≤ bitsOf
      m.dw0.toNat 11 8 ∧ bitsOf m.dw0.toNat 11 8 ≤ 3) ∧
    (∃ (s : State) (m : MiReq), s.dev.modes.mode ≠ .off ∧ s.dev.modes.mode ≠ .dormant ∧ bitsOf m.dw0.toNat 7 0 = 3 ∧ 64 ≤
      bitsOf m.dw1.toNat 15 0 ∧ bitsOf m.dw1.toNat 15 0 ≤ 250) ∧
    (∃ (s : State) (m : MiReq), s.dev.modes.mode ≠ .off ∧ s.dev.modes.mode ≠ .dormant ∧ bitsOf m.dw0.toNat 7 0 = 2) ∧
    (∃ (s : State) (m : MiReq), s.dev.modes.mode ≠ .off ∧ s.dev.modes.mode ≠ .dormant ∧ ((bitsOf m.dw0.toNat 7 0 = 1 ∧ 3 <
      bitsOf m.dw0.toNat 11 8) ∨ (bitsOf m.dw0.toNat 7 0 = 3 ∧ 250 < bitsOf m.dw1.toNat 15 0) ∨ 3 < bitsOf m.dw0.toNat 7 0 ∨
      bitsOf m.dw0.toNat 7 0 = 0)) ∧
    (∃ (s : State) (m : MiReq), s.dev.modes.mode ≠ .off ∧ s.dev.modes.mode ≠ .dormant ∧ bitsOf m.dw0.toNat 7 0 = 3) := by
  refine ⟨?_, ?_, ?_, ?_, ?_, ?_⟩
  · exact ⟨(mgS : List (State)).getD 0 (State.reset), by (repeat' apply And.intro) <;> decide +kernel⟩
  · exact ⟨(mgS : List (State)).getD 0 (State.reset), (mis : List (MiReq)).getD 5
    (⟨0,0,[]⟩), by (repeat' apply And.intro) <;> decide +kernel⟩
  · exact ⟨(mgS : List (State)).getD 0 (State.reset), (mis : List (MiReq)).getD 9
    (⟨0,0,[]⟩), by (repeat' apply And.intro) <;> decide +kernel⟩
  · exact ⟨(mgS : List (State)).getD 0 (State.reset), (mis : List (MiReq)).getD 7
    (⟨0,0,[]⟩), by (repeat' apply And.intro) <;> decide +kernel⟩
  · exact ⟨(mgS : List (State)).getD 0 (State.reset), (mis : List (MiReq)).getD 0
    (⟨0,0,[]⟩), by (repeat' apply And.intro) <;> decide +kernel⟩
  · exact ⟨(mgS : List (State)).getD 0 (State.reset), (mis : List (MiReq)).getD 9
    (⟨0,0,[]⟩), by (repeat' apply And.intro) <;> decide +kernel⟩

theorem witness_ManagementBus_3 :
    (∃ (s : State) (cs : Nat) (x : CSlot), s.dev.modes.mode ≠ .off ∧ s.dev.hg.slots.get? cs = some x ∧ bitsOf (x.dw 11) 7 0 ≠
      0) ∧
    (∃ (s : State) (cs : Nat) (x : CSlot), s.dev.modes.mode ≠ .off ∧ s.dev.hg.slots.get? cs = some x ∧ bitsOf (x.dw 11) 7 0 = 0
      ∧ x.opcode = 0x1E) := by
  refine ⟨?_, ?_⟩
  · exact ⟨hw.cmd 3 (adm 0x1E [(11,3)] : CSlot), 3, adm 0x1E [(11,3)], by (repeat' apply And.intro) <;> decide +kernel⟩
  · exact ⟨hw.cmd 3 (adm 0x1E [] : CSlot), 3, adm 0x1E [], by (repeat' apply And.intro) <;> decide +kernel⟩

theorem witness_JtagInstructions :
    (∃ (s : State), s.dev.pins.por = true) ∧
    (∃ (s : State) (c : Instr), s.dev.pins.por = false ∧ c ∈ [Instr.jtagExtest, .jtagClamp, .jtagHighz]) := by
  refine ⟨?_, ?_⟩
  · exact ⟨State.reset, by decide +kernel⟩
  · exact ⟨hw, Instr.jtagExtest, by (repeat' apply And.intro) <;> decide +kernel⟩

theorem witness_RegisterWrites_1 :
    (∃ (s : State) (v : W32) (a : Nat) (r : RegDesc), s.dev.modes.mode ≠ .off ∧ a ∈ [aHgSlotAdmin, aTcLpCkpt, aGlCtrl,
      aGlTimer, aRpCtrl, aLadderCtrl, aDmcCtrl, aSluCharge] ∧ regDesc a = some r ∧ s.dev.domDark (s.dev.csrDomain a) = false ∧
      csrInRange a v.toNat = true) ∧
    (∃ (s : State) (v : W32) (a : Nat) (r : RegDesc), s.dev.modes.mode ≠ .off ∧ a ∈ [aHgSlotAdmin, aTcLpCkpt, aGlCtrl,
      aGlTimer, aRpCtrl, aLadderCtrl, aDmcCtrl, aSluCharge] ∧ regDesc a = some r ∧ s.dev.domDark (s.dev.csrDomain a) = false ∧
      csrInRange a v.toNat = false) ∧
    (∃ (s : State) (a : Nat), s.dev.modes.mode ≠ .off ∧ (csrAssigned a = false ∨ s.dev.domDark (s.dev.csrDomain a) = true)) ∧
    (∃ (s : State) (f : Fn), s.dev.modes.mode ≠ .off ∧ s.dev.fnUp f = true) ∧
    (∃ (s : State) (v : W32) (f : Fn) (vec : Nat), s.dev.modes.mode ≠ .off ∧ s.dev.fnUp f = true ∧ vec ≤ 16 ∧ bitOf v.toNat 0 =
      true) ∧
    (∃ (s : State) (v : W32) (f : Fn) (vec : Nat), s.dev.modes.mode ≠ .off ∧ s.dev.fnUp f = true ∧ vec ≤ 16 ∧ bitOf v.toNat 0 =
      false ∧ vec ∈ (s.dev.fnst f).pba ∧ (s.dev.fnst f).bme = true ∧ (s.dev.fnst f).msix = true) := by
  refine ⟨?_, ?_, ?_, ?_, ?_, ?_⟩
  · exact ⟨(rwS : List (State)).getD 0 (State.reset), 0, aHgSlotAdmin, ((regDesc aHgSlotAdmin).getD
    ⟨0,0,0,0,0⟩), by (repeat' apply And.intro) <;> decide +kernel⟩
  · exact ⟨(rwS : List (State)).getD 0 (State.reset), 0, aTcLpCkpt, ((regDesc aTcLpCkpt).getD
    ⟨0,0,0,0,0⟩), by (repeat' apply And.intro) <;> decide +kernel⟩
  · exact ⟨(rwS : List (State)).getD 0 (State.reset), 0x80001, by (repeat' apply And.intro) <;> decide +kernel⟩
  · exact ⟨(rwS : List (State)).getD 0 (State.reset), .pf .a, by (repeat' apply And.intro) <;> decide +kernel⟩
  · exact ⟨hw, 1, .pf .a, 0, by (repeat' apply And.intro) <;> decide +kernel⟩
  · exact ⟨hw.d fun d => d.modFn (.pf .a) (fun y => { y with pba := [3], msixMask := [3, 5] }), 0, .pf .a,
    3, by (repeat' apply And.intro) <;> decide +kernel⟩

theorem witness_RegisterWrites_2 :
    (∃ (s : State) (f : Fn), s.dev.modes.mode ≠ .off ∧ s.dev.fnUp f = false) ∧
    (∃ (s : State) (v : W32) (p : Port), s.dev.modes.mode ≠ .off ∧ (s.dev.hport p).dl = true ∧ (s.dev.hport p).vfEn = false ∧
      v.toNat ≤ 512) ∧
    (∃ (s : State) (v : W32) (p : Port), s.dev.modes.mode ≠ .off ∧ (s.dev.hport p).dl = true ∧ (s.dev.hport p).vfEn = true ∨
      512 < v.toNat) ∧
    (∃ (s : State) (v : W32) (p : Port), s.dev.modes.mode ≠ .off ∧ (s.dev.hport p).dl = true ∧ bitOf v.toNat 0 = true) ∧
    (∃ (s : State) (p : Port), s.dev.modes.mode ≠ .off ∧ (s.dev.hport p).dl = true) := by
  refine ⟨?_, ?_, ?_, ?_, ?_⟩
  · exact ⟨(rwS : List (State)).getD 0 (State.reset), .pf .b, by (repeat' apply And.intro) <;> decide +kernel⟩
  · exact ⟨hw.d fun d => { d with ports := [(0, { HPort.reset with dl := true, vfEn := false, numVfs := 4 })] }, 0,
    .a, by (repeat' apply And.intro) <;> decide +kernel⟩
  · exact ⟨hw, 0, .a, by (repeat' apply And.intro) <;> decide +kernel⟩
  · exact ⟨hw, 1, .a, by (repeat' apply And.intro) <;> decide +kernel⟩
  · exact ⟨hw, .a, by (repeat' apply And.intro) <;> decide +kernel⟩

end GuardSide


/-! ### WholeSide -/

namespace WholeSide

def ev0 (f : Evl → Evl) : State := hw.d fun d => { d with evl := f d.evl }

def hd (code : Nat) : Held := ⟨code, 5, 99, [1,2,3,4]⟩

def big (n : Nat) : List LRec := (List.range n).map (fun k => ⟨k, 3, 5, 6, List.replicate 236 0⟩)

theorem witness_NonCriticalCodesAreSuppressed :
    (∃ (e : EvOffer) (code src : Nat), code = e.code % 0x10000 ∧ src = e.src % 256 ∧ codeCritical code = true) ∧
    (∃ (s : State) (e : EvOffer) (code src : Nat), code = e.code % 0x10000 ∧ src = e.src % 256 ∧ codeCritical code = false ∧
      s.dev.evl.suppOf code src = none) ∧
    (∃ (s : State) (e : EvOffer) (code src : Nat) (x : Supp), code = e.code % 0x10000 ∧ src = e.src % 256 ∧ codeCritical code =
      false ∧ s.dev.evl.suppOf code src = some x ∧ x.offered < 64) ∧
    (∃ (s : State) (e : EvOffer) (code src : Nat) (x : Supp), code = e.code % 0x10000 ∧ src = e.src % 256 ∧ codeCritical code =
      false ∧ s.dev.evl.suppOf code src = some x ∧ 64 ≤ x.offered) ∧
    (∃ (s : State) (e : EvOffer) (code src : Nat) (x : Supp), code = e.code % 0x10000 ∧ src = e.src % 256 ∧ s.dev.evl.suppOf
      code src = some x ∧ 0 < x.suppressed ∧ (∀ y : Supp, s.dev.evl.suppOf evEvlSuppressed 192 = some y → y.offered < 64) ∧
      s.dev.evl.holding 192 < 8) ∧
    (∃ (s : State) (e : EvOffer) (code src : Nat) (x : Supp), code = e.code % 0x10000 ∧ src = e.src % 256 ∧ s.dev.evl.suppOf
      code src = some x ∧ x.suppressed = 0) := by
  refine ⟨?_, ?_, ?_, ?_, ?_, ?_⟩
  · exact ⟨⟨0x8101, 5, List.replicate 300 1⟩, (⟨0x8101, 5, List.replicate 300 1⟩ : EvOffer).code % 0x10000, (⟨0x8101, 5,
    List.replicate 300 1⟩ : EvOffer).src % 256, by (repeat' apply And.intro) <;> decide +kernel⟩
  · exact ⟨hw, ⟨evWdnCsrUnassigned, 5, [1,2,3]⟩, (⟨evWdnCsrUnassigned, 5, [1,2,3]⟩ : EvOffer).code % 0x10000,
    (⟨evWdnCsrUnassigned, 5, [1,2,3]⟩ : EvOffer).src % 256, by (repeat' apply And.intro) <;> decide +kernel⟩
  · exact ⟨ev0 (fun v =>
    { v with supp := [⟨((⟨evWdnCsrUnassigned, 5, [1,2,3]⟩ : EvOffer).code % 0x10000 : Nat), ((⟨evWdnCsrUnassigned, 5, [1,2,3]⟩ : EvOffer).src % 256 : Nat), 63, 0⟩] }),
    ⟨evWdnCsrUnassigned, 5, [1,2,3]⟩, (⟨evWdnCsrUnassigned, 5, [1,2,3]⟩ : EvOffer).code % 0x10000, (⟨evWdnCsrUnassigned, 5,
    [1,2,3]⟩ : EvOffer).src % 256, ((ev0 (fun v =>
    { v with supp := [⟨((⟨evWdnCsrUnassigned, 5, [1,2,3]⟩ : EvOffer).code % 0x10000 : Nat), ((⟨evWdnCsrUnassigned, 5, [1,2,3]⟩ : EvOffer).src % 256 : Nat), 63, 0⟩] })
    : State).dev.evl.suppOf ((⟨evWdnCsrUnassigned, 5, [1,2,3]⟩ : EvOffer).code % 0x10000 : Nat) ((⟨evWdnCsrUnassigned, 5,
    [1,2,3]⟩ : EvOffer).src % 256 : Nat)).getD ⟨0,0,0,0⟩, by (repeat' apply And.intro) <;> decide +kernel⟩
  · exact ⟨ev0 (fun v =>
    { v with supp := [⟨((⟨evWdnCsrUnassigned, 5, [1,2,3]⟩ : EvOffer).code % 0x10000 : Nat), ((⟨evWdnCsrUnassigned, 5, [1,2,3]⟩ : EvOffer).src % 256 : Nat), 64, 3⟩] }),
    ⟨evWdnCsrUnassigned, 5, [1,2,3]⟩, (⟨evWdnCsrUnassigned, 5, [1,2,3]⟩ : EvOffer).code % 0x10000, (⟨evWdnCsrUnassigned, 5,
    [1,2,3]⟩ : EvOffer).src % 256, ((ev0 (fun v =>
    { v with supp := [⟨((⟨evWdnCsrUnassigned, 5, [1,2,3]⟩ : EvOffer).code % 0x10000 : Nat), ((⟨evWdnCsrUnassigned, 5, [1,2,3]⟩ : EvOffer).src % 256 : Nat), 64, 3⟩] })
    : State).dev.evl.suppOf ((⟨evWdnCsrUnassigned, 5, [1,2,3]⟩ : EvOffer).code % 0x10000 : Nat) ((⟨evWdnCsrUnassigned, 5,
    [1,2,3]⟩ : EvOffer).src % 256 : Nat)).getD ⟨0,0,0,0⟩, by (repeat' apply And.intro) <;> decide +kernel⟩
  · exact ⟨ev0 (fun v =>
    { v with supp := [⟨((⟨evWdnCsrUnassigned, 5, [1,2,3]⟩ : EvOffer).code % 0x10000 : Nat), ((⟨evWdnCsrUnassigned, 5, [1,2,3]⟩ : EvOffer).src % 256 : Nat), 63, 3⟩] }),
    ⟨evWdnCsrUnassigned, 5, [1,2,3]⟩, (⟨evWdnCsrUnassigned, 5, [1,2,3]⟩ : EvOffer).code % 0x10000, (⟨evWdnCsrUnassigned, 5,
    [1,2,3]⟩ : EvOffer).src % 256, ((ev0 (fun v =>
    { v with supp := [⟨((⟨evWdnCsrUnassigned, 5, [1,2,3]⟩ : EvOffer).code % 0x10000 : Nat), ((⟨evWdnCsrUnassigned, 5, [1,2,3]⟩ : EvOffer).src % 256 : Nat), 63, 3⟩] })
    : State).dev.evl.suppOf ((⟨evWdnCsrUnassigned, 5, [1,2,3]⟩ : EvOffer).code % 0x10000 : Nat) ((⟨evWdnCsrUnassigned, 5,
    [1,2,3]⟩ : EvOffer).src % 256 : Nat)).getD ⟨0,0,0,0⟩, by (repeat' apply And.intro) <;> decide +kernel⟩
  · exact ⟨ev0 (fun v =>
    { v with supp := [⟨((⟨evWdnCsrUnassigned, 5, [1,2,3]⟩ : EvOffer).code % 0x10000 : Nat), ((⟨evWdnCsrUnassigned, 5, [1,2,3]⟩ : EvOffer).src % 256 : Nat), 63, 0⟩] }),
    ⟨evWdnCsrUnassigned, 5, [1,2,3]⟩, (⟨evWdnCsrUnassigned, 5, [1,2,3]⟩ : EvOffer).code % 0x10000, (⟨evWdnCsrUnassigned, 5,
    [1,2,3]⟩ : EvOffer).src % 256, ((ev0 (fun v =>
    { v with supp := [⟨((⟨evWdnCsrUnassigned, 5, [1,2,3]⟩ : EvOffer).code % 0x10000 : Nat), ((⟨evWdnCsrUnassigned, 5, [1,2,3]⟩ : EvOffer).src % 256 : Nat), 63, 0⟩] })
    : State).dev.evl.suppOf ((⟨evWdnCsrUnassigned, 5, [1,2,3]⟩ : EvOffer).code % 0x10000 : Nat) ((⟨evWdnCsrUnassigned, 5,
    [1,2,3]⟩ : EvOffer).src % 256 : Nat)).getD ⟨0,0,0,0⟩, by (repeat' apply And.intro) <;> decide +kernel⟩

theorem witness_RecordsAreNeverOverwritten :
    (∃ (s : State) (h : Held) (l : List Held) (r : LRec), s.dev.evl.queues = h :: l ∧ r = ⟨s.dev.evl.next, h.code, h.src, h.ts,
      h.payload⟩ ∧ s.dev.evl.mainOn = true ∧ s.dev.evl.mainFull = false ∧ usedBy s.dev.evl.main + r.len ≤ 524288) ∧
    (∃ (s : State) (h : Held) (l : List Held) (r : LRec), s.dev.evl.queues = h :: l ∧ r = ⟨s.dev.evl.next, h.code, h.src, h.ts,
      h.payload⟩ ∧ s.dev.evl.mainOn = true ∧ (s.dev.evl.mainFull = true ∨ 524288 < usedBy s.dev.evl.main + r.len)) ∧
    (∃ (s : State) (h : Held) (l : List Held) (r : LRec), s.dev.evl.queues = h :: l ∧ r = ⟨s.dev.evl.next, h.code, h.src, h.ts,
      h.payload⟩ ∧ s.dev.evl.mainOn = false ∧ s.dev.evl.earlyFull = false ∧ usedBy s.dev.evl.early + r.len ≤ 16384) ∧
    (∃ (s : State) (h : Held) (l : List Held) (r : LRec), s.dev.evl.queues = h :: l ∧ r = ⟨s.dev.evl.next, h.code, h.src, h.ts,
      h.payload⟩ ∧ s.dev.evl.mainOn = false ∧ (s.dev.evl.earlyFull = true ∨ 16384 < usedBy s.dev.evl.early + r.len)) ∧
    (∃ (s : State), s.dev.evl.queues = []) ∧
    (∃ (s : State) (cs head n : Nat), s.dev.evl.persisting = some (.newVolume cs, head) ∧ s.dev.evl.waiting = [] ∧ 0 < n) := by
  refine ⟨?_, ?_, ?_, ?_, ?_, ?_⟩
  · exact ⟨(([hd 3, hd 0x0101, hd evWdnCsrUnassigned].flatMap (fun h => [ev0 (fun v =>
    { v with queues := [h, hd 9], mainOn := true }), ev0 (fun v =>
    { v with queues := [h, hd 9], mainOn := true, mainFull := true }), ev0 (fun v =>
    { v with queues := [h, hd 9], mainOn := false, early := big 3 }), ev0 (fun v =>
    { v with queues := [h, hd 9], mainOn := false, early := big 80 }), ev0 (fun v =>
    { v with queues := [h, hd 9], mainOn := true, main := big 2100 }), ev0 (fun v =>
    { v with queues := [h], mainOn := true, early := big 80 })])) : List (State)).getD 0 (State.reset), (((([hd 3, hd 0x0101,
    hd evWdnCsrUnassigned].flatMap (fun h => [ev0 (fun v => { v with queues := [h, hd 9], mainOn := true }), ev0 (fun v =>
    { v with queues := [h, hd 9], mainOn := true, mainFull := true }), ev0 (fun v =>
    { v with queues := [h, hd 9], mainOn := false, early := big 3 }), ev0 (fun v =>
    { v with queues := [h, hd 9], mainOn := false, early := big 80 }), ev0 (fun v =>
    { v with queues := [h, hd 9], mainOn := true, main := big 2100 }), ev0 (fun v =>
    { v with queues := [h], mainOn := true, early := big 80 })])) : List (State)).getD 0 (State.reset) :
    State).dev.evl.queues.head?).getD (hd 0), ((([hd 3, hd 0x0101, hd evWdnCsrUnassigned].flatMap (fun h => [ev0 (fun v =>
    { v with queues := [h, hd 9], mainOn := true }), ev0 (fun v =>
    { v with queues := [h, hd 9], mainOn := true, mainFull := true }), ev0 (fun v =>
    { v with queues := [h, hd 9], mainOn := false, early := big 3 }), ev0 (fun v =>
    { v with queues := [h, hd 9], mainOn := false, early := big 80 }), ev0 (fun v =>
    { v with queues := [h, hd 9], mainOn := true, main := big 2100 }), ev0 (fun v =>
    { v with queues := [h], mainOn := true, early := big 80 })])) : List (State)).getD 0 (State.reset) :
    State).dev.evl.queues.tail, ⟨((([hd 3, hd 0x0101, hd evWdnCsrUnassigned].flatMap (fun h => [ev0 (fun v =>
    { v with queues := [h, hd 9], mainOn := true }), ev0 (fun v =>
    { v with queues := [h, hd 9], mainOn := true, mainFull := true }), ev0 (fun v =>
    { v with queues := [h, hd 9], mainOn := false, early := big 3 }), ev0 (fun v =>
    { v with queues := [h, hd 9], mainOn := false, early := big 80 }), ev0 (fun v =>
    { v with queues := [h, hd 9], mainOn := true, main := big 2100 }), ev0 (fun v =>
    { v with queues := [h], mainOn := true, early := big 80 })])) : List (State)).getD 0 (State.reset) : State).dev.evl.next,
    ((((([hd 3, hd 0x0101, hd evWdnCsrUnassigned].flatMap (fun h => [ev0 (fun v =>
    { v with queues := [h, hd 9], mainOn := true }), ev0 (fun v =>
    { v with queues := [h, hd 9], mainOn := true, mainFull := true }), ev0 (fun v =>
    { v with queues := [h, hd 9], mainOn := false, early := big 3 }), ev0 (fun v =>
    { v with queues := [h, hd 9], mainOn := false, early := big 80 }), ev0 (fun v =>
    { v with queues := [h, hd 9], mainOn := true, main := big 2100 }), ev0 (fun v =>
    { v with queues := [h], mainOn := true, early := big 80 })])) : List (State)).getD 0 (State.reset) :
    State).dev.evl.queues.head?).getD (hd 0) : Held).code, ((((([hd 3, hd 0x0101, hd evWdnCsrUnassigned].flatMap (fun h => [ev0
    (fun v => { v with queues := [h, hd 9], mainOn := true }), ev0 (fun v =>
    { v with queues := [h, hd 9], mainOn := true, mainFull := true }), ev0 (fun v =>
    { v with queues := [h, hd 9], mainOn := false, early := big 3 }), ev0 (fun v =>
    { v with queues := [h, hd 9], mainOn := false, early := big 80 }), ev0 (fun v =>
    { v with queues := [h, hd 9], mainOn := true, main := big 2100 }), ev0 (fun v =>
    { v with queues := [h], mainOn := true, early := big 80 })])) : List (State)).getD 0 (State.reset) :
    State).dev.evl.queues.head?).getD (hd 0) : Held).src, ((((([hd 3, hd 0x0101, hd evWdnCsrUnassigned].flatMap (fun h => [ev0
    (fun v => { v with queues := [h, hd 9], mainOn := true }), ev0 (fun v =>
    { v with queues := [h, hd 9], mainOn := true, mainFull := true }), ev0 (fun v =>
    { v with queues := [h, hd 9], mainOn := false, early := big 3 }), ev0 (fun v =>
    { v with queues := [h, hd 9], mainOn := false, early := big 80 }), ev0 (fun v =>
    { v with queues := [h, hd 9], mainOn := true, main := big 2100 }), ev0 (fun v =>
    { v with queues := [h], mainOn := true, early := big 80 })])) : List (State)).getD 0 (State.reset) :
    State).dev.evl.queues.head?).getD (hd 0) : Held).ts, ((((([hd 3, hd 0x0101, hd evWdnCsrUnassigned].flatMap (fun h => [ev0
    (fun v => { v with queues := [h, hd 9], mainOn := true }), ev0 (fun v =>
    { v with queues := [h, hd 9], mainOn := true, mainFull := true }), ev0 (fun v =>
    { v with queues := [h, hd 9], mainOn := false, early := big 3 }), ev0 (fun v =>
    { v with queues := [h, hd 9], mainOn := false, early := big 80 }), ev0 (fun v =>
    { v with queues := [h, hd 9], mainOn := true, main := big 2100 }), ev0 (fun v =>
    { v with queues := [h], mainOn := true, early := big 80 })])) : List (State)).getD 0 (State.reset) :
    State).dev.evl.queues.head?).getD (hd 0) : Held).payload⟩, by (repeat' apply And.intro) <;> decide +kernel⟩
  · exact ⟨(([hd 3, hd 0x0101, hd evWdnCsrUnassigned].flatMap (fun h => [ev0 (fun v =>
    { v with queues := [h, hd 9], mainOn := true }), ev0 (fun v =>
    { v with queues := [h, hd 9], mainOn := true, mainFull := true }), ev0 (fun v =>
    { v with queues := [h, hd 9], mainOn := false, early := big 3 }), ev0 (fun v =>
    { v with queues := [h, hd 9], mainOn := false, early := big 80 }), ev0 (fun v =>
    { v with queues := [h, hd 9], mainOn := true, main := big 2100 }), ev0 (fun v =>
    { v with queues := [h], mainOn := true, early := big 80 })])) : List (State)).getD 1 (State.reset), (((([hd 3, hd 0x0101,
    hd evWdnCsrUnassigned].flatMap (fun h => [ev0 (fun v => { v with queues := [h, hd 9], mainOn := true }), ev0 (fun v =>
    { v with queues := [h, hd 9], mainOn := true, mainFull := true }), ev0 (fun v =>
    { v with queues := [h, hd 9], mainOn := false, early := big 3 }), ev0 (fun v =>
    { v with queues := [h, hd 9], mainOn := false, early := big 80 }), ev0 (fun v =>
    { v with queues := [h, hd 9], mainOn := true, main := big 2100 }), ev0 (fun v =>
    { v with queues := [h], mainOn := true, early := big 80 })])) : List (State)).getD 1 (State.reset) :
    State).dev.evl.queues.head?).getD (hd 0), ((([hd 3, hd 0x0101, hd evWdnCsrUnassigned].flatMap (fun h => [ev0 (fun v =>
    { v with queues := [h, hd 9], mainOn := true }), ev0 (fun v =>
    { v with queues := [h, hd 9], mainOn := true, mainFull := true }), ev0 (fun v =>
    { v with queues := [h, hd 9], mainOn := false, early := big 3 }), ev0 (fun v =>
    { v with queues := [h, hd 9], mainOn := false, early := big 80 }), ev0 (fun v =>
    { v with queues := [h, hd 9], mainOn := true, main := big 2100 }), ev0 (fun v =>
    { v with queues := [h], mainOn := true, early := big 80 })])) : List (State)).getD 1 (State.reset) :
    State).dev.evl.queues.tail, ⟨((([hd 3, hd 0x0101, hd evWdnCsrUnassigned].flatMap (fun h => [ev0 (fun v =>
    { v with queues := [h, hd 9], mainOn := true }), ev0 (fun v =>
    { v with queues := [h, hd 9], mainOn := true, mainFull := true }), ev0 (fun v =>
    { v with queues := [h, hd 9], mainOn := false, early := big 3 }), ev0 (fun v =>
    { v with queues := [h, hd 9], mainOn := false, early := big 80 }), ev0 (fun v =>
    { v with queues := [h, hd 9], mainOn := true, main := big 2100 }), ev0 (fun v =>
    { v with queues := [h], mainOn := true, early := big 80 })])) : List (State)).getD 1 (State.reset) : State).dev.evl.next,
    ((((([hd 3, hd 0x0101, hd evWdnCsrUnassigned].flatMap (fun h => [ev0 (fun v =>
    { v with queues := [h, hd 9], mainOn := true }), ev0 (fun v =>
    { v with queues := [h, hd 9], mainOn := true, mainFull := true }), ev0 (fun v =>
    { v with queues := [h, hd 9], mainOn := false, early := big 3 }), ev0 (fun v =>
    { v with queues := [h, hd 9], mainOn := false, early := big 80 }), ev0 (fun v =>
    { v with queues := [h, hd 9], mainOn := true, main := big 2100 }), ev0 (fun v =>
    { v with queues := [h], mainOn := true, early := big 80 })])) : List (State)).getD 1 (State.reset) :
    State).dev.evl.queues.head?).getD (hd 0) : Held).code, ((((([hd 3, hd 0x0101, hd evWdnCsrUnassigned].flatMap (fun h => [ev0
    (fun v => { v with queues := [h, hd 9], mainOn := true }), ev0 (fun v =>
    { v with queues := [h, hd 9], mainOn := true, mainFull := true }), ev0 (fun v =>
    { v with queues := [h, hd 9], mainOn := false, early := big 3 }), ev0 (fun v =>
    { v with queues := [h, hd 9], mainOn := false, early := big 80 }), ev0 (fun v =>
    { v with queues := [h, hd 9], mainOn := true, main := big 2100 }), ev0 (fun v =>
    { v with queues := [h], mainOn := true, early := big 80 })])) : List (State)).getD 1 (State.reset) :
    State).dev.evl.queues.head?).getD (hd 0) : Held).src, ((((([hd 3, hd 0x0101, hd evWdnCsrUnassigned].flatMap (fun h => [ev0
    (fun v => { v with queues := [h, hd 9], mainOn := true }), ev0 (fun v =>
    { v with queues := [h, hd 9], mainOn := true, mainFull := true }), ev0 (fun v =>
    { v with queues := [h, hd 9], mainOn := false, early := big 3 }), ev0 (fun v =>
    { v with queues := [h, hd 9], mainOn := false, early := big 80 }), ev0 (fun v =>
    { v with queues := [h, hd 9], mainOn := true, main := big 2100 }), ev0 (fun v =>
    { v with queues := [h], mainOn := true, early := big 80 })])) : List (State)).getD 1 (State.reset) :
    State).dev.evl.queues.head?).getD (hd 0) : Held).ts, ((((([hd 3, hd 0x0101, hd evWdnCsrUnassigned].flatMap (fun h => [ev0
    (fun v => { v with queues := [h, hd 9], mainOn := true }), ev0 (fun v =>
    { v with queues := [h, hd 9], mainOn := true, mainFull := true }), ev0 (fun v =>
    { v with queues := [h, hd 9], mainOn := false, early := big 3 }), ev0 (fun v =>
    { v with queues := [h, hd 9], mainOn := false, early := big 80 }), ev0 (fun v =>
    { v with queues := [h, hd 9], mainOn := true, main := big 2100 }), ev0 (fun v =>
    { v with queues := [h], mainOn := true, early := big 80 })])) : List (State)).getD 1 (State.reset) :
    State).dev.evl.queues.head?).getD (hd 0) : Held).payload⟩, by (repeat' apply And.intro) <;> decide +kernel⟩
  · exact ⟨(([hd 3, hd 0x0101, hd evWdnCsrUnassigned].flatMap (fun h => [ev0 (fun v =>
    { v with queues := [h, hd 9], mainOn := true }), ev0 (fun v =>
    { v with queues := [h, hd 9], mainOn := true, mainFull := true }), ev0 (fun v =>
    { v with queues := [h, hd 9], mainOn := false, early := big 3 }), ev0 (fun v =>
    { v with queues := [h, hd 9], mainOn := false, early := big 80 }), ev0 (fun v =>
    { v with queues := [h, hd 9], mainOn := true, main := big 2100 }), ev0 (fun v =>
    { v with queues := [h], mainOn := true, early := big 80 })])) : List (State)).getD 2 (State.reset), (((([hd 3, hd 0x0101,
    hd evWdnCsrUnassigned].flatMap (fun h => [ev0 (fun v => { v with queues := [h, hd 9], mainOn := true }), ev0 (fun v =>
    { v with queues := [h, hd 9], mainOn := true, mainFull := true }), ev0 (fun v =>
    { v with queues := [h, hd 9], mainOn := false, early := big 3 }), ev0 (fun v =>
    { v with queues := [h, hd 9], mainOn := false, early := big 80 }), ev0 (fun v =>
    { v with queues := [h, hd 9], mainOn := true, main := big 2100 }), ev0 (fun v =>
    { v with queues := [h], mainOn := true, early := big 80 })])) : List (State)).getD 2 (State.reset) :
    State).dev.evl.queues.head?).getD (hd 0), ((([hd 3, hd 0x0101, hd evWdnCsrUnassigned].flatMap (fun h => [ev0 (fun v =>
    { v with queues := [h, hd 9], mainOn := true }), ev0 (fun v =>
    { v with queues := [h, hd 9], mainOn := true, mainFull := true }), ev0 (fun v =>
    { v with queues := [h, hd 9], mainOn := false, early := big 3 }), ev0 (fun v =>
    { v with queues := [h, hd 9], mainOn := false, early := big 80 }), ev0 (fun v =>
    { v with queues := [h, hd 9], mainOn := true, main := big 2100 }), ev0 (fun v =>
    { v with queues := [h], mainOn := true, early := big 80 })])) : List (State)).getD 2 (State.reset) :
    State).dev.evl.queues.tail, ⟨((([hd 3, hd 0x0101, hd evWdnCsrUnassigned].flatMap (fun h => [ev0 (fun v =>
    { v with queues := [h, hd 9], mainOn := true }), ev0 (fun v =>
    { v with queues := [h, hd 9], mainOn := true, mainFull := true }), ev0 (fun v =>
    { v with queues := [h, hd 9], mainOn := false, early := big 3 }), ev0 (fun v =>
    { v with queues := [h, hd 9], mainOn := false, early := big 80 }), ev0 (fun v =>
    { v with queues := [h, hd 9], mainOn := true, main := big 2100 }), ev0 (fun v =>
    { v with queues := [h], mainOn := true, early := big 80 })])) : List (State)).getD 2 (State.reset) : State).dev.evl.next,
    ((((([hd 3, hd 0x0101, hd evWdnCsrUnassigned].flatMap (fun h => [ev0 (fun v =>
    { v with queues := [h, hd 9], mainOn := true }), ev0 (fun v =>
    { v with queues := [h, hd 9], mainOn := true, mainFull := true }), ev0 (fun v =>
    { v with queues := [h, hd 9], mainOn := false, early := big 3 }), ev0 (fun v =>
    { v with queues := [h, hd 9], mainOn := false, early := big 80 }), ev0 (fun v =>
    { v with queues := [h, hd 9], mainOn := true, main := big 2100 }), ev0 (fun v =>
    { v with queues := [h], mainOn := true, early := big 80 })])) : List (State)).getD 2 (State.reset) :
    State).dev.evl.queues.head?).getD (hd 0) : Held).code, ((((([hd 3, hd 0x0101, hd evWdnCsrUnassigned].flatMap (fun h => [ev0
    (fun v => { v with queues := [h, hd 9], mainOn := true }), ev0 (fun v =>
    { v with queues := [h, hd 9], mainOn := true, mainFull := true }), ev0 (fun v =>
    { v with queues := [h, hd 9], mainOn := false, early := big 3 }), ev0 (fun v =>
    { v with queues := [h, hd 9], mainOn := false, early := big 80 }), ev0 (fun v =>
    { v with queues := [h, hd 9], mainOn := true, main := big 2100 }), ev0 (fun v =>
    { v with queues := [h], mainOn := true, early := big 80 })])) : List (State)).getD 2 (State.reset) :
    State).dev.evl.queues.head?).getD (hd 0) : Held).src, ((((([hd 3, hd 0x0101, hd evWdnCsrUnassigned].flatMap (fun h => [ev0
    (fun v => { v with queues := [h, hd 9], mainOn := true }), ev0 (fun v =>
    { v with queues := [h, hd 9], mainOn := true, mainFull := true }), ev0 (fun v =>
    { v with queues := [h, hd 9], mainOn := false, early := big 3 }), ev0 (fun v =>
    { v with queues := [h, hd 9], mainOn := false, early := big 80 }), ev0 (fun v =>
    { v with queues := [h, hd 9], mainOn := true, main := big 2100 }), ev0 (fun v =>
    { v with queues := [h], mainOn := true, early := big 80 })])) : List (State)).getD 2 (State.reset) :
    State).dev.evl.queues.head?).getD (hd 0) : Held).ts, ((((([hd 3, hd 0x0101, hd evWdnCsrUnassigned].flatMap (fun h => [ev0
    (fun v => { v with queues := [h, hd 9], mainOn := true }), ev0 (fun v =>
    { v with queues := [h, hd 9], mainOn := true, mainFull := true }), ev0 (fun v =>
    { v with queues := [h, hd 9], mainOn := false, early := big 3 }), ev0 (fun v =>
    { v with queues := [h, hd 9], mainOn := false, early := big 80 }), ev0 (fun v =>
    { v with queues := [h, hd 9], mainOn := true, main := big 2100 }), ev0 (fun v =>
    { v with queues := [h], mainOn := true, early := big 80 })])) : List (State)).getD 2 (State.reset) :
    State).dev.evl.queues.head?).getD (hd 0) : Held).payload⟩, by (repeat' apply And.intro) <;> decide +kernel⟩
  · exact ⟨(([hd 3, hd 0x0101, hd evWdnCsrUnassigned].flatMap (fun h => [ev0 (fun v =>
    { v with queues := [h, hd 9], mainOn := true }), ev0 (fun v =>
    { v with queues := [h, hd 9], mainOn := true, mainFull := true }), ev0 (fun v =>
    { v with queues := [h, hd 9], mainOn := false, early := big 3 }), ev0 (fun v =>
    { v with queues := [h, hd 9], mainOn := false, early := big 80 }), ev0 (fun v =>
    { v with queues := [h, hd 9], mainOn := true, main := big 2100 }), ev0 (fun v =>
    { v with queues := [h], mainOn := true, early := big 80 })])) : List (State)).getD 3 (State.reset), (((([hd 3, hd 0x0101,
    hd evWdnCsrUnassigned].flatMap (fun h => [ev0 (fun v => { v with queues := [h, hd 9], mainOn := true }), ev0 (fun v =>
    { v with queues := [h, hd 9], mainOn := true, mainFull := true }), ev0 (fun v =>
    { v with queues := [h, hd 9], mainOn := false, early := big 3 }), ev0 (fun v =>
    { v with queues := [h, hd 9], mainOn := false, early := big 80 }), ev0 (fun v =>
    { v with queues := [h, hd 9], mainOn := true, main := big 2100 }), ev0 (fun v =>
    { v with queues := [h], mainOn := true, early := big 80 })])) : List (State)).getD 3 (State.reset) :
    State).dev.evl.queues.head?).getD (hd 0), ((([hd 3, hd 0x0101, hd evWdnCsrUnassigned].flatMap (fun h => [ev0 (fun v =>
    { v with queues := [h, hd 9], mainOn := true }), ev0 (fun v =>
    { v with queues := [h, hd 9], mainOn := true, mainFull := true }), ev0 (fun v =>
    { v with queues := [h, hd 9], mainOn := false, early := big 3 }), ev0 (fun v =>
    { v with queues := [h, hd 9], mainOn := false, early := big 80 }), ev0 (fun v =>
    { v with queues := [h, hd 9], mainOn := true, main := big 2100 }), ev0 (fun v =>
    { v with queues := [h], mainOn := true, early := big 80 })])) : List (State)).getD 3 (State.reset) :
    State).dev.evl.queues.tail, ⟨((([hd 3, hd 0x0101, hd evWdnCsrUnassigned].flatMap (fun h => [ev0 (fun v =>
    { v with queues := [h, hd 9], mainOn := true }), ev0 (fun v =>
    { v with queues := [h, hd 9], mainOn := true, mainFull := true }), ev0 (fun v =>
    { v with queues := [h, hd 9], mainOn := false, early := big 3 }), ev0 (fun v =>
    { v with queues := [h, hd 9], mainOn := false, early := big 80 }), ev0 (fun v =>
    { v with queues := [h, hd 9], mainOn := true, main := big 2100 }), ev0 (fun v =>
    { v with queues := [h], mainOn := true, early := big 80 })])) : List (State)).getD 3 (State.reset) : State).dev.evl.next,
    ((((([hd 3, hd 0x0101, hd evWdnCsrUnassigned].flatMap (fun h => [ev0 (fun v =>
    { v with queues := [h, hd 9], mainOn := true }), ev0 (fun v =>
    { v with queues := [h, hd 9], mainOn := true, mainFull := true }), ev0 (fun v =>
    { v with queues := [h, hd 9], mainOn := false, early := big 3 }), ev0 (fun v =>
    { v with queues := [h, hd 9], mainOn := false, early := big 80 }), ev0 (fun v =>
    { v with queues := [h, hd 9], mainOn := true, main := big 2100 }), ev0 (fun v =>
    { v with queues := [h], mainOn := true, early := big 80 })])) : List (State)).getD 3 (State.reset) :
    State).dev.evl.queues.head?).getD (hd 0) : Held).code, ((((([hd 3, hd 0x0101, hd evWdnCsrUnassigned].flatMap (fun h => [ev0
    (fun v => { v with queues := [h, hd 9], mainOn := true }), ev0 (fun v =>
    { v with queues := [h, hd 9], mainOn := true, mainFull := true }), ev0 (fun v =>
    { v with queues := [h, hd 9], mainOn := false, early := big 3 }), ev0 (fun v =>
    { v with queues := [h, hd 9], mainOn := false, early := big 80 }), ev0 (fun v =>
    { v with queues := [h, hd 9], mainOn := true, main := big 2100 }), ev0 (fun v =>
    { v with queues := [h], mainOn := true, early := big 80 })])) : List (State)).getD 3 (State.reset) :
    State).dev.evl.queues.head?).getD (hd 0) : Held).src, ((((([hd 3, hd 0x0101, hd evWdnCsrUnassigned].flatMap (fun h => [ev0
    (fun v => { v with queues := [h, hd 9], mainOn := true }), ev0 (fun v =>
    { v with queues := [h, hd 9], mainOn := true, mainFull := true }), ev0 (fun v =>
    { v with queues := [h, hd 9], mainOn := false, early := big 3 }), ev0 (fun v =>
    { v with queues := [h, hd 9], mainOn := false, early := big 80 }), ev0 (fun v =>
    { v with queues := [h, hd 9], mainOn := true, main := big 2100 }), ev0 (fun v =>
    { v with queues := [h], mainOn := true, early := big 80 })])) : List (State)).getD 3 (State.reset) :
    State).dev.evl.queues.head?).getD (hd 0) : Held).ts, ((((([hd 3, hd 0x0101, hd evWdnCsrUnassigned].flatMap (fun h => [ev0
    (fun v => { v with queues := [h, hd 9], mainOn := true }), ev0 (fun v =>
    { v with queues := [h, hd 9], mainOn := true, mainFull := true }), ev0 (fun v =>
    { v with queues := [h, hd 9], mainOn := false, early := big 3 }), ev0 (fun v =>
    { v with queues := [h, hd 9], mainOn := false, early := big 80 }), ev0 (fun v =>
    { v with queues := [h, hd 9], mainOn := true, main := big 2100 }), ev0 (fun v =>
    { v with queues := [h], mainOn := true, early := big 80 })])) : List (State)).getD 3 (State.reset) :
    State).dev.evl.queues.head?).getD (hd 0) : Held).payload⟩, by (repeat' apply And.intro) <;> decide +kernel⟩
  · exact ⟨ev0 (fun v => { v with queues := [] }), by decide +kernel⟩
  · exact ⟨ev0 (fun v =>
    { v with queues := [hd 3], main := big 9, mainFull := true, overflow := 9, persisting := some (.newVolume 3, 5), waiting := [] }),
    3, 5, 1, by (repeat' apply And.intro) <;> decide +kernel⟩

theorem witness_StepRunsFront :
    (∃ (s : State), s.pending = [] ∧ s.dev.modes.mode = .off) ∧
    (∃ (s : State), s.pending = [] ∧ s.dev.modes.mode ≠ .off) := by
  refine ⟨?_, ?_⟩
  · exact ⟨State.reset, by (repeat' apply And.intro) <;> decide +kernel⟩
  · exact ⟨hw, by (repeat' apply And.intro) <;> decide +kernel⟩

theorem witness_ResetAndReads :
    (∃ (k : Nat), k ≠ 0) ∧
    (∃ (d : Dev) (a : Nat), (csrAssigned a = false ∨ d.domDark (d.csrDomain a) = true)) ∧
    (∃ (d : Dev) (f : Fn), d.fnUp f = false) ∧
    (∃ (d : Dev) (a lo : Nat), lo < 32 ∧ csrAssigned a = true ∧ d.domDark (d.csrDomain a) = false) ∧
    (∃ (a b lo : Nat), lo < 32 ∧ a ≠ b) ∧
    (∃ (d : Dev), d.modes.mode ≠ .off) := by
  refine ⟨?_, ?_, ?_, ?_, ?_, ?_⟩
  · exact ⟨1, by decide +kernel⟩
  · exact ⟨hw.dev, 0x40000018, by decide +kernel⟩
  · exact ⟨hw.dev, .pf .b, by decide +kernel⟩
  · exact ⟨hw.dev, aGlCtrl, 0, by (repeat' apply And.intro) <;> decide +kernel⟩
  · exact ⟨aGlCtrl, aLadderCnt, 0, by (repeat' apply And.intro) <;> decide +kernel⟩
  · exact ⟨hw.dev, by decide +kernel⟩

end WholeSide

end Sys2Proof.Tests
end

