-- ==== Sys2Proof/WellFormed.lean ====
section
/-! DEFINITION. The commands whose operands the device can be given: numbers of slots, channels, domains and the like in their ranges.
Meanings do not rest on it: an operand out of range leaves the machine as it is. -/

namespace Sys2Proof

open Sys2Proof.Machine

/-- A function: a PF, or one of VFs 1 to 512 (Table 04-2). -/
def fnOk : Fn → Bool
  | .pf _ => true
  | .vf _ n => decide (1 ≤ n) && decide (n ≤ 512)

/-- A queue of a function: 0 to 128 on a PF, 0 to 16 on a VF (R99). -/
def queueOk (f : Fn) (q : Nat) : Bool :=
  fnOk f && match f with
    | .pf _ => decide (q ≤ 128)
    | .vf _ _ => decide (q ≤ 16)

/-- A command slot (R124). -/
def csOk (cs : Nat) : Bool := decide (cs < 0x10000)

/-- A Gathering slot, G00 to G63. -/
def slotOk (s : Nat) : Bool := decide (s < 64)

/-- A die position of a slot. -/
def dieOk (s d : Nat) : Bool := slotOk s && decide (d < 64)

/-- A power domain (Table 01-5). -/
def domOk (k : Nat) : Bool := decide (k < 36)

/-- A Quire. -/
def quireOk (q : Nat) : Bool := decide (q < 16)

/-- A DRAM channel. -/
def chanOk (c : Nat) : Bool := decide (c < 12)

/-- A link tag (R269). -/
def tagOk (t : Nat) : Bool := decide (t < 4096)

/-- A Folio or Imposition transfer is at most 4 MiB (R47). -/
def bytesOk (n : Nat) : DmaIn → Bool
  | .ok b => decide (b.length ≤ n)
  | .fault _ => true

/-- The byte of ENROLL_OWNER that names its action: its packet's parameter byte at packet offset 20. -/
def enrollAct (k : KmbPkt) : Nat := k.params.toNat / 2 ^ 96 % 256

/-- A requester of the control space. -/
def reqOk : Requester → Bool
  | .warden => true
  | .lp k => decide (k < 8)

/-- A register target. -/
def targetOk : RegTarget → Bool
  | .csr r a => reqOk r && decide (a < 2 ^ 32)
  | .bar0 f o => fnOk f && decide (o < 0x100000)
  | .busMaster f | .msixEnable f => fnOk f
  | .msixMask f v => queueOk f v
  | .vfEnable _ | .numVfs _ | .msiEnable _ => true

/-- The commands with operands that name a command slot, and nothing else to check. -/
def slotCommandOk : Instr → Bool
  | .commandClassified cs _ | .deleteIoSq cs | .createIoSq cs | .getLogPage cs | .deleteIoCq cs | .createIoCq cs | .identify cs
  | .abort cs | .getFeatures cs | .asyncEventRequest cs | .namespaceDelete cs | .firmwareCommit cs | .deviceSelfTest cs
  | .virtualizationManagement cs | .nvmeMiReceive cs | .formatNvm cs | .sanitizeCryptoErase cs | .sanitizeBlockErase cs
  | .sanitizeExitFailureMode cs | .getLbaStatus cs | .ledgerNewVolume cs | .tenantContractGet cs | .holdUpTestNow cs | .flush cs
  | .write cs | .read cs | .writeZeroes cs | .verify cs | .ioManagementReceive cs | .zoneOpen cs | .zoneClose cs | .zoneFinish cs
  | .zoneReset cs | .zoneOffline cs | .zoneManagementReceive cs | .zoneAppend cs | .hostMemoryFault cs _ => csOk cs
  | .setFeatures cs d | .namespaceCreate cs d | .namespaceAttach cs d | .namespaceDetach cs d | .nvmeMiSend cs d
  | .tenantContractSet cs d | .quirePatrolNow cs d | .quireSetPeriod cs d | .quireSetMode cs d | .quireReleaseMember cs d
  | .quireStartRespread cs d | .quireCancelRelease cs d | .datasetManagement cs d | .ioManagementSend cs d => csOk cs && bytesOk 4096 d
  | .firmwareImageDownload cs d | .writeDataReceived cs d => csOk cs && bytesOk (2 ^ 21 + 2 ^ 16) d
  | .readerRelease cs _ => csOk cs
  | _ => true

/-- The commands about links, slots and their modules. -/
def linkCommandOk : Instr → Bool
  | .colophonReadDone s b => slotOk s && decide ((b.getD []).length ≤ 2 ^ 16)
  | .colophonReadRetry s _ | .lctlReceived s _ | .initReceived s _ | .flitCrcError s | .pongReceived s | .authResponseReceived s _ _
  | .authConfirmReceived s _ | .reauthResponseReceived s _ | .ackTimer s | .replayTimer s | .silenceTimer s | .lockRegained s
  | .recoveryTimer s | .partnerDetected s | .trainingTimeout s | .initResendTimer s | .lowPowerExit s | .progressProbeTimer s
  | .unresponsiveTimer s | .unresponsivePowerCycle s | .authTimeout s | .linkRetrain s | .linkQuarantineRequest s | .slotPowerOn s
  | .slotPowerOff s | .slotResetPulse s | .slotResetReleaseTimer s | .slotInsertion s | .slotRemoval s | .quarantineReleaseTimer s
  | .moduleAlert s _ | .alertStuckTimer s | .monitorPoll s _ | .moduleThrottleStepTimer s | .invalidFlitReceived s
  | .journalRegionReclaim s => slotOk s
  | .cplReceived s c => slotOk s && tagOk c.tag && decide (c.die < 64)
  | .dataFlitReceived s t _ _ | .operationTimer s t => slotOk s && tagOk t
  | .noticeReceived s c d => dieOk s d && decide (c < 256)
  | .blockLockLost s l => slotOk s && decide (l < 4)
  | .trainingDone s w _ => slotOk s && [1, 2, 4].contains w
  | .suspendWindowTimeout s d | .dieWarmTimer s d => dieOk s d
  | .i3cBusStuck b | .i3cBusRecoveryTimeout b | .i3cBusRecovered b => decide (b < 8)
  | _ => true

/-- The commands about Quires, DRAM, pools, the Collation Engine, domains, pairs and the ledger. -/
def unitCommandOk : Instr → Bool
  | .strictWriteWindow q | .foldStart q | .gcStart q | .rebuildStart q | .patrolPeriodEnd q => quireOk q
  | .eraseGateRelease q sb => quireOk q && decide (sb < 2 ^ 22)
  | .patrolRowDue q sb row _ _ => quireOk q && decide (sb < 2 ^ 22) && decide (row < 2 ^ 16)
  | .dramTrainingDone c _ | .ceLogPop c | .dramUncorrectableRead c _ _ => chanOk c
  | .refreshInterval c r | .mr4Poll c r _ => chanOk c && decide (r < 2)
  | .dramCommandCycle c sub r _ _ => chanOk c && decide (sub < 2) && decide (r < 2)
  | .zeroingDone p i | .zeroingBurstDone p i _ => decide (p < 8) && decide (i < 0x80000)
  | .allocationRequest p o _ n => decide (p < 64) && decide (o < 64) && decide (1 ≤ n) && decide (n ≤ 2 ^ 21)
  | .freeRequest p _ => decide (p < 64)
  | .scrubPassDone t => decide (t < 64)
  | .freshGranuleFilled g => decide (g < 2 ^ 19)
  | .pdRequest k t => decide (k < 64) && decide (t < 4)
  | .domainPowerUpDone k | .domainDrainDone k | .idleGateTimeout k | .domainFailed k | .domainGated k => domOk k
  | .engineMismatch u => domOk u.dom
  | .lockstepMismatch k | .takeoverComplete k | .pairSelfTestDone k _ => decide (k < 8)
  | .ledgerRecordOffer e => decide (e.code < 0x10000) && decide (e.src < 256) && decide (e.payload.length ≤ 236)
  | .suppressionSecondEnd c x => decide (c < 0x10000) && decide (x < 256)
  | .ledgerLatch k | .ledgerNext k => decide (k < 4)
  | .ledgerCursorWrite k n => decide (k < 4) && decide (n < 2 ^ 32)
  | .ledgerPersistDone n => decide (n ≤ 16)
  | .tempSample l => decide (l.length = 48)
  | .apstTransition ps => decide (ps ≤ 4)
  | _ => true

/-- The commands of the host ports, the mailboxes and the management interfaces. -/
def hostCommandOk : Instr → Bool
  | .linkDlActive _ r w _ => decide (1 ≤ r) && decide (r ≤ 6) && [1, 2, 4, 8, 16].contains w
  | .writeChunk _ _ d => bytesOk (2 ^ 22) d
  | .putImposition _ _ d => bytesOk (2 ^ 20) d
  | .enrollOwnerEnrol _ k d => bytesOk 8192 d && decide (enrollAct k ≠ 1)
  | .enrollOwnerRevoke _ k d => bytesOk 8192 d && decide (enrollAct k = 1)
  | .badOpcode _ op _ => decide (op.toNat = 0) || decide (10 < op.toNat)
  | .controllerEnable f _ | .controllerReset f _ | .shutdownNotification f _ | .functionLevelReset f => fnOk f
  | .sqTailDoorbell f q _ | .cqHeadDoorbell f q _ | .sqFetchComplete f q _ | .interruptAggregationTime f q => queueOk f q
  | .ideCheckFailed _ n cs => decide (n ≤ 4) && csOk (cs.getD 0)
  | .ideKmRequest _ m => decide (m.stream < 256)
  | .mctpSetEndpointId e => decide (e < 256)
  | .i3cEntdaa a => decide (a < 128)
  | .csrDomainOffAccess r a _ | .csrUnassignedAccess r a _ => reqOk r && decide (a < 2 ^ 32)
  | .registerWrite t _ => targetOk t
  | _ => true

/-- Whether a command is well formed: its operands lie in the ranges that the machine gives them. -/
def Instr.wf (i : Instr) : Bool := slotCommandOk i && linkCommandOk i && unitCommandOk i && hostCommandOk i

end Sys2Proof
end

section
/-! PROOFS. What the operations on fuses do: how blowing fuses relates two arrays, and that enrolling or revoking an owner and
committing an SVN only blow fuses and keep the array formed (R56 to R58). -/

namespace Sys2Proof.Machine

/-! ### Burning -/

/-- The fuses `g` come from the fuses `f` by blowing some, in a way that keeps a formed array formed: enrolled slots keep their
keys, and no enrolment, revocation or SVN fuse is undone. -/
structure Fuses.BurnsTo (f g : Fuses) : Prop where
  formed : f.formed → g.formed
  enrolled : ∀ k, (f.owner k).enrolled = true →
    (g.owner k).enrolled = true ∧ (g.owner k).ecdsa = (f.owner k).ecdsa ∧ (g.owner k).mldsa = (f.owner k).mldsa
  revoked : ∀ k, (f.owner k).revoked = true → (g.owner k).revoked = true
  svn : ∀ i, f.svn.getLsbD i = true → g.svn.getLsbD i = true
  set0Revoked : g.set0Revoked = f.set0Revoked
  injLock : g.injLock = f.injLock
  jtagLock : g.jtagLock = f.jtagLock

theorem Fuses.BurnsTo.refl (f : Fuses) : f.BurnsTo f :=
  ⟨id, fun _ h => ⟨h, rfl, rfl⟩, fun _ h => h, fun _ h => h, rfl, rfl, rfl⟩

theorem Fuses.BurnsTo.trans {f g h : Fuses} (a : f.BurnsTo g) (b : g.BurnsTo h) : f.BurnsTo h where
  formed := b.formed ∘ a.formed
  enrolled k hk := by
    obtain ⟨hg, ge, gm⟩ := a.enrolled k hk
    obtain ⟨hh, he, hm⟩ := b.enrolled k hg
    exact ⟨hh, he.trans ge, hm.trans gm⟩
  revoked k := b.revoked k ∘ a.revoked k
  svn i := b.svn i ∘ a.svn i
  set0Revoked := b.set0Revoked.trans a.set0Revoked
  injLock := b.injLock.trans a.injLock
  jtagLock := b.jtagLock.trans a.jtagLock

/-! ### The SVN fuses -/

theorem le_countFuses (v : BitVec 128) (n k : Nat) : k ≤ countFuses v n k := by
  induction n generalizing k with
  | zero => exact Nat.le_refl k
  | succ n ih =>
    simp only [countFuses]
    split
    · exact (Nat.le_succ k).trans (ih (k + 1))
    · exact Nat.le_refl k

/-- Blowing more fuses never shortens the run of blown ones. -/
theorem countFuses_mono {v w : BitVec 128} (h : ∀ i, v.getLsbD i = true → w.getLsbD i = true) (n k : Nat) :
    countFuses v n k ≤ countFuses w n k := by
  induction n generalizing k with
  | zero => exact Nat.le_refl k
  | succ n ih =>
    by_cases hv : v.getLsbD k = true
    · simpa [countFuses, hv, h k hv] using ih (k + 1)
    · simpa [countFuses, hv] using le_countFuses w (n + 1) k

theorem Fuses.BurnsTo.minSvn_le {f g : Fuses} (h : f.BurnsTo g) : f.minSvn ≤ g.minSvn := countFuses_mono h.svn 128 0

theorem getLsbD_thermometer (n i : Nat) : (BitVec.ofNat 128 (2 ^ n - 1)).getLsbD i = (decide (i < 128) && decide (i < n)) := by
  rw [BitVec.getLsbD_ofNat, Nat.testBit_two_pow_sub_one]

/-- Thermometer codes are closed under blowing the fuses of another one; the code stops at the last fuse. -/
theorem thermometer_or (m n : Nat) : BitVec.ofNat 128 (2 ^ m - 1) ||| BitVec.ofNat 128 (2 ^ n - 1)
    = BitVec.ofNat 128 (2 ^ min 128 (max m n) - 1) := by
  refine BitVec.eq_of_getLsbD_eq fun i hi => ?_
  simp only [BitVec.getLsbD_or, getLsbD_thermometer, hi, decide_true, Bool.true_and, ← Bool.decide_or]
  exact decide_eq_decide.mpr (by omega)

theorem Fuses.burnsTo_svn (f : Fuses) (n : Nat) : f.BurnsTo { f with svn := f.svn ||| BitVec.ofNat 128 (2 ^ n - 1) } where
  formed := by
    rintro ⟨⟨m, -, hm⟩, howners⟩
    exact ⟨⟨min 128 (max m n), Nat.min_le_left _ _, by rw [hm, thermometer_or]⟩, howners⟩
  enrolled _ h := ⟨h, rfl, rfl⟩
  revoked _ h := h
  svn i h := by simp [h]
  set0Revoked := rfl
  injLock := rfl
  jtagLock := rfl

/-! ### The owner slots -/

/-- The fuses with the owner slot `k` written. -/
def Fuses.setOwner (f : Fuses) (k : Nat) (o : Owner) : Fuses := { f with owners := f.owners.put .blank k o }

@[simp] theorem Fuses.owner_setOwner_same (f : Fuses) (k : Nat) (o : Owner) : (f.setOwner k o).owner k = o :=
  Tbl.get_put_same _ _ _ _

theorem Fuses.owner_setOwner_ne (f : Fuses) {j k : Nat} (o : Owner) (h : j ≠ k) : (f.setOwner k o).owner j = f.owner j :=
  Tbl.get_put_ne _ _ _ h

theorem Fuses.formed_setOwner {f : Fuses} (hf : f.formed) {k : Nat} (hk : k ≤ 3) {o : Owner} (ho : o ≠ .blank) :
    (f.setOwner k o).formed := by
  obtain ⟨hsvn, hwf, hslots⟩ := hf
  refine ⟨hsvn, Tbl.wf_set? k _ _ hwf, fun j p hp => ?_⟩
  rw [Fuses.setOwner, Tbl.put, if_neg ho] at hp
  by_cases hj : j = k
  · subst hj
    rw [Tbl.get?_set?_same, Option.some.injEq] at hp
    exact ⟨hk, hp ▸ ho⟩
  · exact hslots j p (Tbl.get?_set?_ne _ _ hj ▸ hp)

/-- Writing one of the four owner slots blows fuses only, if what is written keeps that slot's enrolment with its keys and its
revocation. -/
theorem Fuses.burnsTo_setOwner (f : Fuses) {k : Nat} (hk : k ≤ 3) {o : Owner} (ho : o ≠ .blank)
    (he : (f.owner k).enrolled = true → o.enrolled = true ∧ o.ecdsa = (f.owner k).ecdsa ∧ o.mldsa = (f.owner k).mldsa)
    (hr : (f.owner k).revoked = true → o.revoked = true) : f.BurnsTo (f.setOwner k o) where
  formed hf := Fuses.formed_setOwner hf hk ho
  enrolled j hj := by
    by_cases h : j = k
    · subst h; simpa using he hj
    · simpa [Fuses.owner_setOwner_ne f o h] using hj
  revoked j hj := by
    by_cases h : j = k
    · subst h; simpa using hr hj
    · simpa [Fuses.owner_setOwner_ne f o h] using hj
  svn _ h := h
  set0Revoked := rfl
  injLock := rfl
  jtagLock := rfl

/-- R57: an enrolment that passes the checks of Table 02-18 is of a slot that is not enrolled yet. -/
theorem not_enrolled_of_enrolCheck {f : Fuses} {b : List Byte} {slot : Nat} (h : enrolCheck f b true slot = none) :
    (f.owner slot).enrolled = false := by
  simp only [enrolCheck] at h
  iterate 3 (split at h; · cases h)
  split at h
  · cases h
  next hslot => simpa using fun he => hslot (.inl ⟨trivial, he⟩)

theorem Fuses.burnsTo_enrolled {f : Fuses} {b : List Byte} {enrol : Bool} {slot : Nat} (c : List Byte)
    (h : enrolCheck f b enrol slot = none) (hs : slot ≤ 3) : f.BurnsTo (f.enrolled c enrol slot) := by
  cases enrol with
  | true =>
    have hn := not_enrolled_of_enrolCheck h
    exact f.burnsTo_setOwner hs (by simp [Owner.blank]) (by simp [hn]) id
  | false => exact f.burnsTo_setOwner hs (by simp [Owner.blank]) (fun he => ⟨he, rfl, rfl⟩) (fun _ => rfl)

end Sys2Proof.Machine
end

section
/-! PROOFS. What a command may do outside the device: it leaves the queue and only blows fuses. Each meaning that is a function of
the whole state has its lemma; the others run on the device alone (`State.onDev`). -/

namespace Sys2Proof.Machine

/-! ### The relation between a state and the state after a command -/

/-- The commands that wait are the same, and fuses are at most blown. -/
structure State.Keeps (s t : State) : Prop where
  pending : t.pending = s.pending
  fuse : s.fuse.BurnsTo t.fuse

theorem State.Keeps.refl (s : State) : s.Keeps s := ⟨rfl, .refl _⟩

theorem State.Keeps.trans {s t u : State} (a : s.Keeps t) (b : t.Keeps u) : s.Keeps u :=
  ⟨b.pending.trans a.pending, a.fuse.trans b.fuse⟩

/-- Changing the device only. -/
theorem State.Keeps.dev (s : State) (d : Dev) : s.Keeps { s with dev := d } := ⟨rfl, .refl _⟩

theorem State.Keeps.onDev (s : State) (f : Dev → Dev) : s.Keeps (s.onDev f) := .dev s _

theorem State.Keeps.ite {c : Prop} [Decidable c] {s t u : State} (ht : s.Keeps t) (hu : s.Keeps u) : s.Keeps (if c then t else u) := by
  split
  · exact ht
  · exact hu

/-! ### Power, rails and temperatures -/

theorem keeps_pwrfailAssert (s : State) : s.Keeps (pwrfailAssert s) := by
  refine .ite (.refl s) ?_
  dsimp only
  split <;> exact .dev s _

theorem keeps_sealWritten (s : State) : s.Keeps (sealWritten s) :=
  .ite (.refl s) (.ite (.dev s _) (.ite (.refl s) (.dev s _)))

theorem keeps_coreRail (s : State) : s.Keeps (coreRail s) :=
  .ite (.refl s) (.ite (.dev s _) (.ite (.refl s) (.dev s _)))

theorem keeps_tempSample (temps : List Int) (s : State) : s.Keeps (tempSample temps s) := .ite (.refl s) (.dev s _)

/-! ### DRAM training, domains, pairs and engines -/

theorem keeps_trainingOver (s : State) : s.Keeps (trainingOver s) := .ite (.refl s) (.ite (.dev s _) (.dev s _))

theorem keeps_dramTrainingDone (c : Nat) (res : TrainRes) (s : State) : s.Keeps (dramTrainingDone c res s) :=
  .ite (.refl s) (.ite ((State.Keeps.dev s _).trans (keeps_trainingOver _)) (.dev s _))

theorem keeps_failDomain (k : Nat) (s : State) : s.Keeps (failDomain k s) := by
  refine .ite (.refl s) ?_
  split <;> exact .dev s _

theorem keeps_lockstepMismatch (k : Nat) (s : State) : s.Keeps (lockstepMismatch k s) := by
  refine .ite (.refl s) (.ite (.dev s _) ?_)
  split <;> exact .dev s _

theorem keeps_retirePair (k : Nat) (s : State) : s.Keeps (retirePair k s) := by
  unfold retirePair
  extract_lets d₁ d₂ d₃
  exact .ite (.dev s _) (.ite (.dev s _) (.dev s _))

theorem keeps_pairSelfTestDone (k : Nat) (ok : Bool) (s : State) : s.Keeps (pairSelfTestDone k ok s) :=
  .ite (.refl s) (.ite (.dev s _) (keeps_retirePair k s))

theorem keeps_wardenMismatch (s : State) : s.Keeps (wardenMismatch s) := .ite (.refl s) (.dev s _)

theorem keeps_engineMismatch (u : EngineUnit) (s : State) : s.Keeps (engineMismatch u s) :=
  .ite (.refl s) (.ite ((State.Keeps.dev s _).trans (keeps_failDomain u.dom _)) (.dev s _))

/-! ### The boot -/

theorem keeps_folioVerifyDone (s : State) : s.Keeps (folioVerifyDone s) := by
  unfold folioVerifyDone
  dsimp only
  split
  · refine .ite (.refl s) ?_
    split <;> exact .dev s _
  · exact .refl s

theorem keeps_mapRestoreDone (r : RestoreIn) (s : State) : s.Keeps (mapRestoreDone r s) :=
  .ite (.refl s) (.ite (.dev s _) (.dev s _))

/-! ### Committing an SVN (R58) -/

theorem keeps_commitSvn (s : State) : s.Keeps s.commitSvn := by
  unfold State.commitSvn
  split
  · exact .refl s
  · exact .ite (.refl s) ⟨rfl, s.fuse.burnsTo_svn _⟩

theorem keeps_activationDrained (s : State) : s.Keeps (activationDrained s) := by
  unfold activationDrained
  split
  · exact .refl s
  · exact .ite (.onDev s _) (((State.Keeps.onDev s _).trans (keeps_commitSvn _)).trans (.onDev _ _))

theorem keeps_assembleEntry (s : State) : s.Keeps (assembleEntry s) := by
  refine .ite (.refl s) ?_
  dsimp only
  split
  · exact .dev s _
  · exact ((State.Keeps.dev s _).trans (keeps_commitSvn _)).trans (.onDev _ _)

/-! ### The mailbox -/

@[simp] theorem minByte_eq_none (a b : Option Nat) : minByte a b = none ↔ a = none ∧ b = none := by
  cases a <;> cases b <;> simp [minByte]

@[simp] theorem badIf_eq_none (c : Bool) (b : Nat) : badIf c b = none ↔ c = false := by cases c <;> simp [badIf]

@[simp] theorem badParam_eq_none (b : Option Nat) : badParam b = none ↔ b = none := by simp [badParam]

/-- ENROLL_OWNER blows fuses only where every check has passed: the parameter checks of R49 leave it one of the four slots. -/
theorem keeps_runEnroll (enrol : Bool) (p : Port) (k : KmbPkt) (dma : DmaIn) (s : State) : s.Keeps (runEnroll enrol p k dma s) := by
  unfold runEnroll
  dsimp only
  split
  · exact .onDev s _
  next hparams =>
    have hslot : k.num 21 1 ≤ 3 := by
      obtain ⟨-, hbad⟩ := Option.or_eq_none_iff.mp hparams
      simp only [badParam_eq_none, minByte_eq_none, badIf_eq_none, decide_eq_false_iff_not] at hbad
      omega
    split
    · exact .onDev s _
    split
    · exact .onDev s _
    next hcheck => exact ⟨rfl, Fuses.burnsTo_enrolled _ hcheck hslot⟩

theorem keeps_kmbRun (i : Instr) (s : State) : s.Keeps (kmbRun i s) := by
  cases i with
  | enrollOwnerEnrol p k dma => exact keeps_runEnroll true p k dma s
  | enrollOwnerRevoke p k dma => exact keeps_runEnroll false p k dma s
  | hello | beginImage | writeChunk | endImage | putImposition | getStatus | getColophon | getLedger | abortLoad
  | badOpcode => exact .dev s _
  | _ => exact .refl s

theorem keeps_runHeld (p : Port) (s : State) : s.Keeps (runHeld p s) := by
  unfold runHeld
  split
  · exact .refl s
  · exact (State.Keeps.onDev s _).trans (keeps_kmbRun _ _)

theorem keeps_mailboxReady (s : State) : s.Keeps (mailboxReady s) :=
  .ite (.refl s) (((State.Keeps.onDev s _).trans (keeps_runHeld .a _)).trans (keeps_runHeld .b _))

theorem keeps_kmbRing (s : State) (p : Port) (op : Nat) (k : KmbPkt) (i : Instr) {run : State → State}
    (hrun : ∀ u : State, u.Keeps (run u)) : s.Keeps (s.kmbRing p op k i run) :=
  have hstart := State.Keeps.onDev s (fun d => d.kmbStart p op k)
  .ite (.refl s) (.ite (.onDev s _) (.ite (hstart.trans (hrun _)) (hstart.trans (.onDev _ _))))

theorem keeps_ring (s : State) (p : Port) (op : Nat) (k : KmbPkt) (i : Instr) : s.Keeps (s.ring p op k i) :=
  .ite (keeps_kmbRing s p op k i (keeps_kmbRun i)) (.refl s)

end Sys2Proof.Machine
end

section
/-! PROOFS. O59: no command touches the queue, and every step only blows fuses and keeps them formed (R2, R56, R58). -/

namespace Sys2Proof.Machine

/-- A command that ends in the state `u` and whose outcome is `t`. -/
theorem keeps_of_next {s t u : State} (hu : s.Keeps u) (h : (.next u : Host.Outcome State Fault Refusal) = .next t) : s.Keeps t := by
  cases h
  exact hu

/-- The commands with a meaning on the whole state, by their lemmas; every other command runs on the device alone. -/
theorem keeps_exec {c : Instr} {s t : State} (h : exec c s = .next t) : s.Keeps t := by
  cases c with
  | pwrfailNAssert => exact keeps_of_next (keeps_pwrfailAssert s) h
  | holdupSealWritten => exact keeps_of_next (keeps_sealWritten s) h
  | coreRailOutOfLimits => exact keeps_of_next (keeps_coreRail s) h
  | tempSample temps => exact keeps_of_next (keeps_tempSample temps s) h
  | activationDrained => exact keeps_of_next (keeps_activationDrained s) h
  | dramTrainingDone ch res => exact keeps_of_next (keeps_dramTrainingDone ch res s) h
  | domainFailed dom => exact keeps_of_next (keeps_failDomain dom s) h
  | lockstepMismatch pair => exact keeps_of_next (keeps_lockstepMismatch pair s) h
  | pairSelfTestDone pair ok => exact keeps_of_next (keeps_pairSelfTestDone pair ok s) h
  | wardenMismatch => exact keeps_of_next (keeps_wardenMismatch s) h
  | engineMismatch u => exact keeps_of_next (keeps_engineMismatch u s) h
  | folioVerifyDone => exact keeps_of_next (keeps_folioVerifyDone s) h
  | mapRestoreDone r => exact keeps_of_next (keeps_mapRestoreDone r s) h
  | assembleEntryDecision => exact keeps_of_next (keeps_assembleEntry s) h
  | mailboxReady => exact keeps_of_next (keeps_mailboxReady s) h
  | hello | beginImage | writeChunk | endImage | putImposition | getStatus | getColophon | getLedger | enrollOwnerEnrol
  | enrollOwnerRevoke | abortLoad => exact keeps_of_next (keeps_ring s _ _ _ _) h
  | badOpcode p op k => exact keeps_of_next (.ite (.refl s) (keeps_ring s _ _ _ _)) h
  | _ => exact keeps_of_next (.onDev s _) h

/-- Every step blows fuses only: a tick of the clock touches none, and a command runs with the fuses as they are. -/
theorem burnsTo_step {s t : State} (h : step s = .next t) : s.fuse.BurnsTo t.fuse := by
  unfold step at h
  split at h
  · exact (keeps_of_next (.onDev s _) h).fuse
  · exact (keeps_exec h).fuse

/-- O59's hypotheses can be met where its conclusions bind: a formed array with an SVN fuse blown, an owner slot enrolled and
another one revoked, and a step. -/
theorem exists_step_of_formed : ∃ s t : State, s.fuse.formed ∧ s.fuse.svn.getLsbD 0 = true ∧ (s.fuse.owner 0).enrolled = true
    ∧ (s.fuse.owner 2).revoked = true ∧ step s = .next t := by
  refine ⟨⟨[.crystalStable], ⟨false, 1, [(0, ⟨1, 1, true, false⟩), (2, ⟨2, 2, true, true⟩)], false, true⟩, .reset⟩, _,
    ⟨⟨1, by decide, rfl⟩, rfl, fun k o h => ?_⟩, rfl, rfl, rfl, rfl⟩
  simp only [Tbl.get?] at h
  split at h
  · cases h; simp_all [Owner.blank]
  split at h
  · cases h; simp_all [Owner.blank]
  · cases h

/-- Settles O59, from what a command keeps (`keeps_exec`) and what a step may do to the fuses (`burnsTo_step`). -/
theorem fusesAndQueueKept : Obligations.FusesAndQueueKept := by
  refine ⟨fun _ _ _ h => (keeps_exec h).pending, fun _ _ hf h => (burnsTo_step h).formed hf, fun s t h => ?_⟩
  have hb := burnsTo_step h
  exact ⟨hb.enrolled, hb.revoked, hb.svn, hb.minSvn_le, hb.set0Revoked, hb.injLock, hb.jtagLock⟩

end Sys2Proof.Machine
end

section
/-! PROOFS. O60: the state after reset, and what reads return (R8 to R10, R13, R45, R466). -/

namespace Sys2Proof.Machine

/-! ### Reset -/

/-- AON alone is powered after reset (R23). -/
theorem reset_dom_off {k : Nat} (h : k ≠ 0) : (State.reset.dev.dom k).st = .off := by
  simp [Dev.dom, State.reset, Dev.reset, Pwr.reset, Tbl.get, Tbl.get?, h, Dom.off]

/-- A part as made: no SVN fuse is blown and no owner slot used (R56, R58). -/
theorem formed_reset : Fuses.reset.formed := ⟨⟨0, Nat.zero_le _, rfl⟩, rfl, nofun⟩

/-! ### Reads that clear (R10) -/

theorem Tbl.get?_filter_key {α : Type} (t : Tbl α) (q : Nat → Bool) (k : Nat) :
    Tbl.get? (t.filter (fun x => q x.1)) k = if q k then Tbl.get? t k else none := by
  induction t with
  | nil => simp [Tbl.get?]
  | cons x t ih =>
    obtain ⟨j, v⟩ := x
    by_cases hj : k = j
    · subst hj
      by_cases hq : q k <;> simp_all [Tbl.get?]
    · by_cases hq : q j <;> simp [Tbl.get?, hq, hj, ih]

/-- The counters after a read that returns a register: those of that register are 0, the others as before. -/
theorem Dev.counter_csrReadClear (d : Dev) {a : Nat} (ha : csrAssigned a = true) (hd : d.domDark (d.csrDomain a) = false)
    (b : Nat) {lo : Nat} (hlo : lo < 32) : (d.csrReadClear a).1.counter b lo = if b = a then 0 else d.counter b lo := by
  have hb : (32 * b + lo) / 32 = b := by omega
  have hf := Tbl.get?_filter_key d.cnt (fun k => decide (k / 32 ≠ a)) (32 * b + lo)
  simp only [Dev.csrReadClear, Dev.counter, Tbl.get, ha, hd, Bool.not_false, Bool.and_self, if_true, hf, hb]
  by_cases h : b = a <;> simp [h]

/-- A read that returns nothing of a register clears nothing (R9, R13). -/
theorem Dev.csrReadClear_dark (d : Dev) {a : Nat} (h : (csrAssigned a && !d.domDark (d.csrDomain a)) = false) :
    (d.csrReadClear a).1 = d := by
  simp [Dev.csrReadClear, h]

theorem Dev.counter_csrReadClear_ne (d : Dev) {a b lo : Nat} (hlo : lo < 32) (hab : a ≠ b) :
    (d.csrReadClear a).1.counter b lo = d.counter b lo := by
  cases h : csrAssigned a && !d.domDark (d.csrDomain a) with
  | false => rw [d.csrReadClear_dark h]
  | true =>
    obtain ⟨ha, hd⟩ := Bool.and_eq_true_iff.mp h
    rw [d.counter_csrReadClear ha (by simpa using hd) b hlo, if_neg hab.symm]

/-! ### WDN_MODE (R45) -/

theorem modeCode_lt (m : Mode) : modeCode m < 16 := by cases m <;> decide

/-- The mode field is the lowest of the word: the fields above it are multiples of 16. -/
theorem Dev.wdnMode_mode (d : Dev) : d.wdnMode.toNat % 16 = d.modeByte % 16 := by
  simp only [Dev.wdnMode, word, List.map_cons, List.map_nil, List.sum_cons, List.sum_nil, BitVec.toNat_ofNat]
  omega

theorem Dev.wdnMode_of_ne_off {d : Dev} (h : d.modes.mode ≠ .off) : d.wdnMode.toNat % 16 = modeCode d.modes.mode := by
  rw [d.wdnMode_mode, Dev.modeByte, if_neg h, Nat.mod_eq_of_lt (modeCode_lt _)]

/-- Settles O60: the reset values as the model's literals have them, and the words that reads return. -/
theorem resetAndReads : Obligations.ResetAndReads := by
  refine ⟨rfl, rfl, rfl, rfl, rfl, fun _ => reset_dom_off, rfl, rfl, rfl, fun _ => rfl, formed_reset, ?_, ?_, ?_, ?_, ?_⟩
  · rintro d a (h | h) <;> simp [Dev.csrRead, h]
  · intro d f o h
    simp [Dev.bar0Read, h]
  · intro d a lo hlo ha hd
    rw [d.counter_csrReadClear ha hd a hlo, if_pos rfl]
  · exact fun d a b lo hlo hab => d.counter_csrReadClear_ne hlo hab
  · exact fun d h => d.wdnMode_of_ne_off h

end Sys2Proof.Machine
end

section
/-! PROOFS. O58: what a step does with a command at the front of the queue, and with none (R25, R32, R36, R417). -/

namespace Sys2Proof.Machine

variable (d : Dev)

@[simp] theorem butHost_drainLate : d.drainLate.butHost = d.butHost := by
  simp only [Dev.drainLate]
  split
  · split
    · rfl
    · exact butHost_ev _ _ _ _
  · rfl

/-- Time passes by one tick of the AON clock in every mode but OFF. -/
theorem ns64_tick {d : Dev} (h : d.modes.mode ≠ .off) : d.tick.clk.ns64 = d.clk.ns64 + 1953125 := by
  simp only [Dev.tick, h, if_false]
  split
  · rfl
  · exact congrArg (·.clk.ns64) (butHost_drainLate _)

theorem modes_tick : d.tick.modes = d.modes := by
  simp only [Dev.tick]
  split
  · rfl
  split
  · rfl
  · exact congrArg (·.modes) (butHost_drainLate _)

theorem csr_tick : d.tick.csr = d.csr := by
  simp only [Dev.tick]
  split
  · rfl
  split
  · rfl
  · exact congrArg (·.csr) (butHost_drainLate _)

theorem step_of_idle {s : State} (h : s.pending = []) : step s = .next (s.onDev Dev.tick) := by simp [step, h]

/-- Settles O58: the queue's front runs with the rest, and an idle step is one tick (`step_of_idle`). -/
theorem stepRunsFront : Obligations.StepRunsFront := by
  refine ⟨fun _ _ => rfl, fun s h hoff => ?_, fun s h hon => ?_⟩
  · rw [step_of_idle h, State.onDev, Dev.tick, if_pos hoff]
  · exact ⟨_, step_of_idle h, rfl, h, ns64_tick hon, modes_tick _, csr_tick _⟩

end Sys2Proof.Machine
end

section
/-! PROOFS. O2: the crystal, the reference clocks, and the end of the AWAIT_IMAGE window (R25, R26, R40). -/

namespace Sys2Proof.Machine

variable (d : Dev)

/-! ### The references -/

@[simp] theorem Port.other_other (p : Port) : p.other.other = p := by cases p <;> rfl

@[simp] theorem lost_setLost (p : Port) (v : Bool) : (d.setLost p v).clk.lost p = v := by cases p <;> rfl

@[simp] theorem lost_other_setLost (p : Port) (v : Bool) : (d.setLost p v).clk.lost p.other = d.clk.lost p.other := by
  cases p <;> rfl

@[simp] theorem refSel_setLost (p : Port) (v : Bool) : (d.setLost p v).clk.refSel = d.clk.refSel := by cases p <;> rfl

@[simp] theorem holdover_setLost (p : Port) (v : Bool) : (d.setLost p v).clk.holdover = d.clk.holdover := by cases p <;> rfl

/-- The clocks that the multiplexer leaves when it has switched to a port's reference. -/
theorem clk_switchRef (p : Port) : (d.switchRef p).clk = { d.clk with refSel := p.ref, holdover := false } := by
  simp [Dev.switchRef]

theorem lost_with_ref (c : Clk) (r : RefSel) (h : Bool) (p : Port) : ({ c with refSel := r, holdover := h } : Clk).lost p = c.lost p := by
  cases p <;> rfl

/-- The device without its clock, its ledger and its counting registers. -/
def Dev.butClk (d : Dev) : Dev := { d.butLog with clk := .reset }

@[simp] theorem butClk_ev (c i : Nat) (l : List PField) : (d.ev c i l).butClk = d.butClk := by simp [Dev.butClk]

@[simp] theorem butClk_setLost (p : Port) (v : Bool) : (d.setLost p v).butClk = d.butClk := rfl

@[simp] theorem butClk_switchRef (p : Port) : (d.switchRef p).butClk = d.butClk := by
  simp only [Dev.switchRef, butClk_ev]
  rfl

theorem butLog_of_butClk {d e : Dev} (h : d.butClk = e.butClk) : d.butLog = { e with clk := d.clk }.butLog := by
  exact congrArg (fun x : Dev => { x with clk := d.clk }) h

/-! ### A reference lost -/

section
variable {d : Dev} {p : Port} (hon : d.modes.mode ≠ .off) (hl : d.clk.lost p = false)
include hon hl

theorem clk_refclkLost_unused (hr : d.clk.refSel ≠ p.ref) : (refclkLost p d).clk = (d.setLost p true).clk := by
  simp [refclkLost, hon, hl, hr]

theorem clk_refclkLost_switch (hr : d.clk.refSel = p.ref) (ho : d.clk.lost p.other = false) :
    (refclkLost p d).clk = { (d.setLost p true).clk with refSel := p.other.ref, holdover := false } := by
  simp [refclkLost, hon, hl, hr, ho, clk_switchRef]

theorem clk_refclkLost_holdover (hr : d.clk.refSel = p.ref) (ho : d.clk.lost p.other = true) :
    (refclkLost p d).clk = { (d.setLost p true).clk with holdover := true } := by
  simp [refclkLost, hon, hl, hr, ho]

end

theorem butClk_refclkLost (p : Port) : (refclkLost p d).butClk = d.butClk := by
  simp only [refclkLost]
  split
  · rfl
  split
  · simp
  split
  · simp
  · exact butClk_ev (d.setLost p true) _ _ _

/-- What the loss of a reference leaves of both references, whether or not it was in use. -/
theorem lost_refclkLost {d : Dev} {p : Port} (hon : d.modes.mode ≠ .off) (hl : d.clk.lost p = false) :
    (refclkLost p d).clk.lost p = true ∧ (refclkLost p d).clk.lost p.other = d.clk.lost p.other := by
  have hset : ∀ q, (refclkLost p d).clk.lost q = (d.setLost p true).clk.lost q := fun q => by
    by_cases hr : d.clk.refSel = p.ref
    · cases ho : d.clk.lost p.other with
      | false => rw [clk_refclkLost_switch hon hl hr ho, lost_with_ref]
      | true => rw [clk_refclkLost_holdover hon hl hr ho]; cases q <;> rfl
    · rw [clk_refclkLost_unused hon hl hr]
  simp [hset]

/-! ### A reference returned -/

section
variable {d : Dev} {p : Port} (hon : d.modes.mode ≠ .off) (hl : d.clk.lost p = true)
include hon hl

theorem clk_refclkReturn_locked (hh : d.clk.holdover = false) : (refclkReturn p d).clk = (d.setLost p false).clk := by
  simp [refclkReturn, hon, hl, hh]

/-- PLLs in holdover lock to the reference that returned. -/
theorem clk_refclkReturn_holdover (hh : d.clk.holdover = true) :
    (refclkReturn p d).clk = { (d.setLost p false).clk with refSel := p.ref, holdover := false } := by
  by_cases hr : d.clk.refSel = p.ref
  · have hs : p.ref = (d.setLost p false).clk.refSel := by simp [hr]
    rw [hs]
    simp [refclkReturn, hon, hl, hh, hr]
  · simp [refclkReturn, hon, hl, hh, hr, clk_switchRef]

end

theorem butClk_refclkReturn (p : Port) : (refclkReturn p d).butClk = d.butClk := by
  simp only [refclkReturn]
  split
  · rfl
  split
  · simp
  split
  · exact butClk_ev (d.setLost p false) _ _ _
  · simp

/-! ### The window -/

@[simp] theorem enterMode_boot (m : Mode) : (d.enterMode m).boot = d.boot := by
  have h := congrArg Dev.boot (butMode_enterMode d m)
  exact h

@[simp] theorem powerSlots_boot : d.powerSlots.boot = d.boot := by
  have h := congrArg Dev.boot (butSlots_powerSlots d)
  exact h

@[simp] theorem powerSlots_modes : d.powerSlots.modes = d.modes := by
  have h := congrArg Dev.modes (butSlots_powerSlots d)
  exact h

/-- The mailboxes without a command show TIMEOUT. -/
def Dev.boxTimeout (d : Dev) (p : Port) : Dev := if (d.box p).busy then d else d.modBox p (fun b => { b with status := 0x51 })

/-- What the window's end leaves before DORMANT is entered: the failure is recorded and everything staged is gone. -/
def Dev.windowClosed (d : Dev) : Dev :=
  let d := d.bootFail 0x51 0
  [Port.a, Port.b].foldl Dev.boxTimeout
    { d with boot := { d.boot with folio := none, impo := none, folioOk := false, windowNs64 := none } }.powerSlots

theorem awaitImageTimeout_eq {d : Dev} (h : d.modes.mode = .awaitImage) : awaitImageTimeout d = d.windowClosed.enterMode .dormant := by
  rw [awaitImageTimeout, if_neg (by simp [h])]
  rfl

theorem boot_windowClosed : d.windowClosed.boot =
    { d.boot with lastStatus := 0x51, lastDetail := 0, folio := none, impo := none, folioOk := false, windowNs64 := none } := by
  have hbox : ∀ (x : Dev) (p : Port), (x.boxTimeout p).boot = x.boot := fun x p => by
    simp only [Dev.boxTimeout]; split <;> rfl
  simp [Dev.windowClosed, hbox, Dev.bootFail]

theorem modes_windowClosed : d.windowClosed.modes = d.modes := by
  have hbox : ∀ (x : Dev) (p : Port), (x.boxTimeout p).modes = x.modes := fun x p => by
    simp only [Dev.boxTimeout]; split <;> rfl
  simp [Dev.windowClosed, hbox, Dev.bootFail]

/-- Settles O2, from the clock that each command leaves and what the window's end does to the boot. -/
theorem clocksAndTheAwaitWindow : Obligations.ClocksAndTheAwaitWindow := by
  refine ⟨fun s p hon => ⟨?_, fun hl => ?_, fun hl => ?_⟩, fun s h => ?_⟩
  · change Host.Outcome.next (s.onDev crystalStable) = _
    rw [State.onDev, crystalStable, if_neg hon]
  · obtain ⟨hp, ho⟩ := lost_refclkLost hon hl
    refine ⟨s.onDev (refclkLost p), rfl, hp, ho, fun hr => ?_, fun hr hother => ?_, fun hr hother => ?_, rfl,
      butLog_of_butClk (butClk_refclkLost s.dev p)⟩
    · simp [clk_refclkLost_unused hon hl hr]
    · simp [clk_refclkLost_switch hon hl hr hother]
    · simp [clk_refclkLost_holdover hon hl hr hother, hr]
  · refine ⟨s.onDev (refclkReturn p), rfl, ?_⟩
    have hframe := butLog_of_butClk (butClk_refclkReturn s.dev p)
    simp only [State.onDev_dev]
    cases hh : s.dev.clk.holdover with
    | false =>
      rw [clk_refclkReturn_locked hon hl hh] at hframe ⊢
      exact ⟨by simp, by simp [hh], fun _ => by simp, nofun, rfl, hframe⟩
    | true =>
      rw [clk_refclkReturn_holdover hon hl hh] at hframe ⊢
      exact ⟨by simp [lost_with_ref], rfl, nofun, fun _ => rfl, rfl, hframe⟩
  · have hmode := enterMode_mode s.dev.windowClosed .dormant (by simp [modes_windowClosed, h])
    refine ⟨s.onDev awaitImageTimeout, rfl, ?_⟩
    rw [State.onDev_dev, awaitImageTimeout_eq h, enterMode_boot, boot_windowClosed]
    exact ⟨hmode, rfl, rfl, rfl, rfl, rfl⟩

end Sys2Proof.Machine
end

section
/-! PROOFS. O49: the Buffer Pool Manager: allocation, frees, zeroing and the lock (R337, R339 to R346). -/

namespace Sys2Proof.Machine

variable (d : Dev)

/-! ### Buffers read back -/

@[simp] theorem buf_modBuf (p i : Nat) (f : Buf → Buf) : (d.modBuf p i f).bpm.buf p i = f (d.bpm.buf p i) := by
  simp [Dev.modBuf, Bpm.buf]

theorem bufs_modBuf_ne {p i j : Nat} (f : Buf → Buf) (h : j ≠ bufKey p i) :
    (d.modBuf p i f).bpm.bufs.get .free j = d.bpm.bufs.get .free j := Tbl.get_mod_ne _ _ _ h

theorem bufKey_div_mod (k : Nat) : bufKey (k / 2 ^ 19) (k % 2 ^ 19) = k := Nat.div_add_mod k (2 ^ 19)

theorem Tbl.mem_of_get? {α : Type} {t : Tbl α} {k : Nat} {v : α} (h : t.get? k = some v) : (k, v) ∈ t := by
  induction t with
  | nil => cases h
  | cons x t ih =>
    obtain ⟨j, w⟩ := x
    simp only [Tbl.get?] at h
    split at h
    next hk => cases h; simp [hk]
    next => exact List.mem_cons_of_mem _ (ih h)

/-- A buffer that does not read as FREE with clear masks is listed. -/
theorem Bpm.mem_bufs_of_ne_free {b : Bpm} {p i : Nat} (h : b.buf p i ≠ .free) : (bufKey p i, b.buf p i) ∈ b.bufs := by
  refine Tbl.mem_of_get? ?_
  simp only [Bpm.buf, Tbl.get] at h ⊢
  cases hg : Tbl.get? b.bufs (bufKey p i) with
  | none => simp [hg] at h
  | some v => rfl

/-! ### The lowest FREE buffer -/

/-- The search of `firstFree` ends at a FREE buffer if there is one in its range. -/
theorem Bpm.st_firstFree {b : Bpm} {p n i : Nat} (h : ∃ j, i ≤ j ∧ j < i + n ∧ (b.buf p j).st = 0) :
    (b.buf p (b.firstFree p n i)).st = 0 := by
  induction n generalizing i with
  | zero => obtain ⟨j, hij, hj, -⟩ := h; omega
  | succ n ih =>
    simp only [Bpm.firstFree]
    split
    next hi => exact hi
    next hi =>
      obtain ⟨j, hij, hj, hst⟩ := h
      have hne : i ≠ j := by rintro rfl; exact hi hst
      exact ih ⟨j, by omega, by omega, hst⟩

/-- Of one more buffers than are listed at least one is FREE. -/
theorem Bpm.exists_free (b : Bpm) (p i : Nat) : ∃ j, i ≤ j ∧ j < i + (b.bufs.length + 1) ∧ (b.buf p j).st = 0 := by
  by_contra hnone
  push Not at hnone
  have hsub : (List.range' i (b.bufs.length + 1)).map (bufKey p) ⊆ b.bufs.map (·.1) := by
    intro k hk
    obtain ⟨j, hj, rfl⟩ := List.mem_map.mp hk
    obtain ⟨hij, hj⟩ := List.mem_range'_1.mp hj
    have hne : b.buf p j ≠ .free := fun h => hnone j hij hj (by rw [h]; rfl)
    exact List.mem_map.mpr ⟨_, Bpm.mem_bufs_of_ne_free hne, rfl⟩
  have hnodup : ((List.range' i (b.bufs.length + 1)).map (bufKey p)).Nodup :=
    (List.nodup_range').map (fun _ _ h => Nat.add_left_cancel h)
  have hlen := (List.subperm_of_subset hnodup hsub).length_le
  simp at hlen

/-! ### Requests -/

theorem bpmMark_eq (port o p : Nat) : ∃ w, ⟨port, o, p⟩ ∈ w ∧ d.bpmMark port o p = { d with bpm := { d.bpm with waiting := w } } := by
  simp only [Dev.bpmMark]
  split
  next h => exact ⟨_, List.contains_iff_mem.mp h, rfl⟩
  next => exact ⟨_, by simp, rfl⟩

/-- A request whose pool is not known to it: answered without a look at the pools (Table 12-3). -/
theorem allocationRequest_inl {port owner size n : Nat} {dram : Bool} (h : allocPool port owner dram size = .inl n) :
    allocationRequest port owner dram size d = d.emit (.bpm port n 0) := by
  simp [allocationRequest, Dev.alloc, h]

/-- The buffer `i` of a pool goes to an owner, and the owner's waiting mark at the port goes. -/
def Dev.grantBuf (d : Dev) (port owner p i : Nat) : Dev :=
  let d := d.modBuf p i (fun b => { b with st := 1, owner := owner, holder := port, written := 0 })
  { d with bpm := { d.bpm with waiting := d.bpm.waiting.filter (fun w => !(decide (w = ⟨port, owner, p⟩))) } }

theorem buf_grantBuf (port owner p i : Nat) : (d.grantBuf port owner p i).bpm.buf p i =
    { d.bpm.buf p i with st := 1, owner := owner, holder := port, written := 0 } :=
  buf_modBuf d p i (fun b => { b with st := 1, owner := owner, holder := port, written := 0 })

theorem bufs_grantBuf_ne (port owner : Nat) {p i j : Nat} (h : j ≠ bufKey p i) :
    (d.grantBuf port owner p i).bpm.bufs.get .free j = d.bpm.bufs.get .free j :=
  bufs_modBuf_ne d (fun b => { b with st := 1, owner := owner, holder := port, written := 0 }) h

/-- A granted allocation takes a buffer that is FREE. -/
theorem alloc_granted {d : Dev} {port owner size p : Nat} {dram : Bool} (h : allocPool port owner dram size = .inr p)
    (hst : d.grantStatus owner p = 0) :
    ∃ i, (d.bpm.buf p i).st = 0 ∧ d.alloc port owner dram size = (d.grantBuf port owner p i, 0, mkHandle p i 0) :=
  ⟨d.bpm.firstFree p (d.bpm.bufs.length + 1) (d.poolSpan p).1, Bpm.st_firstFree (d.bpm.exists_free p _), by
    simp only [Dev.alloc, h, hst, if_true]
    rfl⟩

theorem alloc_refused {d : Dev} {port owner size p : Nat} {dram : Bool} (h : allocPool port owner dram size = .inr p)
    (hst : d.grantStatus owner p ≠ 0) : d.alloc port owner dram size =
      ((d.count (aBpmPoolFail + 4 * p) 0 32).bpmMark port owner p, d.grantStatus owner p, 0) := by
  simp only [Dev.alloc, h, hst, if_false]

/-! ### Frees -/

theorem counter_count_ne {a lo w n b lo' : Nat} (h : 32 * b + lo' ≠ 32 * a + lo) : (d.count a lo w n).counter b lo' = d.counter b lo' :=
  Tbl.get_put_ne _ _ _ h

/-- Offering a record counts nothing but the drops of the ledger (R432). -/
theorem cnt_offer (c src : Nat) (p : List Byte) : (d.offer c src p).cnt = d.cnt
    ∨ (d.offer c src p).cnt = (d.count aEvlDrops 0 16).cnt ∨ (d.offer c src p).cnt = (d.count aEvlDrops 16 16).cnt := by
  simp only [Dev.offer]
  (repeat' split) <;> simp

theorem counter_ev {a lo c i : Nat} {l : List PField} (ha : a ≠ aEvlDrops) (hlo : lo < 32) : (d.ev c i l).counter a lo = d.counter a lo := by
  have hdrop : ∀ k, k < 32 → (d.count aEvlDrops k 16).counter a lo = d.counter a lo :=
    fun k hk => counter_count_ne d (by omega)
  obtain h | h | h := cnt_offer d c (16 * codeSub c + i % 16) (payloadOf l)
  · exact congrArg (Tbl.get 0 · (32 * a + lo)) h
  · exact (congrArg (Tbl.get 0 · (32 * a + lo)) h).trans (hdrop 0 (by decide))
  · exact (congrArg (Tbl.get 0 · (32 * a + lo)) h).trans (hdrop 16 (by decide))

/-- The rejections of a port within the last second (R346). -/
def Dev.recentRejects (d : Dev) (port : Nat) : List (Nat × Nat) :=
  d.bpm.rejects.filter (fun x => decide (x.1 = port) && decide (d.now < x.2 + 1000000000))

/-- Releasing the buffers of a list, one by one. -/
def Dev.bufReleases (d : Dev) (l : List (Nat × Buf)) : Dev := l.foldl (fun d x => d.bufRelease (x.1 / 2 ^ 19) (x.1 % 2 ^ 19)) d

/-- What the reset of a port keeps of the manager and the device: all but buffers, rejections, the ledger and its counters. -/
def Dev.butRejects (d : Dev) : Dev := { d.butLog with bpm := { d.bpm with bufs := [], rejects := [] } }

theorem butRejects_bufReleases (l : List (Nat × Buf)) : (d.bufReleases l).butRejects = d.butRejects :=
  foldl_keeps Dev.butRejects (fun (d : Dev) (x : Nat × Buf) => d.bufRelease (x.1 / 2 ^ 19) (x.1 % 2 ^ 19)) (fun _ _ => rfl) l d

theorem butRejects_ev (c i : Nat) (l : List PField) : (d.ev c i l).butRejects = d.butRejects := by
  have h : ∀ x : Dev, x.butRejects = { x.butLog with bpm := { x.butLog.bpm with bufs := [], rejects := [] } } := fun _ => rfl
  rw [h, h, butLog_ev]

/-- A rejection that is not the port's 16th within 1 s changes only the list of rejections. -/
theorem bpmRejectAt_few {d : Dev} {port : Nat} (h : (d.recentRejects port).length < 15) : ∃ r,
    d.bpmRejectAt port = { d with bpm := { d.bpm with rejects := r } } := by
  have h16 : (d.recentRejects port).length + 1 < 16 := by omega
  simp only [Dev.recentRejects] at h16
  refine ⟨(port, d.now) :: d.bpm.rejects.filter (fun x => decide (d.now < x.2 + 1000000000)), ?_⟩
  simp only [Dev.bpmRejectAt]
  rw [if_pos h16]

/-- The port's 16th rejection within 1 s resets the port: its buffers are released (R346). -/
theorem bpmRejectAt_many {d : Dev} {port : Nat} (h : 15 ≤ (d.recentRejects port).length) : ∃ x : Dev,
    x.bpm.bufs = d.bpm.bufs ∧ x.butRejects = d.butRejects ∧ x.counter aBpmMisfree 0 = d.counter aBpmMisfree 0
    ∧ d.bpmRejectAt port = x.bufReleases
      (d.bpm.bufs.filter (fun x => decide (x.2.st = 1) && decide (x.2.holder = port) && decide (x.2.owner < 16))) := by
  have h16 : ¬ (d.recentRejects port).length + 1 < 16 := by omega
  simp only [Dev.recentRejects] at h16
  refine ⟨?x, ?_, ?_, ?_, ?eq⟩
  case eq =>
    simp only [Dev.bpmRejectAt]
    rw [if_neg h16]
    simp only [Dev.ev_bpm, Dev.count_bpm]
    rfl
  · simp
  · rw [butRejects_ev]; rfl
  · rw [counter_ev _ (by decide) (by decide), counter_count_ne _ (by decide)]
    rfl

theorem st_bufRelease_same (k : Nat) : ((d.bufRelease (k / 2 ^ 19) (k % 2 ^ 19)).bpm.bufs.get .free k).st = 2 := by
  have h := congrArg Buf.st (buf_modBuf d (k / 2 ^ 19) (k % 2 ^ 19) (fun b => { b with st := 2, owner := 0, holder := 0 }))
  rwa [Bpm.buf, bufKey_div_mod] at h

theorem st_bufRelease_ne {j k : Nat} (h : k ≠ j) :
    (d.bufRelease (j / 2 ^ 19) (j % 2 ^ 19)).bpm.bufs.get .free k = d.bpm.bufs.get .free k :=
  bufs_modBuf_ne d _ (by rwa [bufKey_div_mod])

/-- A buffer that is to be released, or is being zeroed already, is being zeroed once the list is released. -/
theorem st_bufReleases {k : Nat} (l : List (Nat × Buf))
    (h : (∃ b, (k, b) ∈ l) ∨ (d.bpm.bufs.get .free k).st = 2) : ((d.bufReleases l).bpm.bufs.get .free k).st = 2 := by
  induction l generalizing d with
  | nil => simpa [Dev.bufReleases] using h
  | cons x l ih =>
    refine ih _ ?_
    by_cases hx : k = x.1
    · exact .inr (hx ▸ st_bufRelease_same d _)
    · rw [st_bufRelease_ne d hx]
      refine h.imp (fun ⟨b, hb⟩ => ⟨b, ?_⟩) id
      exact (List.mem_cons.mp hb).resolve_left (fun he => hx (congrArg Prod.fst he))

/-- What a rejection leaves of the manager and of the device. -/
theorem butRejects_bpmRejectAt (port : Nat) : (d.bpmRejectAt port).butRejects = d.butRejects := by
  by_cases h : (d.recentRejects port).length < 15
  · obtain ⟨r, hr⟩ := bpmRejectAt_few h
    rw [hr]
    rfl
  · obtain ⟨x, -, hx, -, he⟩ := bpmRejectAt_many (Nat.le_of_not_lt h)
    rw [he, butRejects_bufReleases, hx]

theorem out_bpmRejectAt (port : Nat) : (d.bpmRejectAt port).out = d.out := by
  have h := congrArg Dev.out (butRejects_bpmRejectAt d port)
  exact h

theorem lastHandle_bpmRejectAt (port : Nat) : (d.bpmRejectAt port).bpm.lastHandle = d.bpm.lastHandle := by
  have h := congrArg (·.bpm.lastHandle) (butRejects_bpmRejectAt d port)
  exact h

theorem lastPort_bpmRejectAt (port : Nat) : (d.bpmRejectAt port).bpm.lastPort = d.bpm.lastPort := by
  have h := congrArg (·.bpm.lastPort) (butRejects_bpmRejectAt d port)
  exact h

theorem lastReason_bpmRejectAt (port : Nat) : (d.bpmRejectAt port).bpm.lastReason = d.bpm.lastReason := by
  have h := congrArg (·.bpm.lastReason) (butRejects_bpmRejectAt d port)
  exact h

theorem counter_bpmRejectAt (port : Nat) : (d.bpmRejectAt port).counter aBpmMisfree 0 = d.counter aBpmMisfree 0 := by
  by_cases h : (d.recentRejects port).length < 15
  · obtain ⟨r, hr⟩ := bpmRejectAt_few h
    rw [hr]
    rfl
  · obtain ⟨x, -, -, hx, he⟩ := bpmRejectAt_many (Nat.le_of_not_lt h)
    have hcnt : ∀ y l, (Dev.bufReleases y l).cnt = y.cnt := fun y l =>
      foldl_keeps Dev.cnt (fun (d : Dev) (x : Nat × Buf) => d.bufRelease (x.1 / 2 ^ 19) (x.1 % 2 ^ 19)) (fun _ _ => rfl) l y
    rw [he, Dev.counter, hcnt]
    exact hx

/-- A rejected free before its port is looked at: the handle, port and reason are kept, counted and recorded (R345). -/
def Dev.freeRejected (d : Dev) (port : Nat) (h : W32) : Dev :=
  ({ d with bpm := { d.bpm with lastHandle := h, lastPort := port, lastReason := d.freeStatus port h } }.count aBpmMisfree 0 16).ev
    evBpmFreeRejected 0 [.num 1 port, .num 4 h.toNat, .num 1 (d.bpm.buf (hPool h) (hIdx h)).owner, .num 1 (d.bpm.buf (hPool h) (hIdx h)).st]

theorem bpm_freeRejected (port : Nat) (h : W32) : (d.freeRejected port h).bpm =
    { d.bpm with lastHandle := h, lastPort := port, lastReason := d.freeStatus port h } := by
  simp [Dev.freeRejected]

theorem bufs_freeRejected (port : Nat) (h : W32) : (d.freeRejected port h).bpm.bufs = d.bpm.bufs := by
  rw [bpm_freeRejected]

theorem recentRejects_freeRejected (port : Nat) (h : W32) : (d.freeRejected port h).recentRejects port = d.recentRejects port := by
  have hnow : (d.freeRejected port h).now = d.now := by simp [Dev.freeRejected, Dev.now]
  simp only [Dev.recentRejects, bpm_freeRejected, hnow]

theorem counter_freeRejected (port : Nat) (h : W32) :
    (d.freeRejected port h).counter aBpmMisfree 0 = sat 16 (d.counter aBpmMisfree 0 + 1) := by
  rw [Dev.freeRejected, counter_ev _ (by decide) (by decide), Dev.counter_count]
  rfl

theorem freeRequest_rejected {d : Dev} {port : Nat} {h : W32} (hst : d.freeStatus port h ≠ 0) :
    freeRequest port h d = ((d.freeRejected port h).bpmRejectAt port).emit (.bpm port (d.freeStatus port h) h) := by
  simp only [freeRequest, hst, if_false]
  rfl

theorem freeRequest_accepted {d : Dev} {port : Nat} {h : W32} (hst : d.freeStatus port h = 0) :
    freeRequest port h d = (d.bufRelease (hPool h) (hIdx h)).emit (.bpm port 0 h) := by
  simp only [freeRequest, hst, if_true]

/-! ### Zeroing -/

theorem bpmReady_eq (p : Nat) : ∃ o, d.bpmReady p = { d with out := o } := by
  simp only [Dev.bpmReady]
  split
  · exact ⟨_, rfl⟩
  · exact ⟨_, rfl⟩

@[simp] theorem bpmReady_bpm (p : Nat) : (d.bpmReady p).bpm = d.bpm := by
  obtain ⟨o, ho⟩ := bpmReady_eq d p
  rw [ho]

@[simp] theorem giveBack_bpm (g : Option Nat) : (d.giveBack g).bpm = d.bpm := by
  have h := congrArg Dev.bpm (butWork_giveBack d g)
  exact h

theorem bitOf_eq_testBit (v i : Nat) : bitOf v i = v.testBit i := by rw [bitOf, Nat.testBit_eq_decide_div_mod_eq]

/-- Clearing a bit of a mask of 512 units. -/
theorem bitOf_clear {u v : Nat} (hu : u < 512) (hv : v < 512) (m : Nat) :
    bitOf (m &&& (2 ^ 512 - 1 - 2 ^ u)) v = (bitOf m v && decide (v ≠ u)) := by
  have hle : 2 ^ u < 2 ^ 512 := Nat.pow_lt_pow_right (by decide) hu
  rw [bitOf_eq_testBit, bitOf_eq_testBit, Nat.testBit_and, Nat.sub_sub, Nat.add_comm 1, Nat.testBit_two_pow_sub_succ hle,
    Nat.testBit_two_pow]
  simp [hv, eq_comm]

/-! ### The three kinds of request -/

/-- A request granted. -/
theorem allocationRequest_granted {d : Dev} {port owner size p : Nat} {dram : Bool} (h : allocPool port owner dram size = .inr p)
    (hst : d.grantStatus owner p = 0) : ∃ i, (d.bpm.buf p i).st = 0
      ∧ allocationRequest port owner dram size d = (d.grantBuf port owner p i).emit (.bpm port 0 (mkHandle p i 0)) := by
  obtain ⟨i, hi, halloc⟩ := alloc_granted h hst
  exact ⟨i, hi, by rw [allocationRequest, halloc]⟩

/-- A request refused: the pool's failure is counted, and the owner waits. -/
theorem allocationRequest_refused {d : Dev} {port owner size p : Nat} {dram : Bool} (h : allocPool port owner dram size = .inr p)
    (hst : d.grantStatus owner p ≠ 0) : ∃ w, (⟨port, owner, p⟩ : BpmWait) ∈ w
      ∧ allocationRequest port owner dram size d = { d.count (aBpmPoolFail + 4 * p) 0 32 with
          bpm := { d.bpm with waiting := w }, out := .bpm port (d.grantStatus owner p) 0 :: d.out } := by
  obtain ⟨w, hw, hmark⟩ := bpmMark_eq (d.count (aBpmPoolFail + 4 * p) 0 32) port owner p
  exact ⟨w, hw, by rw [allocationRequest, alloc_refused h hst, hmark]; rfl⟩

/-- What a rejected free leaves: its handle, port and reason, and the count of rejected frees. -/
theorem freeRequest_rejected_keeps {d : Dev} {port : Nat} {h : W32} (hst : d.freeStatus port h ≠ 0) :
    (freeRequest port h d).out = .bpm port (d.freeStatus port h) h :: d.out
    ∧ (freeRequest port h d).bpm.lastHandle = h ∧ (freeRequest port h d).bpm.lastPort = port
    ∧ (freeRequest port h d).bpm.lastReason = d.freeStatus port h
    ∧ (freeRequest port h d).counter aBpmMisfree 0 = sat 16 (d.counter aBpmMisfree 0 + 1) := by
  rw [freeRequest_rejected hst]
  simp only [Dev.emit_out, Dev.emit_bpm, Dev.counter, Dev.emit_cnt, out_bpmRejectAt, lastHandle_bpmRejectAt, lastPort_bpmRejectAt,
    lastReason_bpmRejectAt, bpm_freeRejected, true_and]
  refine ⟨by simp [Dev.freeRejected], ?_⟩
  rw [← Dev.counter, counter_bpmRejectAt, counter_freeRejected]
  rfl

theorem bufs_freeRequest_few {d : Dev} {port : Nat} {h : W32} (hst : d.freeStatus port h ≠ 0)
    (hfew : (d.recentRejects port).length < 15) : (freeRequest port h d).bpm.bufs = d.bpm.bufs := by
  rw [← recentRejects_freeRejected d port h] at hfew
  obtain ⟨r, hr⟩ := bpmRejectAt_few hfew
  rw [freeRequest_rejected hst, hr]
  exact bufs_freeRejected d port h

/-- R346: the port's 16th rejection within 1 s takes from it every buffer that it holds for an owner below 16. -/
theorem st_freeRequest_many {d : Dev} {port p i : Nat} {h : W32} (hst : d.freeStatus port h ≠ 0)
    (hmany : 15 ≤ (d.recentRejects port).length) (howned : (d.bpm.buf p i).st = 1) (hport : (d.bpm.buf p i).holder = port)
    (howner : (d.bpm.buf p i).owner < 16) : ((freeRequest port h d).bpm.buf p i).st = 2 := by
  rw [← recentRejects_freeRejected d port h] at hmany
  obtain ⟨x, -, -, -, hx⟩ := bpmRejectAt_many hmany
  have hne : d.bpm.buf p i ≠ .free := fun he => by simp [he, Buf.free] at howned
  rw [freeRequest_rejected hst, hx, bufs_freeRejected]
  refine st_bufReleases x _ (.inl ⟨d.bpm.buf p i, List.mem_filter.mpr ⟨Bpm.mem_bufs_of_ne_free hne, ?_⟩⟩)
  simp [howned, hport, howner]

/-! ### Zeroing and the lock -/

theorem zeroingDone_bpm {d : Dev} {p i : Nat} (hp : p < 8) (hst : (d.bpm.buf p i).st = 2) :
    (zeroingDone p i d).bpm = (({ d with bpm := d.bpm.dropData p i } : Dev).modBuf p i (fun b =>
      { b with st := 0, written := 0, owed := if p < 4 then 0 else b.owed ||| b.written })).bpm := by
  simp only [zeroingDone]
  rw [if_pos ⟨hp, hst⟩, bpmReady_bpm]

theorem zeroingDone_refused {d : Dev} {p i : Nat} (h : 8 ≤ p ∨ (d.bpm.buf p i).st ≠ 2) : zeroingDone p i d = d :=
  if_neg fun ⟨hp, hst⟩ => h.elim (Nat.not_le.mpr hp) (· hst)

theorem zeroBurstDone_bpm {d : Dev} {g : Dev → Dev} (hg : ∀ x, (g x).bpm = x.bpm) {p i u : Nat} (hp : 4 ≤ p) (hp8 : p < 8)
    (hu : u < 512) (hb : bitOf (d.bpm.buf p i).owed u = true) : (zeroBurstDone g p i u d).bpm =
      (d.modBuf p i (fun b => { b with owed := b.owed &&& (2 ^ 512 - 1 - 2 ^ u) })).bpm := by
  rw [zeroBurstDone, if_pos ⟨hp, hp8, hu, hb⟩, hg]

theorem zeroBurstDone_refused {d : Dev} {g : Dev → Dev} {p i u : Nat} (h : p < 4 ∨ bitOf (d.bpm.buf p i).owed u = false) :
    zeroBurstDone g p i u d = d :=
  if_neg fun ⟨hp, _, _, hb⟩ => h.elim (Nat.not_lt.mpr hp) (by simp [hb])

theorem cfgLock_bpm_ok {d : Dev} (hr : d.domReady 2 = true) (hl : d.bpm.lock = false) (hok : d.cfgOk = true) :
    (cfgLock d).bpm = { d.bpm with lock := true, error := false, dramTotal := ceilDiv d.dramPools 256 } := by
  simp only [cfgLock, hr, hl, hok]
  exact foldl_keeps Dev.bpm _ (fun a b => bpmReady_bpm a b) _ _

theorem cfgLock_bpm_bad {d : Dev} (hr : d.domReady 2 = true) (hl : d.bpm.lock = false) (hok : d.cfgOk = false) :
    (cfgLock d).bpm = { d.bpm with error := true } := by
  simp [cfgLock, hr, hl, hok]

theorem cfgLock_refused {d : Dev} (h : d.domReady 2 = false ∨ d.bpm.lock = true) : cfgLock d = d :=
  if_pos (by simpa using h)

/-- Settles O49, from what each request does to the buffers, the answers and the counts. -/
theorem bufferPools : Obligations.BufferPools := by
  intro s
  refine ⟨fun port owner size n dram h => ?_, fun port owner size p dram h => ⟨fun hst => ?_, fun hst => ?_⟩,
    fun port h => ⟨fun hst => ?_, fun hst => ?_⟩, fun p i => ⟨fun hp hst => ?_, fun h => ?_, fun u hu => ⟨fun hp hp8 hb => ?_, fun h => ?_⟩⟩,
    fun hr hl => ⟨fun hok => ?_, fun hok => ?_⟩, fun h => ?_⟩
  · exact congrArg (fun d => Host.Outcome.next { s with dev := d }) (allocationRequest_inl s.dev h)
  · obtain ⟨i, hi, heq⟩ := allocationRequest_granted h hst
    refine ⟨s.onDev (allocationRequest port owner dram size), i, rfl, rfl, hi, ?_⟩
    rw [State.onDev_dev, heq]
    exact ⟨buf_grantBuf s.dev port owner p i, fun j hj => bufs_grantBuf_ne s.dev port owner hj, rfl, rfl⟩
  · obtain ⟨w, hw, heq⟩ := allocationRequest_refused h hst
    refine ⟨s.onDev (allocationRequest port owner dram size), rfl, rfl, ?_⟩
    have hcnt := Dev.counter_count s.dev (aBpmPoolFail + 4 * p) 0 32 1
    rw [State.onDev_dev, heq]
    exact ⟨rfl, rfl, hcnt, hw⟩
  · refine ⟨s.onDev (freeRequest port h), rfl, rfl, ?_⟩
    rw [State.onDev_dev, freeRequest_accepted hst]
    exact ⟨buf_modBuf s.dev _ _ _, fun j hj => bufs_modBuf_ne s.dev _ hj, rfl⟩
  · obtain ⟨hout, hhandle, hport, hreason, hcnt⟩ := freeRequest_rejected_keeps hst
    exact ⟨s.onDev (freeRequest port h), rfl, rfl, hout, hhandle, hport, hreason, hcnt, bufs_freeRequest_few hst,
      fun hmany _ _ _ _ h1 hh ho => st_freeRequest_many hst hmany h1 hh ho⟩
  · refine ⟨s.onDev (zeroingDone p i), rfl, rfl, ?_⟩
    rw [State.onDev_dev, zeroingDone_bpm hp hst]
    exact ⟨buf_modBuf { s.dev with bpm := s.dev.bpm.dropData p i } p i _, rfl⟩
  · exact congrArg (fun d => Host.Outcome.next { s with dev := d }) (zeroingDone_refused h)
  · refine ⟨_, rfl, rfl, ?_⟩
    rw [State.onDev_dev, zeroBurstDone_bpm (fun x => giveBack_bpm x _) hp hp8 hu hb, buf_modBuf]
    exact ⟨by simp [bitOf_clear hu hu], rfl, fun v hv hne => by simp [bitOf_clear hu hv, hne], rfl⟩
  · exact congrArg (fun d => Host.Outcome.next { s with dev := d }) (zeroBurstDone_refused h)
  · exact ⟨s.onDev cfgLock, rfl, rfl, cfgLock_bpm_ok hr hl hok⟩
  · exact ⟨s.onDev cfgLock, rfl, rfl, cfgLock_bpm_bad hr hl hok⟩
  · exact congrArg (fun d => Host.Outcome.next { s with dev := d }) (cfgLock_refused h)

end Sys2Proof.Machine
end

section
/-! PROOFS. Commands that end: what completing a command posts, and what dropping a command's work leaves alone (R134, R135, R139,
R142). -/

namespace Sys2Proof.Machine

variable (d : Dev)

/-! ### A command without its progress -/

/-- What a command is, without how far it has come. -/
def CSlot.request (s : CSlot) : CSlot :=
  { s with st := .fetched, wait := .nothing, charged := false, pacedAt := none, wasPaced := false, bufs := [], tags := [], units := []
           want := 0, rsv := 0, commitAt := 0, stage := 0 }

section
variable {s t : CSlot} (h : s.request = t.request)
include h

theorem CSlot.fn_of_request : s.fn = t.fn := congrArg (a₁ := s.request) (a₂ := t.request) CSlot.fn h
theorem CSlot.sqid_of_request : s.sqid = t.sqid := congrArg (a₁ := s.request) (a₂ := t.request) CSlot.sqid h
theorem CSlot.cid_of_request : s.cid = t.cid := congrArg (a₁ := s.request) (a₂ := t.request) CSlot.cid h
theorem CSlot.sqe_of_request : s.sqe = t.sqe := congrArg (a₁ := s.request) (a₂ := t.request) CSlot.sqe h
theorem CSlot.tenant_of_request : s.tenant = t.tenant := congrArg (a₁ := s.request) (a₂ := t.request) CSlot.tenant h
theorem CSlot.cqe_of_request : s.cqe = t.cqe := congrArg (a₁ := s.request) (a₂ := t.request) CSlot.cqe h
theorem CSlot.discard_of_request : s.discard = t.discard := congrArg (a₁ := s.request) (a₂ := t.request) CSlot.discard h

theorem CSlot.dw_of_request (i : Nat) : s.dw i = t.dw i := by rw [CSlot.dw, CSlot.dw, CSlot.sqe_of_request h]
theorem CSlot.opcode_of_request : s.opcode = t.opcode := by rw [CSlot.opcode, CSlot.opcode, CSlot.sqe_of_request h]
theorem CSlot.nsid_of_request : s.nsid = t.nsid := CSlot.dw_of_request h 1
theorem CSlot.slba_of_request : s.slba = t.slba := by
  rw [CSlot.slba, CSlot.slba, CSlot.dw_of_request h, CSlot.dw_of_request h]
theorem CSlot.nlb_of_request : s.nlb = t.nlb := by rw [CSlot.nlb, CSlot.nlb, CSlot.dw_of_request h]

theorem Dev.nsOf_of_request : d.nsOf s = d.nsOf t := by
  rw [Dev.nsOf, Dev.nsOf, CSlot.nsid_of_request h, CSlot.fn_of_request h]

end

theorem Dev.nsOf_congr {d e : Dev} (h : d.tc = e.tc) (s : CSlot) : d.nsOf s = e.nsOf s := by simp only [Dev.nsOf, h]

/-- A command stays one that can be completed at once while only its progress and other parts of the device change. -/
theorem Dev.postable_of_request {d e : Dev} {cs : Nat} {s t : CSlot} (h : d.postable cs s) (hfns : e.fns = d.fns)
    (hslot : e.hg.slots.get? cs = some t) (hreq : t.request = s.request) : e.postable cs t := by
  obtain ⟨-, hcqe, hdis, hbme, hcq⟩ := h
  have hfnst : ∀ f, e.fnst f = d.fnst f := fun f => by simp only [Dev.fnst, hfns]
  have hcqOf : ∀ f q, e.cqOf f q = d.cqOf f q := fun f q => by simp only [Dev.cqOf, hfnst]
  refine ⟨hslot, (CSlot.cqe_of_request hreq).trans hcqe, (CSlot.discard_of_request hreq).trans hdis, ?_, ?_⟩
  · rw [hfnst, CSlot.fn_of_request hreq, hbme]
  · rw [hcqOf, CSlot.fn_of_request hreq, CSlot.sqid_of_request hreq, hcq]

/-! ### Interrupts -/

@[simp] theorem signal_hg (f : Fn) (v : Nat) : (d.signal f v).hg = d.hg := by simp only [Dev.signal]; (repeat' split) <;> rfl

@[simp] theorem cqInterrupt_hg (f : Fn) (v : Nat) : (d.cqInterrupt f v).hg = d.hg := by
  simp only [Dev.cqInterrupt]; (repeat' split) <;> simp

@[simp] theorem settleFn_hg (f : Fn) : (d.settleFn f).hg = d.hg := by simp only [Dev.settleFn]; (repeat' split) <;> rfl

@[simp] theorem settleFn_out (f : Fn) : (d.settleFn f).out = d.out := by simp only [Dev.settleFn]; (repeat' split) <;> rfl

theorem out_signal (f : Fn) (v : Nat) : d.out <:+ (d.signal f v).out := by
  simp only [Dev.signal]
  split
  · split
    · split
      · exact List.suffix_rfl
      · exact List.suffix_cons _ _
    · split
      · exact List.suffix_cons _ _
      · exact List.suffix_rfl
  · exact List.suffix_rfl

theorem out_cqInterrupt (f : Fn) (v : Nat) : d.out <:+ (d.cqInterrupt f v).out := by
  simp only [Dev.cqInterrupt]
  split
  · split
    · exact out_signal (d.modFn f _) f v
    · exact List.suffix_rfl
  · exact out_signal d f v

/-! ### Completing a command -/

theorem freeSlot_of_some {d : Dev} {cs : Nat} {s : CSlot} (h : d.hg.slots.get? cs = some s) :
    (d.freeSlot cs).hg = { d.hg with slots := d.hg.slots.del cs } ∧ (d.freeSlot cs).out = d.out := by
  simp [Dev.freeSlot, h]

theorem post_posted {d : Dev} {cs : Nat} {s : CSlot} (h : d.hg.slots.get? cs = some s) (qid : Nat) (q : Cq) (e : Cqe) :
    (d.post cs s qid q e).posted d.out cs s e := by
  simp only [Dev.post]
  generalize hx : Dev.modFn _ _ _ = x
  have hhg : x.hg = d.hg := by rw [← hx]; rfl
  have hout : ∃ sqhd, x.out = .cqe s.fn qid s.sqid s.cid sqhd e :: d.out := ⟨_, by rw [← hx]; rfl⟩
  generalize hy : (if q.ien = true then x.cqInterrupt s.fn q.vector else x) = y
  have hyhg : y.hg = d.hg := by
    rw [← hy]; split
    · rw [cqInterrupt_hg, hhg]
    · exact hhg
  have hyout : x.out <:+ y.out := by
    rw [← hy]; split
    · exact out_cqInterrupt _ _ _
    · exact List.suffix_rfl
  obtain ⟨hfree, hfout⟩ := freeSlot_of_some (d := y) (cs := cs) (s := s) (by rw [hyhg, h])
  obtain ⟨sqhd, hxout⟩ := hout
  refine ⟨by rw [hfree]; exact Tbl.get?_del_same _ _, qid, sqhd, d.out, ?_, List.suffix_rfl⟩
  rw [hfout, ← hxout]
  exact hyout

/-- R135: the outcome of a command that can be posted as soon as it is known is posted, and its slot is free. -/
theorem complete_posted {d : Dev} {cs : Nat} {s : CSlot} (h : d.postable cs s) (e : Cqe) :
    (d.complete cs e).posted d.out cs s e := by
  obtain ⟨hslot, hcqe, hdis, hbme, hcq⟩ := h
  simp only [Dev.complete, hslot, hcqe, hdis, Option.isSome_none]
  generalize hx : ({ d with adm := _ } : Dev) = x
  have hxslot : x.hg.slots.get? cs = some s := by rw [← hx]; exact hslot
  have hxout : x.out = d.out := by rw [← hx]
  have hxfn : x.fnst s.fn = d.fnst s.fn := by rw [← hx]; rfl
  have hxcq : x.cqOf s.fn s.sqid = d.cqOf s.fn s.sqid := by simp only [Dev.cqOf, hxfn]
  rw [hxfn, hbme, hxcq]
  cases hq : d.cqOf s.fn s.sqid with
  | none => simp [hq] at hcq
  | some c =>
    obtain ⟨qid, q⟩ := c
    simp only [hq] at hcq
    simp only [hcq, if_true]
    exact hxout ▸ post_posted hxslot qid q e

/-- A command that has come further, or whose work is dropped, is posted as well. -/
theorem complete_posted_of_request {d e : Dev} {cs : Nat} {s t : CSlot} (h : d.postable cs s) (hslot : e.hg.slots.get? cs = some t)
    (hfns : e.fns = d.fns) (hout : e.out = d.out) (hreq : t.request = s.request) (c : Cqe) : (e.complete cs c).posted d.out cs s c := by
  obtain ⟨hfree, hposted⟩ := complete_posted (Dev.postable_of_request h hfns hslot hreq) c
  rw [CSlot.fn_of_request hreq, CSlot.sqid_of_request hreq, CSlot.cid_of_request hreq, hout] at hposted
  exact ⟨hfree, hposted⟩

/-! ### The count of commits -/

@[simp] theorem freeSlot_commits (cs : Nat) : (d.freeSlot cs).hg.commits = d.hg.commits := by
  simp only [Dev.freeSlot]; split <;> simp

@[simp] theorem discardCpl_commits (s : CSlot) : (d.discardCpl s).hg.commits = d.hg.commits := rfl

@[simp] theorem post_commits (cs : Nat) (s : CSlot) (qid : Nat) (q : Cq) (e : Cqe) :
    (d.post cs s qid q e).hg.commits = d.hg.commits := by
  simp only [Dev.post]; (repeat' split) <;> simp

@[simp] theorem complete_commits (cs : Nat) (e : Cqe) : (d.complete cs e).hg.commits = d.hg.commits := by
  simp only [Dev.complete]; (repeat' split) <;> simp [Dev.modSlot]

@[simp] theorem complete_tc (cs : Nat) (e : Cqe) : (d.complete cs e).tc = d.tc := by
  have h := congrArg Dev.tc (butHost_complete d cs e)
  exact h

/-! ### Dropping a command's work -/

@[simp] theorem butWork_bareOp (k : OpKind) (s n : Nat) (t : Option Nat) : (d.bareOp k s n t).1.butWork = d.butWork := by
  simp [Dev.bareOp]

@[simp] theorem butWork_resumeDie (s k : Nat) : (d.resumeDie s k).butWork = d.butWork := by
  simp only [Dev.resumeDie]; split <;> simp

@[simp] theorem butWork_dieNext (s k : Nat) : (d.dieNext s k).butWork = d.butWork := by
  simp only [Dev.dieNext, butWork_sluPump, butWork_pumpDeferred]; split <;> simp

@[simp] theorem butWork_unqueue (s k rid : Nat) : (d.unqueue s k rid).butWork = d.butWork := rfl

@[simp] theorem butWork_dropRead (rid : Nat) : (d.dropRead rid).butWork = d.butWork := by
  simp only [Dev.dropRead]
  split
  · rfl
  split
  · rw [butWork_dieNext, butWork_unqueue]; rfl
  · rfl

@[simp] theorem butWork_dropReadAll (rid : Nat) : (d.dropReadAll rid).butWork = d.butWork := by
  rw [Dev.dropReadAll, butWork_dropRead, foldl_keeps Dev.butWork Dev.dropRead butWork_dropRead]

/-- The device without what dropping a command's work touches: the traffic, the Collation Engine, the buffers, and slots. -/
def Dev.butDrop (d : Dev) : Dev := { d.butWork with col := .reset, bpm := .reset, hg := { d.hg with slots := [] } }

theorem Dev.butDrop_of_work {a b : Dev} (h : a.butWork = b.butWork) : a.butDrop = b.butDrop := by
  exact congrArg (fun x : Dev => { x with col := .reset, bpm := .reset, hg := { x.hg with slots := [] } }) h

/-- The reads of a command that are given up. -/
theorem butWork_dropReads (l : List Nat) : (l.foldl Dev.dropReadAll d).butWork = d.butWork :=
  foldl_keeps Dev.butWork Dev.dropReadAll butWork_dropReadAll l d

@[simp] theorem freeBufs_eq (l : List W32) : ∃ b, d.freeBufs l = { d with bpm := b } := by
  induction l generalizing d with
  | nil => exact ⟨_, rfl⟩
  | cons h l ih =>
    simp only [Dev.freeBufs, List.foldl_cons] at ih ⊢
    split
    · obtain ⟨b, hb⟩ := ih (d.bufRelease (hPool h) (hIdx h))
      exact ⟨b, hb⟩
    · exact ih d

theorem colReaderDone_eq (tag : Nat) : ∃ c, (d.colReaderDone tag).1 = { d with col := c } := by
  simp only [Dev.colReaderDone]
  (repeat' split) <;> exact ⟨_, rfl⟩

/-- A reader of a tag that a command gives up: the tag's count falls, and buffers that nothing refers to any more are freed. -/
def Dev.dropReader (d : Dev) (tag : Nat) : Dev := (d.colReaderDone tag).1.freeBufs (d.colReaderDone tag).2

theorem dropReaders_eq (l : List Nat) : ∃ c b, l.foldl Dev.dropReader d = { d with col := c, bpm := b } := by
  induction l generalizing d with
  | nil => exact ⟨_, _, rfl⟩
  | cons t l ih =>
    obtain ⟨c, hc⟩ := colReaderDone_eq d t
    obtain ⟨b, hb⟩ := freeBufs_eq (d.colReaderDone t).1 (d.colReaderDone t).2
    obtain ⟨c', b', h⟩ := ih (d.dropReader t)
    exact ⟨c', b', by rw [List.foldl_cons, h, Dev.dropReader, hb, hc]⟩

theorem hg_dropReads (l : List Nat) : (l.foldl Dev.dropReadAll d).hg = d.hg := by
  have h := congrArg Dev.hg (butWork_dropReads d l)
  exact h

@[simp] theorem butDrop_modSlot (cs : Nat) (f : CSlot → CSlot) : (d.modSlot cs f).butDrop = d.butDrop := rfl

theorem butDrop_dropReaders (l : List Nat) : (l.foldl Dev.dropReader d).butDrop = d.butDrop := by
  obtain ⟨c, b, h⟩ := dropReaders_eq d l
  rw [h]
  rfl

@[simp] theorem butDrop_endReads (cs : Nat) : (d.endReads cs).butDrop = d.butDrop := by
  have hreads := fun l => Dev.butDrop_of_work (butWork_dropReads d l)
  simp only [Dev.endReads]
  split
  · exact hreads _
  split
  · exact (butDrop_dropReaders (Dev.modSlot _ cs _) _).trans (hreads _)
  · exact hreads _

/-- Ending a command's reads leaves of the slot all but the tags and units of the read. -/
theorem slot_endReads {d : Dev} {cs : Nat} {s : CSlot} (h : d.hg.slots.get? cs = some s) :
    ∃ t u, (d.endReads cs).hg.slots.get? cs = some { s with tags := t, units := u } := by
  simp only [Dev.endReads]
  generalize hx : List.foldl Dev.dropReadAll d _ = x
  have hslot : x.hg.slots.get? cs = some s := by rw [← hx, hg_dropReads, h]
  rw [hslot]
  dsimp only
  split
  · obtain ⟨c, b, hfold⟩ := dropReaders_eq
      (x.modSlot cs (fun s => { s with tags := [], units := s.units.map (fun u => { u with src := 4 }) })) s.tags
    refine ⟨[], s.units.map (fun u => { u with src := 4 }), ?_⟩
    change (s.tags.foldl Dev.dropReader _).hg.slots.get? cs = _
    rw [hfold, Dev.slots_modSlot, hslot]
    rfl
  · exact ⟨s.tags, s.units, hslot⟩

/-- Dropping a command's work touches the traffic, the Collation Engine, buffers and the command's slot. -/
@[simp] theorem butDrop_dropWork (cs : Nat) : (d.dropWork cs).butDrop = d.butDrop := by
  simp only [Dev.dropWork]
  split
  · exact butDrop_endReads d cs
  next s _ =>
    obtain ⟨b, hb⟩ := freeBufs_eq (d.endReads cs) s.bufs
    rw [hb, butDrop_modSlot]
    exact butDrop_endReads d cs

/-- The request stays in the slot of a command whose work is dropped. -/
theorem slot_dropWork {d : Dev} {cs : Nat} {s : CSlot} (h : d.hg.slots.get? cs = some s) :
    ∃ t, (d.dropWork cs).hg.slots.get? cs = some t ∧ t.request = s.request := by
  obtain ⟨t, u, hslot⟩ := slot_endReads h
  obtain ⟨b, hb⟩ := freeBufs_eq (d.endReads cs) s.bufs
  refine ⟨{ s with tags := t, units := [], bufs := [], rsv := 0 }, ?_, rfl⟩
  simp only [Dev.dropWork, hslot]
  rw [Dev.slots_modSlot, hb]
  simp only [hslot]
  rfl

@[simp] theorem dropWork_fns (cs : Nat) : (d.dropWork cs).fns = d.fns := by
  have h := congrArg Dev.fns (butDrop_dropWork d cs)
  exact h

@[simp] theorem dropWork_tc (cs : Nat) : (d.dropWork cs).tc = d.tc := by
  have h := congrArg Dev.tc (butDrop_dropWork d cs)
  exact h

@[simp] theorem dropWork_commits (cs : Nat) : (d.dropWork cs).hg.commits = d.hg.commits := by
  have h := congrArg (·.hg.commits) (butDrop_dropWork d cs)
  exact h

/-- R142: a command whose work is dropped is completed, and its slot is free. -/
theorem slot_dropWork_complete {d : Dev} {cs : Nat} {s : CSlot} (h : d.postable cs s) (e : Cqe) :
    ((d.dropWork cs).complete cs e).hg.slots.get? cs = none := by
  obtain ⟨t, ht, hreq⟩ := slot_dropWork h.1
  exact (complete_posted (Dev.postable_of_request h (dropWork_fns d cs) ht hreq) e).1

end Sys2Proof.Machine
end

section
/-! PROOFS. O31: Read, Verify and Flush, faults of host memory, and coalesced interrupts (R29, R101, R134, R138, R142, R192, R325). -/

namespace Sys2Proof.Machine

variable (d : Dev)

/-! ### Charging -/

/-- A command that has been charged runs. -/
def CSlot.paid (s : CSlot) : CSlot := { s with charged := true, st := .executing, wait := .nothing }

theorem setBucket_eq (rd : Bool) (t : Nat) (b : Bucket) :
    ∃ r w, d.setBucket rd t b = { d with hg := { d.hg with rbucket := r, wbucket := w } } := by
  cases rd
  · exact ⟨d.hg.rbucket, _, rfl⟩
  · exact ⟨_, d.hg.wbucket, rfl⟩

/-- What charging a command can do (R130): nothing to one that is charged; charge it, which changes its slot, the buckets and the
tenant's counts; or let it wait for tokens. -/
theorem charge_cases {d : Dev} {cs : Nat} {s : CSlot} (h : d.hg.slots.get? cs = some s) :
    (s.charged = true ∧ d.charge cs = (d, true))
    ∨ (∃ hg : Hg, d.charge cs = ({ d with hg := hg }, true) ∧ hg.slots = d.hg.slots.upd cs CSlot.paid ∧ hg.commits = d.hg.commits)
    ∨ (d.charge cs).2 = false := by
  simp only [Dev.charge, h]
  split
  next hc => exact .inl ⟨hc, rfl⟩
  right
  cases d.nsOf s with
  | none => exact .inl ⟨_, rfl, rfl, rfl⟩
  | some x =>
    obtain ⟨ns, n⟩ := x
    dsimp only
    split
    · exact .inl ⟨_, rfl, rfl, rfl⟩
    split
    · exact .inl ⟨_, rfl, rfl, rfl⟩
    split
    · obtain ⟨rb, wb, hb⟩ := setBucket_eq d (s.cost n).1 s.tenant _
      rw [hb]
      exact .inl ⟨_, rfl, rfl, rfl⟩
    · exact .inr rfl

/-- A command that is charged keeps its request, and the device changes in the Headgate alone. -/
theorem charge_true {d : Dev} {cs : Nat} {s : CSlot} (h : d.hg.slots.get? cs = some s) (hc : (d.charge cs).2 = true) :
    ∃ hg t, (d.charge cs).1 = { d with hg := hg } ∧ hg.commits = d.hg.commits
      ∧ hg.slots.get? cs = some t ∧ t.request = s.request ∧ t.charged = true := by
  obtain ⟨hs, heq⟩ | ⟨hg, heq, hslots, hcom⟩ | hf := charge_cases h
  · exact ⟨d.hg, s, by rw [heq], rfl, h, rfl, hs⟩
  · refine ⟨hg, s.paid, by rw [heq], hcom, ?_, rfl, rfl⟩
    rw [hslots, Tbl.get?_upd_same, h]
    rfl
  · rw [hf] at hc
    cases hc

/-- A command that runs on its namespace at once: it is charged, and its part runs on the device that charging leaves. -/
theorem chargeThen_due {d : Dev} {cs op : Nat} {s : CSlot} {ns : Nat} {n : Nsp} (h : d.ioDue cs op s ns n) :
    ∃ hg t, (d.charge cs).1 = { d with hg := hg } ∧ hg.commits = d.hg.commits
      ∧ hg.slots.get? cs = some t ∧ t.request = s.request ∧ t.charged = true ∧ (d.charge cs).1.postable cs t
      ∧ ∀ f, d.chargeThen cs f = f (d.charge cs).1 t ns n := by
  obtain ⟨-, hc, hns, hpost⟩ := h
  obtain ⟨hg, t, heq, hcom, ht, hreq, hch⟩ := charge_true hpost.1 hc
  have hslot : (d.charge cs).1.hg.slots.get? cs = some t := by rw [heq, ht]
  have hfns : (d.charge cs).1.fns = d.fns := by rw [heq]
  have hnst : (d.charge cs).1.nsOf t = some (ns, n) := by
    rw [Dev.nsOf_congr (e := d) (by rw [heq]), Dev.nsOf_of_request d hreq, hns]
  refine ⟨hg, t, heq, hcom, ht, hreq, hch, Dev.postable_of_request hpost hfns hslot hreq, fun f => ?_⟩
  simp only [Dev.chargeThen, hc, if_true, Dev.withNs, hslot, hnst]

/-! ### Reads -/

theorem le_maskOf {n j : Nat} {f : Nat → Bool} (hj : j < n) (hf : f j = true) : 2 ^ j ≤ maskOf n f := by
  induction n with
  | zero => omega
  | succ n ih =>
    obtain h | rfl : j < n ∨ j = n := by omega
    · have := ih h
      simp only [maskOf]
      omega
    · simp [maskOf, hf]

/-- Every unit that a range of logical blocks touches takes a block of it. -/
theorem blockMask_ne_zero {n : Nsp} {slba nlb i : Nat} (hnlb : 0 < nlb) (hi : i < (n.touched slba nlb).2) :
    n.blockMask slba nlb ((n.touched slba nlb).1 + i) ≠ 0 := by
  obtain hp | hp : lbasPerUnit n.lbaf = 8 ∨ lbasPerUnit n.lbaf = 1 := by
    simp only [lbasPerUnit, lbaBytes]; split <;> simp
  · simp only [Nsp.touched, Nsp.blockMask, hp] at hi ⊢
    have hblock : ∃ j, j < 8 ∧ slba ≤ (slba / 8 + i) * 8 + j ∧ (slba / 8 + i) * 8 + j < slba + nlb := by
      cases i with
      | zero => exact ⟨slba % 8, by omega, by omega, by omega⟩
      | succ i => exact ⟨0, by omega, by omega, by omega⟩
    obtain ⟨j, hj, hlo, hhi⟩ := hblock
    have := le_maskOf (f := fun j => decide (slba ≤ (slba / 8 + i) * 8 + j) && decide ((slba / 8 + i) * 8 + j < slba + nlb)) hj
      (by simp [hlo, hhi])
    have := Nat.two_pow_pos j
    simp only [Nat.reduceEqDiff, if_false]
    omega
  · simp [Nsp.blockMask, hp]

theorem CSlot.nlb_pos (s : CSlot) : 0 < s.nlb := Nat.succ_pos _

/-- The units of a range, each to be read from the media. -/
def Nsp.mediaUnits (n : Nsp) (slba nlb : Nat) : List RdUnit :=
  (List.range (n.touched slba nlb).2).map (fun i => ⟨(n.touched slba nlb).1 + i, 2, 0, 0, []⟩)

/-- The units of a range, none of which the write buffer covers in part. -/
def Nsp.uncovered (n : Nsp) (slba nlb : Nat) : List (Nat × Cover) :=
  (List.range (n.touched slba nlb).2).map (fun i =>
    ((n.touched slba nlb).1 + i, coverUnit [] ((n.touched slba nlb).1 + i) (n.blockMask slba nlb ((n.touched slba nlb).1 + i))))

theorem uncovered_dealloc (n : Nsp) (slba nlb : Nat) : (n.uncovered slba nlb).any (fun u => u.2.dealloc) = false := by
  simp [Nsp.uncovered, coverUnit]

theorem uncovered_tags (n : Nsp) (slba nlb : Nat) : (n.uncovered slba nlb).flatMap (fun u => u.2.tags) = [] := by
  simp [Nsp.uncovered, coverUnit]

theorem uncovered_units (n : Nsp) {slba nlb : Nat} (hnlb : 0 < nlb) (rd : Bool) :
    (n.uncovered slba nlb).map (fun u => (⟨u.1, if u.2.left ≠ 0 then 2 else if u.2.tags.isEmpty || !rd then 3 else 1,
      (u.2.tags.head?).getD 0, 0, u.2.newer⟩ : RdUnit)) = n.mediaUnits slba nlb := by
  rw [Nsp.uncovered, List.map_map]
  refine List.map_congr_left fun i hi => ?_
  simp [coverUnit, blockMask_ne_zero hnlb (List.mem_range.mp hi)]

theorem mediaUnits_filter (n : Nsp) (slba nlb : Nat) :
    (n.mediaUnits slba nlb).filter (fun u => decide (u.src = 2)) = n.mediaUnits slba nlb
    ∧ (n.mediaUnits slba nlb).filter (fun u => decide (u.src = 3)) = [] := by
  simp [Nsp.mediaUnits, List.filter_map, Function.comp_def]

/-- A unit of a command gets its leaf read. -/
def Dev.addUnitRead (d : Dev) (cs ns cls : Nat) (u : RdUnit) : Dev :=
  (d.addRead (LeafRead.fresh cs ns cls u.iu d.rp.epoch)).1.modSlot cs (fun s =>
    { s with units := s.units.map (fun x => if x.iu = u.iu then { x with rid := d.rp.nextRid } else x) })

/-- A Read or Verify that the write buffer holds nothing of: each unit is read from the media. -/
theorem startRead'_of_empty {d : Dev} {cs ns : Nat} {s : CSlot} {n : Nsp} (h : d.col.rng = []) :
    d.startRead' cs s ns n = (n.mediaUnits s.slba s.nlb).foldl (fun e u => e.addUnitRead cs ns (d.contract s.tenant).cls u)
      (d.modSlot cs (fun t => { t with tags := [], units := n.mediaUnits s.slba s.nlb, wait := .units, st := .executing })) := by
  have hverify : ∀ q m, d.colVerify 1 q m = d := fun q m => by simp [Dev.colVerify, Col.arrHits, Col.grp, h]
  have hover : ∀ a b c, d.col.overlaps a b c = [] := fun a b c => by simp [Col.overlaps, Col.hits, Col.grp, h]
  have hflat : ∀ l : List Nat, l.flatMap (fun _ => ([] : List (Nat × CEnt))) = [] := fun l => by simp
  have hus : (List.range (n.touched s.slba s.nlb).2).map (fun i => ((n.touched s.slba s.nlb).1 + i, coverUnit []
      ((n.touched s.slba s.nlb).1 + i) (n.blockMask s.slba s.nlb ((n.touched s.slba s.nlb).1 + i)))) = n.uncovered s.slba s.nlb := rfl
  obtain ⟨hmedia, hnone⟩ := mediaUnits_filter n s.slba s.nlb
  simp only [Dev.startRead', hverify, hover, hflat, hus, uncovered_units n s.nlb_pos, uncovered_dealloc, uncovered_tags, hmedia, hnone]
  simp
  rfl

/-- The leaf reads of a list of units: each takes the next number and is entered in the command's slot. -/
theorem addUnitReads {cs : Nat} {y : CSlot} (ns cls : Nat) (l : List RdUnit) {d : Dev} (h : d.hg.slots.get? cs = some y) :
    (l.foldl (fun e u => e.addUnitRead cs ns cls u) d).rp.nextRid = d.rp.nextRid + l.length
    ∧ (l.foldl (fun e u => e.addUnitRead cs ns cls u) d).out = d.out
    ∧ (l.foldl (fun e u => e.addUnitRead cs ns cls u) d).tc = d.tc
    ∧ ∃ us, (l.foldl (fun e u => e.addUnitRead cs ns cls u) d).hg.slots.get? cs = some { y with units := us }
      ∧ us.map (fun u => (u.iu, u.src)) = y.units.map (fun u => (u.iu, u.src)) := by
  induction l generalizing d y with
  | nil => exact ⟨rfl, rfl, rfl, y.units, h, rfl⟩
  | cons u l ih =>
    obtain ⟨hrid, hout, htc, us, hslot, hus⟩ := ih (d := d.addUnitRead cs ns cls u)
      (y := { y with units := y.units.map (fun x => if x.iu = u.iu then { x with rid := d.rp.nextRid } else x) })
      (by rw [Dev.addUnitRead, Dev.slots_modSlot]; simp [Dev.addRead, h])
    refine ⟨?_, hout, htc, us, hslot, hus.trans ?_⟩
    · rw [List.foldl_cons, hrid, List.length_cons]
      simp only [Dev.addUnitRead, Dev.addRead, Dev.modSlot]
      omega
    · rw [List.map_map]
      refine List.map_congr_left fun x _ => ?_
      simp only [Function.comp]
      split <;> rfl

/-- What a Read or Verify that the write buffer holds nothing of does. -/
theorem chargeThen_startRead' {d : Dev} {cs op : Nat} {s : CSlot} {ns : Nat} {n : Nsp} (h : d.ioDue cs op s ns n)
    (hrng : d.col.rng = []) : ∃ t, d.chargeThen cs (fun d s ns n => d.startRead' cs s ns n) = t
      ∧ t.rp.nextRid = d.rp.nextRid + (n.touched s.slba s.nlb).2 ∧ t.out = d.out ∧ t.tc = d.tc
      ∧ ∃ y, t.hg.slots.get? cs = some y ∧ y.st = .executing ∧ y.wait = .units ∧ y.charged = true
        ∧ y.units.map (·.iu) = (List.range (n.touched s.slba s.nlb).2).map (fun i => (n.touched s.slba s.nlb).1 + i)
        ∧ y.units.all (fun u => decide (u.src = 2)) = true := by
  obtain ⟨hg, y, heq, -, hy, hreq, hch, -, hrun⟩ := chargeThen_due h
  rw [hrun, heq, startRead'_of_empty (show ({ d with hg := hg } : Dev).col.rng = [] from hrng), CSlot.slba_of_request hreq,
    CSlot.nlb_of_request hreq]
  obtain ⟨hrid, hout, htc, us, hslot, hus⟩ := addUnitReads ns (({ d with hg := hg } : Dev).contract y.tenant).cls (n.mediaUnits s.slba s.nlb)
    (cs := cs) (y := { y with tags := [], units := n.mediaUnits s.slba s.nlb, wait := .units, st := .executing })
    (d := ({ d with hg := hg } : Dev).modSlot cs (fun t => { t with tags := [], units := n.mediaUnits s.slba s.nlb, wait := .units, st := .executing }))
    (by rw [Dev.slots_modSlot, hy]; rfl)
  refine ⟨_, rfl, ?_, hout, htc, _, hslot, rfl, rfl, hch, ?_, ?_⟩
  · rw [hrid]
    simp [Nsp.mediaUnits]
  · have h1 := congrArg (List.map Prod.fst) hus
    simpa [Nsp.mediaUnits, Function.comp_def] using h1
  · have h2 := congrArg (List.map Prod.snd) hus
    have hsrc : us.map (·.src) = List.replicate (n.touched s.slba s.nlb).2 2 := by
      simpa [Nsp.mediaUnits, Function.comp_def] using h2
    have hall : (us.map (·.src)).all (fun v => decide (v = 2)) = true := by simp [hsrc]
    simpa [List.all_map, Function.comp_def] using hall

theorem readRow_due {d : Dev} {cs : Nat} {s : CSlot} {ns : Nat} {n : Nsp} (h : d.ioDue cs 0x02 s ns n) :
    readRow cs d = d.chargeThen cs (fun d s ns n => d.startRead' cs s ns n) := by
  rw [readRow, h.1]

theorem verifyRow_due {d : Dev} {cs : Nat} {s : CSlot} {ns : Nat} {n : Nsp} (h : d.ioDue cs 0x0C s ns n) :
    verifyRow cs d = d.chargeThen cs (fun d s ns n => d.startRead' cs s ns n) := by
  rw [verifyRow, h.1]

/-! ### Flush -/

/-- A Flush completes at once: every write completed before it is in the protected buffer (R138). -/
theorem flushRow_ok {d : Dev} {cs : Nat} {s : CSlot} (hs : d.ioSlot cs [0x00] = some s) (hpost : d.postable cs s)
    (hns : s.nsid = 0xFFFFFFFF ∨ (d.nsOf s).isSome = true) :
    (flushRow cs d).posted d.out cs s cqeOk ∧ (flushRow cs d).butHost = d.butHost := by
  have hrun : flushRow cs d = (d.modSlot cs (fun s => { s with st := .committed, charged := true })).complete cs cqeOk := by
    have hno : ¬(s.nsid ≠ 0xFFFFFFFF ∧ (d.nsOf s).isNone = true) := fun ⟨h1, h2⟩ => by
      obtain h | h := hns
      · exact h1 h
      · simp [Option.isNone_iff_eq_none.mp h2] at h
    simp only [flushRow, hs]
    rw [if_neg hno]
  have hslot : (d.modSlot cs (fun s => { s with st := .committed, charged := true })).hg.slots.get? cs
      = some { s with st := .committed, charged := true } := by rw [Dev.slots_modSlot, hpost.1]; rfl
  rw [hrun]
  exact ⟨complete_posted_of_request hpost hslot rfl rfl rfl cqeOk, (butHost_complete _ cs cqeOk).trans (butHost_modSlot d cs _)⟩

theorem flushRow_noNs {d : Dev} {cs : Nat} {s : CSlot} (hs : d.ioSlot cs [0x00] = some s) (hid : s.nsid ≠ 0xFFFFFFFF)
    (hns : d.nsOf s = none) : flushRow cs d = d.complete cs cqeInvalidNs := by
  simp only [flushRow, hs]
  rw [if_pos ⟨hid, by simp [hns]⟩]

/-! ### Faults of host memory -/

/-- A fault ends a command that has not reached its commit point. -/
theorem dataLost_before {d : Dev} {cs : Nat} {s : CSlot} (h : d.hg.slots.get? cs = some s)
    (hst : s.st = .fetched ∨ s.st = .paced ∨ s.st = .executing) : d.dataLost cs = (d.dropWork cs).complete cs cqeDataTransfer := by
  obtain hst | hst | hst := hst <;> simp only [Dev.dataLost, h, hst]

/-- A fault leaves a command that has reached its commit point alone. -/
theorem dataLost_after {d : Dev} {cs : Nat} {s : CSlot} (h : d.hg.slots.get? cs = some s)
    (hst : s.st = .committed ∨ s.st = .ending ∨ s.st = .aborted) : d.dataLost cs = d := by
  obtain hst | hst | hst := hst <;> simp only [Dev.dataLost, h, hst]

/-- Dropping the work of a command that has none sends nothing. -/
theorem out_dropWork_idle {d : Dev} {cs : Nat} {s : CSlot} (h : d.hg.slots.get? cs = some s) (hbufs : s.bufs = []) (hreads : s.reads = false)
    (hnone : d.rp.reads.any (fun r => decide (r.2.cs = some cs)) = false) : (d.dropWork cs).out = d.out := by
  have hfilter : d.rp.reads.filter (fun r => decide (r.2.cs = some cs)) = [] :=
    List.filter_eq_nil_iff.mpr fun r hr => by simpa using List.any_eq_false.mp hnone r hr
  have hend : d.endReads cs = d := by simp [Dev.endReads, hfilter, h, hreads]
  simp only [Dev.dropWork, hend, h, hbufs]
  rfl

/-! ### Coalesced interrupts -/

/-- A coalesced vector whose time is up is signalled (R101). -/
theorem interruptAggregationTime_due {d : Dev} {f : Fn} {vec : Nat} (hc : (d.fnst f).coal.get 0 vec ≠ 0) (hb : (d.fnst f).bme = true)
    (hx : (d.fnst f).msix = true) (hm : vec ∉ (d.fnst f).msixMask) : interruptAggregationTime f vec d =
      (d.modFn f (fun s => { s with coal := s.coal.put 0 vec 0 })).emit (.msix f vec) := by
  simp [interruptAggregationTime, hc, Dev.signal, hb, hx, hm]

/-- Settles O31, from the leaf reads of a Read (`chargeThen_startRead'`), and what a completion posts (`complete_posted`). -/
theorem readsFlushAndFaults : Obligations.ReadsFlushAndFaults := by
  intro s cs x
  refine ⟨fun ns n hrng => ⟨fun h => ?_, fun h => ?_⟩, fun hs hpost hns => ?_, fun hs hpost hid hns => ?_,
    fun f hslot => ⟨fun hst hpost hbufs _ hreads hnone => ?_, fun hst hpost => ?_, fun hst => ?_⟩, fun f vec => ⟨fun hc => ?_, fun hc hb hx hm => ?_⟩⟩
  · obtain ⟨t, ht, hread⟩ := chargeThen_startRead' h hrng
    exact ⟨s.onDev (readRow cs), rfl, rfl, by rwa [State.onDev_dev, readRow_due h, ht]⟩
  · obtain ⟨t, ht, hread⟩ := chargeThen_startRead' h hrng
    exact ⟨s.onDev (verifyRow cs), rfl, rfl, by rwa [State.onDev_dev, verifyRow_due h, ht]⟩
  · exact ⟨s.onDev (flushRow cs), rfl, rfl, flushRow_ok hs hpost hns⟩
  · refine ⟨s.onDev (flushRow cs), rfl, rfl, ?_⟩
    rw [State.onDev_dev, flushRow_noNs hs hid hns]
    exact ⟨complete_posted hpost _, butHost_complete _ _ _⟩
  · refine ⟨s.onDev (fun d => d.dataLost cs), rfl, rfl, ?_⟩
    obtain ⟨t, ht, hreq⟩ := slot_dropWork hslot
    rw [State.onDev_dev, dataLost_before hslot (hst.imp_right .inl)]
    exact ⟨complete_posted_of_request hpost ht (dropWork_fns _ _) (out_dropWork_idle hslot hbufs hreads hnone) hreq _, by simp⟩
  · refine ⟨s.onDev (fun d => d.dataLost cs), rfl, rfl, ?_⟩
    rw [State.onDev_dev, dataLost_before hslot hst]
    exact slot_dropWork_complete hpost _
  · exact congrArg (fun d => Host.Outcome.next { s with dev := d }) (dataLost_after hslot hst)
  · exact congrArg (fun d => Host.Outcome.next { s with dev := d }) (if_pos hc)
  · refine ⟨s.onDev (interruptAggregationTime f vec), rfl, rfl, ?_⟩
    rw [State.onDev_dev, interruptAggregationTime_due hc hb hx hm]
    exact ⟨rfl, by simp⟩

end Sys2Proof.Machine
end

section
/-! PROOFS. What a commit counts: one commit more, and the namespace's next generation; nothing else on a write's way to its commit
point and after it counts (R134, R169, R320). -/

namespace Sys2Proof.Machine

variable (d : Dev)

/-- What a commit counts: the namespaces, which hold their generations, and the number of commits. -/
def Dev.gens (d : Dev) : Tbl Nsp × Nat := (d.tc.nss, d.hg.commits)

/-! ### Operations that count nothing -/

@[simp] theorem gens_ev (c i : Nat) (l : List PField) : (d.ev c i l).gens = d.gens := by simp [Dev.gens]
@[simp] theorem gens_modSlot (k : Nat) (f : CSlot → CSlot) : (d.modSlot k f).gens = d.gens := rfl
@[simp] theorem gens_modStat (t : Nat) (f : TStat → TStat) : (d.modStat t f).gens = d.gens := rfl
@[simp] theorem gens_modQuire (q : Nat) (f : Quire → Quire) : (d.modQuire q f).gens = d.gens := rfl
@[simp] theorem gens_modFurrow (k : Nat) (f : Furrow → Furrow) : (d.modFurrow k f).gens = d.gens := rfl
@[simp] theorem gens_modSb (q s : Nat) (f : Superblock → Superblock) : (d.modSb q s f).gens = d.gens := rfl
@[simp] theorem gens_modZone (ns z : Nat) (f : Zone → Zone) : (d.modZone ns z f).gens = d.gens := rfl
@[simp] theorem gens_jrnl (b : JBody) : (d.jrnl b).gens = d.gens := rfl
@[simp] theorem gens_putZone (ns z : Nat) (f : Zone → Zone) : (d.putZone ns z f).gens = d.gens := rfl
@[simp] theorem gens_clearLost (ns a b : Nat) : (d.clearLost ns a b).gens = d.gens := rfl
@[simp] theorem gens_zoneEntPut (ns z w c : Nat) : (d.zoneEntPut ns z w c).gens = d.gens := rfl
@[simp] theorem gens_zoneEntDel (ns z : Nat) : (d.zoneEntDel ns z).gens = d.gens := by
  simp only [Dev.zoneEntDel]; split <;> rfl
@[simp] theorem gens_complete (cs : Nat) (e : Cqe) : (d.complete cs e).gens = d.gens := by simp [Dev.gens]
@[simp] theorem gens_dropWork (cs : Nat) : (d.dropWork cs).gens = d.gens := by simp [Dev.gens]

/-! ### Furrows and superblocks -/

@[simp] theorem gens_releaseIfEmpty (q s : Nat) : (d.releaseIfEmpty q s).gens = d.gens := by
  simp only [Dev.releaseIfEmpty]; split <;> rfl
@[simp] theorem gens_closeSb (q s : Nat) : (d.closeSb q s).gens = d.gens := by simp [Dev.closeSb]
@[simp] theorem gens_openSb (q : Nat) (b : Bool) (f : Nat) : (d.openSb q b f).1.gens = d.gens := by
  simp only [Dev.openSb]; (repeat' split) <;> rfl
@[simp] theorem gens_takeFurrow (k q : Nat) (ns : Option Nat) (b : Nat) : (d.takeFurrow k q ns b).1.gens = d.gens := by
  simp only [Dev.takeFurrow]; split <;> rfl
@[simp] theorem gens_dropFurrow (f : Nat) : (d.dropFurrow f).gens = d.gens := by
  have h : ∀ (x : Dev) t j, Dev.gens { x with tc := { x.tc with furrows := t, jslots := j } } = x.gens := fun _ _ _ => rfl
  simp only [Dev.dropFurrow, h]; (repeat' split) <;> simp
@[simp] theorem gens_furrowDrained (f : Nat) : (d.furrowDrained f).gens = d.gens := by
  simp only [Dev.furrowDrained]; (repeat' split) <;> simp
@[simp] theorem gens_closeRow (f : Nat) : (d.closeRow f).gens = d.gens := by
  simp only [Dev.closeRow]; (repeat' split) <;> rfl
@[simp] theorem gens_slcNext (f : Nat) : (d.slcNext f).1.gens = d.gens := by
  simp only [Dev.slcNext]; (repeat' split) <;> simp
@[simp] theorem gens_slcAdvance (f n : Nat) : (d.slcAdvance f n).gens = d.gens := by
  simp only [Dev.slcAdvance]; (repeat' split) <;> simp
@[simp] theorem gens_packUnit (f ns iu g t : Nat) : (d.packUnit f ns iu g t).gens = d.gens := by
  have h : ∀ (x : Dev) u, Dev.gens { x with tc := { x.tc with unpacked := u } } = x.gens := fun _ _ => rfl
  simp only [Dev.packUnit]; split <;> simp [h]
@[simp] theorem gens_packEntries (f ns g : Nat) (n : Nsp) (l : List (RSpec × Nat)) : (d.packEntries f ns g n l).gens = d.gens := by
  refine foldl_keeps Dev.gens _ (fun x r => ?_) l d
  split
  · rfl
  · exact foldl_keeps Dev.gens _ (fun y i => gens_packUnit y _ _ _ _ _) _ x
@[simp] theorem gens_writeFurrow (ns : Nat) (n : Nsp) (s : CSlot) : (d.writeFurrow ns n s).1.gens = d.gens := by
  simp only [Dev.writeFurrow]; (repeat' split) <;> simp
@[simp] theorem gens_admitUrgent (q u : Nat) : (d.admitUrgent q u).gens = d.gens := by
  simp only [Dev.admitUrgent]; split <;> rfl
@[simp] theorem gens_finishWrites : d.finishWrites.gens = d.gens := by
  refine foldl_keeps Dev.gens _ (fun x c => ?_) _ d
  (repeat' split) <;> simp
@[simp] theorem gens_zoneActivate (ns z : Nat) (n : Nsp) (st : ZState) : (d.zoneActivate ns z n st).gens = d.gens := by
  simp [Dev.zoneActivate]
@[simp] theorem gens_zoneWrote (ns z : Nat) (n : Nsp) (k : Nat) : (d.zoneWrote ns z n k).gens = d.gens := by
  simp only [Dev.zoneWrote]; (repeat' split) <;> simp

/-! ### The commit -/

@[simp] theorem gens_colInsert (l : List RSpec) : (d.colInsert l).1.gens = d.gens ∧ (d.colInsert l).1.hg = d.hg := by
  have hplace : ∀ (x : Dev) e, (x.colPlace e).gens = x.gens ∧ (x.colPlace e).hg = x.hg := fun x e => by
    simp only [Dev.colPlace]; (repeat' split) <;> exact ⟨rfl, rfl⟩
  induction l generalizing d with
  | nil => exact ⟨rfl, rfl⟩
  | cons r l ih =>
    simp only [Dev.colInsert]
    exact ⟨(ih _).1.trans (hplace d _).1, (ih _).2.trans (hplace d _).2⟩

/-- The entries of a command become visible together: one commit. -/
theorem gens_commitEntries (cs : Nat) (l : List RSpec) : (d.commitEntries cs l).1.gens = (d.tc.nss, d.hg.commits + 1) := by
  obtain ⟨hg, hhg⟩ := gens_colInsert d l
  have hnss : (d.colInsert l).1.tc.nss = d.tc.nss := congrArg Prod.fst hg
  simp only [Dev.commitEntries, gens_modSlot]
  exact Prod.ext hnss (congrArg (fun x : Hg => x.commits + 1) hhg)

/-- The namespaces once a namespace has its next generation (R169). -/
def Dev.nextNss (d : Dev) (ns : Nat) : Tbl Nsp :=
  d.tc.nss.upd ns (fun m => { m with gen := (((d.nsp ns).map (·.gen)).getD 0 + 1) % 2 ^ 48 })

theorem gens_nextGen (ns : Nat) : (d.nextGen ns).1.gens = (d.nextNss ns, d.hg.commits) := by
  simp only [Dev.nextGen, gens_jrnl]
  rfl

theorem nextNss_congr {d e : Dev} (h : d.tc.nss = e.tc.nss) (ns : Nat) : d.nextNss ns = e.nextNss ns := by
  simp only [Dev.nextNss, Dev.nsp, h]

/-- A commit counts once, and gives the namespace its next generation (R134, R169). -/
theorem gens_commitWrite {d : Dev} {cs : Nat} {s : CSlot} (h : d.hg.slots.get? cs = some s) (ns : Nat) (n : Nsp) (l : List RSpec) :
    (d.commitWrite cs ns n l).gens = (d.nextNss ns, d.hg.commits + 1) := by
  have he := gens_commitEntries d cs l
  have hnss : (d.commitEntries cs l).1.tc.nss = d.tc.nss := congrArg Prod.fst he
  have hcom : (d.commitEntries cs l).1.hg.commits = d.hg.commits + 1 := congrArg Prod.snd he
  simp only [Dev.commitWrite, h, gens_finishWrites, gens_modSlot, gens_clearLost, gens_admitUrgent, gens_modQuire, gens_modStat,
    gens_packEntries, gens_writeFurrow, gens_nextGen]
  rw [nextNss_congr hnss, hcom]

end Sys2Proof.Machine
end

section
/-! PROOFS. O32: writes, from space and a buffer to the commit with the namespace's next generation (R28, R131, R134, R169, R184, R185,
R320, R326). -/

namespace Sys2Proof.Machine

variable (d : Dev)

/-! ### What a command's own part reads of it is its request -/

section
variable {s t : CSlot} (h : s.request = t.request)
include h

theorem startWrite_of_request (cs ns : Nat) (n : Nsp) : d.startWrite cs s ns n = d.startWrite cs t ns n := by
  have hrun := congrArg (fun x : CSlot => d.startWrite cs x ns n) h
  exact hrun

theorem startZeroes_of_request (cs ns : Nat) (n : Nsp) : d.startZeroes cs s ns n = d.startZeroes cs t ns n := by
  have hrun := congrArg (fun x : CSlot => d.startZeroes cs x ns n) h
  exact hrun

end

theorem opcode_of_ioSlot {d : Dev} {cs op : Nat} {s : CSlot} (h : d.ioSlot cs [op] = some s) : s.opcode = op := by
  simp only [Dev.ioSlot] at h
  split at h
  · cases h
  split at h
  next hs =>
    cases h
    simp only [Bool.and_eq_true, List.contains_iff_mem, List.mem_singleton] at hs
    exact hs.1.2
  next => cases h

theorem writeRow_due {d : Dev} {cs : Nat} {s : CSlot} {ns : Nat} {n : Nsp} (h : d.ioDue cs 0x01 s ns n) :
    writeRow cs d = d.chargeThen cs (fun d s ns n => d.startWrite cs s ns n) := by
  rw [writeRow, h.1]

theorem zoneAppend_due {d : Dev} {cs : Nat} {s : CSlot} {ns : Nat} {n : Nsp} (h : d.ioDue cs 0x7D s ns n) :
    zoneAppend cs d = d.chargeThen cs (fun d s ns n => d.startWrite cs s ns n) := by
  rw [zoneAppend, h.1]

theorem writeZeroes_due {d : Dev} {cs : Nat} {s : CSlot} {ns : Nat} {n : Nsp} (h : d.ioDue cs 0x08 s ns n) :
    writeZeroes cs d = d.chargeThen cs (fun d s ns n => d.startZeroes cs s ns n) := by
  rw [writeZeroes, h.1]

theorem slot_modSlot {d : Dev} {cs : Nat} {s : CSlot} (h : d.hg.slots.get? cs = some s) (f : CSlot → CSlot) :
    (d.modSlot cs f).hg.slots.get? cs = some (f s) := by
  rw [Dev.slots_modSlot, h]
  rfl

/-! ### Space and a buffer (R131) -/

/-- An allocation leaves the Headgate and the Terrace alone. -/
theorem alloc_hg_tc (port owner : Nat) (dram : Bool) (size : Nat) :
    (d.alloc port owner dram size).1.hg = d.hg ∧ (d.alloc port owner dram size).1.tc = d.tc := by
  simp only [Dev.alloc]
  split
  · exact ⟨rfl, rfl⟩
  next p _ =>
    split
    · exact ⟨rfl, rfl⟩
    · obtain ⟨w, -, hw⟩ := bpmMark_eq (d.count (aBpmPoolFail + 4 * p) 0 32) port owner p
      simp only [hw]
      exact ⟨rfl, rfl⟩

/-- A reservation that fits: the entries are set aside, and the slot holds their number. -/
def Dev.reserved' (d : Dev) (cs k : Nat) : Dev :=
  { d with col := { d.col with resv := d.col.resv + k } }.modSlot cs (fun s => { s with rsv := k })

theorem reserve_true {d : Dev} {cs k : Nat} (h : (d.reserve cs k).2 = true) : d.reserve cs k = (d.reserved' cs k, true) := by
  simp only [Dev.reserve] at h ⊢
  split at h
  next hf => rw [if_pos hf]; rfl
  next => cases h

/-- A Write or Zone Append that nothing refuses. -/
def Dev.takesWrite (d : Dev) (ns : Nat) (n : Nsp) (x : CSlot) : Prop :=
  d.readOnlyRefuses ns n x = false ∧ (n.kind = 2 → d.zoneRefusal ns (x.zone n) n = none) ∧ (x.opcode = 0x7D → x.slba % n.zoneLbas = 0)

/-- The units that a write asks to be admitted for, and its range entries. -/
def CSlot.writeUnits (x : CSlot) (n : Nsp) : Nat := if n.lbaf = 3 ∧ x.opcode = 0x7D then x.nlb / 8 + 2 else x.unitsFor n
def CSlot.writeNeed (x : CSlot) (ns : Nat) (n : Nsp) : Nat :=
  if n.lbaf = 3 then (if x.opcode = 0x7D then 3 else (n.rangeSpecs ns 1 x.slba x.nlb 0).length) else 1

section
variable {d} {cs ns : Nat} {n : Nsp} {x : CSlot} (h : d.takesWrite ns n x)
include h

theorem zoneRefusal_of_takesWrite : (if n.kind = 2 then d.zoneRefusal ns (x.zone n) n else none) = none := by
  split
  next hk => exact h.2.1 hk
  next => rfl

theorem aligned_of_takesWrite : ¬(x.opcode = 0x7D ∧ x.slba % n.zoneLbas ≠ 0) := fun ⟨hop, hne⟩ => hne (h.2.2 hop)

/-- A write without space is paced. -/
theorem startWrite_paced {w : SlWait} (hw : d.placeWait ns n (x.writeUnits n) = some w) : d.startWrite cs x ns n = d.pace cs w := by
  simp only [CSlot.writeUnits] at hw
  simp only [Dev.startWrite, h.1, zoneRefusal_of_takesWrite h, if_neg (aligned_of_takesWrite h), hw, Bool.false_eq_true, if_false]

/-- A write that finds space, entries and a buffer waits for its data. -/
theorem startWrite_granted {d2 : Dev} {b : W32} (hw : d.placeWait ns n (x.writeUnits n) = none)
    (hr : (d.reserve cs (x.writeNeed ns n)).2 = true)
    (ha : (d.reserve cs (x.writeNeed ns n)).1.alloc 0 ((d.reserve cs (x.writeNeed ns n)).1.contract x.tenant).writeOwner true
      (4096 * x.writeUnits n) = (d2, 0, b)) :
    d.startWrite cs x ns n = d2.modSlot cs (fun s => { s with st := .executing, wait := .data, bufs := [b], pacedAt := none }) := by
  simp only [CSlot.writeUnits, CSlot.writeNeed] at hw hr ha
  simp only [Dev.startWrite, h.1, zoneRefusal_of_takesWrite h, if_neg (aligned_of_takesWrite h), hw, hr, ha, Bool.false_eq_true, if_false,
    Bool.not_true, ne_eq, not_true_eq_false]

end

/-- A charged write that finds space, entries and a buffer: its slot waits for its data in that buffer. -/
theorem chargeThen_startWrite_granted {d : Dev} {cs op ns : Nat} {x : CSlot} {n : Nsp} {d2 : Dev} {b : W32} (h : d.ioDue cs op x ns n)
    (ht : (d.charge cs).1.takesWrite ns n x) (hw : (d.charge cs).1.placeWait ns n (x.writeUnits n) = none)
    (hr : ((d.charge cs).1.reserve cs (x.writeNeed ns n)).2 = true)
    (ha : ((d.charge cs).1.reserve cs (x.writeNeed ns n)).1.alloc 0
      (((d.charge cs).1.reserve cs (x.writeNeed ns n)).1.contract x.tenant).writeOwner true (4096 * x.writeUnits n) = (d2, 0, b)) :
    ∃ t, d.chargeThen cs (fun d s ns n => d.startWrite cs s ns n) = t ∧ t.bpm = d2.bpm ∧ t.tc = d.tc
      ∧ ∃ y, t.hg.slots.get? cs = some y ∧ y.st = .executing ∧ y.wait = .data ∧ y.bufs = [b] ∧ y.rsv = x.writeNeed ns n ∧ y.charged = true := by
  obtain ⟨hg, y, heq, -, hy, hreq, hch, -, hrun⟩ := chargeThen_due h
  have hd2 := alloc_hg_tc ((d.charge cs).1.reserve cs (x.writeNeed ns n)).1 0
    (((d.charge cs).1.reserve cs (x.writeNeed ns n)).1.contract x.tenant).writeOwner true (4096 * x.writeUnits n)
  rw [ha, reserve_true hr] at hd2
  obtain ⟨hhg, htc⟩ := hd2
  rw [hrun, startWrite_of_request _ hreq, startWrite_granted ht hw hr ha]
  have hslot : d2.hg.slots.get? cs = some { y with rsv := x.writeNeed ns n } := by
    rw [hhg, Dev.reserved']
    exact slot_modSlot (by rw [heq, hy]) _
  exact ⟨_, rfl, rfl, by rw [heq] at htc; exact htc, _, slot_modSlot hslot _, rfl, rfl, rfl, rfl, hch⟩

theorem chargeThen_startWrite_paced {d : Dev} {cs op ns : Nat} {x : CSlot} {n : Nsp} {w : SlWait} (h : d.ioDue cs op x ns n)
    (ht : (d.charge cs).1.takesWrite ns n x) (hw : (d.charge cs).1.placeWait ns n (x.writeUnits n) = some w) :
    ∃ t, d.chargeThen cs (fun d s ns n => d.startWrite cs s ns n) = t ∧ t.butHost = d.butHost
      ∧ ∃ y, t.hg.slots.get? cs = some y ∧ y.st = .paced ∧ y.wait = w ∧ y.charged = true := by
  obtain ⟨hg, y, heq, -, hy, hreq, hch, -, hrun⟩ := chargeThen_due h
  rw [hrun, startWrite_of_request _ hreq, startWrite_paced ht hw, heq]
  exact ⟨_, rfl, rfl, _, slot_modSlot hy _, rfl, rfl, hch⟩

/-! ### The commit (R134, R169) -/

theorem commit_of_gens {d t : Dev} {ns : Nat} {n : Nsp} (hn : d.nsp ns = some n) (h : t.gens = (d.nextNss ns, d.hg.commits + 1)) :
    t.hg.commits = d.hg.commits + 1 ∧ (t.nsp ns).map (·.gen) = some ((n.gen + 1) % 2 ^ 48) := by
  have hnss : t.tc.nss = d.nextNss ns := congrArg Prod.fst h
  have hn' : d.tc.nss.get? ns = some n := hn
  refine ⟨congrArg Prod.snd h, ?_⟩
  simp only [Dev.nsp, hnss, Dev.nextNss, Tbl.get?_upd_same, hn', Option.map_some, Option.getD_some]

/-- A commit on a device that counts as another one. -/
theorem gens_commitWrite_of {d e : Dev} {cs : Nat} {s : CSlot} (h : e.hg.slots.get? cs = some s) (hg : e.gens = d.gens) (ns : Nat) (n : Nsp)
    (l : List RSpec) : (e.commitWrite cs ns n l).gens = (d.nextNss ns, d.hg.commits + 1) := by
  have hnss : e.tc.nss = d.tc.nss := congrArg Prod.fst hg
  have hcom : e.hg.commits = d.hg.commits := congrArg Prod.snd hg
  rw [gens_commitWrite h, nextNss_congr hnss, hcom]

theorem zoneActivate_hg (ns z : Nat) (n : Nsp) (st : ZState) : (d.zoneActivate ns z n st).hg = d.hg := by
  simp only [Dev.zoneActivate, Dev.takeFurrow]
  split <;> rfl

/-- A zone that is opened where need be (`c`): its Furrow and Collation entry count no commit. -/
theorem zoneOpened_keeps (c : Prop) [Decidable c] (ns z : Nat) (n : Nsp) (st : ZState) :
    (if c then d.zoneActivate ns z n st else d).hg = d.hg ∧ (if c then d.zoneActivate ns z n st else d).gens = d.gens := by
  split
  · exact ⟨zoneActivate_hg d ns z n st, gens_zoneActivate d ns z n st⟩
  · exact ⟨rfl, rfl⟩

/-- The insertion of a zoned write that passes its checks (R327) is a commit. -/
theorem gens_commitZoned {d : Dev} {cs : Nat} {y x : CSlot} (hslot : d.hg.slots.get? cs = some y) {ns : Nat} {n : Nsp}
    (hz : d.zoneCheck ns (x.zone n) n (if x.opcode = 0x7D then none else some (x.slba - x.zone n * n.zoneLbas)) x.nlb = none) (kind : Nat)
    (h : W32) : (d.commitZoned cs ns n x kind h).gens = (d.nextNss ns, d.hg.commits + 1) := by
  simp only [Dev.commitZoned, decide_eq_true_eq, hz, gens_zoneWrote]
  obtain ⟨hhg, hgens⟩ := zoneOpened_keeps d ((d.zone ns (x.zone n)).state = .empty ∨ (d.zone ns (x.zone n)).state = .closed) ns (x.zone n) n
    .implOpen
  exact gens_commitWrite_of (slot_modSlot (by rw [hhg, hslot]) _) (by rw [gens_modSlot, hgens]) ..

theorem bufFill_eq (h : W32) (bytes : List Byte) (k : Nat) : ∃ b, d.bufFill h bytes k = { d with bpm := b } := by
  induction k with
  | zero => exact ⟨_, rfl⟩
  | succ k ih =>
    obtain ⟨b, hb⟩ := ih
    simp only [Dev.bufFill, hb]
    exact ⟨_, rfl⟩

/-! ### The data of a write -/

section
variable {d} {cs : Nat} {x : CSlot} (hslot : d.hg.slots.get? cs = some x) (hst : x.st = .executing) (hw : x.wait = .data)
  (hop : x.opcode = 0x01 ∨ x.opcode = 0x7D) (hsq : x.sqid ≠ 0)
include hslot hst hw hop hsq

theorem writeDataReceived_fault (f : DmaFault) : writeDataReceived cs (.fault f) d = (d.dropWork cs).complete cs cqeDataTransfer := by
  obtain hop | hop := hop <;> simp [writeDataReceived, hslot, hst, hw, hop, hsq]

/-- All the data of a write commits it. -/
theorem gens_writeDataReceived (hb : (d.fnst x.fn).bme = true) {ns : Nat} {n : Nsp} (hns : d.nsOf x = some (ns, n)) {bytes : List Byte}
    (hpi : x.writePi n bytes = none)
    (hz : n.kind = 2 → d.zoneCheck ns (x.zone n) n (if x.opcode = 0x7D then none else some (x.slba - x.zone n * n.zoneLbas)) x.nlb = none) :
    (writeDataReceived cs (.ok bytes) d).gens = (d.nextNss ns, d.hg.commits + 1) := by
  have hrun : ¬(x.st ≠ .executing ∨ x.wait ≠ .data ∨ x.sqid = 0 ∨ (x.opcode ≠ 0x01 ∧ x.opcode ≠ 0x7D)) := by
    rintro (h | h | h | ⟨h1, h2⟩)
    exacts [h hst, h hw, hsq h, hop.elim h1 h2]
  simp only [writeDataReceived, hslot, if_neg hrun, hb, Bool.not_true, Bool.false_eq_true, if_false, Dev.withNs, hns, hpi]
  generalize List.replicate _ _ ++ _ = data
  obtain ⟨b, hfill⟩ := bufFill_eq d ((x.bufs.head?).getD 0) data (ceilDiv data.length 4096)
  rw [hfill]
  split
  next hk => exact gens_commitZoned (d := { d with bpm := b }) hslot (hz hk) _ _
  next => exact gens_commitWrite_of (d := d) (e := { d with bpm := b }) hslot rfl ..

end

/-! ### Write Zeroes and deallocation (R184) -/

/-- Reserved entries commit as any others. -/
theorem gens_commitReserved {d : Dev} {cs : Nat} {y : CSlot} (hslot : d.hg.slots.get? cs = some y) (k ns : Nat) (n : Nsp) (l : List RSpec) :
    ((d.reserved' cs k).commitWrite cs ns n l).gens = (d.nextNss ns, d.hg.commits + 1) :=
  gens_commitWrite_of (e := d.reserved' cs k) (slot_modSlot hslot _) rfl ..

/-- A Write Zeroes that finds space commits: zeros, or a deallocation. -/
theorem gens_startZeroes {d : Dev} {cs ns : Nat} {x y : CSlot} {n : Nsp} (hslot : d.hg.slots.get? cs = some y) (hop : x.opcode = 0x08)
    {l : List RSpec} (hl : l = if x.deac n then n.deallocSpecs ns x.slba x.nlb else n.rangeSpecs ns 2 x.slba x.nlb 0)
    (hroom : x.deac n = false → d.readOnlyRefuses ns n x = false ∧ d.placeWait ns n (x.unitsFor n) = none)
    (hr : (d.reserve cs l.length).2 = true)
    (hz : n.kind = 2 → d.zoneCheck ns (x.zone n) n (some (x.slba - x.zone n * n.zoneLbas)) x.nlb = none) :
    (d.startZeroes cs x ns n).gens = (d.nextNss ns, d.hg.commits + 1) := by
  have hnot : ((!x.deac n) && d.readOnlyRefuses ns n x) = false := by
    cases hd : x.deac n
    · simp [(hroom hd).1]
    · rfl
  have hplace : (if x.deac n then none else d.placeWait ns n (x.unitsFor n)) = none := by
    cases hd : x.deac n
    · simp [(hroom hd).2]
    · rfl
  simp only [Dev.startZeroes, hnot, hplace, ← hl, reserve_true hr, Bool.false_eq_true, if_false, Bool.not_true]
  split
  next hk =>
    refine gens_commitZoned (d := d.reserved' cs l.length) (slot_modSlot hslot _) ?_ _ _
    rw [if_neg (by rw [hop]; decide)]
    exact hz hk
  next => exact gens_commitReserved hslot ..

/-- What a Write Zeroes that finds space counts. -/
theorem gens_writeZeroes {d : Dev} {cs ns : Nat} {x : CSlot} {n : Nsp} (h : d.ioDue cs 0x08 x ns n)
    {l : List RSpec} (hl : l = if x.deac n then n.deallocSpecs ns x.slba x.nlb else n.rangeSpecs ns 2 x.slba x.nlb 0)
    (hroom : x.deac n = false → (d.charge cs).1.readOnlyRefuses ns n x = false ∧ (d.charge cs).1.placeWait ns n (x.unitsFor n) = none)
    (hr : ((d.charge cs).1.reserve cs l.length).2 = true)
    (hz : n.kind = 2 → d.zoneCheck ns (x.zone n) n (some (x.slba - x.zone n * n.zoneLbas)) x.nlb = none) :
    (writeZeroes cs d).gens = (d.nextNss ns, d.hg.commits + 1) := by
  obtain ⟨hg, y, heq, hcom, hy, hreq, -, -, hrun⟩ := chargeThen_due h
  rw [heq] at hroom hr
  have hgens := gens_startZeroes (d := { d with hg := hg }) hy (opcode_of_ioSlot h.1) hl hroom hr hz
  rw [writeZeroes_due h, hrun, startZeroes_of_request _ hreq, heq, hgens]
  exact Prod.ext rfl (congrArg (· + 1) hcom)

/-- What a Dataset Management command does once it is charged. -/
def Dev.manageData (d : Dev) (cs : Nat) (bytes : List Byte) (s : CSlot) (ns : Nat) (n : Nsp) : Dev :=
  let rs := dsmRanges (bitsOf (s.dw 10) 7 0 + 1) bytes
  if !(bitOf (s.dw 11) 2) then d.complete cs cqeOk
  else if rs.any (fun r => decide (n.nsze < r.slba + r.nlb)) then d.complete cs cqeLbaRange
  else
    let l := n.dsmSpecs ns rs
    if l.isEmpty then d.complete cs cqeOk
    else if d.col.capacity < l.length then d.dsmHuge cs ns n l
    else
      let (d, ok) := d.reserve cs l.length
      if ok then d.commitWrite cs ns n l else d

theorem manageData_of_request {s t : CSlot} (h : s.request = t.request) (cs : Nat) (bytes : List Byte) (ns : Nat) (n : Nsp) :
    d.manageData cs bytes s ns n = d.manageData cs bytes t ns n := by
  have hrun := congrArg (fun x : CSlot => d.manageData cs bytes x ns n) h
  exact hrun

theorem datasetManagement_due {d : Dev} {cs ns : Nat} {x : CSlot} {n : Nsp} (h : d.ioDue cs 0x09 x ns n) (bytes : List Byte) :
    datasetManagement cs (.ok bytes) d = d.chargeThen cs (fun d s ns n => d.manageData cs bytes s ns n) := by
  rw [datasetManagement, h.1]
  rfl

/-- A deallocation of ranges within the namespace, with room for their entries, is a commit. -/
theorem gens_manageData {d : Dev} {cs ns : Nat} {x y : CSlot} {n : Nsp} {bytes : List Byte} (hslot : d.hg.slots.get? cs = some y)
    (had : bitOf (x.dw 11) 2 = true) {rs : List LbaRange} (hrs : rs = dsmRanges (bitsOf (x.dw 10) 7 0 + 1) bytes)
    (hin : rs.all (fun r => decide (r.slba + r.nlb ≤ n.nsze)) = true) (hne : n.dsmSpecs ns rs ≠ [])
    (hlen : (n.dsmSpecs ns rs).length ≤ d.col.capacity) (hr : (d.reserve cs (n.dsmSpecs ns rs).length).2 = true) :
    (d.manageData cs bytes x ns n).gens = (d.nextNss ns, d.hg.commits + 1) := by
  have hany : rs.any (fun r => decide (n.nsze < r.slba + r.nlb)) = false := by
    rw [List.any_eq_false]
    intro r hmem
    have hle := of_decide_eq_true (List.all_eq_true.mp hin r hmem)
    simpa using hle
  have hemp : (n.dsmSpecs ns rs).isEmpty = false := by simpa using hne
  simp only [Dev.manageData, had, ← hrs, hany, hemp, if_neg (Nat.not_lt.mpr hlen), reserve_true hr, Bool.not_true, Bool.false_eq_true, if_false,
    if_true]
  exact gens_commitReserved hslot ..

/-- A deallocation of a range beyond the namespace is refused. -/
theorem manageData_beyond {d : Dev} {cs : Nat} {x : CSlot} {n : Nsp} {bytes : List Byte} (had : bitOf (x.dw 11) 2 = true)
    (hout : (dsmRanges (bitsOf (x.dw 10) 7 0 + 1) bytes).any (fun r => decide (n.nsze < r.slba + r.nlb)) = true) (ns : Nat) :
    d.manageData cs bytes x ns n = d.complete cs cqeLbaRange := by
  simp only [Dev.manageData, had, hout, Bool.not_true, Bool.false_eq_true, if_false, if_true]

theorem gens_datasetManagement {d : Dev} {cs ns : Nat} {x : CSlot} {n : Nsp} {bytes : List Byte} (h : d.ioDue cs 0x09 x ns n)
    (had : bitOf (x.dw 11) 2 = true) {rs : List LbaRange} (hrs : rs = dsmRanges (bitsOf (x.dw 10) 7 0 + 1) bytes)
    (hin : rs.all (fun r => decide (r.slba + r.nlb ≤ n.nsze)) = true) (hne : n.dsmSpecs ns rs ≠ [])
    (hlen : (n.dsmSpecs ns rs).length ≤ d.col.capacity) (hr : ((d.charge cs).1.reserve cs (n.dsmSpecs ns rs).length).2 = true) :
    (datasetManagement cs (.ok bytes) d).gens = (d.nextNss ns, d.hg.commits + 1) := by
  obtain ⟨hg, y, heq, hcom, hy, hreq, -, -, hrun⟩ := chargeThen_due h
  rw [heq] at hr
  rw [datasetManagement_due h, hrun, manageData_of_request _ hreq, heq,
    gens_manageData (d := { d with hg := hg }) hy had hrs hin hne hlen hr]
  exact Prod.ext rfl (congrArg (· + 1) hcom)

theorem datasetManagement_beyond {d : Dev} {cs ns : Nat} {x : CSlot} {n : Nsp} {bytes : List Byte} (h : d.ioDue cs 0x09 x ns n)
    (had : bitOf (x.dw 11) 2 = true)
    (hout : (dsmRanges (bitsOf (x.dw 10) 7 0 + 1) bytes).any (fun r => decide (n.nsze < r.slba + r.nlb)) = true) :
    (datasetManagement cs (.ok bytes) d).posted d.out cs x cqeLbaRange ∧ (datasetManagement cs (.ok bytes) d).butHost = d.butHost := by
  obtain ⟨hg, y, heq, -, hy, hreq, -, -, hrun⟩ := chargeThen_due h
  rw [datasetManagement_due h, hrun, manageData_of_request _ hreq, manageData_beyond had hout, heq]
  exact ⟨complete_posted_of_request (e := { d with hg := hg }) h.2.2.2 hy rfl rfl hreq _, butHost_complete _ _ _⟩

/-- Settles O32, from what a commit counts (`gens_commitWrite`) and what charging a command leaves (`chargeThen_due`). -/
theorem writesCommit : Obligations.WritesCommit := by
  intro s cs x ns n
  refine ⟨fun op units need d1 d2 h hdue hd1 hunits hneed hro hz hal => ?_,
    fun hslot hst hw hop hsq hb hns hn bytes hpi hz => ?_, fun f hpost hst hw hop hsq => ?_,
    fun d1 l hdue hn hd1 hl hroom hr hz => ?_, fun bytes hdue hn had hin hne hlen hr => ?_, fun bytes hdue had hout => ?_⟩
  · obtain rfl := opcode_of_ioSlot hdue.1
    subst hd1 hunits hneed
    refine ⟨fun hw hr ha => ?_, fun w hop hw => ?_⟩
    · obtain ⟨t, ht, hbuf⟩ := chargeThen_startWrite_granted hdue ⟨hro, hz, hal⟩ hw hr ha
      refine ⟨fun hop => ⟨s.onDev (writeRow cs), rfl, rfl, ?_⟩, fun hop => ⟨s.onDev (zoneAppend cs), rfl, rfl, ?_⟩⟩ <;> rw [hop] at hdue
      · rwa [State.onDev_dev, writeRow_due hdue, ht]
      · rwa [State.onDev_dev, zoneAppend_due hdue, ht]
    · obtain ⟨t, ht, hpaced⟩ := chargeThen_startWrite_paced hdue ⟨hro, hz, hal⟩ hw
      rw [hop] at hdue
      exact ⟨s.onDev (writeRow cs), rfl, rfl, by rwa [State.onDev_dev, writeRow_due hdue, ht]⟩
  · exact ⟨s.onDev (writeDataReceived cs (.ok bytes)), rfl, rfl,
      commit_of_gens hn (gens_writeDataReceived hslot hst hw hop hsq hb hns hpi hz)⟩
  · refine ⟨s.onDev (writeDataReceived cs (.fault f)), rfl, rfl, ?_⟩
    rw [State.onDev_dev, writeDataReceived_fault hpost.1 hst hw hop hsq]
    exact ⟨slot_dropWork_complete hpost _, by simp, by simp [Dev.nsp]⟩
  · subst hd1
    exact ⟨s.onDev (writeZeroes cs), rfl, rfl, commit_of_gens hn (gens_writeZeroes hdue hl hroom hr hz)⟩
  · exact ⟨s.onDev (datasetManagement cs (.ok bytes)), rfl, rfl, commit_of_gens hn (gens_datasetManagement hdue had rfl hin hne hlen hr)⟩
  · exact ⟨s.onDev (datasetManagement cs (.ok bytes)), rfl, rfl, datasetManagement_beyond hdue had hout⟩

end Sys2Proof.Machine
end

section
/-! PROOFS. The sequencer's state under the domain operations: which of them leave the domains and the mode alone, and what a mode's
column does to one domain (R18 to R22, R74, R82). -/

namespace Sys2Proof.Machine

variable (d : Dev)

/-- What the sequencer keeps: the domains with its request, and the mode with its conditions. -/
def Dev.sequencer (d : Dev) : Pwr × Modes := (d.pwr, d.modes)

theorem pwr_of_sequencer {a b : Dev} (h : a.sequencer = b.sequencer) : a.pwr = b.pwr := congrArg Prod.fst h
theorem modes_of_sequencer {a b : Dev} (h : a.sequencer = b.sequencer) : a.modes = b.modes := congrArg Prod.snd h
theorem dom_of_sequencer {a b : Dev} (h : a.sequencer = b.sequencer) (k : Nat) : a.dom k = b.dom k := by
  rw [Dev.dom, Dev.dom, pwr_of_sequencer h]

theorem sequencer_of_work {a b : Dev} (h : a.butWork = b.butWork) : a.sequencer = b.sequencer := by
  have hs := congrArg Dev.sequencer h
  exact hs
theorem sequencer_of_host {a b : Dev} (h : a.butHost = b.butHost) : a.sequencer = b.sequencer := by
  have hs := congrArg Dev.sequencer h
  exact hs
theorem sequencer_of_drop {a b : Dev} (h : a.butDrop = b.butDrop) : a.sequencer = b.sequencer := by
  have hs := congrArg Dev.sequencer h
  exact hs

/-! ### Operations that leave the sequencer alone -/

@[simp] theorem sequencer_ev (c i : Nat) (l : List PField) : (d.ev c i l).sequencer = d.sequencer := sequencer_of_host (butHost_ev d c i l)
@[simp] theorem sequencer_aenAll (e : AEvent) (w : Option Nat) (p : Fn → Bool) : (d.aenAll e w p).sequencer = d.sequencer :=
  sequencer_of_host (butHost_aenAll d e w p)
@[simp] theorem sequencer_sluPump : d.sluPump.sequencer = d.sequencer := sequencer_of_work (butWork_sluPump d)
@[simp] theorem sequencer_resumeDie (s k : Nat) : (d.resumeDie s k).sequencer = d.sequencer := sequencer_of_work (butWork_resumeDie d s k)
@[simp] theorem sequencer_linkEnable (s : Nat) : (d.linkEnable s).sequencer = d.sequencer := sequencer_of_work (butWork_linkEnable d s)
@[simp] theorem sequencer_linkDisable (s : Nat) (f : Bool) : (d.linkDisable s f).sequencer = d.sequencer :=
  sequencer_of_work (butWork_linkDisable d s f)
@[simp] theorem sequencer_sendLctl (s : Nat) (n l : Bool) : (d.sendLctl s n l).sequencer = d.sequencer :=
  sequencer_of_work (butWork_sendLctl d s n l)
@[simp] theorem sequencer_modLink (s : Nat) (f : Link → Link) : (d.modLink s f).sequencer = d.sequencer := rfl
@[simp] theorem sequencer_modSt (s : Nat) (f : SlotSt → SlotSt) : (d.modSt s f).sequencer = d.sequencer := rfl
@[simp] theorem sequencer_modLp (k : Nat) (f : LPair → LPair) : (d.modLp k f).sequencer = d.sequencer := rfl
@[simp] theorem sequencer_modChan (c : Nat) (f : DChan → DChan) : (d.modChan c f).sequencer = d.sequencer := rfl
@[simp] theorem sequencer_modFn (n : Fn) (f : FnSt → FnSt) : (d.modFn n f).sequencer = d.sequencer := rfl
@[simp] theorem sequencer_modBox (p : Port) (f : Kmb → Kmb) : (d.modBox p f).sequencer = d.sequencer := rfl
@[simp] theorem sequencer_modPort (p : Port) (f : HPort → HPort) : (d.modPort p f).sequencer = d.sequencer := rfl
@[simp] theorem sequencer_setCsr (a : Nat) (w : W32) : (d.setCsr a w).sequencer = d.sequencer := rfl
@[simp] theorem sequencer_allFresh : d.allFresh.sequencer = d.sequencer := rfl
@[simp] theorem sequencer_loseRegs (k : Nat) : (d.loseRegs k).sequencer = d.sequencer := rfl
@[simp] theorem sequencer_loseFab : d.loseFab.sequencer = d.sequencer := rfl
@[simp] theorem sequencer_colLoseQuad (q : Nat) : (d.colLoseQuad q).sequencer = d.sequencer := rfl
@[simp] theorem sequencer_withdrawHalf (h : Nat) (b : Bool) : (d.withdrawHalf h b).sequencer = d.sequencer := rfl
@[simp] theorem sequencer_bpmReady (p : Nat) : (d.bpmReady p).sequencer = d.sequencer := by
  obtain ⟨o, ho⟩ := bpmReady_eq d p
  rw [ho]
  rfl
@[simp] theorem sequencer_startLedger : d.startLedger.sequencer = d.sequencer := by
  simp only [Dev.startLedger]
  split
  · rfl
  · exact sequencer_ev _ _ _ _
@[simp] theorem sequencer_loseHalf (h : Nat) : (d.loseHalf h).sequencer = d.sequencer := by
  have hbuf : ∀ (x : Dev) b, Dev.sequencer { x with bpm := { x.bpm with bufs := b } } = x.sequencer := fun _ _ => rfl
  refine foldl_keeps Dev.sequencer _ (fun x p => ?_) _ d
  dsimp only
  split <;> simp [hbuf]
@[simp] theorem sequencer_loseGl (k : Nat) : (d.loseGl k).sequencer = d.sequencer :=
  foldl_keeps Dev.sequencer _ (fun x s => sequencer_linkDisable x s false) _ d
@[simp] theorem sequencer_loseDr (k : Nat) : (d.loseDr k).sequencer = d.sequencer := by
  have hw : ∀ (x : Dev) w, Dev.sequencer { x with dmc := { x.dmc with waiting := w } } = x.sequencer := fun _ _ => rfl
  simp only [Dev.loseDr, sequencer_allFresh, hw]
  exact foldl_keeps Dev.sequencer _ (fun x i => sequencer_modChan x _ _) _ d
@[simp] theorem sequencer_healthChange : d.healthChange.sequencer = d.sequencer := by
  simp only [Dev.healthChange]; split <;> rfl
@[simp] theorem sequencer_modeChanged : d.modeChanged.sequencer = d.sequencer := by
  refine foldl_keeps Dev.sequencer _ (fun x p => ?_) _ d
  dsimp only
  split
  · exact (sequencer_of_host (butHost_kmbSignal _ p)).trans rfl
  · rfl
@[simp] theorem sequencer_askLowPower (k : Nat) : (d.askLowPower k).sequencer = d.sequencer := by
  simp only [Dev.askLowPower]
  split
  · refine foldl_keeps Dev.sequencer _ (fun x s => ?_) _ d
    split <;> simp
  · rfl
@[simp] theorem sequencer_resumeErases : d.resumeErases.sequencer = d.sequencer := by
  refine foldl_keeps Dev.sequencer _ (fun x y => ?_) _ d
  split <;> simp
@[simp] theorem sequencer_domWakes (k : Nat) : (d.domWakes k).sequencer = d.sequencer := by
  simp only [Dev.domWakes]
  split
  · exact foldl_keeps Dev.sequencer _ (fun x i => sequencer_modChan x _ _) _ d
  · rfl
@[simp] theorem sequencer_freeSlot (cs : Nat) : (d.freeSlot cs).sequencer = d.sequencer := sequencer_of_host (butHost_freeSlot d cs)
@[simp] theorem sequencer_discardCpl (s : CSlot) : (d.discardCpl s).sequencer = d.sequencer := rfl
@[simp] theorem sequencer_dropWork (cs : Nat) : (d.dropWork cs).sequencer = d.sequencer := sequencer_of_drop (butDrop_dropWork d cs)
@[simp] theorem sequencer_endSlot (cs : Nat) : (d.endSlot cs).sequencer = d.sequencer := by
  have hslot : ∀ (x : Dev) c f, (x.modSlot c f).sequencer = x.sequencer := fun _ _ _ => rfl
  simp only [Dev.endSlot]
  (repeat' split) <;> simp [hslot]
@[simp] theorem sequencer_endFn (f : Fn) : (d.endFn f).sequencer = d.sequencer := by
  refine (foldl_keeps Dev.sequencer _ sequencer_endSlot _ _).trans ?_
  rfl
@[simp] theorem sequencer_cfgReset (f : Fn) : (d.cfgReset f).sequencer = d.sequencer := by
  simp only [Dev.cfgReset]
  split <;> simp
@[simp] theorem sequencer_resetPortFns (p : Port) : (d.resetPortFns p).sequencer = d.sequencer := by
  rw [Dev.resetPortFns, sequencer_modPort]
  exact foldl_keeps Dev.sequencer Dev.cfgReset sequencer_cfgReset _ d

/-- What a domain loses leaves the sequencer alone, unless it holds lockstep pairs. -/
theorem sequencer_loseDom {k : Nat} (h : ¬(9 ≤ k ∧ k ≤ 12)) : (d.loseDom k).sequencer = d.sequencer := by
  have hboot : ∀ (x : Dev) b, Dev.sequencer { x with boot := b } = x.sequencer := fun _ _ => rfl
  simp only [Dev.loseDom, if_neg h]
  (repeat' split) <;> simp [hboot]

/-- What starts with a domain leaves the sequencer alone, unless it holds lockstep pairs. -/
theorem sequencer_domStarts {k : Nat} (h : ¬(9 ≤ k ∧ k ≤ 12)) : (d.domStarts k).sequencer = d.sequencer := by
  simp only [Dev.domStarts, if_neg h]
  split
  · exact sequencer_startLedger d
  split
  · exact foldl_keeps Dev.sequencer _ sequencer_linkEnable _ d
  split
  · refine foldl_keeps Dev.sequencer _ (fun x c => ?_) _ d
    split <;> simp
  split
  · exact (foldl_keeps Dev.sequencer _ sequencer_bpmReady _ _).trans (sequencer_withdrawHalf d _ _)
  · rfl

/-! ### One domain under an operation on another -/

/-- What starting a ramp makes of a domain: it ramps, or waits while 4 others do (R22). -/
def Dev.rampDom (d : Dev) (x : Dom) : Dom :=
  if d.pwr.ramps < 4 then { x with st := .trans, up := .on, ramp := true, wait := false, want := false, offReq := false }
  else { x with wait := true, offReq := false }

theorem startRamp_eq (k : Nat) : ∃ w, d.startRamp k = ({ d with pwr := { d.pwr with wakeAt := w } } : Dev).modDom k d.rampDom := by
  have hramps : ∀ w, ({ d.pwr with wakeAt := w } : Pwr).ramps = d.pwr.ramps := fun _ => rfl
  refine ⟨if (d.dom k).wait then d.pwr.wakeAt else d.pwr.wakeAt.ins k d.now, ?_⟩
  by_cases hr : d.pwr.ramps < 4
  · have hdom : d.rampDom = fun x => { x with st := .trans, up := .on, ramp := true, wait := false, want := false, offReq := false } :=
      funext fun _ => if_pos hr
    simp only [Dev.startRamp, hramps, hdom, if_pos hr]
  · have hdom : d.rampDom = fun x => { x with wait := true, offReq := false } := funext fun _ => if_neg hr
    simp only [Dev.startRamp, hramps, hdom, if_neg hr]

theorem dom_startRamp_same (k : Nat) : (d.startRamp k).dom k = d.rampDom (d.dom k) := by
  obtain ⟨w, hw⟩ := startRamp_eq d k
  rw [hw, Dev.dom_modDom]
  rfl

theorem dom_startRamp_ne {j k : Nat} (h : k ≠ j) : (d.startRamp j).dom k = d.dom k := by
  obtain ⟨w, hw⟩ := startRamp_eq d j
  rw [hw, Dev.dom_modDom_ne _ _ h]
  rfl

theorem dom_powerOn_ne {j k : Nat} (h : k ≠ j) : (d.powerOn j).dom k = d.dom k := by
  simp only [Dev.powerOn]
  (repeat' split) <;> simp [dom_startRamp_ne d h, Dev.dom_modDom_ne _ _ h]

theorem dom_gateDom_ne {j k : Nat} (h : k ≠ j) : (d.gateDom j).dom k = d.dom k := by
  simp only [Dev.gateDom]
  split <;> simp [Dev.dom_modDom_ne _ _ h]

theorem dom_drainDom_ne {j k : Nat} (h : k ≠ j) : (d.drainDom j).dom k = d.dom k := by
  simp only [Dev.drainDom]
  split <;> exact Dev.dom_modDom_ne _ _ h

theorem dom_applyRule_ne {j k : Nat} (h : k ≠ j) : (d.applyRule j).dom k = d.dom k := by
  simp only [Dev.applyRule]
  split <;> simp [dom_powerOn_ne d h, dom_gateDom_ne d h, dom_drainDom_ne d h]

theorem dom_demand_ne {j k : Nat} (h : k ≠ j) : (d.demand j).dom k = d.dom k := by
  simp only [Dev.demand]
  (repeat' split) <;> simp [dom_powerOn_ne d h]

/-- Only a domain that waits for a ramp starts one. -/
theorem dom_nextRamp {k : Nat} (h : (d.dom k).wait = false) : d.nextRamp.dom k = d.dom k := by
  simp only [Dev.nextRamp]
  split
  · rfl
  next j hj =>
    have hwait : (d.dom j).wait = true := by
      rw [Pwr.nextWaiting] at hj
      exact List.find?_some (p := fun k => (d.dom k).wait) hj
    have hne : k ≠ j := by rintro rfl; rw [h] at hwait; cases hwait
    split
    · exact dom_startRamp_ne d hne
    · rfl

/-! ### What the sequencer's operations keep of the mode and of the request shown -/

@[simp] theorem startRamp_modes (k : Nat) : (d.startRamp k).modes = d.modes := by
  obtain ⟨w, hw⟩ := startRamp_eq d k
  rw [hw]
  rfl
@[simp] theorem powerOn_modes (k : Nat) : (d.powerOn k).modes = d.modes := by
  simp only [Dev.powerOn]; (repeat' split) <;> simp
@[simp] theorem nextRamp_modes : d.nextRamp.modes = d.modes := by
  simp only [Dev.nextRamp]; (repeat' split) <;> simp
@[simp] theorem settlePdReq_modes (k : Nat) : (d.settlePdReq k).modes = d.modes := by
  simp only [Dev.settlePdReq]; (repeat' split) <;> rfl
@[simp] theorem settlePdReq_dom (k j : Nat) : (d.settlePdReq k).dom j = d.dom j := by
  simp only [Dev.settlePdReq]; (repeat' split) <;> rfl

@[simp] theorem startRamp_busy (k : Nat) : (d.startRamp k).pwr.busy = d.pwr.busy := by
  obtain ⟨w, hw⟩ := startRamp_eq d k
  rw [hw]
  rfl
@[simp] theorem modDom_busy (k : Nat) (f : Dom → Dom) : (d.modDom k f).pwr.busy = d.pwr.busy := rfl
@[simp] theorem powerOn_busy (k : Nat) : (d.powerOn k).pwr.busy = d.pwr.busy := by
  simp only [Dev.powerOn]; (repeat' split) <;> simp
@[simp] theorem gateDom_busy (k : Nat) : (d.gateDom k).pwr.busy = d.pwr.busy := by
  simp only [Dev.gateDom]; split <;> simp
@[simp] theorem drainDom_busy (k : Nat) : (d.drainDom k).pwr.busy = d.pwr.busy := by
  simp only [Dev.drainDom]; split <;> simp
@[simp] theorem applyRule_busy (k : Nat) : (d.applyRule k).pwr.busy = d.pwr.busy := by
  simp only [Dev.applyRule]; split <;> simp

/-! ### A mode's column and one domain -/

/-- A property of domain `k` that the column of mode `m` keeps. -/
def ColumnKeeps (P : Dom → Prop) (k : Nat) (m : Mode) : Prop :=
  ∀ x : Dev, x.modes.mode = m → P (x.dom k) → P ((x.applyRule k).dom k)

theorem ColumnKeeps.column {P : Dom → Prop} {k : Nat} {m : Mode} (h : ColumnKeeps P k m) (l : List Nat) {d : Dev} (hm : d.modes.mode = m)
    (hP : P (d.dom k)) : P ((l.foldl (fun d k => d.applyRule k) d).dom k) := by
  induction l generalizing d with
  | nil => exact hP
  | cons j l ih =>
    refine ih (by rw [applyRule_modes, hm]) ?_
    by_cases hj : k = j
    · subst hj
      exact h d hm hP
    · rwa [dom_applyRule_ne d hj]

/-- Entering a mode applies its column to the domains as they are; a HALTED device stays HALTED. -/
theorem enterMode_cases (m : Mode) : (d.modes.mode = .halted ∧ d.enterMode m = d)
    ∨ ∃ x : Dev, x.pwr = d.pwr ∧ x.modes.mode = m ∧ d.enterMode m = x.applyColumn := by
  by_cases hh : d.modes.mode = .halted
  · exact .inl ⟨hh, enterMode_halted d m hh⟩
  refine .inr ⟨_, ?_, ?_, if_neg hh⟩
  · rw [pwr_of_sequencer (sequencer_modeChanged _), pwr_of_sequencer (sequencer_ev _ _ _ _)]
  · rw [modeChanged_modes, Dev.ev_modes]

theorem applyColumn_pwr : d.applyColumn.pwr = (switchable.foldl (fun d k => d.applyRule k) d).pwr := by
  rw [Dev.applyColumn]

theorem ColumnKeeps.enterMode {P : Dom → Prop} {k : Nat} {m : Mode} (h : ColumnKeeps P k m) {d : Dev} (hP : P (d.dom k)) :
    P ((d.enterMode m).dom k) := by
  obtain ⟨-, he⟩ | ⟨x, hpwr, hm, he⟩ := enterMode_cases d m
  · rwa [he]
  · rw [he, Dev.dom, applyColumn_pwr]
    exact h.column switchable hm (by rwa [Dev.dom, hpwr])

@[simp] theorem enterMode_busy (m : Mode) : (d.enterMode m).pwr.busy = d.pwr.busy := by
  obtain ⟨-, he⟩ | ⟨x, hpwr, -, he⟩ := enterMode_cases d m
  · rw [he]
  · have hcol := foldl_keeps (fun e : Dev => e.pwr.busy) (fun d k => d.applyRule k) applyRule_busy switchable x
    rw [he, applyColumn_pwr, ← hpwr]
    exact hcol

/-! ### Conditions and the serving mode -/

/-- The mode that the conditions give is a serving mode. -/
theorem servingMode_servingFor (b : Bool) : servingMode (d.servingFor b) = true := by
  simp only [Dev.servingFor]
  (repeat' split) <;> rfl

theorem ColumnKeeps.decideServing {P : Dom → Prop} {k : Nat} (h : ∀ m, servingMode m = true → ColumnKeeps P k m) {d : Dev} (hP : P (d.dom k)) :
    P (d.decideServing.dom k) := by
  simp only [Dev.decideServing]
  split
  · exact (h _ (servingMode_servingFor d true)).enterMode hP
  · exact hP

theorem decideServing_busy : d.decideServing.pwr.busy = d.pwr.busy := by
  simp only [Dev.decideServing]; split <;> simp

theorem decideServing_notServing {d : Dev} (h : servingMode d.modes.mode = false) : d.decideServing = d := by
  simp [Dev.decideServing, h]

theorem decideServing_serving {d : Dev} (h : servingMode d.modes.mode = true) : servingMode d.decideServing.modes.mode = true := by
  have hhalt : d.modes.mode ≠ .halted := by intro hm; rw [hm] at h; cases h
  simp only [Dev.decideServing]
  split
  · rw [enterMode_mode d _ hhalt]
    exact servingMode_servingFor d true
  · exact h

/-- The device with a conditions word. -/
def Dev.withCond (d : Dev) (c : BitVec 12) : Dev := { d with modes := { d.modes with cond := c } }

/-- A condition changes the sequencer's state by the conditions word and the serving mode that it gives. -/
theorem sequencer_setCond (i : Nat) (v : Bool) : (d.setCond i v).sequencer = d.sequencer
    ∨ ∃ c, (d.setCond i v).sequencer = (d.withCond c).decideServing.sequencer := by
  simp only [Dev.setCond]
  split
  · exact .inl rfl
  right
  refine ⟨if v then d.modes.cond ||| BitVec.ofNat 12 (2 ^ i) else d.modes.cond &&& ~~~ BitVec.ofNat 12 (2 ^ i), ?_⟩
  simp only [Dev.withCond]
  (repeat' split) <;> simp

theorem ColumnKeeps.setCond {P : Dom → Prop} {k : Nat} (h : ∀ m, servingMode m = true → ColumnKeeps P k m) {d : Dev} (hP : P (d.dom k))
    (i : Nat) (v : Bool) : P ((d.setCond i v).dom k) := by
  obtain hs | ⟨c, hs⟩ := sequencer_setCond d i v <;> rw [dom_of_sequencer hs]
  · exact hP
  · exact ColumnKeeps.decideServing (d := d.withCond c) h hP

theorem setCond_busy (i : Nat) (v : Bool) : (d.setCond i v).pwr.busy = d.pwr.busy := by
  obtain hs | ⟨c, hs⟩ := sequencer_setCond d i v <;> rw [pwr_of_sequencer hs]
  exact decideServing_busy (d.withCond c)

/-- Outside the serving modes a condition changes no mode and no domain. -/
theorem setCond_notServing {d : Dev} (h : servingMode d.modes.mode = false) (i : Nat) (v : Bool) :
    (d.setCond i v).pwr = d.pwr ∧ (d.setCond i v).modes.mode = d.modes.mode := by
  obtain hs | ⟨c, hs⟩ := sequencer_setCond d i v <;> rw [pwr_of_sequencer hs, modes_of_sequencer hs]
  · exact ⟨rfl, rfl⟩
  · rw [decideServing_notServing (d := d.withCond c) h]
    exact ⟨rfl, rfl⟩

/-- In a serving mode a condition leaves the device in a serving mode. -/
theorem setCond_serving {d : Dev} (h : servingMode d.modes.mode = true) (i : Nat) (v : Bool) :
    servingMode (d.setCond i v).modes.mode = true := by
  obtain hs | ⟨c, hs⟩ := sequencer_setCond d i v <;> rw [modes_of_sequencer hs]
  · exact h
  · exact decideServing_serving (d := d.withCond c) h

/-! ### Lockstep pairs -/

/-- Lockstep pairs take their roles: the sequencer sees only the condition standby_absent (R412). -/
theorem pairsMoved_eq : ∃ x : Dev, x.sequencer = d.sequencer ∧ d.pairsMoved = x.standbyCond := by
  have hrole : ∀ (x : Dev) (c₁ c₂ : Prop) [Decidable c₁] [Decidable c₂] k f g,
      (if c₁ then x else if c₂ then x.modLp k f else x.modLp k g).sequencer = x.sequencer := fun x c₁ c₂ _ _ k f g => by
    split
    · rfl
    · split <;> rfl
  simp only [Dev.pairsMoved]
  split
  · refine ⟨_, foldl_keeps Dev.sequencer _ (fun x k => ?_) _ d, rfl⟩
    exact hrole x _ _ k _ _
  · refine ⟨_, foldl_keeps Dev.sequencer _ (fun x k => ?_) _ d, rfl⟩
    (repeat' split) <;> rfl

theorem standbyCond_cases : d.standbyCond = d ∨ ∃ v, d.standbyCond = d.setCond 11 v := by
  simp only [Dev.standbyCond]
  split
  · exact .inr ⟨_, rfl⟩
  · exact .inl rfl

end Sys2Proof.Machine
end

section
/-! PROOFS. O7: WDN_PD_REQ, a request ignored, refused with its code, or carried out (R18, R22, R24). -/

namespace Sys2Proof.Machine

variable (d : Dev)

/-! ### One domain drained, gated or powered -/

theorem dom_drainDom_powered {d : Dev} {k : Nat} (h : (d.dom k).st ≠ .off) :
    (d.drainDom k).dom k = { d.dom k with st := .trans, up := .off, ramp := false, want := false } := by
  cases hst : (d.dom k).st <;> simp only [Dev.drainDom, hst, Dev.dom_modDom]
  exact absurd hst h

theorem dom_drainDom_off {d : Dev} {k : Nat} (h : (d.dom k).st = .off) : (d.drainDom k).dom k = { d.dom k with wait := false } := by
  simp only [Dev.drainDom, h, Dev.dom_modDom]

theorem dom_gateDom_on {d : Dev} {k : Nat} (h : (d.dom k).st = .on) :
    (d.gateDom k).dom k = { d.dom k with st := .trans, up := .gated, want := false } := by
  simp only [Dev.gateDom, h, if_true, Dev.dom_modDom]

/-- A domain that is ON, or has failed, is not powered up. -/
theorem powerOn_on {d : Dev} {k : Nat} (h : (d.dom k).st = .on) : d.powerOn k = d := by
  simp only [Dev.powerOn, h]
  split <;> rfl

theorem powerOn_failed {d : Dev} {k : Nat} (h : (d.dom k).failed = true) : d.powerOn k = d := by
  simp [Dev.powerOn, h]

theorem powerOn_off {d : Dev} {k : Nat} (h : (d.dom k).st = .off) (hw : (d.dom k).wait = false) (hf : (d.dom k).failed = false) :
    d.powerOn k = d.startRamp k := by
  simp [Dev.powerOn, h, hw, hf]

@[simp] theorem gateDom_modes (k : Nat) : (d.gateDom k).modes = d.modes := by
  simp only [Dev.gateDom]; split <;> rfl
@[simp] theorem drainDom_modes (k : Nat) : (d.drainDom k).modes = d.modes := by
  simp only [Dev.drainDom]; split <;> rfl
@[simp] theorem askLowPower_modes (k : Nat) : (d.askLowPower k).modes = d.modes := modes_of_sequencer (sequencer_askLowPower d k)
@[simp] theorem withdrawHalf_modes (h : Nat) (b : Bool) : (d.withdrawHalf h b).modes = d.modes := rfl

/-- The domains that ramp are as many while one changes in another respect. -/
theorem ramps_modDom {k : Nat} {f : Dom → Dom} (h : ∀ x, (f x).ramp = x.ramp) : (d.modDom k f).pwr.ramps = d.pwr.ramps := by
  have hramp : ∀ j, ((d.modDom k f).dom j).ramp = (d.dom j).ramp := fun j => by
    by_cases hj : j = k
    · rw [hj, Dev.dom_modDom, h]
    · rw [Dev.dom_modDom_ne _ _ hj]
  exact congrArg (fun p : Nat → Bool => ((List.range 36).filter p).length) (funext hramp)

/-! ### The request shown (R24) -/

theorem settlePdReq_reached {d : Dev} {k : Nat} {t : Pd} (hb : d.pwr.busy = some (k, t)) (h : (d.dom k).st = t) :
    (d.settlePdReq k).pwr.busy = none := by
  simp [Dev.settlePdReq, hb, h]

theorem settlePdReq_waits {d : Dev} {k : Nat} {t : Pd} (hb : d.pwr.busy = some (k, t)) (h : (d.dom k).st ≠ t) : d.settlePdReq k = d := by
  simp [Dev.settlePdReq, hb, h]

/-! ### The judgement -/

/-- During a mode transition every request for a domain that exists is refused. -/
theorem pdJudge_inTransition {d : Dev} {k t : Nat} (h : d.inTransition = true) (hk : k ≤ 35) (ht : t ≠ 1) : d.pdJudge k t = 2 := by
  rw [Dev.pdJudge, if_neg (by omega), if_pos (.inr h)]

/-- A failed domain is not powered on request. -/
theorem not_failed_of_pdJudge {d : Dev} {k : Nat} (h : d.pdJudge k 3 = 0) : (d.dom k).failed = false := by
  by_contra hf
  have hf : (d.dom k).failed = true := by simpa using hf
  have hforbid : d.pdForbidden k .on = true := by simp [Dev.pdForbidden, hf]
  simp only [Dev.pdJudge] at h
  split at h
  · cases h
  split at h
  · cases h
  split at h
  · cases h
  · simp [hforbid] at h

/-! ### Carrying a request out -/

/-- The device that shows a request as under way. -/
def Dev.pdAsked (d : Dev) (k : Nat) (t : Pd) : Dev := { d with pwr := { d.pwr with busy := some (k, t), result := 0 } }

theorem pdStart_off (k : Nat) : ∃ x : Dev, d.pdStart k 0 = x.settlePdReq k
    ∧ x.sequencer = (((d.pdAsked k .off).drainDom k).modDom k (fun x => { x with offReq := true })).sequencer := by
  refine ⟨_, rfl, ?_⟩
  simp only [if_true]
  split <;> rfl

theorem pdStart_gated {k : Nat} (h : (d.dom k).st = .on) : d.pdStart k 2 = (((d.pdAsked k .gated).gateDom k).askLowPower k).settlePdReq k := by
  have h' : (({ d with pwr := { d.pwr with busy := some (k, .gated), result := 0 } } : Dev).dom k).st = .on := h
  simp [Dev.pdStart, Dev.pdAsked, h']

theorem pdStart_on (k : Nat) :
    d.pdStart k 3 = (((d.pdAsked k .on).modDom k (fun x => { x with offReq := false })).powerOn k).settlePdReq k := by
  simp [Dev.pdStart, Dev.pdAsked]

theorem pdStart_modes (k t : Nat) : (d.pdStart k t).modes = d.modes := by
  simp only [Dev.pdStart]
  (repeat' split) <;> simp

/-- An accepted request for OFF drains a domain that has power (R21). -/
theorem pdStart_off_drains {d : Dev} {k : Nat} (h : (d.dom k).st ≠ .off) : ((d.pdStart k 0).dom k).st = .trans
    ∧ ((d.pdStart k 0).dom k).up = .off ∧ ((d.pdStart k 0).dom k).offReq = true ∧ (d.pdStart k 0).pwr.busy = some (k, .off) := by
  obtain ⟨x, hx, hseq⟩ := pdStart_off d k
  have hdom : x.dom k = { d.dom k with st := .trans, up := .off, ramp := false, want := false, offReq := true } := by
    rw [dom_of_sequencer hseq, Dev.dom_modDom, dom_drainDom_powered (d := d.pdAsked k .off) h]
    rfl
  have hbusy : x.pwr.busy = some (k, .off) := by
    rw [pwr_of_sequencer hseq, modDom_busy, drainDom_busy]
    rfl
  rw [hx, settlePdReq_waits hbusy (by rw [hdom]; exact Pd.noConfusion), hdom]
  exact ⟨rfl, rfl, rfl, hbusy⟩

theorem pdStart_off_done {d : Dev} {k : Nat} (h : (d.dom k).st = .off) :
    ((d.pdStart k 0).dom k).st = .off ∧ (d.pdStart k 0).pwr.busy = none := by
  obtain ⟨x, hx, hseq⟩ := pdStart_off d k
  have hdom : (x.dom k).st = .off := by
    rw [dom_of_sequencer hseq, Dev.dom_modDom, dom_drainDom_off (d := d.pdAsked k .off) h]
    exact h
  have hbusy : x.pwr.busy = some (k, .off) := by
    rw [pwr_of_sequencer hseq, modDom_busy, drainDom_busy]
    rfl
  rw [hx, settlePdReq_dom]
  exact ⟨hdom, settlePdReq_reached hbusy hdom⟩

/-- An accepted request for GATED gates a domain that is ON. -/
theorem pdStart_gates {d : Dev} {k : Nat} (h : (d.dom k).st = .on) : ((d.pdStart k 2).dom k).st = .trans
    ∧ ((d.pdStart k 2).dom k).up = .gated ∧ (d.pdStart k 2).pwr.busy = some (k, .gated) := by
  have hseq := sequencer_askLowPower ((d.pdAsked k .gated).gateDom k) k
  have hdom : (((d.pdAsked k .gated).gateDom k).askLowPower k).dom k = { d.dom k with st := .trans, up := .gated, want := false } := by
    rw [dom_of_sequencer hseq, dom_gateDom_on (d := d.pdAsked k .gated) h]
    rfl
  have hbusy : (((d.pdAsked k .gated).gateDom k).askLowPower k).pwr.busy = some (k, .gated) := by
    rw [pwr_of_sequencer hseq, gateDom_busy]
    rfl
  rw [pdStart_gated d h, settlePdReq_waits hbusy (by rw [hdom]; exact Pd.noConfusion), hdom]
  exact ⟨rfl, rfl, hbusy⟩

/-- An accepted request for ON ramps a domain that is OFF, or lets it wait for a ramp (R22). -/
theorem pdStart_ramps {d : Dev} {k : Nat} (h : (d.dom k).st = .off) (hw : (d.dom k).wait = false) (hf : (d.dom k).failed = false) :
    (d.pdStart k 3).pwr.busy = some (k, .on)
    ∧ (if d.pwr.ramps < 4 then ((d.pdStart k 3).dom k).st = .trans ∧ ((d.pdStart k 3).dom k).up = .on ∧ ((d.pdStart k 3).dom k).ramp = true
        else ((d.pdStart k 3).dom k).wait = true) := by
  generalize hx : (d.pdAsked k .on).modDom k (fun x => { x with offReq := false }) = x
  have hdom : x.dom k = { d.dom k with offReq := false } := by rw [← hx, Dev.dom_modDom]; rfl
  have hramps : x.pwr.ramps = d.pwr.ramps := by rw [← hx]; exact ramps_modDom (d.pdAsked k .on) (fun _ => rfl)
  have hbusy : (x.startRamp k).pwr.busy = some (k, .on) := by rw [startRamp_busy, ← hx]; rfl
  have hrun : x.powerOn k = x.startRamp k := powerOn_off (by rw [hdom]; exact h) (by rw [hdom]; exact hw) (by rw [hdom]; exact hf)
  have hst : ((x.startRamp k).dom k).st ≠ .on := by
    rw [dom_startRamp_same, Dev.rampDom, hdom]
    split
    · exact Pd.noConfusion
    · rw [h]; exact Pd.noConfusion
  rw [pdStart_on, hx, hrun, settlePdReq_waits hbusy hst, dom_startRamp_same, Dev.rampDom, hramps]
  refine ⟨hbusy, ?_⟩
  split
  · exact ⟨rfl, rfl, rfl⟩
  · rfl

theorem pdStart_on_done {d : Dev} {k : Nat} (h : (d.dom k).st = .on) :
    ((d.pdStart k 3).dom k).st = .on ∧ (d.pdStart k 3).pwr.busy = none := by
  generalize hx : (d.pdAsked k .on).modDom k (fun x => { x with offReq := false }) = x
  have hdom : (x.dom k).st = .on := by rw [← hx, Dev.dom_modDom]; exact h
  have hbusy : x.pwr.busy = some (k, .on) := by rw [← hx]; rfl
  rw [pdStart_on, hx, powerOn_on hdom, settlePdReq_dom]
  exact ⟨hdom, settlePdReq_reached hbusy hdom⟩

/-! ### The request -/

theorem pdRequest_busy {d : Dev} (k t : Nat) (h : d.pwr.busy.isSome = true) : pdRequest k t d = d := if_pos (.inr h)

section
variable {d : Dev} {k t : Nat} (hm : d.modes.mode ≠ .off) (hk : k < 64) (ht : t < 4) (hb : d.pwr.busy = none)
include hm hk ht hb

theorem pdRequest_refused (h : d.pdJudge k t ≠ 0) : pdRequest k t d =
    ({ d.setCsr aPdReq (BitVec.ofNat 32 (k + 256 * t)) with pwr := { d.pwr with result := d.pdJudge k t } } : Dev).ev evWdnPdRefused 0
      [.num 1 k, .num 1 t, .num 1 (d.pdJudge k t)] := by
  simp only [pdRequest, hm, hb, Option.isSome_none, Bool.false_eq_true, or_self, if_false, Nat.mod_eq_of_lt hk, Nat.mod_eq_of_lt ht, if_neg h,
    Dev.setCsr_pwr]

theorem pdRequest_accepted (h : d.pdJudge k t = 0) : pdRequest k t d = (d.setCsr aPdReq (BitVec.ofNat 32 (k + 256 * t))).pdStart k t := by
  simp only [pdRequest, hm, hb, Option.isSome_none, Bool.false_eq_true, or_self, if_false, Nat.mod_eq_of_lt hk, Nat.mod_eq_of_lt ht, h, if_true]

end

/-- Settles O7, from what a request does to its domain when it is accepted (`pdStart_off_drains` and its siblings). -/
theorem domainRequests : Obligations.DomainRequests := by
  intro s k t hm hk ht
  refine ⟨fun hb => ?_, fun hb hj => ?_, pdJudge_inTransition, fun hb hj => ?_⟩
  · exact congrArg (fun d => Host.Outcome.next { s with dev := d }) (pdRequest_busy k t hb)
  · refine ⟨s.onDev (pdRequest k t), rfl, ?_, rfl, ?_⟩ <;> rw [State.onDev_dev, pdRequest_refused hm hk ht hb hj]
    · rw [Dev.ev_pwr]
    · rw [butLog_ev, Dev.ev_pwr]
  · refine ⟨s.onDev (pdRequest k t), rfl, rfl, ?_⟩
    rw [State.onDev_dev, pdRequest_accepted hm hk ht hb hj]
    refine ⟨pdStart_modes _ k t, ?_, ?_, ?_, ?_, ?_⟩ <;> rintro rfl
    · exact pdStart_off_drains (d := s.dev.setCsr _ _)
    · exact pdStart_off_done (d := s.dev.setCsr _ _)
    · exact pdStart_gates (d := s.dev.setCsr _ _)
    · exact fun h hw => pdStart_ramps (d := s.dev.setCsr _ _) h hw (not_failed_of_pdJudge hj)
    · exact pdStart_on_done (d := s.dev.setCsr _ _)

end Sys2Proof.Machine
end

section
/-! PROOFS. O8: the ends of ramps, drains and gating, and a domain declared failed (R19 to R23, R83). -/

namespace Sys2Proof.Machine

variable (d : Dev)

/-! ### Lockstep pairs move with their domain -/

section
variable {d} {k : Nat}

theorem ColumnKeeps.pairsMoved {P : Dom → Prop} (h : ∀ m, servingMode m = true → ColumnKeeps P k m) (hP : P (d.dom k)) :
    P (d.pairsMoved.dom k) := by
  obtain ⟨x, hx, he⟩ := pairsMoved_eq d
  rw [← dom_of_sequencer hx] at hP
  obtain hs | ⟨v, hs⟩ := standbyCond_cases x <;> rw [he, hs]
  · exact hP
  · exact ColumnKeeps.setCond h hP 11 v

theorem pairsMoved_busy : d.pairsMoved.pwr.busy = d.pwr.busy := by
  obtain ⟨x, hx, he⟩ := pairsMoved_eq d
  rw [← pwr_of_sequencer hx]
  obtain hs | ⟨v, hs⟩ := standbyCond_cases x <;> rw [he, hs]
  exact setCond_busy x 11 v

theorem pairsMoved_notServing (h : servingMode d.modes.mode = false) :
    d.pairsMoved.pwr = d.pwr ∧ d.pairsMoved.modes.mode = d.modes.mode := by
  obtain ⟨x, hx, he⟩ := pairsMoved_eq d
  rw [← modes_of_sequencer hx] at h ⊢
  rw [← pwr_of_sequencer hx]
  obtain hs | ⟨v, hs⟩ := standbyCond_cases x <;> rw [he, hs]
  · exact ⟨rfl, rfl⟩
  · exact setCond_notServing h 11 v

theorem pairsMoved_serving (h : servingMode d.modes.mode = true) : servingMode d.pairsMoved.modes.mode = true := by
  obtain ⟨x, hx, he⟩ := pairsMoved_eq d
  rw [← modes_of_sequencer hx] at h
  obtain hs | ⟨v, hs⟩ := standbyCond_cases x <;> rw [he, hs]
  · exact h
  · exact setCond_serving h 11 v

theorem pairsMoved_not_idle (h : d.modes.mode ≠ .idle) : d.pairsMoved.modes.mode ≠ .idle := by
  cases hs : servingMode d.modes.mode
  · rwa [(pairsMoved_notServing hs).2]
  · intro hi
    have := pairsMoved_serving hs
    rw [hi] at this
    cases this

end

/-! ### Settling after a domain's event -/

/-- Outside IDLE a mode's settling only crosses off what has settled. -/
theorem settleMode_dom {d : Dev} (h : d.modes.mode ≠ .idle) (k : Nat) : d.settleMode.dom k = d.dom k ∧ d.settleMode.modes.mode = d.modes.mode := by
  simp [Dev.settleMode, h, Dev.dom]

theorem domSettled_dom {d : Dev} (h : d.modes.mode ≠ .idle) (j k : Nat) : (d.domSettled j).dom k = d.dom k := by
  have hmode : (d.settlePdReq j).modes.mode ≠ .idle := by rwa [settlePdReq_modes]
  rw [Dev.domSettled, if_neg (fun hi => h hi.1), (settleMode_dom hmode k).1, settlePdReq_dom]

/-! ### A ramp or a wake ends -/

/-- A domain that is ON, and neither ramps nor waits for a ramp. -/
def Dom.running (x : Dom) : Prop := x.st = .on ∧ x.ramp = false ∧ x.wait = false

theorem servingMode_iff {m : Mode} : servingMode m = true ↔ m = .serve ∨ m = .serveLimited ∨ m = .serveDegraded ∨ m = .readOnly := by
  cases m <;> decide

/-- The TC domains in a serving mode: the first is held ON, the others are on demand (Table 03-6). -/
theorem domRule_serving_tc {m : Mode} {k : Nat} (hm : servingMode m = true) (hk : 9 ≤ k ∧ k ≤ 12) (ps popGl popDr plan : Nat) :
    domRule m ps popGl popDr plan k = if k = 9 then .holdOn else .demand := by
  obtain ⟨h9, h12⟩ := hk
  obtain rfl | rfl | rfl | rfl := servingMode_iff.mp hm <;> interval_cases k <;> rfl

/-- A serving mode's column asks nothing of a TC domain that is ON. -/
theorem running_column {k : Nat} (hk : 9 ≤ k ∧ k ≤ 12) (m : Mode) (hm : servingMode m = true) : ColumnKeeps Dom.running k m := by
  intro x hx hP
  have hrule : x.ruleOf k = if k = 9 then .holdOn else .demand := domRule_serving_tc (by rw [hx, hm]) hk _ _ _ _
  by_cases h9 : k = 9
  · rw [if_pos h9] at hrule
    simp only [Dev.applyRule, hrule]
    rwa [powerOn_on hP.1]
  · rw [if_neg h9] at hrule
    simp only [Dev.applyRule, hrule]
    exact hP

/-- What starts with a domain that has come up leaves it running. -/
theorem running_domStarts {d : Dev} {k : Nat} (h : (d.dom k).running) (hm : d.modes.mode ≠ .idle) : ((d.domStarts k).dom k).running
    ∧ (d.domStarts k).modes.mode ≠ .idle ∧ (d.domStarts k).pwr.busy = d.pwr.busy := by
  by_cases hk : 9 ≤ k ∧ k ≤ 12
  · have hrun : d.domStarts k = d.pairsMoved := by rw [Dev.domStarts, if_neg (by omega), if_pos hk]
    rw [hrun]
    exact ⟨ColumnKeeps.pairsMoved (running_column hk) h, pairsMoved_not_idle hm, pairsMoved_busy⟩
  · have hseq := sequencer_domStarts d hk
    rw [dom_of_sequencer hseq, modes_of_sequencer hseq, pwr_of_sequencer hseq]
    exact ⟨h, hm, rfl⟩

/-- The end of a ramp or a wake, outside IDLE and but for a request for GATED: the domain reads ON. -/
theorem running_domainPowerUpDone {d : Dev} {k : Nat} (hst : (d.dom k).st = .trans) (hup : (d.dom k).up = .on) (hm : d.modes.mode ≠ .idle)
    (hb : d.pwr.busy ≠ some (k, .gated)) : ((domainPowerUpDone k d).dom k).running := by
  simp only [domainPowerUpDone, hst, hup, ne_eq, not_true_eq_false, or_self, if_false]
  generalize hx : d.modDom k _ = x
  have hrun : (x.dom k).running := by rw [← hx, Dev.dom_modDom]; exact ⟨rfl, rfl, rfl⟩
  have hmx : x.modes.mode ≠ .idle := by rw [← hx]; exact hm
  have hbx : x.pwr.busy ≠ some (k, .gated) := by rw [← hx]; exact hb
  generalize hy : (if (d.dom k).ramp = true then x.domStarts k else x.domWakes k) = y
  have hyall : (y.dom k).running ∧ y.modes.mode ≠ .idle ∧ y.pwr.busy = x.pwr.busy := by
    rw [← hy]
    split
    · exact running_domStarts hrun hmx
    · have hseq := sequencer_domWakes x k
      rw [dom_of_sequencer hseq, modes_of_sequencer hseq, pwr_of_sequencer hseq]
      exact ⟨hrun, hmx, rfl⟩
  obtain ⟨hruny, hmy, hby⟩ := hyall
  have hbusy : ¬(y.pwr.busy = some (k, .gated)) := by rwa [hby]
  simp only [hmy, hbusy, decide_false, Bool.false_and, Bool.or_self, Bool.false_eq_true, if_false]
  rwa [dom_of_sequencer (sequencer_sluPump _), domSettled_dom (by rwa [nextRamp_modes]), dom_nextRamp _ hruny.2.2]

/-! ### A drain or gating ends -/

/-- A domain with its power gone. -/
def Dom.gone (x : Dom) : Dom := { x with st := .off, up := .off, ramp := false, wait := false }

/-- What a domain loses with its power leaves the mode and itself alone, but for lockstep pairs in a serving mode. -/
theorem dom_loseDom {d : Dev} {k : Nat} (h : 9 ≤ k → k ≤ 12 → servingMode d.modes.mode = false) :
    (d.loseDom k).dom k = d.dom k ∧ (d.loseDom k).modes.mode = d.modes.mode := by
  by_cases hk : 9 ≤ k ∧ k ≤ 12
  · have hlose : d.loseDom k = (d.loseRegs k).pairsMoved := by
      rw [Dev.loseDom, if_neg (by omega), if_neg (by omega), if_pos hk]
    obtain ⟨hpwr, hmode⟩ := pairsMoved_notServing (d := d.loseRegs k) (h hk.1 hk.2)
    rw [hlose, Dev.dom, hpwr, hmode]
    exact ⟨rfl, rfl⟩
  · have hseq := sequencer_loseDom d hk
    rw [dom_of_sequencer hseq, modes_of_sequencer hseq]
    exact ⟨rfl, rfl⟩

theorem dom_domOff {d : Dev} {k : Nat} (h : 9 ≤ k → k ≤ 12 → servingMode d.modes.mode = false) :
    (d.domOff k).dom k = (d.dom k).gone ∧ (d.domOff k).modes.mode = d.modes.mode := by
  obtain ⟨hdom, hmode⟩ := dom_loseDom (d := d.modDom k Dom.gone) h
  have hoff : d.domOff k = ((d.modDom k Dom.gone).loseDom k).nextRamp := rfl
  rw [Dev.dom_modDom] at hdom
  rw [hoff, dom_nextRamp _ (by rw [hdom]; rfl), nextRamp_modes]
  exact ⟨hdom, hmode⟩

/-- A domain that nothing waits for is not woken. -/
theorem wakeWanted_none {d : Dev} {k : Nat} (h : (d.dom k).want = false) : d.wakeWanted k = d := by
  simp [Dev.wakeWanted, h]

/-- The end of a drain takes the domain OFF. -/
theorem domainDrainDone_off {d : Dev} {k : Nat} (hst : (d.dom k).st = .trans) (hup : (d.dom k).up = .off) (hw : (d.dom k).want = false)
    (hm : d.modes.mode ≠ .idle) (htc : 9 ≤ k → k ≤ 12 → servingMode d.modes.mode = false)
    (hhalf : (k = 34 ∨ k = 35) → (d.dom k).offReq = true → d.halfBusy (k - 34) = false) :
    (domainDrainDone k d).dom k = (d.dom k).gone := by
  have hfree : ¬((k = 34 ∨ k = 35) ∧ (d.dom k).offReq = true ∧ d.halfBusy (k - 34) = true) := fun ⟨h1, h2, h3⟩ => by
    rw [hhalf h1 h2] at h3; cases h3
  obtain ⟨hdom, hmode⟩ := dom_domOff htc
  have hwant : ((d.domOff k).dom k).want = false := by rw [hdom]; exact hw
  simp only [domainDrainDone, hst, hup, ne_eq, not_true_eq_false, or_self, if_false, if_neg hfree]
  rw [wakeWanted_none hwant, domSettled_dom (by rwa [hmode]), hdom]

/-- A memory half asked OFF waits for its buffers (R347). -/
theorem domainDrainDone_halfBusy {d : Dev} {k : Nat} (hk : k = 34 ∨ k = 35) (hoff : (d.dom k).offReq = true)
    (hb : d.halfBusy (k - 34) = true) : domainDrainDone k d = d := by
  have hwait : (k = 34 ∨ k = 35) ∧ (d.dom k).offReq = true ∧ d.halfBusy (k - 34) = true := ⟨hk, hoff, hb⟩
  simp only [domainDrainDone, if_pos hwait, ite_self]

/-- Some link of a GL domain is still ACTIVE. -/
def Dev.groupActive (d : Dev) (k : Nat) : Bool := (List.range 8).any (fun i => decide ((d.link (8 * (k - 13) + i)).st = .active))

theorem groupActive_iff {k : Nat} : d.groupActive k = true ↔ ∃ i, i < 8 ∧ (d.link (8 * (k - 13) + i)).st = .active := by
  simp [Dev.groupActive]

/-- The end of gating takes the domain to GATED. -/
theorem domainGated_gated {d : Dev} {k : Nat} (hst : (d.dom k).st = .trans) (hup : (d.dom k).up = .gated) (hw : (d.dom k).want = false)
    (hm : d.modes.mode ≠ .idle) (hlinks : 13 ≤ k → k ≤ 20 → d.groupActive k = false) :
    ((domainGated k d).dom k).st = .gated := by
  have hidle : ¬(13 ≤ k ∧ k ≤ 20 ∧ d.groupActive k = true) := fun ⟨h1, h2, h3⟩ => by rw [hlinks h1 h2] at h3; cases h3
  simp only [Dev.groupActive] at hidle
  simp only [domainGated, hst, hup, ne_eq, not_true_eq_false, or_self, if_false, if_neg hidle]
  generalize hx : (if 30 ≤ k ∧ k ≤ 33 then _ else d.modDom k _) = x
  have hseq : x.sequencer = (d.modDom k (fun x => { x with st := .gated })).sequencer := by
    rw [← hx]
    split
    · exact foldl_keeps Dev.sequencer _ (fun y i => sequencer_modChan y _ _) _ _
    · rfl
  have hdom : x.dom k = { d.dom k with st := .gated } := by rw [dom_of_sequencer hseq, Dev.dom_modDom]
  have hmode : x.modes = d.modes := (modes_of_sequencer hseq).trans (Dev.modDom_modes _ _ _)
  rw [wakeWanted_none (by rw [hdom]; exact hw), domSettled_dom (by rwa [hmode]), hdom]

/-- A link group waits for its links. -/
theorem domainGated_waits {d : Dev} {k : Nat} (hk : 13 ≤ k ∧ k ≤ 20) (h : d.groupActive k = true) : domainGated k d = d := by
  have hwait : 13 ≤ k ∧ k ≤ 20 ∧ d.groupActive k = true := ⟨hk.1, hk.2, h⟩
  simp only [Dev.groupActive] at hwait
  simp only [domainGated, if_pos hwait, ite_self]

/-! ### A domain declared failed -/

/-- A failed domain that is OFF and waits for no ramp. -/
def Dom.dead (x : Dom) : Prop := x.failed = true ∧ x.st = .off ∧ x.wait = false

section
variable {d} {k : Nat} (h : (d.dom k).dead)
include h

theorem dead_demand (j : Nat) : ((d.demand j).dom k).dead := by
  by_cases hj : k = j
  · have hrun : d.demand j = d := by simp [Dev.demand, ← hj, h.1]
    rwa [hrun]
  · rwa [dom_demand_ne d hj]

theorem dead_modSt (s : Nat) (f : SlotSt → SlotSt) : ((d.modSt s f).dom k).dead := by rwa [Dev.modSt_dom]

theorem dead_slotUp (s : Nat) : ((d.slotUp s).dom k).dead := by
  simp only [Dev.slotUp]
  split
  · exact h
  · exact dead_demand (dead_modSt h s _) _

theorem dead_startInsertion (s : Nat) : ((d.startInsertion s).dom k).dead := by
  simp only [Dev.startInsertion]
  split
  · rwa [Dev.modSt_dom, Dev.ev_dom]
  split
  · exact h
  split
  · exact dead_modSt h s _
  · exact dead_slotUp (dead_modSt h s _) s

end

/-- No column powers a failed domain. -/
theorem dead_column (k : Nat) (m : Mode) : ColumnKeeps Dom.dead k m := by
  intro x _ hP
  have hgate : x.gateDom k = x := by simp [Dev.gateDom, hP.2.1]
  simp only [Dev.applyRule]
  split
  · rwa [powerOn_failed hP.1]
  · rwa [hgate]
  · rw [dom_drainDom_off hP.2.1]
    exact ⟨hP.1, hP.2.1, rfl⟩
  · exact hP
  · exact hP

section
variable {d} {k : Nat} (h : (d.dom k).dead)
include h

theorem dead_withModes (m : Modes) : (({ d with modes := m } : Dev).dom k).dead := h

theorem dead_enterMode (m : Mode) : ((d.enterMode m).dom k).dead := (dead_column k m).enterMode h

theorem dead_setCond (i : Nat) (v : Bool) : ((d.setCond i v).dom k).dead := ColumnKeeps.setCond (fun m _ => dead_column k m) h i v

theorem dead_settleMode : (d.settleMode.dom k).dead := by
  simp only [Dev.settleMode]
  split
  · exact dead_setCond (dead_enterMode (dead_withModes (dead_withModes h _) _) _) 10 false
  · exact dead_withModes h _

theorem dead_resumeInsertions : (d.resumeInsertions.dom k).dead := by
  simp only [Dev.resumeInsertions]
  generalize List.filter _ _ = l
  induction l generalizing d with
  | nil => exact h
  | cons s l ih => exact ih (dead_startInsertion h s)

theorem dead_domSettled (j : Nat) : ((d.domSettled j).dom k).dead := by
  have hset : (((d.settlePdReq j).settleMode).dom k).dead := dead_settleMode (by rwa [settlePdReq_dom])
  simp only [Dev.domSettled]
  split
  · rw [dom_of_sequencer (sequencer_sluPump _)]
    exact dead_resumeInsertions (by rwa [dom_of_sequencer (sequencer_resumeErases _)])
  · exact hset

theorem dead_otherUnit (j : Nat) : ((d.otherUnit j).dom k).dead := by
  simp only [Dev.otherUnit]
  split
  · split
    · exact dead_demand h _
    · exact h
  split
  · exact dead_demand h _
  split
  · exact dead_demand h _
  · exact h

theorem dead_halt (fuse : Fuses) (c u : Nat) : ((d.halt fuse c u).dom k).dead := by
  simp only [Dev.halt]
  split
  · exact h
  refine dead_enterMode ?_ .halted
  simp only [Dev.signBcol]
  (repeat' split) <;> exact h

theorem dead_promiseEval : (d.promiseEval.dom k).dead := by
  simp only [Dev.promiseEval]
  split
  · exact h
  · rw [Dev.ev_dom]
    exact h

end

/-- A failed domain that goes OFF is dead. -/
theorem dead_domOff {d : Dev} {k : Nat} (h : (d.dom k).failed = true) : ((d.domOff k).dom k).dead := by
  have hgone : ((d.modDom k Dom.gone).dom k).dead := by
    rw [Dev.dom_modDom]
    exact ⟨h, rfl, rfl⟩
  have hlost : (((d.modDom k Dom.gone).loseDom k).dom k).dead := by
    by_cases hk : 9 ≤ k ∧ k ≤ 12
    · have hlose : (d.modDom k Dom.gone).loseDom k = ((d.modDom k Dom.gone).loseRegs k).pairsMoved := by
        rw [Dev.loseDom, if_neg (by omega), if_neg (by omega), if_pos hk]
      rw [hlose]
      exact ColumnKeeps.pairsMoved (fun m _ => dead_column k m) hgone
    · rwa [dom_of_sequencer (sequencer_loseDom _ hk)]
  have hoff : d.domOff k = ((d.modDom k Dom.gone).loseDom k).nextRamp := rfl
  rwa [hoff, dom_nextRamp _ hlost.2.2]

/-- A domain declared failed is dead, where no Gathering on it is admitted. -/
theorem dead_failDomain {s : State} {k : Nat} (h2 : 2 ≤ k) (h35 : k ≤ 35) (hf : (s.dev.dom k).failed = false) (hm : s.dev.modes.mode ≠ .off)
    (hst : (s.dev.dom k).st ≠ .off) (hslots : 13 ≤ k → k ≤ 20 → ∀ i, i < 8 → (s.dev.slot (8 * (k - 13) + i)).admitted = false) :
    ((failDomain k s).dev.dom k).dead := by
  have hguard : ¬(k < 2 ∨ 35 < k ∨ (s.dev.dom k).failed = true ∨ s.dev.modes.mode = .off
      ∨ ((s.dev.dom k).st = .off ∧ (s.dev.dom k).wait = false)) := by
    rintro (h | h | h | h | ⟨h, -⟩)
    · omega
    · omega
    · rw [hf] at h; cases h
    · exact hm h
    · exact hst h
  simp only [failDomain, if_neg hguard]
  generalize hx : (s.dev.modDom k _).ev _ _ _ = x
  have hfail : (x.dom k).failed = true := by rw [← hx, Dev.ev_dom, Dev.dom_modDom]
  have hnone : 13 ≤ k → k ≤ 20 → ((List.range 8).map (fun i => 8 * (k - 13) + i)).filter (fun s => (x.slot s).admitted) = [] := by
    intro h13 h20
    refine List.filter_eq_nil_iff.mpr fun c hc => ?_
    obtain ⟨i, hi, rfl⟩ := List.mem_map.mp hc
    have hslot := hslots h13 h20 i (List.mem_range.mp hi)
    rw [← hx, Dev.ev_slot, Dev.modDom_slot, hslot]
    decide
  generalize hy : (if 13 ≤ k ∧ k ≤ 20 then _ else x) = y
  have hyx : y = x := by
    rw [← hy]
    split
    next hgl => rw [hnone hgl.1 hgl.2]; rfl
    next => rfl
  generalize hz : (if k = 3 then _ else if k = 4 then _ else y) = z
  have hzx : (z.dom k).failed = true := by
    have hseq : z.sequencer = y.sequencer := by
      rw [← hz]
      (repeat' split) <;> simp
    rwa [dom_of_sequencer hseq, hyx]
  have hdead : ((((z.domOff k).otherUnit k).domSettled k).dom k).dead := dead_domSettled (dead_otherUnit (dead_domOff hzx) k) k
  split
  · exact dead_promiseEval (dead_halt hdead _ _ _)
  · exact dead_promiseEval hdead

/-- Settles O8, from what each end of a transition leaves of its domain, and what no operation does to a failed domain. -/
theorem domainTransitions : Obligations.DomainTransitions := by
  refine ⟨fun s k hst hup hm hb => ?_, fun s k hst hw hm => ⟨fun hup htc hhalf => ?_, fun hk hup hoff hb => ?_, fun hup hlinks => ?_,
    fun i hup h13 h20 hi hact => ?_⟩, fun s k h2 h35 hf hm hst hslots => ?_⟩
  · obtain ⟨hon, hramp, -⟩ := running_domainPowerUpDone hst hup hm hb
    exact ⟨s.onDev (domainPowerUpDone k), rfl, hon, hramp, rfl⟩
  · have hgone := domainDrainDone_off hst hup hw hm htc hhalf
    exact ⟨s.onDev (domainDrainDone k), rfl, congrArg Dom.st hgone, congrArg Dom.ramp hgone, rfl⟩
  · exact congrArg (fun d => Host.Outcome.next { s with dev := d }) (domainDrainDone_halfBusy hk hoff hb)
  · have hgated := domainGated_gated hst hup hw hm (fun h13 h20 => by
      by_contra hact
      obtain ⟨i, hi, h⟩ := (groupActive_iff s.dev).mp (by simpa using hact)
      exact hlinks h13 h20 i hi h)
    exact ⟨s.onDev (domainGated k), rfl, hgated, rfl⟩
  · exact congrArg (fun d => Host.Outcome.next { s with dev := d })
      (domainGated_waits ⟨h13, h20⟩ ((groupActive_iff s.dev).mpr ⟨i, hi, hact⟩))
  · obtain ⟨hfail, hoff, -⟩ := dead_failDomain h2 h35 hf hm hst hslots
    refine ⟨failDomain k s, rfl, hfail, hoff, ?_⟩
    simp only [failDomain]
    (repeat' split) <;> rfl

end Sys2Proof.Machine
end

section
/-! PROOFS. O54: SPDM's negotiation, and the requests that need no session (R64, R71, R103, R476). -/

namespace Sys2Proof.Machine

variable (d : Dev)

/-- A command that changes the device alone ends in the state with the device it makes. -/
theorem next_onDev {s : State} {f : Dev → Dev} {e : Dev} (h : f s.dev = e) :
    (.next (s.onDev f) : Host.Outcome State Fault Refusal) = .next { s with dev := e } := by
  rw [State.onDev, h]

/-! ### Connections and answers -/

@[simp] theorem spdm_modSpdm (via : SpdmVia) (f : Spdm → Spdm) : (d.modSpdm via f).spdm via = f (d.spdm via) := by
  cases via with
  | doe p => simp [Dev.modSpdm, Dev.spdm]
  | mctp => rfl

@[simp] theorem out_modSpdm (via : SpdmVia) (f : Spdm → Spdm) : (d.modSpdm via f).out = d.out := by
  cases via <;> rfl

@[simp] theorem spdm_spdmAnswer (v via : SpdmVia) (code : Nat) (body : List Byte) : (d.spdmAnswer via code body).spdm v = d.spdm v := by
  cases v <;> rfl

@[simp] theorem out_spdmAnswer (via : SpdmVia) (code : Nat) (body : List Byte) :
    (d.spdmAnswer via code body).out = .spdm via.port code body :: d.out := rfl

/-- What a step of the negotiation leaves: its phase, and its answer. -/
theorem phase_answered {d e : Dev} {via : SpdmVia} {n code : Nat} {body : List Byte}
    (h : e = (d.modSpdm via (fun x => { x with phase := n })).spdmAnswer via code body) :
    e.spdm via = { d.spdm via with phase := n } ∧ e.out = .spdm via.port code body :: d.out := by
  subst h
  simp

theorem length_leBytes (n v : Nat) : (leBytes n v).length = n := by
  induction n generalizing v with
  | zero => rfl
  | succ n ih => simp [leBytes, ih]

/-! ### What a request has to meet before it runs -/

section
variable {d : Dev} {via : SpdmVia} {m : SpdmReq}

theorem negotiate_deaf (h : d.spdmHears via = false) (need : Nat) (f : Dev → Dev) : d.negotiate via m need f = d := by
  simp [Dev.negotiate, h]

theorem negotiate_early (h : d.spdmHears via = true) (hv : m.version = 0x13) {need : Nat} (hp : (d.spdm via).phase < need) (f : Dev → Dev) :
    d.negotiate via m need f = d.spdmError via 0x04 := by
  simp [Dev.negotiate, h, hv, hp]

theorem negotiate_due (h : d.spdmHears via = true) (hv : m.version = 0x13) {need : Nat} (hp : need ≤ (d.spdm via).phase) (f : Dev → Dev) :
    d.negotiate via m need f = f d := by
  simp [Dev.negotiate, h, hv, Nat.not_lt.mpr hp]

theorem spdmRun_deaf (h : d.spdmHears via = false) (shake : Bool) (f : Dev → Dev) : d.spdmRun via m shake f = d := by
  simp [Dev.spdmRun, h]

theorem spdmRun_unsigned (h : d.spdmHears via = true) (hs : d.bcol.signed = false) (shake : Bool) (f : Dev → Dev) :
    d.spdmRun via m shake f = d.spdmError via 0x03 := by
  simp [Dev.spdmRun, Dev.spdmBusy, h, hs]

/-- After the negotiation a request that came in no session runs. -/
theorem spdmRun_due (h : d.spdmHears via = true) (hs : d.bcol.signed = true) (hv : m.version = 0x13) (hp : 3 ≤ (d.spdm via).phase)
    (hn : m.session = none) (shake : Bool) (f : Dev → Dev) : d.spdmRun via m shake f = f d := by
  simp [Dev.spdmRun, Dev.spdmBusy, h, hs, negotiate_due h hv hp, Dev.inSession, hn]

end

/-! ### The requests after the negotiation -/

/-- The requests that need the negotiation to be complete. -/
def laterRequests (via : SpdmVia) (m : SpdmReq) : List Instr :=
  [.spdmGetDigests via m, .spdmGetCertificate via m, .spdmChallenge via m, .spdmGetMeasurements via m, .spdmKeyExchange via m,
    .spdmFinish via m, .spdmHeartbeat via m, .spdmKeyUpdate via m, .spdmEndSession via m]

/-- All of them pass the same checks before they run. -/
theorem exec_laterRequest {via : SpdmVia} {m : SpdmReq} {c : Instr} (h : c ∈ laterRequests via m) (s : State) :
    ∃ shake f, exec c s = .next (s.onDev (fun d => d.spdmRun via m shake f)) := by
  simp only [laterRequests, List.mem_cons, List.not_mem_nil, or_false] at h
  obtain rfl | rfl | rfl | rfl | rfl | rfl | rfl | rfl | rfl := h <;> exact ⟨_, _, rfl⟩

/-- A transport that is not heard changes nothing. -/
theorem exec_spdm_deaf {s : State} {via : SpdmVia} {m : SpdmReq} {c : Instr} (h : s.dev.spdmHears via = false)
    (hc : c ∈ [Instr.spdmGetVersion via m, .spdmGetCapabilities via m, .spdmNegotiateAlgorithms via m] ++ laterRequests via m) :
    exec c s = .next s := by
  obtain hc | hc := List.mem_append.mp hc
  · simp only [List.mem_cons, List.not_mem_nil, or_false] at hc
    obtain rfl | rfl | rfl := hc
    · exact next_onDev (f := spdmGetVersion via m) (by simp [spdmGetVersion, h])
    · exact next_onDev (f := spdmGetCapabilities via m) (negotiate_deaf h _ _)
    · exact next_onDev (f := spdmNegotiateAlgorithms via m) (negotiate_deaf h _ _)
  · obtain ⟨shake, f, hrun⟩ := exec_laterRequest hc s
    rw [hrun]
    exact next_onDev (spdmRun_deaf h shake f)

/-! ### Measurements (R71) -/

/-- The indices listed are the ones that are measured. -/
theorem measurement_isSome_iff (fuse : Fuses) (i : Nat) : (d.measurement fuse i).isSome = true ↔ i ∈ measureIdx := by
  simp only [Dev.measurement, measureIdx, List.mem_cons, List.not_mem_nil, or_false]
  split_ifs <;> simp_all

theorem measureBlocks_one (fuse : Fuses) {i : Nat} (h0 : i ≠ 0) (hall : i ≠ 0xFF) :
    d.measureBlocks fuse i = ((d.measurement fuse i).map (measureBlock i)).toList := by
  simp only [Dev.measureBlocks, if_neg h0, if_neg hall]
  cases h : d.measurement fuse i <;> simp [h]

/-- A request for one index, or for all of them, finds something to report. -/
theorem measureBlocks_ne_nil (fuse : Fuses) {op : Nat} (h0 : op ≠ 0) (h : op = 0xFF ∨ op ∈ measureIdx) : d.measureBlocks fuse op ≠ [] := by
  by_cases hall : op = 0xFF
  · subst hall
    exact List.cons_ne_nil _ _
  · obtain ⟨x, hx⟩ := Option.isSome_iff_exists.mp ((measurement_isSome_iff d fuse op).mpr (h.resolve_left hall))
    rw [measureBlocks_one d fuse h0 hall, hx]
    exact List.cons_ne_nil _ _

theorem measureBlocks_nil (fuse : Fuses) {op : Nat} (h0 : op ≠ 0) (hall : op ≠ 0xFF) (h : op ∉ measureIdx) : d.measureBlocks fuse op = [] := by
  rw [← measurement_isSome_iff d fuse, Option.not_isSome_iff_eq_none] at h
  rw [measureBlocks_one d fuse h0 hall, h]
  rfl

/-- Settles O54, from what a request has to meet before it runs (`negotiate_due`, `spdmRun_due` and their siblings). -/
theorem spdmNegotiation : Obligations.SpdmNegotiation := by
  intro s via m
  refine ⟨fun h c hc => exec_spdm_deaf h hc, fun h => ⟨fun hv => ?_, fun hv => ?_, fun hv => ⟨fun hp => ?_, fun hp => ?_, fun hp => ?_,
    fun hp => ?_⟩, fun hs c hc => ?_, fun hs hv hp hn => ?_⟩⟩
  · exact ⟨s.onDev (spdmGetVersion via m), rfl, rfl, phase_answered (by simp [spdmGetVersion, h, hv])⟩
  · exact next_onDev (f := spdmGetVersion via m) (by simp [spdmGetVersion, h, hv])
  · exact ⟨s.onDev (spdmGetCapabilities via m), _, rfl, rfl, phase_answered ((State.onDev_dev s _).trans (negotiate_due h hv hp _))⟩
  · exact next_onDev (f := spdmGetCapabilities via m) (negotiate_early h hv (Nat.lt_one_iff.mpr hp) _)
  · exact ⟨s.onDev (spdmNegotiateAlgorithms via m), _, rfl, rfl, phase_answered ((State.onDev_dev s _).trans (negotiate_due h hv hp _))⟩
  · exact next_onDev (f := spdmNegotiateAlgorithms via m) (negotiate_early h hv hp _)
  · obtain ⟨shake, f, hrun⟩ := exec_laterRequest hc s
    rw [hrun]
    exact next_onDev (spdmRun_unsigned h hs shake f)
  have hdue := spdmRun_due h hs hv hp hn false
  refine ⟨next_onDev (f := spdmGetDigests via m) (hdue _), fun h0 ho hl => ?_, fun h0 => ⟨?_, ?_⟩, fun h0 => ?_, fun hb h0 => ?_,
    fun h0 hall hno => ?_⟩
  · refine ⟨s.onDev (spdmGetCertificate via m), leBytes 2 0 ++ leBytes 2 (fieldAt m.body 2 2)
      ++ leBytes 2 (s.dev.spdmChain.length - fieldAt m.body 0 2 - fieldAt m.body 2 2), rfl, rfl, ?_, by simp [length_leBytes]⟩
    have hmin : min (fieldAt m.body 2 2) (s.dev.spdmChain.length - fieldAt m.body 0 2) = fieldAt m.body 2 2 := by omega
    rw [State.onDev_dev, spdmGetCertificate, hdue]
    simp only [h0, hmin, Nat.not_le.mpr ho, ne_eq, not_true_eq_false, or_self, if_false, out_spdmAnswer]
  · exact next_onDev (f := spdmGetCertificate via m) ((hdue _).trans (if_pos (.inl h0)))
  · exact next_onDev ((hdue _).trans (if_pos h0))
  · exact ⟨spdmChallenge via m s, _, rfl, rfl, (hdue _).trans (if_neg (by simp [h0]))⟩
  · refine ⟨spdmGetMeasurements via m s, _, rfl, rfl, (hdue _).trans (if_neg ?_)⟩
    rintro (⟨hne, hnil⟩ | ⟨hsig, -⟩)
    · exact measureBlocks_ne_nil s.dev s.fuse hne (h0.resolve_left hne) hnil
    · rw [hb] at hsig; cases hsig
  · exact next_onDev ((hdue _).trans (if_pos (.inl ⟨h0, measureBlocks_nil s.dev s.fuse h0 hall hno⟩)))

end Sys2Proof.Machine
end

section
/-! PROOFS. O1: POR_N asserted and released (R8, R36, R40, R74, R466). -/

namespace Sys2Proof.Machine

variable (d : Dev)

/-! ### POR_N asserted -/

/-- A module that stays in its slot has no power. -/
theorem pwren_powerCycle (k : Nat) : (d.powerCycle.slot k).pwren = false := by
  rw [Dev.slot, Tbl.get]
  cases h : Tbl.get? d.powerCycle.gl.slots k with
  | none => rfl
  | some x =>
    obtain ⟨y, -, hy⟩ := List.mem_map.mp (Tbl.mem_of_get? h)
    obtain ⟨-, rfl⟩ := Prod.mk.inj hy
    rfl

/-! ### Entering a mode: the mode left, and the domains held ON -/

theorem enterMode_prev {d : Dev} (m : Mode) (h : d.modes.mode ≠ .halted) : (d.enterMode m).modes.prev = d.modes.mode := by
  have hcol : ∀ x : Dev, x.applyColumn.modes.prev = x.modes.prev := fun x => by simp only [Dev.applyColumn, column_modes]
  simp only [Dev.enterMode, h, if_false, hcol, modeChanged_modes, Dev.ev_modes]

@[simp] theorem enterMode_pins (m : Mode) : (d.enterMode m).pins = d.pins := by
  have h := congrArg Dev.pins (butMode_enterMode d m)
  exact h

/-- A column that holds a domain ON leaves it ON. -/
theorem on_column {k : Nat} {m : Mode} (h : ∀ ps gl dr plan, domRule m ps gl dr plan k = .holdOn) :
    ColumnKeeps (fun x => x.st = .on) k m := by
  intro x hx hon
  have hrule : x.ruleOf k = .holdOn := by rw [Dev.ruleOf, hx, h]
  simp only [Dev.applyRule, hrule]
  rwa [powerOn_on hon]

/-- WDN and SB0 are held ON in AWAIT_IMAGE (Table 03-6). -/
theorem domRule_await {k : Nat} (h : k = 1 ∨ k = 34) (ps gl dr plan : Nat) : domRule .awaitImage ps gl dr plan k = .holdOn := by
  obtain rfl | rfl := h <;> rfl

/-! ### A port that starts -/

@[simp] theorem powerOn_boot (k : Nat) : (d.powerOn k).boot = d.boot := by
  have h := congrArg Dev.boot (butMode_powerOn d k)
  exact h

@[simp] theorem powerOn_pins (k : Nat) : (d.powerOn k).pins = d.pins := by
  have h := congrArg Dev.pins (butMode_powerOn d k)
  exact h

/-- The device that has noted when a port's training starts (R38, R472). -/
def Dev.portTimed (d : Dev) (p : Port) : Dev :=
  { d with boot := { d.boot with t0Port := d.boot.t0Port.ins p.num (max d.clk.ns64 ms12) } }

theorem startPort_held {d : Dev} {p : Port} (h : (d.pins.perst p || d.portOff p) = true) : d.startPort p = d := by
  simp only [Dev.startPort, h, if_true]

theorem startPort_due {d : Dev} {p : Port} (h : (d.pins.perst p || d.portOff p) = false) :
    d.startPort p = (d.portTimed p).powerOn (portDom p) := by
  simp only [Dev.startPort, h, Bool.false_eq_true, if_false]
  rfl

/-- A port that starts, or is held, changes its t0, its domain and no more of the boot, the pins, the mode and the domains. -/
theorem startPort_keeps (p : Port) : (∃ t, (d.startPort p).boot = { d.boot with t0Port := t }) ∧ (d.startPort p).pins = d.pins
    ∧ (d.startPort p).modes = d.modes ∧ ∀ k, k ≠ portDom p → (d.startPort p).dom k = d.dom k := by
  cases h : d.pins.perst p || d.portOff p with
  | true => rw [startPort_held h]; exact ⟨⟨_, rfl⟩, rfl, rfl, fun _ _ => rfl⟩
  | false =>
    rw [startPort_due h, powerOn_boot, powerOn_pins, powerOn_modes]
    exact ⟨⟨_, rfl⟩, rfl, rfl, fun _ hk => dom_powerOn_ne (d.portTimed p) hk⟩

/-- Both ports started one after the other keep as much as each does. -/
theorem startPorts_keep : (∃ t, ((d.startPort .a).startPort .b).boot = { d.boot with t0Port := t })
    ∧ ((d.startPort .a).startPort .b).pins = d.pins ∧ ((d.startPort .a).startPort .b).modes = d.modes
    ∧ ∀ k, k ≠ 3 → k ≠ 4 → ((d.startPort .a).startPort .b).dom k = d.dom k := by
  obtain ⟨⟨ta, hbootA⟩, hpinsA, hmodesA, hdomA⟩ := startPort_keeps d .a
  obtain ⟨⟨tb, hbootB⟩, hpinsB, hmodesB, hdomB⟩ := startPort_keeps (d.startPort .a) .b
  refine ⟨⟨tb, by rw [hbootB, hbootA]⟩, hpinsB.trans hpinsA, hmodesB.trans hmodesA, fun k h3 h4 => ?_⟩
  exact (hdomB k h4).trans (hdomA k h3)

/-! ### POR_N released -/

/-- What the release of POR_N samples and measures, with WDN and SB0 up, before a mode is entered. -/
def Dev.released (d : Dev) (straps : BitVec 4) : Dev :=
  let cdi := Config.hmac384 Config.uds (digestBytes Config.romDigest)
  let d := { d with
    pins := { d.pins with por := false, straps := straps }
    boot := { d.boot with mRom := some Config.romDigest, cdi0 := some cdi, devId := Config.sha384 (Config.deviceIdKeys cdi) } }
  (d.modDom 1 (fun _ => .on)).modDom 34 (fun _ => .on)

theorem porNDeassert_eq {d : Dev} (h : d.pins.por = true) (straps : BitVec 4) :
    porNDeassert straps d = ((d.released straps).enterAwait.startPort .a).startPort .b := by
  simp only [porNDeassert, h, Bool.not_true, Bool.false_eq_true, if_false]
  rfl

/-- AWAIT_IMAGE entered after the release: the window runs, and WDN and SB0 are ON. -/
theorem enterAwait_released (straps : BitVec 4) (h : d.modes.mode = .off) :
    (d.released straps).enterAwait.modes.mode = .awaitImage ∧ (d.released straps).enterAwait.modes.prev = .off
    ∧ ∀ k, k = 1 ∨ k = 34 → ((d.released straps).enterAwait.dom k).st = .on := by
  have hmode : (d.released straps).modes.mode = .off := h
  have hon : ∀ k, k = 1 ∨ k = 34 → ((d.released straps).dom k).st = .on := by
    rintro k (rfl | rfl)
    · rw [Dev.released, Dev.dom_modDom_ne _ _ (by decide), Dev.dom_modDom]; rfl
    · rw [Dev.released, Dev.dom_modDom]; rfl
  refine ⟨enterMode_mode _ _ (by simp [hmode]), (enterMode_prev _ (by simp [hmode])).trans hmode, fun k hk => ?_⟩
  exact (on_column (domRule_await hk)).enterMode (hon k hk)

/-- Settles O1, from what the power cycle leaves and what the entry to AWAIT_IMAGE and the ports' start keep. -/
theorem powerOnReset : Obligations.PowerOnReset := by
  refine ⟨fun s => ⟨s.onDev porNAssert, rfl, rfl, rfl, rfl, rfl, rfl, rfl, fun k hk => reset_dom_off (Nat.ne_of_gt hk), fun _ => rfl,
    rfl, rfl, rfl, rfl, rfl, rfl, pwren_powerCycle s.dev⟩, fun s st hpor hoff => ?_⟩
  obtain ⟨hmode, hprev, hon⟩ := enterAwait_released s.dev st hoff
  have hbootAwait : (s.dev.released st).enterAwait.boot = { (s.dev.released st).boot with windowNs64 := some windowFull } := enterMode_boot _ _
  have hpinsAwait : (s.dev.released st).enterAwait.pins = (s.dev.released st).pins := enterMode_pins _ _
  obtain ⟨⟨t, hboot⟩, hpins, hmodes, hdom⟩ := startPorts_keep (s.dev.released st).enterAwait
  refine ⟨s.onDev (porNDeassert st), rfl, rfl, rfl, ?_⟩
  rw [State.onDev_dev, porNDeassert_eq hpor, hpins, hpinsAwait, hmodes, hboot, hbootAwait, hdom 1 (by decide) (by decide),
    hdom 34 (by decide) (by decide)]
  exact ⟨rfl, rfl, hmode, hprev, rfl, hon 1 (.inl rfl), hon 34 (.inr rfl), rfl⟩

end Sys2Proof.Machine
end

section
/-! PROOFS. O3: the host ports' resets and links (R22, R26, R37, R38, R94). -/

namespace Sys2Proof.Machine

variable (d : Dev)

/-! ### PERST released -/

@[simp] theorem perst_setPerst (p : Port) (v : Bool) : (d.setPerst p v).pins.perst p = v := by cases p <;> rfl

@[simp] theorem portOff_setPerst (p : Port) (v : Bool) : (d.setPerst p v).portOff p = d.portOff p := by cases p <;> rfl

@[simp] theorem setPerst_por (p : Port) (v : Bool) : (d.setPerst p v).pins.por = d.pins.por := by cases p <;> rfl

/-- PERST released on a part that runs starts the port. -/
theorem perstDeassert_due {d : Dev} {p : Port} (h : d.pins.perst p = true) (hpor : d.pins.por = false) (hoff : d.portOff p = false) :
    perstDeassert p d = ((d.setPerst p false).portTimed p).powerOn (portDom p) := by
  have hrun : perstDeassert p d = (d.setPerst p false).startPort p := by simp [perstDeassert, h, hpor]
  rw [hrun, startPort_due (by simp [hoff])]

/-- The domain of a port whose PERST is released ramps, or waits for a ramp (R22). -/
theorem dom_perstDeassert {d : Dev} {p : Port} (h : d.pins.perst p = true) (hpor : d.pins.por = false) (hoff : d.portOff p = false)
    (hf : (d.dom (portDom p)).failed = false) (hst : (d.dom (portDom p)).st = .off) (hw : (d.dom (portDom p)).wait = false) :
    (perstDeassert p d).dom (portDom p) = d.rampDom (d.dom (portDom p)) := by
  rw [perstDeassert_due h hpor hoff, powerOn_off (d := (d.setPerst p false).portTimed p) hst hw hf, dom_startRamp_same]
  rfl

/-! ### What a port's pin and state see of the other operations -/

/-- The pins, and the host ports. -/
def Dev.portSide (d : Dev) : Pins × Tbl HPort := (d.pins, d.ports)

theorem pins_of_portSide {a b : Dev} (h : a.portSide = b.portSide) : a.pins = b.pins := congrArg Prod.fst h
theorem hport_of_portSide {a b : Dev} (h : a.portSide = b.portSide) (p : Port) : a.hport p = b.hport p := by
  have hports : a.ports = b.ports := congrArg Prod.snd h
  rw [Dev.hport, Dev.hport, hports]

theorem portSide_of_host {a b : Dev} (h : a.butHost = b.butHost) : a.portSide = b.portSide := by
  have hs := congrArg Dev.portSide h
  exact hs
theorem portSide_of_mode {a b : Dev} (h : a.butMode = b.butMode) : a.portSide = b.portSide := by
  have hs := congrArg Dev.portSide h
  exact hs
theorem portSide_of_slots {a b : Dev} (h : a.butSlots = b.butSlots) : a.portSide = b.portSide := by
  have hs := congrArg Dev.portSide h
  exact hs
theorem portSide_of_drop {a b : Dev} (h : a.butDrop = b.butDrop) : a.portSide = b.portSide := by
  have hs := congrArg Dev.portSide h
  exact hs

@[simp] theorem portSide_ev (c i : Nat) (l : List PField) : (d.ev c i l).portSide = d.portSide := portSide_of_host (butHost_ev d c i l)
@[simp] theorem portSide_modBox (p : Port) (f : Kmb → Kmb) : (d.modBox p f).portSide = d.portSide := rfl
@[simp] theorem portSide_modFn (n : Fn) (f : FnSt → FnSt) : (d.modFn n f).portSide = d.portSide := rfl
@[simp] theorem portSide_modSlot (k : Nat) (f : CSlot → CSlot) : (d.modSlot k f).portSide = d.portSide := rfl
@[simp] theorem portSide_modDom (k : Nat) (f : Dom → Dom) : (d.modDom k f).portSide = d.portSide := rfl
@[simp] theorem portSide_loseRegs (k : Nat) : (d.loseRegs k).portSide = d.portSide := rfl
@[simp] theorem portSide_discardCpl (s : CSlot) : (d.discardCpl s).portSide = d.portSide := rfl
@[simp] theorem portSide_freeSlot (cs : Nat) : (d.freeSlot cs).portSide = d.portSide := portSide_of_host (butHost_freeSlot d cs)
@[simp] theorem portSide_dropWork (cs : Nat) : (d.dropWork cs).portSide = d.portSide := portSide_of_drop (butDrop_dropWork d cs)
@[simp] theorem portSide_kmbSignal (p : Port) : (d.kmbSignal p).portSide = d.portSide := portSide_of_host (butHost_kmbSignal d p)
@[simp] theorem portSide_enterMode (m : Mode) : (d.enterMode m).portSide = d.portSide := portSide_of_mode (butMode_enterMode d m)
@[simp] theorem portSide_powerSlots : d.powerSlots.portSide = d.portSide := portSide_of_slots (butSlots_powerSlots d)
@[simp] theorem butMode_nextRamp : d.nextRamp.butMode = d.butMode := by
  simp only [Dev.nextRamp]; (repeat' split) <;> simp
@[simp] theorem portSide_nextRamp : d.nextRamp.portSide = d.portSide := portSide_of_mode (butMode_nextRamp d)
@[simp] theorem portSide_withBoot (b : Boot) : Dev.portSide { d with boot := b } = d.portSide := rfl
@[simp] theorem portSide_withClk (c : Clk) : Dev.portSide { d with clk := c } = d.portSide := rfl
@[simp] theorem portSide_switchRef (p : Port) : (d.switchRef p).portSide = d.portSide := by simp [Dev.switchRef]
@[simp] theorem portSide_bootRef (p : Port) : (d.bootRef p).portSide = d.portSide := by
  simp only [Dev.bootRef]; (repeat' split) <;> simp
@[simp] theorem portSide_takeBootPort (p : Port) : (d.takeBootPort p).portSide = d.portSide := by
  simp only [Dev.takeBootPort]; split <;> simp
@[simp] theorem portSide_passRole (p : Port) : (d.passRole p).portSide = d.portSide := by
  simp only [Dev.passRole]; split <;> simp
@[simp] theorem portSide_kmbEnd (p : Port) (st dt : Nat) (r : List Byte) : (d.kmbEnd p st dt r).portSide = d.portSide := by
  simp only [Dev.kmbEnd]; (repeat' split) <;> simp
@[simp] theorem portSide_abortLoading (p : Port) : (d.abortLoading p).portSide = d.portSide := by
  simp only [Dev.abortLoading]; split <;> simp
@[simp] theorem portSide_bootPortReset (p : Port) : (d.bootPortReset p).portSide = d.portSide := by
  simp only [Dev.bootPortReset]; (repeat' split) <;> simp

/-- A port's domain that goes OFF loses its registers alone. -/
theorem portSide_domOff (p : Port) : (d.domOff (portDom p)).portSide = d.portSide := by
  have hlose : ∀ x : Dev, x.loseDom (portDom p) = x.loseRegs (portDom p) := fun x => by cases p <;> rfl
  simp [Dev.domOff, hlose]

/-! ### The functions of a port that goes down -/

@[simp] theorem portSide_endSlot (cs : Nat) : (d.endSlot cs).portSide = d.portSide := by
  simp only [Dev.endSlot]; (repeat' split) <;> simp
@[simp] theorem portSide_endFn (f : Fn) : (d.endFn f).portSide = d.portSide := by
  refine (foldl_keeps Dev.portSide _ portSide_endSlot _ _).trans ?_
  rfl
@[simp] theorem portSide_cfgReset (f : Fn) : (d.cfgReset f).portSide = d.portSide := by
  simp only [Dev.cfgReset]; split <;> simp

/-- A port's functions in their configuration-reset state: of the port, VF enable and the number of VFs are gone. -/
theorem resetPortFns_eq (p : Port) :
    ∃ x : Dev, x.portSide = d.portSide ∧ d.resetPortFns p = x.modPort p (fun h => { h with vfEn := false, numVfs := 0 }) :=
  ⟨_, foldl_keeps Dev.portSide Dev.cfgReset portSide_cfgReset _ d, rfl⟩

theorem portDown_keeps (p : Port) : (d.portDown p).hport p = { HPort.reset with ana := (d.hport p).ana } ∧ (d.portDown p).pins = d.pins := by
  simp only [Dev.portDown]
  generalize hx : (if (d.hport p).dl = true then _ else d) = x
  have hside : x.portSide = d.portSide := by
    rw [← hx]
    split
    · exact portSide_ev d _ _ _
    · rfl
  obtain ⟨y, hy, hreset⟩ := resetPortFns_eq x p
  have hpins : y.pins = d.pins := pins_of_portSide (hy.trans hside)
  rw [hreset, Dev.hport_modPort, Dev.hport_modPort, hport_of_portSide (hy.trans hside)]
  exact ⟨rfl, hpins⟩

/-! ### PERST asserted -/

theorem perstAssert_due {d : Dev} {p : Port} (h : d.pins.perst p = false) (hm : d.modes.mode ≠ .off) (hoff : d.portOff p = false) :
    perstAssert p d = (((d.setPerst p true).portDown p).bootPortReset p).domOff (portDom p) := by
  have hmode : (d.setPerst p true).modes.mode ≠ .off := hm
  simp [perstAssert, h, hmode, hoff]

theorem perstAssert_keeps {d : Dev} {p : Port} (h : d.pins.perst p = false) (hm : d.modes.mode ≠ .off) (hoff : d.portOff p = false) :
    (perstAssert p d).pins.perst p = true ∧ ((perstAssert p d).hport p).dl = false ∧ ((perstAssert p d).dom (portDom p)).st = .off := by
  obtain ⟨hport, hpins⟩ := portDown_keeps (d.setPerst p true) p
  have hside : (perstAssert p d).portSide = ((d.setPerst p true).portDown p).portSide := by
    rw [perstAssert_due h hm hoff, portSide_domOff, portSide_bootPortReset]
  rw [pins_of_portSide hside, hport_of_portSide hside, hpins, hport]
  refine ⟨perst_setPerst d p true, rfl, ?_⟩
  rw [perstAssert_due h hm hoff, (dom_domOff (fun h9 => absurd h9 (by cases p <;> decide))).1]
  rfl

/-! ### A link that comes up -/

/-- The device with a link up, before the boot port role is looked at. -/
def Dev.portUp (d : Dev) (p : Port) (rate width : Nat) (flit : Bool) : Dev :=
  let h := d.hport p
  let d := (d.modDom (portDom p) (fun x => { x with st := .on, up := .on, ramp := false, wait := false, want := false })).nextRamp
  let d := d.modPort p (fun h => { h with dl := true, rate := rate, width := width, flit := flit })
  let d := if h.dl then d else d.ev evHpcLinkUp p.num [.num 1 p.num, .num 1 rate, .num 1 width]
  if h.optimized = (d.hport p).optimized then d else d.anaChanged p

theorem linkDlActive_due {d : Dev} {p : Port} (rate width : Nat) (flit : Bool) (hm : d.modes.mode ≠ .off) (h : d.pins.perst p = false)
    (hoff : d.portOff p = false) : linkDlActive p rate width flit d = (d.portUp p rate width flit).takeBootPort p := by
  have hup : ¬(d.modes.mode = .off ∨ d.pins.perst p = true ∨ d.portOff p = true) := by simp [hm, h, hoff]
  exact if_neg hup

/-- An ANA change counts in the port's state, and is told to its controllers. -/
theorem anaChanged_keeps (p : Port) : (d.anaChanged p).hport p = { d.hport p with ana := (d.hport p).ana + 1 }
    ∧ (d.anaChanged p).boot = d.boot ∧ (d.anaChanged p).clk = d.clk := by
  have hframe := butHost_aenAll (d.modPort p (fun h => { h with ana := h.ana + 1 })) aeAna none (fun f => decide (f.port = p))
  have hboot := congrArg Dev.boot hframe
  have hclk := congrArg Dev.clk hframe
  refine ⟨?_, hboot, hclk⟩
  rw [Dev.anaChanged, hport_of_portSide (portSide_of_host hframe), Dev.hport_modPort]

/-- A link that comes up: the boot and the clock are as they were, and the port shows what was trained. -/
theorem portUp_keeps (p : Port) (rate width : Nat) (flit : Bool) :
    (d.portUp p rate width flit).boot = d.boot ∧ (d.portUp p rate width flit).clk = d.clk
    ∧ ∃ n, (d.portUp p rate width flit).hport p = { d.hport p with dl := true, rate := rate, width := width, flit := flit, ana := n } := by
  simp only [Dev.portUp]
  generalize hx : Dev.nextRamp _ = x
  have hmode : x.butMode = d.butMode := by rw [← hx, butMode_nextRamp]; rfl
  have hboot : x.boot = d.boot := by have h := congrArg Dev.boot hmode; exact h
  have hclk : x.clk = d.clk := by have h := congrArg Dev.clk hmode; exact h
  have hport := hport_of_portSide (portSide_of_mode hmode) p
  generalize hy : (if (d.hport p).dl = true then _ else Dev.ev _ _ _ _) = y
  have hyall : y.boot = d.boot ∧ y.clk = d.clk ∧ y.hport p = { d.hport p with dl := true, rate := rate, width := width, flit := flit } := by
    rw [← hy]
    split <;> simp [hboot, hclk, hport]
  obtain ⟨hbooty, hclky, hporty⟩ := hyall
  obtain ⟨hporta, hboota, hclka⟩ := anaChanged_keeps y p
  split
  · exact ⟨hbooty, hclky, _, hporty⟩
  · rw [hboota, hclka, hporta, hporty]
    exact ⟨hbooty, hclky, _, rfl⟩

/-! ### The boot port -/

theorem takeBootPort_held {d : Dev} {p : Port} (h : d.boot.port.isSome = true) : d.takeBootPort p = d := if_pos h

@[simp] theorem bootRef_boot (p : Port) : (d.bootRef p).boot = d.boot := by
  have hswitch : ∀ q, (d.switchRef q).boot = d.boot := fun q => Dev.ev_boot _ _ _ _
  simp only [Dev.bootRef]
  (repeat' split) <;> simp [hswitch]

/-- The boot port's reference is selected, unless it is lost. -/
theorem clk_bootRef {d : Dev} {p : Port} (hb : d.clk.refSel = .boot) (hl : d.clk.lost p = false) :
    (d.bootRef p).clk.refSel = p.ref ∧ (d.bootRef p).clk.holdover = false := by
  have hrun : d.bootRef p = d.switchRef p := by simp [Dev.bootRef, hb, hl]
  rw [hrun, clk_switchRef]
  exact ⟨rfl, rfl⟩

/-- The first port to come up takes the boot port role. -/
theorem takeBootPort_free {d : Dev} {p : Port} (h : d.boot.port = none) : (d.takeBootPort p).boot.port = some p
    ∧ (d.clk.refSel = .boot → d.clk.lost p = false →
      (d.takeBootPort p).clk.refSel = p.ref ∧ (d.takeBootPort p).clk.holdover = false) := by
  have hrun : ∃ b : Boot, b.port = some p ∧ d.takeBootPort p = ({ d with boot := b } : Dev).bootRef p :=
    ⟨_, rfl, if_neg (by simp [h])⟩
  obtain ⟨b, hb, hrun⟩ := hrun
  rw [hrun, bootRef_boot]
  exact ⟨hb, fun href hl => clk_bootRef (d := { d with boot := b }) href hl⟩

/-- Settles O3, from what PERST, a link up, the boot port role and a port's end leave of the port, its domain and the boot. -/
theorem hostPorts : Obligations.HostPorts := by
  refine ⟨fun s p => ⟨fun h hpor hoff hf hst hw => ?_, fun h hm hoff => ⟨s.onDev (perstAssert p), rfl, perstAssert_keeps h hm hoff⟩⟩,
    fun s p => ⟨fun rate width flit hm h hoff => ?_, fun h => ?_⟩⟩
  · have hdom := dom_perstDeassert h hpor hoff hf hst hw
    refine ⟨s.onDev (perstDeassert p), rfl, ?_⟩
    rw [State.onDev_dev, hdom, perstDeassert_due h hpor hoff, powerOn_pins, powerOn_boot, Dev.rampDom]
    refine ⟨perst_setPerst s.dev p false, Tbl.get?_ins_same _ _ _, ?_, fun k hk => dom_powerOn_ne _ hk⟩
    split
    · exact ⟨rfl, rfl⟩
    · rfl
  · obtain ⟨hboot, hclk, n, hport⟩ := portUp_keeps s.dev p rate width flit
    refine ⟨s.onDev (linkDlActive p rate width flit), rfl, ?_⟩
    rw [State.onDev_dev, linkDlActive_due rate width flit hm h hoff, hport_of_portSide (portSide_takeBootPort _ p), hport]
    refine ⟨rfl, rfl, rfl, rfl, fun hheld => ?_, fun hfree => ?_⟩
    · rw [takeBootPort_held (by rwa [hboot])]
      exact ⟨hboot, hclk⟩
    · have hfirst := takeBootPort_free (p := p) (hboot ▸ hfree)
      rwa [hclk] at hfirst
  · refine ⟨s.onDev (surpriseLinkDown p), rfl, ?_⟩
    rw [State.onDev_dev, surpriseLinkDown, if_pos h]
    exact (portDown_keeps s.dev p).1

end Sys2Proof.Machine
end

section
/-! PROOFS. O10: the entry to IDLE, and the power states taken autonomously (R74, R79, R81, R110). -/

namespace Sys2Proof.Machine

variable (d : Dev)

/-! ### The mode's state under the sequencer's operations -/

/-- The device with its mode's state replaced. -/
def Dev.withModes (d : Dev) (m : Modes) : Dev := { d with modes := m }

theorem ne_of_servingMode {m n : Mode} (h : servingMode m = true) (hn : servingMode n = false) : m ≠ n := by
  rintro rfl
  rw [h] at hn
  cases hn

/-- A column that is applied changes the list of what has yet to settle, and no more of the mode's state. -/
theorem applyColumn_modes : ∃ l, d.applyColumn.modes = { d.modes with settle := l } :=
  ⟨_, by rw [Dev.applyColumn, column_modes]⟩

/-- What entering a mode leaves of the mode's state (R74). -/
theorem enterMode_modes {d : Dev} (m : Mode) (h : d.modes.mode ≠ .halted) :
    ∃ l, (d.enterMode m).modes = { d.modes with mode := m, prev := d.modes.mode, idleEntry := false, settle := l } := by
  simp only [Dev.enterMode, h, if_false]
  refine (applyColumn_modes _).imp fun l hl => hl.trans ?_
  rw [modeChanged_modes, Dev.ev_modes]

/-- Outside the serving modes a condition changes the conditions word alone. -/
theorem setCond_modes {d : Dev} (h : servingMode d.modes.mode = false) (i : Nat) (v : Bool) :
    ∃ c, (d.setCond i v).modes = { d.modes with cond := c } := by
  obtain hs | ⟨c, hs⟩ := sequencer_setCond d i v
  · exact ⟨_, modes_of_sequencer hs⟩
  · rw [decideServing_notServing (d := d.withCond c) h] at hs
    exact ⟨c, modes_of_sequencer hs⟩

@[simp] theorem askAllLowPower_modes : d.askAllLowPower.modes = d.modes :=
  foldl_keeps Dev.modes _ (fun x _ => askLowPower_modes x _) _ d

/-! ### The entry starts -/

@[simp] theorem butWork_suspendDie (s k : Nat) : (d.suspendDie s k).butWork = d.butWork := by
  simp only [Dev.suspendDie]
  split <;> simp

/-- The erases suspended at the entry are work; the rest of the device sees the entry alone (R79). -/
theorem butWork_idleEntry {d : Dev} (h : servingMode d.modes.mode = true) (he : d.modes.idleEntry = false) (hps : 3 ≤ d.modes.selPs)
    (hout : d.cmdsOutstanding = false) (hset : d.modes.settle = []) :
    (idleEntry d).butWork = (d.withModes { d.modes with idleEntry := true }).butWork := by
  have htrans : d.inTransition = false := by simp [Dev.inTransition, he, hset]
  simp only [idleEntry, h, he, hout, htrans, Nat.not_lt.mpr hps, decide_false, Bool.not_true, Bool.or_self, Bool.false_eq_true, if_false]
  refine foldl_keeps Dev.butWork _ (fun x y => ?_) _ _
  split
  · exact butWork_suspendDie x _ _
  · rfl

theorem modes_of_work {a b : Dev} (h : a.butWork = b.butWork) : a.modes = b.modes := modes_of_sequencer (sequencer_of_work h)
theorem hg_of_work {a b : Dev} (h : a.butWork = b.butWork) : a.hg = b.hg := by
  have hs := congrArg Dev.hg h
  exact hs

theorem idleEntry_outstanding {d : Dev} (h : d.cmdsOutstanding = true) : idleEntry d = d := by
  simp [idleEntry, h]

/-! ### The entry ends -/

/-- The device in IDLE, with the selected state in force and the domains to restore at its end noted (R79). -/
def Dev.idled (d : Dev) (up : List Nat) : Dev :=
  ((d.withModes { d.modes with hostPs := d.modes.selPs, before := up }).enterMode .idle).askAllLowPower

theorem idled_modes {d : Dev} (h : d.modes.mode ≠ .halted) (up : List Nat) : ∃ l, (d.idled up).modes = { d.modes with
    mode := .idle, prev := d.modes.mode, hostPs := d.modes.selPs, before := up, idleEntry := false, settle := l } := by
  rw [Dev.idled, askAllLowPower_modes]
  exact enterMode_modes .idle h

theorem idleEntryComplete_due {d : Dev} (h : servingMode d.modes.mode = true) (he : d.modes.idleEntry = true)
    (hp : d.progInFlight = false) : ∃ up, idleEntryComplete d
      = if (d.idled up).cond 4 && !(d.idled up).permissive then (d.idled up).setCond 10 true else d.idled up :=
  ⟨_, if_neg (by simp [h, he, hp])⟩

/-- The entry to IDLE that ends: a rebuild that pauses sets a condition alone (R81). -/
theorem idleEntryComplete_modes {d : Dev} (h : servingMode d.modes.mode = true) (he : d.modes.idleEntry = true)
    (hp : d.progInFlight = false) :
    ∃ up l c, (idleEntryComplete d).modes = { d.modes with
      mode := .idle, prev := d.modes.mode, hostPs := d.modes.selPs, before := up, idleEntry := false, settle := l, cond := c } := by
  obtain ⟨up, hdue⟩ := idleEntryComplete_due h he hp
  obtain ⟨l, hmodes⟩ := idled_modes (ne_of_servingMode h rfl) up
  rw [hdue]
  split
  · obtain ⟨c, hc⟩ := setCond_modes (d := d.idled up) (by rw [hmodes]; rfl) 10 true
    exact ⟨up, l, c, by rw [hc, hmodes]⟩
  · exact ⟨up, l, d.modes.cond, hmodes⟩

theorem idleEntryComplete_programming {d : Dev} (h : d.progInFlight = true) : idleEntryComplete d = d := by
  simp [idleEntryComplete, h]

/-! ### Autonomous transitions -/

/-- An autonomous transition that its table names selects PS3 or PS4 (R79, R110). -/
theorem apstTransition_due {d : Dev} {ps : Nat} (hps : ps = 3 ∨ ps = 4) (hm : hostMode d.modes.mode = true)
    (hen : bitOf (d.adm.feats.get 0 0x0C).toNat 0 = true) (hto : (d.apstEntry d.modes.selPs).1 = ps)
    (htime : (d.apstEntry d.modes.selPs).2 ≠ 0) : apstTransition ps d = d.selectIdle ps := by
  have hsel : ¬ps ≤ 2 := by omega
  have hidle : (decide (ps = 3) || decide (ps = 4)) = true := by simpa using hps
  refine (if_pos ?_).trans (if_neg hsel)
  simp only [hm, hen, hto, hidle, decide_true, Bool.and_self, Bool.true_and, decide_eq_true_eq]
  exact htime

/-- In IDLE the state selected is in force at once (R79). -/
theorem selectIdle_idle {d : Dev} (ps : Nat) (h : d.modes.mode = .idle) (hl : d.modes.leaving = false) :
    ∃ l, (d.selectIdle ps).modes = { d.modes with selPs := ps, hostPs := ps, settle := l } := by
  simp only [Dev.selectIdle]
  rw [if_pos (by simp [h, hl])]
  exact applyColumn_modes _

theorem selectIdle_notIdle {d : Dev} (ps : Nat) (h : d.modes.mode ≠ .idle) :
    d.selectIdle ps = { d with modes := { d.modes with selPs := ps } } := by
  simp [Dev.selectIdle, h]

/-- Settles O10, from what each end of the entry to IDLE leaves of the mode's state, and from what a selection of PS3 or PS4 does. -/
theorem idleAndPowerStates : Obligations.IdleAndPowerStates := by
  refine ⟨fun s hs => ⟨fun he hps hout hset => ?_, fun hout => ?_, fun he hp => ?_, fun _ hp => ?_⟩,
    fun s ps hps hen hto htime => ⟨fun hs => ?_, fun hi hl => ?_⟩⟩
  · have hwork := butWork_idleEntry hs he hps hout hset
    have hmodes := modes_of_work hwork
    have hpwr := pwr_of_sequencer (sequencer_of_work hwork)
    have hhg := hg_of_work hwork
    refine ⟨s.onDev idleEntry, rfl, hmodes, ?_, hpwr, hhg, rfl⟩
    rw [State.onDev_dev, Dev.inTransition, hmodes]
    exact Bool.or_true _
  · exact next_onDev (idleEntry_outstanding hout)
  · obtain ⟨up, l, c, hmodes⟩ := idleEntryComplete_modes hs he hp
    refine ⟨s.onDev idleEntryComplete, rfl, ?_⟩
    rw [State.onDev_dev, hmodes]
    exact ⟨rfl, rfl, rfl, rfl, rfl⟩
  · exact next_onDev (idleEntryComplete_programming hp)
  · have hdue := apstTransition_due hps (by simp [hostMode, hs]) hen hto htime
    exact next_onDev (hdue.trans (selectIdle_notIdle ps (ne_of_servingMode hs rfl)))
  · obtain ⟨l, hmodes⟩ := selectIdle_idle ps hi hl
    refine ⟨s.onDev (apstTransition ps), rfl, ?_⟩
    rw [State.onDev_dev, apstTransition_due hps (by simp [hostMode, hi]) hen hto htime, hmodes]
    exact ⟨hi, rfl, rfl, rfl⟩

end Sys2Proof.Machine
end

section
/-! PROOFS. O14: conditions that clear by their timers, and the capacitor test (R77, R186, R381, R392, R393). -/

namespace Sys2Proof.Machine

variable (d : Dev)

/-! ### A condition set or cleared -/

theorem enterMode_cond (m : Mode) (i : Nat) : (d.enterMode m).cond i = d.cond i := by
  by_cases h : d.modes.mode = .halted
  · rw [enterMode_halted d m h]
  · obtain ⟨l, hl⟩ := enterMode_modes m h
    simp [Dev.cond, hl]

theorem decideServing_cond (i : Nat) : d.decideServing.cond i = d.cond i := by
  simp only [Dev.decideServing]
  split
  · exact enterMode_cond d _ i
  · rfl

/-- A condition that changes: its bit of the conditions word does, and the serving mode is decided again (R76, R77). -/
theorem setCond_changed {d : Dev} {i : Nat} {v : Bool} (h : d.cond i ≠ v) : (d.setCond i v).modes = (d.withCond
    (if v then d.modes.cond ||| BitVec.ofNat 12 (2 ^ i) else d.modes.cond &&& ~~~ BitVec.ofNat 12 (2 ^ i))).decideServing.modes := by
  refine modes_of_sequencer ?_
  simp only [Dev.setCond, h, if_false, Dev.withCond]
  (repeat' split) <;> simp

/-- A condition reads what it was set to. -/
theorem cond_setCond {i : Nat} (hi : i < 12) (v : Bool) : (d.setCond i v).cond i = v := by
  by_cases h : d.cond i = v
  · rwa [Dev.setCond, if_pos h]
  · rw [Dev.cond, setCond_changed h]
    refine (decideServing_cond _ i).trans ?_
    cases v
    · simp only [Dev.cond, Dev.withCond, Bool.false_eq_true, if_false, BitVec.getLsbD_and, BitVec.getLsbD_not, BitVec.getLsbD_ofNat, hi,
        decide_true, Bool.true_and, Nat.testBit_two_pow_self, Bool.not_true, Bool.and_false]
    · simp only [Dev.cond, Dev.withCond, if_true, BitVec.getLsbD_or, BitVec.getLsbD_ofNat, hi, decide_true, Bool.true_and,
        Nat.testBit_two_pow_self, Bool.or_true]

theorem slu_setCond (i : Nat) (v : Bool) : (d.setCond i v).slu = d.slu := by
  have h := congrArg Dev.slu (butCond_setCond d i v)
  exact h

theorem quires_setCond (i : Nat) (v : Bool) : (d.setCond i v).quires = d.quires := by
  have h := congrArg Dev.quires (butCond_setCond d i v)
  exact h

/-! ### What the end of a test leaves of the bank's state and the ceiling -/

/-- The state of the hold-up bank's test, and the dirty ceiling. -/
def Dev.holdUp (d : Dev) : Hu × Nat := (d.hu, d.tc.ceiling)

theorem holdUp_setCond (i : Nat) (v : Bool) : (d.setCond i v).holdUp = d.holdUp := by
  have h := congrArg Dev.holdUp (butCond_setCond d i v)
  exact h

theorem holdUp_closeRow (f : Nat) : (d.closeRow f).holdUp = d.holdUp := by
  simp only [Dev.closeRow]
  (repeat' split) <;> rfl

theorem holdUp_ev (c i : Nat) (l : List PField) : (d.ev c i l).holdUp = d.holdUp := by
  have h := congrArg Dev.holdUp (butLog_ev d c i l)
  exact h

/-- The ceiling set reads back, and the test's state is left alone (R170, R393). -/
theorem holdUp_setCeiling (mib : Nat) : (d.setCeiling mib).holdUp = (d.hu, mib) := by
  have hdrain : ∀ (x : Dev) b, Dev.holdUp { x with tc := { x.tc with draining := b } } = x.holdUp := fun _ _ => rfl
  simp only [Dev.setCeiling]
  split
  · rw [holdUp_ev, hdrain, foldl_keeps Dev.holdUp _ holdUp_closeRow, holdUp_setCond]
    rfl
  · rw [hdrain, holdUp_setCond]
    rfl

theorem holdUp_promiseEval : d.promiseEval.holdUp = d.holdUp := by
  simp only [Dev.promiseEval]
  split
  · rfl
  · exact holdUp_ev _ _ _ _

/-- A test that no command waits for ends in the test's state alone. -/
theorem endTest_eq {d : Dev} (h : d.hu.waiters = []) (result : Nat) :
    d.endTest result = { d with hu := { d.hu with busy := false, result := result } } := by
  simp only [Dev.endTest, h, List.foldl_nil]

/-! ### The outcomes of a test -/

/-- The result of a test that measured (R392): the ESR past its limit, the capacitance below its floor, or neither. -/
def Dev.huResult (d : Dev) (esr c : Nat) : Nat :=
  if d.hbank 30 2 < esr then 2 else if 1000 * c < d.hbank 28 2 * d.hbank 4 4 then 1 else 0

/-- The ceiling in MiB that a test's measured values give (R393). -/
def Dev.huCeiling (d : Dev) (esr c : Nat) : Nat := if d.hbank 30 2 < esr then 0 else d.ceilingFor c

/-- The test's state once a test has measured an ESR and a capacitance (R392). -/
def Dev.huTested (d : Dev) (esr c : Nat) : Hu :=
  { d.hu with
    busy := false, result := d.huResult esr c, passed := decide (d.huResult esr c = 0), cUf := c, esr := esr
    ceil := d.huCeiling esr c, ran := true, esrBad := decide (d.hbank 30 2 < esr) }

/-- A test that measured leaves its values, its result and the ceiling they give (R392, R393). -/
theorem holdUp_huTestDone_measured {d : Dev} (hb : d.hu.busy = true) (hw : d.hu.waiters = []) (v0 va ticks : Nat) :
    (huTestDone (.measured v0 va ticks) d).holdUp
      = (d.huTested (d.huMeasure v0 va ticks).1 (d.huMeasure v0 va ticks).2,
        d.huCeiling (d.huMeasure v0 va ticks).1 (d.huMeasure v0 va ticks).2) := by
  simp only [huTestDone, hb, Bool.not_true, Bool.false_eq_true, if_false, decide_eq_true_eq]
  rw [holdUp_promiseEval, holdUp_ev, holdUp_setCeiling, endTest_eq (by exact hw)]
  rfl

/-- The device once a test has ended without measuring: the result, and a retry after 10 s (R392). -/
def Dev.testRetried (d : Dev) (result : Nat) : Dev :=
  { d with hu := { d.hu with busy := false, result := result, due := d.now + 10000000000 } }

theorem butLog_huTestDone_inconclusive {d : Dev} {o : HuOutcome} (hb : d.hu.busy = true) (hw : d.hu.waiters = [])
    (ho : o = .notCharged ∨ o = .timeout) :
    (huTestDone o d).butLog = (d.testRetried (if o = .notCharged then 3 else 4)).butLog := by
  obtain rfl | rfl := ho <;>
    simp only [huTestDone, hb, Bool.not_true, Bool.false_eq_true, if_false, endTest_eq hw, butLog_ev] <;> rfl

theorem tc_of_log {a b : Dev} (h : a.butLog = b.butLog) : a.tc = b.tc := by
  have hs := congrArg Dev.tc h
  exact hs
theorem hu_of_log {a b : Dev} (h : a.butLog = b.butLog) : a.hu = b.hu := by
  have hs := congrArg Dev.hu h
  exact hs

/-! ### A test that falls due -/

theorem huTestDue_starts {d : Dev} (h : d.testMode = true) (hb : d.hu.busy = false) : huTestDue d = d.startTest := by
  simp [huTestDue, h, hb]

theorem huTestDue_held {d : Dev} (h : d.testMode = false) : huTestDue d = d := by
  simp [huTestDue, h]

/-- Settles O14, from the condition that reads what it was set to (`cond_setCond`), and what each outcome of a test leaves. -/
theorem conditionsAndTheCapacitorTest : Obligations.ConditionsAndTheCapacitorTest := by
  refine ⟨fun s => ⟨fun hk => ?_, fun hk => ?_, fun hq => ?_, fun hq => ?_⟩,
    fun s => ⟨fun ht hb => ?_, fun ht => ?_, fun hb hw v0 va ticks => ?_, fun hb hw o ho => ?_⟩⟩
  · refine ⟨s.onDev railClear, rfl, ?_⟩
    rw [State.onDev_dev, railClear, if_pos hk]
    exact ⟨cond_setCond _ (by decide) _, slu_setCond _ _ _, rfl⟩
  · exact next_onDev (if_neg hk)
  · refine ⟨s.onDev placementClear, rfl, ?_⟩
    rw [State.onDev_dev, placementClear, if_pos hq]
    exact ⟨cond_setCond _ (by decide) _, quires_setCond _ _ _, rfl⟩
  · exact next_onDev (if_neg (by simp [hq]))
  · exact next_onDev (huTestDue_starts ht hb)
  · exact next_onDev (huTestDue_held ht)
  · have hdone := holdUp_huTestDone_measured hb hw v0 va ticks
    have hhu : (huTestDone (.measured v0 va ticks) s.dev).hu = _ := congrArg Prod.fst hdone
    have hceil : (huTestDone (.measured v0 va ticks) s.dev).tc.ceiling = _ := congrArg Prod.snd hdone
    refine ⟨s.onDev (huTestDone (.measured v0 va ticks)), rfl, rfl, ?_⟩
    rw [State.onDev_dev, hhu, hceil]
    exact ⟨rfl, rfl, rfl, rfl, rfl, rfl⟩
  · have hlog := butLog_huTestDone_inconclusive hb hw ho
    have htc := tc_of_log hlog
    have hhu := hu_of_log hlog
    exact ⟨s.onDev (huTestDone o), rfl, rfl, htc, hhu⟩

end Sys2Proof.Machine
end

section
/-! PROOFS. O55: SPDM sessions, IDE key management, and IDE checks that fail (R102, R103, R120, R142). -/

namespace Sys2Proof.Machine

variable (d : Dev)

/-! ### A free session -/

theorem Tbl.mem_keys_of_has {α : Type} {t : Tbl α} {k : Nat} (h : t.has k = true) : k ∈ t.map (·.1) := by
  obtain ⟨v, hv⟩ := Option.isSome_iff_exists.mp h
  exact List.mem_map.mpr ⟨(k, v), Tbl.mem_of_get? hv, rfl⟩

/-- A table with fewer entries than `n` misses one of the first `n` keys. -/
theorem Tbl.exists_not_has {α : Type} {t : Tbl α} {n : Nat} (h : t.length < n) : ∃ k, k < n ∧ t.has k = false := by
  by_contra hall
  push Not at hall
  have hsub : List.range n ⊆ t.map (·.1) := fun k hk =>
    Tbl.mem_keys_of_has (Bool.of_not_eq_false (hall k (List.mem_range.mp hk)))
  have hle := (List.nodup_range.subperm hsub).length_le
  simp only [List.length_range, List.length_map] at hle
  omega

/-- The number that a new session gets is of no session, if fewer than four are open. -/
theorem Spdm.sessions_free {x : Spdm} (h : x.sessions.length < 4) : x.sessions.get? x.free = none := by
  obtain ⟨k, hk, hno⟩ := Tbl.exists_not_has h
  unfold Spdm.free
  cases hfind : (List.range 4).find? (fun (i : Nat) => !x.sessions.has i) with
  | none => exact absurd hno (by simpa using List.find?_eq_none.mp hfind k (List.mem_range.mpr hk))
  | some i =>
    have hi : (!x.sessions.has i) = true := List.find?_some (p := fun (i : Nat) => !x.sessions.has i) hfind
    simpa [Tbl.has] using hi

theorem SpdmVia.limit_le (via : SpdmVia) : via.limit ≤ 4 := by cases via <;> simp [SpdmVia.limit]

/-! ### KEY_EXCHANGE -/

section
variable {via : SpdmVia} {m : SpdmReq} {s : State} (h : s.dev.spdmHears via = true) (hs : s.dev.bcol.signed = true) (hv : m.version = 0x13)
  (hp : 3 ≤ (s.dev.spdm via).phase)
include h hs hv hp

/-- KEY_EXCHANGE with a session free opens it in its handshake. -/
theorem spdmKeyExchange_opens (hn : m.session = none) (hslot : m.param2 % 16 = 0) (hl : (s.dev.spdm via).sessions.length < via.limit) :
    (spdmKeyExchange via m s).dev.spdm via
      = { s.dev.spdm via with sessions := (s.dev.spdm via).sessions.ins (s.dev.spdm via).free ⟨.handshaking, 0⟩ } := by
  have htick : ∀ (x : Dev), x.tickFree.spdm via = x.spdm via := fun x => by cases via <;> rfl
  simp [spdmKeyExchange, spdmRun_due h hs hv hp hn, hn, hslot, Nat.not_le.mpr hl, htick]

theorem spdmKeyExchange_full (hn : m.session = none) (hslot : m.param2 % 16 = 0) (hl : via.limit ≤ (s.dev.spdm via).sessions.length) :
    (spdmKeyExchange via m s).dev = s.dev.spdmError via 0x0A := by
  simp [spdmKeyExchange, spdmRun_due h hs hv hp hn, hn, hslot, hl]

end

/-! ### Requests in a session -/

section
variable {d : Dev} {via : SpdmVia} {m : SpdmReq} {n : Nat} {y : Sess} (h : d.spdmHears via = true) (hs : d.bcol.signed = true)
  (hv : m.version = 0x13) (hp : 3 ≤ (d.spdm via).phase) (hm : m.session = some n) (hy : (d.spdm via).sessions.get? n = some y)
include h hs hv hp hm hy

/-- A request that its session authenticates runs, if the session is as far as the request needs it. -/
theorem sessionRun_due (ha : m.authOk = true) {shake : Bool} (hst : decide (y.st = .handshaking) = shake) (f : Dev → Nat → Dev) :
    d.sessionRun via m shake f = f d n := by
  simp [Dev.sessionRun, Dev.spdmRun, Dev.spdmBusy, h, hs, negotiate_due h hv hp, Dev.inSession, hm, hy, ha, hst]

/-- A request whose authentication fails ends its session. -/
theorem sessionRun_forged (ha : m.authOk = false) (shake : Bool) (f : Dev → Nat → Dev) :
    d.sessionRun via m shake f = (d.endSession via n).spdmError via 0x06 := by
  simp [Dev.sessionRun, Dev.spdmRun, Dev.spdmBusy, h, hs, negotiate_due h hv hp, Dev.inSession, hm, hy, ha]

end

/-- The requests that have meaning only in a session. -/
def sessionRequests (via : SpdmVia) (m : SpdmReq) : List Instr :=
  [.spdmFinish via m, .spdmHeartbeat via m, .spdmKeyUpdate via m, .spdmEndSession via m]

theorem exec_sessionRequest {via : SpdmVia} {m : SpdmReq} {c : Instr} (h : c ∈ sessionRequests via m) (s : State) :
    ∃ shake f, exec c s = .next (s.onDev (fun d => d.sessionRun via m shake f)) := by
  simp only [sessionRequests, List.mem_cons, List.not_mem_nil, or_false] at h
  obtain rfl | rfl | rfl | rfl := h <;> exact ⟨_, _, rfl⟩

/-- A session that has ended is not found, and the answer is the last that left. -/
theorem endSession_error (via : SpdmVia) (n code : Nat) :
    (((d.endSession via n).spdmError via code).spdm via).sessions.get? n = none
    ∧ ((d.endSession via n).spdmError via code).out = .spdm via.port 0x7F (leBytes 1 code ++ leBytes 1 0) :: d.out := by
  simp [Dev.endSession, Dev.spdmError]

/-! ### IDE key management -/

@[simp] theorem stream_setStream (p : Port) (n : Nat) (v : IdeSt) : ((d.setStream p n v).hport p).stream n = v := by
  simp [Dev.setStream, HPort.stream]

@[simp] theorem setStream_spdm (p : Port) (n : Nat) (v : IdeSt) : ((d.setStream p n v).hport p).spdm = (d.hport p).spdm := by
  simp [Dev.setStream]

@[simp] theorem ideAnswer_hport (p q : Port) (code : Nat) (m : IdeKm) (status : Nat) : (d.ideAnswer p code m status).hport q = d.hport q := by
  simp [Dev.ideAnswer, Dev.spdmAnswer]

/-- In an established session of a port an IDE_KM object acts on its stream. -/
theorem ideKmRequest_due {d : Dev} {p : Port} {i : IdeKm} {n : Nat} (h : d.spdmHears (.doe p) = true) (hs : d.bcol.signed = true)
    (hn : i.session = some n) (hy : ((d.spdm (.doe p)).sessions.get? n).map (·.st) = some .established) :
    ideKmRequest (.doe p) i d = d.ideRun p i := by
  simp [ideKmRequest, h, Dev.spdmBusy, hs, hn, hy]

/-! ### IDE checks that fail -/

theorem ideCheckFailed_idle {d : Dev} {p : Port} {n : Nat} (h : (d.hport p).dl = false ∨ (d.hport p).stream n ≠ .secure) (cs : Option Nat) :
    ideCheckFailed p n cs d = d := by
  have hc : (!(d.hport p).dl || decide ((d.hport p).stream n ≠ .secure)) = true := by simpa using h
  simp only [ideCheckFailed, hc, if_true]

theorem ideCheckFailed_secure {d : Dev} {p : Port} {n : Nat} (hl : (d.hport p).dl = true) (hs : (d.hport p).stream n = .secure) :
    ideCheckFailed p n none d = d.setStream p n .insecure
    ∧ ∀ cs, ideCheckFailed p n (some cs) d = (d.setStream p n .insecure).dataLost cs := by
  simp [ideCheckFailed, hl, hs]

@[simp] theorem complete_ports (cs : Nat) (e : Cqe) : (d.complete cs e).ports = d.ports := by
  have h := congrArg Dev.ports (butHost_complete d cs e)
  exact h

@[simp] theorem dropWork_ports (cs : Nat) : (d.dropWork cs).ports = d.ports := by
  have h := congrArg Dev.ports (butDrop_dropWork d cs)
  exact h

/-- The command that an IDE check takes its data from ends with Data Transfer Error, and the stream is insecure. -/
theorem dataLost_insecure {d : Dev} {p : Port} {n cs : Nat} {x : CSlot} (hpost : d.postable cs x) (hst : x.st = .fetched ∨ x.st = .paced)
    (hbufs : x.bufs = []) (hreads : x.reads = false) (hnone : d.rp.reads.any (fun r => decide (r.2.cs = some cs)) = false) :
    (((d.setStream p n .insecure).dataLost cs).hport p).stream n = .insecure
    ∧ ((d.setStream p n .insecure).dataLost cs).posted d.out cs x cqeDataTransfer := by
  have hx : (d.setStream p n .insecure).hg.slots.get? cs = some x := hpost.1
  obtain ⟨t, ht, hreq⟩ := slot_dropWork hx
  have hout : ((d.setStream p n .insecure).dropWork cs).out = d.out := out_dropWork_idle hx hbufs hreads hnone
  rw [dataLost_before hx (hst.imp_right .inl)]
  refine ⟨?_, complete_posted_of_request hpost ht (dropWork_fns _ _) hout hreq _⟩
  rw [Dev.hport, complete_ports, dropWork_ports]
  exact stream_setStream d p n .insecure

/-- Settles O55, from what a request in a session meets (`sessionRun_due`, `sessionRun_forged`) and what IDE does to a stream. -/
theorem spdmSessionsAndIde : Obligations.SpdmSessionsAndIde := by
  intro s
  refine ⟨fun via m h hs hv hp => ⟨fun hn hslot => ⟨fun hl => ?_, fun hl => ?_⟩, fun n y hm hy => ⟨fun ha hst => ?_, fun ha hst =>
    ⟨?_, fun h1 h2 => ?_, ?_⟩, fun ha c hc => ?_⟩⟩, fun via h hs => ⟨fun p i n hvia hn hy hi => ?_, fun i hvia => ?_, fun p i hvia hn => ?_⟩,
    fun p n => ⟨fun hl hst => ⟨?_, fun cs x hpost hx hb _ hr hnone => ?_⟩, fun hno cs => ?_⟩⟩
  · exact ⟨spdmKeyExchange via m s, _, rfl, rfl, Spdm.sessions_free (hl.trans_le via.limit_le), spdmKeyExchange_opens h hs hv hp hn hslot hl⟩
  · exact next_onDev (spdmKeyExchange_full h hs hv hp hn hslot hl)
  · refine ⟨s.onDev (spdmFinish via m), rfl, rfl, ?_⟩
    rw [State.onDev_dev, spdmFinish, sessionRun_due h hs hv hp hm hy ha (by simp [hst])]
    simp
  · exact next_onDev (f := spdmHeartbeat via m) (sessionRun_due h hs hv hp hm hy ha (by simp [hst]) _)
  · refine ⟨s.onDev (spdmKeyUpdate via m), rfl, rfl, ?_⟩
    rw [State.onDev_dev, spdmKeyUpdate, sessionRun_due h hs hv hp hm hy ha (by simp [hst])]
    have h0 : ¬(m.param1 = 0 ∨ 3 < m.param1) := by omega
    have h3 : m.param1 ≠ 3 := by omega
    simp [h0, h3, hy]
  · refine ⟨s.onDev (spdmEndSession via m), rfl, rfl, ?_⟩
    rw [State.onDev_dev, spdmEndSession, sessionRun_due h hs hv hp hm hy ha (by simp [hst])]
    simp [Dev.endSession]
  · obtain ⟨shake, f, hrun⟩ := exec_sessionRequest hc s
    refine ⟨_, hrun, rfl, ?_⟩
    rw [State.onDev_dev, sessionRun_forged h hs hv hp hm hy ha]
    exact endSession_error s.dev via n 0x06
  · subst hvia
    have hrun := ideKmRequest_due h hs hn hy
    have h4 : ¬ 4 < i.stream := Nat.not_lt.mpr hi
    refine ⟨fun hop hk hsub hok hst => ⟨s.onDev (ideKmRequest (.doe p) i), rfl, rfl, ?_⟩,
      fun hop hst => ⟨s.onDev (ideKmRequest (.doe p) i), rfl, rfl, ?_⟩, fun hop => ⟨s.onDev (ideKmRequest (.doe p) i), rfl, rfl, ?_⟩⟩
    · rw [State.onDev_dev, hrun]
      simp [Dev.ideRun, hop, h4, Nat.not_lt.mpr hk, Nat.not_lt.mpr hsub, hok, hst]
    · rw [State.onDev_dev, hrun]
      simp [Dev.ideRun, hop, h4, hst]
    · rw [State.onDev_dev, hrun]
      simp [Dev.ideRun, hop, h4]
  · subst hvia
    exact next_onDev (f := ideKmRequest .mctp i) (by simp [ideKmRequest, h, Dev.spdmBusy, hs])
  · subst hvia
    exact next_onDev (f := ideKmRequest (.doe p) i) (by simp [ideKmRequest, h, Dev.spdmBusy, hs, hn])
  · refine ⟨s.onDev (ideCheckFailed p n none), rfl, rfl, ?_⟩
    rw [State.onDev_dev, (ideCheckFailed_secure hl hst).1]
    exact ⟨stream_setStream _ _ _ _, rfl⟩
  · refine ⟨s.onDev (ideCheckFailed p n (some cs)), rfl, rfl, ?_⟩
    rw [State.onDev_dev, (ideCheckFailed_secure hl hst).2]
    exact dataLost_insecure hpost hx hb hr hnone
  · exact next_onDev (f := ideCheckFailed p n cs) (ideCheckFailed_idle hno cs)

end Sys2Proof.Machine
end

section
/-! PROOFS. The functions under the release of slots and under completions: which parts of a function's state stay as they were, and
what still posts a command's completion (R135, R139, R140). -/

namespace Sys2Proof.Machine

variable (d : Dev)

/-! ### A change of one function, seen from any other -/

/-- What a change of one function keeps of a function's state, it keeps of every function's. -/
theorem fnst_modFn_keeps {γ : Type} {π : FnSt → γ} {u : FnSt → FnSt} (h : ∀ s, π (u s) = π s) (f g : Fn) :
    π ((d.modFn f u).fnst g) = π (d.fnst g) := by
  by_cases hk : g.key = f.key
  · have hg : ∀ x : Dev, x.fnst g = x.fnst f := fun x => by rw [Dev.fnst, Dev.fnst, hk]
    rw [hg, hg, Dev.fnst_modFn, h]
  · rw [Dev.fnst_modFn_ne _ _ hk]

theorem key_ne_of_vf {f : Fn} {p : Port} {n : Nat} (hf : f.isPf = true) (hn : 1 ≤ n) : f.key ≠ (Fn.vf p n).key := by
  cases f with
  | pf q => cases q <;> cases p <;> simp [Fn.key, Port.num] <;> omega
  | vf q m => cases hf

/-! ### The release of slots -/

/-- A function's state without what the release of its slots settles. -/
def FnSt.unsettled (s : FnSt) : FnSt := { s with rdy := false, shst := 0, resetting := false }

@[simp] theorem unsettled_settleFn (f g : Fn) : ((d.settleFn f).fnst g).unsettled = (d.fnst g).unsettled := by
  have hrdy : ∀ x : Dev, ((x.modFn f (fun s => { s with resetting := false, rdy := false })).fnst g).unsettled = (x.fnst g).unsettled :=
    fun x => fnst_modFn_keeps x (π := FnSt.unsettled) (fun _ => by rfl) f g
  have hshst : ∀ x : Dev, ((x.modFn f (fun s => { s with shst := 2 })).fnst g).unsettled = (x.fnst g).unsettled :=
    fun x => fnst_modFn_keeps x (π := FnSt.unsettled) (fun _ => by rfl) f g
  simp only [Dev.settleFn]
  (repeat' split) <;> simp [hrdy, hshst]

@[simp] theorem unsettled_freeSlot (cs : Nat) (g : Fn) : ((d.freeSlot cs).fnst g).unsettled = (d.fnst g).unsettled := by
  simp only [Dev.freeSlot]
  split
  · rfl
  · exact unsettled_settleFn _ _ g

@[simp] theorem unsettled_dropWork (cs : Nat) (g : Fn) : ((d.dropWork cs).fnst g).unsettled = (d.fnst g).unsettled := by
  rw [Dev.fnst, dropWork_fns, Dev.fnst]

@[simp] theorem unsettled_endSlot (cs : Nat) (g : Fn) : ((d.endSlot cs).fnst g).unsettled = (d.fnst g).unsettled := by
  have hdiscard : ∀ (x : Dev) s, (((x.discardCpl s).freeSlot cs).fnst g).unsettled = (x.fnst g).unsettled :=
    fun x s => unsettled_freeSlot (x.discardCpl s) cs g
  simp only [Dev.endSlot]
  (repeat' split) <;> simp [hdiscard]

/-- A function without its queues, its requests and its events. -/
def FnSt.emptied (s : FnSt) : FnSt := { s with sqs := [], cqs := [], aers := [], events := [], pba := [], coal := [] }

/-- R139: the end of a function's commands leaves the function emptied, but for what the release of its slots settles. -/
theorem unsettled_endFn (f g : Fn) : ((d.endFn f).fnst g).unsettled = ((d.modFn f FnSt.emptied).fnst g).unsettled :=
  foldl_keeps (fun x => (x.fnst g).unsettled) Dev.endSlot (fun x c => unsettled_endSlot x c g) _ _

/-! ### Completions -/

/-- What a function is set up with: its state without what completions and the release of slots change. -/
def FnSt.setup (s : FnSt) : FnSt :=
  { s with rdy := false, shst := 0, resetting := false, cqs := [], errs := [], errCount := 0, coal := [], pba := [] }

theorem setup_of_unsettled {s t : FnSt} (h : s.unsettled = t.unsettled) : s.setup = t.setup := by
  have h' := congrArg FnSt.setup h
  exact h'

/-- A function's state without the interrupts that are counted or pending. -/
def FnSt.quiet (s : FnSt) : FnSt := { s with coal := [], pba := [] }

@[simp] theorem quiet_signal (f : Fn) (v : Nat) (g : Fn) : ((d.signal f v).fnst g).quiet = (d.fnst g).quiet := by
  simp only [Dev.signal]
  split
  · split
    · split
      · exact fnst_modFn_keeps d (π := FnSt.quiet) (fun _ => by rfl) f g
      · rfl
    · split <;> rfl
  · rfl

@[simp] theorem quiet_cqInterrupt (f : Fn) (v : Nat) (g : Fn) : ((d.cqInterrupt f v).fnst g).quiet = (d.fnst g).quiet := by
  have hcoal : ∀ c : FnSt → Tbl Nat, ((d.modFn f (fun s => { s with coal := c s })).fnst g).quiet = (d.fnst g).quiet :=
    fun c => fnst_modFn_keeps d (π := FnSt.quiet) (fun _ => by rfl) f g
  simp only [Dev.cqInterrupt]
  split
  · split
    · rw [quiet_signal, hcoal]
    · rw [hcoal]
  · exact quiet_signal d f v g

/-- The functions after a completion is posted: all that the release of the slot does not settle and that is no interrupt. -/
theorem post_fnst (cs : Nat) (s : CSlot) (qid : Nat) (q : Cq) (e : Cqe) (g : Fn) :
    ((d.post cs s qid q e).fnst g).unsettled.quiet = ((d.modFn s.fn (fun t =>
      { t.logErr s.sqid s.cid e with
        cqs := t.cqs.ins qid { q with tail := (q.tail + 1) % q.size, phase := if (q.tail + 1) % q.size = 0 then !q.phase else q.phase } })).fnst
          g).unsettled.quiet := by
  have hq : ∀ {x y : FnSt}, x.quiet = y.quiet → x.unsettled.quiet = y.unsettled.quiet := fun h => by
    have h' := congrArg FnSt.unsettled h
    exact h'
  simp only [Dev.post, unsettled_freeSlot]
  split
  · exact hq (quiet_cqInterrupt _ _ _ g)
  · rfl

theorem setup_post (cs : Nat) (s : CSlot) (qid : Nat) (q : Cq) (e : Cqe) (g : Fn) :
    ((d.post cs s qid q e).fnst g).setup = (d.fnst g).setup := by
  have h := congrArg FnSt.setup (post_fnst d cs s qid q e g)
  refine Eq.trans (b := ((Dev.modFn d s.fn _).fnst g).setup) h (fnst_modFn_keeps d (π := FnSt.setup) (fun t => ?_) s.fn g)
  simp only [FnSt.logErr]
  split <;> rfl

/-- A completion leaves what the functions are set up with. -/
@[simp] theorem setup_complete (cs : Nat) (e : Cqe) (g : Fn) : ((d.complete cs e).fnst g).setup = (d.fnst g).setup := by
  have hfree : ∀ x : Dev, ((x.freeSlot cs).fnst g).setup = (x.fnst g).setup := fun x => setup_of_unsettled (unsettled_freeSlot x cs g)
  simp only [Dev.complete]
  split
  · rfl
  generalize hx : ({ d with adm := _ } : Dev) = x
  have hfn : (x.fnst g).setup = (d.fnst g).setup := by rw [← hx]; rfl
  split
  · exact hfn
  split
  · exact (hfree _).trans hfn
  split
  · exact (hfree _).trans hfn
  split
  · exact (hfree _).trans hfn
  split
  · exact (setup_post _ _ _ _ _ _ g).trans hfn
  · refine (fnst_modFn_keeps _ (π := FnSt.setup) (fun _ => by rfl) _ g).trans ?_
    split <;> simpa using hfn

end Sys2Proof.Machine
end

section
/-! PROOFS. O16: controllers enabled, reset and shut down, and the Function Level Reset (R39, R104, R119, R139, R140). -/

namespace Sys2Proof.Machine

variable (d : Dev)

/-! ### Enabling -/

/-- The function with CC written. -/
def Dev.ccWritten (d : Dev) (f : Fn) (cc : W32) : Dev := d.modFn f (fun s => { s with cc := cc })

section
variable {d : Dev} {f : Fn} {cc : W32} (hup : d.fnUp f = true) (hen : bitOf cc.toNat 0 = true) (hwas : bitOf (d.fnst f).cc.toNat 0 = false)
include hup hen hwas

theorem controllerEnable_host (h : hostMode d.modes.mode = true) : controllerEnable f cc d = (d.ccWritten f cc).makeReady f := by
  simp [controllerEnable, Dev.ccWritten, hup, hen, hwas, h]

/-- Before the entry mode CC is stored and not acted upon (R39). -/
theorem controllerEnable_early (h : hostMode d.modes.mode = false) : controllerEnable f cc d = d.ccWritten f cc := by
  simp [controllerEnable, Dev.ccWritten, hup, hen, hwas, h]

end

section
variable {d : Dev} {f : Fn} (hrdy : (d.fnst f).rdy = false) (hcfs : (d.fnst f).cfs = false) (hon : (d.fnst f).online = true)
include hrdy hcfs hon

/-- A controller becomes ready with the admin queues of AQA, ASQ and ACQ (R104). -/
theorem makeReady_ready (hsq : bitsOf (d.fnst f).cc.toNat 19 16 = 6) (hcq : bitsOf (d.fnst f).cc.toNat 23 20 = 4) :
    ∃ c, d.makeReady f = d.modFn f (fun s => { s with
      rdy := true, sqs := [(0, ⟨(d.fnst f).asq.toNat, bitsOf (d.fnst f).aqa.toNat 11 0 + 1, 0, 0, 0, []⟩)], cqs := [(0, c)] }) :=
  ⟨⟨(d.fnst f).acq.toNat, bitsOf (d.fnst f).aqa.toNat 27 16 + 1, 0, 0, true, 0, true, [], false⟩, by
    simp [Dev.makeReady, hrdy, hcfs, hon, hsq, hcq]⟩

theorem makeReady_entrySizes (h : bitsOf (d.fnst f).cc.toNat 19 16 ≠ 6 ∨ bitsOf (d.fnst f).cc.toNat 23 20 ≠ 4) :
    d.makeReady f = d.modFn f (fun s => { s with cfs := true }) := by
  simp only [Dev.makeReady, hrdy, hcfs, hon, Bool.not_true, Bool.or_false, Bool.false_eq_true, if_false, if_pos h]

end

/-! ### What the release of the last slot settles -/

section
variable {d : Dev} {f : Fn} (h : d.slotsOf f = [])
include h

/-- CSTS.RDY falls with the last slot of a controller that is being reset (R139). -/
theorem settleFn_rdy (hr : (d.fnst f).resetting = (d.fnst f).rdy) : ((d.settleFn f).fnst f).rdy = false := by
  simp only [Dev.settleFn, h, List.isEmpty_nil, if_true]
  by_cases hres : (d.fnst f).resetting = true
  · simp only [hres, if_true]
    split <;> simp
  · have hres' := Bool.of_not_eq_true hres
    simp only [hres', Bool.false_eq_true, if_false]
    split <;> simp [← hr, hres']

/-- A shutdown reads complete with the last slot, if no ledger persist is waited for (R140). -/
theorem settleFn_shst (hs : (d.fnst f).shst = 1) (hp : d.evl.persisting = none) (hw : d.evl.waiting = []) :
    ((d.settleFn f).fnst f).shst = 2 := by
  simp only [Dev.settleFn, h, List.isEmpty_nil, if_true]
  split <;> simp [hs, hp, hw]

end

theorem settleFn_held {d : Dev} {f : Fn} (h : d.slotsOf f ≠ []) : d.settleFn f = d := by
  simp [Dev.settleFn, h]

/-! ### Controller resets -/

theorem endFn_idle {d : Dev} {f : Fn} (h : d.slotsOf f = []) :
    d.endFn f = ({ d with hg := { d.hg with fetches := d.hg.fetches.filter (fun x => decide (x.fn ≠ f)) } } : Dev).modFn f FnSt.emptied := by
  simp only [Dev.endFn, h]
  rfl

/-- The function that a controller reset leaves, but for what its slots settle. -/
def Dev.ctlGone (d : Dev) (f : Fn) : Dev := (d.endFn f).modFn f (fun s => { s.ctlReset with resetting := s.rdy })

/-- Beside the function, its slots and the traffic, a controller reset touches a PF's mailbox. -/
theorem resetCtl_eq (f : Fn) : ∃ k, d.resetCtl f = ({ d.ctlGone f with kmb := k } : Dev).settleFn f := by
  cases f with
  | pf p => exact ⟨_, rfl⟩
  | vf p n => exact ⟨(d.ctlGone (.vf p n)).kmb, rfl⟩

theorem resetCtl_modes (f : Fn) : (d.resetCtl f).modes = d.modes := by
  obtain ⟨k, hk⟩ := resetCtl_eq d f
  have hset : ∀ x : Dev, (x.settleFn f).modes = x.modes := fun x => by have h := congrArg Dev.modes (butHost_settleFn x f); exact h
  rw [hk, hset]
  exact modes_of_sequencer (sequencer_endFn d f)

/-- R139: a controller reset leaves the function emptied, with its features at their defaults. -/
theorem resetCtl_fnst (f : Fn) : ((d.resetCtl f).fnst f).unsettled = (d.fnst f).emptied.ctlReset.unsettled := by
  obtain ⟨k, hk⟩ := resetCtl_eq d f
  have hend := congrArg FnSt.ctlReset (unsettled_endFn d f f)
  rw [Dev.fnst_modFn] at hend
  rw [hk, unsettled_settleFn]
  change ((d.ctlGone f).fnst f).unsettled = _
  rw [Dev.ctlGone, Dev.fnst_modFn]
  have h := congrArg FnSt.unsettled hend
  exact h

theorem resetCtl_rdy {d : Dev} {f : Fn} (h : d.slotsOf f = []) : ((d.resetCtl f).fnst f).rdy = false := by
  obtain ⟨k, hk⟩ := resetCtl_eq d f
  have hgone : d.ctlGone f = _ := congrArg (fun x : Dev => x.modFn f _) (endFn_idle h)
  have hslots : ({ d.ctlGone f with kmb := k } : Dev).slotsOf f = [] := by rw [hgone]; exact h
  rw [hk]
  refine settleFn_rdy hslots ?_
  change ((d.ctlGone f).fnst f).resetting = ((d.ctlGone f).fnst f).rdy
  simp only [Dev.ctlGone, Dev.fnst_modFn]
  rfl

theorem controllerReset_due {d : Dev} {f : Fn} {cc : W32} (hup : d.fnUp f = true) (hen : bitOf cc.toNat 0 = false)
    (hwas : bitOf (d.fnst f).cc.toNat 0 = true) : controllerReset f cc d = (d.ccWritten f cc).resetCtl f := by
  simp [controllerReset, Dev.ccWritten, hup, hen, hwas]

/-! ### Shutdown -/

/-- A shutdown notification of a controller that holds no Asynchronous Event Request starts the shutdown (R140). -/
theorem shutdownNotification_due {d : Dev} {f : Fn} {cc : W32} (hup : d.fnUp f = true)
    (hn : bitsOf cc.toNat 15 14 = 1 ∨ bitsOf cc.toNat 15 14 = 2) (hrdy : (d.fnst f).rdy = true) (hs : (d.fnst f).shst = 0)
    (haer : (d.fnst f).aers = []) : ∃ x : Dev, x.hg = d.hg ∧ x.fnst f = { d.fnst f with cc := cc, shst := 1, aers := [] }
      ∧ (f.isPf = false → x.evl = d.evl) ∧ shutdownNotification f cc d = x.settleFn f := by
  have hgo : (!d.fnUp f || !(decide (bitsOf cc.toNat 15 14 = 1) || decide (bitsOf cc.toNat 15 14 = 2)) || !(d.fnst f).rdy) = false := by
    obtain h | h := hn <;> simp [hup, hrdy, h]
  generalize hy : (d.modFn f (fun s => { s with cc := cc })).modFn f (fun s => { s with shst := 1, aers := [] }) = y
  have hyfn : y.fnst f = { d.fnst f with cc := cc, shst := 1, aers := [] } := by rw [← hy]; simp
  have hstart : ∀ w, (y.startPersist w).hg = y.hg ∧ (y.startPersist w).fns = y.fns := fun w => by
    simp only [Dev.startPersist]; split <;> exact ⟨rfl, rfl⟩
  refine ⟨if f.isPf then y.startPersist (.shutdown f) else y, ?_, ?_, fun hvf => ?_, ?_⟩
  · split
    · rw [(hstart _).1, ← hy]; rfl
    · rw [← hy]; rfl
  · split
    · rw [Dev.fnst, (hstart _).2]; exact hyfn
    · exact hyfn
  · rw [hvf, ← hy]; rfl
  · simp only [shutdownNotification, hgo]
    simp only [Bool.false_eq_true, if_false, hs, ne_eq, not_true_eq_false, decide_false, Dev.fnst_modFn, haer, hy]
    rfl

/-! ### Function Level Reset -/

/-- What a function keeps through its configuration reset: its place in the subsystem and its error log. -/
def FnSt.kept (s : FnSt) : FnSt := { FnSt.reset with online := s.online, errs := s.errs, errCount := s.errCount }

theorem cfgReset_fns (f : Fn) : (d.cfgReset f).fns = ((d.endFn f).modFn f FnSt.kept).fns := by
  cases f <;> rfl

theorem kept_endFn (f g : Fn) : ((d.endFn f).fnst g).kept = (d.fnst g).kept := by
  have h := congrArg FnSt.kept (unsettled_endFn d f g)
  exact h.trans (fnst_modFn_keeps d (π := FnSt.kept) (fun _ => by rfl) f g)

theorem kept_cfgReset (f g : Fn) : ((d.cfgReset f).fnst g).kept = (d.fnst g).kept := by
  rw [Dev.fnst, cfgReset_fns]
  exact (fnst_modFn_keeps _ (π := FnSt.kept) (fun _ => by rfl) f g).trans (kept_endFn d f g)

/-- A function in its configuration-reset state. -/
theorem cfgReset_fnst (f : Fn) : (d.cfgReset f).fnst f = (d.fnst f).kept := by
  rw [Dev.fnst, cfgReset_fns]
  exact (Dev.fnst_modFn _ f FnSt.kept).trans (kept_endFn d f f)

/-- A PF's reset takes its VFs first. -/
theorem resetPortFns_fnst (p : Port) : (d.resetPortFns p).fnst (.pf p) = (d.fnst (.pf p)).kept := by
  rw [Dev.resetPortFns, List.foldl_append, Dev.modPort_fnst]
  exact (cfgReset_fnst _ (.pf p)).trans (foldl_keeps (fun x => (x.fnst (.pf p)).kept) Dev.cfgReset (fun x g => kept_cfgReset x g _) _ d)

theorem functionLevelReset_modes (f : Fn) : (functionLevelReset f d).modes = d.modes := by
  simp only [functionLevelReset]
  split
  · rfl
  split
  · exact modes_of_sequencer (sequencer_cfgReset d _)
  · exact modes_of_sequencer (sequencer_resetPortFns d _)

section
variable {d : Dev} {f : Fn} (h : d.fnUp f = true)
include h

theorem functionLevelReset_fnst : (functionLevelReset f d).fnst f = (d.fnst f).kept := by
  cases f with
  | pf p => simpa [functionLevelReset, h] using resetPortFns_fnst d p
  | vf p n => simpa [functionLevelReset, h] using cfgReset_fnst d (.vf p n)

/-- Of the ports, a PF's reset takes VF enable and the number of VFs, and a VF's takes nothing. -/
theorem functionLevelReset_hport : (f.isPf = true → ((functionLevelReset f d).hport f.port).vfEn = false
    ∧ ((functionLevelReset f d).hport f.port).numVfs = 0) ∧ (functionLevelReset f d).hport f.port.other = d.hport f.port.other := by
  cases f with
  | pf p =>
    have hrun : functionLevelReset (.pf p) d = d.resetPortFns p := by simp [functionLevelReset, h]
    have hother : p.other ≠ p := by cases p <;> simp [Port.other]
    obtain ⟨x, hx, hreset⟩ := resetPortFns_eq d p
    rw [hrun, hreset]
    exact ⟨fun _ => by simp [Fn.port], (Dev.hport_modPort_ne x _ hother).trans (hport_of_portSide hx _)⟩
  | vf p n =>
    have hrun : functionLevelReset (.vf p n) d = d.cfgReset (.vf p n) := by simp [functionLevelReset, h]
    rw [hrun]
    exact ⟨nofun, hport_of_portSide (portSide_cfgReset d _) _⟩

end

/-- Settles O16, from the controller that becomes ready (`makeReady_ready`), and from what a reset (`resetCtl_fnst`), the release of the
last slot (`settleFn_rdy`, `settleFn_shst`) and a Function Level Reset leave of the function. -/
theorem controllersComeAndGo : Obligations.ControllersComeAndGo := by
  refine ⟨fun s f cc hup hen hwas => ⟨fun hm hrdy hcfs hon => ?_, fun hm => ?_⟩,
    fun s f hup => ⟨fun cc hen hwas => ?_, fun cc hn hrdy hs haer => ?_, ?_⟩⟩
  · have hrun := controllerEnable_host hup hen hwas hm
    have hw : (s.dev.ccWritten f cc).fnst f = { s.dev.fnst f with cc := cc } := Dev.fnst_modFn _ _ _
    have hrdy' : ((s.dev.ccWritten f cc).fnst f).rdy = false := by rw [hw]; exact hrdy
    have hcfs' : ((s.dev.ccWritten f cc).fnst f).cfs = false := by rw [hw]; exact hcfs
    have hon' : ((s.dev.ccWritten f cc).fnst f).online = true := by rw [hw]; exact hon
    have hcc : ((s.dev.ccWritten f cc).fnst f).cc = cc := by rw [hw]
    refine ⟨fun hsq hcq => ?_, fun hbad => ?_⟩
    · obtain ⟨c, hc⟩ := makeReady_ready hrdy' hcfs' hon' (by rw [hcc]; exact hsq) (by rw [hcc]; exact hcq)
      refine ⟨s.onDev (controllerEnable f cc), rfl, rfl, ?_⟩
      rw [State.onDev_dev, hrun, hc, hw, Dev.fnst_modFn, hw]
      refine ⟨rfl, rfl, rfl, rfl, rfl, fun g hg => ?_⟩
      rw [Dev.fnst_modFn_ne _ _ hg, Dev.ccWritten, Dev.fnst_modFn_ne _ _ hg]
    · refine ⟨s.onDev (controllerEnable f cc), rfl, rfl, ?_⟩
      rw [State.onDev_dev, hrun, makeReady_entrySizes hrdy' hcfs' hon' (by rw [hcc]; exact hbad), Dev.fnst_modFn, hw]
      exact ⟨rfl, rfl⟩
  · exact next_onDev (f := controllerEnable f cc) (controllerEnable_early hup hen hwas hm)
  · refine ⟨s.onDev (controllerReset f cc), rfl, rfl, ?_⟩
    have hfn := resetCtl_fnst (s.dev.ccWritten f cc) f
    have hcc : (s.dev.ccWritten f cc).fnst f = _ := Dev.fnst_modFn _ _ _
    rw [hcc] at hfn
    rw [State.onDev_dev, controllerReset_due hup hen hwas]
    exact ⟨resetCtl_modes _ f, congrArg FnSt.sqs hfn, congrArg FnSt.cqs hfn, congrArg FnSt.feats hfn, congrArg FnSt.cc hfn,
      fun hnone => resetCtl_rdy (d := s.dev.ccWritten f cc) hnone⟩
  · obtain ⟨x, hhg, hfn, hevl, hrun⟩ := shutdownNotification_due hup hn hrdy hs haer
    have hslots : x.slotsOf f = s.dev.slotsOf f := by rw [Dev.slotsOf, hhg, Dev.slotsOf]
    have hset := congrArg FnSt.cc (unsettled_settleFn x f f)
    refine ⟨s.onDev (shutdownNotification f cc), rfl, rfl, ?_⟩
    rw [State.onDev_dev, hrun]
    refine ⟨hset.trans (by rw [hfn]; rfl), fun hsome => ?_, fun hnone hvf hp hw => ?_⟩
    · rw [settleFn_held (by rwa [hslots]), hfn]
    · exact settleFn_shst (hslots.trans hnone) (by rw [hfn]) (by rw [hevl hvf, hp]) (by rw [hevl hvf, hw])
  · exact ⟨s.onDev (functionLevelReset f), rfl, rfl, functionLevelReset_modes s.dev f, functionLevelReset_fnst hup,
      functionLevelReset_hport hup⟩

end Sys2Proof.Machine
end

section
/-! PROOFS. Admin commands in their turn: what runs at once, what the admin sequencer starts, and what each may change before its
completion is still posted (R107, R118, R135). -/

namespace Sys2Proof.Machine

variable (d : Dev)

/-! ### A completion posted after other changes -/

theorem Dev.posted_of_suffix {d : Dev} {old new : List Out} {cs : Nat} {s : CSlot} {e : Cqe} (h : d.posted new cs s e) (hs : old <:+ new) :
    d.posted old cs s e := by
  obtain ⟨hfree, qid, sqhd, l, hl, hnew⟩ := h
  exact ⟨hfree, qid, sqhd, l, hl, hs.trans hnew⟩

/-- The device `e`, which comes after `d`, posts a command's completion where `d` does: the slot holds the same request, and its function's
bus mastering and completion queue are as they were. -/
structure Dev.PostsAs (d e : Dev) (cs : Nat) (s : CSlot) : Prop where
  slot : ∃ t, e.hg.slots.get? cs = some t ∧ t.request = s.request
  bme : (e.fnst s.fn).bme = (d.fnst s.fn).bme
  cq : e.cqOf s.fn s.sqid = d.cqOf s.fn s.sqid
  out : d.out <:+ e.out

section
variable {d e g : Dev} {cs : Nat} {s : CSlot}

theorem Dev.PostsAs.refl (h : d.postable cs s) : d.PostsAs d cs s := ⟨⟨s, h.1, rfl⟩, rfl, rfl, List.suffix_rfl⟩

theorem Dev.PostsAs.trans (h : d.PostsAs e cs s) (k : e.PostsAs g cs s) : d.PostsAs g cs s :=
  ⟨k.slot, k.bme.trans h.bme, k.cq.trans h.cq, h.out.trans k.out⟩

/-- Other parts of the device may change, and more may leave the block. -/
theorem Dev.PostsAs.grow (h : d.PostsAs e cs s) (hslots : g.hg.slots = e.hg.slots) (hfns : g.fns = e.fns) (hout : e.out <:+ g.out) :
    d.PostsAs g cs s := by
  have hfn : ∀ f, g.fnst f = e.fnst f := fun f => by rw [Dev.fnst, hfns, Dev.fnst]
  refine h.trans ⟨by rw [hslots]; exact h.slot, by rw [hfn], ?_, hout⟩
  simp only [Dev.cqOf, hfn]

theorem Dev.PostsAs.other (h : d.PostsAs e cs s) (hslots : g.hg.slots = e.hg.slots) (hfns : g.fns = e.fns) (hout : g.out = e.out) :
    d.PostsAs g cs s := h.grow hslots hfns (hout ▸ List.suffix_rfl)

/-- A function's state may change but for its bus mastering and its queues. -/
theorem Dev.PostsAs.modFn (h : d.PostsAs e cs s) (f : Fn) {u : FnSt → FnSt} (hu : ∀ t, (u t).bme = t.bme ∧ (u t).sqs = t.sqs ∧ (u t).cqs = t.cqs) :
    d.PostsAs (e.modFn f u) cs s := by
  have hsqs : ((e.modFn f u).fnst s.fn).sqs = (e.fnst s.fn).sqs := fnst_modFn_keeps e (fun t => (hu t).2.1) f s.fn
  have hcqs : ((e.modFn f u).fnst s.fn).cqs = (e.fnst s.fn).cqs := fnst_modFn_keeps e (fun t => (hu t).2.2) f s.fn
  refine h.trans ⟨h.slot, fnst_modFn_keeps e (fun t => (hu t).1) f s.fn, ?_, List.suffix_rfl⟩
  simp only [Dev.cqOf, hsqs, hcqs]

theorem Dev.PostsAs.modSlot (h : d.PostsAs e cs s) {u : CSlot → CSlot} (hu : ∀ t, (u t).request = t.request) :
    d.PostsAs (e.modSlot cs u) cs s := by
  obtain ⟨t, ht, hreq⟩ := h.slot
  exact h.trans ⟨⟨u t, by rw [Dev.slots_modSlot, ht]; rfl, (hu t).trans hreq⟩, rfl, rfl, List.suffix_rfl⟩

/-- The command can still be completed at once. -/
theorem Dev.PostsAs.postable (he : d.PostsAs e cs s) (h : d.postable cs s) : ∃ t, e.postable cs t ∧ t.request = s.request := by
  obtain ⟨-, hcqe, hdis, hbme, hcq⟩ := h
  obtain ⟨t, ht, hreq⟩ := he.slot
  refine ⟨t, ⟨ht, (CSlot.cqe_of_request hreq).trans hcqe, (CSlot.discard_of_request hreq).trans hdis, ?_, ?_⟩, hreq⟩
  · rw [CSlot.fn_of_request hreq, he.bme, hbme]
  · rw [CSlot.fn_of_request hreq, CSlot.sqid_of_request hreq, he.cq, hcq]

/-- The outcome is posted after such changes, and after what left the block with them. -/
theorem Dev.PostsAs.posts (he : d.PostsAs e cs s) (h : d.postable cs s) (c : Cqe) : (e.complete cs c).posted e.out cs s c := by
  obtain ⟨t, ht, hreq⟩ := he.postable h
  have hp := complete_posted ht c
  rwa [Dev.posted, CSlot.fn_of_request hreq, CSlot.sqid_of_request hreq, CSlot.cid_of_request hreq] at hp

theorem Dev.PostsAs.complete (he : d.PostsAs e cs s) (h : d.postable cs s) (c : Cqe) : (e.complete cs c).posted d.out cs s c :=
  Dev.posted_of_suffix (he.posts h c) he.out

/-- A result is sent, and then the command completes. -/
theorem Dev.PostsAs.answer_eq (he : d.PostsAs e cs s) (h : d.postable cs s) (b : List Byte) (c : Cqe) :
    e.answer cs b c = (e.emit (.hostWrite s.fn cs b)).complete cs c := by
  obtain ⟨-, -, hdis, hbme, -⟩ := h
  obtain ⟨t, ht, hreq⟩ := he.slot
  have hb : (e.fnst s.fn).bme = true := he.bme.trans hbme
  have hd : t.discard = false := (CSlot.discard_of_request hreq).trans hdis
  simp [Dev.answer, Dev.sendData, ht, hb, hd, CSlot.fn_of_request hreq]

theorem Dev.PostsAs.answer (he : d.PostsAs e cs s) (hout : e.out = d.out) (h : d.postable cs s) (b : List Byte) (c : Cqe) :
    (e.answer cs b c).posted (.hostWrite s.fn cs b :: d.out) cs s c := by
  rw [he.answer_eq h, ← hout]
  exact (he.grow (g := e.emit (.hostWrite s.fn cs b)) rfl rfl (List.suffix_cons _ _)).posts h c

end

/-! ### What a completion leaves -/

/-- A completion touches of the admin state only what runs. -/
theorem complete_adm (cs : Nat) (e : Cqe) : ∃ r, (d.complete cs e).adm = { d.adm with running := r } := by
  have hfree : ∀ x : Dev, ∃ r, (x.freeSlot cs).adm = { x.adm with running := r } := fun x => by
    have hset : ∀ (y : Dev) f, (y.settleFn f).adm = y.adm := fun y f => by simp only [Dev.settleFn]; (repeat' split) <;> rfl
    simp only [Dev.freeSlot]
    split
    · exact ⟨x.adm.running, rfl⟩
    · exact ⟨_, hset _ _⟩
  have hcqi : ∀ (x : Dev) f v, (x.cqInterrupt f v).adm = x.adm := fun x f v => by
    simp only [Dev.cqInterrupt, Dev.signal]; (repeat' split) <;> rfl
  simp only [Dev.complete]
  split
  · exact ⟨d.adm.running, rfl⟩
  generalize hx : ({ d with adm := _ } : Dev) = x
  have hadm : ∃ r, x.adm = { d.adm with running := r } := ⟨_, by rw [← hx]⟩
  have hvia : ∀ y : Dev, (∃ r, y.adm = { x.adm with running := r }) → ∃ r, y.adm = { d.adm with running := r } := by
    rintro y ⟨r, hr⟩
    obtain ⟨r', hr'⟩ := hadm
    exact ⟨r, by rw [hr, hr']⟩
  split
  · exact hadm
  split
  · exact hvia _ (hfree _)
  split
  · exact hvia _ (hfree _)
  split
  · exact hvia _ (hfree _)
  next qid q _ =>
    split
    · refine hvia _ ?_
      simp only [Dev.post]
      generalize hy : (if q.ien = true then _ else _) = y
      have hyadm : y.adm = x.adm := by
        rw [← hy]
        split
        · rw [hcqi]; rfl
        · rfl
      obtain ⟨r, hr⟩ := hfree y
      exact ⟨r, by rw [hr, hyadm]⟩
    · refine hvia _ ⟨x.adm.running, ?_⟩
      split <;> simp

/-- The admin state without the command that runs. -/
def Adm.rest (a : Adm) : Adm := { a with running := none }

@[simp] theorem rest_complete (cs : Nat) (e : Cqe) : (d.complete cs e).adm.rest = d.adm.rest := by
  obtain ⟨r, hr⟩ := complete_adm d cs e
  rw [hr]
  rfl

@[simp] theorem complete_modes (cs : Nat) (e : Cqe) : (d.complete cs e).modes = d.modes := by
  have h := congrArg Dev.modes (butHost_complete d cs e)
  exact h

@[simp] theorem complete_boot (cs : Nat) (e : Cqe) : (d.complete cs e).boot = d.boot := by
  have h := congrArg Dev.boot (butHost_complete d cs e)
  exact h

@[simp] theorem complete_csrW (cs : Nat) (e : Cqe) (a : Nat) : (d.complete cs e).csrW a = d.csrW a := by
  have h := congrArg Dev.csr (butHost_complete d cs e)
  have hcsr : (d.complete cs e).csr = d.csr := h
  rw [Dev.csrW, hcsr, Dev.csrW]

/-- The completion queues of a function other than the one posted to stay as they were. -/
theorem complete_cq_ne {d : Dev} {cs : Nat} {s : CSlot} (h : d.postable cs s) {qid : Nat} {q : Cq} (hq : d.cqOf s.fn s.sqid = some (qid, q))
    (e : Cqe) {k : Nat} (hk : k ≠ qid) : ((d.complete cs e).fnst s.fn).cqs.get? k = (d.fnst s.fn).cqs.get? k := by
  obtain ⟨hslot, hcqe, hdis, hbme, hroom⟩ := h
  rw [hq] at hroom
  simp only [Dev.complete, hslot, hcqe, hdis, Option.isSome_none]
  generalize hx : ({ d with adm := _ } : Dev) = x
  have hxfn : x.fnst s.fn = d.fnst s.fn := by rw [← hx]; rfl
  have hxcq : x.cqOf s.fn s.sqid = some (qid, q) := by rw [← hq]; simp only [Dev.cqOf, hxfn]
  simp only [hxfn, hbme, hxcq, hroom, Bool.not_true, Bool.false_eq_true, if_false, if_true]
  have hpost := congrArg FnSt.cqs (post_fnst x cs s qid q e s.fn)
  rw [Dev.fnst_modFn, hxfn] at hpost
  refine (congrArg (Tbl.get? · k) hpost).trans ?_
  exact Tbl.get?_ins_ne _ _ hk

/-- A completion leaves the other functions as they were. -/
theorem complete_fnst_ne {d : Dev} {cs : Nat} {s : CSlot} (h : d.postable cs s) (e : Cqe) {f : Fn} (hf : f.key ≠ s.fn.key) :
    (d.complete cs e).fnst f = d.fnst f := by
  have hmod : ∀ (x : Dev) u, (x.modFn s.fn u).fnst f = x.fnst f := fun x u => Dev.fnst_modFn_ne x u hf
  have hsettle : ∀ x : Dev, (x.settleFn s.fn).fnst f = x.fnst f := fun x => by
    simp only [Dev.settleFn]; (repeat' split) <;> simp [hmod]
  have hint : ∀ (x : Dev) v, (x.cqInterrupt s.fn v).fnst f = x.fnst f := fun x v => by
    simp only [Dev.cqInterrupt, Dev.signal]; (repeat' split) <;> simp [hmod]
  obtain ⟨hslot, hcqe, hdis, hbme, hroom⟩ := h
  simp only [Dev.complete, hslot, hcqe, hdis, Option.isSome_none]
  generalize hx : ({ d with adm := _ } : Dev) = x
  have hxhg : x.hg = d.hg := by rw [← hx]
  have hxfn : ∀ g, x.fnst g = d.fnst g := fun g => by rw [← hx]; rfl
  have hxcq : x.cqOf s.fn s.sqid = d.cqOf s.fn s.sqid := by simp only [Dev.cqOf, hxfn]
  rw [hxfn, hbme, hxcq, ← hxfn f]
  cases hq : d.cqOf s.fn s.sqid with
  | none => simp [hq] at hroom
  | some c =>
    obtain ⟨qid, q⟩ := c
    simp only [hq] at hroom
    simp only [hroom, Bool.not_true, Bool.false_eq_true, if_false, if_true, Dev.post]
    generalize hy : (if q.ien = true then _ else _) = y
    have hyfn : y.fnst f = x.fnst f ∧ y.hg = x.hg := by
      rw [← hy]
      split
      · exact ⟨by rw [hint, hmod, Dev.emit_fnst], by rw [cqInterrupt_hg]; rfl⟩
      · exact ⟨by rw [hmod, Dev.emit_fnst], rfl⟩
    have hyslot : y.hg.slots.get? cs = some s := by rw [hyfn.2, hxhg, hslot]
    simp only [Dev.freeSlot, hyslot]
    exact (hsettle _).trans hyfn.1

theorem Dev.PostsAs.complete_fnst_ne {d e : Dev} {cs : Nat} {s : CSlot} (he : d.PostsAs e cs s) (h : d.postable cs s) (c : Cqe) {f : Fn}
    (hf : f.key ≠ s.fn.key) : (e.complete cs c).fnst f = e.fnst f := by
  obtain ⟨t, ht, hreq⟩ := he.postable h
  rw [← CSlot.fn_of_request hreq] at hf
  exact Machine.complete_fnst_ne ht c hf

theorem Dev.PostsAs.complete_cq_ne {d e : Dev} {cs : Nat} {s : CSlot} (he : d.PostsAs e cs s) (h : d.postable cs s) {qid : Nat} {q : Cq}
    (hq : d.cqOf s.fn s.sqid = some (qid, q)) (c : Cqe) {k : Nat} (hk : k ≠ qid) :
    ((e.complete cs c).fnst s.fn).cqs.get? k = (e.fnst s.fn).cqs.get? k := by
  obtain ⟨t, ht, hreq⟩ := he.postable h
  rw [← he.cq] at hq
  rw [← CSlot.fn_of_request hreq, ← CSlot.sqid_of_request hreq] at hq
  rw [← CSlot.fn_of_request hreq]
  exact Machine.complete_cq_ne ht hq c hk

/-! ### Admin commands that run -/

theorem adminSlot_eq_some {d : Dev} {cs op : Nat} {s : CSlot} (h : d.adminSlot cs op = some s) :
    d.hg.slots.get? cs = some s ∧ s.sqid = 0 ∧ s.opcode = op ∧ s.st = .fetched := by
  simp only [Dev.adminSlot] at h
  split at h
  · cases h
  next t ht =>
    split at h
    next hc =>
      cases h
      simp only [Bool.and_eq_true, decide_eq_true_eq] at hc
      exact ⟨ht, hc.1.1.2, hc.1.2, hc.2⟩
    · cases h

theorem adminRun_due {d : Dev} {cs op : Nat} {s : CSlot} (h : d.adminDue cs op s) (f : Dev → CSlot → Dev) : d.adminRun cs op f = f d s := by
  simp only [Dev.adminRun, h.1]

theorem seqSlot_eq_some {d : Dev} {cs op : Nat} {s : CSlot} (h : d.seqSlot cs op = some s) :
    d.hg.slots.get? cs = some s ∧ s.sqid = 0 ∧ s.opcode = op := by
  simp only [Dev.seqSlot] at h
  split at h
  · cases h
  next t ht =>
    split at h
    next hc =>
      cases h
      simp only [Bool.and_eq_true, decide_eq_true_eq] at hc
      exact ⟨ht, hc.1.1.2, hc.1.2⟩
    · cases h

theorem seqRun_due {d : Dev} {cs op : Nat} {s : CSlot} (h : d.seqDue cs op s) (f : Dev → CSlot → Dev) :
    d.seqRun cs op f = f (d.seqStart cs) s := by
  obtain ⟨hslot, hbusy, -⟩ := h
  simp [Dev.seqRun, hslot, hbusy]

/-- Starting a command of the sequencer changes its progress alone. -/
theorem seqStart_postsAs {d : Dev} {cs : Nat} {s : CSlot} (h : d.postable cs s) : d.PostsAs (d.seqStart cs) cs s :=
  ((Dev.PostsAs.refl h).other (g := { d with adm := { d.adm with running := some cs } }) rfl rfl rfl).modSlot (fun _ => rfl)

theorem seqStart_eq (cs : Nat) : ∃ l, d.seqStart cs
    = { d with adm := { d.adm with running := some cs }, hg := { d.hg with slots := l } } := ⟨_, rfl⟩

end Sys2Proof.Machine
end

section
/-! PROOFS. O17: doorbells, and the commands that create and delete I/O queues (R99, R107, R115, R123). -/

namespace Sys2Proof.Machine

variable (d : Dev)

/-! ### Doorbells -/

theorem leaveIdle_awake {d : Dev} (h : d.modes.mode ≠ .idle) (he : d.modes.idleEntry = false) : d.leaveIdle = d := by
  simp [Dev.leaveIdle, h, he]

section
variable {d : Dev} {f : Fn} (hb : d.bellOk f = true) (hm : d.modes.mode ≠ .idle) (he : d.modes.idleEntry = false)
include hb hm he

/-- The tail of a queue that exists moves within the queue (R99). -/
theorem sqTailDoorbell_moves {qid v : Nat} {q : Sq} (hq : (d.fnst f).sqs.get? qid = some q) (hv : v < q.size) (hne : v ≠ q.tail) :
    sqTailDoorbell f qid v d
      = d.modFn f (fun s => { s with sqs := s.sqs.ins qid { q with tail := v, bells := q.bells ++ [(v, d.now)] } }) := by
  simp [sqTailDoorbell, hb, leaveIdle_awake hm he, hq, Nat.not_le.mpr hv, hne]

theorem sqTailDoorbell_noQueue {qid : Nat} (v : Nat) (hq : (d.fnst f).sqs.get? qid = none) : sqTailDoorbell f qid v d = d.aen f aeDoorbell := by
  simp [sqTailDoorbell, hb, leaveIdle_awake hm he, hq]

theorem sqTailDoorbell_outside {qid v : Nat} {q : Sq} (hq : (d.fnst f).sqs.get? qid = some q) (hv : q.size ≤ v) :
    sqTailDoorbell f qid v d = d.aen f aeDoorbell := by
  simp [sqTailDoorbell, hb, leaveIdle_awake hm he, hq, hv]

/-- The head moves over entries that have been posted; where none is held back, none follows (R99, R135). -/
theorem cqHeadDoorbell_moves {qid v : Nat} {q : Cq} (hq : (d.fnst f).cqs.get? qid = some q) (hv : v < q.size) (hheld : q.held = [])
    (hdist : ringDist q.size q.head v ≤ ringDist q.size q.head q.tail) :
    cqHeadDoorbell f qid v d = d.modFn f (fun s => { s with cqs := s.cqs.ins qid { q with head := v } }) := by
  have hok : ¬(q.size ≤ v ∨ ringDist q.size q.head q.tail < ringDist q.size q.head v) := by omega
  simp [cqHeadDoorbell, hb, leaveIdle_awake hm he, hq, hok, Dev.postHeld, hheld]

theorem cqHeadDoorbell_noQueue {qid : Nat} (v : Nat) (hq : (d.fnst f).cqs.get? qid = none) : cqHeadDoorbell f qid v d = d.aen f aeDoorbell := by
  simp [cqHeadDoorbell, hb, leaveIdle_awake hm he, hq]

end

/-! ### Queues of a function that come and go while a command of another queue completes -/

theorem setup_eq_sqs {s t : FnSt} (h : s.setup = t.setup) : s.sqs = t.sqs := by
  have h' := congrArg FnSt.sqs h
  exact h'

section
variable {d : Dev} {cs : Nat} {s : CSlot} (h : d.postable cs s)
include h

/-- The queues that a command is completed through. -/
theorem postable_queues : ∃ sq qid cq, (d.fnst s.fn).sqs.get? s.sqid = some sq ∧ sq.cqid = qid ∧ (d.fnst s.fn).cqs.get? qid = some cq
    ∧ d.cqOf s.fn s.sqid = some (qid, cq) := by
  obtain ⟨-, -, -, -, hcq⟩ := h
  simp only [Dev.cqOf] at hcq ⊢
  split at hcq
  next c hc =>
    split at hc
    · cases hc
    next sq hsq =>
      split at hc
      · cases hc
      next cq hcq' => exact ⟨sq, sq.cqid, cq, hsq, rfl, hcq', rfl⟩
  · cases hcq

/-- Submission queues other than the command's own may change while it runs. -/
theorem modSqs_postsAs {u : Tbl Sq → Tbl Sq} (hu : ∀ t, (u t).get? s.sqid = t.get? s.sqid) :
    d.PostsAs (d.modFn s.fn (fun t => { t with sqs := u t.sqs })) cs s := by
  refine ⟨⟨s, h.1, rfl⟩, by simp, ?_, List.suffix_rfl⟩
  simp only [Dev.cqOf, Dev.fnst_modFn, hu]

/-- Completion queues other than the one that the command is posted to may change while it runs. -/
theorem modCqs_postsAs {u : Tbl Cq → Tbl Cq} {qid : Nat} {cq : Cq} (hq : d.cqOf s.fn s.sqid = some (qid, cq))
    (hu : ∀ t, (u t).get? qid = t.get? qid) : d.PostsAs (d.modFn s.fn (fun t => { t with cqs := u t.cqs })) cs s := by
  obtain ⟨sq, k, c, hsq, hk, hc, hqc⟩ := postable_queues h
  rw [hq, Option.some.injEq, Prod.mk.injEq] at hqc
  obtain ⟨rfl, rfl⟩ := hqc
  refine ⟨⟨s, h.1, rfl⟩, by simp, ?_, List.suffix_rfl⟩
  simp only [Dev.cqOf, Dev.fnst_modFn, hsq, hk, hu]

end

/-! ### The queue commands -/

theorem queueRefusal_none {f : Fn} {dw10 : Nat} {taken : Bool} (h : queueRefusal f dw10 taken = none) :
    bitsOf dw10 15 0 ≠ 0 ∧ taken = false := by
  simp only [queueRefusal] at h
  split at h
  · cases h
  next hid =>
    simp only [not_or] at hid
    exact ⟨hid.1, Bool.of_not_eq_true hid.2.2⟩

section
variable {d : Dev} {cs : Nat} {x : CSlot}

/-- The completion queue that an I/O queue is created with (R107). -/
def CSlot.newCq (x : CSlot) : Cq := ⟨x.prp1, bitsOf (x.dw 10) 31 16 + 1, 0, 0, true, bitsOf (x.dw 11) 31 16, bitOf (x.dw 11) 1, [], false⟩

/-- The submission queue that an I/O queue is created with (R107). -/
def CSlot.newSq (x : CSlot) : Sq := ⟨x.prp1, bitsOf (x.dw 10) 31 16 + 1, bitsOf (x.dw 11) 31 16, 0, 0, []⟩

theorem createIoCq_ok (h : d.adminDue cs 0x05 x)
    (hr : queueRefusal x.fn (x.dw 10) ((d.fnst x.fn).cqs.has (bitsOf (x.dw 10) 15 0)) = none) (hpc : bitOf (x.dw 11) 0 = true)
    (hvec : bitsOf (x.dw 11) 31 16 ≤ x.fn.queues) : (createIoCq cs d).posted d.out cs x cqeOk
      ∧ ((createIoCq cs d).fnst x.fn).cqs.get? (bitsOf (x.dw 10) 15 0) = some x.newCq := by
  obtain ⟨-, hfree⟩ := queueRefusal_none hr
  have hrun : createIoCq cs d = (d.modFn x.fn (fun t => { t with cqs := t.cqs.ins (bitsOf (x.dw 10) 15 0) x.newCq })).complete cs cqeOk := by
    rw [createIoCq, adminRun_due h]
    simp only [hr, hpc, Nat.not_lt.mpr hvec, Bool.true_eq_false, if_false]
    rfl
  obtain ⟨sq, qid, cq, -, -, hcq, hq⟩ := postable_queues h.2
  have hne : qid ≠ bitsOf (x.dw 10) 15 0 := by
    rintro rfl
    simp [Tbl.has, hcq] at hfree
  have hposts := modCqs_postsAs h.2 hq (u := fun t => t.ins (bitsOf (x.dw 10) 15 0) x.newCq) (fun t => Tbl.get?_ins_ne t _ hne)
  rw [hrun]
  exact ⟨hposts.complete h.2 _, (hposts.complete_cq_ne h.2 hq _ hne.symm).trans (by simp)⟩

theorem createIoSq_ok (h : d.adminDue cs 0x01 x)
    (hr : queueRefusal x.fn (x.dw 10) ((d.fnst x.fn).sqs.has (bitsOf (x.dw 10) 15 0)) = none) (hpc : bitOf (x.dw 11) 0 = true)
    (hlo : 1 ≤ bitsOf (x.dw 11) 31 16) (hhi : bitsOf (x.dw 11) 31 16 ≤ x.fn.queues)
    (hcq : (d.fnst x.fn).cqs.has (bitsOf (x.dw 11) 31 16) = true) : (createIoSq cs d).posted d.out cs x cqeOk
      ∧ ((createIoSq cs d).fnst x.fn).sqs.get? (bitsOf (x.dw 10) 15 0) = some x.newSq := by
  obtain ⟨hid, -⟩ := queueRefusal_none hr
  obtain ⟨-, hsqid, -, -⟩ := adminSlot_eq_some h.1
  have hrange : ¬(bitsOf (x.dw 11) 31 16 = 0 ∨ x.fn.queues < bitsOf (x.dw 11) 31 16) := by omega
  have hrun : createIoSq cs d = (d.modFn x.fn (fun t => { t with sqs := t.sqs.ins (bitsOf (x.dw 10) 15 0) x.newSq })).complete cs cqeOk := by
    rw [createIoSq, adminRun_due h]
    simp only [hr, hpc, hrange, hcq, Bool.true_eq_false, if_false]
    rfl
  have hposts := modSqs_postsAs h.2 (u := fun t => t.ins (bitsOf (x.dw 10) 15 0) x.newSq)
    (fun t => Tbl.get?_ins_ne t _ (by rw [hsqid]; exact hid.symm))
  rw [hrun]
  exact ⟨hposts.complete h.2 _, by rw [setup_eq_sqs (setup_complete _ cs _ x.fn)]; simp⟩

/-- A submission queue without commands is deleted. -/
theorem deleteIoSq_ok (h : d.adminDue cs 0x00 x) (hid : bitsOf (x.dw 10) 15 0 ≠ 0)
    (hhas : (d.fnst x.fn).sqs.has (bitsOf (x.dw 10) 15 0) = true)
    (hnone : (d.slotsOf x.fn).all (fun y => decide (y.2.sqid ≠ bitsOf (x.dw 10) 15 0)) = true) :
    (deleteIoSq cs d).posted d.out cs x cqeOk ∧ ((deleteIoSq cs d).fnst x.fn).sqs.get? (bitsOf (x.dw 10) 15 0) = none := by
  obtain ⟨-, hsqid, -, -⟩ := adminSlot_eq_some h.1
  have hfilter : (d.slotsOf x.fn).filter (fun y => decide (y.2.sqid = bitsOf (x.dw 10) 15 0)) = [] :=
    List.filter_eq_nil_iff.mpr fun y hy => by simpa using List.all_eq_true.mp hnone y hy
  generalize hf : d.hg.fetches.filter (fun y => decide (y.fn ≠ x.fn) || decide (y.qid ≠ bitsOf (x.dw 10) 15 0)) = l
  have hrun : deleteIoSq cs d = (({ d with hg := { d.hg with fetches := l } } : Dev).modFn x.fn
      (fun t => { t with sqs := t.sqs.del (bitsOf (x.dw 10) 15 0) })).complete cs cqeOk := by
    rw [deleteIoSq, adminRun_due h]
    simp only [hid, hhas, hfilter, hf, Bool.true_eq_false, or_self, if_false, List.foldl_nil]
  have hposts := modSqs_postsAs (d := { d with hg := { d.hg with fetches := l } }) h.2
    (u := fun t => t.del (bitsOf (x.dw 10) 15 0)) (fun t => Tbl.get?_del_ne t (by rw [hsqid]; exact hid.symm))
  rw [hrun]
  exact ⟨hposts.complete h.2 _, by rw [setup_eq_sqs (setup_complete _ cs _ x.fn)]; simp⟩

/-- A completion queue that no submission queue posts to and that holds nothing back is deleted. -/
theorem deleteIoCq_ok {q : Cq} (h : d.adminDue cs 0x04 x) (hid : bitsOf (x.dw 10) 15 0 ≠ 0)
    (hq : (d.fnst x.fn).cqs.get? (bitsOf (x.dw 10) 15 0) = some q) (hheld : q.held = [])
    (hnone : (d.fnst x.fn).sqs.any (fun y => decide (y.2.cqid = bitsOf (x.dw 10) 15 0)) = false) :
    (deleteIoCq cs d).posted d.out cs x cqeOk ∧ ((deleteIoCq cs d).fnst x.fn).cqs.get? (bitsOf (x.dw 10) 15 0) = none := by
  have hrun : deleteIoCq cs d = (d.modFn x.fn (fun t => { t with cqs := t.cqs.del (bitsOf (x.dw 10) 15 0) })).complete cs cqeOk := by
    rw [deleteIoCq, adminRun_due h]
    simp only [hq, hid, hnone, hheld, Bool.false_eq_true, if_false, List.foldl_nil]
  obtain ⟨sq, qid, cq, hsq, hk, -, hcq⟩ := postable_queues h.2
  have hne : qid ≠ bitsOf (x.dw 10) 15 0 := by
    have hsqne := List.any_eq_false.mp hnone _ (Tbl.mem_of_get? hsq)
    simpa [hk] using hsqne
  have hposts := modCqs_postsAs h.2 hcq (u := fun t => t.del (bitsOf (x.dw 10) 15 0)) (fun t => Tbl.get?_del_ne t hne)
  rw [hrun]
  exact ⟨hposts.complete h.2 _, (hposts.complete_cq_ne h.2 hcq _ hne.symm).trans (by simp)⟩

end

/-- Settles O17, from what each doorbell moves and what each queue command leaves of the queues. -/
theorem doorbellsAndQueues : Obligations.DoorbellsAndQueues := by
  refine ⟨fun s f qid v hb hm he => ⟨fun q hq hv hne => ?_, fun q hq hv hheld hdist => ?_, fun hq => ?_, fun q hq hv => ?_, fun hq => ?_⟩,
    fun s cs x => ⟨fun h hr hpc hvec => ?_, fun h hr hpc hlo hhi hcq => ?_, fun h hid hhas hnone => ?_, fun q h hid hq hheld hnone => ?_⟩⟩
  · refine ⟨s.onDev (sqTailDoorbell f qid v), rfl, rfl, ?_⟩
    rw [State.onDev_dev, sqTailDoorbell_moves hb hm he hq hv hne]
    exact ⟨rfl, by simp⟩
  · refine ⟨s.onDev (cqHeadDoorbell f qid v), rfl, rfl, ?_⟩
    rw [State.onDev_dev, cqHeadDoorbell_moves hb hm he hq hv hheld hdist]
    exact ⟨rfl, by simp⟩
  · exact next_onDev (f := sqTailDoorbell f qid v) (sqTailDoorbell_noQueue hb hm he v hq)
  · exact next_onDev (f := sqTailDoorbell f qid v) (sqTailDoorbell_outside hb hm he hq hv)
  · exact next_onDev (f := cqHeadDoorbell f qid v) (cqHeadDoorbell_noQueue hb hm he v hq)
  · exact ⟨s.onDev (createIoCq cs), rfl, rfl, createIoCq_ok h hr hpc hvec⟩
  · exact ⟨s.onDev (createIoSq cs), rfl, rfl, createIoSq_ok h hr hpc hlo hhi hcq⟩
  · exact ⟨s.onDev (deleteIoSq cs), rfl, rfl, deleteIoSq_ok h hid hhas hnone⟩
  · exact ⟨s.onDev (deleteIoCq cs), rfl, rfl, deleteIoCq_ok h hid hq hheld hnone⟩

end Sys2Proof.Machine
end

section
/-! PROOFS. O22: Identify, Get Log Page, Get Features and Set Features (R79, R105, R107, R110, R111). -/

namespace Sys2Proof.Machine

variable (d : Dev)

/-! ### What is asked for is sent -/

section
variable {d : Dev} {cs : Nat} {x : CSlot}

theorem identify_sends (h : d.adminDue cs 0x06 x) {b : List Byte} (hb : d.identified x = .inl b) :
    (identify cs d).posted (.hostWrite x.fn cs b :: d.out) cs x cqeOk := by
  rw [identify, adminRun_due h]
  simp only [hb]
  exact (Dev.PostsAs.refl h.2).answer rfl h.2 b cqeOk

theorem identify_refuses (h : d.adminDue cs 0x06 x) {e : Cqe} (he : d.identified x = .inr e) : (identify cs d).posted d.out cs x e := by
  rw [identify, adminRun_due h]
  simp only [he]
  exact complete_posted h.2 e

/-- Reading a log page empties the changed lists at most. -/
theorem logRead_postsAs (h : d.postable cs x) (s : CSlot) : d.PostsAs (d.logRead s) cs x ∧ (d.logRead s).out = d.out := by
  have hfree : d.PostsAs { d with free := d.free + 16 } cs x := (Dev.PostsAs.refl h).other rfl rfl rfl
  simp only [Dev.logRead]
  split
  · exact ⟨hfree, rfl⟩
  split
  · exact ⟨hfree.modFn _ (fun _ => ⟨rfl, rfl, rfl⟩), rfl⟩
  · split
    · exact ⟨hfree.modFn _ (fun _ => ⟨rfl, rfl, rfl⟩), rfl⟩
    · exact ⟨hfree, rfl⟩
  · exact ⟨hfree, rfl⟩

theorem getLogPage_sends (h : d.adminDue cs 0x02 x) {b : List Byte} (hb : d.logAnswer x = .inl b) :
    (getLogPage cs d).posted (.hostWrite x.fn cs b :: d.out) cs x cqeOk := by
  obtain ⟨hposts, hout⟩ := logRead_postsAs h.2 x
  rw [getLogPage, adminRun_due h]
  simp only [hb]
  exact hposts.answer hout h.2 b cqeOk

theorem getLogPage_refuses (h : d.adminDue cs 0x02 x) {e : Cqe} (he : d.logAnswer x = .inr e) : (getLogPage cs d).posted d.out cs x e := by
  rw [getLogPage, adminRun_due h]
  simp only [he]
  exact complete_posted h.2 e

/-- The features whose value Get Features returns in Dword 0 without a check of its own. -/
def wordFeats : List Nat := [0x01, 0x02, 0x07, 0x08, 0x0A, 0x0B, 0x11, 0x1D]

theorem wordFeats_plain {fid : Nat} (h : fid ∈ wordFeats) : featKnown fid = true ∧ fid ≠ 0x04 ∧ fid ≠ 0x05 ∧ fid ≠ 0x09 ∧ fid ≠ 0x0C
    ∧ fid ≠ 0x0E ∧ fid ≠ 0x1E := by
  revert fid
  decide

theorem getFeatures_current (h : d.adminDue cs 0x0A x) (hfid : bitsOf (x.dw 10) 7 0 ∈ wordFeats) (hsel : bitsOf (x.dw 10) 10 8 = 0) :
    getFeatures cs d = d.complete cs
      (cqeDw0 (BitVec.ofNat 32 (d.featNow x (bitsOf (x.dw 10) 7 0) (x.dw 11) (((d.nsOf x).map (·.1)).getD 0)))) := by
  obtain ⟨hknown, h4, h5, h9, hC, hE, h1E⟩ := wordFeats_plain hfid
  rw [getFeatures, adminRun_due h]
  simp [hsel, hknown, h4, h5, h9, hC, hE, h1E]

/-! ### Features of a controller -/

/-- Arbitration and Asynchronous Event Configuration are stored as they are set. -/
theorem setFeatures_controller (h : d.adminDue cs 0x09 x) (hfid : bitsOf (x.dw 10) 7 0 = 0x01 ∨ bitsOf (x.dw 10) 7 0 = 0x0B)
    (hsave : bitOf (x.dw 10) 31 = false) (dma : DmaIn) :
    setFeatures cs dma d = (d.putCtlFeat x.fn (bitsOf (x.dw 10) 7 0) (x.dw 11)).complete cs cqeOk := by
  have hslot : d.hg.slots.get? cs = some x := h.2.1
  obtain hf | hf := hfid <;>
    simp [setFeatures, hslot, hf, subsystemFeat, adminRun_due h, featKnown, hsave, Dev.setController]

theorem putCtlFeat_stored {d : Dev} {cs : Nat} {x : CSlot} (h : d.postable cs x) (fid v : Nat) :
    ((d.putCtlFeat x.fn fid v).complete cs cqeOk).posted d.out cs x cqeOk
    ∧ (((d.putCtlFeat x.fn fid v).complete cs cqeOk).fnst x.fn).feats.get 0 fid = BitVec.ofNat 32 v := by
  have hfeats : ∀ {s t : FnSt}, s.setup = t.setup → s.feats = t.feats := fun h => by
    have h' := congrArg FnSt.feats h
    exact h'
  refine ⟨((Dev.PostsAs.refl h).modFn x.fn (fun _ => by exact ⟨rfl, rfl, rfl⟩)).complete h _, ?_⟩
  rw [hfeats (setup_complete _ cs cqeOk x.fn)]
  simp [Dev.putCtlFeat]

/-! ### Features of the subsystem -/

theorem setFeatures_seq (h : d.seqDue cs 0x09 x) (hsub : subsystemFeat (bitsOf (x.dw 10) 7 0) = true) (dma : DmaIn) :
    setFeatures cs dma d = if x.fn.isPf = false then (d.seqStart cs).complete cs cqeNotChangeable
      else if bitOf (x.dw 10) 31 && !(featSaves (bitsOf (x.dw 10) 7 0)) then (d.seqStart cs).complete cs cqeNotSaveable
      else (d.seqStart cs).setSubsystem cs x (bitsOf (x.dw 10) 7 0) (x.dw 11) (bitOf (x.dw 10) 31) dma := by
  have hslot : d.hg.slots.get? cs = some x := h.2.2.1
  simp only [setFeatures, hslot, hsub, if_true, seqRun_due h]

end

/-! ### Selecting an operational power state (R79) -/

/-- The power states that the mode's state holds: the one in force, the one selected, and the last operational one. -/
def Modes.powerStates (m : Modes) : Nat × Nat × Nat := (m.hostPs, m.selPs, m.lastOpPs)

theorem powerStates_decideServing : d.decideServing.modes.powerStates = d.modes.powerStates := by
  simp only [Dev.decideServing]
  split
  · by_cases h : d.modes.mode = .halted
    · rw [enterMode_halted d _ h]
    · obtain ⟨l, hl⟩ := enterMode_modes (d.servingFor true) h
      rw [hl]
      rfl
  · rfl

theorem powerStates_setCond (i : Nat) (v : Bool) : (d.setCond i v).modes.powerStates = d.modes.powerStates := by
  by_cases h : d.cond i = v
  · rw [Dev.setCond, if_pos h]
  · rw [setCond_changed h]
    exact powerStates_decideServing _

/-- What a condition without an event leaves: the functions and the slots. -/
def Dev.hostSide (d : Dev) : Tbl FnSt × Hg := (d.fns, d.hg)

theorem fns_of_hostSide {a b : Dev} (h : a.hostSide = b.hostSide) : a.fns = b.fns := congrArg Prod.fst h
theorem hg_of_hostSide {a b : Dev} (h : a.hostSide = b.hostSide) : a.hg = b.hg := congrArg Prod.snd h

theorem hostSide_of_mode {a b : Dev} (h : a.butMode = b.butMode) : a.hostSide = b.hostSide := by
  have h' := congrArg Dev.hostSide h
  exact h'

theorem hostSide_setCond {i : Nat} (hi : condEvent i = none) (v : Bool) : (d.setCond i v).hostSide = d.hostSide := by
  have hdecide : ∀ x : Dev, x.decideServing.hostSide = x.hostSide := fun x => hostSide_of_mode (butMode_decideServing x)
  have hev : ∀ (x : Dev) c k p, (x.ev c k p).hostSide = x.hostSide := fun x c k p => hostSide_of_mode (butMode_ev x c k p)
  have hhealth : ∀ x : Dev, x.healthChange.hostSide = x.hostSide := fun x => by simp only [Dev.healthChange]; split <;> rfl
  have hrest : ∀ (x : Dev) (p : Prop) [Decidable p] c n l, (if p then x.decideServing.ev c n l else x.decideServing).healthChange.hostSide
      = x.hostSide := fun x p _ c n l => by
    rw [hhealth]
    split
    · rw [hev, hdecide]
    · rw [hdecide]
  cases v with
  | true =>
    simp only [Dev.setCond, hi]
    split
    · rfl
    · exact (hrest _ _ _ _ _).trans rfl
  | false =>
    simp only [Dev.setCond]
    split
    · rfl
    · exact (hrest _ _ _ _ _).trans rfl

theorem hostSide_of_work {a b : Dev} (h : a.butWork = b.butWork) : a.hostSide = b.hostSide := by
  have h' := congrArg Dev.hostSide h
  exact h'

section
variable {d : Dev} (hm : d.modes.mode ≠ .idle) (he : d.modes.idleEntry = false)
include hm he

/-- Awake, a selected operational state is in force at once, and the power_limit condition follows it. -/
theorem selectOperational_awake (ps : Nat) : (d.selectOperational ps).modes.powerStates = (ps, ps, ps)
    ∧ (d.selectOperational ps).cond 1 = decide (ps ≠ 0) ∧ (d.selectOperational ps).hostSide = d.hostSide := by
  generalize hy : ({ d with modes := { d.modes with selPs := ps, lastOpPs := ps, hostPs := ps } } : Dev) = y
  have hrun : d.selectOperational ps = (y.setCond 1 (decide (ps ≠ 0))).sluPump := by
    rw [← hy]
    simp [Dev.selectOperational, hm, he]
  have hmodes := modes_of_work (butWork_sluPump (y.setCond 1 (decide (ps ≠ 0))))
  rw [hrun]
  refine ⟨?_, ?_, ?_⟩
  · rw [hmodes, powerStates_setCond, ← hy]
    rfl
  · rw [Dev.cond, hmodes]
    exact cond_setCond y (by decide) _
  · rw [hostSide_of_work (butWork_sluPump _), hostSide_setCond y rfl, ← hy]
    rfl

end

/-- Set Features, Power Management: the state selected, device-wide, and the command completed (R79, R110). -/
theorem setFeatures_power {d : Dev} {cs : Nat} {x : CSlot} (h : d.seqDue cs 0x09 x) (hfid : bitsOf (x.dw 10) 7 0 = 0x02)
    (hpf : x.fn.isPf = true) (hps : bitsOf (x.dw 11) 4 0 ≤ 2) (hm : d.modes.mode ≠ .idle) (he : d.modes.idleEntry = false) (dma : DmaIn) :
    (setFeatures cs dma d).hg.slots.get? cs = none
    ∧ (setFeatures cs dma d).modes.powerStates = (bitsOf (x.dw 11) 4 0, bitsOf (x.dw 11) 4 0, bitsOf (x.dw 11) 4 0)
    ∧ (setFeatures cs dma d).cond 1 = decide (bitsOf (x.dw 11) 4 0 ≠ 0) := by
  generalize hz : (d.seqStart cs).putFeat 0x02 (bitsOf (x.dw 11) 7 0) (bitOf (x.dw 10) 31) = y
  have hrun : setFeatures cs dma d = (y.selectOperational (bitsOf (x.dw 11) 4 0)).complete cs cqeOk := by
    have h4 : ¬ 4 < bitsOf (x.dw 11) 4 0 := by omega
    rw [setFeatures_seq h (by rw [hfid]; rfl), hfid, ← hz]
    simp [hpf, featSaves, Dev.setSubsystem, h4, Dev.selectPs, hps]
  have hymodes : y.modes = d.modes := by rw [← hz]; rfl
  have hyside : y.hostSide = (d.seqStart cs).hostSide := by rw [← hz]; rfl
  obtain ⟨hpower, hcond, hside⟩ := selectOperational_awake (d := y) (by rw [hymodes]; exact hm) (by rw [hymodes]; exact he) (bitsOf (x.dw 11) 4 0)
  have hfns : (y.selectOperational (bitsOf (x.dw 11) 4 0)).fns = (d.seqStart cs).fns := fns_of_hostSide (hside.trans hyside)
  have hhg : (y.selectOperational (bitsOf (x.dw 11) 4 0)).hg = (d.seqStart cs).hg := hg_of_hostSide (hside.trans hyside)
  rw [hrun]
  refine ⟨?_, by rw [complete_modes, hpower], by rw [Dev.cond, complete_modes]; exact hcond⟩
  obtain ⟨t, ht, hreq⟩ := (seqStart_postsAs h.2.2).slot
  have hslot : (y.selectOperational (bitsOf (x.dw 11) 4 0)).hg.slots.get? cs = some t := by
    rw [hhg, ht]
  exact (complete_posted (Dev.postable_of_request h.2.2 hfns hslot hreq) cqeOk).1

/-- Settles O22, from what is sent (`Dev.PostsAs.answer`), and what each Set Features stores or selects. -/
theorem askingAndSetting : Obligations.AskingAndSetting := by
  refine ⟨fun s cs x => ⟨fun h b hb => ?_, fun h e he => ?_, fun h b hb => ?_, fun h e he => ?_, fun fid h hfid hsel hmem => ?_⟩,
    fun s cs x dma => ⟨fun h hfid hsave => ?_, fun h hfid hpf hps hm he => ?_, fun h hsub hvf => ?_⟩⟩
  · exact ⟨s.onDev (identify cs), rfl, rfl, identify_sends h hb⟩
  · exact ⟨s.onDev (identify cs), rfl, rfl, identify_refuses h he⟩
  · exact ⟨s.onDev (getLogPage cs), rfl, rfl, getLogPage_sends h hb⟩
  · exact ⟨s.onDev (getLogPage cs), rfl, rfl, getLogPage_refuses h he⟩
  · subst hfid
    refine ⟨s.onDev (getFeatures cs), rfl, rfl, ?_⟩
    rw [State.onDev_dev, getFeatures_current h hmem hsel]
    exact complete_posted h.2 _
  · refine ⟨s.onDev (setFeatures cs dma), rfl, rfl, ?_⟩
    rw [State.onDev_dev, setFeatures_controller h hfid hsave]
    exact putCtlFeat_stored h.2 _ _
  · obtain ⟨hfree, hpower, hcond⟩ := setFeatures_power h hfid hpf hps hm he dma
    exact ⟨s.onDev (setFeatures cs dma), rfl, rfl, hfree, congrArg (·.2.1) hpower, congrArg (·.1) hpower, congrArg (·.2.2) hpower, hcond⟩
  · refine ⟨s.onDev (setFeatures cs dma), rfl, rfl, ?_⟩
    rw [State.onDev_dev, setFeatures_seq h hsub, if_pos hvf]
    exact (seqStart_postsAs h.2.2).complete h.2.2 _

end Sys2Proof.Machine
end

section
/-! PROOFS. O23: firmware that is staged, committed and activated (R58, R70, R107, R114, R141). -/

namespace Sys2Proof.Machine

variable (d : Dev)

/-! ### HG_CTRL's bits for an activation -/

/-- HG_CTRL's two bits of an activation set or cleared: the drain of I/O and the hold of its fetches (R141, R149). -/
def Dev.drainBits (d : Dev) (v : Nat) : Dev := (d.setField aHgCtrl 1 1 v).setField aHgCtrl 3 3 v

theorem drainBits_read {v : Nat} (hv : v ≤ 1) : bitOf ((d.drainBits v).csrW aHgCtrl).toNat 1 = decide (v = 1)
    ∧ bitOf ((d.drainBits v).csrW aHgCtrl).toNat 3 = decide (v = 1) := by
  have hlt := (d.csrW aHgCtrl).isLt
  simp only [Dev.drainBits, Dev.setField, Dev.csrW_setCsr, bitOf, bitsOf, BitVec.toNat_ofNat, decide_eq_decide]
  omega

/-! ### Download -/

theorem Adm.firmware_of_rest {a b : Adm} (h : a.rest = b.rest) : a.fw = b.fw ∧ a.fwEnd = b.fwEnd ∧ a.activating = b.activating := by
  have hfw := congrArg Adm.fw h
  have hend := congrArg Adm.fwEnd h
  have hact := congrArg Adm.activating h
  exact ⟨hfw, hend, hact⟩

theorem firmwareImageDownload_ok {d : Dev} {cs : Nat} {x : CSlot} (h : d.adminDue cs 0x11 x) (b : List Byte)
    (hn : (4 * (x.dw 10 + 1)) % 4096 = 0) (ho : (4 * x.dw 11) % 4096 = 0) (hend : 4 * x.dw 11 + 4 * (x.dw 10 + 1) ≤ 33574912) :
    ∃ p, firmwareImageDownload cs (.ok b) d = ({ d with adm := { d.adm with
      fw := storeBytes d.adm.fw (4 * x.dw 11) (slice b 0 (4 * (x.dw 10 + 1))), fwPages := p
      fwEnd := max d.adm.fwEnd (4 * x.dw 11 + 4 * (x.dw 10 + 1)) } } : Dev).complete cs cqeOk := by
  refine ⟨addPages d.adm.fwPages (4 * x.dw 11 / 4096) (4 * (x.dw 10 + 1) / 4096), ?_⟩
  rw [firmwareImageDownload, adminRun_due h]
  simp only [hn, ho, Nat.not_lt.mpr hend, ne_eq, not_true_eq_false, or_self, if_false, Dev.withData]

/-! ### Commit -/

@[simp] theorem rest_aenAll (e : AEvent) (w : Option Nat) (p : Fn → Bool) : (d.aenAll e w p).adm.rest = d.adm.rest := by
  refine foldl_keeps (fun x => x.adm.rest) _ (fun x f => ?_) _ d
  simp only [Dev.aen, Dev.pumpAer]
  (repeat' split) <;> simp

/-- The activation under way: what it will run, the time it started, and HG_CTRL's drain (Table 05-7). -/
theorem startActivation_keeps (r : RunFolio) :
    (d.startActivation r).adm.rest = { d.adm.rest with activating := some (d.now, r), lateSeen := false }
    ∧ bitOf ((d.startActivation r).csrW aHgCtrl).toNat 1 = true ∧ bitOf ((d.startActivation r).csrW aHgCtrl).toNat 3 = true
    ∧ (d.startActivation r).boot = d.boot := by
  generalize hx : ({ d with adm := { d.adm with activating := some (d.now, r), lateSeen := false } } : Dev) = x
  have hrun : d.startActivation r = (x.aenAll aeActivation).drainBits 1 := by rw [← hx]; rfl
  have hframe := butHost_aenAll x aeActivation none (fun _ => true)
  have hboot : (x.aenAll aeActivation).boot = x.boot := by have h := congrArg Dev.boot hframe; exact h
  rw [hrun]
  refine ⟨(rest_aenAll x _ _ _).trans (by rw [← hx]; rfl), (drainBits_read _ (le_refl 1)).1, (drainBits_read _ (le_refl 1)).2, ?_⟩
  exact hboot.trans (by rw [← hx])

/-- A Firmware Commit of a whole and verified Folio starts its activation, and the staging area is empty. -/
theorem firmwareCommit_starts {d : Dev} {cs : Nat} {x : CSlot} {fuse : Fuses} (h : d.seqDue cs 0x10 x) (hidle : d.adm.activating = none)
    (hact : bitsOf (x.dw 10) 5 3 = 3) (hfs : bitsOf (x.dw 10) 2 0 ≤ 1) (hsome : 0 < d.adm.fwEnd)
    (hwhole : d.adm.fwPages.length * 4096 = d.adm.fwEnd) (hcheck : folioCheck fuse d.adm.fw d.adm.fwEnd = none)
    (hrun : (runFolioOf fuse d.adm.fw).activatable = true) (hroom : d.bcol.full = false) :
    firmwareCommit cs fuse d = ((d.seqStart cs).dropFw.startActivation (runFolioOf fuse d.adm.fw)).modSlot cs
      (fun s => { s with wait := .drain }) := by
  have hfs' : ¬ 1 < bitsOf (x.dw 10) 2 0 := by omega
  have hadm : (d.seqStart cs).adm = { d.adm with running := some cs } := rfl
  have hbcol : (d.seqStart cs).dropFw.bcol.full = false := hroom
  simp only [firmwareCommit, hidle, Option.isSome_none, Bool.false_and, Bool.false_eq_true, if_false, seqRun_due h, hadm, hact, hfs', hsome,
    hwhole, hcheck, hrun, hbcol, decide_true, Bool.and_true, Bool.not_true, Bool.or_false, ne_eq, not_true_eq_false, or_self]

/-! ### The activation once I/O has drained -/

/-- The device that runs the Folio of its activation, with fetching resumed (R141 steps 4 and 5). -/
def Dev.activated (d : Dev) (r : RunFolio) : Dev :=
  (({ d with adm := { d.adm with activating := none }, boot := { d.boot with run := some r } } : Dev).appendBcol 1 0 r.mv r.svn []
    r.buildId).drainBits 0

/-- The device once the Firmware Commit that waited has completed. -/
def Dev.commitDone (d : Dev) : Dev := d.adm.running.elim d (fun cs => d.complete cs cqeOk)

theorem activated_eq (r : RunFolio) : ∃ b c, d.activated r = { d with
    adm := { d.adm with activating := none }, boot := { d.boot with run := some r }, bcol := b, csr := c } := by
  simp only [Dev.activated, Dev.appendBcol]
  split <;> exact ⟨_, _, rfl⟩

theorem activationDrained_due {s : State} {t0 : Nat} {r : RunFolio} (h : s.dev.adm.activating = some (t0, r)) (hio : s.dev.ioHeld = 0)
    (hsvn : r.commitSvn = false) : activationDrained s = { s with dev := (s.dev.activated r).commitDone } := by
  have hcommit : (s.onDev (fun d => d.activated r)).commitSvn = s.onDev (fun d => d.activated r) := by
    obtain ⟨b, c, he⟩ := activated_eq s.dev r
    simp [State.commitSvn, he, hsvn]
  simp only [activationDrained, h, hio, ne_eq, not_true_eq_false, if_false]
  change State.onDev (State.commitSvn (s.onDev (fun d => d.activated r))) _ = _
  rw [hcommit]
  simp only [State.onDev, Dev.commitDone]
  cases (s.dev.activated r).adm.running <;> rfl

/-- Completing the Firmware Commit leaves what the activation did. -/
theorem commitDone_keeps : d.commitDone.boot = d.boot ∧ d.commitDone.adm.rest = d.adm.rest ∧ d.commitDone.csrW aHgCtrl = d.csrW aHgCtrl := by
  simp only [Dev.commitDone]
  cases d.adm.running with
  | none => exact ⟨rfl, rfl, rfl⟩
  | some cs => exact ⟨complete_boot d cs _, rest_complete d cs _, complete_csrW d cs _ _⟩

/-- Settles O23, from what a download stages, what a commit starts, and what the drained activation leaves. -/
theorem firmwareActivates : Obligations.FirmwareActivates := by
  refine fun s cs x => ⟨fun b h hn ho hend => ?_, fun h hidle hact hfs hsome hwhole hcheck hrun hroom => ?_, fun t0 r h hio hsvn => ?_⟩
  · obtain ⟨p, hp⟩ := firmwareImageDownload_ok h b hn ho hend
    refine ⟨s.onDev (firmwareImageDownload cs (.ok b)), rfl, rfl, ?_⟩
    rw [State.onDev_dev, hp]
    obtain ⟨hfw, hfwEnd, -⟩ := Adm.firmware_of_rest (rest_complete _ cs cqeOk)
    exact ⟨((Dev.PostsAs.refl h.2).other (by rfl) (by rfl) (by rfl)).complete h.2 _, hfw, hfwEnd, complete_boot _ _ _⟩
  · obtain ⟨hrest, hbit1, hbit3, hboot⟩ := startActivation_keeps (s.dev.seqStart cs).dropFw (runFolioOf s.fuse s.dev.adm.fw)
    refine ⟨s.onDev (firmwareCommit cs s.fuse), rfl, rfl, ?_⟩
    rw [State.onDev_dev, firmwareCommit_starts h hidle hact hfs hsome hwhole hcheck hrun hroom]
    exact ⟨congrArg Adm.fwEnd hrest, congrArg Adm.fw hrest, congrArg Adm.activating hrest, hbit1, hbit3, hboot⟩
  · obtain ⟨b, c, he⟩ := activated_eq s.dev r
    obtain ⟨hboot, hrest, hcsr⟩ := commitDone_keeps (s.dev.activated r)
    obtain ⟨-, -, hact⟩ := Adm.firmware_of_rest hrest
    obtain ⟨hbit1, hbit3⟩ := drainBits_read (Dev.appendBcol _ 1 0 r.mv r.svn [] r.buildId) (Nat.zero_le 1)
    refine ⟨activationDrained s, rfl, ?_⟩
    rw [activationDrained_due h hio hsvn]
    refine ⟨rfl, by rw [hboot, he], by rw [hact, he], by rw [hcsr]; exact hbit1, by rw [hcsr]; exact hbit3, fun hrunning hpost => ?_⟩
    have hdone : (s.dev.activated r).commitDone = (s.dev.activated r).complete cs cqeOk := by
      have hr : (s.dev.activated r).adm.running = some cs := by rw [he]; exact hrunning
      rw [Dev.commitDone, hr]
      rfl
    rw [hdone]
    exact ((Dev.PostsAs.refl hpost).other (by rw [he]) (by rw [he]) (by rw [he])).complete hpost _

end Sys2Proof.Machine
end

section
/-! PROOFS. O24: self-tests, secondary controllers, in-band NVMe-MI and Get LBA Status (R96, R107, R121, R187, R248). -/

namespace Sys2Proof.Machine

variable (d : Dev)

/-! ### What the end of a function's commands sends -/

theorem foldl_suffix {α β γ : Type} (o : α → List γ) (g : α → β → α) (h : ∀ a b, o a <:+ o (g a b)) (l : List β) (a : α) :
    o a <:+ o (l.foldl g a) := by
  induction l generalizing a with
  | nil => exact List.suffix_rfl
  | cons b l ih => exact (h a b).trans (ih _)

theorem out_linkPump (s : Nat) : d.out <:+ (d.linkPump s).out := by
  simp only [Dev.linkPump]
  split
  · exact foldl_suffix Dev.out Dev.emit (fun _ _ => List.suffix_cons _ _) _ (Dev.modLink d s _)
  · exact List.suffix_rfl

theorem out_issueOp (op : OpReq) (g t : Option Nat) : d.out <:+ (d.issueOp op g t).1.out :=
  out_linkPump (Dev.modLink (Dev.modLink d _ _) _ _) _

theorem out_startBusy (g : Nat) (r : OpReq) : d.out <:+ (d.startBusy g r).out := out_issueOp d r (some g) none

theorem out_startRead (g : Nat) (r : OpReq) (rid : Option Nat) : d.out <:+ (d.startRead g r rid).out := by
  cases rid <;> exact out_issueOp d r (some g) none

theorem out_grant (id : Nat) (r : OpReq) (p : FloorPart × Bool) : d.out <:+ (d.grant id r p).out := by
  simp only [Dev.grant, Dev.startGrant]
  split
  · exact List.suffix_rfl
  split
  · split
    · exact List.suffix_rfl
    · exact .trans (by exact List.suffix_rfl) (out_startBusy _ id r)
  · exact .trans (by exact List.suffix_rfl) (out_startRead _ id r r.rid)

theorem out_sluPump : d.out <:+ d.sluPump.out := by
  refine foldl_suffix Dev.out _ (fun x k => foldl_suffix Dev.out _ (fun y w => ?_) _ x) _ d
  split
  · exact out_grant y _ _ _
  · exact List.suffix_rfl

theorem out_resumeDie (s k : Nat) : d.out <:+ (d.resumeDie s k).out := by
  simp only [Dev.resumeDie]
  split
  · exact List.suffix_rfl
  · exact out_issueOp d _ none _

theorem out_startDeferred (g : Nat) : d.out <:+ (d.startDeferred g).out := by
  simp only [Dev.startDeferred]
  split
  · exact List.suffix_rfl
  split
  · exact List.suffix_rfl
  · exact .trans (by exact List.suffix_rfl) (out_startBusy _ g _)

theorem out_pumpDeferred (s k : Nat) : d.out <:+ (d.pumpDeferred s k).out := by
  refine foldl_suffix Dev.out _ (fun y w => ?_) _ d
  split
  · exact List.suffix_rfl
  split
  · exact out_startDeferred y _
  · exact List.suffix_rfl

theorem out_dieNext (s k : Nat) : d.out <:+ (d.dieNext s k).out := by
  simp only [Dev.dieNext]
  split
  · exact (out_resumeDie d s k).trans ((out_pumpDeferred _ s k).trans (out_sluPump _))
  · exact (out_pumpDeferred d s k).trans (out_sluPump _)

theorem out_dropRead (rid : Nat) : d.out <:+ (d.dropRead rid).out := by
  simp only [Dev.dropRead]
  split
  · exact List.suffix_rfl
  split
  · exact .trans (by exact List.suffix_rfl) (out_dieNext _ _ _)
  · exact List.suffix_rfl

theorem out_dropReadAll (rid : Nat) : d.out <:+ (d.dropReadAll rid).out :=
  (foldl_suffix Dev.out Dev.dropRead out_dropRead _ d).trans (out_dropRead _ rid)

theorem out_dropReaders (l : List Nat) : d.out <:+ (l.foldl Dev.dropReader d).out := by
  obtain ⟨c, b, h⟩ := dropReaders_eq d l
  rw [h]

theorem out_endReads (cs : Nat) : d.out <:+ (d.endReads cs).out := by
  have hreads : ∀ l : List Nat, d.out <:+ (l.foldl Dev.dropReadAll d).out := fun l => foldl_suffix Dev.out Dev.dropReadAll out_dropReadAll l d
  simp only [Dev.endReads]
  split
  · exact hreads _
  split
  · exact (hreads _).trans (out_dropReaders (Dev.modSlot _ cs _) _)
  · exact hreads _

theorem out_dropWork (cs : Nat) : d.out <:+ (d.dropWork cs).out := by
  simp only [Dev.dropWork]
  split
  · exact out_endReads d cs
  next s _ =>
    obtain ⟨b, hb⟩ := freeBufs_eq (d.endReads cs) s.bufs
    rw [hb]
    exact out_endReads d cs

theorem out_freeSlot (cs : Nat) : (d.freeSlot cs).out = d.out := by
  simp only [Dev.freeSlot]
  split
  · rfl
  · exact settleFn_out _ _

theorem out_endSlot (cs : Nat) : d.out <:+ (d.endSlot cs).out := by
  have hgone : ∀ (x : Dev) s, ((x.discardCpl s).freeSlot cs).out = x.out := fun x s => out_freeSlot (x.discardCpl s) cs
  simp only [Dev.endSlot]
  split
  · exact List.suffix_rfl
  next s _ =>
    have hwork : d.out <:+ (((d.dropWork cs).discardCpl s).freeSlot cs).out := by rw [hgone]; exact out_dropWork d cs
    have hleft : d.out <:+ ((d.discardCpl s).freeSlot cs).out := by rw [hgone]
    split
    · exact hwork
    · exact hwork
    · exact hwork
    · exact hleft
    · exact hleft
    · split
      · exact List.suffix_rfl
      · exact hleft

/-! ### What it leaves of another command's slot -/

theorem Tbl.lt_of_above {α : Type} {t : Tbl α} {b k : Nat} {v : α} (h : t.above b = true) (hk : (k, v) ∈ t) : b < k := by
  induction t generalizing b with
  | nil => cases hk
  | cons y t ih =>
    obtain ⟨k', v'⟩ := y
    simp only [Tbl.above, Bool.and_eq_true, decide_eq_true_eq] at h
    obtain hk | hk := List.mem_cons.mp hk
    · cases hk; exact h.1
    · exact h.1.trans (ih h.2 hk)

theorem Tbl.wf_of_above {α : Type} {t : Tbl α} {b : Nat} (h : t.above b = true) : t.wf = true := by
  cases t with
  | nil => rfl
  | cons y t =>
    simp only [Tbl.above, Bool.and_eq_true] at h
    rw [Tbl.wf_cons]
    exact h.2

/-- A table in its canonical form lists a key once. -/
theorem Tbl.get?_of_mem {α : Type} {t : Tbl α} {k : Nat} {v : α} (h : t.wf = true) (hk : (k, v) ∈ t) : t.get? k = some v := by
  induction t with
  | nil => cases hk
  | cons y t ih =>
    obtain ⟨k', v'⟩ := y
    rw [Tbl.wf_cons] at h
    obtain hk | hk := List.mem_cons.mp hk
    · cases hk; simp [Tbl.get?]
    · have hlt := Tbl.lt_of_above h hk
      simp [Tbl.get?, Nat.ne_of_gt hlt, ih (Tbl.wf_of_above h) hk]

theorem Tbl.wf_upd {α : Type} (t : Tbl α) (k : Nat) (u : α → α) (h : t.wf = true) : (t.upd k u).wf = true := by
  simp only [Tbl.upd]
  split
  · exact Tbl.wf_set? k _ t h
  · exact h

section
variable {cs c : Nat} (hc : cs ≠ c)
include hc

theorem slots_modSlot_ne (u : CSlot → CSlot) : (d.modSlot c u).hg.slots.get? cs = d.hg.slots.get? cs := Tbl.get?_upd_ne _ _ hc

theorem slots_freeSlot_ne : (d.freeSlot c).hg.slots.get? cs = d.hg.slots.get? cs := by
  simp only [Dev.freeSlot]
  split
  · rfl
  · rw [settleFn_hg]; exact Tbl.get?_del_ne _ hc

theorem slots_dropWork_ne : (d.dropWork c).hg.slots.get? cs = d.hg.slots.get? cs := by
  have hend : (d.endReads c).hg.slots.get? cs = d.hg.slots.get? cs := by
    simp only [Dev.endReads]
    split
    · rw [hg_dropReads]
    split
    next s _ _ =>
      obtain ⟨k, b, h⟩ := dropReaders_eq (Dev.modSlot (List.foldl Dev.dropReadAll d _) c _) s.tags
      refine (congrArg (fun x : Dev => x.hg.slots.get? cs) h).trans ?_
      exact (slots_modSlot_ne _ hc _).trans (by rw [hg_dropReads])
    · rw [hg_dropReads]
  simp only [Dev.dropWork]
  split
  · exact hend
  next s _ =>
    obtain ⟨b, hb⟩ := freeBufs_eq (d.endReads c) s.bufs
    rw [slots_modSlot_ne _ hc, hb]
    exact hend

theorem slots_endSlot_ne : (d.endSlot c).hg.slots.get? cs = d.hg.slots.get? cs := by
  have hgone : ∀ (x : Dev) s, ((x.discardCpl s).freeSlot c).hg.slots.get? cs = x.hg.slots.get? cs :=
    fun x s => slots_freeSlot_ne (x.discardCpl s) hc
  simp only [Dev.endSlot]
  (repeat' split) <;> simp only [hgone, slots_dropWork_ne d hc, slots_modSlot_ne d hc]

end

theorem slots_endSlots {cs : Nat} {l : List Nat} (h : cs ∉ l) : (l.foldl Dev.endSlot d).hg.slots.get? cs = d.hg.slots.get? cs := by
  induction l generalizing d with
  | nil => rfl
  | cons c l ih =>
    obtain ⟨hc, hl⟩ := not_or.mp (mt List.mem_cons.mpr h)
    exact (ih (d.endSlot c) hl).trans (slots_endSlot_ne d hc)

/-! ### A controller reset, seen from a command of another function -/

theorem out_endFn (f : Fn) : d.out <:+ (d.endFn f).out := by
  rw [Dev.endFn]
  exact .trans (by exact List.suffix_rfl) (foldl_suffix Dev.out Dev.endSlot out_endSlot _ _)

theorem out_ctlGone (f : Fn) : d.out <:+ (d.ctlGone f).out := out_endFn d f

theorem ctlGone_fnst_ne {f g : Fn} (h : g.key ≠ f.key) : ((d.ctlGone f).fnst g).unsettled = (d.fnst g).unsettled := by
  rw [Dev.ctlGone, Dev.fnst_modFn_ne _ _ h, unsettled_endFn, Dev.fnst_modFn_ne _ _ h]

theorem slots_ctlGone {d : Dev} {cs : Nat} {x : CSlot} (h : d.hg.slots.get? cs = some x) (hwf : d.hg.slots.wf = true) {f : Fn} (hne : x.fn ≠ f) :
    (d.ctlGone f).hg.slots.get? cs = some x := by
  have hmine : cs ∉ (d.slotsOf f).map (·.1) := fun hmem => by
    obtain ⟨⟨c, y⟩, hy, rfl⟩ := List.mem_map.mp hmem
    obtain ⟨hin, hfn⟩ := List.mem_filter.mp hy
    have hget := Tbl.get?_of_mem hwf hin
    rw [h, Option.some.injEq] at hget
    exact hne (hget ▸ of_decide_eq_true hfn)
  exact (slots_endSlots (Dev.modFn _ _ _) hmine).trans h

/-- A controller reset of a VF leaves a PF's command as it was. -/
theorem Dev.PostsAs.resetCtl {d e : Dev} {cs : Nat} {x : CSlot} (he : d.PostsAs e cs x) (hwf : e.hg.slots.wf = true) {p : Port} {n : Nat}
    (hn : 1 ≤ n) (hpf : x.fn.isPf = true) : d.PostsAs (e.resetCtl (.vf p n)) cs x := by
  obtain ⟨k, hk⟩ := resetCtl_eq e (.vf p n)
  obtain ⟨t, ht, hreq⟩ := he.slot
  have hne : t.fn ≠ .vf p n := fun hvf => by rw [← CSlot.fn_of_request hreq, hvf] at hpf; cases hpf
  have hfn : ((e.resetCtl (.vf p n)).fnst x.fn).unsettled = (e.fnst x.fn).unsettled := by
    rw [hk, unsettled_settleFn]
    exact ctlGone_fnst_ne e (key_ne_of_vf hpf hn)
  have hbme := congrArg FnSt.bme hfn
  have hsqs := congrArg FnSt.sqs hfn
  have hcqs := congrArg FnSt.cqs hfn
  simp only [FnSt.unsettled] at hbme hsqs hcqs
  refine he.trans ⟨⟨t, ?_, hreq⟩, hbme, by simp only [Dev.cqOf, hsqs, hcqs], ?_⟩
  · rw [hk, settleFn_hg]
    exact slots_ctlGone ht hwf hne
  · rw [hk, settleFn_out]
    exact out_ctlGone e _

/-! ### Secondary controllers -/

/-- A controller identifier's VF has a number. -/
theorem vf_of_cntlid {c : Nat} {f : Fn} (h : fnOfCntlid c = some f) (hf : f.isPf = false) : ∃ p n, f = .vf p n ∧ 1 ≤ n := by
  simp only [fnOfCntlid] at h
  split at h
  · cases h; cases hf
  split at h
  · cases h; cases hf
  split at h
  · cases h; exact ⟨_, _, rfl, by omega⟩
  split at h
  · cases h; exact ⟨_, _, rfl, by omega⟩
  · cases h

theorem makeReady_online (f : Fn) : ((d.makeReady f).fnst f).online = (d.fnst f).online := by
  simp only [Dev.makeReady]
  (repeat' split) <;> simp

/-- Another function that becomes ready leaves the command as it was. -/
theorem Dev.PostsAs.makeReady_ne {d e : Dev} {cs : Nat} {x : CSlot} (he : d.PostsAs e cs x) {f : Fn} (hf : x.fn.key ≠ f.key) :
    d.PostsAs (e.makeReady f) cs x := by
  have hmod : ∀ u, d.PostsAs (e.modFn f u) cs x := fun u => by
    have hfn : (e.modFn f u).fnst x.fn = e.fnst x.fn := Dev.fnst_modFn_ne _ _ hf
    exact he.trans ⟨he.slot, by rw [hfn], by simp only [Dev.cqOf, hfn], List.suffix_rfl⟩
  simp only [Dev.makeReady]
  split
  · exact he
  split
  · exact hmod _
  · exact hmod _

section
variable {d : Dev} {cs : Nat} {x : CSlot} {f : Fn} (h : d.seqDue cs 0x1C x) (hf : f.isPf = false) (hport : f.port = x.fn.port)
  (hctl : fnOfCntlid (bitsOf (x.dw 10) 31 16) = some f)
include h hf hport hctl

theorem virtualizationManagement_offline (hact : bitsOf (x.dw 10) 3 0 = 7) : virtualizationManagement cs d
    = (((d.seqStart cs).modFn f (fun t => { t with online := false })).resetCtl f).complete cs cqeOk := by
  simp [virtualizationManagement, seqRun_due h, hact, hctl, hf, hport]

/-- A VF that is Offline is reset, and its queues are gone. -/
theorem virtualizationManagement_resets (hwf : d.hg.slots.wf = true) (hpf : x.fn.isPf = true) (hact : bitsOf (x.dw 10) 3 0 = 7) :
    (virtualizationManagement cs d).posted d.out cs x cqeOk ∧ ((virtualizationManagement cs d).fnst f).online = false
      ∧ ((virtualizationManagement cs d).fnst f).sqs = [] ∧ ((virtualizationManagement cs d).fnst f).cqs = [] := by
  rw [virtualizationManagement_offline h hf hport hctl hact]
  obtain ⟨p, n, rfl, hn⟩ := vf_of_cntlid hctl hf
  obtain ⟨hslot, -, hpost⟩ := h
  obtain ⟨hget, -, -⟩ := seqSlot_eq_some hslot
  have hwf' : (d.seqStart cs).hg.slots.wf = true := Tbl.wf_upd _ _ _ hwf
  have hgone := ((seqStart_postsAs hpost).modFn (.vf p n) (u := fun t => { t with online := false })
    (fun _ => by exact ⟨rfl, rfl, rfl⟩)).resetCtl (p := p) hwf' hn hpf
  have hfn := resetCtl_fnst ((d.seqStart cs).modFn (.vf p n) (fun t => { t with online := false })) (.vf p n)
  rw [Dev.fnst_modFn] at hfn
  rw [hgone.complete_fnst_ne hpost _ (key_ne_of_vf hpf hn).symm]
  exact ⟨hgone.complete hpost _, congrArg FnSt.online hfn, congrArg FnSt.sqs hfn, congrArg FnSt.cqs hfn⟩

/-- A VF that is Online answers again. -/
theorem virtualizationManagement_online (hpf : x.fn.isPf = true) (hup : d.fnUp f = true) (hact : bitsOf (x.dw 10) 3 0 = 9) :
    (virtualizationManagement cs d).posted d.out cs x cqeOk ∧ ((virtualizationManagement cs d).fnst f).online = true := by
  obtain ⟨p, n, rfl, hn⟩ := vf_of_cntlid hctl hf
  have hup' : (d.seqStart cs).fnUp (.vf p n) = true := hup
  have hpost := h.2.2
  have hrun : virtualizationManagement cs d = _ := seqRun_due h _
  simp only [hact, hctl, hf, hport, hup', Bool.false_or, ne_eq, not_true_eq_false, decide_false, Bool.false_eq_true, if_false, Bool.not_true,
    and_false, Nat.reduceEqDiff] at hrun
  rw [hrun]
  generalize hy : (d.seqStart cs).modFn (.vf p n) (fun t => { t with online := true }) = y
  have hon : d.PostsAs y cs x := by rw [← hy]; exact (seqStart_postsAs hpost).modFn _ (fun _ => by exact ⟨rfl, rfl, rfl⟩)
  have hyon : (y.fnst (.vf p n)).online = true := by rw [← hy, Dev.fnst_modFn]
  have hkey := key_ne_of_vf (p := p) hpf hn
  split
  · rw [(hon.makeReady_ne hkey).complete_fnst_ne hpost _ hkey.symm, makeReady_online, hyon]
    exact ⟨(hon.makeReady_ne hkey).complete hpost _, rfl⟩
  · rw [hon.complete_fnst_ne hpost _ hkey.symm]
    exact ⟨hon.complete hpost _, hyon⟩

end

/-! ### In-band NVMe-MI -/

/-- A Management Interface command touches the management state, the alert and the free counter. -/
theorem miRun_eq (op a b : Nat) : ∃ m p k, (d.miRun op a b).1 = { d with mgmt := m, pins := p, free := k } := by
  simp only [Dev.miRun, Dev.miHealth, Dev.miCtlHealth, Dev.miConfigSet]
  (repeat' split) <;> exact ⟨_, _, _, rfl⟩

theorem miRun_postsAs {d : Dev} {cs : Nat} {x : CSlot} (h : d.postable cs x) (op a b : Nat) : d.PostsAs (d.miRun op a b).1 cs x
    ∧ (d.miRun op a b).1.out = d.out := by
  obtain ⟨m, p, k, he⟩ := miRun_eq d op a b
  rw [he]
  exact ⟨(Dev.PostsAs.refl h).other (by rfl) (by rfl) (by rfl), rfl⟩

section
variable {d : Dev} {cs : Nat} {x : CSlot} (hop : bitsOf (x.dw 11) 7 0 ≤ 4)
include hop

/-- The answer of the command that an in-band command carries (R121). -/
def Dev.miInner (d : Dev) (x : CSlot) : Dev × MiAns := d.miRun (bitsOf (x.dw 11) 7 0) (x.dw 12) (x.dw 13)

/-- The response in Dword 0 of its completion. -/
def MiAns.cqe (a : MiAns) : Cqe := cqeDw0 (BitVec.ofNat 32 (a.status + 256 * a.resp))

theorem nvmeMiSend_ok (h : d.adminDue cs 0x1D x) (b : List Byte) :
    nvmeMiSend cs (.ok b) d = (d.miInner x).1.complete cs (d.miInner x).2.cqe := by
  obtain ⟨-, -, hopc, -⟩ := adminSlot_eq_some h.1
  simp [nvmeMiSend, adminRun_due h, Dev.withData, Dev.miInBand, Nat.not_lt.mpr hop, hopc, Dev.miInner, MiAns.cqe]

theorem nvmeMiReceive_ok (h : d.adminDue cs 0x1E x) :
    nvmeMiReceive cs d = (d.miInner x).1.answer cs (d.miInner x).2.data (d.miInner x).2.cqe := by
  obtain ⟨-, -, hopc, -⟩ := adminSlot_eq_some h.1
  simp [nvmeMiReceive, adminRun_due h, Dev.miInBand, Nat.not_lt.mpr hop, hopc, Dev.miInner, MiAns.cqe]

end

/-! ### Get LBA Status -/

theorem getLbaStatus_ok {d : Dev} {cs : Nat} {x : CSlot} {ns : Nat} {n : Nsp} (h : d.adminDue cs 0x86 x) (hns : d.nsOf x = some (ns, n))
    (hlba : x.slba < n.nsze) (hlen : bitsOf (x.dw 13) 15 0 ≠ 0) (htype : bitsOf (x.dw 13) 31 24 = 0x10 ∨ bitsOf (x.dw 13) 31 24 = 0x11)
    (hfit : (clipRanges (d.lostOf ns n) x.slba (bitsOf (x.dw 13) 15 0)).length ≤ (4 * (x.dw 12 + 1) - 8) / 16) :
    getLbaStatus cs d = d.answer cs (leBytes 4 (clipRanges (d.lostOf ns n) x.slba (bitsOf (x.dw 13) 15 0)).length ++ leBytes 1 2 ++ leBytes 3 0
      ++ (clipRanges (d.lostOf ns n) x.slba (bitsOf (x.dw 13) 15 0)).flatMap (fun r => r.desc 0x10)) := by
  have hbad : ¬ (bitsOf (x.dw 13) 31 24 ≠ 0x10 ∧ bitsOf (x.dw 13) 31 24 ≠ 0x11) := by omega
  simp only [getLbaStatus, adminRun_due h, hns, if_neg hlen, if_neg hbad, if_neg (Nat.not_le.mpr hlba), List.take_of_length_le hfit,
    if_neg (Nat.not_lt.mpr hfit)]

/-! ### Self-tests -/

section
variable {d : Dev} {cs : Nat} {x : CSlot} (h : d.adminDue cs 0x14 x)
include h

theorem deviceSelfTest_starts (hidle : d.adm.selfTest = none) (hcode : bitsOf (x.dw 10) 3 0 = 1 ∨ bitsOf (x.dw 10) 3 0 = 2) :
    deviceSelfTest cs d = ({ d with adm := { d.adm with selfTest := some (bitsOf (x.dw 10) 3 0) } } : Dev).complete cs cqeOk := by
  simp only [deviceSelfTest, adminRun_due h, hidle, if_pos hcode]

theorem deviceSelfTest_aborts {k : Nat} (hbusy : d.adm.selfTest = some k) (hcode : bitsOf (x.dw 10) 3 0 = 15) :
    deviceSelfTest cs d = (d.logSelf k 1).complete cs cqeOk := by
  simp only [deviceSelfTest, adminRun_due h, hbusy, hcode, if_true]

end

theorem Adm.selfTest_of_rest {a b : Adm} (h : a.rest = b.rest) : a.selfTest = b.selfTest ∧ a.selfLog = b.selfLog := by
  have htest := congrArg Adm.selfTest h
  have hlog := congrArg Adm.selfLog h
  exact ⟨htest, hlog⟩

/-- Settles O24, from what a self-test logs, what a VF that goes Offline loses (`virtualizationManagement_resets`), and what the Management
Interface answers. -/
theorem testsAndVirtualFunctions : Obligations.TestsAndVirtualFunctions := by
  refine ⟨fun s cs x => ⟨fun h hidle hcode => ?_, fun k h hbusy hcode => ?_, fun k ok h => ?_, fun f h hwf hpf hf hport hctl hact => ?_,
    fun f h hpf hf hport hup hctl hact => ?_⟩, fun s cs x => ⟨fun b h hop => ?_, fun h hop => ?_, fun h hop => ?_,
    fun ns n h hns hlba hlen htype hfit => ?_⟩⟩
  · refine ⟨s.onDev (deviceSelfTest cs), rfl, rfl, ?_⟩
    rw [State.onDev_dev, deviceSelfTest_starts h hidle hcode]
    exact ⟨((Dev.PostsAs.refl h.2).other (by rfl) (by rfl) (by rfl)).complete h.2 _, (Adm.selfTest_of_rest (rest_complete _ cs _)).1⟩
  · refine ⟨s.onDev (deviceSelfTest cs), rfl, rfl, ?_⟩
    rw [State.onDev_dev, deviceSelfTest_aborts h hbusy hcode]
    exact ⟨((Dev.PostsAs.refl h.2).other (by rfl) (by rfl) (by rfl)).complete h.2 _, Adm.selfTest_of_rest (rest_complete _ cs _)⟩
  · exact next_onDev (f := deviceSelfTestDone ok) (by simp only [deviceSelfTestDone, h]; rfl)
  · exact ⟨s.onDev (virtualizationManagement cs), rfl, rfl, virtualizationManagement_resets h hf hport hctl hwf hpf hact⟩
  · exact ⟨s.onDev (virtualizationManagement cs), rfl, rfl, virtualizationManagement_online h hf hport hctl hpf hup hact⟩
  · refine ⟨s.onDev (nvmeMiSend cs (.ok b)), rfl, rfl, ?_⟩
    rw [State.onDev_dev, nvmeMiSend_ok hop h]
    exact (miRun_postsAs h.2 _ _ _).1.complete h.2 _
  · obtain ⟨hrun, hout⟩ := miRun_postsAs h.2 (bitsOf (x.dw 11) 7 0) (x.dw 12) (x.dw 13)
    refine ⟨s.onDev (nvmeMiReceive cs), rfl, rfl, ?_⟩
    rw [State.onDev_dev, nvmeMiReceive_ok hop h]
    exact hrun.answer hout h.2 _ _
  · refine ⟨s.onDev (nvmeMiSend cs (.ok [])), rfl, rfl, ?_⟩
    have hrun : nvmeMiSend cs (.ok []) s.dev = s.dev.complete cs cqeInvalidOpcode := by
      simp [nvmeMiSend, adminRun_due h, Dev.withData, Dev.miInBand, hop]
    rw [State.onDev_dev, hrun]
    exact complete_posted h.2 _
  · refine ⟨s.onDev (getLbaStatus cs), rfl, rfl, ?_⟩
    rw [State.onDev_dev, getLbaStatus_ok h hns hlba hlen htype hfit]
    exact (Dev.PostsAs.refl h.2).answer rfl h.2 _ _

end Sys2Proof.Machine
end

section
/-! PROOFS. O56: the management bus and NVMe-MI over MCTP (R120, R121). -/

namespace Sys2Proof.Machine

variable (d : Dev)

/-! ### A command over MCTP -/

theorem mi_mctp {d : Dev} {op : Nat} {m : MiReq} (hoff : d.modes.mode ≠ .off) (h : d.modes.mode = .dormant → op = 1) :
    d.mi .mctp op m = Dev.miSend (d.miRun op m.dw0.toNat m.dw1.toNat) := by
  simp only [Dev.mi, hoff, false_or, ne_eq]
  exact if_neg fun hd => hd.2 (h hd.1)

/-- In DORMANT only the health poll is served (R120). -/
theorem mi_dormant {d : Dev} {op : Nat} {m : MiReq} (h : d.modes.mode = .dormant) (hop : op ≠ 1) : d.mi .mctp op m = d :=
  if_pos (.inr ⟨h, hop⟩)

/-- The message after its status. -/
def MiAns.message (a : MiAns) : List Byte := leBytes 3 a.resp ++ a.data

/-! ### The health polls -/

/-- The operating mode stands after the response's status and its first six bytes. -/
theorem miHealth_mode (dw1 : Nat) : (d.miHealth dw1).2.message[9]?
    = some (BitVec.ofNat 8 (modeCode d.modes.mode)) := by
  simp [Dev.miHealth, MiAns.message, miOk, layout, num, leBytes, slice]

theorem miHealth_out (dw1 : Nat) : (d.miHealth dw1).1.out = d.out ∧ (d.miHealth dw1).2.status = 0 := by
  simp only [Dev.miHealth]
  split <;> exact ⟨rfl, rfl⟩

theorem miHealth_clears {dw1 : Nat} (h : bitOf dw1 31 = true) :
    (d.miHealth dw1).1.mgmt.health = 0 ∧ (d.miHealth dw1).1.pins.mgmtAlert = false := by
  simp only [Dev.miHealth, h, if_true]
  exact ⟨rfl, rfl⟩

theorem miHealth_looks {dw1 : Nat} (h : bitOf dw1 31 = false) :
    (d.miHealth dw1).1.mgmt = d.mgmt ∧ (d.miHealth dw1).1.pins = d.pins := by
  simp only [Dev.miHealth, h]
  exact ⟨rfl, rfl⟩

theorem miCtlHealth_ok (dw0 dw1 : Nat) : (d.miCtlHealth dw0 dw1).1.out = d.out ∧ (d.miCtlHealth dw0 dw1).2.status = 0
    ∧ (bitOf dw1 31 = false → (d.miCtlHealth dw0 dw1).1.mgmt = d.mgmt) := by
  simp only [Dev.miCtlHealth]
  split
  next h => exact ⟨rfl, rfl, fun hlook => by rw [h] at hlook; cases hlook⟩
  · exact ⟨rfl, rfl, fun _ => rfl⟩

/-! ### Reads of data structures -/

theorem miRead_status (dw0 : Nat) : (4 < bitsOf dw0 31 24 → (d.miRead dw0).status = 4)
    ∧ ((bitsOf dw0 31 24 = 0 ∨ bitsOf dw0 31 24 = 2) → (d.miRead dw0).status = 0) := by
  refine ⟨fun h => ?_, fun h => ?_⟩
  · simp only [Dev.miRead]
    split
    iterate 5 · omega
    · rfl
  · obtain h | h := h <;> simp only [Dev.miRead, h, miOk]

/-! ### Configuration -/

theorem miConfigSet_frequency {dw0 dw1 : Nat} (hid : bitsOf dw0 7 0 = 1) (hlo : 1 ≤ bitsOf dw0 11 8) (hhi : bitsOf dw0 11 8 ≤ 3) :
    d.miConfigSet dw0 dw1 = ({ d with mgmt := { d.mgmt with freq := bitsOf dw0 11 8 } }, miOk 0 []) := by
  have hok : ¬ (bitsOf dw0 11 8 = 0 ∨ 3 < bitsOf dw0 11 8) := by omega
  simp only [Dev.miConfigSet, hid, if_neg hok]

theorem miConfigSet_health {dw0 dw1 : Nat} (hid : bitsOf dw0 7 0 = 2) :
    d.miConfigSet dw0 dw1 = (({ d with mgmt := { d.mgmt with healthEn := dw1 } } : Dev).settleAlert, miOk 0 []) := by
  simp only [Dev.miConfigSet, hid]

theorem miConfigSet_unit {dw0 dw1 : Nat} (hid : bitsOf dw0 7 0 = 3) (hlo : 64 ≤ bitsOf dw1 15 0) (hhi : bitsOf dw1 15 0 ≤ 250) :
    d.miConfigSet dw0 dw1 = ({ d with mgmt := { d.mgmt with mtu := bitsOf dw1 15 0 } }, miOk 0 []) := by
  have hok : ¬ (bitsOf dw1 15 0 < 64 ∨ 250 < bitsOf dw1 15 0) := by omega
  simp only [Dev.miConfigSet, hid, if_neg hok]

theorem miConfigSet_refuses {dw0 dw1 : Nat} (h : (bitsOf dw0 7 0 = 1 ∧ 3 < bitsOf dw0 11 8) ∨ (bitsOf dw0 7 0 = 3 ∧ 250 < bitsOf dw1 15 0)
    ∨ 3 < bitsOf dw0 7 0 ∨ bitsOf dw0 7 0 = 0) : d.miConfigSet dw0 dw1 = (d, miBadParam) := by
  obtain ⟨hid, hv⟩ | ⟨hid, hv⟩ | hid | hid := h
  · simp only [Dev.miConfigSet, hid, hv, or_true, if_true]
  · simp only [Dev.miConfigSet, hid, hv, or_true, if_true]
  · simp only [Dev.miConfigSet]
    split
    iterate 3 · omega
    · rfl
  · simp only [Dev.miConfigSet, hid]

/-- Settles O56, from the answers of the Management Interface commands over MCTP (`mi_mctp`, `miHealth_mode`, `miConfigSet_refuses`). -/
theorem managementBus : Obligations.ManagementBus := by
  refine fun s hoff => ⟨fun n => ⟨fun hlo hhi => ?_, fun hbad => ?_, fun hnone hn => ?_, fun hbad => ?_⟩,
    fun m => ⟨?_, fun hdor => ?_, fun hdor => ?_⟩, fun m cs x hslot => ⟨fun hop => ?_, fun hop hopc => ?_⟩⟩
  · have hok : ¬ (n = 0 ∨ 0xFF ≤ n) := by omega
    refine ⟨s.onDev (mctpSetEndpointId n), rfl, rfl, ?_⟩
    simp only [State.onDev_dev, mctpSetEndpointId, if_neg hoff, if_neg hok]
    rfl
  · refine ⟨s.onDev (mctpSetEndpointId n), rfl, rfl, ?_⟩
    simp only [State.onDev_dev, mctpSetEndpointId, if_neg hoff, if_pos hbad]
    rfl
  · exact next_onDev (f := i3cEntdaa n) (by simp [i3cEntdaa, hoff, hnone, Nat.not_lt.mpr hn])
  · exact next_onDev (f := i3cEntdaa n) (if_pos (.inr hbad))
  · obtain ⟨hout, hstatus⟩ := miHealth_out s.dev m.dw1.toNat
    have hrun : miSubsystemHealthPoll .mctp m s.dev = Dev.miSend (s.dev.miHealth m.dw1.toNat) := mi_mctp hoff (fun _ => rfl)
    refine ⟨s.onDev (miSubsystemHealthPoll .mctp m), (s.dev.miHealth m.dw1.toNat).2.message, rfl, rfl, ?_⟩
    rw [State.onDev_dev, hrun]
    refine ⟨?_, miHealth_mode s.dev m.dw1.toNat, fun h => miHealth_clears s.dev h, fun h => miHealth_looks s.dev h⟩
    rw [← hout, ← hstatus]
    rfl
  · have hidle : ∀ op, op ≠ 1 → s.dev.mi .mctp op m = s.dev := fun op => mi_dormant hdor
    intro c hc
    simp only [List.mem_cons, List.not_mem_nil, or_false] at hc
    obtain rfl | rfl | rfl | rfl := hc
    · exact next_onDev (f := miReadDataStructure .mctp m) (hidle 0 (by decide))
    · exact next_onDev (f := miControllerHealthPoll .mctp m) (hidle 2 (by decide))
    · exact next_onDev (f := miConfigurationSet .mctp m) (hidle 3 (by decide))
    · exact next_onDev (f := miConfigurationGet .mctp m) (hidle 4 (by decide))
  · have hrun : ∀ op, s.dev.mi .mctp op m = Dev.miSend (s.dev.miRun op m.dw0.toNat m.dw1.toNat) := fun op => mi_mctp hoff (absurd · hdor)
    have hset : miConfigurationSet .mctp m s.dev = Dev.miSend (s.dev.miConfigSet m.dw0.toNat m.dw1.toNat) := hrun 3
    refine ⟨?_, ?_, fun hid hlo hhi => ?_, fun hid hlo hhi => ?_, fun hid => ?_, fun hbad => ?_, fun hid => ?_⟩
    · obtain ⟨hbad, hok⟩ := miRead_status s.dev m.dw0.toNat
      exact ⟨s.onDev (miReadDataStructure .mctp m), (s.dev.miRead m.dw0.toNat).status, (s.dev.miRead m.dw0.toNat).message, rfl, rfl, hrun 0,
        hbad, hok⟩
    · obtain ⟨hout, hstatus, hlook⟩ := miCtlHealth_ok s.dev m.dw0.toNat m.dw1.toNat
      have hpoll : miControllerHealthPoll .mctp m s.dev = Dev.miSend (s.dev.miCtlHealth m.dw0.toNat m.dw1.toNat) := hrun 2
      refine ⟨s.onDev (miControllerHealthPoll .mctp m), (s.dev.miCtlHealth m.dw0.toNat m.dw1.toNat).2.message, rfl, rfl, ?_⟩
      rw [State.onDev_dev, hpoll, ← hout, ← hstatus]
      exact ⟨rfl, hlook⟩
    · refine ⟨s.onDev (miConfigurationSet .mctp m), (miOk 0 []).message, rfl, rfl, ?_⟩
      rw [State.onDev_dev, hset, miConfigSet_frequency _ hid hlo hhi]
      rfl
    · refine ⟨s.onDev (miConfigurationSet .mctp m), (miOk 0 []).message, rfl, rfl, ?_⟩
      rw [State.onDev_dev, hset, miConfigSet_unit _ hid hlo hhi]
      rfl
    · refine ⟨s.onDev (miConfigurationSet .mctp m), rfl, rfl, ?_⟩
      rw [State.onDev_dev, hset, miConfigSet_health _ hid]
      refine ⟨rfl, ?_⟩
      simp [Dev.miSend, Dev.settleAlert]
    · refine ⟨s.onDev (miConfigurationSet .mctp m), miBadParam.message, rfl, ?_⟩
      rw [State.onDev_dev, hset, miConfigSet_refuses _ hbad]
      rfl
    · exact next_onDev (f := miConfigurationGet .mctp m) ((hrun 4).trans (by simp only [Dev.miRun, Dev.miConfigGet, hid]; rfl))
  · exact next_onDev (f := miReadDataStructure (.inBand cs) m) (by simp only [miReadDataStructure, Dev.mi, hslot, if_pos hop])
  · exact congrArg Host.Outcome.next (congrArg (fun d => { s with dev := d })
      (by simp [miReadDataStructure, Dev.mi, hslot, hop, hopc] : miReadDataStructure (.inBand cs) m s.dev = nvmeMiReceive cs s.dev))

end Sys2Proof.Machine
end

section
/-! PROOFS. O27: Format NVM and Sanitize (R107, R435, R443, R446, R447, R448). -/

namespace Sys2Proof.Machine

variable (d : Dev)

/-! ### Namespaces, Sanitize and what waits for the key ring -/

/-- What a change of keys is about: the namespaces with their key generations, Sanitize, and the command that waits for the ring. -/
def Dev.keyWork (d : Dev) : Tbl Nsp × San × Option RingFor := (d.tc.nss, d.san, d.ring.waits)

theorem keyWork_of_butHost {a b : Dev} (h : a.butHost = b.butHost) : a.keyWork = b.keyWork := by
  have h' := congrArg Dev.keyWork h
  exact h'

@[simp] theorem keyWork_ev (c i : Nat) (l : List PField) : (d.ev c i l).keyWork = d.keyWork := keyWork_of_butHost (butHost_ev d c i l)
@[simp] theorem keyWork_modSlot (k : Nat) (f : CSlot → CSlot) : (d.modSlot k f).keyWork = d.keyWork := rfl
@[simp] theorem keyWork_modFurrow (k : Nat) (f : Furrow → Furrow) : (d.modFurrow k f).keyWork = d.keyWork := rfl
@[simp] theorem keyWork_modSb (q s : Nat) (f : Superblock → Superblock) : (d.modSb q s f).keyWork = d.keyWork := rfl
@[simp] theorem keyWork_modZone (ns z : Nat) (f : Zone → Zone) : (d.modZone ns z f).keyWork = d.keyWork := rfl
@[simp] theorem keyWork_jrnl (b : JBody) : (d.jrnl b).keyWork = d.keyWork := rfl
@[simp] theorem keyWork_mapSet (ns iu : Nat) (e : MapEntry) : (d.mapSet ns iu e).keyWork = d.keyWork := rfl
@[simp] theorem keyWork_zoneEntDel (ns z : Nat) : (d.zoneEntDel ns z).keyWork = d.keyWork := by
  simp only [Dev.zoneEntDel]; split <;> rfl
@[simp] theorem keyWork_complete (cs : Nat) (e : Cqe) : (d.complete cs e).keyWork = d.keyWork := keyWork_of_butHost (butHost_complete d cs e)
@[simp] theorem keyWork_releaseIfEmpty (q s : Nat) : (d.releaseIfEmpty q s).keyWork = d.keyWork := by
  simp only [Dev.releaseIfEmpty]; split <;> rfl
@[simp] theorem keyWork_closeSb (q s : Nat) : (d.closeSb q s).keyWork = d.keyWork := by simp [Dev.closeSb]
@[simp] theorem keyWork_openSb (q : Nat) (b : Bool) (f : Nat) : (d.openSb q b f).1.keyWork = d.keyWork := by
  simp only [Dev.openSb]; (repeat' split) <;> rfl
@[simp] theorem keyWork_dropFurrow (f : Nat) : (d.dropFurrow f).keyWork = d.keyWork := by
  have h : ∀ (x : Dev) t j, Dev.keyWork { x with tc := { x.tc with furrows := t, jslots := j } } = x.keyWork := fun _ _ _ => rfl
  simp only [Dev.dropFurrow, h]; (repeat' split) <;> simp
@[simp] theorem keyWork_closeRow (f : Nat) : (d.closeRow f).keyWork = d.keyWork := by
  simp only [Dev.closeRow]; (repeat' split) <;> rfl
@[simp] theorem keyWork_unmapUnits (p n : Nat) : (d.unmapUnits p n).keyWork = d.keyWork := by
  simp only [Dev.unmapUnits]; split <;> simp
@[simp] theorem keyWork_mapUnits (p n : Nat) : (d.mapUnits p n).keyWork = d.keyWork := by
  simp only [Dev.mapUnits]; split <;> simp
@[simp] theorem keyWork_mapPut (ns iu : Nat) (e : MapEntry) : (d.mapPut ns iu e).keyWork = d.keyWork := by
  simp only [Dev.mapPut]; (repeat' split) <;> simp
@[simp] theorem keyWork_finishWrites : d.finishWrites.keyWork = d.keyWork := by
  refine foldl_keeps Dev.keyWork _ (fun x c => ?_) _ d
  (repeat' split) <;> simp
@[simp] theorem keyWork_createSettle : d.createSettle.keyWork = d.keyWork := by
  simp only [Dev.createSettle]; (repeat' split) <;> simp
@[simp] theorem keyWork_colSettle : d.colSettle.keyWork = d.keyWork := by
  simp only [Dev.colSettle]
  split
  · rw [keyWork_createSettle, keyWork_ev]; rfl
  · rfl
@[simp] theorem keyWork_colRepart (z g : Nat) : (d.colRepart z g).keyWork = d.keyWork := by
  simp only [Dev.colRepart]
  split
  · rfl
  · exact keyWork_colSettle _
@[simp] theorem keyWork_freeBufs (l : List W32) : (d.freeBufs l).keyWork = d.keyWork := by
  obtain ⟨b, h⟩ := freeBufs_eq d l
  rw [h]; rfl
@[simp] theorem keyWork_colRemoveTag (t : Nat) : (d.colRemoveTag t).1.keyWork = d.keyWork := by
  simp only [Dev.colRemoveTag]; (repeat' split) <;> rfl

@[simp] theorem keyWork_dropZoneUnits (ns a b : Nat) : (d.dropZoneUnits ns a b).keyWork = d.keyWork :=
  foldl_keeps Dev.keyWork _ (fun x t => by simp) _ _

@[simp] theorem keyWork_dropZoneData (ns z : Nat) (n : Nsp) : (d.dropZoneData ns z n).keyWork = d.keyWork := by
  have hunmap : ∀ l : List Nat, (l.foldl (fun (x : Dev) (p : Nat) => x.unmapUnits p 1) d).keyWork = d.keyWork :=
    fun l => foldl_keeps Dev.keyWork _ (fun x p => keyWork_unmapUnits x p 1) l d
  simp only [Dev.dropZoneData]
  split
  · rw [keyWork_dropFurrow, keyWork_modFurrow, hunmap]
  · exact hunmap _

@[simp] theorem keyWork_closeShared (n : Nsp) (f : Nat) (x : Furrow) : (d.closeShared n f x).keyWork = d.keyWork := by
  simp only [Dev.closeShared]; (repeat' split) <;> simp

theorem classInsert_eq (k : Nat) (b : Bool) (i t m c l : Nat) : ∃ y, d.classInsert k b i t m c l = { d with col := y } := by
  unfold Dev.classInsert
  cases d.col.freeIdx 0 with
  | none => exact ⟨_, rfl⟩
  | some j => exact ⟨_, rfl⟩

@[simp] theorem keyWork_classify (ns : Nat) (n : Nsp) : (d.classify ns n).keyWork = d.keyWork := by
  have hins : ∀ (x : Dev) k b i t m c l, (x.classInsert k b i t m c l).keyWork = x.keyWork := fun x k b i t m c l => by
    obtain ⟨y, h⟩ := classInsert_eq x k b i t m c l
    rw [h]
    rfl
  simp only [Dev.classify]
  split
  · rfl
  · exact hins _ _ _ _ _ _ _ _

@[simp] theorem keyWork_nsChanged (ns : Nat) (l : List Nat) : (d.nsChanged ns l).keyWork = d.keyWork := by
  simp only [Dev.nsChanged]
  refine foldl_keeps Dev.keyWork _ (fun x f => ?_) _ d
  exact (keyWork_of_butHost (butHost_aen (x.modFn f _) f aeNsChanged none)).trans rfl

/-- Wiping a namespace leaves its keys. -/
@[simp] theorem keyWork_wipeNs (ns : Nat) (n : Nsp) : (d.wipeNs ns n).keyWork = d.keyWork := by
  have hmap : ∀ (x : Dev) (l : List Nat), (l.foldl (fun (x : Dev) i => x.mapPut ns i .unwritten) x).keyWork = x.keyWork :=
    fun x l => foldl_keeps Dev.keyWork _ (fun y i => keyWork_mapPut y ns i _) l x
  have hzones : ∀ (x : Dev) (l : List Nat), (l.foldl (fun (x : Dev) z => ((x.dropZoneData ns z n).zoneEntDel ns z).modZone ns z
      (fun _ => Zone.fresh)) x).keyWork = x.keyWork := fun x l => foldl_keeps Dev.keyWork _ (fun y z => by simp) l x
  have hlost : ∀ (x : Dev) l t, Dev.keyWork { x with tc := { x.tc with lost := l, furrows := t } } = x.keyWork := fun _ _ _ => rfl
  have hfurrows : ∀ (x : Dev) (l : List (Nat × Furrow)), (l.foldl (fun (x : Dev) y =>
      if y.2.ns = some ns then x.dropFurrow y.1 else x.closeShared n y.1 y.2) x).keyWork = x.keyWork :=
    fun x l => foldl_keeps Dev.keyWork _ (fun z y => by split <;> simp) l x
  simp only [Dev.wipeNs, keyWork_colSettle, keyWork_finishWrites, hfurrows, hlost, hzones, hmap, keyWork_dropZoneUnits]

/-! ### Key changes -/

/-- A namespace with its next key (R443 step 2). -/
def Nsp.rekeyed (n : Nsp) (seq : Nat) (m : Nsp) : Nsp := { m with keyGen := (n.keyGen + 1) % 2 ^ 32, keySeq := seq }

theorem keyChange_keyWork {d : Dev} {ns : Nat} {n : Nsp} (h : d.nsp ns = some n) :
    (d.keyChange ns).keyWork = (d.tc.nss.upd ns (n.rekeyed (d.tc.openSeq + 1)), d.san, d.ring.waits) := by
  simp only [Dev.keyChange, h, keyWork_wipeNs, keyWork_jrnl]
  rfl

/-! ### The image that a key change waits for -/

@[simp] theorem keyWork_newImage : d.newImage.keyWork = d.keyWork := by
  refine (foldl_keeps Dev.keyWork _ (fun x q => ?_) _ _).trans rfl
  simp only
  split
  · exact keyWork_openSb x q true (32 + q)
  · exact keyWork_openSb x q true (32 + q)

theorem nsp_of_keyWork {a b : Dev} (h : a.keyWork = b.keyWork) (ns : Nat) : a.nsp ns = b.nsp ns := by
  have hnss : a.tc.nss = b.tc.nss := congrArg Prod.fst h
  rw [Dev.nsp, hnss, Dev.nsp]

theorem san_of_keyWork {a b : Dev} (h : a.keyWork = b.keyWork) : a.san = b.san ∧ a.ring.waits = b.ring.waits :=
  ⟨congrArg (fun x => x.2.1) h, congrArg (fun x => x.2.2) h⟩

/-- Settling the ring leaves the keys, but for what waited for a durable image. -/
theorem ringSettle_cases : ∃ x : Dev, x.keyWork = d.keyWork ∧ (d.ringSettle = x ∨ d.ringSettle = x.ringWaits) := by
  simp only [Dev.ringSettle]
  generalize hy : (if (d.dropErased.ring.durable || !d.dropErased.imageDurable) = true then _ else _ : Dev) = y
  have hkeys : y.keyWork = d.keyWork := by
    rw [← hy]
    split <;> rfl
  split
  · have hclose : ∀ l : List (Nat × Nat), (l.foldl (fun (x : Dev) (s : Nat × Nat) => x.releaseRing s.1 s.2) y).keyWork = y.keyWork :=
      fun l => foldl_keeps Dev.keyWork (fun (x : Dev) (s : Nat × Nat) => x.releaseRing s.1 s.2) (fun x s => keyWork_closeSb x s.1 s.2) l y
    exact ⟨_, (hclose _).trans hkeys, .inr rfl⟩
  · exact ⟨y, hkeys, .inl rfl⟩

theorem ringSettle_idle {d : Dev} (h : d.ring.waits = none) : d.ringSettle.keyWork = d.keyWork := by
  obtain ⟨x, hkeys, hx⟩ := ringSettle_cases d
  have hw : x.ring.waits = none := (san_of_keyWork hkeys).2.trans h
  have hsame : x.ringWaits = x := by simp only [Dev.ringWaits, hw]
  rw [hsame, or_self] at hx
  rw [hx, hkeys]

theorem imageFor_cases (w : RingFor) : ∃ x : Dev, x.keyWork = (d.tc.nss, d.san, some w) ∧ (d.imageFor w = x ∨ d.imageFor w = x.ringWaits) := by
  obtain ⟨x, hkeys, hx⟩ := ringSettle_cases (d.newImage.modRing (fun r => { r with waits := some w }))
  have hnew := keyWork_newImage d
  have hnss : d.newImage.tc.nss = d.tc.nss := congrArg Prod.fst hnew
  have hsan := (san_of_keyWork hnew).1
  refine ⟨x, hkeys.trans ?_, hx⟩
  change (d.newImage.tc.nss, d.newImage.san, some w) = _
  rw [hnss, hsan]

section
variable {d : Dev}

/-- A Sanitize command completes with its durable image (R447). -/
theorem ringWaits_sanitize {cs : Nat} (h : d.ring.waits = some (.sanitize cs)) : d.ringWaits.keyWork = (d.tc.nss, d.san, none) := by
  simp only [Dev.ringWaits, h, keyWork_complete]
  rfl

theorem ringWaits_sanEnd {ok : Bool} (h : d.ring.waits = some (.sanEnd ok)) :
    d.ringWaits.ring.waits = none ∧ d.ringWaits.san.running = false ∧ d.ringWaits.san.failure = !ok := by
  simp only [Dev.ringWaits, h]
  exact ⟨rfl, rfl, rfl⟩

/-- The namespaces once a key change has ended (R443 step 6). -/
def keptNss (t : Tbl Nsp) : Tbl Nsp := (t.filter (fun x => !x.2.deleting)).map (fun x => (x.1, { x.2 with formatting := none }))

theorem ringWaits_format {cs : Nat} (h : d.ring.waits = some (.format cs)) :
    d.ringWaits.tc.nss = d.tc.nss ∨ d.ringWaits.tc.nss = keptNss d.tc.nss := by
  simp only [Dev.ringWaits, h]
  split
  · exact .inl rfl
  · have hdone : ∀ x : Dev, x.keysDone.tc.nss = keptNss x.tc.nss := fun x => congrArg Prod.fst (keyWork_colRepart _ _ _)
    rw [complete_tc]
    exact .inr (hdone _)

end

theorem get?_keptNss {t : Tbl Nsp} {ns : Nat} {n : Nsp} (h : t.get? ns = some n) (hd : n.deleting = false) :
    (keptNss t).get? ns = some { n with formatting := none } := by
  induction t with
  | nil => cases h
  | cons y t ih =>
    obtain ⟨k, m⟩ := y
    simp only [Tbl.get?] at h
    by_cases hk : ns = k
    · rw [if_pos hk, Option.some.injEq] at h
      simp [keptNss, h, hd, Tbl.get?, hk]
    · rw [if_neg hk] at h
      have ih' := ih h
      by_cases hm : m.deleting = true
      · simpa [keptNss, hm] using ih'
      · simpa [keptNss, hm, Tbl.get?, hk] using ih'

/-! ### Format NVM -/

/-- A namespace under its new format, with its keys changed. -/
def Dev.formatOne (d : Dev) (s : CSlot) (first ns : Nat) (n : Nsp) : Dev :=
  ((d.keyChange ns).modNsp ns (fun x => { n.formatted (bitsOf (s.dw 10) 3 0) (bitsOf (s.dw 10) 7 5) first with
    gen := x.gen, keyGen := x.keyGen, keySeq := x.keySeq })).classify ns (n.formatted (bitsOf (s.dw 10) 3 0) (bitsOf (s.dw 10) 7 5) first)

theorem nspId_eq_some {d : Dev} {nsid ns : Nat} {n : Nsp} (h : d.nspId nsid = some (ns, n)) : d.nsp ns = some n := by
  simp only [Dev.nspId] at h
  split at h
  · cases h
  · obtain ⟨m, hm, he⟩ := Option.map_eq_some_iff.mp h
    cases he
    exact hm

theorem formatNvm_due {d : Dev} {cs : Nat} {x : CSlot} {ns : Nat} {n : Nsp} (h : d.seqDue cs 0x80 x) (hns : d.nspId x.nsid = some (ns, n))
    (hall : x.nsid ≠ 0xFFFFFFFF) (hok : d.formatRefusal x [ns] = none) : ∃ y : Dev,
      y.keyWork = ((d.seqStart cs).formatOne x d.hg.order ns n).keyWork ∧ formatNvm cs d = y.imageFor (.format cs) := by
  have hnamed : (d.seqStart cs).named x.nsid = some [ns] := by
    have hid : (d.seqStart cs).nspId x.nsid = some (ns, n) := hns
    simp only [Dev.named, if_neg hall, hid, Option.map_some]
  have hok' : (d.seqStart cs).formatRefusal x [ns] = none := hok
  have hn : (d.seqStart cs).nsp ns = some n := nspId_eq_some hns
  simp only [formatNvm, seqRun_due h, hnamed, hok', List.foldl_cons, List.foldl_nil, hn]
  split
  · exact ⟨_, rfl, rfl⟩
  · exact ⟨_, keyWork_nsChanged _ _ _, rfl⟩

/-- What a Format gives a namespace. -/
def Nsp.reformatted (n : Nsp) (s : CSlot) (m : Nsp) : Prop :=
  m.lbaf = bitsOf (s.dw 10) 3 0 ∧ m.pi = bitsOf (s.dw 10) 7 5 ∧ m.keyGen = (n.keyGen + 1) % 2 ^ 32 ∧ m.attached = n.attached
    ∧ m.nsze = n.nsze * lbasPerUnit (bitsOf (s.dw 10) 3 0) / lbasPerUnit n.lbaf

theorem formatOne_nsp {d : Dev} {ns : Nat} {n : Nsp} (h : d.nsp ns = some n) (s : CSlot) (first : Nat) :
    ∃ m, (d.formatOne s first ns n).nsp ns = some m ∧ n.reformatted s m ∧ m.deleting = n.deleting := by
  have hkey : (d.keyChange ns).nsp ns = some (n.rekeyed (d.tc.openSeq + 1) n) := by
    rw [Dev.nsp, show (d.keyChange ns).tc.nss = _ from congrArg Prod.fst (keyChange_keyWork h), Tbl.get?_upd_same, show d.tc.nss.get? ns = _ from h]
    rfl
  rw [Dev.formatOne, nsp_of_keyWork (keyWork_classify _ _ _)]
  refine ⟨_, (Tbl.get?_upd_same _ ns _).trans (congrArg _ hkey), ⟨rfl, rfl, rfl, rfl, rfl⟩, rfl⟩

/-- A Format changes the keys of its namespace, which has its new format also once the key change has ended. -/
theorem formatNvm_nsp {d : Dev} {cs : Nat} {x : CSlot} {ns : Nat} {n : Nsp} (h : d.seqDue cs 0x80 x) (hns : d.nspId x.nsid = some (ns, n))
    (hdel : n.deleting = false) (hall : x.nsid ≠ 0xFFFFFFFF) (hok : d.formatRefusal x [ns] = none) :
    ∃ m, (formatNvm cs d).nsp ns = some m ∧ n.reformatted x m := by
  obtain ⟨y, hy, hrun⟩ := formatNvm_due h hns hall hok
  obtain ⟨m, hm, hfmt, hmdel⟩ := formatOne_nsp (d := d.seqStart cs) (nspId_eq_some hns) x d.hg.order
  obtain ⟨z, hz, hend⟩ := imageFor_cases y (.format cs)
  have hznss : z.tc.nss = y.tc.nss := congrArg Prod.fst hz
  have hzm : z.tc.nss.get? ns = some m := by rw [hznss]; exact (nsp_of_keyWork hy ns).trans hm
  rw [hrun]
  obtain hend | hend := hend
  · exact ⟨m, by rw [hend]; exact hzm, hfmt⟩
  · obtain hnss | hnss := ringWaits_format (congrArg (fun k => k.2.2) hz)
    · exact ⟨m, by rw [hend, Dev.nsp, hnss]; exact hzm, hfmt⟩
    · exact ⟨{ m with formatting := none }, by rw [hend, Dev.nsp, hnss]; exact get?_keptNss hzm (hmdel.trans hdel), hfmt⟩

/-! ### Sanitize -/

/-- One namespace's keys change with a Sanitize. -/
def Dev.sanKey (d : Dev) (ns : Nat) : Dev := (d.keyChange ns).modNsp ns (fun x => { x with ndasReset := false })

theorem sanKey_san (ns : Nat) : (d.sanKey ns).san = d.san := by
  change (d.keyChange ns).san = d.san
  cases h : d.nsp ns with
  | none => simp only [Dev.keyChange, h]
  | some n => exact (congrArg (fun k => k.2.1) (keyChange_keyWork h))

theorem sanKey_nsp {d : Dev} {ns : Nat} {n : Nsp} (h : d.nsp ns = some n) :
    ((d.sanKey ns).nsp ns).map (·.keyGen) = some ((n.keyGen + 1) % 2 ^ 32) := by
  rw [Dev.sanKey, Dev.nsp, Dev.modNsp, show (d.keyChange ns).tc.nss = _ from congrArg Prod.fst (keyChange_keyWork h), Tbl.get?_upd_same,
    Tbl.get?_upd_same, show d.tc.nss.get? ns = _ from h]
  rfl

theorem sanKey_nsp_ne {ns j : Nat} (hj : j ≠ ns) : (d.sanKey ns).nsp j = d.nsp j := by
  refine (Tbl.get?_upd_ne _ _ hj).trans ?_
  change (d.keyChange ns).nsp j = d.nsp j
  cases h : d.nsp ns with
  | none => simp only [Dev.keyChange, h]
  | some n =>
    rw [Dev.nsp, show (d.keyChange ns).tc.nss = _ from congrArg Prod.fst (keyChange_keyWork h)]
    exact Tbl.get?_upd_ne _ _ hj

theorem sanKeys_nsp_ne {l : List Nat} {j : Nat} (hj : j ∉ l) : (l.foldl Dev.sanKey d).nsp j = d.nsp j := by
  induction l generalizing d with
  | nil => rfl
  | cons k l ih =>
    obtain ⟨hk, hl⟩ := not_or.mp (mt List.mem_cons.mpr hj)
    exact (ih (d.sanKey k) hl).trans (sanKey_nsp_ne d hk)

/-- The keys of every namespace of a list change, once each. -/
theorem sanKeys_nsp {d : Dev} {l : List Nat} (hl : l.Nodup) {ns : Nat} {n : Nsp} (hns : ns ∈ l) (h : d.nsp ns = some n) :
    ((l.foldl Dev.sanKey d).nsp ns).map (·.keyGen) = some ((n.keyGen + 1) % 2 ^ 32) := by
  induction l generalizing d with
  | nil => cases hns
  | cons k l ih =>
    obtain ⟨hk, hnd⟩ := List.nodup_cons.mp hl
    rw [List.foldl_cons]
    by_cases hj : ns = k
    · subst hj
      rw [sanKeys_nsp_ne _ hk]
      exact sanKey_nsp h
    · exact ih hnd ((List.mem_cons.mp hns).resolve_left hj) ((sanKey_nsp_ne d hj).trans h)

theorem Tbl.nodup_keys {α : Type} {t : Tbl α} (h : t.wf = true) : (t.map (·.1)).Nodup := by
  induction t with
  | nil => exact List.nodup_nil
  | cons y t ih =>
    obtain ⟨k, v⟩ := y
    rw [Tbl.wf_cons] at h
    refine List.nodup_cons.mpr ⟨fun hk => ?_, ih (Tbl.wf_of_above h)⟩
    obtain ⟨⟨k', v'⟩, hmem, rfl⟩ := List.mem_map.mp hk
    exact absurd (Tbl.lt_of_above h hmem) (lt_irrefl _)

/-- The Sanitize that a command starts (R446). -/
def CSlot.sanOf (s : CSlot) (a : San) : San :=
  { a with action := s.sanact, running := true, failure := false, ndas := bitOf (s.dw 10) 9, ause := bitOf (s.dw 10) 3
           cdw10 := BitVec.ofNat 32 (s.dw 10), status := 2 }

theorem sanStart_keeps (cs : Nat) (s : CSlot) (hwf : d.tc.nss.wf = true) : (d.sanStart cs s).san = s.sanOf d.san
    ∧ ∀ (ns : Nat) (n : Nsp), d.nsp ns = some n → ((d.sanStart cs s).nsp ns).map (·.keyGen) = some ((n.keyGen + 1) % 2 ^ 32) := by
  generalize hy : (d.tc.nss.map (·.1)).foldl Dev.sanKey { d with san := s.sanOf d.san } = y
  have hrun : d.sanStart cs s = y.imageFor (.sanitize cs) := by rw [← hy]; rfl
  have hysan : y.san = s.sanOf d.san := by rw [← hy]; exact foldl_keeps Dev.san Dev.sanKey sanKey_san _ _
  have hynsp : ∀ (ns : Nat) (n : Nsp), d.nsp ns = some n → (y.nsp ns).map (·.keyGen) = some ((n.keyGen + 1) % 2 ^ 32) := fun ns n hn => by
    rw [← hy]
    exact sanKeys_nsp (d := { d with san := s.sanOf d.san }) (Tbl.nodup_keys hwf) (List.mem_map.mpr ⟨(ns, n), Tbl.mem_of_get? hn, rfl⟩) hn
  obtain ⟨z, hz, hend⟩ := imageFor_cases y (.sanitize cs)
  have hkeys : (d.sanStart cs s).tc.nss = y.tc.nss ∧ (d.sanStart cs s).san = y.san := by
    rw [hrun]
    obtain hend | hend := hend
    · rw [hend]
      exact ⟨congrArg Prod.fst hz, congrArg (fun k => k.2.1) hz⟩
    · have hw := ringWaits_sanitize (congrArg (fun k => k.2.2) hz)
      rw [hend]
      exact ⟨(congrArg Prod.fst hw).trans (congrArg Prod.fst hz), (congrArg (fun k => k.2.1) hw).trans (congrArg (fun k => k.2.1) hz)⟩
  obtain ⟨hnss, hsan⟩ := hkeys
  exact ⟨hsan.trans hysan, fun ns n hn => by rw [Dev.nsp, hnss]; exact hynsp ns n hn⟩

/-- A Sanitize row whose action is its command's runs. -/
theorem sanRow_due {d : Dev} {cs act : Nat} {x : CSlot} (h : d.seqDue cs 0x84 x) (ha : bitsOf (x.dw 10) 2 0 = act) (f : Dev → CSlot → Dev) :
    d.sanRow cs act f = f (d.seqStart cs) x := by
  have ha' : x.sanact = act := ha
  simp only [Dev.sanRow, h.1, ha', true_or, if_true, seqRun_due h, ne_eq, not_true_eq_false, if_false]

section
variable {d : Dev} {cs : Nat} {x : CSlot} (h : d.seqDue cs 0x84 x) (ha : bitsOf (x.dw 10) 2 0 = 1) (hfail : d.san.failure = true)
include h ha hfail

/-- Exit Failure Mode ends it where the failed Sanitize allowed it (R448). -/
theorem sanitizeExitFailureMode_exits (hw : d.ring.waits = none) (hause : d.san.ause = true) :
    (sanitizeExitFailureMode cs d).san = { d.san with failure := false, action := 1 } := by
  generalize hy : ({ d.seqStart cs with san := { d.san with failure := false, action := 1 } } : Dev) = y
  have hysan : y.san = { d.san with failure := false, action := 1 } := by rw [← hy]
  have hrun : sanitizeExitFailureMode cs d = (y.newImage.ringSettle).complete cs cqeOk := by
    have hfail' : (d.seqStart cs).san.failure = true := hfail
    have hause' : (d.seqStart cs).san.ause = true := hause
    rw [sanitizeExitFailureMode, sanRow_due h ha, ← hy]
    exact (if_neg (by simp [hfail'])).trans (if_neg (by simp [hause']))
  have hwait : y.newImage.ring.waits = none := (san_of_keyWork (keyWork_newImage y)).2.trans (by rw [← hy]; exact hw)
  rw [hrun, ← hysan]
  exact (san_of_keyWork (((keyWork_complete _ cs _).trans (ringSettle_idle hwait)).trans (keyWork_newImage y))).1

theorem sanitizeExitFailureMode_refused (hause : d.san.ause = false) :
    sanitizeExitFailureMode cs d = (d.seqStart cs).complete cs cqeSanitizeFailed := by
  have hfail' : (d.seqStart cs).san.failure = true := hfail
  have hause' : (d.seqStart cs).san.ause = false := hause
  rw [sanitizeExitFailureMode, sanRow_due h ha]
  simp only [hfail', hause', Bool.not_true, Bool.not_false, Bool.false_eq_true, if_false, if_true]

end

/-- Whether a Sanitize that has erased all else succeeded (R448, R449). -/
def Dev.erasedAll (d : Dev) (ok : Bool) : Bool := ok && !d.memberUnerased && d.ring.old.isEmpty

/-- A Sanitize that is done waits for its durable image, or has ended with it. -/
theorem sanitizeDone_ends {d : Dev} (ok : Bool) (hrun : d.san.running = true) (hw : d.ring.waits = none) (hdur : d.ring.durable = true) :
    ((sanitizeDone ok d).ring.waits = some (.sanEnd (d.erasedAll ok)) ∧ (sanitizeDone ok d).san = d.san)
      ∨ ((sanitizeDone ok d).ring.waits = none ∧ (sanitizeDone ok d).san.running = false
        ∧ (sanitizeDone ok d).san.failure = !d.erasedAll ok) := by
  generalize hy : (if d.san.action = 2 then d.eraseAll else d) = y
  have hysan : y.san = d.san := by rw [← hy]; split <;> rfl
  have hdone : sanitizeDone ok d = y.imageFor (.sanEnd (d.erasedAll ok)) := by
    simp only [sanitizeDone, hrun, hw, hdur, Bool.not_true, Option.isSome_none, Bool.or_self, Bool.false_eq_true, if_false, hy]
    rfl
  obtain ⟨z, hz, hend⟩ := imageFor_cases y (.sanEnd (d.erasedAll ok))
  rw [hdone]
  obtain hend | hend := hend
  · rw [hend]
    exact .inl ⟨congrArg (fun k => k.2.2) hz, (congrArg (fun k => k.2.1) hz).trans hysan⟩
  · rw [hend]
    exact .inr (ringWaits_sanEnd (congrArg (fun k => k.2.2) hz))

/-- Settles O27, from the keys that change with a Format (`formatNvm_nsp`) and with a Sanitize (`sanStart_keeps`), and from what a durable
ring image ends (`ringWaits_sanEnd`). -/
theorem formatAndSanitize : Obligations.FormatAndSanitize := by
  refine fun s cs x => ⟨fun ns n h hns hdel hall hok => ?_, fun h hw hwf => ⟨fun ha => ?_, fun ha => ?_, fun ha hfail hause => ?_⟩,
    fun h ha hfail hause => ?_, fun ok hrun hw hdur => ?_, fun hrun ok => ?_⟩
  · exact ⟨s.onDev (formatNvm cs), rfl, rfl, formatNvm_nsp h hns hdel hall hok⟩
  · obtain ⟨hsan, hkeys⟩ := sanStart_keeps (s.dev.seqStart cs) cs x hwf
    refine ⟨s.onDev (sanitizeCryptoErase cs), rfl, rfl, ?_⟩
    rw [State.onDev_dev, sanitizeCryptoErase, sanRow_due h ha, hsan]
    exact ⟨rfl, ha, rfl, rfl, rfl, hkeys⟩
  · obtain ⟨hsan, hkeys⟩ := sanStart_keeps (s.dev.seqStart cs) cs x hwf
    refine ⟨s.onDev (sanitizeBlockErase cs), rfl, rfl, ?_⟩
    rw [State.onDev_dev, sanitizeBlockErase, sanRow_due h ha, hsan]
    exact ⟨rfl, ha, rfl, hkeys⟩
  · exact ⟨s.onDev (sanitizeExitFailureMode cs), rfl, rfl, sanitizeExitFailureMode_exits h ha hfail hw hause⟩
  · have hpost : s.dev.postable cs x := h.2.2
    refine ⟨s.onDev (sanitizeExitFailureMode cs), rfl, rfl, ?_⟩
    rw [State.onDev_dev, sanitizeExitFailureMode_refused h ha hfail hause]
    exact ⟨(san_of_keyWork (keyWork_complete _ _ _)).1, (seqStart_postsAs hpost).complete hpost _⟩
  · exact ⟨s.onDev (sanitizeDone ok), rfl, rfl, sanitizeDone_ends ok hrun hw hdur⟩
  · exact next_onDev (f := sanitizeDone ok) (by simp [sanitizeDone, hrun])

end Sys2Proof.Machine
end

section
/-! PROOFS. O33: Zone Management Send, one action on one zone (R109, R161, R164). -/

namespace Sys2Proof.Machine

variable (d : Dev)

/-! ### A command that is charged and runs -/

theorem postable_of_ioDue {d : Dev} {cs op : Nat} {s : CSlot} {ns : Nat} {n : Nsp} (h : d.ioDue cs op s ns n) : d.postable cs s := by
  obtain ⟨-, -, -, hpost⟩ := h
  exact hpost

/-- The device with another Headgate, as charging a command leaves it (R130). -/
def Dev.withHg (d : Dev) (hg : Hg) : Dev := { d with hg := hg }

/-- A command that is due runs on the device that charging leaves, where it still posts its completion. -/
theorem charged_due {d : Dev} {cs op : Nat} {s : CSlot} {ns : Nat} {n : Nsp} (h : d.ioDue cs op s ns n) :
    ∃ hg t, d.PostsAs (d.withHg hg) cs s ∧ t.request = s.request ∧ ∀ f, d.chargeThen cs f = f (d.withHg hg) t ns n := by
  obtain ⟨hg, t, heq, -, ht, hreq, -, -, hrun⟩ := chargeThen_due h
  have hpost := postable_of_ioDue h
  refine ⟨hg, t, ⟨⟨t, ht, hreq⟩, rfl, rfl, List.suffix_rfl⟩, hreq, fun f => ?_⟩
  rw [hrun, heq, Dev.withHg]

theorem Dev.PostsAs.decide' {d e : Dev} {cs : Nat} {s : CSlot} (he : d.PostsAs e cs s) (h : d.postable cs s) (c : Cqe) :
    (e.decide' cs c).posted d.out cs s c := (he.modSlot (fun _ => by rfl)).complete h c

/-! ### Zones beside the host's commands -/

/-- What a zone action may change of what the host sees and of the zones: the zones. -/
def Dev.zoneSide (d : Dev) : Hg × Tbl FnSt × List Out × Tbl Zone := (d.hg, d.fns, d.out, d.tc.zones)

@[simp] theorem zoneSide_modFurrow (f : Nat) (u : Furrow → Furrow) : (d.modFurrow f u).zoneSide = d.zoneSide := rfl
@[simp] theorem zoneSide_zoneEntDel (ns z : Nat) : (d.zoneEntDel ns z).zoneSide = d.zoneSide := by
  simp only [Dev.zoneEntDel]; split <;> rfl
@[simp] theorem zoneSide_zoneEntPut (ns z w c : Nat) : (d.zoneEntPut ns z w c).zoneSide = d.zoneSide := rfl
@[simp] theorem zoneSide_clearLost (ns a b : Nat) : (d.clearLost ns a b).zoneSide = d.zoneSide := rfl
@[simp] theorem zoneSide_releaseIfEmpty (q s : Nat) : (d.releaseIfEmpty q s).zoneSide = d.zoneSide := by
  simp only [Dev.releaseIfEmpty]; split <;> rfl
@[simp] theorem zoneSide_closeSb (q s : Nat) : (d.closeSb q s).zoneSide = d.zoneSide := by
  simp only [Dev.closeSb, zoneSide_releaseIfEmpty]; rfl
@[simp] theorem zoneSide_closeRow (f : Nat) : (d.closeRow f).zoneSide = d.zoneSide := by
  simp only [Dev.closeRow]; (repeat' split) <;> rfl
@[simp] theorem zoneSide_dropFurrow (f : Nat) : (d.dropFurrow f).zoneSide = d.zoneSide := by
  have h : ∀ (x : Dev) t j, Dev.zoneSide { x with tc := { x.tc with furrows := t, jslots := j } } = x.zoneSide := fun _ _ _ => rfl
  simp only [Dev.dropFurrow, h]; (repeat' split) <;> simp
@[simp] theorem zoneSide_furrowDrained (f : Nat) : (d.furrowDrained f).zoneSide = d.zoneSide := by
  simp only [Dev.furrowDrained]; (repeat' split) <;> simp
@[simp] theorem zoneSide_takeFurrow (k q : Nat) (ns : Option Nat) (b : Nat) : (d.takeFurrow k q ns b).1.zoneSide = d.zoneSide := by
  simp only [Dev.takeFurrow]; split <;> rfl
@[simp] theorem zoneSide_unmapUnits (p n : Nat) : (d.unmapUnits p n).zoneSide = d.zoneSide := by
  simp only [Dev.unmapUnits]
  split
  · rfl
  · rw [zoneSide_releaseIfEmpty]; rfl
@[simp] theorem zoneSide_colRemoveTag (t : Nat) : (d.colRemoveTag t).1.zoneSide = d.zoneSide := by
  simp only [Dev.colRemoveTag]; (repeat' split) <;> rfl
@[simp] theorem zoneSide_freeBufs (l : List W32) : (d.freeBufs l).zoneSide = d.zoneSide := by
  obtain ⟨b, h⟩ := freeBufs_eq d l
  rw [h]; rfl

@[simp] theorem zoneSide_dropZoneUnits (ns a b : Nat) : (d.dropZoneUnits ns a b).zoneSide = d.zoneSide :=
  foldl_keeps Dev.zoneSide _ (fun x t => by simp) _ _

@[simp] theorem zoneSide_dropZoneData (ns z : Nat) (n : Nsp) : (d.dropZoneData ns z n).zoneSide = d.zoneSide := by
  have hunmap : ∀ l : List Nat, (l.foldl (fun (x : Dev) (p : Nat) => x.unmapUnits p 1) d).zoneSide = d.zoneSide :=
    fun l => foldl_keeps Dev.zoneSide _ (fun x p => zoneSide_unmapUnits x p 1) l d
  simp only [Dev.dropZoneData]
  split
  · rw [zoneSide_dropFurrow, zoneSide_modFurrow, hunmap]
  · exact hunmap _

/-- A change that leaves the host's side leaves what posts a completion. -/
theorem Dev.PostsAs.zones {d e g : Dev} {cs : Nat} {s : CSlot} (he : d.PostsAs e cs s) {z : Tbl Zone}
    (h : g.zoneSide = (e.hg, e.fns, e.out, z)) : d.PostsAs g cs s := by
  have hhg : g.hg = e.hg := congrArg (fun k => k.1) h
  exact he.other (by rw [hhg]) (congrArg (fun k => k.2.1) h) (congrArg (fun k => k.2.2.1) h)

/-! ### The actions on a zone -/

theorem zone_putZone (ns z : Nat) (f : Zone → Zone) : (d.putZone ns z f).zone ns z = f (d.zone ns z) := Tbl.get_mod_same _ _ _ _

theorem zone_of_zoneSide {a b : Dev} (h : a.zoneSide = b.zoneSide) (ns z : Nat) : a.zone ns z = b.zone ns z := by
  have hz : a.tc.zones = b.tc.zones := congrArg (fun k => k.2.2.2) h
  rw [Dev.zone, hz, Dev.zone]

/-- An action is carried out: beside the zones the host's side is as it was, and the zone is then as `P` says. -/
def Dev.zoneGives (d : Dev) (r : Dev × Option Nat) (ns z : Nat) (P : Zone → Prop) : Prop :=
  r.2 = none ∧ (∃ zs, r.1.zoneSide = (d.hg, d.fns, d.out, zs)) ∧ P (r.1.zone ns z)

/-- A zone that is rewritten with what follows, which leaves the zones and the host's side. -/
theorem zoneGives_putZone {d a e : Dev} {ns z : Nat} {f : Zone → Zone} {P : Zone → Prop} (ha : a.zoneSide = d.zoneSide)
    (he : e.zoneSide = (a.putZone ns z f).zoneSide) (hP : P (f (d.zone ns z))) : d.zoneGives (e, none) ns z P := by
  have hhg : a.hg = d.hg := congrArg (fun k => k.1) ha
  have hfns : a.fns = d.fns := congrArg (fun k => k.2.1) ha
  have hout : a.out = d.out := congrArg (fun k => k.2.2.1) ha
  refine ⟨rfl, ⟨e.tc.zones, ?_⟩, ?_⟩
  · rw [he, ← hhg, ← hfns, ← hout]
    exact congrArg (fun k => ((a.hg, a.fns, a.out, k) : Hg × Tbl FnSt × List Out × Tbl Zone)) (congrArg (fun k => k.2.2.2) he).symm
  · rw [zone_of_zoneSide he, zone_putZone, zone_of_zoneSide ha]
    exact hP

section
variable {d : Dev} {ns z : Nat} {n : Nsp}

/-- A zone that opens takes a Furrow, and its write pointer stays. -/
theorem openZone_opens (h : (d.zone ns z).state = .implOpen ∨ (d.zone ns z).state = .closed
    ∨ ((d.zone ns z).state = .empty ∧ d.activeZones ns < n.mar + 1)) :
    d.zoneGives (d.openZone ns z n) ns z (fun y => y.state = .explOpen ∧ y.furrow.isSome = true ∧ y.wp = (d.zone ns z).wp) := by
  have hrun : d.openZone ns z n = (d.zoneActivate ns z n .explOpen, none) := by
    obtain h | h | ⟨h, hmar⟩ := h
    · simp only [Dev.openZone, h]
    · simp only [Dev.openZone, h]
    · simp only [Dev.openZone, h, if_neg (Nat.not_le.mpr hmar)]
  rw [hrun]
  exact zoneGives_putZone ((zoneSide_zoneEntPut _ ns z _ _).trans (zoneSide_takeFurrow d 1 n.quire (some ns) z)) (by rfl) ⟨rfl, rfl, rfl⟩

theorem openZone_tooMany (h : (d.zone ns z).state = .empty) (hmar : n.mar + 1 ≤ d.activeZones ns) : d.openZone ns z n = (d, some 0xBD) := by
  simp only [Dev.openZone, h, if_pos hmar, zsTooManyActive]

theorem openZone_refused (h : (d.zone ns z).state = .full ∨ (d.zone ns z).state = .readOnly ∨ (d.zone ns z).state = .offline) :
    d.openZone ns z n = (d, some 0xBF) := by
  obtain h | h | h := h <;> simp only [Dev.openZone, h, zsInvalidTransition]

/-- A zone that closes keeps its Furrow, which is paused. -/
theorem closeZone_closes (h : (d.zone ns z).state = .implOpen ∨ (d.zone ns z).state = .explOpen) :
    d.zoneGives (d.closeZone ns z n) ns z (fun y => y.state = .closed ∧ y.furrow = (d.zone ns z).furrow) := by
  generalize hw : ((d.col.zoneEnt ns z).map (·.2.1)).getD (d.zone ns z).wp = w
  generalize hy : d.putZone ns z (fun x => { x with state := .closed, wp := w }) = y
  have hrun : d.closeZone ns z n = ((d.zone ns z).furrow.elim y (fun f =>
      (y.closeRow f).modFurrow f (fun x => { x with st := .paused })), none) := by
    rw [← hy, ← hw]
    obtain h | h := h <;> simp only [Dev.closeZone, h] <;> cases (d.zone ns z).furrow <;> rfl
  rw [hrun]
  refine zoneGives_putZone (a := d) (f := fun x => { x with state := .closed, wp := w }) rfl ?_ ⟨rfl, rfl⟩
  rw [hy]
  cases (d.zone ns z).furrow with
  | none => rfl
  | some f => exact zoneSide_closeRow y f

theorem closeZone_refused (h : (d.zone ns z).state = .empty ∨ (d.zone ns z).state = .full ∨ (d.zone ns z).state = .readOnly
    ∨ (d.zone ns z).state = .offline) : d.closeZone ns z n = (d, some 0xBF) := by
  obtain h | h | h | h := h <;> simp only [Dev.closeZone, h, zsInvalidTransition]

/-- A zone that finishes is full, and where its data ends stays. -/
theorem finishZone_finishes (h : (d.zone ns z).state = .empty ∨ (d.zone ns z).state = .implOpen ∨ (d.zone ns z).state = .explOpen
    ∨ (d.zone ns z).state = .closed) :
    d.zoneGives (d.finishZone ns z n) ns z (fun y => y.state = .full ∧ y.wp = d.zcap n ∧ y.dataEnd = (d.zone ns z).dataEnd) := by
  generalize hy : (d.putZone ns z (fun x => { x with state := .full, wp := d.zcap n })).zoneEntDel ns z = y
  have hrun : d.finishZone ns z n = ((d.zone ns z).furrow.elim y (fun f =>
      ((y.closeRow f).modFurrow f (fun x => { x with st := .draining })).furrowDrained f), none) := by
    rw [← hy]
    obtain h | h | h | h := h <;> simp only [Dev.finishZone, h] <;> cases (d.zone ns z).furrow <;> rfl
  rw [hrun]
  refine zoneGives_putZone (a := d) (f := fun x => { x with state := .full, wp := d.zcap n }) rfl ?_ ⟨rfl, rfl, rfl⟩
  refine Eq.trans ?_ ((congrArg Dev.zoneSide hy).symm.trans (zoneSide_zoneEntDel _ ns z))
  cases (d.zone ns z).furrow with
  | none => rfl
  | some f => exact (zoneSide_furrowDrained _ f).trans (zoneSide_closeRow y f)

theorem finishZone_refused (h : (d.zone ns z).state = .readOnly ∨ (d.zone ns z).state = .offline) :
    d.finishZone ns z n = (d, some 0xBF) := by
  obtain h | h := h <;> simp only [Dev.finishZone, h, zsInvalidTransition]

/-- A zone that is reset is as one never used. -/
theorem resetZone_resets (h : (d.zone ns z).state = .implOpen ∨ (d.zone ns z).state = .explOpen ∨ (d.zone ns z).state = .closed
    ∨ (d.zone ns z).state = .full) :
    d.zoneGives (d.resetZone ns z n) ns z (fun y => y = { Zone.fresh with gen := (d.zone ns z).gen }) := by
  have hgo : ¬ ((d.zone ns z).state = .readOnly ∨ (d.zone ns z).state = .offline) ∧ (d.zone ns z).state ≠ .empty := by
    obtain h | h | h | h := h <;> rw [h] <;> decide
  simp only [Dev.resetZone, if_neg hgo.1, if_neg hgo.2]
  refine zoneGives_putZone ?_ ((zoneSide_clearLost _ _ _ _).trans (zoneSide_zoneEntDel _ _ _)) rfl
  rw [zoneSide_dropZoneData, zoneSide_dropZoneUnits]

theorem resetZone_refused (h : (d.zone ns z).state = .readOnly ∨ (d.zone ns z).state = .offline) : d.resetZone ns z n = (d, some 0xBF) := by
  simp only [Dev.resetZone, if_pos h, zsInvalidTransition]

theorem offlineZone_ends (h : (d.zone ns z).state = .readOnly) :
    d.zoneGives (d.offlineZone ns z n) ns z (fun y => y = { d.zone ns z with state := .offline }) := by
  simp only [Dev.offlineZone, h]
  exact zoneGives_putZone (a := d) rfl rfl rfl

theorem offlineZone_refused (h : (d.zone ns z).state = .empty ∨ (d.zone ns z).state = .implOpen ∨ (d.zone ns z).state = .explOpen
    ∨ (d.zone ns z).state = .closed ∨ (d.zone ns z).state = .full) : d.offlineZone ns z n = (d, some 0xBF) := by
  obtain h | h | h | h | h := h <;> simp only [Dev.offlineZone, h, zsInvalidTransition]

end

/-! ### Zone Management Send -/

/-- What an action does to a zone (R164). -/
def Dev.zoneOp (d : Dev) (ns z : Nat) (n : Nsp) : Nat → Dev × Option Nat
  | 1 => d.closeZone ns z n
  | 2 => d.finishZone ns z n
  | 3 => d.openZone ns z n
  | 4 => d.resetZone ns z n
  | _ => d.offlineZone ns z n

theorem startZoneSend_eq (cs : Nat) (s : CSlot) (ns : Nat) (n : Nsp) :
    d.startZoneSend cs s ns n = d.zoneAction cs s ns n s.zsa (fun d z => d.zoneOp ns z n s.zsa) := rfl

section
variable {d : Dev} {cs act : Nat} {x : CSlot} {ns : Nat} {n : Nsp} (h : d.ioDue cs 0x79 x ns n) (hone : bitOf (x.dw 13) 8 = false)
  (halign : x.slba % n.zoneLbas = 0) (hact : x.zsa = act)
include h hone halign hact

/-- The row runs its action on the zone of its LBA, on the device that charging leaves. -/
theorem zoneSend_due : ∃ hg : Hg, d.PostsAs (d.withHg hg) cs x
    ∧ zoneSend act cs d = ((d.withHg hg).zoneOp ns (x.zone n) n act).2.elim
        (((d.withHg hg).zoneOp ns (x.zone n) n act).1.decide' cs cqeOk)
        (fun st => ((d.withHg hg).zoneOp ns (x.zone n) n act).1.complete cs (cqeZone st)) := by
  obtain ⟨hg, t, hpost, hreq, hrun⟩ := charged_due h
  have hdw : t.dw 13 = x.dw 13 := CSlot.dw_of_request hreq 13
  have hslba : t.slba = x.slba := CSlot.slba_of_request hreq
  have hzone : t.zone n = x.zone n := by rw [CSlot.zone, hslba, CSlot.zone]
  have hzsa : t.zsa = act := by rw [CSlot.zsa, hdw, ← hact, CSlot.zsa]
  refine ⟨hg, hpost, ?_⟩
  simp only [zoneSend, h.1, if_pos hact, hrun, startZoneSend_eq, Dev.zoneAction, hdw, hone, hslba, halign, hzone, hzsa, Bool.false_eq_true,
    if_false, ne_eq, not_true_eq_false]
  cases ((d.withHg hg).zoneOp ns (x.zone n) n act).2 <;> rfl

/-- An action that is carried out completes the command. -/
theorem zoneSend_ok {P : Zone → Prop} (hop : ∀ hg : Hg, (d.withHg hg).zoneGives
      ((d.withHg hg).zoneOp ns (x.zone n) n act) ns (x.zone n) P) :
    (zoneSend act cs d).posted d.out cs x cqeOk ∧ P ((zoneSend act cs d).zone ns (x.zone n)) := by
  obtain ⟨hg, hpost, hrun⟩ := zoneSend_due h hone halign hact
  obtain ⟨hnone, ⟨zs, hside⟩, hP⟩ := hop hg
  rw [hrun, hnone]
  refine ⟨(hpost.zones hside).decide' (postable_of_ioDue h) _, ?_⟩
  have htc : ∀ (y : Dev) c, (y.decide' cs c).tc = y.tc := fun y c => complete_tc _ cs c
  rw [Option.elim_none, Dev.zone, htc]
  exact hP

/-- A transition that is refused changes nothing. -/
theorem zoneSend_refused {st : Nat} (hop : ∀ hg : Hg, (d.withHg hg).zoneOp ns (x.zone n) n act = (d.withHg hg, some st)) :
    (zoneSend act cs d).posted d.out cs x (cqeZone st) ∧ (zoneSend act cs d).tc = d.tc := by
  obtain ⟨hg, hpost, hrun⟩ := zoneSend_due h hone halign hact
  rw [hrun, hop hg, Option.elim_some]
  exact ⟨hpost.complete (postable_of_ioDue h) _, complete_tc _ cs _⟩

end

/-- Settles O33, from each action's transition and refusals (`openZone_opens` to `offlineZone_refused`). -/
theorem zoneActions : Obligations.ZoneActions := by
  rintro s cs x ns n z st h hone halign rfl rfl
  refine ⟨fun ha hst => ?_, fun ha hst hmar => ?_, fun ha hst => ?_, fun ha hst => ?_, fun ha hst => ?_, fun ha hst => ?_, fun ha hst => ?_,
    fun ha hst => ?_, fun ha hst => ?_, fun ha hst => ?_, fun ha hst => ?_⟩
  · exact ⟨s.onDev (zoneSend 3 cs), rfl, rfl,
      zoneSend_ok (P := fun y => y.state = .explOpen ∧ y.furrow.isSome = true ∧ y.wp = (s.dev.zone ns (x.zone n)).wp)
      h hone halign ha fun hg => openZone_opens (d := s.dev.withHg hg) (n := n) hst⟩
  · exact ⟨s.onDev (zoneSend 3 cs), rfl, rfl,
      zoneSend_refused h hone halign ha fun hg => openZone_tooMany (d := s.dev.withHg hg) (n := n) hst hmar⟩
  · exact ⟨s.onDev (zoneSend 3 cs), rfl, rfl,
      zoneSend_refused h hone halign ha fun hg => openZone_refused (d := s.dev.withHg hg) (n := n) hst⟩
  · exact ⟨s.onDev (zoneSend 1 cs), rfl, rfl,
      zoneSend_ok (P := fun y => y.state = .closed ∧ y.furrow = (s.dev.zone ns (x.zone n)).furrow)
      h hone halign ha fun hg => closeZone_closes (d := s.dev.withHg hg) (n := n) hst⟩
  · exact ⟨s.onDev (zoneSend 1 cs), rfl, rfl,
      zoneSend_refused h hone halign ha fun hg => closeZone_refused (d := s.dev.withHg hg) (n := n) hst⟩
  · exact ⟨s.onDev (zoneSend 2 cs), rfl, rfl,
      zoneSend_ok (P := fun y => y.state = .full ∧ y.wp = s.dev.zcap n ∧ y.dataEnd = (s.dev.zone ns (x.zone n)).dataEnd)
      h hone halign ha fun hg => finishZone_finishes (d := s.dev.withHg hg) (n := n) hst⟩
  · exact ⟨s.onDev (zoneSend 2 cs), rfl, rfl,
      zoneSend_refused h hone halign ha fun hg => finishZone_refused (d := s.dev.withHg hg) (n := n) hst⟩
  · obtain ⟨⟨hfree, -⟩, hzone⟩ := zoneSend_ok (P := fun y => y = { Zone.fresh with gen := (s.dev.zone ns (x.zone n)).gen })
      h hone halign ha fun hg => resetZone_resets (d := s.dev.withHg hg) (n := n) hst
    exact ⟨s.onDev (zoneSend 4 cs), rfl, rfl, hfree, hzone⟩
  · exact ⟨s.onDev (zoneSend 4 cs), rfl, rfl,
      zoneSend_refused h hone halign ha fun hg => resetZone_refused (d := s.dev.withHg hg) (n := n) hst⟩
  · exact ⟨s.onDev (zoneSend 5 cs), rfl, rfl,
      zoneSend_ok (P := fun y => y = { s.dev.zone ns (x.zone n) with state := .offline })
      h hone halign ha fun hg => offlineZone_ends (d := s.dev.withHg hg) (n := n) hst⟩
  · exact ⟨s.onDev (zoneSend 5 cs), rfl, rfl,
      zoneSend_refused h hone halign ha fun hg => offlineZone_refused (d := s.dev.withHg hg) (n := n) hst⟩

end Sys2Proof.Machine
end

section
/-! PROOFS. O34: zone reports, and the placement handles of a namespace (R107, R109, R165, R166). -/

namespace Sys2Proof.Machine

variable (d : Dev)

/-! ### What the host's data commands leave -/

theorem butHost_answer (cs : Nat) (b : List Byte) (e : Cqe) : (d.answer cs b e).butHost = d.butHost := by
  simp only [Dev.answer, Dev.sendData]
  (repeat' split) <;> simp

/-- A report leaves the device but for the host's side, and stands before the command's completion. -/
theorem Dev.PostsAs.report {d : Dev} {cs : Nat} {x : CSlot} {hg : Hg} (he : d.PostsAs (d.withHg hg) cs x) (h : d.postable cs x)
    (u : CSlot → CSlot) (hu : ∀ t, (u t).request = t.request) (b : List Byte) :
    (((d.withHg hg).modSlot cs u).answer cs b cqeOk).butHost = d.butHost
      ∧ (((d.withHg hg).modSlot cs u).answer cs b cqeOk).posted (.hostWrite x.fn cs b :: d.out) cs x cqeOk :=
  ⟨butHost_answer _ cs b _, (he.modSlot hu).answer rfl h b _⟩

/-! ### Zone Management Receive -/

/-- The report of zones from the one that the LBA names on (R109). -/
def Dev.zoneReport (d : Dev) (x : CSlot) (ns : Nat) (n : Nsp) (zs : List Nat) : List Byte :=
  (leBytes 8 (if bitOf (x.dw 13) 16 then (zs.take ((4 * (x.dw 12 + 1) - 64) / 64)).length else zs.length) ++ leBytes 56 0
    ++ (zs.take ((4 * (x.dw 12 + 1) - 64) / 64)).flatMap (fun z => d.zoneDesc ns z n)).take (4 * (x.dw 12 + 1))

theorem zoneReceive_due {d : Dev} {cs : Nat} {x : CSlot} {ns : Nat} {n : Nsp} (h : d.ioDue cs 0x7A x ns n) (hopt : bitsOf (x.dw 13) 15 8 ≤ 7) :
    ∃ hg, d.PostsAs (d.withHg hg) cs x ∧ zoneReceive cs d = ((d.withHg hg).modSlot cs (fun s => { s with st := .committed })).answer cs
      (d.zoneReport x ns n ((List.range n.zones).filter
        (fun z => decide (x.slba / max 1 n.zoneLbas ≤ z) && reported (bitsOf (x.dw 13) 15 8) (d.zone ns z).state))) cqeOk := by
  obtain ⟨hg, t, hpost, hreq, hrun⟩ := charged_due h
  refine ⟨hg, hpost, ?_⟩
  simp only [zoneReceive, h.1, hrun, Dev.startZoneRecv, CSlot.dw_of_request hreq, CSlot.slba_of_request hreq, if_neg (Nat.not_lt.mpr hopt)]
  rfl

/-! ### Placement handles -/

/-- The status of a namespace's placement handles (R166). -/
def Dev.handleReport (d : Dev) (x : CSlot) (n : Nsp) : List Byte :=
  (leBytes 14 0 ++ leBytes 2 n.handles.length ++ (List.range n.handles.length).flatMap (fun i =>
    leBytes 2 (i + 4096 * n.quire) ++ leBytes 2 ((n.handles[i]?).getD 0) ++ leBytes 4 0
      ++ leBytes 8 (d.ruamw (d.boundFurrow 2 n.quire none ((n.handles[i]?).getD 0 + 256 * n.quire)) n) ++ leBytes 16 0)).take (4 * (x.dw 11 + 1))

theorem ioReceive_due {d : Dev} {cs : Nat} {x : CSlot} {ns : Nat} {n : Nsp} (h : d.ioDue cs 0x12 x ns n) :
    ∃ hg, d.PostsAs (d.withHg hg) cs x ∧ ioReceive cs d = ((d.withHg hg).modSlot cs (fun s => { s with st := .committed })).answer cs
      (d.handleReport x n) cqeOk := by
  obtain ⟨hg, t, hpost, hreq, hrun⟩ := charged_due h
  refine ⟨hg, hpost, ?_⟩
  simp only [ioReceive, h.1, hrun, Dev.startIoRecv, CSlot.dw_of_request hreq]
  rfl

/-- A Furrow whose row closes early keeps what is staged. -/
theorem closeRow_staged (f : Nat) : ((d.closeRow f).furrow f).staged = (d.furrow f).staged := by
  simp only [Dev.closeRow]
  (repeat' split) <;> simp

/-- A Furrow that drains what is staged, to open again. -/
def Dev.drainRow (d : Dev) (f : Nat) : Dev :=
  ((d.closeRow f).modFurrow f (fun x => { x with st := .draining, reopen := true })).furrowDrained f

theorem drainRow_drains {d : Dev} {f : Nat} (hst : (d.furrow f).staged ≠ []) : (d.drainRow f).zoneSide = d.zoneSide
    ∧ ((d.drainRow f).furrow f).st = .draining ∧ ((d.drainRow f).furrow f).reopen = true
    ∧ ((d.drainRow f).furrow f).staged = (d.furrow f).staged := by
  have hstaged := closeRow_staged d f
  have hkept : d.drainRow f = (d.closeRow f).modFurrow f (fun x => { x with st := .draining, reopen := true }) := by
    simp [Dev.drainRow, Dev.furrowDrained, hstaged, hst]
  rw [hkept, Dev.furrow_modFurrow]
  exact ⟨zoneSide_closeRow d f, rfl, rfl, hstaged⟩

/-- The update of a handle drains its Furrow, and may log an event (R166). -/
theorem ruhUpdate_bound {d : Dev} {n : Nsp} {hd f : Nat} (hf : d.boundFurrow 2 n.quire none (hd + 256 * n.quire) = some f) :
    ∃ l, d.ruhUpdate n hd = ({ d with tc := { d.tc with fdpEvents := l } } : Dev).drainRow f := by
  have hlog : ∃ rowsLeft : Bool, d.ruhUpdate n hd = (if rowsLeft then ({ d with tc := { d.tc with
      fdpEvents := d.tc.fdpEvents ++ [(0x00, (d.furrow f).binding)] } } : Dev) else d).drainRow f := by
    apply Exists.intro
    rw [Dev.ruhUpdate, hf]
    rfl
  obtain ⟨rowsLeft, hrun⟩ := hlog
  cases rowsLeft with
  | true => exact ⟨_, hrun⟩
  | false => exact ⟨d.tc.fdpEvents, hrun⟩

section
variable {d : Dev} {cs : Nat} {x : CSlot} {ns : Nat} {n : Nsp} {bytes : List Byte} (h : d.ioDue cs 0x1D x ns n)
  (hcount : bitsOf (x.dw 10) 31 16 = 0)
include h hcount

theorem ioSend_updates (hquire : bitsOf (fieldAt bytes 0 2) 15 12 = n.quire) (hgroup : bitsOf (fieldAt bytes 0 2) 11 8 = 0)
    (hhandle : bitsOf (fieldAt bytes 0 2) 7 0 < n.handles.length) : ∃ hg, d.PostsAs (d.withHg hg) cs x
      ∧ ioSend cs (.ok bytes) d = ((d.withHg hg).ruhUpdate n ((n.handles[bitsOf (fieldAt bytes 0 2) 7 0]?).getD 0)).decide' cs cqeOk := by
  obtain ⟨hg, t, hpost, hreq, hrun⟩ := charged_due h
  refine ⟨hg, hpost, ?_⟩
  simp [ioSend, h.1, hrun, CSlot.dw_of_request hreq, hcount, hquire, hgroup, Nat.not_le.mpr hhandle]

theorem ioSend_otherQuire (hquire : bitsOf (fieldAt bytes 0 2) 15 12 ≠ n.quire) : ∃ hg, d.PostsAs (d.withHg hg) cs x
      ∧ ioSend cs (.ok bytes) d = (d.withHg hg).complete cs cqeInvalidField := by
  obtain ⟨hg, t, hpost, hreq, hrun⟩ := charged_due h
  refine ⟨hg, hpost, ?_⟩
  simp [ioSend, h.1, hrun, CSlot.dw_of_request hreq, hcount, hquire]

end

/-- Settles O34, from the two reports (`zoneReceive_due`, `ioReceive_due`) and the Furrow that a handle's update drains
(`drainRow_drains`). -/
theorem zoneReportsAndPlacement : Obligations.ZoneReportsAndPlacement := by
  refine fun s cs x ns n => ⟨fun zs h hopt hzs => ?_, fun h => ?_, fun bytes f h hcount hquire hgroup hhandle hf hst => ?_,
    fun bytes h hcount hquire => ?_⟩
  · obtain ⟨hg, hpost, hrun⟩ := zoneReceive_due h hopt
    refine ⟨s.onDev (zoneReceive cs), rfl, rfl, ?_⟩
    rw [State.onDev_dev, hrun, hzs]
    exact hpost.report (postable_of_ioDue h) _ (fun _ => by rfl) _
  · obtain ⟨hg, hpost, hrun⟩ := ioReceive_due h
    refine ⟨s.onDev (ioReceive cs), rfl, rfl, ?_⟩
    rw [State.onDev_dev, hrun]
    exact hpost.report (postable_of_ioDue h) _ (fun _ => by rfl) _
  · obtain ⟨hg, hpost, hrun⟩ := ioSend_updates h hcount hquire hgroup hhandle
    obtain ⟨l, hupd⟩ := ruhUpdate_bound (d := s.dev.withHg hg) hf
    obtain ⟨hside, hdrain, hreopen, hstaged⟩ :=
      drainRow_drains (d := { s.dev.withHg hg with tc := { (s.dev.withHg hg).tc with fdpEvents := l } }) hst
    have hfur : ∀ (y : Dev) c, (y.decide' cs c).furrow f = y.furrow f := fun y c => by
      have htc : (y.decide' cs c).tc = y.tc := complete_tc _ cs c
      rw [Dev.furrow, htc, Dev.furrow]
    refine ⟨s.onDev (ioSend cs (.ok bytes)), rfl, rfl, ?_⟩
    rw [State.onDev_dev, hrun, hfur, hupd]
    exact ⟨(hpost.zones hside).decide' (postable_of_ioDue h) _, hdrain, hreopen, hstaged⟩
  · obtain ⟨hg, hpost, hrun⟩ := ioSend_otherQuire h hcount hquire
    refine ⟨s.onDev (ioSend cs (.ok bytes)), rfl, rfl, ?_⟩
    rw [State.onDev_dev, hrun]
    exact ⟨hpost.complete (postable_of_ioDue h) _, butHost_complete _ cs _⟩

end Sys2Proof.Machine
end

section
/-! PROOFS. The Headgate apart from its slots: what completions and the end of a function's commands leave of it, and what a posted
completion counts (R123, R135, R139). -/

namespace Sys2Proof.Machine

variable (d : Dev)

/-! ### The Headgate apart from its slots -/

/-- The Headgate without its slots and the tenants' counts: what fetching, arbitration, the contracts and the buckets hold. -/
def Hg.intake (h : Hg) : Hg := { h with slots := [], stats := [] }

theorem fetches_of_intake {a b : Hg} (h : a.intake = b.intake) : a.fetches = b.fetches := by
  have h' := congrArg Hg.fetches h
  exact h'

theorem contracts_of_intake {a b : Hg} (h : a.intake = b.intake) : a.contracts = b.contracts := by
  have h' := congrArg Hg.contracts h
  exact h'

theorem saved_of_intake {a b : Hg} (h : a.intake = b.intake) : a.saved = b.saved := by
  have h' := congrArg Hg.saved h
  exact h'

@[simp] theorem intake_modSlot (cs : Nat) (u : CSlot → CSlot) : (d.modSlot cs u).hg.intake = d.hg.intake := rfl

@[simp] theorem intake_discardCpl (s : CSlot) : (d.discardCpl s).hg.intake = d.hg.intake := rfl

@[simp] theorem intake_freeSlot (cs : Nat) : (d.freeSlot cs).hg.intake = d.hg.intake := by
  simp only [Dev.freeSlot]
  split
  · rfl
  · rw [settleFn_hg]; rfl

@[simp] theorem intake_post (cs : Nat) (s : CSlot) (qid : Nat) (q : Cq) (e : Cqe) : (d.post cs s qid q e).hg.intake = d.hg.intake := by
  simp only [Dev.post, intake_freeSlot]
  split <;> simp

@[simp] theorem intake_complete (cs : Nat) (e : Cqe) : (d.complete cs e).hg.intake = d.hg.intake := by
  simp only [Dev.complete]
  (repeat' split) <;> simp

@[simp] theorem intake_dropWork (cs : Nat) : (d.dropWork cs).hg.intake = d.hg.intake := by
  have h := congrArg (fun x => x.hg.intake) (butDrop_dropWork d cs)
  exact h

@[simp] theorem intake_endSlot (cs : Nat) : (d.endSlot cs).hg.intake = d.hg.intake := by
  simp only [Dev.endSlot]
  (repeat' split) <;> simp

/-- R139: with its commands a function's outstanding fetches end, and other functions' go on. -/
theorem fetches_endFn (f : Fn) : (d.endFn f).hg.fetches = d.hg.fetches.filter (fun x => decide (x.fn ≠ f)) :=
  fetches_of_intake (foldl_keeps (fun x => x.hg.intake) Dev.endSlot intake_endSlot _ _)

/-! ### What a posted completion counts -/

@[simp] theorem signal_cnt (f : Fn) (v : Nat) : (d.signal f v).cnt = d.cnt := by
  simp only [Dev.signal]; (repeat' split) <;> rfl

@[simp] theorem cqInterrupt_cnt (f : Fn) (v : Nat) : (d.cqInterrupt f v).cnt = d.cnt := by
  simp only [Dev.cqInterrupt]; (repeat' split) <;> simp

@[simp] theorem settleFn_cnt (f : Fn) : (d.settleFn f).cnt = d.cnt := by
  simp only [Dev.settleFn]; (repeat' split) <;> rfl

@[simp] theorem freeSlot_cnt (cs : Nat) : (d.freeSlot cs).cnt = d.cnt := by
  simp only [Dev.freeSlot]; split <;> simp

@[simp] theorem post_cnt (cs : Nat) (s : CSlot) (qid : Nat) (q : Cq) (e : Cqe) : (d.post cs s qid q e).cnt = d.cnt := by
  simp only [Dev.post, freeSlot_cnt]; split <;> simp

/-- A completion that is posted at once counts nothing: HG_CQ_STALL counts those that wait for space (R135). -/
theorem complete_cnt {d : Dev} {cs : Nat} {s : CSlot} (h : d.postable cs s) (e : Cqe) : (d.complete cs e).cnt = d.cnt := by
  obtain ⟨-, qid, cq, -, -, -, hq⟩ := postable_queues h
  obtain ⟨hslot, hcqe, hdis, hbme, hroom⟩ := h
  rw [hq] at hroom
  simp only [Dev.complete, hslot, hcqe, hdis, Option.isSome_none]
  generalize hx : ({ d with adm := _ } : Dev) = x
  have hxcnt : x.cnt = d.cnt := by rw [← hx]
  have hxfn : x.fnst s.fn = d.fnst s.fn := by rw [← hx]; rfl
  have hxcq : x.cqOf s.fn s.sqid = d.cqOf s.fn s.sqid := by simp only [Dev.cqOf, hxfn]
  simp only [hxfn, hbme, hxcq, hq, hroom, Bool.not_true, Bool.false_eq_true, if_false, if_true, post_cnt, hxcnt]

end Sys2Proof.Machine
end

section
/-! PROOFS. O18: fetch decisions, entries that arrive, and a fetch that fails (R123, R124, R132, R133, R143). -/

namespace Sys2Proof.Machine

variable (d : Dev)

/-! ### Fetch decisions (R132) -/

/-- A round robin over one queue serves it. -/
theorem nextKey_singleton (a k : Nat) : nextKey [a] k = some a := by
  by_cases h : k < a <;> simp [nextKey, h]

theorem fetchDecision_off {d : Dev} (h : d.fetchOn = false) : fetchDecision d = d := by simp [fetchDecision, h]

/-- The admin queue that is alone eligible is served. -/
theorem fetchDecision_admin {d : Dev} (hon : d.fetchOn = true) {x : SqRef} (hadm : d.adminQueues = [x]) (hio : d.ioQueues = []) :
    fetchDecision d = Dev.fetch { d with hg := { d.hg with sinceAdmin := 0, rrAdmin := x.key } } x (min 8 d.freeNow) := by
  simp [fetchDecision, hon, hadm, hio, nextKey_singleton]

/-- Without an eligible queue no class is starved and none has a queue to serve. -/
theorem fetchDecision_none {d : Dev} (hon : d.fetchOn = true) (hadm : d.adminQueues = []) (hio : d.ioQueues = []) :
    fetchDecision d = { d with hg := { d.hg with sinceAdmin := d.hg.sinceAdmin + 1 } } := by
  have hstarved : ∀ (x : Dev) cls, x.starved [] cls = false := fun x cls => by simp [Dev.starved]
  simp [fetchDecision, hon, hadm, hio, hstarved]

/-! ### Entries arrive (R123) -/

/-- The command that an entry of a queue becomes. -/
def Dev.arrival (d : Dev) (f : Fn) (qid : Nat) (q : Sq) (e : BitVec 512) : CSlot :=
  { st := .fetched, wait := .nothing, fn := f, sqid := qid, cid := bitsOf e.toNat 31 16, sqe := e, order := d.hg.order, t0 := q.bellAt d.now
    tenant := f.tenant, classified := false, charged := false, pacedAt := none, wasPaced := false, discard := false, bufs := []
    tags := [], units := [], want := 0, rsv := 0, commitAt := 0, stage := 0, cqe := none }

/-- A queue whose head has moved past one entry; doorbell writes that showed no entry behind it are forgotten. -/
def Sq.popped (q : Sq) : Sq :=
  { q with head := (q.head + 1) % q.size, bells := q.bells.filter (fun b => decide (1 < ringDist q.size q.head b.1)) }

theorem freeCs_congr {d e : Dev} (h : d.hg.slots = e.hg.slots) (n i : Nat) : d.freeCs n i = e.freeCs n i := by
  induction n generalizing i with
  | zero => rfl
  | succ n ih => simp only [Dev.freeCs, h, ih]

/-- An entry takes the lowest free slot, and of the rest changes its queue, the order of fetch and the tenant's counts. -/
theorem takeSlot_eq {d : Dev} {f : Fn} {qid : Nat} {q : Sq} (h : (d.fnst f).sqs.get? qid = some q) (e : BitVec 512) : ∃ st,
    d.takeSlot f qid e = { d.modFn f (fun s => { s with sqs := s.sqs.ins qid q.popped }) with hg := { d.hg with
      slots := d.hg.slots.ins (d.freeCs (d.hg.slots.length + 1) 0) (d.arrival f qid q e), order := d.hg.order + 1, stats := st } } := by
  simp only [Dev.takeSlot, h]
  split
  · exact ⟨d.hg.stats, rfl⟩
  · exact ⟨_, rfl⟩

section
variable {d : Dev} {f : Fn} {qid n : Nat} (h : d.hg.fetches = [⟨f, qid, n⟩])
include h

/-- The entry of the only outstanding fetch takes a slot. -/
theorem sqFetchComplete_entry (hn : 1 ≤ n) (e : BitVec 512) :
    sqFetchComplete f qid (.entries [e]) d = Dev.takeSlot { d with hg := { d.hg with fetches := [] } } f qid e := by
  have htake : [e].take n = [e] := List.take_of_length_le hn
  simp [sqFetchComplete, h, htake]

/-- R143: a failed fetch ends the controller's commands and sets its CSTS.CFS. -/
theorem sqFetchComplete_failed : sqFetchComplete f qid .failed d
    = (((Dev.endFn { d with hg := { d.hg with fetches := [] } } f).modFn f (fun s => { s with cfs := true })).ev
      evHgSqFetchFail 0 [.num 2 f.cntlid, .num 2 qid]) := by
  simp [sqFetchComplete, h]

end

/-- Settles O18, from the three decisions (`fetchDecision_off`, `fetchDecision_admin`, `fetchDecision_none`), the slot that an entry takes
(`takeSlot_eq`), and what the end of a function's commands leaves (`unsettled_endFn`, `fetches_endFn`). -/
theorem fetchingCommands : Obligations.FetchingCommands := by
  refine ⟨fun s => ⟨fun hoff => ?_, fun hon x hadm hio => ?_, fun hon hadm hio => ?_⟩,
    fun s f qid n hf => ⟨fun q e hn hq => ?_, ?_⟩⟩
  · exact next_onDev (f := fetchDecision) (fetchDecision_off hoff)
  · refine ⟨s.onDev fetchDecision, rfl, rfl, ?_⟩
    rw [State.onDev_dev, fetchDecision_admin hon hadm hio]
    exact ⟨rfl, rfl, rfl, rfl⟩
  · exact next_onDev (f := fetchDecision) (fetchDecision_none hon hadm hio)
  · generalize hy : ({ s.dev with hg := { s.dev.hg with fetches := [] } } : Dev) = y
    have hyq : (y.fnst f).sqs.get? qid = some q := by rw [← hy]; exact hq
    have hyslots : s.dev.hg.slots = y.hg.slots := by rw [← hy]
    have hyfetches : y.hg.fetches = [] := by rw [← hy]
    have hyorder : y.hg.order = s.dev.hg.order := by rw [← hy]
    obtain ⟨st, htake⟩ := takeSlot_eq hyq e
    refine ⟨s.onDev (sqFetchComplete f qid (.entries [e])), rfl, rfl, ?_⟩
    rw [State.onDev_dev, sqFetchComplete_entry hf hn, hy, htake, hyslots, freeCs_congr hyslots]
    have hqueue := congrArg (fun t : FnSt => t.sqs.get? qid) (Dev.fnst_modFn y f (fun t => { t with sqs := t.sqs.ins qid q.popped }))
    exact ⟨hyfetches, y.arrival f qid q e, Tbl.get?_ins_same _ _ _, rfl, rfl, rfl, rfl, rfl, hyorder, rfl, rfl, q.popped,
      hqueue.trans (Tbl.get?_ins_same _ _ _), rfl, rfl⟩
  · refine ⟨s.onDev (sqFetchComplete f qid .failed), rfl, rfl, ?_⟩
    rw [State.onDev_dev, sqFetchComplete_failed hf]
    generalize hy : ({ s.dev with hg := { s.dev.hg with fetches := [] } } : Dev) = y
    have hsqs := congrArg FnSt.sqs (unsettled_endFn y f f)
    rw [Dev.fnst_modFn] at hsqs
    refine ⟨by simp, by rw [Dev.ev_fnst, Dev.fnst_modFn]; exact hsqs, ?_⟩
    rw [Dev.ev_hg, Dev.modFn_hg, fetches_endFn, ← hy]
    rfl

end Sys2Proof.Machine
end

section
/-! PROOFS. O19: classification, and the refill of the token buckets (R107, R123, R130, R142, R316, R324). -/

namespace Sys2Proof.Machine

variable (d : Dev)

/-! ### What a verified search leaves alone (R328, R329) -/

/-- The device without what a search touches: the Collation Engine, counters and the ledger. -/
def Dev.butSearch (d : Dev) : Dev := { d.butLog with col := .reset }

@[simp] theorem butSearch_ev (c i : Nat) (l : List PField) : (d.ev c i l).butSearch = d.butSearch := by simp [Dev.butSearch]

@[simp] theorem butSearch_colVerify (g : Nat) (q qm : BitVec 192) : (d.colVerify g q qm).butSearch = d.butSearch := by
  refine foldl_keeps Dev.butSearch _ (fun x y => ?_) _ d
  split
  · rfl
  · exact (butSearch_ev _ _ _ _).trans rfl

@[simp] theorem butSearch_colLost (g i : Nat) : (d.colLost g i).butSearch = d.butSearch :=
  (butSearch_ev _ _ _ _).trans rfl

theorem butSearch_colSearchL (lost : Bool) (g : Nat) (q qm : BitVec 192) : (d.colSearchL lost g q qm).1.butSearch = d.butSearch := by
  simp only [Dev.colSearchL, Dev.colSearch]
  split <;> simp

section
variable {a b : Dev} (h : a.butSearch = b.butSearch)
include h

theorem hg_of_search : a.hg = b.hg := by have h' := congrArg Dev.hg h; exact h'
theorem fns_of_search : a.fns = b.fns := by have h' := congrArg Dev.fns h; exact h'
theorem out_of_search : a.out = b.out := by have h' := congrArg Dev.out h; exact h'
theorem san_of_search : a.san = b.san := by have h' := congrArg Dev.san h; exact h'
theorem tc_of_search : a.tc = b.tc := by have h' := congrArg Dev.tc h; exact h'

theorem ioRefusal_of_search (s : CSlot) (n : Nsp) : a.ioRefusal s n = b.ioRefusal s n := by
  have hfn : a.fnst s.fn = b.fnst s.fn := by rw [Dev.fnst, fns_of_search h, Dev.fnst]
  rw [Dev.ioRefusal, Dev.ioRefusal, Dev.sanHolds, Dev.sanHolds, hfn, san_of_search h]

theorem nsp_of_search (k : Nat) : a.nsp k = b.nsp k := by rw [Dev.nsp, tc_of_search h, Dev.nsp]

end

/-! ### Classification -/

/-- The search of the classification group for a command's controller and namespace (R316). -/
def Dev.classSearch (d : Dev) (lost : Bool) (s : CSlot) : Dev × List (Nat × CEnt) :=
  d.colSearchL lost 0 (BitVec.ofNat 192 (ctlKey s.fn + 65536 * s.nsid)) 0#192

section
variable {d : Dev} {cs : Nat} {x : CSlot} (h : d.postable cs x) (hst : x.st = .fetched) (hcl : x.classified = false) (lost : Bool)
include h hst hcl

theorem commandClassified_admin (hq : x.sqid = 0) (hr : d.adminRefusal x = none) :
    commandClassified cs lost d = d.setClassified cs x.fn.tenant := by
  simp [commandClassified, h.1, hst, hcl, hq, hr]

theorem commandClassified_unsupported (hq : x.sqid = 0) (hop : adminKnown x.fn.isPf x.opcode = false) :
    commandClassified cs lost d = d.complete cs cqeInvalidOpcode := by
  have hr : d.adminRefusal x = some cqeInvalidOpcode := by simp [Dev.adminRefusal, hop]
  simp [commandClassified, h.1, hst, hcl, hq, hr]

section
variable (hq : x.sqid ≠ 0) (hns : x.nsid ≠ 0) (hall : x.nsid ≠ 0xFFFFFFFF) (hdom : d.domReady 5 = true)
include hq hns hall hdom

theorem commandClassified_miss (hmiss : (d.classSearch lost x).2 = []) :
    commandClassified cs lost d = (d.classSearch lost x).1.complete cs cqeInvalidNs := by
  rw [Dev.classSearch] at hmiss
  simp [commandClassified, h.1, hst, hcl, hq, hns, hall, hdom, hmiss, Dev.classSearch]

theorem commandClassified_hit {i : Nat} {e : CEnt} {l : List (Nat × CEnt)} {n : Nsp} (hhit : (d.classSearch lost x).2 = (i, e) :: l)
    (hn : d.nsp (bitsOf e.res.toNat 19 10) = some n) (hr : d.ioRefusal x n = none) :
    commandClassified cs lost d = (d.classSearch lost x).1.setClassified cs (bitsOf e.res.toNat 9 0) := by
  have hkeeps := butSearch_colSearchL d lost 0 (BitVec.ofNat 192 (ctlKey x.fn + 65536 * x.nsid)) 0#192
  rw [← nsp_of_search hkeeps] at hn
  rw [← ioRefusal_of_search hkeeps] at hr
  rw [Dev.classSearch] at hhit
  simp [commandClassified, h.1, hst, hcl, hq, hns, hall, hdom, hhit, hn, hr, Dev.classSearch]

end

end

theorem slots_setClassified {d : Dev} {cs : Nat} {x : CSlot} (h : d.hg.slots.get? cs = some x) (t : Nat) :
    (d.setClassified cs t).hg.slots.get? cs = some { x with classified := true, tenant := t } := by
  simp [Dev.setClassified, h]

/-! ### Buckets -/

@[simp] theorem bucket_setBucket (rd : Bool) (t : Nat) (b : Bucket) : (d.setBucket rd t b).bucket rd t = b := by
  cases rd <;> simp [Dev.bucket, Dev.setBucket]

theorem bucket_setBucket_ne {rd r : Bool} {t n : Nat} (b : Bucket) (h : r ≠ rd ∨ n ≠ t) :
    (d.setBucket rd t b).bucket r n = d.bucket r n :=
  match rd, r, h with
  | true, false, _ | false, true, _ => rfl
  | true, true, h | false, false, h => Tbl.get_put_ne _ _ _ (h.resolve_left (absurd rfl))

/-- A bucket after a microsecond under a contract: an unlimited one stays as it is (R130). -/
def Contract.refilled (c : Contract) (rd : Bool) (b : Bucket) : Bucket :=
  match c.rate rd with
  | none => b
  | some r => b.refill r (c.burst rd)

/-- One microsecond of refill of a tenant's read or write bucket. -/
def Dev.refillBucket (d : Dev) (rd : Bool) (t : Nat) (c : Contract) : Dev :=
  match c.rate rd with
  | none => d
  | some r => d.setBucket rd t ((d.bucket rd t).refill r (c.burst rd))

/-- One microsecond of refill of both buckets of a tenant. -/
def Dev.refillTenant (d : Dev) (x : Nat × Contract) : Dev := (d.refillBucket true x.1 x.2).refillBucket false x.1 x.2

theorem refill_eq : d.refill = d.hg.contracts.foldl Dev.refillTenant d := rfl

theorem bucket_refillBucket (rd : Bool) (t : Nat) (c : Contract) : (d.refillBucket rd t c).bucket rd t = c.refilled rd (d.bucket rd t) := by
  simp only [Dev.refillBucket, Contract.refilled]
  split
  · rfl
  · exact bucket_setBucket d rd t _

theorem bucket_refillBucket_ne {rd r : Bool} {t n : Nat} (c : Contract) (h : r ≠ rd ∨ n ≠ t) :
    (d.refillBucket rd t c).bucket r n = d.bucket r n := by
  simp only [Dev.refillBucket]
  split
  · rfl
  · exact bucket_setBucket_ne d _ h

theorem slots_refillBucket (rd : Bool) (t : Nat) (c : Contract) : (d.refillBucket rd t c).hg.slots = d.hg.slots := by
  simp only [Dev.refillBucket]
  split
  · rfl
  · obtain ⟨r, w, h⟩ := setBucket_eq d rd t _
    rw [h]

theorem bucket_refillTenant (rd : Bool) (t : Nat) (c : Contract) : (d.refillTenant (t, c)).bucket rd t = c.refilled rd (d.bucket rd t) := by
  cases rd with
  | true => exact (bucket_refillBucket_ne _ c (.inl Bool.false_ne_true.symm)).trans (bucket_refillBucket d true t c)
  | false => exact (bucket_refillBucket _ false t c).trans (congrArg _ (bucket_refillBucket_ne d c (.inl Bool.false_ne_true)))

theorem bucket_refillTenant_ne (rd : Bool) {n : Nat} {x : Nat × Contract} (h : n ≠ x.1) : (d.refillTenant x).bucket rd n = d.bucket rd n :=
  (bucket_refillBucket_ne _ _ (.inr h)).trans (bucket_refillBucket_ne d _ (.inr h))

theorem bucket_refillTenants_ne (rd : Bool) {n : Nat} {l : Tbl Contract} (h : ∀ x ∈ l, n ≠ x.1) :
    (l.foldl Dev.refillTenant d).bucket rd n = d.bucket rd n := by
  induction l generalizing d with
  | nil => rfl
  | cons x l ih =>
    obtain ⟨hx, hl⟩ := List.forall_mem_cons.mp h
    exact (ih (d.refillTenant x) hl).trans (bucket_refillTenant_ne d rd hx)

/-- Each tenant of a table in its canonical form is refilled once. -/
theorem bucket_refillTenants (rd : Bool) {n : Nat} {c : Contract} {l : Tbl Contract} (hwf : l.wf = true) (hc : l.get? n = some c) :
    (l.foldl Dev.refillTenant d).bucket rd n = c.refilled rd (d.bucket rd n) := by
  induction l generalizing d with
  | nil => cases hc
  | cons x l ih =>
    obtain ⟨k, v⟩ := x
    rw [Tbl.wf_cons] at hwf
    by_cases hk : n = k
    · subst hk
      have hv : v = c := by simpa [Tbl.get?] using hc
      subst hv
      exact (bucket_refillTenants_ne _ rd fun y hy => Nat.ne_of_lt (Tbl.lt_of_above hwf hy)).trans (bucket_refillTenant d rd n v)
    · have hl : Tbl.get? l n = some c := by simpa [Tbl.get?, hk] using hc
      exact (ih (d.refillTenant (k, v)) (Tbl.wf_of_above hwf) hl).trans (congrArg _ (bucket_refillTenant_ne d rd hk))

theorem slots_refill : d.refill.hg.slots = d.hg.slots := by
  rw [refill_eq]
  exact foldl_keeps (fun x => x.hg.slots) Dev.refillTenant
    (fun x y => (slots_refillBucket _ false y.1 y.2).trans (slots_refillBucket x true y.1 y.2)) _ d

/-- With no command in a slot, a microsecond refills the buckets and does nothing else. -/
theorem tokenRefill_idle {d : Dev} (h : d.hg.slots = []) : tokenRefill d = d.refill := by
  have hslots : d.refill.hg.slots = [] := (slots_refill d).trans h
  simp [tokenRefill, Dev.inOrder, hslots]

/-- Settles O19, from what each kind of command is classified as (`commandClassified_admin` to `commandClassified_hit`), and from the
tenants' buckets after a refill (`bucket_refillTenants`). -/
theorem classifyingCommands : Obligations.ClassifyingCommands := by
  refine ⟨fun s cs lost x h hst hcl => ⟨fun hq hr => ?_, fun hq hop => ?_, fun hq hns hall hdom => ?_⟩, fun s hslots hwf => ?_⟩
  · refine ⟨s.onDev (commandClassified cs lost), rfl, rfl, ?_⟩
    rw [State.onDev_dev, commandClassified_admin h hst hcl lost hq hr]
    exact ⟨slots_setClassified h.1 _, rfl⟩
  · refine ⟨s.onDev (commandClassified cs lost), rfl, rfl, ?_⟩
    rw [State.onDev_dev, commandClassified_unsupported h hst hcl lost hq hop]
    exact complete_posted h _
  · have hkeeps : (s.dev.classSearch lost x).1.butSearch = s.dev.butSearch := butSearch_colSearchL _ _ _ _ _
    refine ⟨fun hmiss => ?_, fun i e l n hhit hn hr => ?_⟩
    · refine ⟨s.onDev (commandClassified cs lost), rfl, rfl, ?_⟩
      rw [State.onDev_dev, commandClassified_miss h hst hcl lost hq hns hall hdom hmiss]
      exact ((Dev.PostsAs.refl h).other (congrArg Hg.slots (hg_of_search hkeeps)) (fns_of_search hkeeps) (out_of_search hkeeps)).complete h _
    · refine ⟨s.onDev (commandClassified cs lost), rfl, rfl, ?_⟩
      rw [State.onDev_dev, commandClassified_hit h hst hcl lost hq hns hall hdom hhit hn hr]
      exact slots_setClassified (by rw [hg_of_search hkeeps]; exact h.1) _
  · refine ⟨s.onDev tokenRefill, rfl, rfl, ?_⟩
    rw [State.onDev_dev, tokenRefill_idle hslots]
    exact ⟨(slots_refill _).trans hslots, fun n c rd hc => bucket_refillTenants s.dev rd hwf hc⟩

end Sys2Proof.Machine
end

section
/-! PROOFS. O20: tenant contracts through the window and the vendor commands, and HG_CTRL (R128, R144 to R146, R149). -/

namespace Sys2Proof.Machine

variable (d : Dev)

/-! ### The window's words -/

/-- Words shown in consecutive registers. -/
def Dev.showWords (d : Dev) (a : Nat) (w : Nat → W32) (l : List Nat) : Dev := l.foldl (fun d i => d.setCsr (a + 4 * i) (w i)) d

theorem hg_showWords (a : Nat) (w : Nat → W32) (l : List Nat) : (d.showWords a w l).hg = d.hg :=
  foldl_keeps Dev.hg (fun (d : Dev) i => d.setCsr (a + 4 * i) (w i)) (fun _ _ => rfl) l d

theorem csrW_showWords (a : Nat) (w : Nat → W32) (l : List Nat) (i : Nat) :
    (d.showWords a w l).csrW (a + 4 * i) = if i ∈ l then w i else d.csrW (a + 4 * i) := by
  induction l generalizing d with
  | nil => rfl
  | cons j l ih =>
    refine (ih (d.setCsr (a + 4 * j) (w j))).trans ?_
    by_cases hl : i ∈ l
    · simp [hl]
    by_cases hij : i = j
    · simp [hij]
    · have haddr : a + 4 * i ≠ a + 4 * j := by omega
      simp [hl, hij, Dev.csrW_setCsr_ne d _ haddr]

@[simp] theorem windowEnd_contracts (r : Nat) : (d.windowEnd r).hg.contracts = d.hg.contracts := rfl

@[simp] theorem windowEnd_csrW (r a : Nat) : (d.windowEnd r).csrW a = d.csrW a := rfl

section
variable {d : Dev} (h : d.domReady 2 = true)
include h

/-- CONTRACT_LOAD shows the 16 words of the contract in force. -/
theorem contractLoad_shows (ht : d.reg aHgContractIdx 9 0 ≤ 512) : contractLoad d = (d.showWords aHgContractData
    (fun i => BitVec.ofNat 32 (fieldAt (contractBytes (d.reg aHgContractIdx 9 0) (d.contract (d.reg aHgContractIdx 9 0))
      (d.hg.saved.has (d.reg aHgContractIdx 9 0))) (4 * i) 4)) (List.range 16)).windowEnd 0 := by
  simp only [contractLoad, h, Nat.not_lt.mpr ht, Bool.not_true, Bool.false_eq_true, if_false]
  rfl

theorem contractApply_applies (ht : d.reg aHgContractIdx 9 0 ≤ 512) (hrec : fieldAt d.windowRecord 0 2 ≤ 512)
    (hok : contractOk (leBytes 2 (d.reg aHgContractIdx 9 0) ++ d.windowRecord.drop 2) false = true) :
    contractApply d = (d.setContract (d.reg aHgContractIdx 9 0) (parseContract d.windowRecord)).windowEnd 0 := by
  simp [contractApply, h, Nat.not_lt.mpr ht, Nat.not_lt.mpr hrec, hok]

theorem contractApply_badIndex (ht : 512 < d.reg aHgContractIdx 9 0) : contractApply d = d.windowEnd 2 := by
  simp [contractApply, h, ht]

/-- R149: before the entry mode fetch_en keeps its value, and HG_CTRL's other fields are stored. -/
theorem hgCtrlWrite_stores (v : W32) : hgCtrlWrite v d = d.setCsr aHgCtrl
    (if hostMode d.modes.mode ∨ d.modes.mode = .holdup ∨ d.modes.mode = .halted then v &&& 0xFB#32
     else (v &&& 0xFA#32) ||| (d.csrW aHgCtrl &&& 1#32)) := by
  have hmask : v &&& 0xFB#32 &&& ~~~1#32 = v &&& 0xFA#32 := BitVec.and_assoc v _ _
  simp only [hgCtrlWrite, h, hmask, Bool.not_true, Bool.false_eq_true, if_false]

end

/-! ### The warm floor that follows a contract (R86) leaves the host's side alone -/

theorem hostSide_ev (c i : Nat) (l : List PField) : (d.ev c i l).hostSide = d.hostSide := hostSide_of_mode (butMode_ev d c i l)

theorem hostSide_demand (k : Nat) : (d.demand k).hostSide = d.hostSide := by
  have hon := hostSide_of_mode (butMode_powerOn d k)
  simp only [Dev.demand]
  (repeat' split) <;> simp only [hon]

theorem hostSide_holdFloor : d.holdFloor.hostSide = d.hostSide := by
  simp only [Dev.holdFloor]
  split
  · exact foldl_keeps Dev.hostSide _ hostSide_demand _ d
  · rfl

theorem hostSide_warmUpdate : d.warmUpdate.hostSide = d.hostSide := by
  simp only [Dev.warmUpdate]
  split
  · rw [hostSide_holdFloor]
    split
    · rw [hostSide_ev, hostSide_setCond d rfl]
    · rw [hostSide_setCond d rfl]
  · rw [hostSide_holdFloor, hostSide_setCond _ rfl]
    rfl

/-! ### A contract takes effect (R146) -/

theorem clampBucket_eq (t : Nat) (old c : Contract) (rd : Bool) :
    ∃ r w, d.clampBucket t old c rd = { d with hg := { d.hg with rbucket := r, wbucket := w } } := by
  simp only [Dev.clampBucket]
  (repeat' split) <;> exact setBucket_eq d rd t _

/-- Of the functions and the Headgate a contract that takes effect changes the table of contracts and the buckets. -/
theorem setContract_hostSide (t : Nat) (c : Contract) : ∃ r w,
    (d.setContract t c).hostSide = (d.fns, { d.hg with contracts := d.hg.contracts.ins t c, rbucket := r, wbucket := w }) := by
  obtain ⟨r1, w1, h1⟩ := clampBucket_eq (d.withContract t c) t (d.contract t) c true
  obtain ⟨r2, w2, h2⟩ := clampBucket_eq ((d.withContract t c).clampBucket t (d.contract t) c true) t (d.contract t) c false
  refine ⟨r2, w2, ?_⟩
  simp only [Dev.setContract]
  rw [hostSide_warmUpdate, hostSide_ev, h2, h1]
  rfl

theorem contract_of_ins {d e : Dev} {t : Nat} {c : Contract} (h : e.hg.contracts = d.hg.contracts.ins t c) :
    e.contract t = c ∧ ∀ n, n ≠ t → e.contract n = d.contract n := by
  refine ⟨by simp [Dev.contract, h], fun n hn => ?_⟩
  rw [Dev.contract, h, Tbl.get?_ins_ne _ _ hn, Dev.contract]

theorem contract_setContract (t : Nat) (c : Contract) : (d.setContract t c).contract t = c := by
  obtain ⟨r, w, h⟩ := setContract_hostSide d t c
  exact (contract_of_ins (congrArg (fun x => x.2.contracts) h)).1

/-! ### The vendor commands (R144) -/

/-- A contract set with its save flag is saved as well (R145). -/
def Dev.saveContract (d : Dev) (t : Nat) (c : Contract) : Dev :=
  if c.save then { d with hg := { d.hg with saved := d.hg.saved.ins t c } } else d

theorem saveContract_hostSide (t : Nat) (c : Contract) : ∃ l,
    (d.saveContract t c).hostSide = (d.fns, { d.hg with saved := l }) ∧ (c.save = false → l = d.hg.saved) := by
  cases hc : c.save with
  | true => exact ⟨d.hg.saved.ins t c, by rw [Dev.saveContract, if_pos hc]; rfl, nofun⟩
  | false => exact ⟨d.hg.saved, by simp [Dev.saveContract, hc, Dev.hostSide], fun _ => rfl⟩

section
variable {d : Dev} {cs : Nat} {x : CSlot}

/-- The tenant that the data of a Tenant Contract Set names. -/
def setTenant (b : List Byte) : Nat := fieldAt b 0 2

/-- The contract that the data of a Tenant Contract Set spells. -/
def setRecord (b : List Byte) : Contract := parseContract (slice b 0 64)

section
variable {b : List Byte} (h : d.seqDue cs 0xC1 x) (hdw : (List.range 6).all (fun i => decide (x.dw (10 + i) = 0)) = true)
  (hzero : zeroAt b 64 4032 = true) (hok : contractOk (slice b 0 64) false = true)
include h hdw hzero hok

theorem tenantContractSet_accepts (hr : ((d.seqStart cs).withContract (setTenant b) (setRecord b)).contractRefusal (setTenant b) = none) :
    tenantContractSet cs (.ok b) d
      = (((d.seqStart cs).setContract (setTenant b) (setRecord b)).saveContract (setTenant b) (setRecord b)).complete cs cqeOk := by
  rw [setTenant, setRecord] at hr
  rw [tenantContractSet, seqRun_due h]
  simp only [Dev.withData, hdw, hzero, hok, hr, Bool.not_true, Bool.or_self, Bool.false_eq_true, if_false]
  rfl

theorem tenantContractSet_refuses {sc : Nat}
    (hr : ((d.seqStart cs).withContract (setTenant b) (setRecord b)).contractRefusal (setTenant b) = some sc) :
    tenantContractSet cs (.ok b) d = (d.seqStart cs).complete cs (cqeVendor sc) := by
  rw [setTenant, setRecord] at hr
  rw [tenantContractSet, seqRun_due h]
  simp only [Dev.withData, hdw, hzero, hok, hr, Bool.not_true, Bool.or_self, Bool.false_eq_true, if_false]

end

/-- What a set contract leaves once its command has completed: the slot is free, the contract is in force, and the others and the saved
ones are as they were. -/
theorem setContract_completed (h : d.postable cs x) (t : Nat) (c : Contract) {y : Dev}
    (hy : (((d.seqStart cs).setContract t c).saveContract t c).complete cs cqeOk = y) : y.hg.slots.get? cs = none
      ∧ y.contract t = c ∧ (∀ n, n ≠ t → y.contract n = d.contract n) ∧ (c.save = false → y.hg.saved = d.hg.saved) := by
  obtain ⟨u, hu, hreq⟩ := (seqStart_postsAs h).slot
  obtain ⟨r, w, hset⟩ := setContract_hostSide (d.seqStart cs) t c
  obtain ⟨l, hsave, hkept⟩ := saveContract_hostSide ((d.seqStart cs).setContract t c) t c
  generalize (((d.seqStart cs).setContract t c).saveContract t c) = z at hy hsave
  have hfns : z.fns = d.fns := (congrArg Prod.fst hsave).trans (congrArg Prod.fst hset)
  have hslots : z.hg.slots = (d.seqStart cs).hg.slots := (congrArg (·.2.slots) hsave).trans (congrArg (·.2.slots) hset)
  have hcontracts : z.hg.contracts = d.hg.contracts.ins t c := (congrArg (·.2.contracts) hsave).trans (congrArg (·.2.contracts) hset)
  have hintake := intake_complete z cs cqeOk
  rw [hy] at hintake
  obtain ⟨hsame, hother⟩ := contract_of_ins ((contracts_of_intake hintake).trans hcontracts)
  refine ⟨?_, hsame, hother, fun hc => ?_⟩
  · rw [← hy]
    exact (complete_posted (Dev.postable_of_request h hfns (by rw [hslots]; exact hu) hreq) cqeOk).1
  · exact (saved_of_intake hintake).trans ((congrArg (·.2.saved) hsave).trans ((hkept hc).trans (congrArg (·.2.saved) hset)))

/-- A tenant that Tenant Contract Get may name is what CDW10 holds. -/
theorem bitsOf_tenant {v : Nat} (h : v ≤ 512) : bitsOf v 9 0 = v ∧ v / 1024 = 0 := by
  simp only [bitsOf]
  omega

theorem tenantContractGet_answers (h : d.seqDue cs 0xC2 x) (ht : x.dw 10 ≤ 512)
    (hdw : (List.range 5).any (fun i => decide (x.dw (11 + i) ≠ 0)) = false) : tenantContractGet cs d = (d.seqStart cs).answer cs
      (contractBytes (x.dw 10) (d.contract (x.dw 10)) (d.hg.saved.has (x.dw 10)) ++ List.replicate 4032 0) := by
  obtain ⟨hid, hhigh⟩ := bitsOf_tenant ht
  rw [tenantContractGet, seqRun_due h]
  simp only [hid, hhigh, hdw, Nat.not_lt.mpr ht, ne_eq, not_true_eq_false, Bool.false_eq_true, or_self, if_false]
  rfl

end

/-- Settles O20, from the window's commands (`contractLoad_shows`, `contractApply_applies`), HG_CTRL's fields (`hgCtrlWrite_stores`), and
what a contract that takes effect leaves (`setContract_hostSide`, `setContract_completed`). -/
theorem contracts : Obligations.Contracts := by
  refine ⟨fun s hon => ⟨fun ht => ?_, fun ht hrec hok => ?_, fun ht => ?_, fun v => ?_⟩,
    fun s cs x => ⟨fun b h hdw hzero hok => ⟨fun hr => ?_, fun sc hr => ?_⟩, fun h ht hdw => ?_⟩⟩
  · refine ⟨s.onDev contractLoad, rfl, rfl, ?_⟩
    rw [State.onDev_dev, contractLoad_shows hon ht]
    exact ⟨rfl, by rw [windowEnd_contracts, hg_showWords],
      fun i hi => by rw [windowEnd_csrW, csrW_showWords, if_pos (List.mem_range.mpr hi)]⟩
  · refine ⟨s.onDev contractApply, rfl, rfl, ?_⟩
    rw [State.onDev_dev, contractApply_applies hon ht hrec hok]
    exact ⟨rfl, contract_setContract _ _ _⟩
  · exact next_onDev (f := contractApply) (contractApply_badIndex hon ht)
  · exact next_onDev (f := hgCtrlWrite v) (hgCtrlWrite_stores hon v)
  · refine ⟨s.onDev (tenantContractSet cs (.ok b)), rfl, rfl, ?_⟩
    exact setContract_completed h.2.2 _ _ (tenantContractSet_accepts h hdw hzero hok hr).symm
  · refine ⟨s.onDev (tenantContractSet cs (.ok b)), rfl, rfl, ?_⟩
    rw [State.onDev_dev, tenantContractSet_refuses h hdw hzero hok hr]
    exact ⟨(seqStart_postsAs h.2.2).complete h.2.2 _, contracts_of_intake (intake_complete _ cs _)⟩
  · refine ⟨s.onDev (tenantContractGet cs), rfl, rfl, ?_⟩
    rw [State.onDev_dev, tenantContractGet_answers h ht hdw]
    have hposts := seqStart_postsAs h.2.2
    refine ⟨?_, hposts.answer rfl h.2.2 _ cqeOk⟩
    rw [hposts.answer_eq h.2.2]
    exact contracts_of_intake (intake_complete _ cs _)

end Sys2Proof.Machine
end

section
/-! PROOFS. O21: Abort and Asynchronous Event Request (R107, R115, R137). -/

namespace Sys2Proof.Machine

section
variable {d : Dev} {cs : Nat} {x : CSlot}

/-! ### Abort -/

/-- The device in which an Abort has been counted that did not abort its target. -/
def Dev.abortMissed (d : Dev) (s : CSlot) : Dev :=
  (d.count aHgAbortCnt 16 16).modStat s.fn.tenant (fun t => { t with notAborted := sat 32 (t.notAborted + 1) })

theorem abortMissed_postsAs (h : d.postable cs x) : d.PostsAs (d.abortMissed x) cs x :=
  (Dev.PostsAs.refl h).other (g := d.abortMissed x) rfl rfl rfl

section
variable (h : d.adminDue cs 0x08 x) (hfew : d.abortsBefore x < 8)
include h hfew

/-- An Abort whose target holds no slot. -/
theorem abortCmd_noTarget (ht : d.abortTarget cs x = none) : abortCmd cs d = (d.abortMissed x).complete cs (cqeDw0 1#32) := by
  rw [abortCmd, adminRun_due h]
  simp only [Nat.not_le.mpr hfew, ht, if_false]
  rfl

/-- An Abort whose target has passed its commit point. -/
theorem abortCmd_late {c : Nat} {y : CSlot} (ht : d.abortTarget cs x = some (c, y)) (hst : y.st = .committed ∨ y.st = .ending) :
    abortCmd cs d = (d.abortMissed x).complete cs (cqeDw0 1#32) := by
  rw [abortCmd, adminRun_due h]
  simp only [Nat.not_le.mpr hfew, ht, if_false]
  obtain hst | hst := hst <;> rw [hst] <;> rfl

end

theorem counter_abortMissed (h : d.postable cs x) (e : Cqe) :
    ((d.abortMissed x).complete cs e).counter aHgAbortCnt 16 = sat 16 (d.counter aHgAbortCnt 16 + 1) := by
  obtain ⟨t, ht, -⟩ := (abortMissed_postsAs h).postable h
  rw [Dev.counter, complete_cnt ht]
  exact Dev.counter_count d aHgAbortCnt 16 16 1

/-! ### Asynchronous Event Request -/

/-- The device that holds an Asynchronous Event Request. -/
def Dev.holdAer (d : Dev) (cs : Nat) (f : Fn) : Dev :=
  (d.modSlot cs (fun s => { s with st := .executing, wait := .event })).modFn f (fun t => { t with aers := t.aers ++ [cs] })

theorem asyncEventRequest_due (h : d.adminDue cs 0x0C x) (hfew : (d.fnst x.fn).aers.length < 16) :
    asyncEventRequest cs d = (d.holdAer cs x.fn).pumpAer x.fn := by
  rw [asyncEventRequest, adminRun_due h]
  simp only [Nat.not_le.mpr hfew, if_false]
  rfl

theorem fnst_holdAer (f : Fn) : (d.holdAer cs f).fnst f = { d.fnst f with aers := (d.fnst f).aers ++ [cs] } :=
  Dev.fnst_modFn _ f _

theorem pumpAer_noEvent {f : Fn} (h : (d.fnst f).events = []) : d.pumpAer f = d := by
  simp only [Dev.pumpAer, h]
  cases (d.fnst f).aers <;> rfl

/-- The oldest request takes the oldest event. -/
theorem pumpAer_takes {f : Fn} {c : Nat} {aers : List Nat} {e : AEvent} {events : List AEvent} (ha : (d.fnst f).aers = c :: aers)
    (he : (d.fnst f).events = e :: events) : d.pumpAer f = (d.modFn f (fun s => { s with aers := aers, events := events })).complete c
      (cqeDw0 (BitVec.ofNat 32 (e.typ + 0x100 * e.info + 0x10000 * e.lid))) := by
  simp only [Dev.pumpAer, ha, he]

theorem events_of_setup {s t : FnSt} (h : s.setup = t.setup) : s.events = t.events := by
  have h' := congrArg FnSt.events h
  exact h'

end

/-- Settles O21, from the Aborts that come too late (`abortCmd_noTarget`, `abortCmd_late`), and from the request that is held or takes the
event that waits (`asyncEventRequest_due`, `pumpAer_takes`). -/
theorem abortAndEvents : Obligations.AbortAndEvents := by
  refine fun s cs x => ⟨fun h hfew ht => ?_, fun h hfew c y ht hst => ?_, fun h hfew hev => ?_, fun e l h haer hev => ?_⟩
  · refine ⟨s.onDev (abortCmd cs), rfl, rfl, ?_⟩
    rw [State.onDev_dev, abortCmd_noTarget h hfew ht]
    exact ⟨(abortMissed_postsAs h.2).complete h.2 _, counter_abortMissed h.2 _⟩
  · refine ⟨s.onDev (abortCmd cs), rfl, rfl, ?_⟩
    rw [State.onDev_dev, abortCmd_late h hfew ht hst]
    exact (abortMissed_postsAs h.2).complete h.2 _
  · have hheld : (s.dev.holdAer cs x.fn).fnst x.fn = _ := fnst_holdAer x.fn
    refine ⟨s.onDev (asyncEventRequest cs), rfl, rfl, ?_⟩
    rw [State.onDev_dev, asyncEventRequest_due h hfew, pumpAer_noEvent (by rw [hheld]; exact hev), hheld]
    refine ⟨rfl, ?_, rfl⟩
    exact (Dev.slots_modSlot _ _ _).trans (congrArg _ h.2.1)
  · have hheld : (s.dev.holdAer cs x.fn).fnst x.fn = _ := fnst_holdAer x.fn
    have hposts : s.dev.PostsAs (s.dev.holdAer cs x.fn) cs x :=
      ((Dev.PostsAs.refl h.2).modSlot (fun _ => by rfl)).modFn x.fn (fun _ => by exact ⟨rfl, rfl, rfl⟩)
    have haers : ((s.dev.holdAer cs x.fn).fnst x.fn).aers = [cs] := by rw [hheld, haer]; rfl
    have hevents : ((s.dev.holdAer cs x.fn).fnst x.fn).events = e :: l := by rw [hheld]; exact hev
    refine ⟨s.onDev (asyncEventRequest cs), rfl, rfl, ?_⟩
    rw [State.onDev_dev, asyncEventRequest_due h (by rw [haer]; decide), pumpAer_takes haers hevents]
    refine ⟨?_, (hposts.modFn x.fn (fun _ => by exact ⟨rfl, rfl, rfl⟩)).complete h.2 _⟩
    rw [events_of_setup (setup_complete _ cs _ x.fn), Dev.fnst_modFn]

end Sys2Proof.Machine
end

section
/-! PROOFS. O26: namespaces that are created, attached, detached and deleted (R145, R154, R157, R443). -/

namespace Sys2Proof.Machine

variable (d : Dev)

/-! ### What leaves the keys: the warm floor, and the I/O that ends -/

theorem keyWork_of_cond {a b : Dev} (h : a.butCond = b.butCond) : a.keyWork = b.keyWork := by
  have h' := congrArg Dev.keyWork h
  exact h'

theorem keyWork_of_drop {a b : Dev} (h : a.butDrop = b.butDrop) : a.keyWork = b.keyWork := by
  have h' := congrArg Dev.keyWork h
  exact h'

@[simp] theorem keyWork_setCond (i : Nat) (v : Bool) : (d.setCond i v).keyWork = d.keyWork := keyWork_of_cond (butCond_setCond d i v)
@[simp] theorem keyWork_setCsr (a : Nat) (w : W32) : (d.setCsr a w).keyWork = d.keyWork := rfl
@[simp] theorem keyWork_dropWork (cs : Nat) : (d.dropWork cs).keyWork = d.keyWork := keyWork_of_drop (butDrop_dropWork d cs)

@[simp] theorem keyWork_demand (k : Nat) : (d.demand k).keyWork = d.keyWork := by
  have hon : (d.powerOn k).keyWork = d.keyWork := keyWork_of_cond (butCond_of_mode (butMode_powerOn d k))
  simp only [Dev.demand]
  (repeat' split) <;> simp only [hon]

@[simp] theorem keyWork_holdFloor : d.holdFloor.keyWork = d.keyWork := by
  simp only [Dev.holdFloor]
  split
  · exact foldl_keeps Dev.keyWork _ keyWork_demand _ d
  · rfl

@[simp] theorem keyWork_warmUpdate : d.warmUpdate.keyWork = d.keyWork := by
  simp only [Dev.warmUpdate]
  split
  · rw [keyWork_holdFloor]
    split <;> simp
  · simp

@[simp] theorem keyWork_repartZones : d.repartZones.keyWork = d.keyWork := keyWork_colRepart d _ _

@[simp] theorem keyWork_endNsIo (ns : Nat) (l : List Nat) : (d.endNsIo ns l).keyWork = d.keyWork :=
  foldl_keeps Dev.keyWork _ (fun x c => by simp) _ d

/-! ### Create (R154, R157) -/

/-- A namespace takes its index, and a new ring image is started with it (R154, R435). -/
def Dev.placeNs (d : Dev) (cs i : Nat) (n : Nsp) : Dev :=
  ({ d with tc := { d.tc with nss := d.tc.nss.ins i n } } : Dev).newImage.ringSettle.warmUpdate.modSlot cs
    (fun s => { s with wait := .range, want := i + 1 })

/-- A create is completed, or waits for the tiles that its zones need. -/
def Dev.addNs (d : Dev) (cs i : Nat) (n : Nsp) : Dev :=
  let d := d.placeNs cs i n
  if n.kind = 2 ∧ d.zoneTiles ≠ d.col.tz then d.repartZones else d.complete cs (cqeDw0 (BitVec.ofNat 32 (i + 1)))

section
variable {d : Dev} (hw : d.ring.waits = none) (cs i : Nat) (n : Nsp)
include hw

theorem placeNs_keyWork : (d.placeNs cs i n).keyWork = (d.tc.nss.ins i n, d.san, d.ring.waits) := by
  have hidle : ∀ x : Dev, x.ring.waits = none → x.newImage.ringSettle.keyWork = x.keyWork := fun x hx =>
    (ringSettle_idle ((san_of_keyWork (keyWork_newImage x)).2.trans hx)).trans (keyWork_newImage x)
  rw [Dev.placeNs, keyWork_modSlot, keyWork_warmUpdate, hidle _ (by exact hw)]
  rfl

theorem addNs_nss : (d.addNs cs i n).tc.nss = d.tc.nss.ins i n := by
  have hkeys : (d.addNs cs i n).keyWork = (d.placeNs cs i n).keyWork := by
    simp only [Dev.addNs]
    split <;> simp
  exact congrArg Prod.fst (hkeys.trans (placeNs_keyWork hw cs i n))

end

/-- Starting a command of the sequencer leaves what a create is judged by. -/
theorem seqStart_createSpec (cs : Nat) : (d.seqStart cs).createSpec = d.createSpec := by
  have hhome : (d.seqStart cs).homeQuire = d.homeQuire := rfl
  funext csi b
  simp only [Dev.createSpec, hhome]
  rfl

theorem seqStart_admits (cs : Nat) : (d.seqStart cs).admits = d.admits := rfl
theorem seqStart_freeNs (cs : Nat) : (d.seqStart cs).freeNs = d.freeNs := rfl
theorem withData_ok (cs : Nat) (b : List Byte) (f : List Byte → Dev) : d.withData cs (.ok b) f = f b := rfl

section
variable {d : Dev} {cs : Nat} {x : CSlot} {b : List Byte} (h : d.seqDue cs 0x0D x) (hsel : bitsOf (x.dw 10) 3 0 = 0)
include h hsel

theorem namespaceCreate_adds {n : Nsp} {i : Nat} (hspec : d.createSpec (bitsOf (x.dw 11) 31 24) b = .inl n)
    (hok : d.admits n = none) (hfree : d.freeNs = some i) : namespaceCreate cs (.ok b) d = (d.seqStart cs).addNs cs i n := by
  -- `admits` stays opaque: taking the match on it apart would otherwise have the kernel compute R157's sums.
  obtain ⟨admits, hadmits⟩ : ∃ a, d.admits = a := ⟨_, rfl⟩
  rw [hadmits] at hok
  rw [namespaceCreate, h.1]
  refine (if_neg (by rw [hsel]; decide)).trans ?_
  rw [seqRun_due h]
  refine (if_neg (not_not_intro hsel)).trans ?_
  rw [withData_ok, seqStart_createSpec, hspec, seqStart_admits, hadmits, seqStart_freeNs, hfree]
  simp only [hok]
  rfl

theorem namespaceCreate_refuses {e : Cqe} (hspec : d.createSpec (bitsOf (x.dw 11) 31 24) b = .inr e) :
    namespaceCreate cs (.ok b) d = (d.seqStart cs).complete cs e := by
  rw [namespaceCreate, h.1]
  refine (if_neg (by rw [hsel]; decide)).trans ?_
  rw [seqRun_due h]
  refine (if_neg (not_not_intro hsel)).trans ?_
  rw [withData_ok, seqStart_createSpec, hspec]

end

/-! ### Attachment (R145) -/

/-- A namespace with its list of controllers changed. -/
def Nsp.boundTo (n : Nsp) (att : List Nat) : Nsp := { n with attached := att }

theorem rebind_keyWork (ns : Nat) (n : Nsp) (att : List Nat) :
    (d.rebind ns n att).keyWork = (d.tc.nss.upd ns (·.boundTo att), d.san, d.ring.waits) := by
  have hmod : ∀ x : Dev, (x.modNsp ns (fun y => { y with attached := att })).keyWork = (x.keyWork.1.upd ns (·.boundTo att), x.keyWork.2) :=
    fun _ => rfl
  simp only [Dev.rebind, keyWork_warmUpdate, keyWork_nsChanged, keyWork_classify, hmod, keyWork_endNsIo]
  rfl

theorem rebind_nsp {d : Dev} {ns : Nat} {n : Nsp} (h : d.nsp ns = some n) (att : List Nat) (cs : Nat) (e : Cqe) :
    ((d.rebind ns n att).complete cs e).nsp ns = some (n.boundTo att)
      ∧ ∀ j, j ≠ ns → ((d.rebind ns n att).complete cs e).nsp j = d.nsp j := by
  have hnss : ((d.rebind ns n att).complete cs e).tc.nss = d.tc.nss.upd ns (·.boundTo att) :=
    congrArg Prod.fst ((keyWork_complete _ cs e).trans (rebind_keyWork d ns n att))
  refine ⟨?_, fun j hj => ?_⟩
  · rw [Dev.nsp, hnss, Tbl.get?_upd_same, ← Dev.nsp, h, Option.map_some]
  · rw [Dev.nsp, hnss, Tbl.get?_upd_ne _ _ hj, ← Dev.nsp]

section
variable {d : Dev} {cs : Nat} {x : CSlot} {b : List Byte} {ns : Nat} {n : Nsp} {l : List Nat} (h : d.seqDue cs 0x15 x)
  (hns : d.nspId x.nsid = some (ns, n)) (hdel : n.deleting = false) (hl : listedCtls b = some l)
include h hns hdel hl

theorem attachment_due {sel : Nat} (hsel : bitsOf (x.dw 10) 3 0 = sel) (hle : sel ≤ 1) (f : Dev → Nat → Nsp → List Nat → Dev) :
    d.attachment cs sel (.ok b) f = f (d.seqStart cs) ns n l := by
  have hns' : (d.seqStart cs).nspId x.nsid = some (ns, n) := hns
  simp only [Dev.attachment, h.1, hsel, hns, hdel, seqRun_due h, withData_ok, hns', hl, Nat.not_lt.mpr hle, decide_true, Bool.true_or,
    Bool.not_true, Bool.false_eq_true, if_false]

theorem namespaceAttach_attaches (hsel : bitsOf (x.dw 10) 3 0 = 0)
    (hone : n.tenants.all (fun t => decide (t = ((l.head?.bind fnOfCntlid).map Fn.tenant).getD 512)) = true)
    (hnew : l.all (fun c => !(n.attached.contains c)) = true)
    (hok : (d.modNsp ns (fun y => { y with attached := n.attached ++ l })).contractRefusal
      (((l.head?.bind fnOfCntlid).map Fn.tenant).getD 512) = none) :
    namespaceAttach cs (.ok b) d = ((d.seqStart cs).rebind ns n (n.attached ++ l)).complete cs cqeOk := by
  have hone' : n.tenants.any (fun t => decide (t ≠ ((l.head?.bind fnOfCntlid).map Fn.tenant).getD 512)) = false := by
    simpa using hone
  have hnew' : l.any (fun c => n.attached.contains c) = false := by simpa using hnew
  have hok' : ((d.seqStart cs).modNsp ns (fun y => { y with attached := n.attached ++ l })).contractRefusal
      (((l.head?.bind fnOfCntlid).map Fn.tenant).getD 512) = none := hok
  simp only [namespaceAttach, attachment_due h hns hdel hl hsel (Nat.zero_le 1), hone', hnew', hok', Bool.false_eq_true, if_false]

theorem namespaceDetach_detaches (hsel : bitsOf (x.dw 10) 3 0 = 1) (hold : l.all (fun c => n.attached.contains c) = true) :
    namespaceDetach cs (.ok b) d = ((d.seqStart cs).rebind ns n (n.attached.filter (fun c => !(l.contains c)))).complete cs cqeOk := by
  have hold' : l.any (fun c => !(n.attached.contains c)) = false := by simpa using hold
  simp only [namespaceDetach, attachment_due h hns hdel hl hsel (Nat.le_refl 1), hold', Bool.false_eq_true, if_false]

end

/-! ### Delete (R443) -/

/-- What a delete leaves of a namespace until the older key rings are erased: no controller, and new keys. -/
def Nsp.erased (n m : Nsp) : Prop := m.attached = [] ∧ m.deleting = true ∧ m.keyGen = (n.keyGen + 1) % 2 ^ 32

/-- One namespace is detached, marked and given new keys. -/
def Dev.eraseNs (d : Dev) (ns : Nat) : Dev :=
  (d.nsp ns).elim d (fun n => ((d.rebind ns n []).modNsp ns (fun x => { x with deleting := true })).keyChange ns)

theorem eraseNs_nss {d : Dev} {ns : Nat} {n : Nsp} (h : d.nsp ns = some n) : ∃ seq, (d.eraseNs ns).tc.nss
    = ((d.tc.nss.upd ns (·.boundTo [])).upd ns (fun x => { x with deleting := true })).upd ns
        ({ n with attached := [], deleting := true }.rekeyed seq) := by
  generalize hy : (d.rebind ns n []).modNsp ns (fun x => { x with deleting := true }) = y
  have hynss : y.tc.nss = (d.tc.nss.upd ns (·.boundTo [])).upd ns (fun x => { x with deleting := true }) := by
    rw [← hy]
    exact congrArg (fun k => Tbl.upd k.1 ns (fun x => { x with deleting := true })) (rebind_keyWork d ns n [])
  have hynsp : y.nsp ns = some { n with attached := [], deleting := true } := by
    rw [Dev.nsp, hynss, Tbl.get?_upd_same, Tbl.get?_upd_same, ← Dev.nsp, h]
    rfl
  refine ⟨y.tc.openSeq + 1, ?_⟩
  rw [Dev.eraseNs, h, Option.elim_some, hy, ← hynss]
  exact congrArg Prod.fst (keyChange_keyWork hynsp)

theorem eraseNs_nsp {d : Dev} {ns : Nat} {n : Nsp} (h : d.nsp ns = some n) : ∃ m, (d.eraseNs ns).nsp ns = some m ∧ n.erased m := by
  obtain ⟨seq, hnss⟩ := eraseNs_nss h
  rw [Dev.nsp, hnss, Tbl.get?_upd_same, Tbl.get?_upd_same, Tbl.get?_upd_same, ← Dev.nsp, h]
  exact ⟨_, rfl, rfl, rfl, rfl⟩

theorem eraseNs_nsp_ne {ns j : Nat} (hj : j ≠ ns) : (d.eraseNs ns).nsp j = d.nsp j := by
  cases h : d.nsp ns with
  | none => rw [Dev.eraseNs, h, Option.elim_none]
  | some n =>
    obtain ⟨seq, hnss⟩ := eraseNs_nss h
    rw [Dev.nsp, hnss, Tbl.get?_upd_ne _ _ hj, Tbl.get?_upd_ne _ _ hj, Tbl.get?_upd_ne _ _ hj, ← Dev.nsp]

theorem eraseNs_wf (ns : Nat) (hwf : d.tc.nss.wf = true) : (d.eraseNs ns).tc.nss.wf = true := by
  cases h : d.nsp ns with
  | none => rwa [Dev.eraseNs, h, Option.elim_none]
  | some n =>
    obtain ⟨seq, hnss⟩ := eraseNs_nss h
    rw [hnss]
    exact Tbl.wf_upd _ _ _ (Tbl.wf_upd _ _ _ (Tbl.wf_upd _ _ _ hwf))

theorem eraseAll_wf (l : List Nat) (hwf : d.tc.nss.wf = true) : (l.foldl Dev.eraseNs d).tc.nss.wf = true := by
  induction l generalizing d with
  | nil => exact hwf
  | cons k l ih => exact ih (d.eraseNs k) (eraseNs_wf d k hwf)

theorem eraseAll_nsp_ne {l : List Nat} {j : Nat} (hj : j ∉ l) : (l.foldl Dev.eraseNs d).nsp j = d.nsp j := by
  induction l generalizing d with
  | nil => rfl
  | cons k l ih =>
    obtain ⟨hk, hl⟩ := not_or.mp (mt List.mem_cons.mpr hj)
    exact (ih (d.eraseNs k) hl).trans (eraseNs_nsp_ne d hk)

/-- Each namespace of a list without repetitions is erased once. -/
theorem eraseAll_nsp {d : Dev} {l : List Nat} (hl : l.Nodup) {ns : Nat} {n : Nsp} (hns : ns ∈ l) (h : d.nsp ns = some n) :
    ∃ m, (l.foldl Dev.eraseNs d).nsp ns = some m ∧ n.erased m := by
  induction l generalizing d with
  | nil => cases hns
  | cons k l ih =>
    obtain ⟨hk, hnd⟩ := List.nodup_cons.mp hl
    rw [List.foldl_cons]
    by_cases hj : ns = k
    · subst hj
      rw [eraseAll_nsp_ne _ hk]
      exact eraseNs_nsp h
    · exact ih hnd ((List.mem_cons.mp hns).resolve_left hj) ((eraseNs_nsp_ne d hj).trans h)

/-- The key change of a delete ends once the older images are erased (R443 step 6). -/
theorem ringWaits_delete {d : Dev} {cs : Nat} (h : d.ring.waits = some (.delete cs)) :
    d.ringWaits.tc.nss = d.tc.nss ∨ d.ringWaits.tc.nss = keptNss d.tc.nss := by
  have hdone : ∀ x : Dev, x.keysDone.tc.nss = keptNss x.tc.nss := fun x => congrArg Prod.fst (keyWork_repartZones _)
  simp only [Dev.ringWaits, h]
  split
  · exact .inl rfl
  · rw [complete_tc]
    exact .inr (hdone _)

/-- A namespace that is deleted goes with the end of its key change. -/
theorem get?_keptNss_deleting {t : Tbl Nsp} (hwf : t.wf = true) {ns : Nat} {m : Nsp} (h : t.get? ns = some m) (hm : m.deleting = true) :
    (keptNss t).get? ns = none := by
  refine Option.eq_none_iff_forall_ne_some.mpr fun y hy => ?_
  obtain ⟨⟨k, z⟩, hz, heq⟩ := List.mem_map.mp (Tbl.mem_of_get? hy)
  obtain ⟨hmem, hkeep⟩ := List.mem_filter.mp hz
  obtain rfl : k = ns := congrArg Prod.fst heq
  obtain rfl : m = z := Option.some.inj (h.symm.trans (Tbl.get?_of_mem hwf hmem))
  simp [hm] at hkeep

/-- With the image that a delete waits for, the table is as it was, or the key change has ended. -/
theorem imageFor_delete_nss (cs : Nat) :
    (d.imageFor (.delete cs)).tc.nss = d.tc.nss ∨ (d.imageFor (.delete cs)).tc.nss = keptNss d.tc.nss := by
  obtain ⟨z, hz, hend⟩ := imageFor_cases d (.delete cs)
  have hnss : z.tc.nss = d.tc.nss := congrArg Prod.fst hz
  obtain hend | hend := hend
  · exact .inl (hend ▸ hnss)
  · rw [hend, ← hnss]
    exact ringWaits_delete (congrArg (fun k => k.2.2) hz)

/-- A command that names a namespace is about a list of namespaces that holds it once. -/
theorem named_mem {d : Dev} {nsid ns : Nat} {n : Nsp} (hns : d.nspId nsid = some (ns, n)) (hwf : d.tc.nss.wf = true) :
    ∃ l, d.named nsid = some l ∧ l.Nodup ∧ ns ∈ l := by
  simp only [Dev.named]
  split
  · exact ⟨_, rfl, Tbl.nodup_keys hwf, List.mem_map.mpr ⟨(ns, n), Tbl.mem_of_get? (nspId_eq_some hns), rfl⟩⟩
  · exact ⟨[ns], by rw [hns]; rfl, List.nodup_singleton ns, List.mem_singleton_self ns⟩

theorem namespaceDelete_due {d : Dev} {cs : Nat} {x : CSlot} (h : d.seqDue cs 0x0D x) (hsel : bitsOf (x.dw 10) 3 0 = 1)
    {l : List Nat} (hl : d.named x.nsid = some l) :
    namespaceDelete cs d = ((l.foldl Dev.eraseNs (d.seqStart cs)).imageFor (.delete cs)).warmUpdate := by
  have hl' : (d.seqStart cs).named x.nsid = some l := hl
  simp only [namespaceDelete, h.1, hsel, seqRun_due h, hl', ne_eq, not_true_eq_false, if_false]
  refine congrArg (fun y : Dev => (y.imageFor (.delete cs)).warmUpdate) (List.foldl_ext _ _ _ fun y k _ => ?_)
  rw [Dev.eraseNs]
  cases y.nsp k <;> rfl

/-- A deleted namespace is gone, or erased and waiting for the end of its key change. -/
theorem namespaceDelete_nsp {d : Dev} {cs : Nat} {x : CSlot} {ns : Nat} {n : Nsp} (h : d.seqDue cs 0x0D x)
    (hsel : bitsOf (x.dw 10) 3 0 = 1) (hns : d.nspId x.nsid = some (ns, n)) (hwf : d.tc.nss.wf = true) :
    (namespaceDelete cs d).nsp ns = none ∨ ∃ m, (namespaceDelete cs d).nsp ns = some m ∧ n.erased m := by
  obtain ⟨l, hl, hnd, hmem⟩ := named_mem hns hwf
  obtain ⟨m, hm, hatt, hdeleting, hkey⟩ := eraseAll_nsp (d := d.seqStart cs) hnd hmem (nspId_eq_some hns)
  have hwf' : (l.foldl Dev.eraseNs (d.seqStart cs)).tc.nss.wf = true := eraseAll_wf (d.seqStart cs) l hwf
  rw [namespaceDelete_due h hsel hl, nsp_of_keyWork (keyWork_warmUpdate _)]
  obtain hnss | hnss := imageFor_delete_nss (l.foldl Dev.eraseNs (d.seqStart cs)) cs
  · exact .inr ⟨m, by rw [Dev.nsp, hnss]; exact hm, hatt, hdeleting, hkey⟩
  · exact .inl (by rw [Dev.nsp, hnss]; exact get?_keptNss_deleting hwf' hm hdeleting)

/-- Settles O26, from the index that a create fills (`addNs_nss`), the list of controllers that an attachment or a detachment leaves
(`rebind_nsp`), and the namespace that a delete erases (`namespaceDelete_nsp`). -/
theorem namespacesComeAndGo : Obligations.NamespacesComeAndGo := by
  refine fun s cs x b => ⟨fun n i h hsel hw hspec hok hfree => ?_, fun e h hsel hspec => ?_,
    fun ns n l h hsel hns hdel hl hone hnew hok => ?_, fun ns n l h hsel hns hdel hl hold => ?_, fun ns n h hsel hns hwf => ?_⟩
  · have hnss : ((s.dev.seqStart cs).addNs cs i n).tc.nss = s.dev.tc.nss.ins i n :=
      addNs_nss (d := s.dev.seqStart cs) hw cs i n
    refine ⟨s.onDev (namespaceCreate cs (.ok b)), rfl, rfl, ?_⟩
    rw [State.onDev_dev, namespaceCreate_adds h hsel hspec hok hfree]
    exact ⟨by rw [Dev.nsp, hnss, Tbl.get?_ins_same], fun j hj => by rw [Dev.nsp, hnss, Tbl.get?_ins_ne _ _ hj, ← Dev.nsp]⟩
  · have hpost : s.dev.postable cs x := h.2.2
    refine ⟨s.onDev (namespaceCreate cs (.ok b)), rfl, rfl, ?_⟩
    rw [State.onDev_dev, namespaceCreate_refuses h hsel hspec]
    exact ⟨(seqStart_postsAs hpost).complete hpost e, complete_tc _ cs e⟩
  · refine ⟨s.onDev (namespaceAttach cs (.ok b)), rfl, rfl, ?_⟩
    rw [State.onDev_dev, namespaceAttach_attaches h hns hdel hl hsel hone hnew hok]
    exact rebind_nsp (d := s.dev.seqStart cs) (nspId_eq_some hns) _ cs _
  · refine ⟨s.onDev (namespaceDetach cs (.ok b)), rfl, rfl, ?_⟩
    rw [State.onDev_dev, namespaceDetach_detaches h hns hdel hl hsel hold]
    exact rebind_nsp (d := s.dev.seqStart cs) (nspId_eq_some hns) _ cs _
  · exact ⟨s.onDev (namespaceDelete cs), rfl, rfl, namespaceDelete_nsp h hsel hns hwf⟩

end Sys2Proof.Machine
end

section
/-! PROOFS. O39: folds, collection, the erase gate, checkpoint segments, the Furrow window and the weirs (R174, R176, R178, R179,
R188). -/

namespace Sys2Proof.Machine

variable (d : Dev)

/-! ### The QLC superblock that a Furrow fills (R174) -/

/-- Opening a superblock changes the open sequence and the superblocks alone. -/
theorem openSb_eq (q : Nat) (slc : Bool) (f : Nat) : ∃ n l, (d.openSb q slc f).1 = { d with tc := { d.tc with openSeq := n, sbs := l } } := by
  simp only [Dev.openSb]
  (repeat' split) <;> exact ⟨_, _, rfl⟩

/-- A Furrow may get a QLC superblock to fill; the rest of it stays, and so do the Quires and the Headgate. -/
theorem needQlc_keeps (q f : Nat) : (d.needQlc q f).quires = d.quires ∧ (d.needQlc q f).hg = d.hg
    ∧ ∃ s r, (d.needQlc q f).furrow f = { d.furrow f with qlcSb := s, qlcRow := r } := by
  obtain ⟨n, l, hopen⟩ := openSb_eq d q false f
  simp only [Dev.needQlc]
  split
  · exact ⟨rfl, rfl, _, _, rfl⟩
  · rw [hopen]
    split
    next sb _ => exact ⟨rfl, rfl, some sb, 1, Dev.furrow_modFurrow _ f _⟩
    · exact ⟨rfl, rfl, _, _, rfl⟩

theorem quire_modQuire {q : Nat} {x : Quire} (h : d.quire q = some x) (u : Quire → Quire) : (d.modQuire q u).quire q = some (u x) := by
  rw [Dev.quire, Dev.modQuire, Tbl.get?_upd_same, ← Dev.quire, h, Option.map_some]

section
variable {d : Dev} {q : Nat} {x : Quire} (h : d.quire q = some x)
include h

/-! ### Folds (R174) -/

theorem foldStart_due {f : Nat} (hm : servingMode d.modes.mode = true) (hheld : x.foldHeld = false) (hdue : d.foldDue q x = true)
    (hnone : x.folding = none) (hpick : d.foldPick q = some f) :
    foldStart q d = (d.modQuire q (fun x => { x with folding := some f })).needQlc q f := by
  simp [foldStart, h, hm, hheld, hdue, hnone, hpick]

theorem foldStart_idle (hidle : servingMode d.modes.mode = false ∨ x.foldHeld = true ∨ d.foldDue q x = false) : foldStart q d = d := by
  obtain hm | hheld | hdue := hidle
  · simp [foldStart, h, hm]
  · simp [foldStart, h, hheld]
  · simp [foldStart, h, hdue]

/-! ### Collection (R178) -/

/-- The internal Furrow of a Quire is open for collection. -/
theorem gcFurrow_opens : (d.gcFurrow q).quire q = some x ∧ (d.gcFurrow q).hg = d.hg
    ∧ ((d.gcFurrow q).furrow q).st = .open ∧ ((d.gcFurrow q).furrow q).kind = 8 := by
  obtain ⟨hquires, hhg, sb, row, hfur⟩ := needQlc_keeps (d.modFurrow q (fun x => { x with st := .open, kind := 8, quire := q })) q q
  rw [Dev.furrow_modFurrow] at hfur
  refine ⟨?_, hhg, ?_, ?_⟩
  · rw [Dev.quire, Dev.gcFurrow, hquires]
    exact h
  · rw [Dev.gcFurrow, hfur]
  · rw [Dev.gcFurrow, hfur]

/-- Collection of a victim opens that Furrow; data that leaves a reclaim unit adds an event of the placement log at most (R166). -/
theorem gcStart_opens {v : Nat} (hm : servingMode d.modes.mode = true) (hlow : d.qlcBelow q (d.reg aTcGcWeir 7 0) x = true)
    (hnone : x.victim = none) (hv : d.victimOf q = some v) : (gcStart q d).quire q = some { x with victim := some v }
      ∧ (gcStart q d).hg = d.hg ∧ ((gcStart q d).furrow q).st = .open ∧ ((gcStart q d).furrow q).kind = 8 := by
  have hopens := gcFurrow_opens (quire_modQuire d h (fun x => { x with victim := some v }))
  simp only [gcStart, h, hm, hlow, hnone, hv, Bool.not_true, Bool.or_self, Bool.false_eq_true, if_false]
  split <;> exact hopens

theorem gcStart_idle (hidle : servingMode d.modes.mode = false ∨ d.qlcBelow q (d.reg aTcGcWeir 7 0) x = false) : gcStart q d = d := by
  obtain hm | hlow := hidle
  · simp [gcStart, h, hm]
  · simp [gcStart, h, hlow]

end

/-! ### The erase gate (R179) -/

section
variable {d : Dev} {q k : Nat} (h : (d.sb q k).st = .released)
include h

theorem eraseGateRelease_opens (hopen : d.gateOpen (d.sb q k) = true) :
    eraseGateRelease q k d = d.modSb q k (fun b => { b with st := .erasing, row := 0 }) := by
  simp [eraseGateRelease, h, hopen]

theorem eraseGateRelease_refuses (hshut : d.gateOpen (d.sb q k) = false) :
    eraseGateRelease q k d = (d.count aTcEraseGate 0 16).ev evTcEraseRefused 0 [.num 1 q, .num 4 k] := by
  simp [eraseGateRelease, h, hshut]

end

/-! ### Checkpoints and the weirs (R176, R178) -/

/-- The segment that is due: the first one without a capture, or the one of the oldest capture. -/
def Dev.dueSegment (d : Dev) : Nat :=
  ((List.range d.segCount).find? (fun i => !(d.tc.segs.has i))).getD ((d.oldestCapture.map (·.1)).getD 0)

theorem checkpointSegmentDue_captures {d : Dev} (hm : servingMode d.modes.mode = true) (hbusy : d.tc.segBusy = none) :
    checkpointSegmentDue d = { d with tc := { d.tc with segBusy := some (d.dueSegment, d.tc.head) } } := by
  rw [checkpointSegmentDue, if_neg (by simp [hm, hbusy]), Dev.dueSegment]
  cases (List.range d.segCount).find? (fun i => !(d.tc.segs.has i)) with
  | none => rw [Option.getD_none]
  | some i => rw [Option.getD_some]

/-- With no capture yet the rotation starts at segment 0. -/
theorem dueSegment_first {d : Dev} (h : d.tc.segs = []) : d.dueSegment = 0 := by
  have hhas : ∀ i, d.tc.segs.has i = false := fun i => by rw [h]; rfl
  obtain ⟨n, hn⟩ : ∃ n, d.segCount = n + 1 := Nat.exists_eq_succ_of_ne_zero (Nat.ne_of_gt (Nat.le_max_left 1 _))
  rw [Dev.dueSegment, hn, List.range_succ_eq_map, List.find?_cons, hhas]
  rfl

theorem gcWeirWrite_takes {v : W32} (hlt : bitsOf v.toNat 15 8 < bitsOf v.toNat 7 0) (hu : bitsOf v.toNat 15 8 ≠ 0)
    (hf : bitsOf v.toNat 23 16 ≠ 0) : gcWeirWrite v d = d.setCsr aTcGcWeir (v &&& 0xFFFFFF#32) :=
  if_neg fun hbad => hbad.elim (fun hle => Nat.not_le.mpr hlt hle) (fun hz => hz.elim hu hf)

theorem gcWeirWrite_ignores {v : W32} (hbad : bitsOf v.toNat 7 0 ≤ bitsOf v.toNat 15 8 ∨ bitsOf v.toNat 15 8 = 0
    ∨ bitsOf v.toNat 23 16 = 0) : gcWeirWrite v d = d.ev evTcWeirBad 0 [] := if_pos hbad

/-- Settles O39, from what folds and collection open (`needQlc_keeps`, `gcStart_opens`), the gate's two answers, and the segment that
is due (`checkpointSegmentDue_captures`). -/
theorem foldsCollectionAndErases : Obligations.FoldsCollectionAndErases := by
  refine fun s => ⟨fun q x h => ⟨fun f hm hheld hdue hnone hpick => ?_, fun hidle => next_onDev (foldStart_idle h hidle),
      fun v hm hlow hnone hv => ?_, fun hidle => next_onDev (gcStart_idle h hidle)⟩,
    fun q k h => ⟨fun hopen => next_onDev (eraseGateRelease_opens h hopen), fun hshut => ?_⟩, fun hm hbusy => ?_, rfl,
    fun v => ⟨fun hlt hu hf => next_onDev (gcWeirWrite_takes s.dev hlt hu hf), fun hbad => ?_⟩⟩
  · obtain ⟨hquires, hhg, sb, row, hfur⟩ := needQlc_keeps (s.dev.modQuire q (fun x => { x with folding := some f })) q f
    refine ⟨s.onDev (foldStart q), rfl, rfl, ?_⟩
    rw [State.onDev_dev, foldStart_due h hm hheld hdue hnone hpick, hfur, Dev.quire, hquires]
    exact ⟨quire_modQuire s.dev h _, hhg, rfl⟩
  · exact ⟨s.onDev (gcStart q), rfl, rfl, gcStart_opens h hm hlow hnone hv⟩
  · refine ⟨s.onDev (eraseGateRelease q k), rfl, rfl, ?_⟩
    rw [State.onDev_dev, eraseGateRelease_refuses h hshut]
    refine ⟨butLog_ev _ _ _ _, ?_⟩
    rw [counter_ev _ (by decide) (by decide)]
    exact Dev.counter_count s.dev aTcEraseGate 0 16 1
  · exact ⟨s.onDev checkpointSegmentDue, s.dev.dueSegment, rfl, rfl, checkpointSegmentDue_captures hm hbusy, dueSegment_first⟩
  · refine ⟨s.onDev (gcWeirWrite v), rfl, rfl, ?_⟩
    rw [State.onDev_dev, gcWeirWrite_ignores s.dev hbad, butLog_ev]

end Sys2Proof.Machine
end

section
/-! PROOFS. What the traffic on links and dies leaves alone (R196, R264, R378): operations that are sent, granted, resumed or deferred
change neither the tag failures held against a module nor what a leaf read is for, and a leaf read that is given up is gone alone. -/

namespace Sys2Proof.Machine

variable (d : Dev)

/-! ### What a leaf read is for -/

/-- A leaf read without whether its sense has been issued. -/
def LeafRead.task (r : LeafRead) : LeafRead := { r with issued := false }

/-- The tag failures held against each module (R283), and what each leaf read is for. -/
def Dev.tasks (d : Dev) : (Nat → List Nat) × (Nat → Option LeafRead) :=
  (fun s => (d.link s).tagFailAt, fun n => (d.leafRead n).map LeafRead.task)

/-- A leaf read whose task is known is known but for whether its sense has been issued. -/
theorem leafRead_of_task {d : Dev} {n : Nat} {r : LeafRead} (h : d.tasks.2 n = some r.task) :
    ∃ b, d.leafRead n = some { r with issued := b } := by
  obtain ⟨x, hx, htask⟩ := Option.map_eq_some_iff.mp h
  refine ⟨x.issued, hx.trans (congrArg some ?_)⟩
  exact congrArg (fun y : LeafRead => { y with issued := x.issued }) htask

/-! ### Operations on links and dies -/

@[simp] theorem tasks_emit (o : Out) : (d.emit o).tasks = d.tasks := rfl
@[simp] theorem tasks_modDie (s k : Nat) (f : Die → Die) : (d.modDie s k f).tasks = d.tasks := rfl

theorem tasks_modLink {s : Nat} {f : Link → Link} (h : (f (d.link s)).tagFailAt = (d.link s).tagFailAt) :
    (d.modLink s f).tasks = d.tasks := by
  refine Prod.ext (funext fun j => ?_) rfl
  by_cases hj : j = s
  · subst hj
    exact (congrArg Link.tagFailAt (Dev.link_modLink d j f)).trans h
  · exact congrArg Link.tagFailAt (Dev.link_modLink_ne d f hj)

theorem tagFailAt_sendItems (s : Nat) (q : List TxItem) (b : List Nat) (l : Link) : (sendItems s q b l).2.1.tagFailAt = l.tagFailAt := by
  induction q generalizing b l with
  | nil => rfl
  | cons i q ih =>
    unfold sendItems
    extract_lets n sent o
    have hsent : sent.tagFailAt = l.tagFailAt := by
      dsimp only [sent]
      split <;> rfl
    split <;> exact (ih _ _).trans hsent

@[simp] theorem tasks_linkPump (s : Nat) : (d.linkPump s).tasks = d.tasks := by
  simp only [Dev.linkPump]
  split
  · rw [foldl_keeps Dev.tasks Dev.emit (fun x o => tasks_emit x o)]
    exact tasks_modLink d (tagFailAt_sendItems s _ _ _)
  · rfl

@[simp] theorem tasks_linkQueue (s : Nat) (l : List TxItem) : (d.linkQueue s l).tasks = d.tasks := by
  rw [Dev.linkQueue, tasks_linkPump]
  exact tasks_modLink d rfl

@[simp] theorem tasks_issueOp (o : OpReq) (g t : Option Nat) : (d.issueOp o g t).1.tasks = d.tasks := by
  simp only [Dev.issueOp, tasks_linkQueue]
  exact tasks_modLink d rfl

@[simp] theorem tasks_resumeDie (s k : Nat) : (d.resumeDie s k).tasks = d.tasks := by
  simp only [Dev.resumeDie, Dev.bareOp]
  split <;> simp

/-! ### Grants -/

@[simp] theorem tasks_startBusy (g : Nat) (r : OpReq) : (d.startBusy g r).tasks = d.tasks := by simp [Dev.startBusy]

/-- A sense that is issued is noted in its leaf read. -/
theorem tasks_issued (n : Nat) : (d.modRead n (fun x => { x with issued := true })).tasks = d.tasks := by
  refine Prod.ext rfl (funext fun j => ?_)
  simp only [Dev.tasks, Dev.leafRead, Dev.modRead]
  by_cases hj : j = n
  · rw [hj, Tbl.get?_upd_same, Option.map_map]
    rfl
  · rw [Tbl.get?_upd_ne _ _ hj]

@[simp] theorem tasks_startRead (g : Nat) (r : OpReq) (n : Option Nat) : (d.startRead g r n).tasks = d.tasks := by
  cases n with
  | none => simp [Dev.startRead]
  | some n =>
    simp only [Dev.startRead, tasks_modDie]
    exact (tasks_issued _ n).trans (tasks_issueOp d r (some g) none)

@[simp] theorem tasks_startGrant (g : Nat) (r : OpReq) : (d.startGrant g r).tasks = d.tasks := by
  simp only [Dev.startGrant]
  split
  · rfl
  split
  · split
    · rfl
    · exact tasks_startBusy d g r
  · exact tasks_startRead d g r r.rid

@[simp] theorem tasks_grant (n : Nat) (r : OpReq) (p : FloorPart × Bool) : (d.grant n r p).tasks = d.tasks := tasks_startGrant _ n r

@[simp] theorem tasks_sluPump : d.sluPump.tasks = d.tasks := by
  refine foldl_keeps Dev.tasks _ (fun x k => foldl_keeps Dev.tasks _ (fun y w => ?_) _ x) _ d
  split
  · exact tasks_grant y _ _ _
  · rfl

@[simp] theorem tasks_startDeferred (g : Nat) : (d.startDeferred g).tasks = d.tasks := by
  simp only [Dev.startDeferred]
  split
  · rfl
  split
  · rfl
  · exact tasks_startBusy _ g _

@[simp] theorem tasks_pumpDeferred (s k : Nat) : (d.pumpDeferred s k).tasks = d.tasks := by
  refine foldl_keeps Dev.tasks _ (fun x y => ?_) _ d
  split
  · rfl
  split
  · exact tasks_startDeferred x _
  · rfl

@[simp] theorem tasks_dieNext (s k : Nat) : (d.dieNext s k).tasks = d.tasks := by
  simp only [Dev.dieNext, tasks_sluPump, tasks_pumpDeferred]
  split
  · exact tasks_resumeDie d s k
  · rfl

/-! ### Leaf reads that are given up -/

/-- Giving up a leaf read takes it away, and leaves every other its task (R192, R205). -/
theorem tasks_dropRead (p : Nat) : (d.dropRead p).tasks = (d.tasks.1, fun n => if n = p then none else d.tasks.2 n) := by
  have hdel : Dev.tasks { d with rp := { d.rp with reads := d.rp.reads.del p } }
      = (d.tasks.1, fun n => if n = p then none else d.tasks.2 n) := by
    refine Prod.ext rfl (funext fun n => ?_)
    simp only [Dev.tasks, Dev.leafRead]
    split
    next hn => rw [hn, Tbl.get?_del_same, Option.map_none]
    next hn => rw [Tbl.get?_del_ne _ hn]
  simp only [Dev.dropRead]
  split
  next hnone =>
    refine Prod.ext rfl (funext fun n => ?_)
    by_cases hn : n = p <;> simp [hn, Dev.tasks, hnone]
  next r _ =>
    split
    · exact (tasks_dieNext _ _ _).trans hdel
    · exact hdel

theorem tasks_dropReads (l : List Nat) : (l.foldl Dev.dropRead d).tasks = (d.tasks.1, fun n => if n ∈ l then none else d.tasks.2 n) := by
  induction l generalizing d with
  | nil => simp
  | cons p l ih =>
    rw [List.foldl_cons, ih, tasks_dropRead]
    refine Prod.ext rfl (funext fun n => ?_)
    by_cases hn : n = p <;> simp [hn]

theorem butWork_dropPeerReads (l : List Nat) : (l.foldl Dev.dropRead d).butWork = d.butWork :=
  foldl_keeps Dev.butWork Dev.dropRead butWork_dropRead l d

/-- A leaf read is given up with its peers. -/
theorem leafRead_dropReadAll (n : Nat) : (d.dropReadAll n).leafRead n = none := by
  have hnone := congrFun (congrArg Prod.snd (tasks_dropRead ((((d.leafRead n).map (·.peers)).getD []).foldl Dev.dropRead d) n)) n
  simpa [Dev.tasks, Dev.dropReadAll] using hnone

theorem tagFails_dropReadAll (n : Nat) : (d.dropReadAll n).tasks.1 = d.tasks.1 := by
  rw [Dev.dropReadAll, tasks_dropRead, tasks_dropReads]

end Sys2Proof.Machine
end

section
/-! PROOFS. O38: the decode ladder's first rung, and what a decoded or reconstructed codeword is answered with (R210, R212, R213, R214,
R441). -/

namespace Sys2Proof.Machine

variable (d : Dev)

/-! ### The last unit of a Read (R192) -/

/-- A read's counters are the tenant's, or wait in the window of its Quire (R127, R209). -/
theorem readStats_eq (s : CSlot) : ∃ st q, d.readStats s = { d with hg := { d.hg with stats := st }, quires := q } := by
  simp only [Dev.readStats]
  (repeat' split) <;> exact ⟨_, _, rfl⟩

/-- The command in a slot once a unit of its Read has gone to the host. -/
def CSlot.unitSent (y : CSlot) (iu : Nat) : CSlot :=
  { y with
    st := if y.st = .executing then .committed else y.st
    units := y.units.map (fun u => if u.iu = iu then { u with src := 4 } else u) }

section
variable {d : Dev} {cs iu : Nat} {y : CSlot} (h : d.postable cs y) (hop : y.opcode = 2)
  (hrest : y.units.all (fun u => decide (u.iu = iu) || decide (u.src = 4)) = true)
  (hnew : y.units.all (fun u => decide (u.newer = [])) = true) (data : UnitData)
include h hop hrest hnew

/-- The last unit of a Read that the write buffer holds nothing newer of is sent as it was read, and ends the command. -/
theorem unitServed_last_eq : d.unitServed cs iu (some data) =
    (((d.emit (.readData y.fn cs iu (some data))).modSlot cs (fun _ => y.unitSent iu)).readStats (y.unitSent iu)).complete cs cqeOk := by
  obtain ⟨hslot, hcqe, hdis, hbme, -⟩ := h
  have hov : ((y.units.find? (fun u => decide (u.iu = iu))).map (·.newer)).getD [] = [] := by
    cases hf : y.units.find? (fun u => decide (u.iu = iu)) with
    | none => rfl
    | some u => exact of_decide_eq_true (List.all_eq_true.mp hnew u (List.mem_of_find?_eq_some hf))
  have hall : (y.unitSent iu).units.all (fun u => decide (u.src = 4)) = true := by
    refine List.all_eq_true.mpr fun v hv => ?_
    obtain ⟨u, hu, rfl⟩ := List.mem_map.mp hv
    have hu4 := List.all_eq_true.mp hrest u hu
    split
    · rfl
    next hne => simpa [hne] using hu4
  simp only [CSlot.unitSent] at hall ⊢
  simp only [Dev.unitServed, hslot, hcqe, hop, hdis, hbme, hov, hall, Option.isSome_none, decide_true, Bool.not_false, Bool.not_true,
    Bool.and_false, Bool.and_true, Bool.true_and, Bool.false_eq_true, if_false, if_true, Option.map_some, decide_eq_true_eq]
  rfl

/-- R192: with the last unit of a Read its data leave and its slot is free; the read path and the links see nothing of it. -/
theorem unitServed_last : (d.unitServed cs iu (some data)).hg.slots.get? cs = none
    ∧ Out.readData y.fn cs iu (some data) ∈ (d.unitServed cs iu (some data)).out ∧ (d.unitServed cs iu (some data)).cnt = d.cnt
    ∧ (d.unitServed cs iu (some data)).rp = d.rp ∧ (d.unitServed cs iu (some data)).gl = d.gl := by
  rw [unitServed_last_eq h hop hrest hnew data]
  obtain ⟨st, q, hstats⟩ := readStats_eq ((d.emit (.readData y.fn cs iu (some data))).modSlot cs (fun _ => y.unitSent iu)) (y.unitSent iu)
  rw [hstats]
  generalize hx : ({ Dev.modSlot _ _ _ with hg := _, quires := _ } : Dev) = x
  have hslot : x.hg.slots.get? cs = some (y.unitSent iu) := by
    rw [← hx]
    change Tbl.get? (Dev.modSlot _ cs _).hg.slots cs = _
    rw [Dev.slots_modSlot, Dev.emit_hg, h.1, Option.map_some]
  have hpost : x.postable cs (y.unitSent iu) := Dev.postable_of_request h (by rw [← hx]; rfl) hslot rfl
  have hbut := butHost_complete x cs cqeOk
  obtain ⟨hfree, qid, sqhd, l, hout, hold⟩ := complete_posted hpost cqeOk
  refine ⟨hfree, ?_, ?_, ?_, ?_⟩
  · have hsent : Out.readData y.fn cs iu (some data) ∈ x.out := by
      rw [← hx]
      exact List.mem_cons_self
    exact hout.subset (List.mem_cons_of_mem _ (hold.subset hsent))
  · rw [complete_cnt hpost, ← hx]
    rfl
  · have hrp := congrArg Dev.rp hbut
    exact hrp.trans (by rw [← hx]; rfl)
  · have hgl := congrArg Dev.gl hbut
    exact hgl.trans (by rw [← hx]; rfl)

end

/-! ### A codeword that is resolved -/

/-- The leaf read that the peers of a codeword served outlives them, unless it stands among those peers itself. -/
theorem dropPeers_task {d : Dev} {rid cw : Nat} {r : LeafRead} (h : d.leafRead rid = some r) (hself : rid ∈ r.peers → r.cwList ≠ [cw]) :
    ∃ b ps, (d.dropPeers rid (some cw)).leafRead rid = some { r with issued := b, peers := ps } := by
  simp only [Dev.dropPeers, h]
  generalize hgone : List.filter _ r.peers = gone
  have hkept : rid ∉ gone := fun hmem => by
    rw [← hgone, List.mem_filter, h] at hmem
    exact hself hmem.1 (of_decide_eq_true hmem.2)
  have htask : (gone.foldl Dev.dropRead d).tasks.2 rid = some r.task := by
    rw [tasks_dropReads]
    simp [hkept, Dev.tasks, h]
  obtain ⟨b, hb⟩ := leafRead_of_task htask
  refine ⟨b, r.peers.filter (fun p => !(gone.contains p)), ?_⟩
  simp only [Dev.leafRead, Dev.modRead, Tbl.get?_upd_same] at hb ⊢
  rw [hb]
  rfl

theorem dropPeers_keeps (rid : Nat) (cw : Option Nat) :
    (d.dropPeers rid cw).butWork = d.butWork ∧ (d.dropPeers rid cw).tasks.1 = d.tasks.1 := by
  simp only [Dev.dropPeers]
  split
  · exact ⟨rfl, rfl⟩
  · have hfails : ∀ l : List Nat, (l.foldl Dev.dropRead d).tasks.1 = d.tasks.1 := fun l => by rw [tasks_dropReads]
    exact ⟨butWork_dropPeerReads d _, hfails _⟩

section
variable {d : Dev} {rid cw cs iu : Nat} {r : LeafRead} {c : CwSt} {f : Frame} {y : CSlot} {n : Nsp}
  (h : d.leafRead rid = some r) (hcws : r.cws = [(cw, c)]) (hcs : r.cs = some cs) (hunits : r.units = [(iu, cw)])
  (hself : rid ∈ r.peers → r.cwList ≠ [cw])
include h hcws hcs hunits hself

/-- R192, R214: once a leaf read's only codeword is resolved, the read is over and its unit is opened for the command. -/
theorem serveCw_last_eq (hslot : d.hg.slots.get? cs = some y) (hn : d.nsp r.ns = some n)
    (hpi : y.piStatus n iu (leBytes 4096 (d.openUnit f r.ns iu n.keyGen).1.toNat)
      (leBytes 64 (d.openUnit f r.ns iu n.keyGen).2.toNat) = none) :
    ∃ e : Dev, d.serveCw rid cw f = e.unitServed cs iu (some (d.openUnit f r.ns iu n.keyGen).1)
      ∧ e.butWork = d.butWork ∧ e.tasks.1 = d.tasks.1 ∧ e.leafRead rid = none := by
  obtain ⟨b, ps, hread⟩ := dropPeers_task h hself
  obtain ⟨hwork, hfails⟩ := dropPeers_keeps d rid (some cw)
  generalize hx : (d.dropPeers rid (some cw)).modCw rid cw (fun c => { c with passed := true, frame := some f }) = x
  have hxread : x.leafRead rid = some { r with
      issued := b, peers := ps, cws := [(cw, { c with passed := true, frame := some f })] } := by
    rw [← hx]
    simp only [Dev.leafRead, Dev.modCw, Dev.modRead, Tbl.get?_upd_same] at hread ⊢
    rw [hread, Option.map_some, hcws]
    simp [Tbl.upd, Tbl.get?, Tbl.set?]
  have hxwork : x.butWork = d.butWork := by
    rw [← hx]
    exact hwork
  have hxfails : x.tasks.1 = d.tasks.1 := by
    rw [← hx]
    exact hfails
  have hework : (x.dropReadAll rid).butWork = d.butWork := (butWork_dropReadAll x rid).trans hxwork
  refine ⟨x.dropReadAll rid, ?_, hework, (tagFails_dropReadAll x rid).trans hxfails, leafRead_dropReadAll x rid⟩
  have heslot : (x.dropReadAll rid).hg.slots.get? cs = some y := by rw [hg_of_work hework, hslot]
  have hnsp : ∀ k, (x.dropReadAll rid).nsp k = d.nsp k := fun k => by
    have htc := congrArg Dev.tc hework
    exact congrArg (fun t : Tc => t.nss.get? k) htc
  have hopen : (x.dropReadAll rid).openUnit f r.ns iu n.keyGen = d.openUnit f r.ns iu n.keyGen := by
    simp only [Dev.openUnit, Dev.keySeq, hnsp]
  simp only [Dev.serveCw, hx, hxread, hcs, hunits, List.all_cons, List.all_nil, Bool.and_true, if_true, decide_true, List.filter_cons_of_pos,
    List.filter_nil, List.foldl_cons, List.foldl_nil, heslot, hnsp, hn, hopen, hpi]

/-- A Read whose last unit is resolved is over: the data leave, the slot and the leaf read are free, nothing is counted, and no tag
failure is held against a module. -/
theorem serveCw_answers (hpost : d.postable cs y) (hop : y.opcode = 2)
    (hrest : y.units.all (fun u => decide (u.iu = iu) || decide (u.src = 4)) = true)
    (hnew : y.units.all (fun u => decide (u.newer = [])) = true) (hn : d.nsp r.ns = some n)
    (hpi : y.piStatus n iu (leBytes 4096 (d.openUnit f r.ns iu n.keyGen).1.toNat)
      (leBytes 64 (d.openUnit f r.ns iu n.keyGen).2.toNat) = none) :
    (d.serveCw rid cw f).hg.slots.get? cs = none
      ∧ Out.readData y.fn cs iu (some (d.openUnit f r.ns iu n.keyGen).1) ∈ (d.serveCw rid cw f).out
      ∧ (d.serveCw rid cw f).leafRead rid = none ∧ (d.serveCw rid cw f).cnt = d.cnt ∧ (d.serveCw rid cw f).tasks.1 = d.tasks.1 := by
  obtain ⟨e, heq, hwork, hfails, hnone⟩ := serveCw_last_eq h hcws hcs hunits hself hpost.1 hn hpi
  have hfns := congrArg Dev.fns hwork
  have hcnt := congrArg Dev.cnt hwork
  have heslot : e.hg.slots.get? cs = some y := by rw [hg_of_work hwork, hpost.1]
  obtain ⟨hfree, hsent, hcnt', hrp, hgl⟩ :=
    unitServed_last (Dev.postable_of_request (e := e) hpost hfns heslot rfl) hop hrest hnew (d.openUnit f r.ns iu n.keyGen).1
  rw [heq]
  refine ⟨hfree, hsent, ?_, hcnt'.trans hcnt, ?_⟩
  · rw [Dev.leafRead, hrp]
    exact hnone
  · refine Eq.trans (funext fun s => ?_) hfails
    exact congrArg (fun g : Gl => (g.links.get .reset s).tagFailAt) hgl

end

/-! ### The ladder's first rung (R210, R212) -/

/-- A decode that holds no further tag failure against a module has no further effect on it (R283). -/
theorem decodeStep_of_tasks {rid cw : Nat} {x : DecodeIn} (h : (decodeDone rid cw x d).tasks.1 = d.tasks.1) :
    decodeStep rid cw x d = decodeDone rid cw x d := if_pos (congrFun h _)

theorem reconStep_of_tasks {rid cw : Nat} {f : Option Frame} (h : (reconstructionDone rid cw f d).tasks.1 = d.tasks.1) :
    reconStep rid cw f d = reconstructionDone rid cw f d := if_pos (congrFun h _)

/-- The device without the read levels of its blocks and their accumulators. -/
def Dev.butLevels (d : Dev) : Dev := { d with rp := { d.rp with vref := [], acc := [] } }

theorem butLevels_trackLevels (pua : Nat) (slc : Bool) (up down : List Nat) :
    (d.trackLevels pua slc up down).butLevels = d.butLevels := by
  simp only [Dev.trackLevels]
  split
  · rfl
  · refine foldl_keeps Dev.butLevels _ (fun x i => ?_) _ d
    generalize (if slc = true then 15 else i) = l
    split
    · rfl
    split <;> rfl

/-- Tracking changes the read levels of blocks and their accumulators alone (R218). -/
theorem trackLevels_eq (pua : Nat) (slc : Bool) (up down : List Nat) :
    ∃ v a, d.trackLevels pua slc up down = { d with rp := { d.rp with vref := v, acc := a } } := by
  have hbut := butLevels_trackLevels d pua slc up down
  generalize d.trackLevels pua slc up down = e at hbut
  exact ⟨e.rp.vref, e.rp.acc, congrArg (fun x : Dev => { x with rp := { x.rp with vref := e.rp.vref, acc := e.rp.acc } }) hbut⟩

section
variable {d : Dev} {rid cw : Nat} {r : LeafRead} {c : CwSt} (h : d.leafRead rid = some r) (hcws : r.cws = [(cw, c)])
include h hcws

/-- A hard decode that fails goes on to soft-2, which needs two more senses; the read starts no peers where its class or
MC_LADDER_CTRL asks for none. -/
theorem decodeDone_hard_fails {x : DecodeIn} (hpassed : c.passed = false) (hrung : c.rung = .hard) (hneed : c.need = 0) (hx : x.frame = none)
    (halone : 1 < r.cls ∨ bitOf (d.csrW aLadderCtrl).toNat 1 = false) :
    decodeDone rid cw x d = d.modCw rid cw (fun c => { c with rung := .soft2, need := 2 }) := by
  have hget : r.cws.get? cw = some c := by simp [hcws, Tbl.get?]
  have hno : (decide (r.cls ≤ 1) && r.parent.isNone && bitOf (d.csrW aLadderCtrl).toNat 1) = false := by
    obtain hcls | hbit := halone
    · simp [Nat.not_le.mpr hcls]
    · simp [hbit]
  have hcsr : (d.modCw rid cw (fun c => { c with rung := .soft2, need := 2 })).csrW aLadderCtrl = d.csrW aLadderCtrl := rfl
  simp [decodeDone, h, hget, hpassed, hrung, hneed, hx, Dev.rungFailed, hcsr, hno]

/-- A hard decode whose unit passes its checks is credited and resolves the codeword (R210). -/
theorem decodeDone_hard_passes {x : DecodeIn} {f : Frame} (hpassed : c.passed = false) (hrung : c.rung = .hard) (hneed : c.need = 0)
    (hx : x.frame = some f) (hskip : bitOf (d.csrW aLadderCtrl).toNat 0 = false) (hcheck : d.checkCw r cw f = 0) :
    ∃ v a, decodeDone rid cw x d = (Dev.credit { d with rp := { d.rp with vref := v, acc := a } } .hard).serveCw rid cw f := by
  have hget : r.cws.get? cw = some c := by simp [hcws, Tbl.get?]
  obtain ⟨v, a, htrack⟩ := trackLevels_eq d r.pua r.slc x.up x.down
  have hcheck' : Dev.checkCw { d with rp := { d.rp with vref := v, acc := a } } r cw f = 0 := hcheck
  refine ⟨v, a, ?_⟩
  simp [decodeDone, h, hget, hpassed, hrung, hneed, hx, hskip, htrack, Dev.decoded, hcheck']

/-- A reconstruction whose peers are all resolved and whose unit passes its checks is credited and resolves the codeword (R214). -/
theorem reconstructionDone_passes {f : Frame} (hpassed : c.passed = false) (hrung : c.rung = .recon) (hfailed : c.failed = false)
    (hany : (r.peers.filterMap d.leafRead).any (fun p => p.cwList.contains cw) = true)
    (hall : (r.peers.filterMap d.leafRead).all (fun p => !(p.cwList.contains cw) || ((p.cws.get? cw).map (·.passed)).getD false) = true)
    (hcheck : d.checkCw r cw f = 0) : reconstructionDone rid cw (some f) d = (d.credit .recon).serveCw rid cw f := by
  have hget : r.cws.get? cw = some c := by simp [hcws, Tbl.get?]
  have hsome : ((r.peers.filterMap d.leafRead).filter (fun p => p.cwList.contains cw)).isEmpty = false := by
    obtain ⟨p, hp, hcw⟩ := List.any_eq_true.mp hany
    exact List.isEmpty_eq_false_iff_exists_mem.mpr ⟨p, List.mem_filter.mpr ⟨hp, hcw⟩⟩
  have hready : ((r.peers.filterMap d.leafRead).filter (fun p => p.cwList.contains cw)).all
      (fun p => ((p.cws.get? cw).map (·.passed)).getD false) = true := by
    refine List.all_eq_true.mpr fun p hp => ?_
    obtain ⟨hp, hcw⟩ := List.mem_filter.mp hp
    have hpeer := List.all_eq_true.mp hall p hp
    rwa [hcw, Bool.not_true, Bool.false_or] at hpeer
  simp only [reconstructionDone, h, hget, hpassed, hrung, hfailed, hsome, hready, hcheck]
  rfl

/-- A leaf read whose codeword is not resolved is not among the peers that are, so it outlives them. -/
theorem cwList_ne_of_peers_passed (hpassed : c.passed = false)
    (hall : (r.peers.filterMap d.leafRead).all (fun p => !(p.cwList.contains cw) || ((p.cws.get? cw).map (·.passed)).getD false) = true)
    (hmem : rid ∈ r.peers) : r.cwList ≠ [cw] := fun hlist => by
  have hself := List.all_eq_true.mp hall r (List.mem_filterMap.mpr ⟨rid, hmem, h⟩)
  simp [hlist, hcws, Tbl.get?, hpassed] at hself

end

/-- Settles O38, from the rung that follows a hard decode (`decodeDone_hard_fails`), and from what a resolved codeword is answered with
(`serveCw_answers`). -/
theorem decodesAndReconstructions : Obligations.DecodesAndReconstructions := by
  intro s rid cw cs iu r c h hcws hpassed hcs _ hunits
  refine ⟨fun x hrung hneed hx halone => ?_, fun x f y n hrung hneed hx hpeers hskip hcheck hpost hop _ hrest hnew hn hpi => ?_,
    fun f y n hrung _ hfailed hany hall hcheck hpost hop _ hrest hnew hn hpi => ?_⟩
  · have hdone := decodeDone_hard_fails h hcws hpassed hrung hneed hx halone
    refine ⟨s.onDev (decodeStep rid cw x), _, rfl, rfl, ?_, rfl, ?_⟩
    · rw [State.onDev_dev, decodeStep_of_tasks _ (by rw [hdone]; rfl), hdone, Dev.leafRead, Dev.modCw, Dev.modRead, Tbl.get?_upd_same,
        ← Dev.leafRead, h, Option.map_some, hcws]
      simp [Tbl.upd, Tbl.get?, Tbl.set?]
    · rw [State.onDev_dev, decodeStep_of_tasks _ (by rw [hdone]; rfl), hdone]
      exact ⟨rfl, rfl⟩
  · obtain ⟨v, a, hdone⟩ := decodeDone_hard_passes h hcws hpassed hrung hneed hx hskip hcheck
    obtain ⟨hfree, hsent, hnone, hcnt, hfails⟩ :=
      serveCw_answers (d := Dev.credit { s.dev with rp := { s.dev.rp with vref := v, acc := a } } .hard) (f := f) h hcws hcs hunits
        (by simp [hpeers]) hpost hop hrest hnew hn hpi
    rw [← hdone] at hfree hsent hnone hcnt hfails
    refine ⟨s.onDev (decodeStep rid cw x), rfl, rfl, ?_⟩
    rw [State.onDev_dev, decodeStep_of_tasks _ hfails, Dev.counter, hcnt]
    exact ⟨hfree, hsent, hnone, Dev.counter_count s.dev aLadderCnt 0 32 1⟩
  · have hdone := reconstructionDone_passes h hcws hpassed hrung hfailed hany hall hcheck
    obtain ⟨hfree, hsent, -, hcnt, hfails⟩ := serveCw_answers (d := s.dev.credit .recon) (f := f) h hcws hcs hunits
      (cwList_ne_of_peers_passed h hcws hpassed hall) hpost hop hrest hnew hn hpi
    rw [← hdone] at hfree hsent hcnt hfails
    refine ⟨s.onDev (reconStep rid cw (some f)), rfl, rfl, ?_⟩
    rw [State.onDev_dev, reconStep_of_tasks _ hfails, Dev.counter, hcnt]
    exact ⟨hfree, hsent, Dev.counter_count s.dev (aLadderCnt + 16) 0 32 1⟩

end Sys2Proof.Machine
end

section
/-! PROOFS. O25: the actions of Quire Control (R206, R207, R242, R252, R253, R255, R256). -/

namespace Sys2Proof.Machine

variable (d : Dev)

/-! ### What a condition sends, and the events that no controller waits for (R75 to R78, R115) -/

theorem out_kmbSignal (p : Port) : d.out <:+ (d.kmbSignal p).out := by
  simp only [Dev.kmbSignal]
  split
  · exact List.suffix_cons _ _
  · split
    · exact List.suffix_cons _ _
    · exact List.suffix_rfl

theorem out_modeChanged : d.out <:+ d.modeChanged.out := by
  refine foldl_suffix Dev.out _ (fun x p => ?_) _ d
  dsimp only
  split
  · exact out_kmbSignal (x.modBox p _) p
  · exact List.suffix_rfl

theorem out_applyColumn : d.applyColumn.out = d.out := by
  refine foldl_keeps Dev.out _ (fun x k => ?_) _ d
  simp only [Dev.applyRule, Dev.powerOn, Dev.gateDom, Dev.drainDom, Dev.startRamp]
  (repeat' split) <;> rfl

theorem out_decideServing : d.out <:+ d.decideServing.out := by
  simp only [Dev.decideServing, Dev.enterMode]
  split
  · split
    · exact List.suffix_rfl
    · rw [out_applyColumn]
      refine List.IsSuffix.trans ?_ (out_modeChanged _)
      rw [Dev.ev_out]
  · exact List.suffix_rfl

/-- The device once a condition has changed and the serving mode is decided again; the controllers have yet to be told of it. -/
def Dev.untold (d : Dev) (i : Nat) (v : Bool) : Dev :=
  let y := (d.withCond (if v then d.modes.cond ||| BitVec.ofNat 12 (2 ^ i) else d.modes.cond &&& ~~~ BitVec.ofNat 12 (2 ^ i))).decideServing
  (if y.modes.mode = d.modes.mode then y.ev evWdnCondChange 0 [.num 1 (modeCode d.modes.mode), .num 4 d.condWord, .num 4 y.condWord]
   else y).healthChange

theorem healthChange_hostSide : d.healthChange.hostSide = d.hostSide ∧ d.healthChange.out = d.out := by
  simp only [Dev.healthChange]
  split <;> exact ⟨rfl, rfl⟩

/-- Until the controllers are told, the functions and the slots are as before, and something may have left the block (R75 to R78). -/
theorem untold_hostSide (i : Nat) (v : Bool) : (d.untold i v).hostSide = d.hostSide ∧ d.out <:+ (d.untold i v).out := by
  simp only [Dev.untold]
  generalize hx : d.withCond _ = x
  have hxside : x.decideServing.hostSide = d.hostSide := by
    rw [hostSide_of_mode (butMode_decideServing x), ← hx]
    rfl
  have hxout : d.out <:+ x.decideServing.out := by
    have h := out_decideServing x
    rwa [← hx] at h ⊢
  rw [(healthChange_hostSide _).1, (healthChange_hostSide _).2]
  split
  · rw [hostSide_ev, Dev.ev_out]
    exact ⟨hxside, hxout⟩
  · exact ⟨hxside, hxout⟩

/-- Setting a condition that changes tells the ready controllers at most. -/
theorem setCond_tells {d : Dev} {i : Nat} {v : Bool} (h : d.cond i ≠ v) :
    d.setCond i v = d.untold i v ∨ ∃ e w, d.setCond i v = (d.untold i v).aenAll e w := by
  cases v with
  | false => exact .inl (if_neg h)
  | true =>
    rw [Dev.setCond, if_neg h]
    cases condEvent i with
    | none => exact .inl rfl
    | some e => exact .inr ⟨e.1, some e.2, rfl⟩

/-- No controller has an Asynchronous Event Request outstanding. -/
def Dev.noAers (d : Dev) : Prop := ∀ f : Fn, (d.fnst f).aers = []

section
variable {d : Dev} {e : Dev} {cs : Nat} {s : CSlot}

theorem pumpAer_noAer {f : Fn} (h : (d.fnst f).aers = []) : d.pumpAer f = d := by
  simp only [Dev.pumpAer, h]

theorem aers_modFn {u : FnSt → FnSt} (hu : ∀ t, (u t).aers = t.aers) (f g : Fn) : ((d.modFn f u).fnst g).aers = (d.fnst g).aers :=
  fnst_modFn_keeps d hu f g

/-- An event that no request waits for is kept at most (R115). -/
theorem aen_kept {f : Fn} (h : (d.fnst f).aers = []) (a : AEvent) (w : Option Nat) :
    d.aen f a w = d ∨ d.aen f a w = d.modFn f (fun t => { t with events := t.events ++ [a] }) := by
  simp only [Dev.aen]
  rw [pumpAer_noAer ((aers_modFn (fun _ => by rfl) f f).trans h)]
  split_ifs
  · exact .inr rfl
  · exact .inl rfl

theorem Dev.PostsAs.aen (he : d.PostsAs e cs s) (hno : e.noAers) (f : Fn) (a : AEvent) (w : Option Nat) :
    d.PostsAs (e.aen f a w) cs s ∧ (e.aen f a w).noAers := by
  obtain hkept | hkept := aen_kept (hno f) a w
  · rw [hkept]
    exact ⟨he, hno⟩
  · rw [hkept]
    exact ⟨he.modFn f (fun _ => ⟨rfl, rfl, rfl⟩), fun g => (aers_modFn (fun _ => by rfl) f g).trans (hno g)⟩

theorem Dev.PostsAs.aenEach (he : d.PostsAs e cs s) (hno : e.noAers) (a : AEvent) (w : Option Nat) (l : List Fn) :
    d.PostsAs (l.foldl (fun x f => x.aen f a w) e) cs s ∧ (l.foldl (fun x f => x.aen f a w) e).noAers := by
  induction l generalizing e with
  | nil => exact ⟨he, hno⟩
  | cons f l ih =>
    obtain ⟨hposts, hnone⟩ := he.aen hno f a w
    exact ih hposts hnone

/-- A condition may change before the completion: with no request outstanding, none is completed with it. -/
theorem Dev.PostsAs.setCond (he : d.PostsAs e cs s) (hno : e.noAers) (i : Nat) (v : Bool) :
    d.PostsAs (e.setCond i v) cs s ∧ (e.setCond i v).noAers := by
  by_cases hsame : e.cond i = v
  · rw [Dev.setCond, if_pos hsame]
    exact ⟨he, hno⟩
  · obtain ⟨hside, hout⟩ := untold_hostSide e i v
    have hfns := fns_of_hostSide hside
    have hposts : d.PostsAs (e.untold i v) cs s := he.grow (congrArg Hg.slots (hg_of_hostSide hside)) hfns hout
    have hnone : (e.untold i v).noAers := fun f => by
      rw [Dev.fnst, hfns]
      exact hno f
    obtain hquiet | ⟨a, w, htold⟩ := setCond_tells hsame
    · rw [hquiet]
      exact ⟨hposts, hnone⟩
    · rw [htold]
      exact hposts.aenEach hnone a w _

theorem Dev.PostsAs.quireConds (he : d.PostsAs e cs s) (hno : e.noAers) : d.PostsAs e.quireConds cs s := by
  simp only [Dev.quireConds]
  obtain ⟨he, hno⟩ := he.setCond hno 3 _
  obtain ⟨he, hno⟩ := he.setCond hno 4 _
  obtain ⟨he, hno⟩ := he.setCond hno 5 _
  obtain ⟨he, hno⟩ := he.setCond hno 7 _
  split
  · exact (he.setCond hno 6 true).1
  · exact he

end

/-! ### What leaves the Quires alone -/

@[simp] theorem complete_quires (cs : Nat) (e : Cqe) : (d.complete cs e).quires = d.quires := by
  have h := congrArg Dev.quires (butHost_complete d cs e)
  exact h

@[simp] theorem complete_quire (cs : Nat) (e : Cqe) (q : Nat) : (d.complete cs e).quire q = d.quire q := by
  simp only [Dev.quire, complete_quires]

@[simp] theorem quireConds_quires : d.quireConds.quires = d.quires := by
  simp only [Dev.quireConds]
  split <;> simp only [quires_setCond]

@[simp] theorem quireConds_quire (q : Nat) : d.quireConds.quire q = d.quire q := by
  simp only [Dev.quire, quireConds_quires]

@[simp] theorem closeSb_quires (q k : Nat) : (d.closeSb q k).quires = d.quires := by
  simp only [Dev.closeSb, Dev.releaseIfEmpty]
  split <;> rfl

@[simp] theorem closeOver_quires (q m : Nat) : (d.closeOver q m).quires = d.quires := by
  refine foldl_keeps Dev.quires _ (fun x f => ?_) _ d
  dsimp only
  (repeat' split) <;> simp

@[simp] theorem closeOver_quire (q m j : Nat) : (d.closeOver q m).quire j = d.quire j := by
  simp only [Dev.quire, closeOver_quires]

/-! ### The members of a Quire -/

/-- The member table of a Quire. -/
def Dev.crew (d : Dev) (q : Nat) : Option (Tbl Member) := (d.quire q).map Quire.members

theorem crew_modQuire {u : Quire → Quire} (hu : ∀ y, (u y).members = y.members) (r q : Nat) : (d.modQuire r u).crew q = d.crew q := by
  simp only [Dev.crew, Dev.quire, Dev.modQuire]
  by_cases hr : q = r
  · rw [hr, Tbl.get?_upd_same, Option.map_map]
    exact congrArg (fun g => (d.quires.get? r).map g) (funext hu)
  · rw [Tbl.get?_upd_ne _ _ hr]

/-- A host is replaced; the members stay (R236). -/
theorem crew_replaceHost (r : Nat) (a : Bool) (q : Nat) : (d.replaceHost r a).crew q = d.crew q := by
  simp only [Dev.replaceHost]
  split
  · rfl
  · generalize d.chooseHost r _ = n
    have hmod := crew_modQuire d (u := fun x => if a then { x with hostA := n } else { x with hostB := n })
      (fun y => by split <;> rfl) r q
    split <;> (simp only [Dev.crew, Dev.ev_quire, Dev.count_quire]; exact hmod)

theorem crew_hostLost (s q : Nat) : (d.hostLost s).crew q = d.crew q :=
  foldl_keeps (fun x => x.crew q) _ (fun x r => crew_replaceHost x r _ q) _ d

theorem memSt_of_get? {y : Quire} {k : Nat} {m : Member} (h : y.members.get? k = some m) : y.memSt k = m.st := by
  rw [Quire.memSt, h]

theorem memSt_modMember {y : Quire} {k : Nat} {m : Member} (h : y.members.get? k = some m) (u : Member → Member) :
    (y.modMember k u).memSt k = (u m).st :=
  memSt_of_get? (by rw [Quire.modMember, Tbl.get?_upd_same, h, Option.map_some])

/-! ### A Quire's work: its start, its progress and its end (R245, R252, R253) -/

/-- A Quire whose joining members have become active. -/
def Quire.joined (y : Quire) : Quire :=
  { y with members := y.members.map (fun m => (m.1, if m.2.st = .joining then { m.2 with st := .active } else m.2)) }

theorem anyIn_joined (y : Quire) : y.joined.anyIn .joining = false := by
  simp only [Quire.anyIn, Quire.joined, List.any_map]
  refine List.any_eq_false.mpr fun m _ => ?_
  by_cases hm : m.2.st = .joining <;> simp [hm]

section
variable {d : Dev} {q : Nat} {y : Quire} (h : d.quire q = some y)
include h

theorem startWork_starts (w : Work) : ∃ z, (d.startWork q w).quire q = some z ∧ z.members = y.members ∧ z.work = some w := by
  simp only [Dev.startWork, h, quireConds_quire]
  exact ⟨_, quire_modQuire d h _, rfl, rfl⟩

/-- While something is left to relocate, the count of what is done is all that moves. -/
theorem workProgress_goesOn {w : Work} (hw : y.work = some w) (hleft : (d.toRelocate q y w).isEmpty = false) :
    ∃ z, (d.workProgress q).quire q = some z ∧ z.members = y.members ∧ z.work = some w := by
  have hmoved := quire_modQuire d h (fun x => { x with workDone := y.workTotal - (d.toRelocate q y w).length })
  simp only [Dev.workProgress, h, hw, hleft, Bool.false_eq_true, if_false]
  split
  · split
    · exact ⟨_, (Dev.ev_quire _ _ _ _ _).trans hmoved, rfl, hw⟩
    · exact ⟨_, hmoved, rfl, hw⟩
  · exact ⟨y, h, rfl, hw⟩

theorem workProgress_releases {m : Nat} (hw : y.work = some (.release m)) (hleft : (d.toRelocate q y (.release m)).isEmpty = true) :
    (d.workProgress q).quire q
      = some ({ y with work := none, workDone := y.workTotal }.modMember m (fun x => { x with st := .released })) := by
  simp only [Dev.workProgress, h, hw, hleft, if_true, quireConds_quire, Dev.ev_quire]
  exact quire_modQuire _ (quire_modQuire d h _) _

theorem workProgress_respreads (hw : y.work = some .respread) (hleft : (d.toRelocate q y .respread).isEmpty = true) :
    (d.workProgress q).quire q = some { y with work := none, workDone := y.workTotal }.joined := by
  simp only [Dev.workProgress, h, hw, hleft, if_true, quireConds_quire, Dev.ev_quire]
  exact quire_modQuire _ (quire_modQuire d h _) _

/-- The Quire whose work has just started, with its internal Furrow open for it. -/
theorem startedWork_quire (w : Work) : ∃ z, ((d.startWork q w).gcFurrow q).quire q = some z ∧ z.members = y.members ∧ z.work = some w := by
  obtain ⟨z, hz, hmem, hwork⟩ := startWork_starts h w
  exact ⟨z, (gcFurrow_opens hz).1, hmem, hwork⟩

theorem respread_runs : ∃ z, (((d.startWork q .respread).gcFurrow q).workProgress q).quire q = some z
    ∧ (z.work = some .respread ∨ (z.work = none ∧ z.anyIn .joining = false)) := by
  obtain ⟨z, hz, -, hwork⟩ := startedWork_quire h .respread
  cases hleft : (((d.startWork q .respread).gcFurrow q).toRelocate q z .respread).isEmpty with
  | true => exact ⟨_, workProgress_respreads hz hwork hleft, .inr ⟨rfl, anyIn_joined _⟩⟩
  | false =>
    obtain ⟨v, hv, -, hvwork⟩ := workProgress_goesOn hz hwork hleft
    exact ⟨v, hv, .inl hvwork⟩

/-- A member whose release has started is RELEASING while superblocks that include it are left, and then RELEASED (R253). -/
theorem startRelease_member {k : Nat} {m : Member} (hm : y.members.get? k = some m) (slot : Option Nat) :
    ∃ z, (d.startRelease q k slot).quire q = some z ∧ (z.memSt k = .releasing ∨ z.memSt k = .released) := by
  generalize hv : (d.modQuire q (fun x => x.modMember k (fun y => { y with st := .releasing }))).closeOver q k = v
  generalize hu : (match slot with | some s => v.hostLost s | none => v) = u
  have hrun : d.startRelease q k slot = ((u.startWork q (.release k)).gcFurrow q).workProgress q := by
    rw [← hu, ← hv]
    cases slot <;> rfl
  have hcrew : u.crew q = some (y.members.upd k (fun x => { x with st := .releasing })) := by
    have hvcrew : v.crew q = some (y.members.upd k (fun x => { x with st := .releasing })) := by
      rw [← hv, Dev.crew, closeOver_quire, quire_modQuire d h, Option.map_some, Quire.modMember]
    rw [← hu]
    cases slot with
    | none => exact hvcrew
    | some s => exact (crew_hostLost v s q).trans hvcrew
  obtain ⟨x, hx, hxmem⟩ := Option.map_eq_some_iff.mp hcrew
  obtain ⟨z, hz, hzmem, hwork⟩ := startedWork_quire hx (.release k)
  have hget : z.members.get? k = some { m with st := .releasing } := by
    rw [hzmem, hxmem, Tbl.get?_upd_same, hm, Option.map_some]
  rw [hrun]
  cases hleft : (((u.startWork q (.release k)).gcFurrow q).toRelocate q z (.release k)).isEmpty with
  | true => exact ⟨_, workProgress_releases hz hwork hleft, .inr (memSt_modMember hget _)⟩
  | false =>
    obtain ⟨v, hv, hvmem, -⟩ := workProgress_goesOn hz hwork hleft
    exact ⟨v, hv, .inl (memSt_of_get? (hvmem ▸ hget))⟩

end

/-! ### The command -/

/-- A Quire Control whose turn it is, with its reserved fields 0, for a Quire that exists (R255). -/
structure Dev.quireDue (d : Dev) (cs : Nat) (x : CSlot) (b : List Byte) (y : Quire) : Prop where
  turn : d.seqDue cs 0xC3 x
  dwords : (List.range 6).any (fun i => decide (x.dw (10 + i) ≠ 0)) = false
  pad : zeroAt b 3 1 = true
  rest : zeroAt b 8 4088 = true
  quire : d.quire (fieldAt b 1 1) = some y

section
variable {d : Dev} {cs : Nat} {x : CSlot} {b : List Byte} {y : Quire} (h : d.quireDue cs x b y)
include h

/-- It runs its action on that Quire. -/
theorem quireCtl_due {act : Nat} (hact : fieldAt b 0 1 = act) (f : Dev → Nat → Quire → Nat → Nat → Dev) :
    d.quireCtl cs act (.ok b) f = f (d.seqStart cs) (fieldAt b 1 1) y (fieldAt b 2 1) (fieldAt b 4 4) := by
  obtain ⟨hturn, hdw, hpad, hrest, hq⟩ := h
  have hquire : (d.seqStart cs).quire (fieldAt b 1 1) = some y := hq
  simp only [Dev.quireCtl, hact, decide_true, Bool.true_or, Bool.not_true, Bool.false_eq_true, if_false, seqRun_due hturn, withData_ok, hdw,
    hpad, hrest, ne_eq, not_true_eq_false, decide_false, Bool.or_self, hquire]

/-- An action that ends at once completes, and changes its Quire alone. -/
theorem modQuire_completed (u : Quire → Quire) (c : Cqe) :
    (((d.seqStart cs).modQuire (fieldAt b 1 1) u).complete cs c).posted d.out cs x c
      ∧ (((d.seqStart cs).modQuire (fieldAt b 1 1) u).complete cs c).quire (fieldAt b 1 1) = some (u y) := by
  obtain ⟨-, -, hpost⟩ := h.turn
  have hposts : d.PostsAs ((d.seqStart cs).modQuire (fieldAt b 1 1) u) cs x := (seqStart_postsAs hpost).other rfl rfl rfl
  rw [complete_quire]
  exact ⟨hposts.complete hpost c, quire_modQuire (d.seqStart cs) h.quire u⟩

/-- An action that is refused leaves the Quires as they were. -/
theorem refusal_completed (c : Cqe) :
    ((d.seqStart cs).complete cs c).posted d.out cs x c ∧ ((d.seqStart cs).complete cs c).quires = d.quires := by
  obtain ⟨-, -, hpost⟩ := h.turn
  rw [complete_quires]
  exact ⟨(seqStart_postsAs hpost).complete hpost c, rfl⟩

/-! ### The actions (R255, R256) -/

theorem quirePatrolNow_runs (hact : fieldAt b 0 1 = 1) : quirePatrolNow cs (.ok b) d
    = ((d.seqStart cs).modQuire (fieldAt b 1 1) (fun z => { z with patNow := true })).complete cs cqeOk := by
  rw [quirePatrolNow, quireCtl_due h hact]

section
variable (hact : fieldAt b 0 1 = 2)
include hact

theorem quireSetPeriod_sets (hlow : 24 ≤ fieldAt b 4 4) (hhigh : fieldAt b 4 4 ≤ 336) : quireSetPeriod cs (.ok b) d
    = ((d.seqStart cs).modQuire (fieldAt b 1 1)
        (fun z => { z with hours := fieldAt b 4 4, effective := min z.effective (fieldAt b 4 4) })).complete cs cqeOk := by
  rw [quireSetPeriod, quireCtl_due h hact, if_neg (by omega)]

theorem quireSetPeriod_refuses (hout : fieldAt b 4 4 < 24 ∨ 336 < fieldAt b 4 4) :
    quireSetPeriod cs (.ok b) d = (d.seqStart cs).complete cs cqeInvalidField := by
  rw [quireSetPeriod, quireCtl_due h hact, if_pos hout]

end

section
variable (hact : fieldAt b 0 1 = 3) (hmode : fieldAt b 4 4 = 0)
include hact hmode

theorem quireSetMode_clears (hfree : d.lc0On (fieldAt b 1 1) = false) : quireSetMode cs (.ok b) d
    = ((d.seqStart cs).modQuire (fieldAt b 1 1) (fun z => { z with strict := false, active := false })).complete cs cqeOk := by
  have hfree' : (d.seqStart cs).lc0On (fieldAt b 1 1) = false := hfree
  rw [quireSetMode, quireCtl_due h hact, hmode, if_neg (by decide), if_pos rfl, hfree', if_neg Bool.false_ne_true]

theorem quireSetMode_refuses (hlc0 : d.lc0On (fieldAt b 1 1) = true) :
    quireSetMode cs (.ok b) d = (d.seqStart cs).complete cs (cqeVendor 0xC1) := by
  have hlc0' : (d.seqStart cs).lc0On (fieldAt b 1 1) = true := hlc0
  rw [quireSetMode, quireCtl_due h hact, hmode, if_neg (by decide), if_pos rfl, if_pos hlc0']

end

section
variable {m : Member} (hact : fieldAt b 0 1 = 4) (hm : y.members.get? (fieldAt b 2 1) = some m) (hidle : y.work = none)
  (hpresent : m.present = true)
include hact hm hidle hpresent

theorem quireReleaseMember_refuses (hfew : y.presentWidth < 4) :
    quireReleaseMember cs (.ok b) d = (d.seqStart cs).complete cs (cqeVendor 0xC6) := by
  rw [quireReleaseMember, quireCtl_due h hact]
  simp [hm, hidle, hpresent, hfew]

theorem quireReleaseMember_starts (hmany : 4 ≤ y.presentWidth) (hroom : d.canHold (fieldAt b 1 1) y (y.presentWidth - 1) = true) :
    quireReleaseMember cs (.ok b) d
      = ((d.seqStart cs).startRelease (fieldAt b 1 1) (fieldAt b 2 1) m.slot).complete cs cqeOk := by
  have hroom' : (d.seqStart cs).canHold (fieldAt b 1 1) y (y.presentWidth - 1) = true := hroom
  rw [quireReleaseMember, quireCtl_due h hact]
  simp [hm, hidle, hpresent, Nat.not_lt.mpr hmany, hroom']

end

section
variable (hact : fieldAt b 0 1 = 5) (hidle : y.work = none) (hheld : y.held = false)
include hact hidle hheld

theorem quireStartRespread_refuses (hnone : y.anyIn .joining = false) :
    quireStartRespread cs (.ok b) d = (d.seqStart cs).complete cs (cqeVendor 0xC9) := by
  rw [quireStartRespread, quireCtl_due h hact]
  simp [hidle, hheld, hnone]

theorem quireStartRespread_starts (hjoin : y.anyIn .joining = true) : quireStartRespread cs (.ok b) d
    = ((((d.seqStart cs).startWork (fieldAt b 1 1) .respread).gcFurrow (fieldAt b 1 1)).workProgress (fieldAt b 1 1)).complete
        cs cqeOk := by
  rw [quireStartRespread, quireCtl_due h hact]
  simp [hidle, hheld, hjoin]

end

/-- A Quire whose release of a member is cancelled. -/
def Quire.cancelled (y : Quire) (k : Nat) : Quire := { y.modMember k (fun m => { m with st := .active }) with work := none }

theorem quireCancelRelease_cancels (hact : fieldAt b 0 1 = 6) (hrel : y.memSt (fieldAt b 2 1) = .releasing) : quireCancelRelease cs (.ok b) d
    = ((d.seqStart cs).modQuire (fieldAt b 1 1) (fun z => z.cancelled (fieldAt b 2 1))).quireConds.complete cs cqeOk := by
  rw [quireCancelRelease, quireCtl_due h hact, if_neg (not_not_intro hrel)]
  rfl

/-- A cancelled release: with no Asynchronous Event Request that a condition could complete first, the command's slot is free. -/
theorem cancelled_completed (k : Nat) {e : Dev}
    (he : ((d.seqStart cs).modQuire (fieldAt b 1 1) (fun z => z.cancelled k)).quireConds.complete cs cqeOk = e) :
    (d.noAers → e.hg.slots.get? cs = none) ∧ e.quire (fieldAt b 1 1) = some (y.cancelled k) := by
  obtain ⟨-, -, hpost⟩ := h.turn
  have hposts : d.PostsAs ((d.seqStart cs).modQuire (fieldAt b 1 1) (fun z => z.cancelled k)) cs x :=
    (seqStart_postsAs hpost).other rfl rfl rfl
  rw [← he]
  refine ⟨fun hno => ((hposts.quireConds hno).complete hpost cqeOk).1, ?_⟩
  rw [complete_quire, quireConds_quire]
  exact quire_modQuire (d.seqStart cs) h.quire _

end

/-- Settles O25, from the action that runs (`quireCtl_due`), what one that ends at once or is refused leaves (`modQuire_completed`,
`refusal_completed`), and how a release and a re-spread start (`startRelease_member`, `respread_runs`). -/
theorem quireControl : Obligations.QuireControl := by
  rintro s cs x b _ y hturn hdw hpad hrest rfl hq
  have h : s.dev.quireDue cs x b y := ⟨hturn, hdw, hpad, hrest, hq⟩
  refine ⟨fun hact => ⟨s.onDev (quirePatrolNow cs (.ok b)), rfl, rfl, ?_⟩,
    fun hact hlow hhigh => ⟨s.onDev (quireSetPeriod cs (.ok b)), rfl, rfl, ?_⟩,
    fun hact hout => ⟨s.onDev (quireSetPeriod cs (.ok b)), rfl, rfl, ?_⟩,
    fun hact hmode hfree => ⟨s.onDev (quireSetMode cs (.ok b)), rfl, rfl, ?_⟩,
    fun hact hmode hlc0 => ⟨s.onDev (quireSetMode cs (.ok b)), rfl, rfl, ?_⟩,
    fun m hact hm hidle hpresent hfew => ⟨s.onDev (quireReleaseMember cs (.ok b)), rfl, rfl, ?_⟩,
    fun hact hidle hheld hnone => ⟨s.onDev (quireStartRespread cs (.ok b)), rfl, rfl, ?_⟩,
    fun m hact hm hidle hpresent hmany hroom => ?_, fun hact hidle hheld hjoin => ?_,
    fun hact hrel => ⟨s.onDev (quireCancelRelease cs (.ok b)), rfl, rfl, ?_⟩⟩
  · rw [State.onDev_dev, quirePatrolNow_runs h hact]
    exact modQuire_completed h _ cqeOk
  · rw [State.onDev_dev, quireSetPeriod_sets h hact hlow hhigh]
    exact modQuire_completed h _ cqeOk
  · rw [State.onDev_dev, quireSetPeriod_refuses h hact hout]
    exact refusal_completed h _
  · rw [State.onDev_dev, quireSetMode_clears h hact hmode hfree]
    exact modQuire_completed h _ cqeOk
  · rw [State.onDev_dev, quireSetMode_refuses h hact hmode hlc0]
    exact refusal_completed h _
  · rw [State.onDev_dev, quireReleaseMember_refuses h hact hm hidle hpresent hfew]
    exact refusal_completed h _
  · rw [State.onDev_dev, quireStartRespread_refuses h hact hidle hheld hnone]
    exact refusal_completed h _
  · obtain ⟨z, hz, hst⟩ := startRelease_member (d := s.dev.seqStart cs) hq hm m.slot
    refine ⟨s.onDev (quireReleaseMember cs (.ok b)), z, rfl, rfl, ?_, hst⟩
    rw [State.onDev_dev, quireReleaseMember_starts h hact hm hidle hpresent hmany hroom, complete_quire, hz]
  · obtain ⟨z, hz, hwork⟩ := respread_runs (d := s.dev.seqStart cs) hq
    refine ⟨s.onDev (quireStartRespread cs (.ok b)), z, rfl, rfl, ?_, hwork⟩
    rw [State.onDev_dev, quireStartRespread_starts h hact hidle hheld hjoin, complete_quire, hz]
  · exact cancelled_completed h _ (quireCancelRelease_cancels h hact hrel).symm

end Sys2Proof.Machine
end

section
/-! PROOFS. What links and slots are apart from the traffic on them (R264, R267, R378): flits sent and received and grants that start
change no link's state, lanes or authentication, and no slot. -/

namespace Sys2Proof.Machine

variable (d : Dev)

/-! ### Links and slots apart from traffic -/

/-- A link apart from its traffic: without its operations, what it has sent and received, and what its dies and tags have failed. -/
def Link.standing (l : Link) : Link :=
  { l with
    tags := [], txNext := 0, txQueue := [], replay := [], sent := [], rxNext := 0, rxUnacked := 0, ackSent := 0, nakSent := none
    freed := [], ping := false, progressAt := 0, diesFailed := [], tagFailAt := [] }

section
variable {a b : Link} (h : a.standing = b.standing)
include h

theorem Link.st_of_standing : a.st = b.st := congrArg (a₁ := a.standing) (a₂ := b.standing) Link.st h
theorem Link.since_of_standing : a.since = b.since := congrArg (a₁ := a.standing) (a₂ := b.standing) Link.since h
theorem Link.lpReq_of_standing : a.lpReq = b.lpReq := congrArg (a₁ := a.standing) (a₂ := b.standing) Link.lpReq h
theorem Link.auth_of_standing : a.auth = b.auth := congrArg (a₁ := a.standing) (a₂ := b.standing) Link.auth h
theorem Link.authStep_of_standing : a.authStep = b.authStep := congrArg (a₁ := a.standing) (a₂ := b.standing) Link.authStep h
theorem Link.session_of_standing : a.session = b.session := congrArg (a₁ := a.standing) (a₂ := b.standing) Link.session h
theorem Link.authT_of_standing : a.authT = b.authT := congrArg (a₁ := a.standing) (a₂ := b.standing) Link.authT h

end

/-- Every link apart from its traffic, and what the links and slots share. -/
def Dev.standing : (Nat → Link) × Gl := (fun s => (d.link s).standing, { d.gl with links := [] })

theorem standing_of_gl {a b : Dev} (h : a.gl = b.gl) : a.standing = b.standing := by
  simp only [Dev.standing, Dev.link, h]

theorem link_of_standing {a b : Dev} (h : a.standing = b.standing) (s : Nat) : (a.link s).standing = (b.link s).standing :=
  congrFun (congrArg Prod.fst h) s

theorem slots_of_standing {a b : Dev} (h : a.standing = b.standing) : a.gl.slots = b.gl.slots := congrArg (fun p => p.2.slots) h

theorem slot_of_standing {a b : Dev} (h : a.standing = b.standing) (s : Nat) : a.slot s = b.slot s := by
  simp only [Dev.slot, slots_of_standing h]

theorem colo_of_standing {a b : Dev} (h : a.standing = b.standing) (s : Nat) : a.colo s = b.colo s := by
  simp only [Dev.colo, slot_of_standing h]

theorem standing_modLink {s : Nat} {f : Link → Link} (h : (f (d.link s)).standing = (d.link s).standing) :
    (d.modLink s f).standing = d.standing := by
  refine Prod.ext (funext fun j => ?_) rfl
  by_cases hj : j = s
  · subst hj
    exact (congrArg Link.standing (Dev.link_modLink d j f)).trans h
  · exact congrArg Link.standing (Dev.link_modLink_ne d f hj)

/-! ### Traffic -/

/-- Sending from a queue changes what is kept for replay, the next sequence number and the counts of flits sent, and nothing else. -/
theorem sendItems_link (s : Nat) (q : List TxItem) (b : List Nat) (l : Link) :
    ∃ r n c, (sendItems s q b l).2.1 = { l with replay := r, txNext := n, sent := c } := by
  induction q generalizing b l with
  | nil => exact ⟨_, _, _, rfl⟩
  | cons i q ih =>
    unfold sendItems
    extract_lets n sent o
    have hsent : ∃ r n c, sent = { l with replay := r, txNext := n, sent := c } := by
      dsimp only [sent]
      split <;> exact ⟨_, _, _, rfl⟩
    obtain ⟨r, m, c, hsent⟩ := hsent
    rw [hsent]
    split
    · obtain ⟨r', m', c', h⟩ := ih b { l with replay := r, txNext := m, sent := c }
      exact ⟨r', m', c', h⟩
    · obtain ⟨r', m', c', h⟩ := ih (i.vc :: b) { l with replay := r, txNext := m, sent := c }
      exact ⟨r', m', c', h⟩

/-- What is sent on a link adds to its traffic. -/
theorem link_linkPump (s : Nat) :
    ∃ q r n c, (d.linkPump s).link s = { d.link s with txQueue := q, replay := r, txNext := n, sent := c } := by
  simp only [Dev.linkPump]
  split
  · rw [foldl_keeps (fun x => Dev.link x s) Dev.emit (fun x o => Dev.emit_link x o s), Dev.link_modLink]
    obtain ⟨r, n, c, h⟩ := sendItems_link s (d.link s).txQueue [] (d.link s)
    rw [h]
    exact ⟨_, _, _, _, rfl⟩
  · exact ⟨_, _, _, _, rfl⟩

theorem tags_linkPump (s : Nat) : ((d.linkPump s).link s).tags = (d.link s).tags := by
  obtain ⟨q, r, n, c, h⟩ := link_linkPump d s
  rw [h]

@[simp] theorem standing_emit (o : Out) : (d.emit o).standing = d.standing := rfl
@[simp] theorem standing_modDie (s k : Nat) (f : Die → Die) : (d.modDie s k f).standing = d.standing := rfl

@[simp] theorem standing_linkPump (s : Nat) : (d.linkPump s).standing = d.standing := by
  simp only [Dev.linkPump]
  split
  · rw [foldl_keeps Dev.standing Dev.emit (fun x o => standing_emit x o)]
    obtain ⟨r, n, c, h⟩ := sendItems_link s (d.link s).txQueue [] (d.link s)
    exact standing_modLink d (by rw [h]; rfl)
  · rfl

@[simp] theorem standing_linkQueue (s : Nat) (l : List TxItem) : (d.linkQueue s l).standing = d.standing := by
  rw [Dev.linkQueue, standing_linkPump]
  exact standing_modLink d rfl

@[simp] theorem standing_sendMgmt (s t : Nat) (c : List Byte) : (d.sendMgmt s t c).standing = d.standing := by
  rw [Dev.sendMgmt, standing_linkQueue, standing_emit]

@[simp] theorem standing_issueOp (o : OpReq) (g t : Option Nat) : (d.issueOp o g t).1.standing = d.standing := by
  simp only [Dev.issueOp, standing_linkQueue]
  exact standing_modLink d rfl

@[simp] theorem standing_sendLctl (s : Nat) (n l : Bool) : (d.sendLctl s n l).standing = d.standing := standing_modLink d rfl

@[simp] theorem standing_acceptFlit (s v : Nat) : (d.acceptFlit s v).standing = d.standing := by
  simp only [Dev.acceptFlit]
  split
  · exact (standing_sendLctl _ s false false).trans (standing_modLink d rfl)
  · exact standing_modLink d rfl

@[simp] theorem standing_acceptMgmt (s n : Nat) : (d.acceptMgmt s n).standing = d.standing :=
  foldl_keeps Dev.standing _ (fun x _ => standing_acceptFlit x s 2) _ d

/-- Flits received end no operation. -/
theorem tags_acceptMgmt (s n : Nat) : ((d.acceptMgmt s n).link s).tags = (d.link s).tags := by
  refine foldl_keeps (fun x : Dev => (x.link s).tags) _ (fun x _ => ?_) _ d
  simp only [Dev.acceptFlit, Dev.sendLctl]
  split <;> simp only [Dev.emit_link, Dev.link_modLink]

/-! ### Grants -/

@[simp] theorem standing_startBusy (g : Nat) (r : OpReq) : (d.startBusy g r).standing = d.standing := by simp [Dev.startBusy]

@[simp] theorem standing_startRead (g : Nat) (r : OpReq) (n : Option Nat) : (d.startRead g r n).standing = d.standing := by
  cases n <;> exact standing_issueOp d r (some g) none

@[simp] theorem standing_startGrant (g : Nat) (r : OpReq) : (d.startGrant g r).standing = d.standing := by
  simp only [Dev.startGrant]
  split
  · rfl
  split
  · split
    · rfl
    · exact standing_startBusy d g r
  · exact standing_startRead d g r r.rid

@[simp] theorem standing_grant (n : Nat) (r : OpReq) (p : FloorPart × Bool) : (d.grant n r p).standing = d.standing :=
  standing_startGrant _ n r

@[simp] theorem standing_sluPump : d.sluPump.standing = d.standing := by
  refine foldl_keeps Dev.standing _ (fun x k => foldl_keeps Dev.standing _ (fun y w => ?_) _ x) _ d
  split
  · exact standing_grant y _ _ _
  · rfl

@[simp] theorem standing_dropSlotGrants (s : Nat) : (d.dropSlotGrants s).standing = d.standing := standing_sluPump _

end Sys2Proof.Machine
end

section
/-! PROOFS. Slots whose module goes (R244, R284, R288) and modules that are admitted (R301, R304): what the operations that end, power
off, quarantine or let in leave of a link and of its slot. -/

namespace Sys2Proof.Machine

variable (d : Dev)

/-! ### What leaves links and slots alone -/

@[simp] theorem aenAll_gl (e : AEvent) (w : Option Nat) (p : Fn → Bool) : (d.aenAll e w p).gl = d.gl := by
  have h := congrArg Dev.gl (butHost_aenAll d e w p)
  exact h

@[simp] theorem appendBcol_gl (a b : Nat) (c : Digest) (w : Nat) (x y : List Byte) : (d.appendBcol a b c w x y).gl = d.gl := by
  simp only [Dev.appendBcol]
  split <;> rfl

@[simp] theorem demand_gl (k : Nat) : (d.demand k).gl = d.gl := by
  have hon := congrArg Dev.gl (butMode_powerOn d k)
  change (d.powerOn k).gl = d.gl at hon
  simp only [Dev.demand]
  (repeat' split) <;> simp only [hon]

@[simp] theorem measureInv_gl : d.measureInv.gl = d.gl := by
  simp only [Dev.measureInv]
  split <;> rfl

@[simp] theorem linksSettled_gl : d.linksSettled.gl = d.gl := by
  simp only [Dev.linksSettled]
  split <;> rfl

@[simp] theorem setCond_gl (i : Nat) (v : Bool) : (d.setCond i v).gl = d.gl := by
  have h := congrArg Dev.gl (butCond_setCond d i v)
  exact h

@[simp] theorem quireConds_gl : d.quireConds.gl = d.gl := by
  simp only [Dev.quireConds]
  split <;> simp only [setCond_gl]

@[simp] theorem respreadIfWaiting_gl (q : Nat) : (d.respreadIfWaiting q).gl = d.gl := by
  simp only [Dev.respreadIfWaiting, Dev.startWork]
  (repeat' split) <;> simp

@[simp] theorem replaceHost_gl (q : Nat) (a : Bool) : (d.replaceHost q a).gl = d.gl := by
  simp only [Dev.replaceHost]
  (repeat' split) <;> simp

@[simp] theorem joinQuire_gl (s : Nat) (c : Colo) : (d.joinQuire s c).gl = d.gl := by
  simp only [Dev.joinQuire]
  (repeat' split) <;> simp

@[simp] theorem fillHosts_gl : d.fillHosts.gl = d.gl := by
  refine foldl_keeps Dev.gl _ (fun x q => ?_) _ d
  dsimp only
  (repeat' split) <;> simp

/-! ### Admission -/

theorem setWeirs_link (s j : Nat) : (d.setWeirs s).link j = d.link j := by
  simp only [Dev.setWeirs]
  split
  · rfl
  · refine (foldl_keeps (fun x : Dev => x.link j) _ (fun x y => ?_) _ _).trans (Dev.link_modSt d j s _)
    split <;> simp

theorem link_of_gl {a b : Dev} (h : a.gl = b.gl) (s : Nat) : a.link s = b.link s := by simp only [Dev.link, h]

/-- The dies, the failures held against the link and the weirs of a module that is admitted are its own. -/
theorem seated_link (s j n : Nat) (f : SlotSt → SlotSt) :
    (((((List.range n).foldl (fun x k => x.modDie s k (fun _ => .reset)) (d.modSt s f)).modLink s
      (fun l => { l with diesFailed := [], tagFailAt := [] })).setWeirs s).link j).standing = (d.link j).standing := by
  rw [setWeirs_link]
  refine (link_of_standing (standing_modLink _ rfl) j).trans (congrArg Link.standing ?_)
  exact (foldl_keeps (fun x : Dev => x.link j) (fun x k => x.modDie s k (fun _ => .reset)) (fun _ _ => rfl) _ _).trans (Dev.link_modSt d j s f)

/-- A module that is admitted, or is not yet, keeps its link's state and authentication. -/
theorem tryAdmit_link (s j : Nat) : ((d.tryAdmit s).link j).standing = (d.link j).standing := by
  simp only [Dev.tryAdmit]
  split
  · rfl
  split
  · rfl
  split
  · rw [link_of_gl (linksSettled_gl _), seated_link]
  · rw [link_of_gl (fillHosts_gl _), link_of_gl (joinQuire_gl _ _ _), link_of_gl (appendBcol_gl _ _ _ _ _ _ _),
      link_of_gl (aenAll_gl _ _ _ _), seated_link]

/-! ### A slot that is idle -/

theorem memberAt_of_quires {a b : Dev} (h : a.quires = b.quires) (s : Nat) (v : Bool) : a.memberAt s v = b.memberAt s v := by
  simp only [Dev.memberAt, h]

theorem hostOf_of_quires {a b : Dev} (h : a.quires = b.quires) (s : Nat) : a.hostOf s = b.hostOf s := by simp only [Dev.hostOf, h]

theorem quires_of_work {a b : Dev} (h : a.butWork = b.butWork) : a.quires = b.quires := congrArg Dev.quires (a₁ := a.butWork) (a₂ := b.butWork) h

theorem memberLost_none {s : Nat} (h : d.memberAt s true = none) : d.memberLost s = d := by simp only [Dev.memberLost, h]

theorem hostLost_none {s : Nat} (h : d.hostOf s = []) : d.hostLost s = d := by simp only [Dev.hostLost, h, List.foldl_nil]

/-- Ending the operations of a link that has none outstanding empties its dies and drops what was granted to it. -/
theorem endOps_idle {s : Nat} (h : (d.link s).tags = []) :
    d.endOps s none = ((List.range (d.diesOf s)).foldl (fun x k => x.modDie s k Die.emptied) d).dropSlotGrants s := by
  simp only [Dev.endOps, h, List.filter_nil, List.foldl_nil]

theorem endOps_idle_standing {s : Nat} (h : (d.link s).tags = []) : (d.endOps s none).standing = d.standing := by
  rw [endOps_idle d h, standing_dropSlotGrants]
  exact foldl_keeps Dev.standing (fun x k => x.modDie s k Die.emptied) (fun _ _ => rfl) _ d

theorem endOps_idle_butWork {s : Nat} (h : (d.link s).tags = []) : (d.endOps s none).butWork = d.butWork := by
  rw [endOps_idle d h, butWork_dropSlotGrants]
  exact foldl_keeps Dev.butWork (fun x k => x.modDie s k Die.emptied) (fun _ _ => rfl) _ d

/-! ### Power off -/

/-- What power-off leaves of a slot: its power, its reset, and the reset and colophon reading that ran. -/
def SlotSt.down (x : SlotSt) : SlotSt := { x with pwren := false, rst := true, pulse := false, reading := false }

theorem slotDown_slot (s : Nat) : (d.slotDown s).slot s = (d.slot s).down := Dev.slot_modSt d s SlotSt.down

theorem slotDown_quires (s : Nat) : (d.slotDown s).quires = d.quires := rfl

theorem linkDisable_st {s : Nat} (f : Bool) (h : (d.link s).st ≠ .quarantine) : ((d.linkDisable s f).link s).st = .disabled := by
  simp only [Dev.linkDisable, Dev.link_modLink, if_neg h]

/-- A link without its operations and its session. -/
def Link.cut (l : Link) : Link := { l with session := none, auth := 0, authStep := 0, tags := [] }

/-- A link whose slot is powered off holds no operation and no session secret, and is DISABLED unless it is quarantined. -/
theorem slotDown_link (s : Nat) : ((d.slotDown s).link s).tags = [] ∧ ((d.slotDown s).link s).session = none
    ∧ ((d.link s).st ≠ .quarantine → ((d.slotDown s).link s).st = .disabled) := by
  have h : (d.slotDown s).link s = (((d.modSt s SlotSt.down).linkDisable s true).link s).cut := Dev.link_modLink _ s Link.cut
  rw [h]
  exact ⟨rfl, rfl, fun hq => linkDisable_st (d.modSt s SlotSt.down) true hq⟩

/-- A module that is gone: its slot is powered off last, and forgets it. -/
theorem slotGone_eq (s : Nat) : ∃ e : Dev, d.slotGone s = (e.slotDown s).modSt s SlotSt.forget
    ∧ (d.idleSlot s → e.standing = d.standing) := by
  refine ⟨_, rfl, ?_⟩
  rintro ⟨hmember, hhost, htags⟩
  have hquires := quires_of_work (endOps_idle_butWork d htags)
  have hstand := endOps_idle_standing d htags
  rw [memberLost_none _ ((memberAt_of_quires hquires s true).trans hmember), hostLost_none _ ((hostOf_of_quires hquires s).trans hhost)]
  split
  · exact (standing_of_gl (by rw [appendBcol_gl, aenAll_gl])).trans hstand
  · exact hstand

theorem slotGone_slot (s : Nat) : ((d.slotGone s).slot s).pwren = false ∧ ((d.slotGone s).slot s).admitted = false
    ∧ (d.idleSlot s → (d.slotGone s).slot s = (d.slot s).forget) := by
  obtain ⟨e, he, hidle⟩ := slotGone_eq d s
  rw [he, Dev.slot_modSt, slotDown_slot]
  refine ⟨rfl, rfl, fun h => ?_⟩
  rw [slot_of_standing (hidle h)]
  rfl

theorem slotGone_link (s : Nat) : ((d.slotGone s).link s).tags = [] ∧ ((d.slotGone s).link s).session = none
    ∧ (d.idleSlot s → (d.link s).st ≠ .quarantine → ((d.slotGone s).link s).st = .disabled) := by
  obtain ⟨e, he, hidle⟩ := slotGone_eq d s
  obtain ⟨htags, hsession, hst⟩ := slotDown_link e s
  rw [he, Dev.link_modSt]
  refine ⟨htags, hsession, fun h hq => hst fun h' => hq ?_⟩
  exact (Link.st_of_standing (link_of_standing (hidle h) s)).symm.trans h'

/-! ### Quarantine -/

theorem quarantine_idle {s reason : Nat} (h : d.idleSlot s) (hst : (d.link s).st ≠ .quarantine) :
    ((d.quarantine s reason).link s).st = .quarantine ∧ ((d.quarantine s reason).link s).quar = reason := by
  obtain ⟨hmember, hhost, htags⟩ := h
  have hquires := quires_of_work (endOps_idle_butWork d htags)
  unfold Dev.quarantine
  rw [if_neg hst]
  extract_lets serial member down shut refused settled told
  have hset : settled = refused := by
    have hq : refused.quires = d.quires := (slotDown_quires (d.endOps s none) s).trans hquires
    exact (congrArg (Dev.hostLost · s) (memberLost_none refused ((memberAt_of_quires hq s true).trans hmember))).trans
      (hostLost_none refused ((hostOf_of_quires hq s).trans hhost))
  have hlink : told.link s = refused.link s := (Dev.ev_link _ _ _ _ s).trans (by rw [hset])
  have hend : (if member = true then told else told.aenAll (aeVendor 3)).link s = shut.link s := by
    split
    · exact hlink
    · exact (link_of_gl (aenAll_gl _ _ _ _) s).trans hlink
  rw [hend]
  simp only [shut, Dev.link_modLink]
  exact ⟨trivial, trivial⟩

theorem idleSlot_congr {d e : Dev} {s : Nat} (h : d.idleSlot s) (hquires : e.quires = d.quires) (htags : (e.link s).tags = (d.link s).tags) :
    e.idleSlot s := by
  obtain ⟨hmember, hhost, hnone⟩ := h
  exact ⟨(memberAt_of_quires hquires s true).trans hmember, (hostOf_of_quires hquires s).trans hhost, htags.trans hnone⟩

/-- A link whose authentication has failed. -/
def Link.denied (l : Link) : Link := { l with auth := 3, authStep := 0 }

/-- A module whose authentication fails while its slot is idle is quarantined for it. -/
theorem authFailed_idle {s : Nat} (h : d.idleSlot s) (hst : (d.link s).st ≠ .quarantine) :
    ((d.authFailed s).link s).st = .quarantine ∧ ((d.authFailed s).link s).quar = 2 := by
  unfold Dev.authFailed
  extract_lets failed fresh serial judged shut
  have hlink : judged.link s = (d.link s).denied := by
    dsimp only [judged]
    split
    · exact ((Dev.ev_link _ _ _ _ s).trans (Dev.link_modSt failed s s _)).trans (Dev.link_modLink d s Link.denied)
    · exact Dev.link_modLink d s Link.denied
  have hquires : judged.quires = d.quires := by
    dsimp only [judged]
    split
    · exact Dev.ev_quires _ _ _ _
    · rfl
  have htags : (judged.link s).tags = (d.link s).tags := by rw [hlink]; rfl
  have hst' : (judged.link s).st ≠ .quarantine := by rw [hlink]; exact hst
  have hshut := quarantine_idle judged (reason := 2) (idleSlot_congr h hquires htags) hst'
  split
  · rw [link_of_gl (linksSettled_gl _), Dev.link_modSt]
    exact hshut
  · exact hshut

end Sys2Proof.Machine
end

section
/-! PROOFS. O41: the transitions of a link (R260, R264 to R266, R275, R290). -/

namespace Sys2Proof.Machine

variable (d : Dev)

theorem linkUp_active {d : Dev} {k : Nat} (hk : k < 64) (h : (d.link k).st = .active) : d.linkUp k = true := by
  simp only [Dev.linkUp, hk, h, decide_true, Bool.and_self]

/-! ### Recovery -/

@[simp] theorem countLink_link (s off lo i j : Nat) : (d.countLink s off lo i).link j = d.link j := rfl
@[simp] theorem countLink_out (s off lo i : Nat) : (d.countLink s off lo i).out = d.out := rfl

/-- The entries into RECOVERY within 1 s before `t`. -/
def Link.recent (l : Link) (t : Nat) : List Nat := l.recovAt.filter (fun x => decide (t < x + 1000000000))

/-- A link that enters RECOVERY at `t`. -/
def Link.recovering (l : Link) (t : Nat) : Link := { l with st := .recovery, since := t, stuck := 0, recovAt := t :: l.recent t }

/-- A link with fewer than 16 entries into RECOVERY within 1 s enters it. -/
theorem enterRecovery_eq {s : Nat} (h : ((d.link s).recent d.now).length < 16) :
    d.enterRecovery s = (d.countLink s 0x10 0 1).modLink s (fun l => l.recovering d.now) := by
  have hlink : ((d.countLink s 0x10 0 1).modLink s (fun l => l.recovering d.now)).link s = (d.link s).recovering d.now :=
    (Dev.link_modLink _ s _).trans (by rw [countLink_link])
  unfold Dev.enterRecovery
  refine if_neg ?_
  change ¬16 < (((d.countLink s 0x10 0 1).modLink s (fun l => l.recovering d.now)).link s).recovAt.length
  rw [hlink]
  simp only [Link.recovering, List.length_cons]
  omega

theorem enterRecovery_link {s : Nat} (h : ((d.link s).recent d.now).length < 16) :
    (d.enterRecovery s).link s = (d.link s).recovering d.now := by
  rw [enterRecovery_eq d h, Dev.link_modLink, countLink_link]

theorem linkFault_link {s : Nat} (h : ((d.link s).recent d.now).length < 16) :
    (d.linkFault s).link s = (d.link s).recovering d.now := by
  rw [Dev.linkFault, enterRecovery_link _ (by rwa [Dev.ev_link, Dev.ev_now]), Dev.ev_link, Dev.ev_now]

theorem linkFault_out {s : Nat} (h : ((d.link s).recent d.now).length < 16) : (d.linkFault s).out = d.out := by
  rw [Dev.linkFault, enterRecovery_eq _ (by rwa [Dev.ev_link, Dev.ev_now]), Dev.modLink_out, countLink_out, Dev.ev_out]

/-! ### Replay -/

/-- The device once a replay has been counted. -/
def Dev.replayed (d : Dev) (s : Nat) : Dev := (d.count (aLnk s + 0x0C) 16 16).modLink s (fun l => { l with stuck := l.stuck + 1 })

theorem replayed_link (s : Nat) : (d.replayed s).link s = { d.link s with stuck := (d.link s).stuck + 1 } := by
  rw [Dev.replayed, Dev.link_modLink, Dev.count_link]

/-- The fourth replay in a row that does not help is a link fault. -/
theorem linkReplay_fault {s : Nat} (h : (d.link s).stuck = 3) : d.linkReplay s = (d.replayed s).linkFault s := by
  refine if_pos ?_
  change 4 ≤ ((d.replayed s).link s).stuck
  rw [replayed_link]
  exact Nat.le_of_eq (congrArg (· + 1) h.symm)

theorem linkReplay_resend {s : Nat} (h : (d.link s).stuck < 3) : d.linkReplay s = (d.replayed s).linkResend s := by
  refine if_neg ?_
  change ¬4 ≤ ((d.replayed s).link s).stuck
  rw [replayed_link]
  exact Nat.not_le.mpr (Nat.succ_lt_succ h)

theorem foldl_emit_out (l : List Out) : (l.foldl Dev.emit d).out = l.reverse ++ d.out := by
  induction l generalizing d with
  | nil => rfl
  | cons o l ih => simp [ih]

/-- Every flit kept for replay is sent again, the oldest first. -/
theorem linkResend_eq (s : Nat) :
    d.linkResend s = ((d.link s).replay.map (fun r => Out.flit s r.what.kind r.what.arg r.n)).foldl Dev.emit d := by
  rw [Dev.linkResend, List.foldl_map]

theorem linkResend_link (s j : Nat) : (d.linkResend s).link j = d.link j := by
  rw [linkResend_eq]
  exact foldl_keeps (fun x : Dev => x.link j) Dev.emit (fun x o => Dev.emit_link x o j) _ d

theorem linkResend_out (s : Nat) :
    (d.linkResend s).out = ((d.link s).replay.map (fun r => Out.flit s r.what.kind r.what.arg r.n)).reverse ++ d.out := by
  rw [linkResend_eq, foldl_emit_out]

theorem replayTimer_due {d : Dev} {s : Nat} (hs : s < 64) (hst : (d.link s).st = .active) (h : (d.link s).replay ≠ []) :
    replayTimer s d = d.linkReplay s := by
  simp [replayTimer, linkUp_active hs hst, h]

/-! ### Back to ACTIVE -/

/-- A link that is ACTIVE from `t` on. -/
def Link.activated (l : Link) (t : Nat) : Link := { l with st := .active, since := t, stuck := 0, viaDetect := false }

/-- A link that becomes ACTIVE without authentication keeps the rest of its standing. -/
theorem linkActive_standing (s : Nat) :
    ((d.linkActive s false).link s).standing = ((d.link s).activated d.now).standing := by
  simp only [Dev.linkActive, Bool.false_eq_true, if_false]
  refine (link_of_standing (standing_linkPump _ s) s).trans ?_
  rw [Dev.link_modLink, Dev.link_modLink]
  rfl

theorem lockRegained_due {d : Dev} {s : Nat} (hs : s < 64) (hst : (d.link s).st = .recovery) :
    lockRegained s d = (d.linkActive s false).sluPump := if_pos ⟨hs, hst⟩

theorem linkActive_butWork (s : Nat) : (d.linkActive s false).butWork = d.butWork := by
  simp only [Dev.linkActive, Bool.false_eq_true, if_false, butWork_linkPump, butWork_modLink]

/-! ### Training -/

/-- A link that a partner has answered in DETECT at `t`. -/
def Link.detected (l : Link) (t : Nat) : Link :=
  { l with st := .train, viaDetect := true, since := t, detectAt := t :: l.detectAt.filter (fun x => decide (t < x + 60000000000)) }

/-- A link with fewer than 3 trainings through DETECT within 60 s trains. -/
theorem partnerDetected_due {d : Dev} {s : Nat} (hs : s < 64) (hst : (d.link s).st = .detect)
    (h : ((d.link s).detectAt.filter (fun x => decide (d.now < x + 60000000000))).length < 3) :
    (partnerDetected s d).link s = (d.link s).detected d.now := by
  have hlink : ((d.countLink s 0x10 16 2).modLink s (fun l => l.detected d.now)).link s = (d.link s).detected d.now :=
    (Dev.link_modLink _ s _).trans (by rw [countLink_link])
  have hfew : ¬3 < (((d.countLink s 0x10 16 2).modLink s (fun l => l.detected d.now)).link s).detectAt.length := by
    rw [hlink]
    simp only [Link.detected, List.length_cons]
    omega
  rw [partnerDetected, if_pos ⟨hs, hst⟩]
  exact (congrArg (Dev.link · s) (if_neg hfew)).trans hlink

theorem sendInit_link (s : Nat) : (d.sendInit s).link s = { d.link s with initSent := (d.link s).initSent + 1 } := by
  rw [Dev.sendInit, Dev.link_modLink, Dev.emit_link]

theorem sendInit_out (s : Nat) : (d.sendInit s).out = .flit s 2 (bit (d.link s).gotInit) 1 :: d.out := rfl

/-- A link that has trained on a set of lanes and has sent no INIT yet. -/
def Link.trained (l : Link) (w : Nat) (rev : Bool) : Link :=
  { l with st := .init, width := w, reversed := rev, oldWidth := w, eqSaved := true, gotInit := false, peerSeen := false, initSent := 0 }

/-- A link that has trained sends INIT; where it is narrower than before, that is recorded. -/
theorem trainingDone_due {d : Dev} {s w : Nat} {rev : Bool} (hs : s < 64) (hst : (d.link s).st = .train) (hw : w = 1 ∨ w = 2 ∨ w = 4) :
    ∃ e : Dev, trainingDone s w rev d = (e.modLink s (fun l => l.trained w rev)).sendInit s ∧ e.link s = d.link s ∧ e.out = d.out := by
  refine ⟨if w < (d.link s).oldWidth then d.ev evGlLinkNarrow (s / 8) [.num 1 s, .num 1 w] else d, if_pos ⟨hs, hst, hw⟩, ?_⟩
  split
  · exact ⟨Dev.ev_link _ _ _ _ s, Dev.ev_out _ _ _ _⟩
  · exact ⟨rfl, rfl⟩

/-! ### Low power -/

/-- A link that leaves low power is ACTIVE, asks for low power no more, and keeps its session. -/
theorem lowPowerExit_due {d : Dev} {s : Nat} (hs : s < 64) (hst : (d.link s).st = .lowPower) :
    ((lowPowerExit s d).link s).st = .active ∧ ((lowPowerExit s d).link s).lpReq = false
    ∧ ((lowPowerExit s d).link s).session = (d.link s).session := by
  have hact := linkActive_standing (d.demand (glDom s)) s
  rw [link_of_gl (demand_gl d (glDom s)) s] at hact
  have hpump := link_of_standing (standing_sluPump (((d.demand (glDom s)).linkActive s false).modLink s (fun l => { l with lpReq := false }))) s
  rw [Dev.link_modLink] at hpump
  rw [lowPowerExit, if_pos ⟨hs, hst⟩]
  exact ⟨(Link.st_of_standing hpump).trans ((Link.st_of_standing hact).trans rfl), (Link.lpReq_of_standing hpump).trans rfl,
    (Link.session_of_standing hpump).trans ((Link.session_of_standing hact).trans rfl)⟩

/-- Settles O41, from what enters RECOVERY (`enterRecovery_link`, `linkFault_link`), what a replay does, and what a link that becomes
ACTIVE keeps (`linkActive_standing`). -/
theorem linkTransitions : Obligations.LinkTransitions := by
  rintro s k _ hk rfl
  refine ⟨fun hst hfew => ⟨⟨s.onDev (silenceTimer k), rfl, rfl, ?_⟩, fun lane hlane => ⟨s.onDev (blockLockLost k lane), rfl, rfl, ?_⟩,
      fun hready => ⟨s.onDev (linkRetrain k), rfl, rfl, ?_⟩, fun hreplay hstuck => ⟨s.onDev (replayTimer k), rfl, rfl, ?_⟩⟩,
    fun hst lane hlane => next_onDev ?_, fun hst hready => ⟨s.onDev (linkRetrain k), rfl, rfl, ?_⟩,
    fun hst hreplay hstuck => ⟨s.onDev (replayTimer k), rfl, rfl, ?_⟩, fun hst hreplay => next_onDev ?_,
    fun hst => ⟨⟨s.onDev (lockRegained k), rfl, rfl, ?_⟩, ⟨s.onDev (recoveryTimer k), rfl, rfl, ?_⟩⟩,
    fun hst hfew => ⟨s.onDev (partnerDetected k), rfl, rfl, ?_⟩,
    fun hst w rev hw => ⟨s.onDev (trainingDone k w rev), rfl, rfl, ?_⟩, fun hst => ⟨s.onDev (trainingTimeout k), rfl, rfl, ?_⟩,
    fun hst => ⟨s.onDev (initResend k), rfl, rfl, ?_⟩, fun hst => ⟨s.onDev (lowPowerExit k), rfl, rfl, lowPowerExit_due hk hst⟩⟩
  · rw [State.onDev_dev, silenceTimer, if_pos (linkUp_active hk hst)]
    exact linkFault_link s.dev hfew
  · rw [State.onDev_dev, blockLockLost, if_pos (by simp [linkUp_active hk hst, hlane]), linkFault_link s.dev hfew]
    exact ⟨rfl, rfl, rfl⟩
  · rw [State.onDev_dev, linkRetrain, if_neg (by simp [hready, hk]), if_pos hst,
      enterRecovery_link _ (by rw [Dev.link_modLink]; exact hfew), Dev.link_modLink]
    exact ⟨rfl, rfl⟩
  · have hlink := replayed_link s.dev k
    have hfew' : (((s.dev.replayed k).link k).recent (s.dev.replayed k).now).length < 16 := by
      rw [hlink]
      exact hfew
    rw [State.onDev_dev, replayTimer_due hk hst hreplay, linkReplay_fault s.dev hstuck, linkFault_link _ hfew', linkFault_out _ hfew']
    exact ⟨rfl, rfl⟩
  · exact if_neg (by simp [Nat.not_lt.mpr hlane])
  · rw [State.onDev_dev, linkRetrain, if_neg (by simp [hready, hk]), if_neg hst, Dev.link_modLink]
  · rw [State.onDev_dev, replayTimer_due hk hst hreplay, linkReplay_resend s.dev hstuck, linkResend_link, linkResend_out, replayed_link]
    exact ⟨rfl, rfl⟩
  · exact if_neg (by simp [hreplay])
  · have hlink := (link_of_standing (standing_sluPump (s.dev.linkActive k false)) k).trans (linkActive_standing s.dev k)
    rw [State.onDev_dev, lockRegained_due hk hst, butWork_sluPump, linkActive_butWork]
    exact ⟨(Link.st_of_standing hlink).trans rfl, (Link.since_of_standing hlink).trans rfl, (Link.session_of_standing hlink).trans rfl, rfl⟩
  · rw [State.onDev_dev, recoveryTimer, if_pos ⟨hk, hst⟩, Dev.link_modLink]
  · exact partnerDetected_due hk hst hfew
  · obtain ⟨e, he, hlink, hout⟩ := trainingDone_due (rev := rev) hk hst hw
    rw [State.onDev_dev, he, sendInit_link, sendInit_out, Dev.link_modLink, hlink, Dev.modLink_out, hout]
    exact ⟨rfl, rfl⟩
  · rw [State.onDev_dev, trainingTimeout, if_pos ⟨hk, hst⟩, Dev.link_modLink]
  · rw [State.onDev_dev, initResend, if_pos ⟨hk, hst⟩, sendInit_link, sendInit_out]
    exact ⟨rfl, rfl⟩

end Sys2Proof.Machine
end

section
/-! PROOFS. O43: authentication of modules, operation timers, unresponsive modules and quarantine requests (R275, R277, R278, R280 to
R284, R291). -/

namespace Sys2Proof.Machine

variable (d : Dev)

/-! ### Authentication -/

/-- A link that is authenticated. -/
def Link.proven (l : Link) : Link := { l with auth := 1, authStep := 0 }

/-- A link that has formed a session secret and has yet to be confirmed by its module. -/
def Link.keyed (l : Link) (ss t : Digest) : Link := { l with session := some ss, authT := t, authStep := 2 }

theorem acceptMgmt_link (s n : Nat) : ((d.acceptMgmt s n).link s).standing = (d.link s).standing :=
  link_of_standing (standing_acceptMgmt d s n) s

theorem acceptMgmt_quires (s n : Nat) : (d.acceptMgmt s n).quires = d.quires := quires_of_work (butWork_acceptMgmt d s n)

theorem acceptMgmt_idle {s : Nat} (n : Nat) (h : d.idleSlot s) : (d.acceptMgmt s n).idleSlot s :=
  idleSlot_congr h (acceptMgmt_quires d s n) (tags_acceptMgmt d s n)

/-- A link that is proven stays so while its module is admitted and requests that waited are granted. -/
theorem proven_link (s : Nat) :
    (((((d.acceptMgmt s 1).modLink s (fun l => { l with auth := 1, authStep := 0 })).tryAdmit s).sluPump).link s).standing
      = (d.link s).proven.standing := by
  refine (link_of_standing (standing_sluPump _) s).trans ((tryAdmit_link _ s s).trans ?_)
  rw [Dev.link_modLink]
  exact congrArg Link.proven (acceptMgmt_link d s 1)

/-! ### Sending -/

/-- An operation that is issued stands under a tag of its link. -/
theorem issueOp_tag (o : OpReq) (g t : Option Nat) :
    ∃ n e, ((d.issueOp o g t).1.link o.slot).tags.get? n = some e ∧ e.op = o ∧ e.target = t := by
  simp only [Dev.issueOp, Dev.linkQueue, tags_linkPump, Dev.link_modLink]
  exact ⟨_, _, Tbl.get?_ins_same _ _ _, rfl, rfl⟩

/-- A management message leaves the block; whether a PONG is awaited is as before. -/
theorem sendMgmt_sends (s t : Nat) (c : List Byte) :
    ((d.sendMgmt s t c).link s).ping = (d.link s).ping ∧ Out.mgmtMsg s t c ∈ (d.sendMgmt s t c).out := by
  simp only [Dev.sendMgmt, Dev.linkQueue]
  refine ⟨?_, (out_linkPump _ s).subset (List.mem_cons_self ..)⟩
  obtain ⟨q, r, n, x, h⟩ := link_linkPump
    ((d.emit (.mgmtMsg s t c)).modLink s (fun l => { l with txQueue := l.txQueue ++ [⟨2, mgmtFlits c.length, .mgmt t⟩] })) s
  rw [h, Dev.link_modLink, Dev.emit_link]

theorem wouldBreak_idle {d : Dev} {s : Nat} (h : d.idleSlot s) : d.wouldBreak s = false := by
  obtain ⟨hmember, -, -⟩ := h
  simp only [Dev.wouldBreak, hmember]

section
variable {d : Dev} {s : Nat} (hs : s < 64) (hst : (d.link s).st = .active)
include hs hst

/-- A response whose signature verifies forms the session secret (R280). -/
theorem authResponse_verified {qm : BitVec 776} {sig : BitVec 768} {c : Colo} (hc : d.colo s = some c) (hstep : (d.link s).authStep = 1)
    (hok : Config.ecdsaOk (slice c.bytes 0x1300 128)
      (Config.sha384 (ascii "CX512 GLAUTH" ++ leBytes 1 s ++ (d.link s).challenge ++ leBytes 97 qm.toNat ++ digestBytes c.digest))
      (leBytes 96 sig.toNat ++ List.replicate 32 0) = true) :
    ((authResponse s qm sig d).link s).standing = ((d.link s).keyed (Config.sessionSecret (d.link s).nonce (leBytes 97 qm.toNat))
      (Config.sha384 ((d.link s).challenge ++ leBytes 97 qm.toNat ++ leBytes 96 sig.toNat))).standing := by
  have hcolo : (d.acceptMgmt s 2).colo s = some c := (colo_of_standing (standing_acceptMgmt d s 2) s).trans hc
  simp only [authResponse, linkUp_active hs hst, Bool.not_true, Bool.false_eq_true, if_false, hcolo, hstep, ne_eq, not_true_eq_false, hok,
    if_true]
  refine (link_of_standing (standing_sendMgmt _ _ _ _) s).trans ?_
  rw [Dev.link_modLink]
  exact congrArg (Link.keyed · _ _) (acceptMgmt_link d s 2)

/-- A confirmation that the module computed authenticates the link (R280). -/
theorem authConfirm_verified {ss : Digest} (hss : (d.link s).session = some ss) (hstep : (d.link s).authStep = 2) :
    ((authConfirm s (Config.hmac384 (digestBytes ss) (ascii "M" ++ digestBytes (d.link s).authT)) d).link s).standing
      = (d.link s).proven.standing := by
  simp only [authConfirm, linkUp_active hs hst, Bool.not_true, Bool.false_eq_true, if_false, hss, hstep, ne_eq, not_true_eq_false, if_true]
  exact proven_link d s

/-- A response that the module computed with the session secret authenticates the link again (R281). -/
theorem reauthResponse_verified {ss : Digest} (hss : (d.link s).session = some ss) (hstep : (d.link s).authStep = 3) :
    ((reauthResponse s (Config.hmac384 (digestBytes ss) (ascii "R" ++ nonceOf (d.link s).nonce ++ leBytes 1 s)) d).link s).standing
      = (d.link s).proven.standing := by
  simp only [reauthResponse, linkUp_active hs hst, Bool.not_true, Bool.false_eq_true, if_false, hss, hstep, ne_eq, not_true_eq_false, if_true]
  exact proven_link d s

/-- Any other confirmation is an authentication failure (R282). -/
theorem authConfirm_wrong {ss h : Digest} (hss : (d.link s).session = some ss) (hstep : (d.link s).authStep = 2)
    (hne : h ≠ Config.hmac384 (digestBytes ss) (ascii "M" ++ digestBytes (d.link s).authT)) :
    authConfirm s h d = (d.acceptMgmt s 1).authFailed s := by
  simp only [authConfirm, linkUp_active hs hst, Bool.not_true, Bool.false_eq_true, if_false, hss, hstep, ne_eq, not_true_eq_false, if_neg hne]

/-! ### Slow partners -/

/-- The first expiry of an operation's timer asks for STATUS (R277). -/
theorem operationTimer_first {tag : Nat} {e : TagEnt} (he : (d.link s).tags.get? tag = some e) (htries : e.tries = 0) :
    ∃ n e', ((operationTimer s tag d).link s).tags.get? n = some e' ∧ e'.op = OpReq.bare .status s e.op.die .freshFill ∧ e'.target = some tag
      ∧ (operationTimer s tag d).butWork = d.butWork := by
  simp only [operationTimer, linkUp_active hs hst, Bool.not_true, Bool.false_eq_true, if_false, Dev.tagEnt, he, htries, Dev.bareOp,
    (by decide : ¬1 ≤ 0)]
  obtain ⟨n, e', hget, hop, htarget⟩ := issueOp_tag
    (d.modLink s (fun l => { l with tags := l.tags.ins tag { e with tries := 1 } })) (OpReq.bare .status s e.op.die .freshFill) none (some tag)
  exact ⟨n, e', hget, hop, htarget, (butWork_issueOp _ _ _ _).trans (butWork_modLink _ _ _)⟩

/-- A link without progress for 1 ms is probed (R275). -/
theorem progressProbe_due (htags : (d.link s).tags ≠ []) (hlate : (d.link s).progressAt + 1000000 ≤ d.now) :
    progressProbe s d = (d.modLink s (fun l => { l with ping := true })).sendMgmt s 1 (leBytes 8 d.now) :=
  if_pos (by simp [linkUp_active hs hst, htags, hlate])

end

/-- Settles O43, from what a verified message leaves of a link (`authResponse_verified`, `authConfirm_verified`,
`reauthResponse_verified`), the quarantine of an idle slot (`authFailed_idle`, `quarantine_idle`), and what a slot whose module is gone
keeps (`slotGone_slot`, `slotGone_link`). -/
theorem authenticationAndTimers : Obligations.AuthenticationAndTimers := by
  rintro s k _ hk rfl
  refine ⟨fun hst => ⟨fun qm sig c hc hstep hok => ⟨s.onDev (authResponse k qm sig), rfl, rfl, ?_⟩,
      fun ss hss hstep => ⟨s.onDev (authConfirm k _), rfl, rfl, ?_⟩,
      fun ss hss hstep => ⟨s.onDev (reauthResponse k _), rfl, rfl, ?_⟩,
      fun ss h hss hstep hne hidle => ⟨s.onDev (authConfirm k h), rfl, rfl, ?_⟩,
      fun tag e he htries => ?_,
      fun htags hlate => ⟨s.onDev (progressProbe k), rfl, rfl, ?_⟩, fun hnone => next_onDev ?_⟩,
    fun hstep hst hidle => ⟨s.onDev (authTimeout k), rfl, rfl, ?_⟩, fun hstep => next_onDev ?_,
    fun hq hd htags hlate => ⟨s.onDev (unresponsive k), rfl, rfl, ?_⟩,
    fun hready => ⟨fun hoff => ⟨s.onDev (linkQuarantine k), rfl, rfl, ?_⟩, fun hq hon hbreak => ⟨s.onDev (linkQuarantine k), rfl, rfl, ?_⟩,
      fun hq hon hidle => ⟨s.onDev (linkQuarantine k), rfl, rfl, ?_⟩⟩⟩
  · have h := authResponse_verified hk hst hc hstep hok
    exact ⟨(Link.authStep_of_standing h).trans rfl, (Link.session_of_standing h).trans rfl, (Link.authT_of_standing h).trans rfl⟩
  · have h := authConfirm_verified hk hst hss hstep
    exact ⟨(Link.auth_of_standing h).trans rfl, (Link.authStep_of_standing h).trans rfl, (Link.session_of_standing h).trans hss⟩
  · have h := reauthResponse_verified hk hst hss hstep
    exact ⟨(Link.auth_of_standing h).trans rfl, (Link.authStep_of_standing h).trans rfl, (Link.session_of_standing h).trans hss⟩
  · have hst' := Link.st_of_standing (acceptMgmt_link s.dev k 1)
    rw [State.onDev_dev, authConfirm_wrong hk hst hss hstep hne]
    exact authFailed_idle _ (acceptMgmt_idle s.dev 1 hidle) (by simp [hst', hst])
  · obtain ⟨n, e', hget, hop, htarget, hwork⟩ := operationTimer_first hk hst he htries
    exact ⟨s.onDev (operationTimer k tag), n, e', rfl, rfl, hget, by rw [hop]; rfl, by rw [hop]; rfl, htarget, hwork⟩
  · rw [State.onDev_dev, progressProbe_due hk hst htags hlate, butWork_sendMgmt, butWork_modLink]
    obtain ⟨hping, hmsg⟩ := sendMgmt_sends (s.dev.modLink k (fun l => { l with ping := true })) k 1 (leBytes 8 s.dev.now)
    exact ⟨hping.trans (by rw [Dev.link_modLink]), hmsg, rfl⟩
  · refine if_neg ?_
    rcases hnone with h | h
    · simp [h]
    · simp [Nat.not_le.mpr h]
  · rw [State.onDev_dev, authTimeout, if_pos ⟨hk, hstep⟩]
    exact authFailed_idle _ hidle hst
  · exact if_neg (by simp [hstep])
  · obtain ⟨hpwren, hadmitted, -⟩ := slotGone_slot s.dev k
    obtain ⟨htags', hsession, -⟩ := slotGone_link s.dev k
    rw [State.onDev_dev, unresponsive, if_pos ⟨hk, hq, hd, by simp [htags], hlate⟩, Dev.slot_modSt, Dev.link_modSt]
    exact ⟨hpwren, hadmitted, htags', hsession⟩
  · rw [State.onDev_dev, linkQuarantine, if_neg (by simp [hready, hk]), if_pos hoff, Dev.link_modLink]
  · rw [State.onDev_dev, linkQuarantine, if_neg (by simp [hready, hk]), if_neg (by simp [hq, hon]), if_pos hbreak, Dev.link_modLink]
  · obtain ⟨hst', hquar⟩ := quarantine_idle s.dev (reason := 6) hidle hq
    rw [State.onDev_dev, linkQuarantine, if_neg (by simp [hready, hk]), if_neg (by simp [hq, hon]), if_neg (by simp [wouldBreak_idle hidle]),
      Dev.link_modLink]
    exact ⟨hst', hquar, rfl⟩

end Sys2Proof.Machine
end

section
/-! PROOFS. O44: sideband commands and the timers of a slot (R278, R285, R286, R310). -/

namespace Sys2Proof.Machine

variable (d : Dev)

theorem slot_of_gl {a b : Dev} (h : a.gl = b.gl) (s : Nat) : a.slot s = b.slot s := by simp only [Dev.slot, h]

/-! ### Sideband commands (R285, R286) -/

/-- The device with the result of a sideband command in GL_SB_CMD. -/
def Dev.answered (d : Dev) (r : Nat) : Dev := { d with gl := { d.gl with sbResult := r } }

theorem sbCmd_refused {s : Nat} (f : Dev → Dev) (h : (d.slot s).present = false ∨ d.slotEnabled s = false) :
    d.sbCmd s f = d.answered 2 := by
  have hno : (!((d.slot s).present && d.slotEnabled s)) = true := by
    rcases h with h | h <;> simp [h]
  simp only [Dev.sbCmd, hno, if_true]
  rfl

section
variable {d : Dev} {s : Nat} (hpresent : (d.slot s).present = true) (hon : d.slotEnabled s = true)
include hpresent hon

theorem sbCmd_held (f : Dev → Dev) (h : d.slotHeld s = true) : d.sbCmd s f = d.answered 1 := by
  simp only [Dev.sbCmd, hpresent, hon, h, Bool.and_self, Bool.not_true, Bool.false_eq_true, if_false, if_true]
  rfl

theorem sbCmd_runs (f : Dev → Dev) (h : d.slotHeld s = false) : d.sbCmd s f = f (d.answered 0) := by
  simp only [Dev.sbCmd, hpresent, hon, h, Bool.and_self, Bool.not_true, Bool.false_eq_true, if_false, if_true]
  rfl

end

theorem slotHeld_idle {d : Dev} {s : Nat} (h : d.idleSlot s) (hst : (d.link s).st ≠ .quarantine) : d.slotHeld s = false := by
  obtain ⟨hmember, hhost, -⟩ := h
  simp [Dev.slotHeld, hmember, hhost, hst]

/-- Every slot command is a sideband command. -/
theorem exec_sbCmd {k : Nat} (hk : k < 64) (s : State) {c : Instr} (hc : c ∈ [Instr.slotPowerOn k, .slotPowerOff k, .slotResetPulse k]) :
    ∃ f : Dev → Dev, exec c s = .next { s with dev := s.dev.sbCmd k f } := by
  simp only [List.mem_cons, List.not_mem_nil, or_false] at hc
  obtain rfl | rfl | rfl := hc
  · exact ⟨_, next_onDev (f := slotPowerOn k) (if_pos hk)⟩
  · exact ⟨_, next_onDev (f := slotPowerOff k) (if_pos hk)⟩
  · exact ⟨_, next_onDev (f := slotResetPulse k) (if_pos hk)⟩

/-- A slot that is powered: GPWREN asserted, GRST_N held. -/
def SlotSt.up (x : SlotSt) : SlotSt := { x with pwren := true, rst := true }

theorem slotUp_gl {d : Dev} {s : Nat} (hblocked : (d.slot s).blocked = false) (hoff : (d.slot s).pwren = false) :
    (d.slotUp s).gl = (d.modSt s SlotSt.up).gl := by
  simp only [Dev.slotUp, hblocked, hoff, Bool.or_self, Bool.false_eq_true, if_false, demand_gl]
  rfl

/-- The result of a sideband command stands when the module of an idle slot has gone. -/
theorem slotGone_sbResult {s : Nat} (h : d.idleSlot s) : (d.slotGone s).gl.sbResult = d.gl.sbResult := by
  obtain ⟨e, he, hidle⟩ := slotGone_eq d s
  have hresult : e.gl.sbResult = d.gl.sbResult := congrArg (fun p => p.2.sbResult) (hidle h)
  rw [he]
  exact hresult

/-- A slot whose module is reset: GRST_N asserted for its pulse. -/
def SlotSt.pulsed (x : SlotSt) : SlotSt := { x with rst := true, pulse := true, admitted := false }

/-- The reset of the module in an idle slot discards its session secret and disables its link. -/
def Dev.pulseSlot (d : Dev) (s : Nat) : Dev := (((d.endOps s none).linkDisable s false).modLink s Link.cut).modSt s SlotSt.pulsed

theorem pulseSlot_idle {s : Nat} (h : d.idleSlot s) (hst : (d.link s).st ≠ .quarantine) :
    (d.pulseSlot s).slot s = (d.slot s).pulsed ∧ ((d.pulseSlot s).link s).st = .disabled ∧ ((d.pulseSlot s).link s).session = none
    ∧ ((d.pulseSlot s).link s).auth = 0 ∧ (d.pulseSlot s).gl.sbResult = d.gl.sbResult := by
  obtain ⟨-, -, htags⟩ := h
  have hstand := endOps_idle_standing d htags
  have hst' : ((d.endOps s none).link s).st ≠ .quarantine := by rwa [Link.st_of_standing (link_of_standing hstand s)]
  have hlink : (d.pulseSlot s).link s = (((d.endOps s none).linkDisable s false).link s).cut := Dev.link_modLink _ s Link.cut
  have hslot : (d.pulseSlot s).slot s = ((d.endOps s none).slot s).pulsed := Dev.slot_modSt _ s SlotSt.pulsed
  have hresult : (d.endOps s none).gl.sbResult = d.gl.sbResult := congrArg (fun p => p.2.sbResult) hstand
  rw [hlink, hslot, slot_of_standing hstand]
  exact ⟨rfl, linkDisable_st (d.endOps s none) false hst', rfl, rfl, hresult⟩

/-! ### Slot timers (R278, R285, R286) -/

theorem linkEnable_stays {s : Nat} (h : (d.link s).st ≠ .disabled) : d.linkEnable s = d := if_neg (by simp [h])

@[simp] theorem linkEnable_slot (s j : Nat) : (d.linkEnable s).slot j = d.slot j := by
  simp only [Dev.linkEnable]
  split <;> rfl

@[simp] theorem linkEnable_butSlots (s : Nat) : (d.linkEnable s).butSlots = d.butSlots := by
  simp only [Dev.linkEnable]
  split <;> rfl

/-- A link in DISABLED whose domain is ON and whose slot is powered and out of reset goes to DETECT. -/
theorem linkEnable_starts {d : Dev} {s : Nat} (hst : (d.link s).st = .disabled) (hready : d.domReady (glDom s) = true)
    (hctrl : bitOf (d.csrW aGlCtrl).toNat 0 = true) (hpower : (d.slot s).pwren = true) (hrst : (d.slot s).rst = false)
    (hon : d.slotEnabled s = true) : (d.linkEnable s).link s = { d.link s with st := .detect, since := d.now } := by
  simp only [Dev.linkEnable, hst, hready, hctrl, hpower, hrst, hon, decide_true, Bool.not_false, Bool.and_self, if_true]
  rw [Dev.link_modLink]

/-- A slot whose module comes out of reset at `t`. -/
def SlotSt.released (x : SlotSt) (t : Nat) : SlotSt :=
  { x with rst := false, pulse := false, releasedAt := t, reading := x.reading || x.inserting }

theorem slotResetRelease_due {d : Dev} {s : Nat} (hpower : (d.slot s).pwren = true) (hrst : (d.slot s).rst = true) :
    slotResetRelease s d = (d.modSt s (fun x => x.released d.now)).linkEnable s := if_pos (by simp [hpower, hrst])

/-- Insertion into an enabled slot that is not blocked and whose bus works powers the slot on. -/
theorem startInsertion_powers {d : Dev} {s : Nat} (hon : d.slotEnabled s = true) (hblocked : (d.slot s).blocked = false)
    (hfailed : bitOf d.gl.busFailed.toNat (s / 8) = false) (hstuck : bitOf d.gl.busStuck.toNat (s / 8) = false) :
    d.startInsertion s = (d.modSt s (fun x => { x with inserting := true })).slotUp s := by
  simp only [Dev.startInsertion, hon, hblocked, Bool.not_true, Bool.false_eq_true, if_false]
  exact if_neg (by simp [busOf, Dev.modSt, hfailed, hstuck])

theorem startInsertion_slot {d : Dev} {s : Nat} (hon : d.slotEnabled s = true) (hblocked : (d.slot s).blocked = false)
    (hfailed : bitOf d.gl.busFailed.toNat (s / 8) = false) (hstuck : bitOf d.gl.busStuck.toNat (s / 8) = false)
    (hoff : (d.slot s).pwren = false) : (d.startInsertion s).slot s = { d.slot s with inserting := true, pwren := true, rst := true } := by
  have hslot := Dev.slot_modSt d s (fun x => { x with inserting := true })
  rw [startInsertion_powers hon hblocked hfailed hstuck,
    slot_of_gl (slotUp_gl (by rw [hslot]; exact hblocked) (by rw [hslot]; exact hoff)), Dev.slot_modSt, hslot]
  rfl

/-- A slot whose module was unresponsive, before it is powered again. -/
def SlotSt.retried (x : SlotSt) : SlotSt := { x with cycled := false, validated := false, colo := none, outcome := 0 }

theorem unresponsiveCycle_due {d : Dev} {s : Nat} (hs : s < 64) (hcycled : (d.slot s).cycled = true) (hpresent : (d.slot s).present = true)
    (hoff : (d.slot s).pwren = false) (hblocked : (d.slot s).blocked = false) :
    unresponsiveCycle s d = (d.modSt s SlotSt.retried).startInsertion s := if_pos ⟨hs, hcycled, hpresent, hoff, hblocked⟩

/-- Settles O44, from what a sideband command runs (`sbCmd_refused`, `sbCmd_held`, `sbCmd_runs`), what it leaves of an idle slot
(`slotGone_slot`, `slotGone_link`, `pulseSlot_idle`), and what starts a link and an insertion. -/
theorem slotCommandsAndTimers : Obligations.SlotCommandsAndTimers := by
  rintro s k _ hk rfl
  refine ⟨fun hno c hc => ?_, fun hpresent hon => ⟨fun hheld c hc => ?_, fun hfree hblocked hoff =>
      ⟨s.onDev (slotPowerOn k), rfl, rfl, ?_⟩, fun hidle hst => ⟨⟨s.onDev (slotPowerOff k), rfl, rfl, ?_⟩,
      ⟨s.onDev (slotResetPulse k), rfl, rfl, ?_⟩⟩⟩,
    fun hpower hrst => ⟨s.onDev (slotResetRelease k), rfl, rfl, ?_⟩, fun hno => next_onDev (if_neg ?_),
    fun hgone hshut => ⟨s.onDev (quarantineRelease k), rfl, rfl, ?_⟩, fun hno => next_onDev (if_neg ?_),
    fun hcycled hpresent hoff hblocked hon hfailed hstuck => ⟨s.onDev (unresponsiveCycle k), rfl, rfl, ?_⟩,
    fun hno => next_onDev (if_neg ?_)⟩
  · obtain ⟨f, hf⟩ := exec_sbCmd hk s hc
    rw [hf, sbCmd_refused s.dev f hno]
    rfl
  · obtain ⟨f, hf⟩ := exec_sbCmd hk s hc
    rw [hf, sbCmd_held hpresent hon f hheld]
    rfl
  · rw [State.onDev_dev, slotPowerOn, if_pos hk, sbCmd_runs hpresent hon _ hfree, butSlots_slotUp]
    have hgl := slotUp_gl (d := s.dev.answered 0) hblocked hoff
    exact ⟨(slot_of_gl hgl k).trans (Dev.slot_modSt _ k SlotSt.up), by rw [hgl]; rfl, by rw [hgl]; rfl, rfl⟩
  · have hidle' : (s.dev.answered 0).idleSlot k := hidle
    obtain ⟨hpwren, hadmitted, -⟩ := slotGone_slot (s.dev.answered 0) k
    obtain ⟨-, hsession, hdisabled⟩ := slotGone_link (s.dev.answered 0) k
    rw [State.onDev_dev, slotPowerOff, if_pos hk, sbCmd_runs hpresent hon _ (slotHeld_idle hidle hst), slotGone_sbResult _ hidle']
    exact ⟨hpwren, hadmitted, hdisabled hidle' hst, hsession, rfl⟩
  · have hidle' : (s.dev.answered 0).idleSlot k := hidle
    rw [State.onDev_dev, slotResetPulse, if_pos hk, sbCmd_runs hpresent hon _ (slotHeld_idle hidle hst)]
    exact pulseSlot_idle (s.dev.answered 0) hidle' hst
  · rw [State.onDev_dev, slotResetRelease_due hpower hrst, linkEnable_slot, linkEnable_butSlots]
    have hslot := Dev.slot_modSt s.dev k (fun x => x.released s.dev.now)
    refine ⟨hslot, fun hst hready hctrl hon => linkEnable_starts hst hready hctrl ?_ ?_ hon, fun hst => ?_, rfl⟩
    · rw [hslot]
      exact hpower
    · rw [hslot]
      rfl
    · rw [linkEnable_stays (s.dev.modSt k (fun x => x.released s.dev.now)) hst, Dev.link_modSt]
  · rcases hno with h | h <;> simp [h]
  · rw [State.onDev_dev, quarantineRelease, if_pos ⟨hk, hgone, hshut⟩, Dev.slot_modLink, Dev.slot_modSt, Dev.link_modLink]
    exact ⟨rfl, rfl, rfl⟩
  · rintro ⟨-, hgone, hshut⟩
    rcases hno with h | ⟨hblocked, hst⟩
    · simp [h] at hgone
    · simp [hblocked, hst] at hshut
  · have hslot := Dev.slot_modSt s.dev k SlotSt.retried
    have hon' : (s.dev.modSt k SlotSt.retried).slotEnabled k = true := hon
    have hblocked' : ((s.dev.modSt k SlotSt.retried).slot k).blocked = false := by
      rw [hslot]
      exact hblocked
    have hoff' : ((s.dev.modSt k SlotSt.retried).slot k).pwren = false := by
      rw [hslot]
      exact hoff
    rw [State.onDev_dev, unresponsiveCycle_due hk hcycled hpresent hoff hblocked]
    refine ⟨?_, (startInsertion_slot hon' hblocked' hfailed hstuck hoff').trans (by rw [hslot]; rfl)⟩
    rw [startInsertion_powers hon' hblocked' hfailed hstuck, butSlots_slotUp]
    rfl
  · rintro ⟨-, hcycled, hpresent, hoff, hblocked⟩
    simp [hcycled, hpresent, hoff, hblocked] at hno

end Sys2Proof.Machine
end

section
/-! PROOFS. O45: insertion and removal of a module (R285, R287 to R289). -/

namespace Sys2Proof.Machine

variable (d : Dev)

/-! ### Presence (R285) -/

/-- The device once a module is present in a slot, and its presence is recorded. -/
def Dev.arrived (d : Dev) (s : Nat) : Dev := (d.presenceChanged s true).ev evGlSlotPresent (s / 8) [.num 1 s]

theorem presenceChanged_slot (s : Nat) (v : Bool) : (d.presenceChanged s v).slot s = { d.slot s with present := v } :=
  Dev.slot_modSt d s (fun x => { x with present := v })

theorem arrived_slot (s : Nat) : (d.arrived s).slot s = { d.slot s with present := true } :=
  (Dev.ev_slot _ _ _ _ s).trans (presenceChanged_slot d s true)

theorem arrived_gl (s : Nat) : (d.arrived s).gl = (d.presenceChanged s true).gl := Dev.ev_gl _ _ _ _

theorem arrived_slotEnabled (s j : Nat) : (d.arrived s).slotEnabled j = d.slotEnabled j := by
  have hboot : (d.arrived s).boot = d.boot := Dev.ev_boot _ _ _ _
  simp only [Dev.slotEnabled, Dev.section, hboot]

/-- What an event leaves of everything but the ledger, the slots, the links and the domains. -/
theorem ev_rest (c i : Nat) (l : List PField) : (d.ev c i l).butSlots.butLog = d.butSlots.butLog :=
  congrArg (a₁ := (d.ev c i l).butLog) (a₂ := d.butLog) Dev.butSlots (butLog_ev d c i l)

/-! ### What an insertion changes (R287, R289) -/

/-- Insertion into a slot that the slot map does not enable is refused. -/
theorem startInsertion_disabled {s : Nat} (h : d.slotEnabled s = false) :
    d.startInsertion s = (d.ev evGlSlotDisabled (s / 8) [.num 1 s]).modSt s (fun x => { x with outcome := 6 }) := if_pos (by simp [h])

theorem startInsertion_blocked {s : Nat} (h : d.slotEnabled s = true) (hblocked : (d.slot s).blocked = true) : d.startInsertion s = d := by
  simp [Dev.startInsertion, h, hblocked]

/-- Insertion into a slot whose bus has failed or is stuck waits for the bus. -/
theorem startInsertion_waits {s : Nat} (h : d.slotEnabled s = true) (hblocked : (d.slot s).blocked = false)
    (hbus : bitOf d.gl.busFailed.toNat (s / 8) = true ∨ bitOf d.gl.busStuck.toNat (s / 8) = true) :
    d.startInsertion s = d.modSt s (fun x => { x with inserting := true }) := by
  simp only [Dev.startInsertion, h, hblocked, Bool.not_true, Bool.false_eq_true, if_false]
  refine if_pos ?_
  rcases hbus with h | h <;> simp [busOf, Dev.modSt, h]

theorem slotUp_changed (s : Nat) : (d.slotUp s).gl.changed = d.gl.changed := by
  simp only [Dev.slotUp]
  split
  · rfl
  · rw [demand_gl]
    rfl

/-- An insertion leaves GL_SB_CHG and all but slots, links, domains and the ledger as they were. -/
theorem startInsertion_keeps (s : Nat) :
    (d.startInsertion s).gl.changed = d.gl.changed ∧ (d.startInsertion s).butSlots.butLog = d.butSlots.butLog := by
  by_cases hon : d.slotEnabled s = true
  · simp only [Dev.startInsertion, hon, Bool.not_true, Bool.false_eq_true, if_false]
    split
    · exact ⟨rfl, rfl⟩
    split
    · exact ⟨rfl, rfl⟩
    · exact ⟨slotUp_changed _ s, congrArg Dev.butLog (butSlots_slotUp (d.modSt s (fun x => { x with inserting := true })) s)⟩
  · rw [startInsertion_disabled d (Bool.not_eq_true _ ▸ hon)]
    have hchanged : (d.ev evGlSlotDisabled (s / 8) [.num 1 s]).gl.changed = d.gl.changed := by rw [Dev.ev_gl]
    exact ⟨hchanged, ev_rest d _ _ _⟩

/-- What an insertion leaves of the slot that a module has come into: refused where the slot map does not enable it, left alone where it is
blocked, waiting where its bus has failed or is stuck, and powered on otherwise. -/
theorem arrived_startInsertion (s : Nat) :
    (d.slotEnabled s = false → ((d.arrived s).startInsertion s).slot s = { d.slot s with present := true, outcome := 6 })
    ∧ (d.slotEnabled s = true → (d.slot s).blocked = true → ((d.arrived s).startInsertion s).slot s = { d.slot s with present := true })
    ∧ (d.slotEnabled s = true → (d.slot s).blocked = false →
        ((bitOf d.gl.busFailed.toNat (s / 8) = true ∨ bitOf d.gl.busStuck.toNat (s / 8) = true) →
          ((d.arrived s).startInsertion s).slot s = { d.slot s with present := true, inserting := true })
        ∧ (bitOf d.gl.busFailed.toNat (s / 8) = false → bitOf d.gl.busStuck.toNat (s / 8) = false → (d.slot s).pwren = false →
          ((d.arrived s).startInsertion s).slot s = { d.slot s with present := true, inserting := true, pwren := true, rst := true })) := by
  have hslot := arrived_slot d s
  have hblk : ((d.arrived s).slot s).blocked = (d.slot s).blocked := by rw [hslot]
  have hpwr : ((d.arrived s).slot s).pwren = (d.slot s).pwren := by rw [hslot]
  have hbusFailed : (d.arrived s).gl.busFailed = d.gl.busFailed := by rw [arrived_gl]; rfl
  have hbusStuck : (d.arrived s).gl.busStuck = d.gl.busStuck := by rw [arrived_gl]; rfl
  rw [← arrived_slotEnabled d s s, ← hblk, ← hpwr, ← hbusFailed, ← hbusStuck]
  refine ⟨fun hon => ?_, fun hon hblocked => ?_, fun hon hblocked => ⟨fun hbus => ?_, fun hfailed hstuck hoff => ?_⟩⟩
  · rw [startInsertion_disabled _ hon, Dev.slot_modSt, Dev.ev_slot, hslot]
  · rw [startInsertion_blocked _ hon hblocked, hslot]
  · rw [startInsertion_waits _ hon hblocked hbus, Dev.slot_modSt, hslot]
  · rw [startInsertion_slot hon hblocked hfailed hstuck hoff, hslot]

section
variable {d : Dev} {s : Nat} (hs : s < 64) (habsent : (d.slot s).present = false) (hoff : d.modes.mode ≠ .off)
  (hhalted : d.modes.mode ≠ .halted) (hholdup : d.modes.mode ≠ .holdup)
include hs habsent hoff hhalted hholdup

/-- What follows the presence of a module, by the enable of insertion and the mode. -/
theorem slotInsertion_eq : slotInsertion s d
    = if !(bitOf (d.csrW aGlCtrl).toNat 1) then d.arrived s
      else if servingMode d.modes.mode then (d.arrived s).startInsertion s
      else if d.modes.mode = .idle then (d.arrived s).modSt s (fun x => { x with inserting := true })
      else d.arrived s := by
  have hcsr : (d.arrived s).csrW aGlCtrl = d.csrW aGlCtrl := Dev.ev_csrW _ _ _ _ _
  have hmodes : (d.arrived s).modes = d.modes := Dev.ev_modes _ _ _ _
  rw [← hcsr, ← hmodes]
  exact if_neg (by simp [habsent, hoff, hhalted, hholdup, hs])

theorem slotInsertion_keeps : (slotInsertion s d).gl.changed = d.gl.changed ||| BitVec.ofNat 64 (2 ^ s)
    ∧ (slotInsertion s d).butSlots.butLog = d.butSlots.butLog := by
  have hchanged : (d.arrived s).gl.changed = d.gl.changed ||| BitVec.ofNat 64 (2 ^ s) := congrArg Gl.changed (arrived_gl d s)
  have hrest : (d.arrived s).butSlots.butLog = d.butSlots.butLog := ev_rest _ _ _ _
  obtain ⟨hstart, hkept⟩ := startInsertion_keeps (d.arrived s) s
  rw [slotInsertion_eq hs habsent hoff hhalted hholdup]
  split
  · exact ⟨hchanged, hrest⟩
  split
  · exact ⟨hstart.trans hchanged, hkept.trans hrest⟩
  split
  · exact ⟨hchanged, hrest⟩
  · exact ⟨hchanged, hrest⟩

theorem slotInsertion_masked (hctrl : bitOf (d.csrW aGlCtrl).toNat 1 = false) : slotInsertion s d = d.arrived s := by
  rw [slotInsertion_eq hs habsent hoff hhalted hholdup, if_pos (by simp [hctrl])]

section
variable (hctrl : bitOf (d.csrW aGlCtrl).toNat 1 = true)
include hctrl

theorem slotInsertion_serving (hserve : servingMode d.modes.mode = true) : slotInsertion s d = (d.arrived s).startInsertion s := by
  rw [slotInsertion_eq hs habsent hoff hhalted hholdup, if_neg (by simp [hctrl]), if_pos hserve]

theorem slotInsertion_idle (hidle : d.modes.mode = .idle) :
    slotInsertion s d = (d.arrived s).modSt s (fun x => { x with inserting := true }) := by
  rw [slotInsertion_eq hs habsent hoff hhalted hholdup, if_neg (by simp [hctrl]), if_neg (by simp [hidle, servingMode]), if_pos hidle]

theorem slotInsertion_assemble (hasm : d.modes.mode = .assemble) : slotInsertion s d = d.arrived s := by
  rw [slotInsertion_eq hs habsent hoff hhalted hholdup, if_neg (by simp [hctrl]), if_neg (by simp [hasm, servingMode]),
    if_neg (by simp [hasm])]

end

end

/-! ### Removal (R288) -/

theorem slotRemoval_due {d : Dev} {s : Nat} (hs : s < 64) (hpresent : (d.slot s).present = true) :
    (slotRemoval s d).gl = ((((d.slotGone s).presenceChanged s false).modSt s (fun x => { SlotSt.reset with blocked := x.blocked })).modLink s
      (fun l => { l with eqSaved := false, oldWidth := 0 })).gl := by
  rw [slotRemoval, if_neg (by simp [hpresent, hs]), linksSettled_gl, measureInv_gl]

/-- A module removed from an idle slot leaves of the slot only whether it is blocked. -/
theorem slotRemoval_slot {d : Dev} {s : Nat} (hs : s < 64) (hpresent : (d.slot s).present = true) (h : d.idleSlot s) :
    (slotRemoval s d).slot s = { SlotSt.reset with blocked := (d.slot s).blocked } := by
  obtain ⟨-, -, hgone⟩ := slotGone_slot d s
  rw [slot_of_gl (slotRemoval_due hs hpresent), Dev.slot_modLink, Dev.slot_modSt, presenceChanged_slot, hgone h]
  rfl

theorem slotRemoval_link {d : Dev} {s : Nat} (hs : s < 64) (hpresent : (d.slot s).present = true) :
    (slotRemoval s d).link s = { (d.slotGone s).link s with eqSaved := false, oldWidth := 0 } := by
  rw [link_of_gl (slotRemoval_due hs hpresent), Dev.link_modLink, Dev.link_modSt]
  rfl

/-- Settles O45, from what follows a module's presence (`slotInsertion_eq`, `startInsertion_slot`) and what a removal leaves
(`slotRemoval_slot`, `slotRemoval_link`). -/
theorem insertionAndRemoval : Obligations.InsertionAndRemoval := by
  rintro s k _ hk rfl
  refine ⟨fun habsent hoff hhalted hholdup => ?_, fun hpresent => next_onDev (if_pos (.inr (.inl hpresent))),
    fun hpresent hidle => ⟨s.onDev (slotRemoval k), rfl, rfl, ?_⟩, fun habsent => next_onDev (if_pos (.inr habsent))⟩
  · obtain ⟨hchanged, hrest⟩ := slotInsertion_keeps hk habsent hoff hhalted hholdup
    refine ⟨s.onDev (slotInsertion k), rfl, rfl, hchanged, hrest, fun hctrl => ?_, fun hctrl => ⟨fun hserve => ?_,
      fun hmode => ?_, fun hmode => ?_⟩⟩
    · rw [State.onDev_dev, slotInsertion_masked hk habsent hoff hhalted hholdup hctrl, arrived_slot]
    · rw [State.onDev_dev, slotInsertion_serving hk habsent hoff hhalted hholdup hctrl hserve]
      exact arrived_startInsertion s.dev k
    · rw [State.onDev_dev, slotInsertion_idle hk habsent hoff hhalted hholdup hctrl hmode, Dev.slot_modSt, arrived_slot]
    · rw [State.onDev_dev, slotInsertion_assemble hk habsent hoff hhalted hholdup hctrl hmode, arrived_slot]
  · obtain ⟨htags, hsession, -⟩ := slotGone_link s.dev k
    rw [State.onDev_dev, slotRemoval_link hk hpresent]
    exact ⟨slotRemoval_slot hk hpresent hidle, rfl, rfl, htags, hsession⟩

end Sys2Proof.Machine
end

section
/-! PROOFS. O46: a Module Colophon read, judged, and what a refusal leaves of a slot (R294, R299, R302, R303). -/

namespace Sys2Proof.Machine

variable (d : Dev)

/-! ### Refusal (R303) -/

/-- The slot of a module that is refused, before it is powered off. -/
def SlotSt.refused (x : SlotSt) (outcome check : Nat) : SlotSt :=
  { x with outcome := outcome, check := check, validated := false, reading := false, blocked := true, admitted := false, inserting := false }

/-- The device once a module is refused and that is recorded, before its operations end. -/
def Dev.coloRefused (d : Dev) (s outcome check : Nat) : Dev :=
  (d.modSt s (fun x => x.refused outcome check)).ev evGlColophonRefused (s / 8)
    [.num 1 s, .num 1 outcome, .num 1 check, .str ((((d.slot s).colo.map Colo.mk).map (fun c => leBytes 16 c.serial.toNat)).getD [])]

theorem refuseModule_eq (s o c : Nat) : d.refuseModule s o c
    = (((((d.coloRefused s o c).endOps s none).slotDown s).memberLost s).hostLost s).measureInv.linksSettled := rfl

theorem coloRefused_slot (s o c : Nat) : (d.coloRefused s o c).slot s = (d.slot s).refused o c := by
  rw [Dev.coloRefused, Dev.ev_slot, Dev.slot_modSt]

theorem coloRefused_idle {s : Nat} (h : d.idleSlot s) (o c : Nat) : (d.coloRefused s o c).idleSlot s :=
  idleSlot_congr h (Dev.ev_quires _ _ _ _) (by rw [Dev.coloRefused, Dev.ev_link, Dev.link_modSt])

/-- Powering off an idle slot ends no operation and touches no Quire. -/
theorem slotShut_quires {s : Nat} (h : d.idleSlot s) : ((d.endOps s none).slotDown s).quires = d.quires := by
  obtain ⟨-, -, htags⟩ := h
  exact (slotDown_quires _ s).trans (quires_of_work (endOps_idle_butWork d htags))

theorem slotShut_slot {s : Nat} (h : d.idleSlot s) : ((d.endOps s none).slotDown s).slot s = (d.slot s).down := by
  obtain ⟨-, -, htags⟩ := h
  rw [slotDown_slot, slot_of_standing (endOps_idle_standing d htags)]

/-- A module refused in an idle slot: the slot keeps the outcome and the check, and is powered off. -/
theorem refuseModule_slot {s : Nat} (h : d.idleSlot s) (o c : Nat) :
    (d.refuseModule s o c).slot s = ((d.slot s).refused o c).down := by
  have hidle := coloRefused_idle d h o c
  have hquires := slotShut_quires _ hidle
  obtain ⟨hmember, hhost, -⟩ := id hidle
  rw [refuseModule_eq, memberLost_none _ ((memberAt_of_quires hquires s true).trans hmember),
    hostLost_none _ ((hostOf_of_quires hquires s).trans hhost), slot_of_gl (linksSettled_gl _), slot_of_gl (measureInv_gl _),
    slotShut_slot _ hidle, coloRefused_slot]

/-! ### Reads that fail (R294) -/

section
variable {d : Dev} {s : Nat} (hreading : (d.slot s).reading = true)
include hreading

theorem colophonReadDone_empty : colophonReadDone s none d = d.refuseModule s 4 1 := by
  simp [colophonReadDone, hreading]

theorem colophonReadDone_wrongLength {b : List Byte} (h : b.length ≠ 5248) : colophonReadDone s (some b) d = d.refuseModule s 4 1 := by
  simp [colophonReadDone, hreading, h]

theorem colophonReadRetry_late (h : (d.slot s).releasedAt + 100000000 ≤ d.now) : colophonReadRetry s false d = d.refuseModule s 4 1 := by
  simp [colophonReadRetry, hreading, h]

/-- A colophon with a bad crc is read once more. -/
theorem colophonReadDone_again {b : List Byte} (hlen : b.length = 5248) (hhead : (⟨b⟩ : Colo).headOk = true)
    (hcrc : (⟨b⟩ : Colo).crcOk = false) (hfirst : (d.slot s).crcAgain = false) :
    colophonReadDone s (some b) d = d.modSt s (fun x => { x with crcAgain := true }) := by
  simp [colophonReadDone, hreading, hlen, hhead, hcrc, hfirst]

end

/-! ### The judgement (Table 10-3) -/

/-- The device with the bytes of a colophon kept in its slot, to be judged. -/
def Dev.coloRead (d : Dev) (s : Nat) (b : List Byte) : Dev := d.modSt s (fun x => { x with colo := some b, crcAgain := false })

theorem coloRead_slot (s : Nat) (b : List Byte) : (d.coloRead s b).slot s = { d.slot s with colo := some b, crcAgain := false } :=
  Dev.slot_modSt d s _

theorem coloRead_slot_ne {s j : Nat} (b : List Byte) (h : j ≠ s) : (d.coloRead s b).slot j = d.slot j := Dev.slot_modSt_ne d _ h

/-- Only other slots can hold a module's serial. -/
theorem sameSerial_coloRead (s : Nat) (b : List Byte) (c : Colo) : (d.coloRead s b).sameSerial s c = d.sameSerial s c := by
  unfold Dev.sameSerial
  congr 1
  funext j
  by_cases hj : j = s
  · simp [hj]
  · have hslot := coloRead_slot_ne d b hj
    have hcolo : (d.coloRead s b).colo j = d.colo j := by rw [Dev.colo, hslot, Dev.colo]
    rw [hslot, hcolo]

theorem judgeColo_coloRead (s : Nat) (b : List Byte) (c : Colo) : (d.coloRead s b).judgeColo s c = d.judgeColo s c := by
  unfold Dev.judgeColo
  rw [sameSerial_coloRead]
  rfl

/-- A colophon that passes has a good crc. -/
theorem crcOk_of_judgeColo {d : Dev} {s o : Nat} {c : Colo} (h : d.judgeColo s c = (o, 0)) : c.crcOk = true := by
  by_contra hcrc
  simp [Dev.judgeColo, Bool.eq_false_of_not_eq_true hcrc] at h

/-! ### Colophons judged (R299, R302) -/

/-- The slot of a module whose colophon has passed. -/
def SlotSt.passed (x : SlotSt) (outcome : Nat) : SlotSt := { x with reading := false, validated := true, outcome := outcome, check := 0 }

/-- A module whose link is not ACTIVE is not admitted. -/
theorem tryAdmit_inactive {d : Dev} {s : Nat} (h : (d.link s).st ≠ .active) : d.tryAdmit s = d := by
  have hops : (d.link s).opsOk = false := by simp [Link.opsOk, h]
  simp only [Dev.tryAdmit, hops]
  split <;> simp

/-- The device with a module whose colophon has passed, before its link authenticates and it is admitted. -/
def Dev.coloPassed (d : Dev) (s : Nat) (b : List Byte) (outcome : Nat) : Dev := (d.coloRead s b).modSt s (fun x => x.passed outcome)

/-- What a colophon that is judged for any check but that of the serial does, once it is not to be read again. -/
theorem colophonReadDone_judged {d : Dev} {s o n : Nat} {b : List Byte} (hreading : (d.slot s).reading = true) (hlen : b.length = 5248)
    (hcrc : (⟨b⟩ : Colo).crcOk = true ∨ (d.slot s).crcAgain = true) (hjudge : d.judgeColo s ⟨b⟩ = (o, n)) (hn4 : n ≠ 4) :
    colophonReadDone s (some b) d
      = if n = 0 then
          ((if (d.link s).st = .active then (d.coloPassed s b o).linkAuth s else d.coloPassed s b o).measureInv.tryAdmit s).linksSettled
        else (d.coloRead s b).refuseModule s o n := by
  have hagain : ((⟨b⟩ : Colo).headOk && !(⟨b⟩ : Colo).crcOk && !(d.slot s).crcAgain) = false := by
    rcases hcrc with h | h <;> simp [h]
  have hkept := (judgeColo_coloRead d s b ⟨b⟩).trans hjudge
  rw [Dev.coloRead] at hkept
  simp only [colophonReadDone, hreading, hlen, hagain, hkept, hn4, Bool.not_true, Bool.false_eq_true, if_false, ne_eq, not_true_eq_false,
    false_and]
  split
  · rfl
  · split <;> rfl

/-- A colophon that passes while its link is not ACTIVE validates its module, and nothing more. -/
theorem colophonReadDone_passes {d : Dev} {s o : Nat} {b : List Byte} (hreading : (d.slot s).reading = true) (hlen : b.length = 5248)
    (hjudge : d.judgeColo s ⟨b⟩ = (o, 0)) (hst : (d.link s).st ≠ .active) :
    (colophonReadDone s (some b) d).gl = (d.coloPassed s b o).gl := by
  have hst' : ((d.coloPassed s b o).measureInv.link s).st ≠ .active := by rwa [link_of_gl (measureInv_gl _)]
  rw [colophonReadDone_judged hreading hlen (.inl (crcOk_of_judgeColo hjudge)) hjudge (by decide), if_pos rfl, if_neg hst,
    tryAdmit_inactive hst', linksSettled_gl, measureInv_gl]

theorem coloPassed_slot (s : Nat) (b : List Byte) (o : Nat) :
    (d.coloPassed s b o).slot s = { d.slot s with
      colo := some b, crcAgain := false, reading := false, validated := true, outcome := o, check := 0 } := by
  rw [Dev.coloPassed, Dev.slot_modSt, coloRead_slot]
  rfl

/-- Settles O46, from what a refusal leaves of an idle slot (`refuseModule_slot`), and what a colophon judged once the slot holds it does
(`colophonReadDone_judged`, `colophonReadDone_passes`). -/
theorem colophonReads : Obligations.ColophonReads := by
  rintro s k _ - rfl
  refine ⟨fun hreading => ⟨fun hidle c b hc => ?_, fun b hlen => ⟨
      fun hhead hcrc hfirst => ⟨s.onDev (colophonReadDone k (some b)), rfl, rfl, ?_⟩,
      fun o hjudge hst => ⟨s.onDev (colophonReadDone k (some b)), rfl, rfl, ?_⟩,
      fun o n hjudge hn hn4 hidle hcrc => ⟨s.onDev (colophonReadDone k (some b)), rfl, rfl, ?_⟩⟩⟩,
    fun hno b => next_onDev ?_, fun a hno => next_onDev ?_⟩
  · have hrefused : exec c s = .next { s with dev := s.dev.refuseModule k 4 1 } := by
      rcases hc with rfl | ⟨hlen, rfl⟩ | ⟨hlate, rfl⟩
      · exact next_onDev (colophonReadDone_empty hreading)
      · exact next_onDev (colophonReadDone_wrongLength hreading hlen)
      · exact next_onDev (colophonReadRetry_late hreading hlate)
    refine ⟨_, hrefused, rfl, ?_⟩
    rw [refuseModule_slot s.dev hidle]
    exact ⟨rfl, rfl, rfl, rfl, rfl, rfl⟩
  · rw [State.onDev_dev, colophonReadDone_again hreading hlen hhead hcrc hfirst, Dev.slot_modSt]
  · have hgl := colophonReadDone_passes hreading hlen hjudge hst
    rw [State.onDev_dev, slot_of_gl hgl, link_of_gl hgl, coloPassed_slot]
    exact ⟨rfl, rfl⟩
  · have hidle' : (s.dev.coloRead k b).idleSlot k := hidle
    rw [State.onDev_dev, colophonReadDone_judged hreading hlen hcrc hjudge hn4, if_neg hn, refuseModule_slot _ hidle']
    exact ⟨rfl, rfl, rfl, rfl, rfl⟩
  · simp [colophonReadDone, hno]
  · refine if_neg ?_
    rcases hno with h | h | h
    · simp [h]
    · simp [h]
    · simp [Nat.not_le.mpr h]

end Sys2Proof.Machine
end

section
/-! PROOFS. O15: module monitors, throttle counts and alerts, and the sideband buses (R292, R306 to R308, R385, R387). -/

namespace Sys2Proof.Machine

variable (d : Dev)

/-! ### Weirs, the temperature event and the promise -/

/-- A slot apart from its weirs and its throttle count. -/
def SlotSt.butWeirs (x : SlotSt) : SlotSt :=
  { x with
    cold := ⟨false, 0⟩, opMin := ⟨false, 0⟩, throttle := ⟨false, 0⟩, defer := ⟨false, 0⟩, opMax := ⟨false, 0⟩, absMax := ⟨false, 0⟩, kS := 0 }

section
variable {x y : SlotSt} (h : x.butWeirs = y.butWeirs)
include h

theorem SlotSt.nand_of_butWeirs : x.nand = y.nand := congrArg (a₁ := x.butWeirs) (a₂ := y.butWeirs) SlotSt.nand h
theorem SlotSt.bridge_of_butWeirs : x.bridge = y.bridge := congrArg (a₁ := x.butWeirs) (a₂ := y.butWeirs) SlotSt.bridge h
theorem SlotSt.faults_of_butWeirs : x.faults = y.faults := congrArg (a₁ := x.butWeirs) (a₂ := y.butWeirs) SlotSt.faults h
theorem SlotSt.admitted_of_butWeirs : x.admitted = y.admitted := congrArg (a₁ := x.butWeirs) (a₂ := y.butWeirs) SlotSt.admitted h
theorem SlotSt.excluded_of_butWeirs : x.excluded = y.excluded := congrArg (a₁ := x.butWeirs) (a₂ := y.butWeirs) SlotSt.excluded h

end

@[simp] theorem foldHolds_gl (s : Nat) : (d.foldHolds s).gl = d.gl := by
  simp only [Dev.foldHolds]
  split
  · rfl
  split
  · rfl
  split
  · rfl
  · rw [Dev.ev_gl]
    rfl

@[simp] theorem tempEvent_gl (was : Bool) : (d.tempEvent was).gl = d.gl := by
  simp only [Dev.tempEvent]
  split
  · exact aenAll_gl d _ _ _
  · rfl

@[simp] theorem promiseEval_gl : d.promiseEval.gl = d.gl := by
  simp only [Dev.promiseEval]
  split
  · rfl
  · exact Dev.ev_gl _ _ _ _

/-- One sample does not cross a weir: 8 in a row do. -/
theorem Weir.rise_first (level t : Int) : ((⟨false, 0⟩ : Weir).rise level t).crossed = false := by
  simp only [Weir.rise, Bool.false_eq_true, if_false]
  cases decide (level ≤ t) <;> rfl

/-- A sample that does not cross the module's highest weir changes the weirs and the throttle count of its slot, and no other slot. -/
theorem moduleWeirs_slot {s : Nat} (h : (d.slot s).absMax = ⟨false, 0⟩) :
    ((d.moduleWeirs s).slot s).butWeirs = (d.slot s).butWeirs ∧ ∀ j, j ≠ s → (d.moduleWeirs s).slot j = d.slot j := by
  unfold Dev.moduleWeirs
  split
  · exact ⟨rfl, fun _ _ => rfl⟩
  next c hc =>
    extract_lets t x sampled y marked crossings told held
    have hcrossed : y.absMax.crossed = false := by
      have hy : y.absMax = sampled.absMax := by
        dsimp only [y]
        split <;> rfl
      rw [hy]
      exact (congrArg (fun w : Weir => (w.rise (4 * c.temp 2) t).crossed) h).trans (Weir.rise_first _ _)
    have hweirs : y.butWeirs = (d.slot s).butWeirs := by
      dsimp only [y]
      split <;> rfl
    have hslot : ∀ j, held.sluPump.slot j = marked.slot j := fun j => by
      rw [slot_of_standing (standing_sluPump held), slot_of_gl (foldHolds_gl told s)]
      exact foldl_keeps (fun z : Dev => z.slot j) _ (fun z e => Dev.ev_slot z _ _ _ j) _ _
    rw [if_neg (by simp [hcrossed])]
    refine ⟨?_, fun j hj => (hslot j).trans (Dev.slot_modSt_ne d _ hj)⟩
    rw [hslot, Dev.slot_modSt, hweirs]

/-! ### Monitor polls (R306) -/

/-- A slot whose monitor has answered well. -/
def SlotSt.heard (x : SlotSt) (m : MonRegion) : SlotSt :=
  { x with
    nand := m.nand, nandMax := max x.nandMax m.nand, bridge := m.bridge, current := m.current % 65536, voltage := m.voltage % 65536
    aux := m.aux % 65536, count := some m.count, faults := 0, goods := x.goods + 1, excluded := x.excluded && decide (x.goods + 1 < 3) }

/-- A slot whose monitor has not answered: the third time in a row excludes it. -/
def SlotSt.missed (x : SlotSt) : SlotSt :=
  { x with faults := x.faults + 1, goods := 0, excluded := x.excluded || decide (3 ≤ x.faults + 1) }

/-- A monitor that the third fault in a row excludes, or that was excluded, is excluded. -/
theorem excluded_or (third excluded : Bool) :
    (if (third && !excluded) = true then true else excluded && decide (0 < 3)) = (excluded || third) := by
  cases third <;> cases excluded <;> rfl

/-- An answer that is new and in the monitor's range. -/
def SlotSt.accepts (x : SlotSt) (c : Colo) (m : MonRegion) : Prop :=
  x.count ≠ some m.count ∧ 4 * (c.temp 0 - 20) ≤ m.nand ∧ m.nand ≤ 4 * (c.temp 2 + 20)
    ∧ 4 * (c.temp 0 - 20) ≤ m.bridge ∧ m.bridge ≤ 4 * (c.temp 2 + 20)

section
variable {d : Dev} {s : Nat} {c : Colo} (hc : d.colo s = some c) (hadm : (d.slot s).admitted = true)
include hc hadm

theorem monitorPoll_good {m : MonRegion} (h : (d.slot s).accepts c m) :
    monitorPoll s (some m) d = (d.modSt s (fun x => x.heard m)).moduleWeirs s := by
  obtain ⟨hcount, hnand, hnand', hbridge, hbridge'⟩ := h
  have hbad : (decide ((d.slot s).count = some m.count) || decide (m.nand < 4 * (c.temp 0 - 20)) || decide (4 * (c.temp 2 + 20) < m.nand)
      || decide (m.bridge < 4 * (c.temp 0 - 20)) || decide (4 * (c.temp 2 + 20) < m.bridge)) = false := by
    simp [hcount, hnand, hnand', hbridge, hbridge']
  have hserved : (!(d.slot s).admitted) = false := by simp [hadm]
  simp only [monitorPoll, hc, hserved, hbad, Bool.false_eq_true, if_false, Nat.reduceLeDiff, decide_false, Bool.false_and]
  rfl

/-- A poll without an answer counts a fault; that the monitor is newly excluded is recorded. -/
theorem monitorPoll_none : ∃ e : Dev, monitorPoll s none d = e.moduleWeirs s ∧ e.gl = (d.modSt s SlotSt.missed).gl := by
  have hserved : (!(d.slot s).admitted) = false := by simp [hadm]
  simp only [monitorPoll, hc, hserved, excluded_or, Bool.false_eq_true, if_false, if_true]
  refine ⟨_, rfl, ?_⟩
  split
  · rw [Dev.ev_gl]
    rfl
  · rfl

end

theorem monitorRow_gl (s : Nat) (r : Option MonRegion) : (monitorRow s r d).gl = (monitorPoll s r d).gl := by
  rw [monitorRow, promiseEval_gl, tempEvent_gl]

section
variable {d : Dev} {s : Nat} {c : Colo} (hc : d.colo s = some c) (hadm : (d.slot s).admitted = true)
  (habs : (d.slot s).absMax = ⟨false, 0⟩)
include hc hadm habs

theorem monitorRow_good {m : MonRegion} (h : (d.slot s).accepts c m) :
    ((monitorRow s (some m) d).slot s).butWeirs = ((d.slot s).heard m).butWeirs
    ∧ ∀ j, j ≠ s → (monitorRow s (some m) d).slot j = d.slot j := by
  have hslot := Dev.slot_modSt d s (fun x => x.heard m)
  obtain ⟨hweirs, hothers⟩ := moduleWeirs_slot (d.modSt s (fun x => x.heard m)) (s := s) (by rw [hslot]; exact habs)
  have hpoll := (monitorRow_gl d s (some m)).trans (congrArg Dev.gl (monitorPoll_good hc hadm h))
  simp only [slot_of_gl hpoll]
  exact ⟨hweirs.trans (by rw [hslot]), fun j hj => (hothers j hj).trans (Dev.slot_modSt_ne d _ hj)⟩

theorem monitorRow_none : ((monitorRow s none d).slot s).butWeirs = (d.slot s).missed.butWeirs := by
  obtain ⟨e, hpoll, hgl⟩ := monitorPoll_none hc hadm
  have hslot : e.slot s = (d.slot s).missed := (slot_of_gl hgl s).trans (Dev.slot_modSt d s _)
  obtain ⟨hweirs, -⟩ := moduleWeirs_slot e (s := s) (by rw [hslot]; exact habs)
  rw [slot_of_gl (monitorRow_gl d s none), hpoll, hweirs, hslot]

end

/-! ### Throttle counts (R385, R387) -/

/-- A slot's throttle count, one step on. -/
def SlotSt.stepped (x : SlotSt) : SlotSt := { x with kS := if x.throttle.crossed then min 16 (x.kS + 1) else x.kS - 1 }

/-- A step of a slot's throttle count, and the grants that it lets through, move nothing but that slot and work. -/
theorem moduleThrottleStep_slot (s : Nat) :
    (moduleThrottleStep s d).slot s = (d.slot s).stepped
    ∧ (moduleThrottleStep s d).butWork = { d with gl := (moduleThrottleStep s d).gl }.butWork
    ∧ ∀ j, j ≠ s → (moduleThrottleStep s d).slot j = d.slot j := by
  have hstand : (moduleThrottleStep s d).standing = (d.modSt s SlotSt.stepped).standing := standing_sluPump _
  have hgl : ({ (moduleThrottleStep s d).gl with links := [] } : Gl) = { (d.modSt s SlotSt.stepped).gl with links := [] } :=
    congrArg Prod.snd hstand
  refine ⟨(slot_of_standing hstand s).trans (Dev.slot_modSt d s _), ?_,
    fun j hj => (slot_of_standing hstand j).trans (Dev.slot_modSt_ne d _ hj)⟩
  refine (butWork_sluPump (d.modSt s SlotSt.stepped)).trans ?_
  simp only [Dev.butWork, hgl]
  rfl

/-! ### The bits of the buses (R308) -/

theorem getLsbD_busBit {k : Nat} (hk : k < 8) : (BitVec.ofNat 8 (2 ^ k)).getLsbD k = true := by
  rw [BitVec.getLsbD_ofNat, Nat.testBit_two_pow_self, Bool.and_true, decide_eq_true hk]

theorem bitOf_toNat (b : BitVec 8) (k : Nat) : bitOf b.toNat k = b.getLsbD k := by rw [bitOf_eq_testBit, BitVec.testBit_toNat]

/-- The bit of a bus is set with it, and cleared with its complement. -/
theorem bitOf_busSet (b : BitVec 8) {k : Nat} (hk : k < 8) : bitOf (b ||| BitVec.ofNat 8 (2 ^ k)).toNat k = true := by
  rw [bitOf_toNat, BitVec.getLsbD_or, getLsbD_busBit hk, Bool.or_true]

theorem bitOf_busClear (b : BitVec 8) {k : Nat} (hk : k < 8) : bitOf (b &&& ~~~BitVec.ofNat 8 (2 ^ k)).toNat k = false := by
  rw [bitOf_toNat, BitVec.getLsbD_and, BitVec.getLsbD_not, getLsbD_busBit hk, Bool.not_true, Bool.and_false, Bool.and_false]

/-! ### A bus that fails (R308) -/

/-- The buses that are stuck, and those that have failed. -/
def Dev.buses (d : Dev) : BitVec 8 × BitVec 8 := (d.gl.busStuck, d.gl.busFailed)

/-- What a failed bus does to the monitor of an admitted module on it. -/
def Dev.excludeMonitor (d : Dev) (s : Nat) : Dev :=
  if (d.slot s).admitted && !(d.slot s).excluded then
    (d.modSt s (fun x => { x with excluded := true, goods := 0 })).ev evGlMonitorFault (s / 8) [.num 1 s]
  else d

theorem excludeMonitor_modes (s : Nat) : (d.excludeMonitor s).modes = d.modes := by
  simp only [Dev.excludeMonitor]
  split
  · exact Dev.ev_modes _ _ _ _
  · rfl

theorem buses_of_gl {a b : Dev} (h : a.gl = b.gl) : a.buses = b.buses := by rw [Dev.buses, h, Dev.buses]

theorem excludeMonitor_buses (s : Nat) : (d.excludeMonitor s).buses = d.buses := by
  simp only [Dev.excludeMonitor]
  split
  · exact (buses_of_gl (Dev.ev_gl _ _ _ _)).trans rfl
  · rfl

/-- An admitted module whose monitor a failed bus excludes. -/
def SlotSt.unheard (x : SlotSt) : SlotSt := if x.admitted && !x.excluded then { x with excluded := true, goods := 0 } else x

theorem excludeMonitor_slot (s : Nat) : (d.excludeMonitor s).slot s = (d.slot s).unheard := by
  simp only [Dev.excludeMonitor, SlotSt.unheard]
  split
  · rw [Dev.ev_slot, Dev.slot_modSt]
  · rfl

theorem excludeMonitor_slot_ne {s j : Nat} (h : j ≠ s) : (d.excludeMonitor s).slot j = d.slot j := by
  simp only [Dev.excludeMonitor]
  split
  · rw [Dev.ev_slot, Dev.slot_modSt_ne d _ h]
  · rfl

/-- A module's own slot stays excluded whatever the other slots of the bus do. -/
theorem excludeMonitors_excluded {j : Nat} (l : List Nat) (hadm : (d.slot j).admitted = true) (h : j ∈ l ∨ (d.slot j).excluded = true) :
    ((l.foldl Dev.excludeMonitor d).slot j).excluded = true := by
  induction l generalizing d with
  | nil => simpa using h
  | cons s l ih =>
    by_cases hj : j = s
    · subst hj
      have hslot := excludeMonitor_slot d j
      refine ih _ ?_ (.inr ?_)
      · rw [hslot, SlotSt.unheard]
        split <;> exact hadm
      · rw [hslot, SlotSt.unheard]
        cases hx : (d.slot j).excluded <;> simp [hadm, hx]
    · refine ih _ ?_ ?_ <;> rw [excludeMonitor_slot_ne d hj]
      · exact hadm
      · simpa [hj] using h

/-- What the timeout of a bus does to one of its slots. -/
def Dev.busLost (d : Dev) (s : Nat) : Dev :=
  if (d.slot s).reading && decide (d.modes.mode = .assemble) then d.refuseModule s 4 1 else d.excludeMonitor s

/-- Outside ASSEMBLE a failed bus only excludes monitors. -/
theorem busLost_foldl {d : Dev} (h : d.modes.mode ≠ .assemble) (l : List Nat) :
    l.foldl Dev.busLost d = l.foldl Dev.excludeMonitor d := by
  induction l generalizing d with
  | nil => rfl
  | cons s l ih =>
    have hlost : d.busLost s = d.excludeMonitor s := if_neg (by simp [h])
    simp only [List.foldl_cons, hlost]
    exact ih (by rwa [excludeMonitor_modes])

/-- The device with a bus failed and no longer stuck. -/
def Dev.busFails (d : Dev) (k : Nat) : Dev :=
  { d with gl := { d.gl with
    busFailed := d.gl.busFailed ||| BitVec.ofNat 8 (2 ^ k), busStuck := d.gl.busStuck &&& ~~~BitVec.ofNat 8 (2 ^ k) } }

theorem i3cBusTimeout_due {d : Dev} {k : Nat} (hk : k < 8) (hstuck : bitOf d.gl.busStuck.toNat k = true) (h : d.modes.mode ≠ .assemble) :
    i3cBusTimeout k d = (busSlots k).foldl Dev.excludeMonitor (d.busFails k) := by
  rw [← busLost_foldl (d := d.busFails k) h]
  exact if_pos ⟨hk, hstuck⟩

theorem mem_busSlots {k i : Nat} (hi : i < 8) : 8 * k + i ∈ busSlots k := List.mem_map_of_mem (List.mem_range.mpr hi)

/-! ### A bus that comes back (R308, R310) -/

/-- The device with the recovery of a bus counted, and the bus neither failed nor stuck. -/
def Dev.busWorks (d : Dev) (k : Nat) : Dev :=
  { d.count aI3cBus 8 8 with gl := { d.gl with
    busFailed := d.gl.busFailed &&& ~~~BitVec.ofNat 8 (2 ^ k), busStuck := d.gl.busStuck &&& ~~~BitVec.ofNat 8 (2 ^ k) } }

/-- An insertion that has waited for its bus goes on in a serving mode. -/
def Dev.resumeInsertion (d : Dev) (s : Nat) : Dev :=
  if (d.slot s).inserting && !(d.slot s).pwren && servingMode d.modes.mode then d.slotUp s else d

theorem i3cBusRecovered_due {d : Dev} {k : Nat} (hk : k < 8)
    (h : bitOf d.gl.busStuck.toNat k = true ∨ bitOf d.gl.busFailed.toNat k = true) :
    i3cBusRecovered k d = (busSlots k).foldl Dev.resumeInsertion (d.busWorks k) := if_pos ⟨hk, h⟩

theorem slotUp_buses (s : Nat) : (d.slotUp s).buses = d.buses := by
  simp only [Dev.slotUp]
  split
  · rfl
  · exact (buses_of_gl (demand_gl _ _)).trans rfl

theorem resumeInsertion_buses (s : Nat) : (d.resumeInsertion s).buses = d.buses := by
  simp only [Dev.resumeInsertion]
  split
  · exact slotUp_buses d s
  · rfl

theorem resumeInsertion_cnt (s : Nat) : (d.resumeInsertion s).cnt = d.cnt := by
  simp only [Dev.resumeInsertion]
  split
  · exact congrArg (a₁ := (d.slotUp s).butSlots) (a₂ := d.butSlots) Dev.cnt (butSlots_slotUp d s)
  · rfl

/-- Settles O15, from what a monitor's answer leaves of its slot (`monitorRow_good`, `monitorRow_none`), what a throttle step moves
(`moduleThrottleStep_slot`), and what a failed and a recovered bus do to each of its slots (`excludeMonitors_excluded`,
`resumeInsertion_buses`). -/
theorem moduleMonitorsAndBuses : Obligations.ModuleMonitorsAndBuses := by
  refine ⟨fun s k c hc hadm habs => ⟨fun m hcount hnand hnand' hbridge hbridge' => ⟨s.onDev (monitorRow k (some m)), rfl, rfl, ?_⟩,
      s.onDev (monitorRow k none), rfl, rfl, ?_⟩,
    fun s k hk => ⟨⟨s.onDev (moduleThrottleStep k), rfl, State.onDev_fuse _ _, ?_⟩, fun hmask hpower bits halert hnotice => next_onDev ?_,
      fun hmask bits => next_onDev ?_, fun hpresent hmask => next_onDev ?_⟩,
    fun s k hk => ⟨⟨s.onDev (i3cBusStuck k), rfl, ?_⟩, fun hstuck hmode => ⟨s.onDev (i3cBusTimeout k), rfl, ?_⟩,
      fun hbad => ⟨s.onDev (i3cBusRecovered k), rfl, ?_⟩⟩⟩
  · obtain ⟨hweirs, hothers⟩ := monitorRow_good hc hadm habs ⟨hcount, hnand, hnand', hbridge, hbridge'⟩
    refine ⟨SlotSt.nand_of_butWeirs hweirs, SlotSt.bridge_of_butWeirs hweirs, SlotSt.faults_of_butWeirs hweirs,
      (SlotSt.admitted_of_butWeirs hweirs).trans hadm, fun hgoods => (SlotSt.excluded_of_butWeirs hweirs).trans ?_, hothers⟩
    have hthird : ¬(s.dev.slot k).goods + 1 < 3 := by omega
    simp [SlotSt.heard, hthird]
  · have hweirs := monitorRow_none hc hadm habs
    refine ⟨(SlotSt.nand_of_butWeirs hweirs).trans rfl, SlotSt.faults_of_butWeirs hweirs,
      fun hfaults => (SlotSt.excluded_of_butWeirs hweirs).trans ?_⟩
    have hthird : 3 ≤ (s.dev.slot k).faults + 1 := by omega
    simp [SlotSt.missed, hthird]
  · rw [State.onDev_dev]
    exact moduleThrottleStep_slot s.dev k
  · rw [moduleAlert, if_neg (by simp [hmask, hpower, hk])]
    simp [halert, hnotice]
  · exact if_pos (.inr (.inl hmask))
  · exact if_pos ⟨hk, hpresent, hmask⟩
  · rw [State.onDev_dev, i3cBusStuck, if_pos hk]
    exact ⟨bitOf_busSet _ hk, rfl, rfl⟩
  · rw [State.onDev_dev, i3cBusTimeout_due hk hstuck hmode]
    obtain ⟨hbusStuck, hbusFailed⟩ := Prod.mk.inj
      (foldl_keeps Dev.buses Dev.excludeMonitor excludeMonitor_buses (busSlots k) (s.dev.busFails k))
    rw [hbusStuck, hbusFailed]
    exact ⟨bitOf_busClear _ hk, bitOf_busSet _ hk, rfl,
      fun i hi hadm => excludeMonitors_excluded (s.dev.busFails k) _ hadm (.inl (mem_busSlots hi))⟩
  · rw [State.onDev_dev, i3cBusRecovered_due hk hbad]
    have hcnt := foldl_keeps Dev.cnt Dev.resumeInsertion resumeInsertion_cnt (busSlots k) (s.dev.busWorks k)
    obtain ⟨hbusStuck, hbusFailed⟩ := Prod.mk.inj
      (foldl_keeps Dev.buses Dev.resumeInsertion resumeInsertion_buses (busSlots k) (s.dev.busWorks k))
    rw [hbusStuck, hbusFailed, Dev.counter, hcnt]
    exact ⟨bitOf_busClear _ hk, bitOf_busClear _ hk, rfl, Dev.counter_count s.dev aI3cBus 8 8 1⟩

end Sys2Proof.Machine
end

section
/-! PROOFS. Halting (R65, R74, R91): what an entry into HALTED leaves of the mode's state, the pins and the hold-up bank. -/

namespace Sys2Proof.Machine

variable (d : Dev)

/-- The mode's state, the pins and the state of the hold-up bank. -/
def Dev.vitals (d : Dev) : Modes × Pins × Hu := (d.modes, d.pins, d.hu)

theorem vitals_of_host {a b : Dev} (h : a.butHost = b.butHost) : a.vitals = b.vitals := by
  have hs := congrArg Dev.vitals h
  exact hs
theorem vitals_of_work {a b : Dev} (h : a.butWork = b.butWork) : a.vitals = b.vitals := by
  have hs := congrArg Dev.vitals h
  exact hs
theorem vitals_of_drop {a b : Dev} (h : a.butDrop = b.butDrop) : a.vitals = b.vitals := by
  have hs := congrArg Dev.vitals h
  exact hs

theorem modes_of_vitals {a b : Dev} (h : a.vitals = b.vitals) : a.modes = b.modes := congrArg Prod.fst h
theorem pins_of_vitals {a b : Dev} (h : a.vitals = b.vitals) : a.pins = b.pins := congrArg (·.2.1) h

@[simp] theorem vitals_signBcol (fuse : Fuses) (m : Mode) : (d.signBcol fuse m).vitals = d.vitals := by
  simp only [Dev.signBcol]
  split <;> rfl

@[simp] theorem enterMode_hu (m : Mode) : (d.enterMode m).hu = d.hu := by
  have h := congrArg Dev.hu (butMode_enterMode d m)
  exact h

/-- The mode's state once the device is to halt: the cause, and the mode it halts in. -/
def Modes.doomed (m : Modes) (cause unit : Nat) : Modes := { m with haltCause := cause, haltUnit := unit, haltMode := modeCode m.mode }

/-- A device that halts enters HALTED with the cause and the mode at the halt kept. -/
theorem halt_eq {d : Dev} (hh : d.modes.mode ≠ .halted) (ho : d.modes.mode ≠ .off) (fuse : Fuses) (cause unit : Nat) :
    ∃ x : Dev, x.vitals = (d.modes.doomed cause unit, d.pins, d.hu) ∧ d.halt fuse cause unit = x.enterMode .halted := by
  simp only [Dev.halt, hh, ho, or_self, if_false]
  refine ⟨_, ?_, rfl⟩
  rw [vitals_signBcol]
  split <;> rfl

/-- The mode's state in HALTED (R74, R91). -/
theorem halt_modes {d : Dev} (hh : d.modes.mode ≠ .halted) (ho : d.modes.mode ≠ .off) (fuse : Fuses) (cause unit : Nat) :
    ∃ l, (d.halt fuse cause unit).modes =
      { d.modes.doomed cause unit with mode := .halted, prev := d.modes.mode, idleEntry := false, settle := l } := by
  obtain ⟨x, hx, he⟩ := halt_eq hh ho fuse cause unit
  have hmodes : x.modes = d.modes.doomed cause unit := congrArg Prod.fst hx
  have hhalt : x.modes.mode ≠ .halted := by rw [hmodes]; exact hh
  obtain ⟨l, hl⟩ := enterMode_modes .halted hhalt
  exact ⟨l, by rw [he, hl, hmodes]; rfl⟩

@[simp] theorem halt_pins (fuse : Fuses) (cause unit : Nat) : (d.halt fuse cause unit).pins = d.pins := by
  by_cases hh : d.modes.mode = .halted ∨ d.modes.mode = .off
  · rw [Dev.halt, if_pos hh]
  · obtain ⟨x, hx, he⟩ := halt_eq (fun h => hh (.inl h)) (fun h => hh (.inr h)) fuse cause unit
    rw [he, enterMode_pins]
    exact congrArg (·.2.1) hx

@[simp] theorem halt_hu (fuse : Fuses) (cause unit : Nat) : (d.halt fuse cause unit).hu = d.hu := by
  by_cases hh : d.modes.mode = .halted ∨ d.modes.mode = .off
  · rw [Dev.halt, if_pos hh]
  · obtain ⟨x, hx, he⟩ := halt_eq (fun h => hh (.inl h)) (fun h => hh (.inr h)) fuse cause unit
    rw [he, enterMode_hu]
    exact congrArg (·.2.2) hx

/-- The end of the Hold-Up sequence halts the device from HOLDUP (R395, R396). -/
theorem holdupEnd_modes {d : Dev} (h : d.modes.mode = .holdup) (fuse : Fuses) (cause : Nat) :
    (d.holdupEnd fuse cause).modes.mode = .halted ∧ (d.holdupEnd fuse cause).modes.haltCause = cause := by
  have hend : ∀ x : Dev, x.modes = d.modes →
      (x.halt fuse cause).modes.mode = .halted ∧ (x.halt fuse cause).modes.haltCause = cause := by
    intro x hx
    obtain ⟨l, hl⟩ := halt_modes (d := x) (by rw [hx, h]; decide) (by rw [hx, h]; decide) fuse cause 0
    rw [hl]
    exact ⟨rfl, rfl⟩
  simp only [Dev.holdupEnd]
  split
  · exact hend d.thermtrip rfl
  · exact hend d rfl

@[simp] theorem holdupEnd_hu (fuse : Fuses) (cause : Nat) : (d.holdupEnd fuse cause).hu = d.hu := by
  rw [Dev.holdupEnd, halt_hu]
  split <;> rfl

/-- A sequence that a temperature started ends with THERMTRIP_N asserted (R388, R396). -/
theorem thermtrip_holdupEnd {d : Dev} (h : d.hu.thermal = true) (fuse : Fuses) (cause : Nat) :
    (d.holdupEnd fuse cause).pins.thermtrip = true := by
  rw [Dev.holdupEnd, halt_pins, h, Bool.true_or, if_pos rfl]
  rfl

end Sys2Proof.Machine
end

section
/-! PROOFS. O12: a core rail outside its limits (R396, R465). -/

namespace Sys2Proof.Machine

theorem coreRail_halts {s : State} (ho : s.dev.modes.mode ≠ .off) (hh : s.dev.modes.mode ≠ .halted) (hu : s.dev.modes.mode ≠ .holdup)
    (hp : s.dev.pins.pwrfail = false) : coreRail s = { s with dev := s.dev.halt s.fuse 0x0A } := by
  simp [coreRail, ho, hh, hu, hp]

theorem coreRail_holdup {s : State} (h : s.dev.modes.mode = .holdup) : coreRail s = { s with dev := s.dev.holdupEnd s.fuse 4 } := by
  simp [coreRail, h]

theorem coreRail_halted {s : State} (h : s.dev.modes.mode = .halted) : coreRail s = s := by
  simp [coreRail, h]

/-- Settles O12, from the mode's state that a halt leaves (`halt_modes`, `holdupEnd_modes`). -/
theorem coreRailHalts : Obligations.CoreRailHalts := by
  refine fun s => ⟨fun ho hh hu hp => ?_, fun hu => ?_, fun hh => ?_⟩
  · obtain ⟨l, hl⟩ := halt_modes hh ho s.fuse 0x0A 0
    refine ⟨coreRail s, rfl, ?_⟩
    rw [coreRail_halts ho hh hu hp]
    dsimp only
    rw [hl]
    exact ⟨rfl, rfl, rfl, rfl⟩
  · refine ⟨coreRail s, rfl, ?_⟩
    rw [coreRail_holdup hu]
    exact holdupEnd_modes hu s.fuse 4
  · exact congrArg Host.Outcome.next (coreRail_halted hh)

end Sys2Proof.Machine
end

section
/-! PROOFS. O11: PWRFAIL_N by mode, and the end of the Hold-Up sequence (R75, R78, R91, R355, R395, R396). -/

namespace Sys2Proof.Machine

variable (d : Dev)

/-! ### The steps of the Hold-Up sequence leave the mode and the pins alone (R395) -/

@[simp] theorem vitals_holdupSlot (cs : Nat) : (d.holdupSlot cs).vitals = d.vitals := by
  have hgone : ∀ s, (((d.dropWork cs).discardCpl s).freeSlot cs).vitals = d.vitals := fun s =>
    (vitals_of_host (butHost_freeSlot ((d.dropWork cs).discardCpl s) cs)).trans (vitals_of_drop (a := d.dropWork cs) (butDrop_dropWork d cs))
  simp only [Dev.holdupSlot]
  (repeat' split) <;> simp only [hgone]

@[simp] theorem vitals_holdupDie (s k : Nat) : (d.holdupDie s k).vitals = d.vitals := by
  simp only [Dev.holdupDie]
  split
  · rfl
  split
  · exact vitals_of_work (butWork_bareOp d _ s k _)
  split
  · exact vitals_of_work (butWork_resumeDie d s k)
  · rfl

@[simp] theorem vitals_closeRow (f : Nat) : (d.closeRow f).vitals = d.vitals := by
  simp only [Dev.closeRow]; (repeat' split) <;> rfl
@[simp] theorem vitals_releaseIfEmpty (q s : Nat) : (d.releaseIfEmpty q s).vitals = d.vitals := by
  simp only [Dev.releaseIfEmpty]; split <;> rfl
@[simp] theorem vitals_closeSb (q s : Nat) : (d.closeSb q s).vitals = d.vitals := by rw [Dev.closeSb, vitals_releaseIfEmpty]; rfl
@[simp] theorem vitals_modFurrow (f : Nat) (g : Furrow → Furrow) : (d.modFurrow f g).vitals = d.vitals := rfl
@[simp] theorem vitals_openSb (q : Nat) (b : Bool) (f : Nat) : (d.openSb q b f).1.vitals = d.vitals := by
  simp only [Dev.openSb]; (repeat' split) <;> rfl
@[simp] theorem vitals_slcNext (f : Nat) : (d.slcNext f).1.vitals = d.vitals := by
  simp only [Dev.slcNext]; (repeat' split) <;> simp
@[simp] theorem vitals_slcAdvance (f n : Nat) : (d.slcAdvance f n).vitals = d.vitals := by
  simp only [Dev.slcAdvance]; (repeat' split) <;> simp
@[simp] theorem vitals_packUnit (f ns iu g t : Nat) : (d.packUnit f ns iu g t).vitals = d.vitals := by
  have h : ∀ (x : Dev) u, Dev.vitals { x with tc := { x.tc with unpacked := u } } = x.vitals := fun _ _ => rfl
  simp only [Dev.packUnit]; split <;> simp [h]
@[simp] theorem vitals_packWaiting : d.packWaiting.vitals = d.vitals :=
  (foldl_keeps Dev.vitals _ (fun x _ => vitals_packUnit x _ _ _ _ _) _ _).trans rfl
@[simp] theorem vitals_startPersist (w : PersistFor) : (d.startPersist w).vitals = d.vitals := by
  simp only [Dev.startPersist]; split <;> rfl
@[simp] theorem vitals_sluPump : d.sluPump.vitals = d.vitals := vitals_of_work (butWork_sluPump d)

/-- The state of the hold-up bank as the sequence starts. -/
def Hu.sequencing (h : Hu) (thermal : Bool) : Hu := { h with thermal := thermal, sealed := false, stuck := false }

/-- The device as it enters HOLDUP: fetching stopped, and the bank's state of the sequence that starts. -/
def Dev.sequenceStarts (d : Dev) (thermal : Bool) : Dev :=
  ({ d with hu := d.hu.sequencing thermal, modes := { d.modes with leaving := false } } : Dev).setField aHgCtrl 1 1 1

/-- The sequence starts with the entry into HOLDUP; its further steps change neither mode nor pins. -/
theorem vitals_enterHoldup (thermal : Bool) :
    (d.enterHoldup thermal).vitals = ((d.sequenceStarts thermal).enterMode .holdup).vitals := by
  simp only [Dev.enterHoldup]
  rw [vitals_sluPump, vitals_startPersist, foldl_keeps Dev.vitals _ vitals_closeRow, vitals_packWaiting,
    foldl_keeps Dev.vitals _ (fun x k => vitals_holdupDie x _ _), Dev.cancelWaiting]
  exact foldl_keeps Dev.vitals _ vitals_holdupSlot _ _

theorem enterHoldup_mode {d : Dev} (h : d.modes.mode ≠ .halted) (thermal : Bool) : (d.enterHoldup thermal).modes.mode = .holdup := by
  rw [modes_of_vitals (vitals_enterHoldup d thermal), enterMode_mode]
  exact h

@[simp] theorem enterHoldup_pins (thermal : Bool) : (d.enterHoldup thermal).pins = d.pins := by
  rw [pins_of_vitals (vitals_enterHoldup d thermal), enterMode_pins]
  rfl

/-! ### PWRFAIL_N (R75, R395) -/

/-- The device with PWRFAIL_N asserted. -/
def Dev.powerFails (d : Dev) : Dev := { d with pins := { d.pins with pwrfail := true } }

theorem hostMode_cases {m : Mode} (h : hostMode m = true) :
    m = .serve ∨ m = .serveLimited ∨ m = .serveDegraded ∨ m = .readOnly ∨ m = .idle := by
  cases m <;> simp [hostMode, servingMode] at h ⊢

section
variable {s : State} (hp : s.dev.pins.pwrfail = false) (hb : s.dev.hu.busy = false)
include hp hb

theorem pwrfailAssert_early (hm : s.dev.modes.mode = .dormant ∨ s.dev.modes.mode = .awaitImage ∨ s.dev.modes.mode = .verify) :
    pwrfailAssert s = { s with dev := s.dev.powerFails.ev evWdnPwrfailEarly 0 [] } := by
  obtain hm | hm | hm := hm <;> simp [pwrfailAssert, hp, hb, hm, Dev.powerFails]

theorem pwrfailAssert_assemble (hm : s.dev.modes.mode = .assemble) :
    pwrfailAssert s = { s with dev := s.dev.powerFails.halt s.fuse 4 } := by
  simp [pwrfailAssert, hp, hb, hm, Dev.powerFails]

theorem pwrfailAssert_host (hm : hostMode s.dev.modes.mode = true) :
    pwrfailAssert s = { s with dev := s.dev.powerFails.enterHoldup false } := by
  obtain hm | hm | hm | hm | hm := hostMode_cases hm <;> simp [pwrfailAssert, hp, hb, hm, Dev.powerFails]

end

theorem pwrfailDeassert_on {d : Dev} (h : d.modes.mode ≠ .off) :
    pwrfailDeassert d = { d with pins := { d.pins with pwrfail := false } } := if_neg h

/-! ### The end of the sequence (R395, R396) -/

section
variable {s : State} (hm : s.dev.modes.mode = .holdup)
include hm

theorem sealWritten_stuck (hs : s.dev.holdupStuck = true) : sealWritten s = { s with dev := s.dev.holdupEnd s.fuse 4 } := by
  simp [sealWritten, hm, hs]

theorem sealWritten_dirty (hs : s.dev.holdupStuck = false) (hd : s.dev.dirtyBytes ≠ 0) : sealWritten s = s := by
  simp [sealWritten, hm, hs, hd]

/-- The device with its seal written. -/
def Dev.sealed (d : Dev) : Dev := { d with hu := { d.hu with sealed := true } }

theorem sealWritten_clean (hs : s.dev.holdupStuck = false) (hd : s.dev.dirtyBytes = 0) :
    sealWritten s = { s with dev := s.dev.sealed.holdupEnd s.fuse (if s.dev.hu.thermal then 2 else 3) } := by
  simp [sealWritten, hm, hs, hd, Dev.sealed]

end

/-- Settles O11, from the mode that PWRFAIL_N leads to, and from what the end of the sequence leaves of the mode and the seal. -/
theorem powerFailureAndHoldUp : Obligations.PowerFailureAndHoldUp := by
  refine ⟨fun s => ⟨fun hp hb => ⟨fun hm => ?_, fun hm => ?_, fun hm => ?_⟩, fun ho => next_onDev (pwrfailDeassert_on ho)⟩,
    fun s hm => ⟨fun hs hd => ?_, fun hs => ?_, fun hs hd => congrArg Host.Outcome.next (sealWritten_dirty hm hs hd)⟩⟩
  · exact congrArg Host.Outcome.next (pwrfailAssert_early hp hb hm)
  · obtain ⟨l, hl⟩ := halt_modes (d := s.dev.powerFails) (hm ▸ by decide) (hm ▸ by decide) s.fuse 4 0
    refine ⟨pwrfailAssert s, rfl, ?_⟩
    rw [pwrfailAssert_assemble hp hb hm]
    dsimp only
    rw [hl, halt_pins]
    exact ⟨rfl, rfl, congrArg modeCode hm, rfl, rfl⟩
  · have hne : s.dev.powerFails.modes.mode ≠ .halted := by intro hh; rw [show s.dev.modes.mode = .halted from hh] at hm; cases hm
    refine ⟨pwrfailAssert s, rfl, ?_⟩
    rw [pwrfailAssert_host hp hb hm]
    dsimp only
    rw [enterHoldup_mode hne, enterHoldup_pins]
    exact ⟨rfl, rfl, rfl⟩
  · obtain ⟨hmode, hcause⟩ := holdupEnd_modes (d := s.dev.sealed) hm s.fuse (if s.dev.hu.thermal then 2 else 3)
    refine ⟨sealWritten s, rfl, ?_⟩
    rw [sealWritten_clean hm hs hd]
    exact ⟨hmode, by dsimp only; rw [holdupEnd_hu]; rfl, hcause, fun ht => thermtrip_holdupEnd (d := s.dev.sealed) ht _ _, rfl⟩
  · obtain ⟨hmode, hcause⟩ := holdupEnd_modes hm s.fuse 4
    refine ⟨sealWritten s, rfl, ?_⟩
    rw [sealWritten_stuck hm hs]
    exact ⟨hmode, by dsimp only; rw [holdupEnd_hu], hcause⟩

end Sys2Proof.Machine
end

section
/-! PROOFS. O29: the suppression of non-critical codes (R422). -/

namespace Sys2Proof.Machine

/-! ### What is counted of a code from a source -/

/-- The test that finds the offers of a code from a source. -/
theorem suppOf_eq (e : Evl) (code src : Nat) : e.suppOf code src = e.supp.find? (fun x => decide (x.code = code ∧ x.src = src)) := rfl

theorem key_of_suppOf {e : Evl} {code src : Nat} {x : Supp} (h : e.suppOf code src = some x) : x.code = code ∧ x.src = src := by
  simpa using List.find?_some h

/-- An offer counted changes the counts alone. -/
theorem countOffer_eq (e : Evl) (code src sup : Nat) : ∃ l, e.countOffer code src sup = { e with supp := l } := by
  simp only [Evl.countOffer]
  split <;> exact ⟨_, rfl⟩

@[simp] theorem countOffer_queues (e : Evl) (code src sup : Nat) : (e.countOffer code src sup).queues = e.queues := by
  obtain ⟨l, hl⟩ := countOffer_eq e code src sup
  rw [hl]

@[simp] theorem countOffer_holding (e : Evl) (code src sup j : Nat) : (e.countOffer code src sup).holding j = e.holding j := by
  rw [Evl.holding, countOffer_queues, Evl.holding]

/-- The first offer of a code from a source starts its second. -/
theorem suppOf_countOffer_first {e : Evl} {code src : Nat} (h : e.suppOf code src = none) (sup : Nat) :
    (e.countOffer code src sup).suppOf code src = some ⟨code, src, 1, 0⟩ := by
  simp only [Evl.countOffer, h]
  simp [suppOf_eq]

/-- The counts of every code and source, one offer of one of them counted. -/
theorem suppOf_countOffer_some {e : Evl} {code src : Nat} {x : Supp} (h : e.suppOf code src = some x) (sup c j : Nat) :
    (e.countOffer code src sup).suppOf c j = (e.suppOf c j).map (fun y =>
      if y.code = code ∧ y.src = src then ⟨y.code, y.src, y.offered + 1, y.suppressed + sup⟩ else y) := by
  simp only [Evl.countOffer, h]
  rw [suppOf_eq, suppOf_eq, List.find?_map]
  congr 2
  funext y
  simp only [Function.comp]
  split <;> rfl

/-- A further offer is counted, with those of them that were suppressed. -/
theorem suppOf_countOffer_again {e : Evl} {code src : Nat} {x : Supp} (h : e.suppOf code src = some x) (sup : Nat) :
    (e.countOffer code src sup).suppOf code src = some { x with offered := x.offered + 1, suppressed := x.suppressed + sup } := by
  rw [suppOf_countOffer_some h, h, Option.map_some, if_pos (key_of_suppOf h)]

/-- An offer leaves the counts of every other code or source alone. -/
theorem suppOf_countOffer_ne (e : Evl) {code src c j : Nat} (hne : c ≠ code ∨ j ≠ src) (sup : Nat) :
    (e.countOffer code src sup).suppOf c j = e.suppOf c j := by
  cases h : e.suppOf code src with
  | none =>
    have hkey : ¬(code = c ∧ src = j) := by rintro ⟨rfl, rfl⟩; simp at hne
    simp only [Evl.countOffer, h]
    simp [suppOf_eq, hkey]
  | some x =>
    rw [suppOf_countOffer_some h]
    refine (Option.map_congr fun y hy => if_neg ?_).trans Option.map_id'
    obtain ⟨rfl, rfl⟩ := key_of_suppOf hy
    exact not_and_or.mpr hne

/-! ### Offers (R420, R422) -/

section
variable {d : Dev} {code src : Nat} (p : List Byte)

/-- The ledger with an offer that is not suppressed counted; critical codes are not. -/
def Evl.offered (e : Evl) (code src : Nat) : Evl := if codeCritical code then e else e.countOffer code src 0

@[simp] theorem offered_queues (e : Evl) (code src : Nat) : (e.offered code src).queues = e.queues := by
  rw [Evl.offered]; split <;> simp
@[simp] theorem offered_holding (e : Evl) (code src j : Nat) : (e.offered code src).holding j = e.holding j := by
  rw [Evl.holding, offered_queues, Evl.holding]

/-- Whether an offer is taken: its code is critical, or fewer than 65 of its second are. -/
def Evl.takes (e : Evl) (code src : Nat) : Prop := codeCritical code = true ∨ ∀ x : Supp, e.suppOf code src = some x → x.offered < 64

theorem offer_taken (h : d.evl.takes code src) : d.offer code src p =
    if 8 ≤ d.evl.holding src then { (d.count aEvlDrops 0 16) with evl := d.evl.offered code src }
    else { d with evl := { d.evl.offered code src with queues := d.evl.queues ++ [⟨code, src, d.now, p.take 236⟩] } } := by
  have hpass : ¬(codeCritical code = false ∧ 64 ≤ match d.evl.suppOf code src with | some x => x.offered | none => 0) := by
    rintro ⟨hc, hn⟩
    have hfew := h.resolve_left (by simp [hc])
    cases hx : d.evl.suppOf code src with
    | none => simp [hx] at hn
    | some x => rw [hx] at hn; exact absurd (hfew x hx) (Nat.not_lt.mpr hn)
  rw [← offered_holding d.evl code src src, ← offered_queues d.evl code src]
  exact if_neg hpass

/-- An offer that is taken and finds room is queued. -/
theorem queues_offer_taken (h : d.evl.takes code src) (hroom : d.evl.holding src < 8) :
    (d.offer code src p).evl.queues = d.evl.queues ++ [⟨code, src, d.now, p.take 236⟩] := by
  rw [offer_taken p h, if_neg (Nat.not_le.mpr hroom)]

/-- An offer that is taken is counted, whether there is room for it or not. -/
theorem supp_offer_taken (h : d.evl.takes code src) : (d.offer code src p).evl.supp = (d.evl.offered code src).supp := by
  rw [offer_taken p h]
  split <;> rfl

theorem suppOf_offer_taken (h : d.evl.takes code src) (c j : Nat) :
    (d.offer code src p).evl.suppOf c j = (d.evl.offered code src).suppOf c j := by
  rw [Evl.suppOf, supp_offer_taken p h, Evl.suppOf]

/-- Offers that are taken are not counted as suppressed. -/
theorem drops_offer_taken (h : d.evl.takes code src) : (d.offer code src p).counter aEvlDrops 16 = d.counter aEvlDrops 16 := by
  rw [offer_taken p h]
  split
  · exact counter_count_ne d (by decide)
  · rfl

/-- An offer past the 64th of its second is suppressed: counted, and not queued. -/
theorem offer_suppressed {x : Supp} (hc : codeCritical code = false) (hx : d.evl.suppOf code src = some x) (hn : 64 ≤ x.offered) :
    d.offer code src p = { (d.count aEvlDrops 16 16) with evl := d.evl.countOffer code src 1 } := by
  simp [Dev.offer, hc, hx, hn]

end

/-! ### The end of a second -/

/-- The ledger with the second of a code from a source ended. -/
def Evl.secondOver (e : Evl) (code src : Nat) : Evl := { e with supp := e.supp.filter (fun y => ¬(y.code = code ∧ y.src = src)) }

theorem suppOf_secondOver_same (e : Evl) (code src : Nat) : (e.secondOver code src).suppOf code src = none := by
  rw [suppOf_eq]
  refine List.find?_eq_none.mpr fun y hy => ?_
  rw [decide_eq_true_eq]
  exact of_decide_eq_true (List.mem_filter.mp hy).2

/-- What the end of one second leaves counted was counted before. -/
theorem suppOf_secondOver {e : Evl} {code src c j : Nat} {y : Supp} (h : (e.secondOver code src).suppOf c j = some y) :
    e.suppOf c j = some y := by
  have hne : ¬(c = code ∧ j = src) := by
    rintro ⟨rfl, rfl⟩
    rw [suppOf_secondOver_same] at h
    cases h
  have hall : ∀ z : Supp, (z.code = c ∧ z.src = j) → ¬(z.code = code ∧ z.src = src) := by rintro z ⟨rfl, rfl⟩; exact hne
  rw [suppOf_eq] at h
  rw [suppOf_eq, ← h, Evl.secondOver, List.find?_filter]
  congr 1
  funext z
  by_cases hz : z.code = c ∧ z.src = j
  · simp [hz, hne]
  · simp [hz]

theorem suppressionEnd_none_suppressed {d : Dev} {code src : Nat} {x : Supp} (hx : d.evl.suppOf code src = some x) (h : x.suppressed = 0) :
    suppressionEnd code src d = { d with evl := d.evl.secondOver code src } := by
  simp [suppressionEnd, hx, h, Evl.secondOver]

/-- The record of what was suppressed, offered by the ledger's own source. -/
theorem suppressionEnd_suppressed {d : Dev} {code src : Nat} {x : Supp} (hx : d.evl.suppOf code src = some x) (h : 0 < x.suppressed) :
    suppressionEnd code src d = ({ d with evl := d.evl.secondOver code src } : Dev).offer evEvlSuppressed 192
      (payloadOf [.num 2 code, .num 1 src, .num 4 x.suppressed]) := by
  simp only [suppressionEnd, hx, Nat.ne_of_gt h, if_false]
  rfl

/-- The ledger's record of a suppression fits in a record. -/
theorem take_payloadOf_suppressed (code src n : Nat) : (payloadOf [.num 2 code, .num 1 src, .num 4 n]).take 236 =
    payloadOf [.num 2 code, .num 1 src, .num 4 n] := List.take_of_length_le (by simp [payloadOf, padTo, leBytes])

/-- Settles O29, from an offer that is taken (`offer_taken`) or suppressed (`offer_suppressed`), and the record at the second's end. -/
theorem nonCriticalCodesAreSuppressed : Obligations.NonCriticalCodesAreSuppressed := by
  rintro s e code src rfl rfl
  refine ⟨fun hc => ?_, fun hc => ⟨fun hx => ?_, fun x hx => ⟨fun hn => ?_, fun hn => ?_⟩⟩, fun x hx hpos hfew hroom => ?_, fun x hx h0 => ?_⟩
  · have htakes : s.dev.evl.takes (e.code % 0x10000) (e.src % 256) := .inl hc
    refine ⟨_, rfl, rfl, butLog_offer _ _ _ _, ?_, drops_offer_taken _ htakes, queues_offer_taken _ htakes⟩
    exact (supp_offer_taken _ htakes).trans (by rw [Evl.offered, if_pos hc])
  · have htakes : s.dev.evl.takes (e.code % 0x10000) (e.src % 256) := .inr fun y hy => by rw [hx] at hy; cases hy
    refine ⟨_, rfl, rfl, butLog_offer _ _ _ _, ?_, queues_offer_taken _ htakes⟩
    exact (suppOf_offer_taken _ htakes _ _).trans (by rw [Evl.offered, hc]; exact suppOf_countOffer_first hx 0)
  · have htakes : s.dev.evl.takes (e.code % 0x10000) (e.src % 256) := .inr fun y hy => by rw [hx] at hy; cases hy; exact hn
    refine ⟨_, rfl, rfl, butLog_offer _ _ _ _, ?_, queues_offer_taken _ htakes⟩
    exact (suppOf_offer_taken _ htakes _ _).trans (by rw [Evl.offered, hc]; exact suppOf_countOffer_again hx 0)
  · have hoff := offer_suppressed (padTo 4 e.payload) hc hx hn
    refine ⟨_, next_onDev (f := fun d => d.offer _ _ _) hoff, rfl, rfl, suppOf_countOffer_again hx 1, countOffer_queues _ _ _ _, ?_⟩
    exact Dev.counter_count _ _ _ _ _
  · generalize e.code % 0x10000 = code at *
    generalize e.src % 256 = src at *
    have htakes : (s.dev.evl.secondOver code src).takes evEvlSuppressed 192 := .inr fun y hy => hfew y (suppOf_secondOver hy)
    refine ⟨_, next_onDev (suppressionEnd_suppressed hx hpos), rfl, butLog_offer _ _ _ _, fun hne => ?_, ?_⟩
    · refine (suppOf_offer_taken _ htakes _ _).trans ?_
      exact (suppOf_countOffer_ne _ hne 0).trans (suppOf_secondOver_same _ _ _)
    · refine (queues_offer_taken (d := { s.dev with evl := s.dev.evl.secondOver code src }) _ htakes hroom).trans ?_
      rw [take_payloadOf_suppressed]
      rfl
  · exact ⟨_, next_onDev (suppressionEnd_none_suppressed hx h0), rfl, rfl, suppOf_secondOver_same _ _ _⟩

end Sys2Proof.Machine
end

section
/-! PROOFS. O30: records stored, persisted and never overwritten (R419, R421, R423, R427, R429). -/

namespace Sys2Proof.Machine

/-! ### A record is stored (R419, R421, R423) -/

/-- The oldest queued record with the next number. -/
def Evl.numbered (e : Evl) (h : Held) : LRec := ⟨e.next, h.code, h.src, h.ts, h.payload⟩

section
variable {e : Evl} {h : Held}

theorem store_early (hon : e.mainOn = false) (hfull : e.earlyFull = false) (hfit : usedBy e.early + (e.numbered h).len ≤ earlySize) :
    e.store h = { e with early := e.early ++ [e.numbered h], next := (e.next + 1) % 2 ^ 32 } := by
  rw [Evl.store, if_neg (by simp [hon])]
  have hroom : ¬(e.earlyFull || decide (earlySize < usedBy e.early + (e.numbered h).len)) = true := by simp [hfull, hfit]
  exact if_neg hroom

theorem store_earlyOver (hon : e.mainOn = false) (hfull : e.earlyFull = true ∨ earlySize < usedBy e.early + (e.numbered h).len) :
    e.store h = { e with earlyFull := true, earlyOver := sat 16 (e.earlyOver + 1) } := by
  rw [Evl.store, if_neg (by simp [hon])]
  have hover : (e.earlyFull || decide (earlySize < usedBy e.early + (e.numbered h).len)) = true := by simpa using hfull
  exact if_pos hover

theorem store_over (hon : e.mainOn = true) (hfull : e.mainFull = true ∨ mainSize < usedBy e.main + (e.numbered h).len) :
    e.store h = { e with mainFull := true, overflow := sat 32 (e.overflow + 1) } := by
  rw [Evl.store, if_pos hon]
  have hover : (e.mainFull || decide (mainSize < usedBy e.main + (e.numbered h).len)) = true := by simpa using hfull
  exact if_pos hover

/-- A record that fits in the main ledger is appended to it, and no stored record changes. -/
theorem store_main (hon : e.mainOn = true) (hfull : e.mainFull = false) (hfit : usedBy e.main + (e.numbered h).len ≤ mainSize) :
    e.store h = (fun x : Evl =>
      if codeCritical h.code then
        if e.earlyFull || decide (earlySize < usedBy e.early + (e.numbered h).len) then { x with earlyFull := true }
        else { x with early := e.early ++ [e.numbered h] }
      else x) { e with main := e.main ++ [e.numbered h], next := (e.next + 1) % 2 ^ 32 } := by
  rw [Evl.store, if_pos hon]
  have hroom : ¬(e.mainFull || decide (mainSize < usedBy e.main + (e.numbered h).len)) = true := by simp [hfull, hfit]
  exact if_neg hroom

/-- What the early buffer holds besides leaves the main ledger's side as it is. -/
theorem store_main_side (hon : e.mainOn = true) (hfull : e.mainFull = false) (hfit : usedBy e.main + (e.numbered h).len ≤ mainSize) :
    ∃ l f, e.store h =
      { e with main := e.main ++ [e.numbered h], next := (e.next + 1) % 2 ^ 32, early := l, earlyFull := f } := by
  rw [store_main hon hfull hfit]
  dsimp only
  (repeat' split) <;> exact ⟨_, _, rfl⟩

theorem early_store_main (hon : e.mainOn = true) (hfull : e.mainFull = false) (hfit : usedBy e.main + (e.numbered h).len ≤ mainSize)
    (hc : codeCritical h.code = false) : (e.store h).early = e.early := by
  rw [store_main hon hfull hfit]
  simp only [hc, Bool.false_eq_true, if_false]

/-- A critical record is copied to the early buffer while that has room (R423). -/
theorem early_store_main_critical (hon : e.mainOn = true) (hfull : e.mainFull = false)
    (hfit : usedBy e.main + (e.numbered h).len ≤ mainSize) (hc : codeCritical h.code = true) (he : e.earlyFull = false)
    (hroom : usedBy e.early + (e.numbered h).len ≤ earlySize) : (e.store h).early = e.early ++ [e.numbered h] := by
  have hcopy : ¬(e.earlyFull || decide (earlySize < usedBy e.early + (e.numbered h).len)) = true := by simp [he, hroom]
  rw [store_main hon hfull hfit]
  simp only [hc, if_true, if_neg hcopy]

end

theorem ledgerIntake_cons {d : Dev} {h : Held} {l : List Held} (hq : d.evl.queues = h :: l) :
    ledgerIntake d = { d with evl := ({ d.evl with queues := l } : Evl).store h } := by
  simp only [ledgerIntake, hq]

theorem ledgerIntake_nil {d : Dev} (hq : d.evl.queues = []) : ledgerIntake d = d := by
  simp only [ledgerIntake, hq]

/-! ### What a completion leaves of the records (R135) -/

/-- The ledger without the queues and the counts of offers: what is stored, persisted and read. -/
def Evl.stored (e : Evl) : Evl := { e with queues := [], supp := [] }

/-- What is stored, persisted and read of the device's ledger. -/
def Dev.archive (d : Dev) : Evl := d.evl.stored

theorem stored_countOffer (e : Evl) (c src n : Nat) : (e.countOffer c src n).stored = e.stored := by
  obtain ⟨l, hl⟩ := countOffer_eq e c src n
  rw [hl]
  rfl

theorem stored_offered (e : Evl) (c src : Nat) : (e.offered c src).stored = e.stored := by
  rw [Evl.offered]
  split
  · rfl
  · exact stored_countOffer e c src 0

theorem archive_offer (d : Dev) (c src : Nat) (p : List Byte) : (d.offer c src p).archive = d.archive := by
  by_cases h : d.evl.takes c src
  · rw [offer_taken p h]
    split
    · exact stored_offered _ _ _
    · exact stored_offered d.evl c src
  · simp only [Evl.takes, not_or, not_forall] at h
    obtain ⟨hc, x, hx, hn⟩ := h
    rw [offer_suppressed p (Bool.eq_false_iff.mpr hc) hx (Nat.not_lt.mp hn)]
    exact stored_countOffer _ _ _ _

@[simp] theorem archive_ev (d : Dev) (c i : Nat) (l : List PField) : (d.ev c i l).archive = d.archive := archive_offer d _ _ _

@[simp] theorem archive_modFn (d : Dev) (f : Fn) (g : FnSt → FnSt) : (d.modFn f g).archive = d.archive := rfl
@[simp] theorem archive_modSlot (d : Dev) (k : Nat) (f : CSlot → CSlot) : (d.modSlot k f).archive = d.archive := rfl
@[simp] theorem archive_discardCpl (d : Dev) (s : CSlot) : (d.discardCpl s).archive = d.archive := rfl
@[simp] theorem archive_count (d : Dev) (a lo w n : Nat) : (d.count a lo w n).archive = d.archive := rfl
@[simp] theorem archive_emit (d : Dev) (o : Out) : (d.emit o).archive = d.archive := rfl
@[simp] theorem archive_signal (d : Dev) (f : Fn) (v : Nat) : (d.signal f v).archive = d.archive := by
  simp only [Dev.signal]; (repeat' split) <;> rfl
@[simp] theorem archive_cqInterrupt (d : Dev) (f : Fn) (v : Nat) : (d.cqInterrupt f v).archive = d.archive := by
  simp only [Dev.cqInterrupt]; (repeat' split) <;> simp
@[simp] theorem archive_settleFn (d : Dev) (f : Fn) : (d.settleFn f).archive = d.archive := by
  simp only [Dev.settleFn]; (repeat' split) <;> rfl
@[simp] theorem archive_freeSlot (d : Dev) (cs : Nat) : (d.freeSlot cs).archive = d.archive := by
  simp only [Dev.freeSlot]
  split
  · rfl
  · exact (archive_settleFn _ _).trans rfl
@[simp] theorem archive_post (d : Dev) (cs : Nat) (s : CSlot) (qid : Nat) (q : Cq) (e : Cqe) : (d.post cs s qid q e).archive = d.archive := by
  simp only [Dev.post, archive_freeSlot]; split <;> simp

/-- A completion stores, persists and removes no record. -/
@[simp] theorem archive_complete (d : Dev) (cs : Nat) (e : Cqe) : (d.complete cs e).archive = d.archive := by
  have hrun : ∀ r, Dev.archive { d with adm := { d.adm with running := r } } = d.archive := fun _ => rfl
  simp only [Dev.complete]
  (repeat' split) <;> simp [hrun]

/-! ### Persists (R427) and new volumes (R429) -/

/-- The device with no persist running. -/
def Dev.persistOver (d : Dev) : Dev := { d with evl := { d.evl with persisting := none } }

theorem endPersist_none (d : Dev) (head : Nat) :
    d.endPersist head 0 = ({ d with evl := { d.evl with lastFailed := true } } : Dev).ev evEvlPersistFail 0 [] := by
  simp only [Dev.endPersist, if_true]

/-- The records of a persist that fit in the volume, and what the volume then is. -/
def Dev.persisted (d : Dev) (head : Nat) : List LRec × Nat × Nat × Bool := fitVolume (d.evl.toPersist head) d.evl.volBytes d.evl.volFull

/-- A persist that some Quire took moves next_seq to the latched head, and takes no record from the main ledger. -/
theorem archive_endPersist_some (d : Dev) (head : Nat) {n : Nat} (hn : n ≠ 0) : (d.endPersist head n).archive =
    { d.archive with
      persistNext := head, lastFailed := false, curVol := d.evl.curVol ++ (d.persisted head).1
      volBytes := (d.persisted head).2.2.1, volFull := (d.persisted head).2.2.2, curOver := d.evl.curOver + (d.persisted head).2.1 } := by
  simp only [Dev.endPersist, hn, if_false]
  split
  · rw [archive_ev, archive_ev]
    rfl
  · rw [archive_ev]
    rfl

@[simp] theorem butLog_endPersist (d : Dev) (head n : Nat) : (d.endPersist head n).butLog = d.butLog := by
  simp only [Dev.endPersist]
  split
  · exact (butLog_ev _ _ _ _).trans rfl
  split
  · exact (butLog_ev _ _ _ _).trans (butLog_ev _ _ _ _)
  · exact (butLog_ev _ _ _ _).trans rfl

/-- A new volume removes the records below the head, and starts empty (R429). -/
theorem archive_newVolume (d : Dev) (head : Nat) : (d.newVolume head).archive =
    { d.archive with
      prevVol := d.evl.curVol, prevOver := d.evl.curOver, curVol := [], curOver := 0, volBytes := 0, volFull := false
      main := d.evl.main.filter (fun r => decide (head ≤ r.seq)), mainFull := false, overflow := 0, removed := head
      volume := (d.evl.volume + 1) % 2 ^ 32
      ctxs := d.evl.ctxs.map (fun (c : Nat × RCtx) => (c.1, { c.2 with stale := c.2.latched })) } := by
  simp only [Dev.newVolume]
  rw [archive_ev]
  rfl

@[simp] theorem butLog_newVolume (d : Dev) (head : Nat) : (d.newVolume head).butLog = d.butLog := by
  simp only [Dev.newVolume]
  exact (butLog_ev _ _ _ _).trans rfl

section
variable {d : Dev} {cs head : Nat} (hp : d.evl.persisting = some (.newVolume cs, head)) (hw : d.evl.waiting = [])
include hp hw

/-- A persist of Ledger New Volume that no Quire took fails the command. -/
theorem ledgerPersistDone_none : ledgerPersistDone 0 d = (d.persistOver.endPersist head 0).complete cs cqePersistFailed := by
  have hwait : ((d.persistOver.endPersist head 0).complete cs cqePersistFailed).evl.waiting = [] := by
    refine (congrArg Evl.waiting (archive_complete (d.persistOver.endPersist head 0) cs cqePersistFailed)).trans ?_
    rw [endPersist_none, archive_ev]
    exact hw
  simp only [Dev.persistOver] at hwait
  simp only [ledgerPersistDone, hp, if_true, hwait, Dev.persistOver]

/-- Otherwise the command completes with the new volume. -/
theorem ledgerPersistDone_some {n : Nat} (hn : n ≠ 0) :
    ledgerPersistDone n d = ((d.persistOver.endPersist head n).newVolume head).complete cs cqeOk := by
  have hwait : (((d.persistOver.endPersist head n).newVolume head).complete cs cqeOk).evl.waiting = [] := by
    refine (congrArg Evl.waiting (archive_complete ((d.persistOver.endPersist head n).newVolume head) cs cqeOk)).trans ?_
    rw [archive_newVolume, archive_endPersist_some _ _ hn]
    exact hw
  simp only [Dev.persistOver] at hwait
  simp only [ledgerPersistDone, hp, if_neg hn, hwait, Dev.persistOver]

/-- What the new volume leaves of the ledger. -/
theorem archive_newVolumeDone {n : Nat} (hn : n ≠ 0) : ∃ x : Evl, (ledgerPersistDone n d).archive = x ∧ x.persistNext = head
    ∧ x.volume = (d.evl.volume + 1) % 2 ^ 32 ∧ x.lastFailed = false ∧ x.persisting = none ∧ x.mainFull = false ∧ x.overflow = 0
    ∧ x.main = d.evl.main.filter (fun r => decide (head ≤ r.seq)) := by
  have hend := archive_endPersist_some d.persistOver head hn
  have hvol : (d.persistOver.endPersist head n).evl.volume = d.evl.volume := by have h := congrArg Evl.volume hend; exact h
  have hmain : (d.persistOver.endPersist head n).evl.main = d.evl.main := by have h := congrArg Evl.main hend; exact h
  refine ⟨_, (congrArg Dev.archive (ledgerPersistDone_some hp hw hn)).trans ((archive_complete _ _ _).trans (archive_newVolume _ _)),
    ?_, ?_, ?_, ?_, rfl, rfl, ?_⟩
  · rw [hend]
  · exact congrArg (fun v => (v + 1) % 2 ^ 32) hvol
  · rw [hend]
  · rw [hend]; rfl
  · exact congrArg (List.filter _) hmain

end

/-- Settles O30, from what a record that is stored changes (`store_main`, `store_early`, `store_over`), and from the new volume. -/
theorem recordsAreNeverOverwritten : Obligations.RecordsAreNeverOverwritten := by
  refine fun s => ⟨fun h l r hq hr => ⟨fun hon => ⟨fun hfull hfit => ?_, fun hfull => ?_⟩, fun hon => ⟨fun hfull hfit => ?_, fun hfull => ?_⟩⟩,
    fun hq => next_onDev (ledgerIntake_nil hq), fun cs head n hp hw hn => ?_⟩
  · subst hr
    obtain ⟨x, f, hside⟩ := store_main_side (e := { s.dev.evl with queues := l }) (h := h) hon hfull hfit
    refine ⟨s.onDev ledgerIntake, rfl, rfl, ?_⟩
    rw [State.onDev_dev, ledgerIntake_cons hq]
    refine ⟨rfl, ?_, ?_, ?_, ?_, ?_, early_store_main (e := { s.dev.evl with queues := l }) hon hfull hfit,
      early_store_main_critical (e := { s.dev.evl with queues := l }) hon hfull hfit⟩ <;> dsimp only <;> rw [hside]
    · rfl
    · exact hfull
  · subst hr
    exact next_onDev (by rw [ledgerIntake_cons hq, store_over (by exact hon) (by exact hfull)])
  · subst hr
    exact next_onDev (by rw [ledgerIntake_cons hq, store_early (by exact hon) (by exact hfull) (by exact hfit)]; rfl)
  · subst hr
    exact next_onDev (by rw [ledgerIntake_cons hq, store_earlyOver (by exact hon) (by exact hfull)])
  · obtain ⟨x, hx, -, -, -, -, hfull, hover, hmain⟩ := archive_newVolumeDone hp hw (Nat.ne_of_gt hn)
    refine ⟨s.onDev (ledgerPersistDone n), rfl, rfl, ?_, ?_, ?_⟩
    · exact (congrArg Evl.mainFull hx).trans hfull
    · exact (congrArg Evl.overflow hx).trans hover
    · exact (congrArg Evl.main hx).trans hmain

end Sys2Proof.Machine
end

section
/-! PROOFS. O28: reader contexts of the ledger, Ledger New Volume and Hold-Up Test Now (R392, R424, R427, R429, R430). -/

namespace Sys2Proof.Machine

/-! ### Reader contexts (R424) -/

/-- A change of a reader context reads back, and changes nothing but the contexts. -/
theorem ctx_modCtx (d : Dev) (k : Nat) (f : RCtx → RCtx) : (d.modCtx k f).evl.ctx k = f (d.evl.ctx k) := Tbl.get_mod_same _ _ _ _

section
variable {d : Dev} {k : Nat} (hk : k < 4) (hon : d.evl.mainOn = true)
include hk hon

theorem ledgerLatch_on : ledgerLatch k d =
    d.modCtx k (fun c => { c with latched := true, head := d.evl.next, volume := d.evl.volume, stale := false }) := if_pos ⟨hk, hon⟩

theorem ledgerCursor_on (seq : Nat) : ledgerCursor k seq d = d.modCtx k (fun c => { c with cursor := seq % 2 ^ 32 }) := if_pos ⟨hk, hon⟩

theorem ledgerNext_on : ledgerNext k d =
    d.modCtx k (fun c => { c with cursor := ((d.evl.nextAfter c.cursor).map (·.seq)).getD ((c.cursor + 1) % 2 ^ 32) }) := if_pos ⟨hk, hon⟩

end

/-! ### Commands that wait for a persist or a test (R392, R429) -/

/-- A started command of the sequencer, then changed, in its slot. -/
theorem slot_seqStart {d : Dev} {cs : Nat} {x : CSlot} (h : d.hg.slots.get? cs = some x) :
    (d.seqStart cs).hg.slots.get? cs = some { x with st := .committed, wait := .nothing } := by
  simp [Dev.seqStart, h]

/-- A vendor command whose reserved dwords are 0. -/
theorem reserved_clear {x : CSlot} (h : (List.range 6).all (fun i => decide (x.dw (10 + i) = 0)) = true) :
    (List.range 6).any (fun i => decide (x.dw (10 + i) ≠ 0)) = false := by
  simpa [List.any_eq_false, List.all_eq_true] using h

theorem startPersist_idle {d : Dev} (h : d.evl.persisting = none) (w : PersistFor) :
    d.startPersist w = { d with evl := { d.evl with persisting := some (w, d.evl.next) } } := by
  simp only [Dev.startPersist, h]

/-- The device with a started command that waits. -/
def Dev.seqWaits (d : Dev) (cs : Nat) (w : SlWait) : Dev := (d.seqStart cs).modSlot cs (fun s => { s with wait := w })

theorem slot_seqWaits {d : Dev} {cs : Nat} {x : CSlot} (h : d.hg.slots.get? cs = some x) (w : SlWait) :
    (d.seqWaits cs w).hg.slots.get? cs = some { x with st := .committed, wait := w } :=
  (Dev.slots_modSlot _ _ _).trans (congrArg (Option.map _) (slot_seqStart h))

theorem ledgerNewVolume_due {d : Dev} {cs : Nat} {x : CSlot} (hx : (List.range 6).all (fun i => decide (x.dw (10 + i) = 0)) = true)
    (h : d.seqDue cs 0xC0 x) (hidle : d.evl.persisting = none) : ledgerNewVolume cs d =
      { d.seqWaits cs .persist with evl := { d.evl with persisting := some (.newVolume cs, d.evl.next) } } := by
  rw [ledgerNewVolume, seqRun_due h, if_neg (Bool.eq_false_iff.mp (reserved_clear hx))]
  exact startPersist_idle (d := d.seqWaits cs .persist) hidle _

theorem holdUpTestNow_due {d : Dev} {cs : Nat} {x : CSlot} (hx : (List.range 6).all (fun i => decide (x.dw (10 + i) = 0)) = true)
    (h : d.seqDue cs 0xC4 x) (ht : d.testMode = true) (hb : d.hu.busy = false) : holdUpTestNow cs d =
      { d.seqWaits cs .test with hu := { d.startTest.hu with waiters := d.hu.waiters ++ [cs] } } := by
  have ht' : (d.seqStart cs).testMode = true := ht
  have hb' : (d.seqStart cs).hu.busy = false := hb
  rw [holdUpTestNow, seqRun_due h, if_neg (Bool.eq_false_iff.mp (reserved_clear hx))]
  simp only [hb', ht', Bool.not_true, Bool.or_self, Bool.false_eq_true, if_false]
  rfl

/-- A persist or a new volume leaves the command able to complete. -/
theorem postable_of_butLog {d e : Dev} {cs : Nat} {x : CSlot} (h : e.butLog = d.butLog) (hx : d.postable cs x) : e.postable cs x :=
  Dev.postable_of_request hx (by have hs := congrArg Dev.fns h; exact hs)
    (by have hs : e.hg = d.hg := by { have hg := congrArg Dev.hg h; exact hg }
        rw [hs]
        exact hx.1) rfl

/-- The completion of Ledger New Volume once the ledger has changed. -/
theorem posted_of_butLog {d e : Dev} {cs : Nat} {x : CSlot} (h : e.butLog = d.butLog) (hx : d.postable cs x) (c : Cqe) :
    (e.complete cs c).posted d.out cs x c := by
  have hout : e.out = d.out := by have hs := congrArg Dev.out h; exact hs
  rw [← hout]
  exact complete_posted (postable_of_butLog h hx) c

/-- Settles O28, from the contexts' meanings, the persist that a command starts, and what its end leaves (`archive_newVolumeDone`). -/
theorem ledgerReadersAndVolumes : Obligations.LedgerReadersAndVolumes := by
  refine ⟨fun s k hk hon => ⟨?_, fun seq => ?_, ?_⟩,
    fun s cs x => ⟨fun hx => ⟨fun hdue hidle => ?_, fun hdue ht hb => ?_⟩, fun head hp hw hpost => ⟨?_, fun n hn => ?_⟩⟩⟩
  · exact ⟨_, next_onDev (ledgerLatch_on hk hon), rfl, ctx_modCtx _ _ _, rfl⟩
  · exact ⟨_, next_onDev (ledgerCursor_on hk hon seq), rfl, ctx_modCtx _ _ _, rfl⟩
  · refine ⟨_, next_onDev (ledgerNext_on hk hon), rfl, rfl, ?_, ?_⟩
    · rw [ctx_modCtx]
      cases s.dev.evl.nextAfter (s.dev.evl.ctx k).cursor <;> rfl
    · rw [ctx_modCtx]
  · refine ⟨_, next_onDev (ledgerNewVolume_due hx hdue hidle), rfl, rfl, ?_, rfl⟩
    exact slot_seqWaits (seqSlot_eq_some hdue.1).1 .persist
  · refine ⟨_, next_onDev (holdUpTestNow_due hx hdue ht hb), rfl, rfl, ?_, rfl⟩
    exact slot_seqWaits (seqSlot_eq_some hdue.1).1 .test
  · have hlog : (s.dev.persistOver.endPersist head 0).butLog = s.dev.butLog := butLog_endPersist _ _ _
    have hkept : ((s.dev.persistOver.endPersist head 0).complete cs cqePersistFailed).archive
        = { s.dev.archive with persisting := none, lastFailed := true } := by
      rw [archive_complete, endPersist_none, archive_ev]
      rfl
    refine ⟨_, next_onDev (ledgerPersistDone_none hp hw), rfl, posted_of_butLog hlog hpost _, ?_, ?_, ?_⟩
    · have h := congrArg Evl.persistNext hkept; exact h
    · have h := congrArg Evl.volume hkept; exact h
    · have h := congrArg Evl.lastFailed hkept; exact h
  · obtain ⟨y, hy, hnext, hvol, hfailed, hnone, -, -, hmain⟩ := archive_newVolumeDone hp hw (Nat.ne_of_gt hn)
    have hlog : ((s.dev.persistOver.endPersist head n).newVolume head).butLog = s.dev.butLog :=
      (butLog_newVolume _ _).trans (butLog_endPersist _ _ _)
    refine ⟨s.onDev (ledgerPersistDone n), rfl, rfl, ?_, (congrArg Evl.persistNext hy).trans hnext, (congrArg Evl.volume hy).trans hvol,
      (congrArg Evl.lastFailed hy).trans hfailed, (congrArg Evl.persisting hy).trans hnone, (congrArg Evl.main hy).trans hmain⟩
    rw [State.onDev_dev, ledgerPersistDone_some hp hw (Nat.ne_of_gt hn)]
    exact posted_of_butLog hlog hpost _

end Sys2Proof.Machine
end

section
/-! PROOFS. O13: temperature samples, throttle counts and rail steps (R77, R381 to R389). -/

namespace Sys2Proof.Machine

variable (d : Dev)

/-! ### What the temperatures, the weirs and the die's throttle count are seen by -/

/-- The temperatures with their weirs, and the die's throttle count. -/
def Dev.heat (d : Dev) : Thm × Nat := (d.thm, d.slu.kD)

theorem heat_of_work {a b : Dev} (h : a.butWork = b.butWork) : a.heat = b.heat := by
  have hs := congrArg Dev.heat h
  exact hs
theorem heat_of_host {a b : Dev} (h : a.butHost = b.butHost) : a.heat = b.heat := by
  have hs := congrArg Dev.heat h
  exact hs

@[simp] theorem heat_ev (c i : Nat) (l : List PField) : (d.ev c i l).heat = d.heat := heat_of_host (butHost_ev d c i l)
@[simp] theorem heat_aenAll (e : AEvent) (w : Option Nat) (p : Fn → Bool) : (d.aenAll e w p).heat = d.heat :=
  heat_of_host (butHost_aenAll d e w p)
@[simp] theorem heat_sluPump : d.sluPump.heat = d.heat := heat_of_work (butWork_sluPump d)
@[simp] theorem heat_setCond (i : Nat) (v : Bool) : (d.setCond i v).heat = d.heat := by
  have h := congrArg Dev.heat (butCond_setCond d i v)
  exact h
@[simp] theorem heat_tempEvent (was : Bool) : (d.tempEvent was).heat = d.heat := by
  simp only [Dev.tempEvent]; split <;> simp
@[simp] theorem heat_promiseEval : d.promiseEval.heat = d.heat := by
  simp only [Dev.promiseEval]
  split
  · rfl
  · exact heat_ev _ _ _ _

/-- The throttle count that is set reads back; the temperatures stay (R385). -/
theorem heat_setKd (k : Nat) : (d.setKd k).heat = (d.thm, k) := by
  simp only [Dev.setKd]
  split
  next h => rw [h]; rfl
  · rw [heat_sluPump, heat_setCond, heat_ev]
    rfl

/-! ### The crossings of a sample (R383, R385) -/

/-- Whether a weir comes to be crossed. -/
def newlyCrossed (a b : Weir) : Bool := b.crossed && !a.crossed

/-- The throttle count after the crossings of a sample, `o` being the weirs before it. -/
def Dev.throttled (d : Dev) (o : Thm) : Nat :=
  if newlyCrossed o.critical d.thm.critical then 16 else if newlyCrossed o.throttle d.thm.throttle then min 16 (d.slu.kD + 1) else d.slu.kD

/-- The crossings that are only reported. -/
def Dev.weirsTold (d : Dev) (o : Thm) : Dev :=
  let n := d.thm
  let d := if newlyCrossed o.hotWarn n.hotWarn then d.ev evThmHotWarn 0 [] else d
  let d := if newlyCrossed o.coldWarn n.coldWarn then d.ev evThmColdWarn 0 [] else d
  if newlyCrossed o.coldLimit n.coldLimit then (d.ev evThmColdLimit 0 []).aenAll aeTemperature (some 1) else d

/-- The crossings report, then move the throttle count. -/
theorem weirActs_eq (o : Thm) : d.weirActs o =
    (fun e : Dev => if newlyCrossed o.critical d.thm.critical then e.setKd 16
      else if newlyCrossed d.thm.critical o.critical then e.sluPump else e)
    (if newlyCrossed o.throttle d.thm.throttle then (d.weirsTold o).setKd (min 16 ((d.weirsTold o).slu.kD + 1)) else d.weirsTold o) := rfl

@[simp] theorem heat_weirsTold (o : Thm) : (d.weirsTold o).heat = d.heat := by
  simp only [Dev.weirsTold]
  (repeat' split) <;> simp

theorem heat_weirActs (o : Thm) : (d.weirActs o).heat = (d.thm, d.throttled o) := by
  have htold := heat_weirsTold d o
  have hk : (d.weirsTold o).slu.kD = d.slu.kD := congrArg Prod.snd htold
  have hthm : (d.weirsTold o).thm = d.thm := congrArg Prod.fst htold
  have hstep : (if newlyCrossed o.throttle d.thm.throttle then (d.weirsTold o).setKd (min 16 ((d.weirsTold o).slu.kD + 1))
      else d.weirsTold o).heat = (d.thm, if newlyCrossed o.throttle d.thm.throttle then min 16 (d.slu.kD + 1) else d.slu.kD) := by
    split
    · rw [heat_setKd, hk, hthm]
    · exact htold
  rw [weirActs_eq]
  generalize (if newlyCrossed o.throttle d.thm.throttle then (d.weirsTold o).setKd (min 16 ((d.weirsTold o).slu.kD + 1))
    else d.weirsTold o) = e at hstep ⊢
  simp only [Dev.throttled]
  split
  · rw [heat_setKd, show e.thm = d.thm from congrArg Prod.fst hstep]
  · split
    · rw [heat_sluPump, hstep]
    · exact hstep

/-! ### The mode while heat acts -/

/-- A mode that the device can halt from. -/
def Dev.awake (d : Dev) : Prop := d.modes.mode ≠ .halted ∧ d.modes.mode ≠ .off

variable {d}

theorem awake_setCond (h : d.awake) (i : Nat) (v : Bool) : (d.setCond i v).awake := by
  cases hs : servingMode d.modes.mode with
  | false => rwa [Dev.awake, (setCond_notServing hs i v).2]
  | true =>
    have hserve := setCond_serving hs i v
    exact ⟨ne_of_servingMode hserve rfl, ne_of_servingMode hserve rfl⟩

theorem awake_of_modes {e : Dev} (h : d.awake) (he : e.modes = d.modes) : e.awake := by rwa [Dev.awake, he]

theorem awake_setKd (h : d.awake) (k : Nat) : (d.setKd k).awake := by
  simp only [Dev.setKd]
  split
  · exact h
  · refine awake_of_modes (awake_setCond (awake_of_modes h ?_) 0 (decide (0 < k))) (modes_of_work (butWork_sluPump _))
    rw [Dev.ev_modes]

theorem awake_weirsTold (h : d.awake) (o : Thm) : (d.weirsTold o).awake := by
  refine awake_of_modes h ?_
  simp only [Dev.weirsTold]
  (repeat' split) <;> simp [modes_of_sequencer (sequencer_aenAll _ _ _ _)]

theorem awake_weirActs (h : d.awake) (o : Thm) : (d.weirActs o).awake := by
  have hstep : (if newlyCrossed o.throttle d.thm.throttle then (d.weirsTold o).setKd (min 16 ((d.weirsTold o).slu.kD + 1))
      else d.weirsTold o).awake := by
    split
    · exact awake_setKd (awake_weirsTold h o) _
    · exact awake_weirsTold h o
  rw [weirActs_eq]
  dsimp only
  split
  · exact awake_setKd hstep 16
  · split
    · exact awake_of_modes hstep (modes_of_work (butWork_sluPump _))
    · exact hstep

theorem awake_tempEvent (h : d.awake) (was : Bool) : (d.tempEvent was).awake := by
  refine awake_of_modes h ?_
  simp only [Dev.tempEvent]
  split
  · exact modes_of_sequencer (sequencer_aenAll _ _ _ _)
  · rfl

/-! ### Samples (R382, R389) -/

/-- The device without its sensors, its ledger and its counting registers. -/
def Dev.butSensors (d : Dev) : Dev := { d.butLog with thm := { d.thm with sensors := [] } }

theorem butSensors_ev (d : Dev) (c i : Nat) (l : List PField) : (d.ev c i l).butSensors = d.butSensors := by
  have h := congrArg (fun x : Dev => { x with thm := { x.thm with sensors := [] } }) (butLog_ev d c i l)
  exact h

/-- A sample changes the sensors, and records what it excludes or restores. -/
theorem butSensors_takeSamples (d : Dev) (temps : List Int) : (d.takeSamples temps).butSensors = d.butSensors := by
  refine foldl_keeps Dev.butSensors _ (fun e i => ?_) _ d
  dsimp only
  split
  · rfl
  · exact (butSensors_ev _ _ _ _).trans rfl
  · exact (butSensors_ev _ _ _ _).trans rfl

/-- The sampled device, at the junction temperature's weirs. -/
def Dev.weighed (d : Dev) (temps : List Int) : Dev :=
  { d.takeSamples temps with thm := (d.takeSamples temps).thm.weirs (d.takeSamples temps).junction }

/-- The sampled device once its crossings have acted. -/
def Dev.warmed (d : Dev) (temps : List Int) : Dev := ((d.weighed temps).weirActs d.thm).tempEvent d.tempOver

/-- Whether some sensor in use has read 120 °C or more twice. -/
def Dev.overheated (d : Dev) : Bool := (List.range 48).any (fun i => !(d.sensor i).excluded && decide (2 ≤ (d.sensor i).hot))

theorem heat_warmed (d : Dev) (temps : List Int) :
    (d.warmed temps).heat = ((d.takeSamples temps).thm.weirs (d.takeSamples temps).junction, (d.weighed temps).throttled d.thm) := by
  rw [Dev.warmed, heat_tempEvent, heat_weirActs]
  rfl

theorem overheated_warmed (d : Dev) (temps : List Int) : (d.warmed temps).overheated = (d.takeSamples temps).overheated := by
  have hthm : (d.warmed temps).thm = (d.takeSamples temps).thm.weirs (d.takeSamples temps).junction := congrArg Prod.fst (heat_warmed d temps)
  have hsensor : ∀ i, (d.warmed temps).sensor i = (d.takeSamples temps).sensor i := fun i => by rw [Dev.sensor, hthm]; rfl
  simp only [Dev.overheated, hsensor]

theorem weighed_kD (d : Dev) (temps : List Int) : (d.weighed temps).slu.kD = d.slu.kD := by
  have h := congrArg (·.slu.kD) (butSensors_takeSamples d temps)
  exact h

theorem awake_warmed {d : Dev} (h : d.awake) (temps : List Int) : (d.warmed temps).awake := by
  have hmodes : (d.weighed temps).modes = d.modes := by have hm := congrArg Dev.modes (butSensors_takeSamples d temps); exact hm
  exact awake_tempEvent (awake_weirActs (awake_of_modes h hmodes) _) _

section
variable {s : State} {temps : List Int} (hm : s.dev.modes.mode ≠ .off) (hl : temps.length = 48)
include hm hl

/-- A sample acts, and then may trip the device or start the Hold-Up sequence. -/
theorem tempSample_eq : tempSample temps s = { s with dev :=
    (if (s.dev.warmed temps).overheated then (s.dev.warmed temps).trip120 s.fuse
      else if (s.dev.warmed temps).thm.shutdown.crossed && !s.dev.thm.shutdown.crossed then (s.dev.warmed temps).shutdownWeir s.fuse
      else s.dev.warmed temps).promiseEval } :=
  if_neg (not_or.mpr ⟨hm, not_not.mpr hl⟩)

theorem tempSample_cool (hhot : (s.dev.takeSamples temps).overheated = false)
    (hs : ((s.dev.takeSamples temps).thm.weirs (s.dev.takeSamples temps).junction).shutdown.crossed = false) :
    tempSample temps s = { s with dev := (s.dev.warmed temps).promiseEval } := by
  have hthm : (s.dev.warmed temps).thm.shutdown.crossed = false := by
    rw [show (s.dev.warmed temps).thm = _ from congrArg Prod.fst (heat_warmed s.dev temps)]
    exact hs
  rw [tempSample_eq hm hl, overheated_warmed, hhot, hthm]
  rfl

theorem tempSample_hot (hhot : (s.dev.takeSamples temps).overheated = true) :
    tempSample temps s = { s with dev := ((s.dev.warmed temps).trip120 s.fuse).promiseEval } := by
  rw [tempSample_eq hm hl, overheated_warmed, hhot]
  rfl

end

/-- What the promise leaves: it is recorded in the mode's state. -/
theorem promiseEval_mode (d : Dev) : d.promiseEval.modes.mode = d.modes.mode ∧ d.promiseEval.pins = d.pins := by
  simp only [Dev.promiseEval]
  split <;> simp

theorem promiseEval_slu (d : Dev) : d.promiseEval.slu = d.slu := by
  simp only [Dev.promiseEval]
  split <;> simp

/-- The trip asserts THERMTRIP_N and halts the device (R389). -/
theorem trip120_halts {d : Dev} (h : d.awake) (fuse : Fuses) :
    (d.trip120 fuse).modes.mode = .halted ∧ (d.trip120 fuse).pins.thermtrip = true := by
  have hcause : ∀ c, (d.thermtrip.halt fuse c).modes.mode = .halted ∧ (d.thermtrip.halt fuse c).pins.thermtrip = true := fun c => by
    obtain ⟨l, hl⟩ := halt_modes (d := d.thermtrip) h.1 h.2 fuse c 0
    rw [hl, halt_pins]
    exact ⟨rfl, rfl⟩
  exact hcause _

/-! ### The steps of the timers (R381, R385) -/

/-- The device with a number of rail steps. -/
def Dev.withRailSteps (d : Dev) (k : Nat) : Dev := { d with slu := { d.slu with kR := k } }

theorem railStep_over {d : Dev} (hm : d.modes.mode ≠ .off) (hp : maxPower d.modes.hostPs < d.slu.power) (hk : d.slu.kR < 16) :
    railStep d = (d.withRailSteps (d.slu.kR + 1)).setCond 2 true := by
  simp only [railStep, hm, hp, hk, if_false, if_true]
  rfl

theorem railStep_under {d : Dev} (hm : d.modes.mode ≠ .off) (hp : 100 * d.slu.power ≤ 95 * maxPower d.modes.hostPs) (hk : 0 < d.slu.kR) :
    railStep d = (d.withRailSteps (d.slu.kR - 1)).sluPump := by
  have hlow : ¬maxPower d.modes.hostPs < d.slu.power := by omega
  simp only [railStep, hm, hlow, hp, hk, and_self, if_false, if_true]
  rfl

theorem kR_of_work {a b : Dev} (h : a.butWork = b.butWork) : a.slu.kR = b.slu.kR := by
  have hs := congrArg (·.slu.kR) h
  exact hs

/-- A throttle count that changes sets or clears thermal_limit. -/
theorem cond_setKd {d : Dev} {k : Nat} (h : k ≠ d.slu.kD) : (d.setKd k).cond 0 = decide (0 < k) := by
  rw [Dev.setKd, if_neg h, Dev.cond, modes_of_work (butWork_sluPump _)]
  exact cond_setCond _ (by decide) _

/-- Settles O13, from the throttle count that a sample's crossings give (`heat_weirActs`), and the trip (`trip120_halts`). -/
theorem heatAndRails : Obligations.HeatAndRails := by
  refine ⟨fun s temps hm hl => ⟨fun hhot hs => ?_, fun hhot hh => ?_⟩, fun s hm => ⟨?_, fun vcore icore iaux => ?_, fun hp hk => ?_, fun hp hk => ?_⟩⟩
  · have hheat := (heat_promiseEval (s.dev.warmed temps)).trans (heat_warmed s.dev temps)
    have hthm : (s.dev.warmed temps).promiseEval.thm = _ := congrArg Prod.fst hheat
    have hkd : (s.dev.warmed temps).promiseEval.slu.kD = _ := congrArg Prod.snd hheat
    refine ⟨_, congrArg Host.Outcome.next (tempSample_cool hm hl hhot hs), rfl, hthm, ?_⟩
    dsimp only
    rw [hkd, Dev.throttled, weighed_kD, ← show (s.dev.warmed temps).promiseEval.thm = (s.dev.weighed temps).thm from hthm]
    generalize (s.dev.warmed temps).promiseEval.thm = n
    refine ⟨fun hc ho => ?_, fun ht ho hc => ?_, fun ht hc => ?_⟩
    · simp [newlyCrossed, hc, ho]
    · simp [newlyCrossed, ht, ho, hc]
    · simp [newlyCrossed, ht, hc]
  · obtain ⟨hmode, htrip⟩ := trip120_halts (awake_warmed ⟨hh, hm⟩ temps) s.fuse
    refine ⟨_, congrArg Host.Outcome.next (tempSample_hot hm hl hhot), ?_, ?_⟩
    · exact (congrArg Pins.thermtrip (promiseEval_mode _).2).trans htrip
    · exact (promiseEval_mode _).1.trans hmode
  · have hstep : dieThrottleStep s.dev = s.dev.setKd (if s.dev.thm.throttle.crossed then min 16 (s.dev.slu.kD + 1) else s.dev.slu.kD - 1) :=
      if_neg hm
    have hkd := fun k => congrArg Prod.snd (heat_setKd s.dev k)
    refine ⟨_, next_onDev hstep, rfl, hkd _, fun hne => ?_⟩
    have hk : (s.dev.setKd (if s.dev.thm.throttle.crossed then min 16 (s.dev.slu.kD + 1) else s.dev.slu.kD - 1)).slu.kD = _ := hkd _
    dsimp only at hne ⊢
    rw [hk] at hne ⊢
    exact cond_setKd hne
  · exact ⟨_, next_onDev (f := railSample vcore icore iaux) (if_neg hm), rfl, promiseEval_slu _⟩
  · refine ⟨_, next_onDev (railStep_over hm hp hk), ?_, cond_setCond _ (by decide) _, rfl⟩
    dsimp only
    rw [slu_setCond]
    rfl
  · refine ⟨_, next_onDev (railStep_under hm hp hk), ?_, ?_, rfl⟩ <;> dsimp only
    · rw [kR_of_work (butWork_sluPump _)]
      rfl
    · rw [modes_of_work (butWork_sluPump _)]
      rfl

end Sys2Proof.Machine
end

section
/-! PROOFS. O52: lockstep pairs that disagree, take over, are tested and retired (R34, R409 to R413). -/

namespace Sys2Proof.Machine

variable (d : Dev)

/-! ### What leaves the pairs alone -/

theorem lp_of_fc {a b : Dev} (h : a.fc = b.fc) (k : Nat) : a.lp k = b.lp k := by rw [Dev.lp, h, Dev.lp]

theorem fc_of_mode {a b : Dev} (h : a.butMode = b.butMode) : a.fc = b.fc := by
  have hs := congrArg Dev.fc h
  exact hs

@[simp] theorem fc_setCond (i : Nat) (v : Bool) : (d.setCond i v).fc = d.fc := by
  have h := congrArg Dev.fc (butCond_setCond d i v)
  exact h
@[simp] theorem fc_standbyCond : d.standbyCond.fc = d.fc := by
  simp only [Dev.standbyCond]; split <;> simp
@[simp] theorem fc_powerOn (k : Nat) : (d.powerOn k).fc = d.fc := fc_of_mode (butMode_powerOn d k)
@[simp] theorem fc_drainDom (k : Nat) : (d.drainDom k).fc = d.fc := fc_of_mode (butMode_drainDom d k)
@[simp] theorem fc_halt (fuse : Fuses) (c u : Nat) : (d.halt fuse c u).fc = d.fc := by
  have hsign : ∀ x : Dev, ((x.signBcol fuse .halted).enterMode .halted).fc = x.fc := fun x => by
    rw [fc_of_mode (butMode_enterMode _ _), Dev.signBcol]
    split <;> rfl
  simp only [Dev.halt]
  split
  · rfl
  · rw [hsign]
    split <;> rfl

@[simp] theorem lp_standbyCond (k : Nat) : d.standbyCond.lp k = d.lp k := lp_of_fc (fc_standbyCond d) k
@[simp] theorem lp_powerOn (j k : Nat) : (d.powerOn j).lp k = d.lp k := lp_of_fc (fc_powerOn d j) k
@[simp] theorem lp_drainDom (j k : Nat) : (d.drainDom j).lp k = d.lp k := lp_of_fc (fc_drainDom d j) k
@[simp] theorem lp_halt (fuse : Fuses) (c u k : Nat) : (d.halt fuse c u).lp k = d.lp k := lp_of_fc (fc_halt d fuse c u) k
@[simp] theorem lp_ev (c i : Nat) (l : List PField) (k : Nat) : (d.ev c i l).lp k = d.lp k := lp_of_fc (Dev.ev_fc d c i l) k

theorem awake_standbyCond {d : Dev} (h : d.awake) : d.standbyCond.awake := by
  obtain he | ⟨v, he⟩ := standbyCond_cases d <;> rw [he]
  · exact h
  · exact awake_setCond h 11 v

theorem awake_of_pairsRun {d : Dev} (h : pairsRun d.modes.mode = true) : d.awake := by
  constructor <;> intro hm <;> rw [hm] at h <;> cases h

/-! ### Roles (R412) -/

/-- The pairs that can have a role: powered, and not retired, in self-test or taking over. -/
def Dev.freePairs (d : Dev) : List Nat :=
  d.poweredPairs.filter (fun k => decide ((d.lp k).st ≠ .retired) && decide ((d.lp k).st ≠ .selfTest) && decide ((d.lp k).st ≠ .taking))

/-- The pair `k` takes its role, `free` being the pairs that can have one. -/
def Dev.takeRole (d : Dev) (free : List Nat) (k : Nat) : Dev :=
  if free.contains k then d.modLp k (fun x => { x with st := if free.max? = some k then .standby else .active, takes := none })
  else if (d.lp k).st = .retired then d
  else if d.domUsable (tcDom k) then d
  else d.modLp k (fun x => { x with st := .off, takes := none })

theorem assignRoles_eq : d.assignRoles = ((List.range 8).foldl (fun e k => e.takeRole d.freePairs k) d).standbyCond := rfl

theorem takeRole_cases (free : List Nat) (k : Nat) : d.takeRole free k = d ∨ ∃ f, d.takeRole free k = d.modLp k f := by
  simp only [Dev.takeRole]
  split
  · exact .inr ⟨_, rfl⟩
  split
  · exact .inl rfl
  split
  · exact .inl rfl
  · exact .inr ⟨_, rfl⟩

theorem lp_takeRole_ne (free : List Nat) {j k : Nat} (h : k ≠ j) : (d.takeRole free j).lp k = d.lp k := by
  obtain he | ⟨f, he⟩ := takeRole_cases d free j <;> rw [he]
  exact Dev.lp_modLp_ne d f h

theorem takeRole_modes (free : List Nat) (k : Nat) : (d.takeRole free k).modes = d.modes := by
  obtain he | ⟨f, he⟩ := takeRole_cases d free k <;> rw [he]
  rfl

/-- What a pair's own role leaves true of it holds once every pair has its role. -/
theorem lp_assignRoles_keeps {d : Dev} {k : Nat} {P : LPair → Prop} (hP : P (d.lp k))
    (hstep : ∀ e : Dev, P (e.lp k) → P ((e.takeRole d.freePairs k).lp k)) : P (d.assignRoles.lp k) := by
  have hfold : ∀ (l : List Nat) (e : Dev), P (e.lp k) → P ((l.foldl (fun e j => e.takeRole d.freePairs j) e).lp k) := by
    intro l
    induction l with
    | nil => exact fun _ h => h
    | cons j l ih =>
      intro e he
      refine ih _ ?_
      by_cases hj : k = j
      · subst hj
        exact hstep e he
      · rwa [lp_takeRole_ne e _ hj]
  rw [assignRoles_eq, lp_standbyCond]
  exact hfold _ d hP

/-- A retired pair takes no role again. -/
theorem retired_assignRoles {d : Dev} {k : Nat} (h : (d.lp k).st = .retired) : (d.assignRoles.lp k).st = .retired := by
  refine lp_assignRoles_keeps (P := fun x => x.st = .retired) h fun e he => ?_
  have hfree : d.freePairs.contains k = false := by simp [Dev.freePairs, h]
  rwa [Dev.takeRole, hfree, if_neg Bool.false_ne_true, if_pos he]

/-- A powered pair that is free serves as an active pair or as the standby, and its mismatches stay counted. -/
theorem serves_assignRoles {d : Dev} {k : Nat} (hk : k < 8) (hdom : d.domUsable (tcDom k) = true) (h : (d.lp k).st = .active) :
    ((d.assignRoles.lp k).st = .active ∨ (d.assignRoles.lp k).st = .standby) ∧ (d.assignRoles.lp k).misses = (d.lp k).misses := by
  refine lp_assignRoles_keeps (P := fun x => (x.st = .active ∨ x.st = .standby) ∧ x.misses = (d.lp k).misses) ⟨.inl h, rfl⟩ fun e he => ?_
  have hfree : d.freePairs.contains k = true := by simp [Dev.freePairs, Dev.poweredPairs, hk, hdom, h]
  rw [Dev.takeRole, if_pos hfree, Dev.lp_modLp]
  refine ⟨?_, he.2⟩
  dsimp only
  split
  · exact .inr rfl
  · exact .inl rfl

theorem awake_assignRoles {d : Dev} (h : d.awake) : d.assignRoles.awake := by
  rw [assignRoles_eq]
  refine awake_standbyCond (awake_of_modes h ?_)
  exact foldl_keeps Dev.modes _ (fun e j => takeRole_modes e _ j) _ d

/-! ### Mismatches and takeovers (R409 to R413) -/

/-- The device with pair `k` fenced and in its self-test, the mismatch counted. -/
def Dev.fencePair (d : Dev) (k : Nat) : Dev :=
  ({ d.count aTcLpCnt 0 8 with fc := { d.fc with last := k } } : Dev).modLp k (fun x =>
    { x with st := .selfTest, takes := none, misses := d.now :: x.misses.filter (fun t => decide (d.now < t + dayNs)) })

theorem st_fencePair (k : Nat) : ((d.fencePair k).lp k).st = .selfTest := congrArg LPair.st (Dev.lp_modLp _ _ _)
theorem lp_fencePair_ne {j k : Nat} (h : j ≠ k) : (d.fencePair k).lp j = d.lp j := Dev.lp_modLp_ne _ _ h
theorem last_fencePair (k : Nat) : (d.fencePair k).fc.last = k := rfl

/-- The pair that takes over is another one than the pair that failed. -/
theorem taker_ne {d : Dev} {j k : Nat} (h : d.taker k = some j) : j ≠ k := by
  simp only [Dev.taker, Option.or_eq_some_iff] at h
  obtain h | ⟨-, h | ⟨-, h⟩⟩ := h
  · exact of_decide_eq_true (Option.filter_eq_some_iff.mp h).2
  · have hj := List.find?_some h
    simp only [Bool.and_eq_true, decide_eq_true_eq] at hj
    exact hj.1
  · have hj := List.find?_some h
    simp only [Bool.and_eq_true, decide_eq_true_eq] at hj
    exact hj.1

/-- Fencing a pair that is not the standby does not change who takes over. -/
theorem taker_fencePair {d : Dev} {k : Nat} (h : (d.lp k).st ≠ .standby) : (d.fencePair k).taker k = d.taker k := by
  have hst : ∀ j, decide (((d.fencePair k).lp j).st = .standby) = decide ((d.lp j).st = .standby) := fun j => by
    by_cases hj : j = k
    · subst hj
      rw [st_fencePair]
      simp [h]
    · rw [lp_fencePair_ne d hj]
  have hother : ∀ st j, (decide (j ≠ k) && decide (((d.fencePair k).lp j).st = st)) = (decide (j ≠ k) && decide ((d.lp j).st = st)) := fun st j => by
    by_cases hj : j = k
    · simp [hj]
    · rw [lp_fencePair_ne d hj]
  simp only [Dev.taker, Dev.standby, hst, hother]

section
variable {s : State} {k : Nat} (hk : k < 8) (hrun : pairsRun s.dev.modes.mode = true)
include hk hrun

theorem lockstepMismatch_standby (hst : (s.dev.lp k).st = .standby) :
    lockstepMismatch k s = { s with dev := (s.dev.fencePair k).standbyCond } := by
  simp only [lockstepMismatch, Nat.not_le.mpr hk, hrun, hst]
  rfl

theorem lockstepMismatch_working (hst : (s.dev.lp k).st = .active ∨ (s.dev.lp k).st = .taking) : lockstepMismatch k s =
    match s.dev.taker k with
    | some t => { s with dev := (s.dev.fencePair k).startTakeover ((s.dev.lp k).takes.getD k) t }
    | none => { s with dev := (s.dev.fencePair k).halt s.fuse 7 } := by
  have hne : (s.dev.lp k).st ≠ .standby := by obtain h | h := hst <;> rw [h] <;> decide
  have hout : ¬(8 ≤ k ∨ (!pairsRun s.dev.modes.mode) = true
      ∨ (!decide ((s.dev.lp k).st = .active ∨ (s.dev.lp k).st = .standby ∨ (s.dev.lp k).st = .taking)) = true) := by
    obtain h | h := hst <;> simp [hk, hrun, h]
  rw [← taker_fencePair hne]
  exact (if_neg hout).trans (if_neg hne)

end

theorem lockstepMismatch_none {s : State} {k : Nat} (h : pairsRun s.dev.modes.mode = false ∨ (s.dev.lp k).st = .off
    ∨ (s.dev.lp k).st = .selfTest ∨ (s.dev.lp k).st = .retired) : lockstepMismatch k s = s := by
  refine if_pos ?_
  obtain h | h | h | h := h <;> simp [h]

theorem takeoverComplete_done {d : Dev} {k : Nat} (hk : k < 8) (hst : (d.lp k).st = .taking) (hdom : (d.dom (tcDom k)).st = .on) :
    (takeoverComplete k d).lp k = { d.lp k with st := .active, takes := none } := by
  rw [takeoverComplete]
  dsimp only
  rw [if_neg (by simp [hk, hst, hdom]), lp_standbyCond, lp_ev]
  exact Dev.lp_modLp _ _ _

theorem takeoverComplete_none {d : Dev} {k : Nat} (h : (d.lp k).st ≠ .taking ∨ (d.dom (tcDom k)).st ≠ .on) : takeoverComplete k d = d :=
  if_pos (.inr h)

/-! ### Self-tests (R410 to R412) -/

/-- The device with pair `k` retired, before the roles and the halt that may follow. -/
def Dev.dropPair (d : Dev) (k : Nat) : Dev :=
  let d := (d.modLp k (fun x => { x with st := .retired, takes := none })).ev evTcLpRetired 0 [.num 1 k]
  if (d.lp (2 * (k / 2))).st = .retired ∧ (d.lp (2 * (k / 2) + 1)).st = .retired then d.drainDom (tcDom k) else d

theorem lp_dropPair (k j : Nat) : (d.dropPair k).lp j = (d.modLp k (fun x => { x with st := .retired, takes := none })).lp j := by
  simp only [Dev.dropPair]
  split <;> simp

theorem awake_dropPair {d : Dev} (h : d.awake) (k : Nat) : (d.dropPair k).awake := by
  refine awake_of_modes h ?_
  simp only [Dev.dropPair]
  split <;> simp

theorem retirePair_eq (k : Nat) (s : State) : retirePair k s =
    if (s.dev.dropPair k).assignRoles.healthyPairs.length = 0 then { s with dev := (s.dev.dropPair k).assignRoles.halt s.fuse 7 }
    else if (s.dev.dropPair k).assignRoles.healthyPairs.length = 1 then { s with dev := (s.dev.dropPair k).assignRoles.halt s.fuse 1 2 }
    else { s with dev := (s.dev.dropPair k).assignRoles } := rfl

theorem retired_dropPair (k : Nat) : ((d.dropPair k).assignRoles.lp k).st = .retired :=
  retired_assignRoles (by rw [lp_dropPair, Dev.lp_modLp])

/-- A pair that is retired stays retired through the halt that may follow. -/
theorem retired_retirePair (k : Nat) (s : State) : ((retirePair k s).dev.lp k).st = .retired ∧ (retirePair k s).fuse = s.fuse := by
  have h := retired_dropPair s.dev k
  rw [retirePair_eq]
  (repeat' split) <;> simp [h]

/-- The last pair that is retired halts the device (R412). -/
theorem retirePair_last {k : Nat} {s : State} (h : ∀ j, j < 8 → j ≠ k → (s.dev.lp j).st = .retired) :
    retirePair k s = { s with dev := (s.dev.dropPair k).assignRoles.halt s.fuse 7 } := by
  have hall : ∀ j, j < 8 → ((s.dev.dropPair k).assignRoles.lp j).st = .retired := fun j hj => by
    by_cases hjk : j = k
    · subst hjk
      exact retired_dropPair _ _
    · exact retired_assignRoles (by rw [lp_dropPair, Dev.lp_modLp_ne _ _ hjk, h j hj hjk])
  have hnone : (s.dev.dropPair k).assignRoles.healthyPairs = [] := by
    refine List.filter_eq_nil_iff.mpr fun j hj => ?_
    simp [hall j (List.mem_range.mp (List.mem_of_mem_filter hj))]
  rw [retirePair_eq, hnone, List.length_nil, if_pos rfl]

section
variable {s : State} {k : Nat} (hk : k < 8) (hst : (s.dev.lp k).st = .selfTest)
include hk hst

theorem pairSelfTestDone_eq (ok : Bool) : pairSelfTestDone k ok s =
    if ok && decide (((s.dev.lp k).misses.filter (fun t => decide (s.dev.now < t + dayNs))).length < 3)
    then { s with dev := (s.dev.modLp k (fun x => { x with st := .active })).assignRoles } else retirePair k s :=
  if_neg (by simp [hk, hst])

end

theorem pairSelfTestDone_none {s : State} {k : Nat} (h : (s.dev.lp k).st ≠ .selfTest) (ok : Bool) : pairSelfTestDone k ok s = s :=
  if_pos (.inr h)

/-- Settles O52, from who takes over (`lockstepMismatch_working`), the roles (`serves_assignRoles`) and retirement (`retirePair_last`). -/
theorem lockstepPairs : Obligations.LockstepPairs := by
  rintro s k x hk rfl
  refine ⟨fun hrun => ⟨fun hst => ?_, fun hst => ⟨fun j hj => ?_, fun hnone => ?_⟩⟩, fun h => congrArg Host.Outcome.next (lockstepMismatch_none h),
    fun hst hdom => ⟨_, rfl, rfl, takeoverComplete_done hk hst hdom⟩, fun h => next_onDev (takeoverComplete_none h),
    fun hst => ⟨fun hn hdom => ?_, fun ok hbad => ?_⟩, fun h ok => congrArg Host.Outcome.next (pairSelfTestDone_none h ok), fun hk => ?_, fun hk => ?_⟩
  · refine ⟨_, congrArg Host.Outcome.next (lockstepMismatch_standby hk hrun hst), rfl, ?_, ?_⟩ <;> dsimp only
    · rw [lp_standbyCond, st_fencePair]
    · rw [fc_standbyCond, last_fencePair]
  · have hne := taker_ne hj
    have hrun' := lockstepMismatch_working hk hrun hst
    rw [hj] at hrun'
    refine ⟨_, congrArg Host.Outcome.next hrun', rfl, hne, ?_, ?_, ?_, ?_⟩ <;> dsimp only [Dev.startTakeover]
    · rw [lp_standbyCond, lp_powerOn, Dev.lp_modLp_ne _ _ hne.symm, st_fencePair]
    · rw [lp_standbyCond, lp_powerOn, Dev.lp_modLp]
    · rw [lp_standbyCond, lp_powerOn, Dev.lp_modLp]
    · rw [fc_standbyCond, fc_powerOn]
      rfl
  · have hrun' := lockstepMismatch_working hk hrun hst
    rw [hnone] at hrun'
    obtain ⟨l, hl⟩ := halt_modes (d := s.dev.fencePair k) (awake_of_pairsRun hrun).1 (awake_of_pairsRun hrun).2 s.fuse 7 0
    refine ⟨_, congrArg Host.Outcome.next hrun', rfl, ?_⟩
    dsimp only
    rw [hl]
    exact ⟨rfl, rfl⟩
  · refine ⟨_, congrArg Host.Outcome.next ((pairSelfTestDone_eq hk hst true).trans (if_pos (by simpa using hn))), rfl, ?_⟩
    have hserve := serves_assignRoles (d := s.dev.modLp k (fun x => { x with st := .active })) hk hdom (by rw [Dev.lp_modLp])
    rw [Dev.lp_modLp] at hserve
    exact hserve
  · have hret : pairSelfTestDone k ok s = retirePair k s := by
      refine (pairSelfTestDone_eq hk hst ok).trans (if_neg ?_)
      obtain rfl | h := hbad
      · simp
      · simp [h]
    obtain ⟨hdone, hfuse⟩ := retired_retirePair k s
    refine ⟨⟨_, congrArg Host.Outcome.next hret, hfuse, hdone⟩, fun ho hh hall => ?_⟩
    obtain ⟨hh', ho'⟩ := awake_assignRoles (awake_dropPair ⟨hh, ho⟩ k)
    obtain ⟨l, hl⟩ := halt_modes hh' ho' s.fuse 7 0
    refine ⟨_, congrArg Host.Outcome.next (hret.trans (retirePair_last hall)), rfl, ?_⟩
    dsimp only
    rw [hl]
    exact ⟨rfl, rfl⟩
  · have hdue : standbyTestDue s.dev = ((s.dev.modLp k (fun x => { x with st := .selfTest })).powerOn (tcDom k)).standbyCond := by
      simp only [standbyTestDue, hk]
    refine ⟨_, next_onDev hdue, rfl, ?_⟩
    dsimp only
    rw [lp_standbyCond, lp_powerOn, Dev.lp_modLp]
  · exact next_onDev (by simp only [standbyTestDue, hk])

end Sys2Proof.Machine
end

section
/-! PROOFS. O48: grants asked for, and the wait limit (R375, R378, R379, R380). -/

namespace Sys2Proof.Machine

variable (d : Dev)

/-! ### What starting an operation leaves of the Sluice -/

@[simp] theorem slu_linkPump (s : Nat) : (d.linkPump s).slu = d.slu := by
  simp only [Dev.linkPump]
  split
  · rw [foldl_keeps Dev.slu Dev.emit (fun _ _ => rfl)]
    rfl
  · rfl
@[simp] theorem slu_linkQueue (s : Nat) (l : List TxItem) : (d.linkQueue s l).slu = d.slu := by
  rw [Dev.linkQueue, slu_linkPump]
  rfl
@[simp] theorem slu_issueOp (o : OpReq) (g t : Option Nat) : (d.issueOp o g t).1.slu = d.slu := by
  simp only [Dev.issueOp, slu_linkQueue]
  rfl
@[simp] theorem slu_startBusy (g : Nat) (r : OpReq) : (d.startBusy g r).slu = d.slu := slu_issueOp d r (some g) none
@[simp] theorem slu_startRead (g : Nat) (r : OpReq) (n : Option Nat) : (d.startRead g r n).slu = d.slu := by
  cases n <;> exact slu_issueOp d r (some g) none

/-- A grant that starts may be deferred, and leaves the rest of the Sluice alone (R197). -/
theorem slu_startGrant (g : Nat) (r : OpReq) : ∃ l, (d.startGrant g r).slu = { d.slu with defer := l } := by
  simp only [Dev.startGrant]
  split
  · exact ⟨_, rfl⟩
  split
  · split
    · exact ⟨_, rfl⟩
    · exact ⟨d.slu.defer, slu_startBusy d g r⟩
  · exact ⟨d.slu.defer, slu_startRead d g r r.rid⟩

/-- A grant holds the charge of its request, which waits no longer. -/
theorem slu_grant (id : Nat) (r : OpReq) (p : FloorPart × Bool) : ∃ l, (d.grant id r p).slu =
    { d.slu with
      held := d.slu.held.ins id ⟨r, d.chargeOf r, p.1, p.2⟩, waiting := d.slu.waiting.filter (fun w => decide (w.id ≠ id)), defer := l } :=
  slu_startGrant _ id r

/-! ### A request (R379) -/

/-- The device with a request numbered and waiting. -/
def Dev.enqueued (d : Dev) (r : OpReq) : Dev :=
  { d with slu := { d.slu with nextId := d.slu.nextId + 1, waiting := d.slu.waiting ++ [(⟨d.slu.nextId, d.now, r, false⟩ : SluWait)] } }

/-- The device with a read of a die in its die's queue. -/
def Dev.readQueued (d : Dev) (r : OpReq) : Dev := if isRead r.kind && r.onSlot then d.joinQueue r else d

theorem request_eq (r : OpReq) : d.request r = match (d.readQueued r).enqueued r |>.grantable d.slu.nextId r with
    | some p => ((d.readQueued r).enqueued r).grant d.slu.nextId r p
    | none => (d.readQueued r).enqueued r := by
  have hslu : (d.readQueued r).slu.nextId = d.slu.nextId := by
    simp only [Dev.readQueued, Dev.joinQueue]
    (repeat' split) <;> rfl
  simp only [Dev.request, Dev.enqueued, hslu]
  rfl

/-- A queue that a read joins is its die's alone: what the Sluice holds and charges is as before. -/
theorem readQueued_eq (r : OpReq) : ∃ x, d.readQueued r = { d with rp := { d.rp with dies := x } } := by
  simp only [Dev.readQueued, Dev.joinQueue]
  (repeat' split) <;> exact ⟨_, rfl⟩

theorem slu_enqueued (r : OpReq) : ((d.readQueued r).enqueued r).slu =
    { d.slu with nextId := d.slu.nextId + 1, waiting := d.slu.waiting ++ [⟨d.slu.nextId, d.now, r, false⟩] } := by
  obtain ⟨x, hx⟩ := readQueued_eq d r
  rw [hx]
  rfl

theorem chargeOf_enqueued (r : OpReq) : ((d.readQueued r).enqueued r).chargeOf r = d.chargeOf r := by
  obtain ⟨x, hx⟩ := readQueued_eq d r
  rw [hx]
  rfl

/-- A request takes the next number, and is granted or waits. -/
theorem slu_request (r : OpReq) : (d.request r).slu.nextId = d.slu.nextId + 1
    ∧ ((∃ g, (d.request r).slu.held.get? d.slu.nextId = some g ∧ g.req = r ∧ g.charge = d.chargeOf r)
      ∨ (⟨d.slu.nextId, d.now, r, false⟩ : SluWait) ∈ (d.request r).slu.waiting) := by
  rw [request_eq]
  split
  next p _ =>
    obtain ⟨l, hl⟩ := slu_grant ((d.readQueued r).enqueued r) d.slu.nextId r p
    rw [hl, slu_enqueued, chargeOf_enqueued]
    exact ⟨rfl, .inl ⟨_, Tbl.get?_ins_same _ _ _, rfl, rfl⟩⟩
  · rw [slu_enqueued]
    exact ⟨rfl, .inr (List.mem_append_right _ (List.mem_singleton_self _))⟩

/-! ### A burst or decode alone in the queue -/

section
variable {d} {r : OpReq} (hslot : r.onSlot = false) (hw : d.slu.waiting = [])
include hslot hw

theorem enqueued_alone : (d.readQueued r).enqueued r =
    { d with slu := { d.slu with nextId := d.slu.nextId + 1, waiting := [⟨d.slu.nextId, d.now, r, false⟩] } } := by
  simp [Dev.readQueued, Dev.enqueued, hslot, hw]

/-- It waits for no rebuild share: it is itself on no Quire's members. -/
theorem shareStops_alone : ((d.readQueued r).enqueued r).shareStops r = false := by
  have hwait : ((d.readQueued r).enqueued r).slu.waiting = [⟨d.slu.nextId, d.now, r, false⟩] := by rw [slu_enqueued, hw]; rfl
  simp only [Dev.shareStops, hwait, List.any_cons, List.any_nil, hslot, Bool.false_and, Bool.and_false, Bool.or_self]
  split <;> simp

/-- It is granted exactly where its charge fits. -/
theorem grantable_alone (hrank : d.rankStops r = false) : ((d.readQueued r).enqueued r).grantable d.slu.nextId r = d.fitPart r := by
  have hshare := shareStops_alone hslot hw
  have hstart : ((d.readQueued r).enqueued r).canStart r = true := by simp [Dev.canStart, hslot]
  have hlong : ((d.readQueued r).enqueued r).longBlocks d.slu.nextId r.rank = false := by
    have hwait : ((d.readQueued r).enqueued r).slu.waiting = [⟨d.slu.nextId, d.now, r, false⟩] := by rw [slu_enqueued, hw]; rfl
    simp [Dev.longBlocks, hwait]
  have hstop : ((d.readQueued r).enqueued r).rankStops r = false := by rw [enqueued_alone hslot hw]; exact hrank
  have hfit : ((d.readQueued r).enqueued r).fitPart r = d.fitPart r := by rw [enqueued_alone hslot hw]; rfl
  simp only [Dev.grantable, hshare, hstart, hlong, hstop, hslot, hfit, Bool.not_true, Bool.and_false, Bool.false_and, Bool.or_self,
    Bool.false_eq_true, if_false]

theorem request_granted (hrank : d.rankStops r = false) {p : FloorPart × Bool} (hp : d.fitPart r = some p) :
    (d.request r).slu.waiting = [] ∧ (d.request r).slu.held = d.slu.held.ins d.slu.nextId ⟨r, d.chargeOf r, p.1, p.2⟩ := by
  obtain ⟨l, hl⟩ := slu_grant ((d.readQueued r).enqueued r) d.slu.nextId r p
  rw [request_eq, grantable_alone hslot hw hrank, hp]
  dsimp only
  rw [hl, slu_enqueued, chargeOf_enqueued, hw]
  exact ⟨by simp, rfl⟩

theorem request_waits (hrank : d.rankStops r = false) (hp : d.fitPart r = none) :
    (d.request r).slu.held = d.slu.held ∧ (d.request r).slu.waiting = [⟨d.slu.nextId, d.now, r, false⟩] := by
  rw [request_eq, grantable_alone hslot hw hrank, hp]
  dsimp only
  rw [slu_enqueued, hw]
  exact ⟨rfl, rfl⟩

end

/-! ### The wait limit (R378) -/

/-- The requests that wait once the one numbered `id` has waited 2 ms. -/
def markLong (id : Nat) (l : List SluWait) : List SluWait := l.map (fun w => if w.id = id then { w with long := true } else w)

theorem sluiceWaitLimit_first {d : Dev} {id : Nat} {w : SluWait} (h : d.slu.waiting.find? (fun w => decide (w.id = id)) = some w) (hl : w.long = false) :
    sluiceWaitLimit id d = ({ d with slu := { d.slu with
      longs := sat 32 (d.slu.longs + 1), waiting := markLong id d.slu.waiting } } : Dev).count aSluWait 0 32 := by
  simp only [sluiceWaitLimit, h, hl, Bool.false_eq_true, if_false]
  rfl

theorem sluiceWaitLimit_again {d : Dev} {id : Nat} {w : SluWait} (h : d.slu.waiting.find? (fun w => decide (w.id = id)) = some w) (hl : w.long = true) :
    sluiceWaitLimit id d = d := by
  simp only [sluiceWaitLimit, h, hl, if_true]

theorem sluiceWaitLimit_unknown {d : Dev} {id : Nat} (h : d.slu.waiting.find? (fun w => decide (w.id = id)) = none) :
    sluiceWaitLimit id d = d := by
  simp only [sluiceWaitLimit, h]

theorem mem_markLong_found {l : List SluWait} {id : Nat} {w : SluWait} (h : l.find? (fun w => decide (w.id = id)) = some w) :
    { w with long := true } ∈ markLong id l := by
  have hid : w.id = id := of_decide_eq_true (List.find?_some (p := fun w : SluWait => decide (w.id = id)) h)
  exact List.mem_map.mpr ⟨w, List.mem_of_find?_eq_some h, if_pos hid⟩

theorem mem_markLong_other {l : List SluWait} {id : Nat} {y : SluWait} (h : y ∈ l) (hne : y.id ≠ id) : y ∈ markLong id l :=
  List.mem_map.mpr ⟨y, h, if_neg hne⟩

theorem grantRequest_due {d : Dev} {r : OpReq}
    (h : (d.opsMode && d.reqValid r && (!r.onSlot || d.countOk r) && d.asked r && (!r.onSlot || !d.askedAlready r)) = true) :
    grantRequest r d = d.request r := if_pos h

/-- Settles O48, from what a request leaves of the Sluice (`slu_request`), and where it is granted (`grantable_alone`). -/
theorem grantRequests : Obligations.GrantRequests := by
  refine fun s => ⟨fun r hdue => ⟨?_, fun hslot hw hrank => ⟨fun p hp => ?_, fun hp => ?_⟩⟩, fun r hno => next_onDev (if_neg ?_),
    fun n w hfind => ⟨fun hl => ?_, fun hl => next_onDev (sluiceWaitLimit_again hfind hl)⟩, fun n hfind => next_onDev (sluiceWaitLimit_unknown hfind)⟩
  · obtain ⟨hid, hdone⟩ := slu_request s.dev r
    exact ⟨_, next_onDev (grantRequest_due hdue), rfl, butWork_request _ _, hid, hdone⟩
  · exact ⟨_, next_onDev (grantRequest_due hdue), request_granted hslot hw hrank hp⟩
  · exact ⟨_, next_onDev (grantRequest_due hdue), request_waits hslot hw hrank hp⟩
  · obtain h | h | h := hno <;> simp [h]
  · refine ⟨_, next_onDev (sluiceWaitLimit_first hfind hl), rfl, rfl, Dev.counter_count _ _ _ _ _, rfl, mem_markLong_found hfind, ?_⟩
    exact fun y hy hne => mem_markLong_other hy hne

end Sys2Proof.Machine
end

section
/-! PROOFS. O57: the JTAG instructions, and writes of registers and of the configuration space (R471, R9 to R13, R96, R101). -/

namespace Sys2Proof.Machine
open Sys2Proof

variable {d : Dev}

/-- The registers of plain fields that O57 names are assigned, and a write to one is a plain write. -/
theorem csrWrite_plain {a : Nat} (ha : a ∈ [aHgSlotAdmin, aTcLpCkpt, aGlCtrl, aGlTimer, aRpCtrl, aLadderCtrl, aDmcCtrl, aSluCharge])
    (d : Dev) (q : Requester) (v : W32) : csrAssigned a = true ∧ d.csrWrite q a v = d.plainWrite a v := by
  simp only [List.mem_cons, List.not_mem_nil, or_false] at ha
  obtain rfl | rfl | rfl | rfl | rfl | rfl | rfl | rfl := ha <;> exact ⟨by decide, rfl⟩

@[simp] theorem butLog_badWrite (a : Nat) : (d.badWrite a).butLog = d.butLog := by
  unfold Dev.badWrite
  split <;> simp

theorem plainWrite_inRange {a : Nat} {r : RegDesc} {v : W32} (hr : regDesc a = some r) (hv : csrInRange a v.toNat = true) :
    d.plainWrite a v = d.setCsr a (mergeWord r (d.rwlLocked a) (d.csrW a) v) := by
  simp [Dev.plainWrite, hr, hv]

theorem plainWrite_outOfRange {a : Nat} {r : RegDesc} {v : W32} (hr : regDesc a = some r) (hv : csrInRange a v.toNat = false) :
    d.plainWrite a v = d.badWrite a := by
  simp [Dev.plainWrite, hr, hv]

theorem regWrite_reaches {a : Nat} (q : Requester) (v : W32) (hm : d.modes.mode ≠ .off) (ha : csrAssigned a = true)
    (hdom : d.domDark (d.csrDomain a) = false) : regWrite q a v d = d.csrWrite q a v := by
  simp [regWrite, hm, ha, hdom]

/-- A write that reaches no register is at most recorded. -/
theorem butLog_regWrite_missed {a : Nat} (q : Requester) (v : W32)
    (h : csrAssigned a = false ∨ d.domDark (d.csrDomain a) = true) : (regWrite q a v d).butLog = d.butLog := by
  unfold regWrite
  split
  · rfl
  · split
    · unfold csrUnassigned
      split <;> simp
    · next hassigned =>
      rw [if_pos (h.resolve_left (by simpa using hassigned))]
      unfold csrDomainOff
      split <;> simp

/-- A function that is up has a vector at every number up to 16. -/
theorem vector_exists (f : Fn) {vec : Nat} (h : vec ≤ 16) : ¬ (if f.isPf then 129 else 17) ≤ vec := by
  split <;> omega

theorem maskWrite_masks (f : Fn) {vec : Nat} (h : vec ≤ 16) : vec ∈ ((d.maskWrite f vec true).fnst f).msixMask
    ∧ (d.maskWrite f vec true).out = d.out := by
  simp only [Dev.maskWrite, if_neg (vector_exists f h), if_true]
  exact ⟨by simp, rfl⟩

/-- What uncovering a vector leaves in the function: neither its mask bit nor its pending bit. -/
def FnSt.uncover (vec : Nat) (x : FnSt) : FnSt :=
  { x with msixMask := x.msixMask.filter (fun y => decide (y ≠ vec)), pba := x.pba.filter (fun y => decide (y ≠ vec)) }

/-- A pending vector that is uncovered is signalled at once. -/
theorem maskWrite_uncovers (f : Fn) {vec : Nat} (h : vec ≤ 16) (hp : vec ∈ (d.fnst f).pba) (hb : (d.fnst f).bme = true)
    (hx : (d.fnst f).msix = true) : d.maskWrite f vec false = (d.modFn f (FnSt.uncover vec)).emit (.msix f vec) := by
  have hpend : (d.fnst f).pba.contains vec = true := by simpa using hp
  have hfn : (d.modFn f (FnSt.uncover vec)).fnst f = (d.fnst f).uncover vec := Dev.fnst_modFn _ f _
  have hclear : vec ∉ ((d.fnst f).uncover vec).msixMask := by simp [FnSt.uncover]
  have hsig : (d.modFn f (FnSt.uncover vec)).signal f vec = (d.modFn f (FnSt.uncover vec)).emit (.msix f vec) := by
    rw [Dev.signal, hfn]
    simp only [show ((d.fnst f).uncover vec).bme = true from hb, show ((d.fnst f).uncover vec).msix = true from hx, if_true,
      if_neg hclear]
  calc d.maskWrite f vec false
      = (if (d.fnst f).pba.contains vec = true then (d.modFn f (FnSt.uncover vec)).signal f vec else d.modFn f (FnSt.uncover vec)) :=
        if_neg (vector_exists f h)
    _ = _ := by rw [if_pos hpend, hsig]

theorem uncovered (f : Fn) (vec : Nat) : vec ∉ ((d.modFn f (FnSt.uncover vec)).fnst f).msixMask
    ∧ vec ∉ ((d.modFn f (FnSt.uncover vec)).fnst f).pba := by
  rw [Dev.fnst_modFn]
  simp [FnSt.uncover]

/-- In any mode but OFF a register write is what its target takes. -/
theorem exec_registerWrite {s : State} {t : RegTarget} {v : W32} {e : Dev} (hm : s.dev.modes.mode ≠ .off)
    (h : s.dev.hostWrite t v = e) : exec (.registerWrite t v) s = .next { s with dev := e } :=
  next_onDev (f := registerWrite t v) ((if_neg hm).trans h)

/-- EXTEST, CLAMP and HIGHZ are BYPASS where POR_N is deasserted. -/
theorem jtagTest_bypass {s : State} (hp : s.dev.pins.por = false) (c : Instr) (hc : c ∈ [Instr.jtagExtest, .jtagClamp, .jtagHighz]) :
    exec c s = exec .jtagBypass s := by
  have hn : ¬ s.dev.pins.por = true := by simp [hp]
  simp only [List.mem_cons, List.not_mem_nil, or_false] at hc
  obtain rfl | rfl | rfl := hc
  · exact next_onDev (f := jtagExtest) (if_neg hn)
  · exact next_onDev (f := jtagClamp) (if_neg hn)
  · exact next_onDev (f := jtagHighz) (if_neg hn)

/-- Settles O57: each JTAG instruction is its `tap`; a register write goes through `exec_registerWrite`, and from there is a plain
write, a missed write, or the item of the configuration space that it names. -/
theorem jtagAndRegisterWrites : Obligations.JtagAndRegisterWrites := by
  refine ⟨fun s => ⟨rfl, rfl, fun _ _ => rfl, fun hp => ⟨next_onDev (f := jtagExtest) (if_pos hp),
    next_onDev (f := jtagClamp) (if_pos hp), next_onDev (f := jtagHighz) (if_pos hp)⟩, jtagTest_bypass⟩,
    fun s v hm => ⟨fun q a r ha hr hdom => ?_, fun q a hmiss => ?_, fun f => ⟨fun hup => ?_, fun hdown o => ?_⟩,
      fun p hdl => ?_⟩⟩
  · -- registers of plain fields
    obtain ⟨hassigned, hplain⟩ := csrWrite_plain ha s.dev q v
    have hw : s.dev.hostWrite (.csr q a) v = s.dev.plainWrite a v := (regWrite_reaches q v hm hassigned hdom).trans hplain
    constructor
    · intro hv
      exact ⟨_, exec_registerWrite hm (hw.trans (plainWrite_inRange hr hv)), rfl, rfl, Dev.csrW_setCsr _ a _,
        fun b hb => Dev.csrW_setCsr_ne _ _ hb⟩
    · intro hv
      exact ⟨_, exec_registerWrite hm (hw.trans (plainWrite_outOfRange hr hv)), rfl, butLog_badWrite a⟩
  · exact ⟨_, exec_registerWrite hm rfl, rfl, butLog_regWrite_missed q v hmiss⟩
  · -- a function that is up
    have hnotdown : ¬ (!s.dev.fnUp f) = true := by simp [hup]
    refine ⟨exec_registerWrite hm (if_pos hup), exec_registerWrite hm (if_pos hup),
      ⟨_, exec_registerWrite hm (if_neg hnotdown), rfl, congrArg FnSt.aqa (Dev.fnst_modFn _ f _)⟩,
      fun vec hvec hb => ?_, fun vec hvec hb hp hbme hmsix => ?_⟩
    · obtain ⟨hmask, hout⟩ := maskWrite_masks (d := s.dev) f hvec
      exact ⟨_, exec_registerWrite hm ((if_pos hup).trans (congrArg (s.dev.maskWrite f vec) hb)), rfl, hmask, hout⟩
    · have hw := (congrArg (s.dev.maskWrite f vec) hb).trans (maskWrite_uncovers f hvec hp hbme hmsix)
      obtain ⟨hmask, hpba⟩ := uncovered (d := s.dev) f vec
      exact ⟨_, exec_registerWrite hm ((if_pos hup).trans hw), rfl, hmask, hpba, rfl⟩
  · -- a function that is not
    exact ⟨exec_registerWrite hm (if_pos (by simp [hdown])), exec_registerWrite hm (if_neg (by simp [hdown]))⟩
  · -- a port's items
    refine ⟨fun hvf hn => exec_registerWrite hm (if_pos (by simp [hdl, hvf, hn])), fun h => ?_, fun hb => ?_,
      exec_registerWrite hm (if_pos hdl)⟩
    · exact exec_registerWrite hm (if_neg (by rcases h with h | h <;> simp [h]))
    · exact ⟨_, exec_registerWrite hm ((if_pos hdl).trans (congrArg (s.dev.vfWrite p) hb)), rfl,
        congrArg HPort.vfEn (Dev.hport_modPort _ p _), rfl⟩

end Sys2Proof.Machine
end

section
/-! PROOFS. O35: the Collation Engine's command window (R312, R314, R319, R320, R334). -/

namespace Sys2Proof.Machine
open Sys2Proof

variable {d : Dev}

/-! ### What a verified search leaves of the engine: all but array bits (R328) -/

/-- The Collation Engine without the array bits that differ from the shadow. -/
def Col.shadow (c : Col) : Col := { c with flips := [] }

theorem shadow_colVerify (d : Dev) (g : Nat) (q qm : BitVec 192) : (d.colVerify g q qm).col.shadow = d.col.shadow := by
  refine foldl_keeps (fun x => x.col.shadow) _ (fun x y => ?_) _ d
  split
  · rfl
  · rw [Dev.ev_col, Dev.count_col]
    rfl

section
variable {a b : Col} (h : a.shadow = b.shadow)
include h

theorem grp_of_shadow (k : Nat) : a.grp k = b.grp k := by
  have h' := congrArg (fun c => Col.grp c k) h
  exact h'

theorem hits_of_shadow (g : Nat) (q qm : BitVec 192) : a.hits g q qm = b.hits g q qm := by
  rw [Col.hits, grp_of_shadow h, Col.hits]

end

/-- A verified search finds what the shadow holds. -/
theorem hits_colVerify (d : Dev) (g : Nat) (q qm : BitVec 192) : (d.colVerify g q qm).col.hits g q qm = d.col.hits g q qm :=
  hits_of_shadow (shadow_colVerify d g q qm) g q qm

/-! ### Groups after a write of one (R312) -/

theorem grp_setGrp_same (c : Col) (g : Nat) (t : Tbl CEnt) : (c.setGrp g t).grp g = t := by
  unfold Col.setGrp Col.grp
  split_ifs <;> rfl

theorem grp_setGrp_ne (c : Col) {g k : Nat} (t : Tbl CEnt) (hg : g < 4) (hk : k < 4) (h : k ≠ g) : (c.setGrp g t).grp k = c.grp k := by
  unfold Col.setGrp Col.grp
  split_ifs
  any_goals rfl
  all_goals omega

/-! ### The window's words (R334) -/

theorem winWord_of_csr {a b : Dev} {r : Nat} (h : ∀ i, i < 6 → a.csrW (r + 4 * i) = b.csrW (r + 4 * i)) : a.winWord r = b.winWord r := by
  have hbytes : (List.range 6).flatMap (fun i => leBytes 4 (a.csrW (r + 4 * i)).toNat)
      = (List.range 6).flatMap (fun i => leBytes 4 (b.csrW (r + 4 * i)).toNat) :=
    List.flatMap_congr fun i hi => by rw [h i (List.mem_range.mp hi)]
  rw [Dev.winWord, hbytes, Dev.winWord]

theorem leNat_leBytes4_append (v : Nat) (l : List Byte) (h : v < 2 ^ 32) : leNat (leBytes 4 v ++ l) = v + 2 ^ 32 * leNat l := by
  simp only [leBytes, List.cons_append, List.nil_append, leNat, BitVec.toNat_ofNat]
  omega

/-- Six registers that hold the 32-bit slices of a word spell the word. -/
theorem winWord_of_words {r : Nat} {k : BitVec 192} (h : ∀ i, i < 6 → d.csrW (r + 4 * i) = (k >>> (32 * i)).truncate 32) :
    d.winWord r = k := by
  have hw (i : Nat) (hi : i < 6) : (d.csrW (r + 4 * i)).toNat = k.toNat / 2 ^ (32 * i) % 2 ^ 32 := by
    rw [h i hi]
    simp [Nat.shiftRight_eq_div_pow]
  have hk := k.isLt
  have hbytes : (List.range 6).flatMap (fun i => leBytes 4 (d.csrW (r + 4 * i)).toNat)
      = leBytes 4 (k.toNat / 2 ^ 0 % 2 ^ 32) ++ (leBytes 4 (k.toNat / 2 ^ 32 % 2 ^ 32) ++ (leBytes 4 (k.toNat / 2 ^ 64 % 2 ^ 32)
        ++ (leBytes 4 (k.toNat / 2 ^ 96 % 2 ^ 32) ++ (leBytes 4 (k.toNat / 2 ^ 128 % 2 ^ 32) ++ (leBytes 4 (k.toNat / 2 ^ 160 % 2 ^ 32) ++ []))))) := by
    simp only [← hw 0 (by decide), ← hw 1 (by decide), ← hw 2 (by decide), ← hw 3 (by decide), ← hw 4 (by decide), ← hw 5 (by decide)]
    rfl
  apply BitVec.eq_of_toNat_eq
  rw [Dev.winWord, hbytes]
  simp only [leNat_leBytes4_append _ _ (Nat.mod_lt _ (Nat.two_pow_pos 32)), leNat, BitVec.toNat_ofNat]
  omega

/-- Storing the operation and group leaves the window's other words. -/
def Dev.winCmd (d : Dev) (v : W32) : Dev := d.setCsr aColCmd (v &&& 0x3F#32)

theorem csrW_winCmd (d : Dev) (v : W32) {a : Nat} (h : a ≠ aColCmd) : (d.winCmd v).csrW a = d.csrW a := Dev.csrW_setCsr_ne d _ h

theorem winKey_winCmd (d : Dev) (v : W32) : (d.winCmd v).winWord aColKey = d.winWord aColKey :=
  winWord_of_csr fun i hi => csrW_winCmd d v (by simp only [aColKey, aColCmd]; omega)

theorem winMask_winCmd (d : Dev) (v : W32) : (d.winCmd v).winWord aColMask = d.winWord aColMask :=
  winWord_of_csr fun i hi => csrW_winCmd d v (by simp only [aColMask, aColCmd]; omega)

theorem winRes_winCmd (d : Dev) (v : W32) : (d.winCmd v).winRes = d.winRes := by
  rw [Dev.winRes, csrW_winCmd d v (by decide), csrW_winCmd d v (by decide), Dev.winRes]

theorem winEnt_winCmd (d : Dev) (v : W32) (g : Nat) : (d.winCmd v).winEnt g = d.winEnt g := by
  rw [Dev.winEnt, winKey_winCmd, winMask_winCmd, winRes_winCmd, Dev.winEnt]

theorem winIdx_winCmd (d : Dev) (v : W32) : (d.winCmd v).reg aColIdx 15 0 = d.reg aColIdx 15 0 := by
  rw [Dev.reg, csrW_winCmd d v (by decide), Dev.reg]

/-! ### What the window shows -/

theorem winRes_showRes (d : Dev) (r : BitVec 64) : (d.showRes r).winRes = r := by
  have hlow : (d.showRes r).csrW aColRes = r.truncate 32 := by
    rw [Dev.showRes, Dev.csrW_setCsr_ne _ _ (by decide), Dev.csrW_setCsr]
  have hhigh : (d.showRes r).csrW (aColRes + 4) = (r >>> 32).truncate 32 := Dev.csrW_setCsr _ _ _
  rw [Dev.winRes, hlow, hhigh]
  apply BitVec.eq_of_toNat_eq
  simp only [BitVec.truncate_eq_setWidth, BitVec.toNat_setWidth, BitVec.toNat_ushiftRight, BitVec.toNat_ofNat, Nat.shiftRight_eq_div_pow]
  omega

theorem winWord_showRes (d : Dev) (r : BitVec 64) {a : Nat} (h : a + 24 ≤ aColRes) : (d.showRes r).winWord a = d.winWord a :=
  winWord_of_csr fun i hi => by
    rw [Dev.showRes, Dev.csrW_setCsr_ne _ _ (by omega), Dev.csrW_setCsr_ne _ _ (by omega)]

/-- One slice of an entry's key and mask, shown in the window. -/
def Dev.showSlice (e : CEnt) (d : Dev) (i : Nat) : Dev :=
  (d.setCsr (aColKey + 4 * i) ((e.key >>> (32 * i)).truncate 32)).setCsr (aColMask + 4 * i) ((e.mask >>> (32 * i)).truncate 32)

theorem csrW_showSlice (d : Dev) (e : CEnt) {i j : Nat} (hi : i < 6) (hj : j < 6) :
    (d.showSlice e j).csrW (aColKey + 4 * i) = (if i = j then (e.key >>> (32 * i)).truncate 32 else d.csrW (aColKey + 4 * i))
    ∧ (d.showSlice e j).csrW (aColMask + 4 * i) = (if i = j then (e.mask >>> (32 * i)).truncate 32 else d.csrW (aColMask + 4 * i)) := by
  have hkey : aColKey + 4 * i ≠ aColMask + 4 * j := by simp only [aColKey, aColMask]; omega
  have hmask : aColMask + 4 * i ≠ aColKey + 4 * j := by simp only [aColKey, aColMask]; omega
  rw [Dev.showSlice, Dev.csrW_setCsr_ne _ _ hkey]
  by_cases h : i = j
  · subst h
    simp
  · rw [Dev.csrW_setCsr_ne _ _ (by omega), Dev.csrW_setCsr_ne _ _ (by omega), Dev.csrW_setCsr_ne _ _ hmask, if_neg h, if_neg h]
    exact ⟨rfl, rfl⟩

theorem csrW_showSlices (e : CEnt) {i : Nat} (hi : i < 6) (l : List Nat) (d : Dev) (hl : ∀ j ∈ l, j < 6) :
    (l.foldl (Dev.showSlice e) d).csrW (aColKey + 4 * i) = (if i ∈ l then (e.key >>> (32 * i)).truncate 32 else d.csrW (aColKey + 4 * i))
    ∧ (l.foldl (Dev.showSlice e) d).csrW (aColMask + 4 * i)
      = (if i ∈ l then (e.mask >>> (32 * i)).truncate 32 else d.csrW (aColMask + 4 * i)) := by
  induction l generalizing d with
  | nil => exact ⟨rfl, rfl⟩
  | cons j l ih =>
    obtain ⟨hj, hl⟩ := List.forall_mem_cons.mp hl
    obtain ⟨hkey, hmask⟩ := ih (d.showSlice e j) hl
    obtain ⟨hkey', hmask'⟩ := csrW_showSlice d e hi hj
    rw [List.foldl_cons, hkey, hmask, hkey', hmask']
    by_cases hil : i ∈ l <;> simp [hil]

theorem showEnt_eq (d : Dev) (e : CEnt) : d.showEnt e = ((List.range 6).foldl (Dev.showSlice e) d).showRes e.res := rfl

theorem showEnt_shows (d : Dev) (e : CEnt) : (d.showEnt e).winWord aColKey = e.key ∧ (d.showEnt e).winWord aColMask = e.mask
    ∧ (d.showEnt e).winRes = e.res := by
  have hwords (i : Nat) (hi : i < 6) := csrW_showSlices e hi (List.range 6) d (fun j hj => List.mem_range.mp hj)
  rw [showEnt_eq]
  refine ⟨(winWord_showRes _ _ (by decide)).trans (winWord_of_words fun i hi => ?_),
    (winWord_showRes _ _ (by decide)).trans (winWord_of_words fun i hi => ?_), winRes_showRes _ _⟩
  · exact (hwords i hi).1.trans (if_pos (List.mem_range.mpr hi))
  · exact (hwords i hi).2.trans (if_pos (List.mem_range.mpr hi))

theorem showRes_col (d : Dev) (r : BitVec 64) : (d.showRes r).col = d.col := rfl

theorem showEnt_col (d : Dev) (e : CEnt) : (d.showEnt e).col = d.col := by
  rw [showEnt_eq, showRes_col]
  exact foldl_keeps Dev.col (Dev.showSlice e) (fun _ _ => rfl) (List.range 6) d

/-! ### The operations -/

/-- A group of the window that has tiles, with FAB powered and go = 1. -/
def Dev.winRuns (d : Dev) (v : W32) (g : Nat) : Prop :=
  d.domReady 2 = true ∧ bitOf v.toNat 8 = true ∧ bitsOf v.toNat 5 4 = g ∧ (d.col.tiles g).2 ≠ 0

theorem winStart_runs {v : W32} {g op : Nat} (h : d.winRuns v g) (hop : bitsOf v.toNat 3 0 = op) (run : Nat → Dev → Dev) :
    d.winStart v op run = run g (d.winCmd v) := by
  obtain ⟨hdom, hgo, hg, htiles⟩ := h
  simp [Dev.winStart, Dev.winCmd, hdom, hgo, hop, hg, htiles]

section
variable {v : W32} {g : Nat} (h : d.winRuns v g)
include h

/-- The device after the search of the window's key. -/
def Dev.winSearched (d : Dev) (v : W32) (g : Nat) (q : BitVec 192) : Dev := (d.winCmd v).colVerify g q (d.winWord aColMask)

omit h in
theorem grp_winSearched (q : BitVec 192) (k : Nat) : (d.winSearched v g q).col.grp k = d.col.grp k :=
  grp_of_shadow (shadow_colVerify _ _ _ _) k

omit h in
theorem colSearch_winCmd (q : BitVec 192) : (d.winCmd v).colSearch g q ((d.winCmd v).winWord aColMask)
    = (d.winSearched v g q, d.col.hits g q (d.winWord aColMask)) := by
  rw [winMask_winCmd]
  exact Prod.ext rfl (hits_colVerify (d.winCmd v) g q _)

theorem colSearchCmd_misses (hop : bitsOf v.toNat 3 0 = 1) (hmiss : d.col.hits g (d.winWord aColKey) (d.winWord aColMask) = []) :
    (colSearchCmd v false d).col = { (d.winSearched v g (d.winWord aColKey)).col with walk := none, multi := false, result := 1 } := by
  rw [colSearchCmd, winStart_runs h hop]
  simp only [Dev.colSearchL, winKey_winCmd, colSearch_winCmd, hmiss]
  rfl

theorem colSearchCmd_hits (hop : bitsOf v.toNat 3 0 = 1) {x : Nat × CEnt} {l : List (Nat × CEnt)}
    (hhit : d.col.hits g (d.winWord aColKey) (d.winWord aColMask) = x :: l) :
    colSearchCmd v false d = (d.winSearched v g (d.winWord aColKey)).winHit g (d.winWord aColKey) x (!l.isEmpty) := by
  rw [colSearchCmd, winStart_runs h hop]
  simp only [Dev.colSearchL, winKey_winCmd, colSearch_winCmd, hhit]

theorem colStepCmd_refuses (hop : bitsOf v.toNat 3 0 = 2) (hg : g ≠ 1) : colStepCmd v false d = (d.winCmd v).winEnd 3 := by
  rw [colStepCmd, winStart_runs h hop, if_pos hg]

theorem colInsertCmd_refuses (hop : bitsOf v.toNat 3 0 = 3) (hg : g = 1 ∨ g = 2) : colInsertCmd v d = (d.winCmd v).winEnd 2 := by
  rw [colInsertCmd, winStart_runs h hop, if_pos hg]

theorem colRemoveCmd_refuses (hop : bitsOf v.toNat 3 0 = 4) (hg : g = 1 ∨ g = 2) : colRemoveCmd v d = (d.winCmd v).winEnd 2 := by
  rw [colRemoveCmd, winStart_runs h hop]
  exact if_pos hg

theorem colWriteCmd_refuses (hop : bitsOf v.toNat 3 0 = 6) (hg : g = 1 ∨ g = 2) : colWriteCmd v d = (d.winCmd v).winEnd 2 := by
  rw [colWriteCmd, winStart_runs h hop]
  exact if_pos hg

theorem colInsertCmd_full (hop : bitsOf v.toNat 3 0 = 3) (hg : g = 0 ∨ g = 3) (hfree : d.col.freeIdx g = none) :
    colInsertCmd v d = (d.winCmd v).winEnd 1 := by
  have hfree' : (d.winCmd v).col.freeIdx g = none := hfree
  rw [colInsertCmd, winStart_runs h hop, if_neg (by omega), hfree']

theorem colInsertCmd_inserts (hop : bitsOf v.toNat 3 0 = 3) (hg : g = 0 ∨ g = 3) {i : Nat} (hfree : d.col.freeIdx g = some i) :
    (colInsertCmd v d).col = { d.col.setGrp g ((d.col.grp g).ins i (d.winEnt g)) with hit := i, result := 0 } := by
  have hfree' : (d.winCmd v).col.freeIdx g = some i := hfree
  rw [colInsertCmd, winStart_runs h hop, if_neg (by omega), hfree', winEnt_winCmd]
  rfl

section
variable {i : Nat} (hi : d.reg aColIdx 15 0 = i)
include hi

theorem colRemoveCmd_removes (hok : d.col.idxOk g i = true) (hop : bitsOf v.toNat 3 0 = 4) (hg : g = 0 ∨ g = 3) :
    ∃ fl, (colRemoveCmd v d).col
      = { d.col.setGrp g ((d.col.grp g).del i) with flips := fl, result := if (d.col.grp g).has i then 0 else 1 } := by
  have hok' : (d.winCmd v).col.idxOk g i = true := hok
  rw [colRemoveCmd, winStart_runs h hop]
  simp only [winIdx_winCmd, hi, hok', if_neg (show ¬ (g = 1 ∨ g = 2) by omega), Bool.not_true, Bool.false_eq_true, if_false]
  exact ⟨_, rfl⟩

theorem colWriteCmd_writes (hok : d.col.idxOk g i = true) (hop : bitsOf v.toNat 3 0 = 6) (hg : g = 0 ∨ g = 3) :
    ∃ fl, (colWriteCmd v d).col = { d.col.setGrp g ((d.col.grp g).ins i (d.winEnt g)) with flips := fl, result := 0 } := by
  have hok' : (d.winCmd v).col.idxOk g i = true := hok
  rw [colWriteCmd, winStart_runs h hop]
  simp only [winIdx_winCmd, winEnt_winCmd, hi, hok', if_neg (show ¬ (g = 1 ∨ g = 2) by omega), Bool.not_true, Bool.false_eq_true, if_false]
  exact ⟨_, rfl⟩

theorem colReadCmd_refuses (hok : d.col.idxOk g i = false) (hop : bitsOf v.toNat 3 0 = 5) :
    colReadCmd v false d = (d.winCmd v).winEnd 3 := by
  have hok' : (d.winCmd v).col.idxOk g i = false := hok
  rw [colReadCmd, winStart_runs h hop]
  simp only [winIdx_winCmd, hi, hok', Bool.not_false, if_true]

theorem colReadCmd_reads (hok : d.col.idxOk g i = true) (hop : bitsOf v.toNat 3 0 = 5) {e : CEnt} (he : (d.col.grp g).get? i = some e) :
    ∃ y : Dev, (∀ k, y.col.grp k = d.col.grp k) ∧ y.winWord aColKey = e.key ∧ y.winWord aColMask = e.mask ∧ y.winRes = e.res
      ∧ colReadCmd v false d = y.winEnd 0 := by
  have hok' : (d.winCmd v).col.idxOk g i = true := hok
  have he' : ((d.winCmd v).col.grp g).get? i = some e := he
  rw [colReadCmd, winStart_runs h hop]
  simp only [winIdx_winCmd, hi, hok', Bool.not_true, Bool.false_eq_true, if_false, Bool.false_and, he']
  generalize hy : (if (d.winCmd v).col.flips.has (65536 * g + i) = true then _ else d.winCmd v) = y
  have hshadow : y.col.shadow = d.col.shadow := by
    rw [← hy]
    split
    · rw [Dev.ev_col, Dev.count_col]
      rfl
    · rfl
  obtain ⟨hkey, hmask, hres⟩ := showEnt_shows y e
  exact ⟨y.showEnt e, fun k => by rw [showEnt_col, grp_of_shadow hshadow], hkey, hmask, hres, rfl⟩

end

end

/-! A step of the walk looks at the matches after the last one (R318). -/

section
variable {v : W32} {q : BitVec 192} {i : Nat} (h : d.winRuns v 1) (hop : bitsOf v.toNat 3 0 = 2) (hwalk : d.col.walk = some (1, q, i))
include h hop hwalk

theorem colStepCmd_ends (hmiss : (d.col.hits 1 q (d.winWord aColMask)).filter (fun x => decide (i < x.1)) = []) :
    (colStepCmd v false d).col = { (d.winSearched v 1 q).col with walk := none, result := 1 } := by
  have hwalk' : (d.winCmd v).col.walk = some (1, q, i) := hwalk
  rw [colStepCmd, winStart_runs h hop]
  simp only [ne_eq, not_true_eq_false, if_false, hwalk', colSearch_winCmd, hmiss]
  rfl

theorem colStepCmd_steps {x : Nat × CEnt} {l : List (Nat × CEnt)}
    (hhit : (d.col.hits 1 q (d.winWord aColMask)).filter (fun x => decide (i < x.1)) = x :: l) :
    colStepCmd v false d = (d.winSearched v 1 q).winHit 1 q x (d.winSearched v 1 q).col.multi := by
  have hwalk' : (d.winCmd v).col.walk = some (1, q, i) := hwalk
  rw [colStepCmd, winStart_runs h hop]
  simp only [ne_eq, not_true_eq_false, if_false, hwalk', colSearch_winCmd, hhit]

end

theorem winHit_col (d : Dev) (g : Nat) (q : BitVec 192) (x : Nat × CEnt) (m : Bool) :
    (d.winHit g q x m).col = { d.col with multi := m, hit := x.1, walk := some (g, q, x.1), result := 0 } := rfl

theorem winRes_winEnd (d : Dev) (r : Nat) : (d.winEnd r).winRes = d.winRes := rfl

theorem winHit_winRes (d : Dev) (g : Nat) (q : BitVec 192) (x : Nat × CEnt) (m : Bool) : (d.winHit g q x m).winRes = x.2.res := by
  rw [Dev.winHit, winRes_winEnd, winRes_showRes]

/-- Settles O35, an operation at a time: each runs on the device after `winCmd`, and its effect on the engine is that of its own lemma. -/
theorem collationWindow : Obligations.CollationWindow := by
  intro s v g hdom hgo hg htiles
  have hrun : s.dev.winRuns v g := ⟨hdom, hgo, hg, htiles⟩
  refine ⟨fun hop => ⟨fun hmiss => ?_, fun x l hhit => ?_⟩, fun q i hop h1 hwalk => ⟨fun hmiss => ?_, fun x l hhit => ?_⟩,
    fun hop hne => ?_, fun i hop h03 hfree => ?_, fun hop h03 hfree => ?_, fun h12 => ⟨fun hop => ?_, fun hop => ?_, fun hop => ?_⟩,
    fun i hi hok => ⟨fun hop h03 => ?_, fun e hop he => ?_, fun hop h03 => ?_⟩, fun i hi hok hop => ?_⟩
  · refine ⟨s.onDev (colSearchCmd v false), rfl, rfl, ?_⟩
    rw [State.onDev_dev, colSearchCmd_misses hrun hop hmiss]
    exact ⟨rfl, rfl, grp_winSearched _⟩
  · refine ⟨_, next_onDev (colSearchCmd_hits hrun hop hhit), rfl, ?_⟩
    rw [winHit_winRes, winHit_col]
    exact ⟨rfl, rfl, rfl, rfl, rfl, grp_winSearched _⟩
  · subst h1
    refine ⟨s.onDev (colStepCmd v false), rfl, rfl, ?_⟩
    rw [State.onDev_dev, colStepCmd_ends hrun hop hwalk hmiss]
    exact ⟨rfl, rfl⟩
  · subst h1
    refine ⟨_, next_onDev (colStepCmd_steps hrun hop hwalk hhit), rfl, ?_⟩
    rw [winHit_winRes, winHit_col]
    exact ⟨rfl, rfl, rfl, rfl⟩
  · exact ⟨_, next_onDev (colStepCmd_refuses hrun hop hne), rfl, rfl⟩
  · have hg4 : g < 4 := by omega
    refine ⟨s.onDev (colInsertCmd v), rfl, rfl, ?_⟩
    rw [State.onDev_dev, colInsertCmd_inserts hrun hop h03 hfree]
    have hgrp := grp_setGrp_same s.dev.col g ((s.dev.col.grp g).ins i (s.dev.winEnt g))
    refine ⟨rfl, rfl, (congrArg (Tbl.get? · i) hgrp).trans (Tbl.get?_ins_same _ _ _), fun j hj => ?_, fun k hk hne => ?_⟩
    · exact (congrArg (Tbl.get? · j) hgrp).trans (Tbl.get?_ins_ne _ _ hj)
    · exact grp_setGrp_ne _ _ hg4 hk hne
  · exact ⟨_, next_onDev (colInsertCmd_full hrun hop h03 hfree), rfl, rfl⟩
  · exact ⟨_, next_onDev (colInsertCmd_refuses hrun hop h12), rfl, rfl⟩
  · exact ⟨_, next_onDev (colRemoveCmd_refuses hrun hop h12), rfl, rfl⟩
  · exact ⟨_, next_onDev (colWriteCmd_refuses hrun hop h12), rfl, rfl⟩
  · obtain ⟨fl, hcol⟩ := colRemoveCmd_removes hrun hi hok hop h03
    refine ⟨s.onDev (colRemoveCmd v), rfl, rfl, ?_⟩
    rw [State.onDev_dev, hcol]
    have hgrp := grp_setGrp_same s.dev.col g ((s.dev.col.grp g).del i)
    exact ⟨rfl, (congrArg (Tbl.get? · i) hgrp).trans (Tbl.get?_del_same _ _),
      fun j hj => (congrArg (Tbl.get? · j) hgrp).trans (Tbl.get?_del_ne _ hj)⟩
  · obtain ⟨y, hgrp, hkey, hmask, hres, hcmd⟩ := colReadCmd_reads hrun hi hok hop he
    exact ⟨_, next_onDev hcmd, rfl, rfl, hkey, hmask, hres, hgrp⟩
  · obtain ⟨fl, hcol⟩ := colWriteCmd_writes hrun hi hok hop h03
    refine ⟨s.onDev (colWriteCmd v), rfl, rfl, ?_⟩
    rw [State.onDev_dev, hcol]
    have hgrp := grp_setGrp_same s.dev.col g ((s.dev.col.grp g).ins i (s.dev.winEnt g))
    exact ⟨rfl, (congrArg (Tbl.get? · i) hgrp).trans (Tbl.get?_ins_same _ _ _),
      fun j hj => (congrArg (Tbl.get? · j) hgrp).trans (Tbl.get?_ins_ne _ _ hj)⟩
  · exact ⟨_, next_onDev (colReadCmd_refuses hrun hi hok hop), rfl, rfl⟩

end Sys2Proof.Machine
end

section
/-! PROOFS. O36: the Collation Engine's injector, partition, scrubber, removals and readers (R312, R322, R328, R330, R334). -/

namespace Sys2Proof.Machine
open Sys2Proof

variable {d : Dev}

/-! ### Tables after a removal -/

theorem Tbl.mem_of_mem_del {α : Type} {t : Tbl α} {k : Nat} {x : Nat × α} (h : x ∈ t.del k) : x ∈ t ∧ x.1 ≠ k := by
  induction t with
  | nil => cases h
  | cons y t ih =>
    obtain ⟨j, w⟩ := y
    by_cases hj : k = j
    · obtain ⟨hmem, hne⟩ := ih (by simpa [Tbl.del, Tbl.set?, hj] using h)
      exact ⟨List.mem_cons_of_mem _ hmem, hne⟩
    · have hcons : x = (j, w) ∨ x ∈ Tbl.del t k := by simpa [Tbl.del, Tbl.set?, hj] using h
      rcases hcons with rfl | hdel
      · exact ⟨List.mem_cons_self, fun hk => hj hk.symm⟩
      · exact ⟨List.mem_cons_of_mem _ (ih hdel).1, (ih hdel).2⟩

theorem Tbl.has_del {α : Type} {t : Tbl α} {j k : Nat} (h : j = k ∨ t.has j = false) : (t.del k).has j = false := by
  by_cases hj : j = k
  · rw [hj, Tbl.has, Tbl.get?_del_same]
    rfl
  · rw [Tbl.has, Tbl.get?_del_ne _ hj]
    exact h.resolve_left hj

/-! ### The partition settles (R313) -/

@[simp] theorem butHost_createSettle (d : Dev) : d.createSettle.butHost = d.butHost := by
  simp only [Dev.createSettle]
  (repeat' split) <;> simp

theorem col_of_host {a b : Dev} (h : a.butHost = b.butHost) : a.col = b.col := by have h' := congrArg Dev.col h; exact h'

theorem csrW_of_host {a b : Dev} (h : a.butHost = b.butHost) (r : Nat) : a.csrW r = b.csrW r := by
  have h' := congrArg (fun x : Dev => x.csrW r) h
  exact h'

/-- The engine once the partition that is moved to stands. -/
def Col.settled (c : Col) : Col :=
  { c with z := c.tz, g := c.tg, busy := false
           zone := c.zone.filter (fun x => decide (x.1 < 1024 * c.tz))
           gen := c.gen.filter (fun x => decide (x.1 < 2048 * c.tg)) }

/-- The engine settles once no range entry is left in a tile that leaves the range group. -/
theorem colSettle_col (d : Dev) : d.colSettle.col
    = if d.col.busy && d.col.rng.all (fun x => decide (x.1 < 1024 * d.col.liveTiles)) then d.col.settled else d.col := by
  simp only [Dev.colSettle]
  split
  · rw [col_of_host (butHost_createSettle _), Dev.ev_col]
    rfl
  · rfl

@[simp] theorem colSettle_csrW (d : Dev) (r : Nat) : d.colSettle.csrW r = d.csrW r := by
  simp only [Dev.colSettle]
  split
  · rw [csrW_of_host (butHost_createSettle _), Dev.ev_csrW]
    rfl
  · rfl

/-- The entries of the range group, the removals that wait and the partition moved to outlast a settling. -/
theorem colSettle_keeps (d : Dev) : d.colSettle.col.rng = d.col.rng ∧ d.colSettle.col.remWait = d.col.remWait
    ∧ d.colSettle.col.tz = d.col.tz ∧ d.colSettle.col.tg = d.col.tg := by
  rw [colSettle_col]
  split <;> exact ⟨rfl, rfl, rfl, rfl⟩

theorem colSettle_busy_or_settled (h : d.col.busy = true) : d.colSettle.col.busy = true
    ∨ (d.colSettle.col.z = d.colSettle.col.tz ∧ d.colSettle.col.g = d.colSettle.col.tg) := by
  rw [colSettle_col]
  split
  · exact .inr ⟨rfl, rfl⟩
  · exact .inl h

theorem colRepart_same {z g : Nat} (hz : z = d.col.tz) (hg : g = d.col.tg) : d.colRepart z g = d := if_pos ⟨hz, hg⟩

/-- A move to another partition is under way or done. -/
theorem colRepart_moves {g : Nat} (hg : g ≠ d.col.tg) : (d.colRepart d.col.tz g).col.tg = g ∧ (d.colRepart d.col.tz g).col.tz = d.col.tz
    ∧ (d.colRepart d.col.tz g).col.rng = d.col.rng
    ∧ ((d.colRepart d.col.tz g).col.busy = true ∨ ((d.colRepart d.col.tz g).col.z = (d.colRepart d.col.tz g).col.tz
        ∧ (d.colRepart d.col.tz g).col.g = (d.colRepart d.col.tz g).col.tg)) := by
  rw [Dev.colRepart, if_neg (fun h => hg h.2)]
  generalize hy : ({ d with col := { d.col with tz := d.col.tz, tg := g, busy := true } } : Dev) = y
  have hcol : y.col = { d.col with tz := d.col.tz, tg := g, busy := true } := by rw [← hy]
  obtain ⟨hrng, _, htz, htg⟩ := colSettle_keeps y
  have hbusy := colSettle_busy_or_settled (d := y) (by rw [hcol])
  exact ⟨htg.trans (by rw [hcol]), htz.trans (by rw [hcol]), hrng.trans (by rw [hcol]), hbusy⟩

@[simp] theorem colRepart_csrW (d : Dev) (z g r : Nat) : (d.colRepart z g).csrW r = d.csrW r := by
  unfold Dev.colRepart
  split
  · rfl
  · rw [colSettle_csrW]
    rfl

theorem partField (d : Dev) {g : Nat} (h : g < 4) : (d.setField aColPart 4 3 g).reg aColPart 4 3 = g := by
  have hw : ((d.setField aColPart 4 3 g).csrW aColPart) = BitVec.ofNat 32 ((d.csrW aColPart).toNat
      - 2 ^ 3 * bitsOf (d.csrW aColPart).toNat 4 3 + 2 ^ 3 * (g % 2 ^ 2)) := Dev.csrW_setCsr _ _ _
  have hlt := (d.csrW aColPart).isLt
  rw [Dev.reg, hw]
  simp only [bitsOf, BitVec.toNat_ofNat]
  omega

theorem colPartWrite_moves {v : W32} (h : d.domReady 2 = true) (hv : bitsOf v.toNat 4 3 ≠ 3) :
    colPartWrite v d = (d.setField aColPart 4 3 (bitsOf v.toNat 4 3)).colRepart d.col.tz (bitsOf v.toNat 4 3) := by
  simp [colPartWrite, h, hv]

/-! ### The injector (R334) -/

/-- The store of COL_CTRL that a write of it makes, and its record where it stops the scrubber. -/
def Dev.colCtrlStored (d : Dev) (v : W32) : Dev :=
  if bitOf (d.csrW aColCtrl).toNat 0 && !(bitOf v.toNat 0) then (d.setCsr aColCtrl (v &&& 0x1FD#32)).ev evColScrubOff 0 []
  else d.setCsr aColCtrl (v &&& 0x1FD#32)

theorem colCtrlStored_col (d : Dev) (v : W32) : (d.colCtrlStored v).col = d.col := by
  unfold Dev.colCtrlStored
  split
  · rw [Dev.ev_col]
    rfl
  · rfl

theorem colCtrlStored_reg (d : Dev) (v : W32) {a : Nat} (h : a ≠ aColCtrl) (hi lo : Nat) : (d.colCtrlStored v).reg a hi lo = d.reg a hi lo := by
  have hw : (d.colCtrlStored v).csrW a = d.csrW a := by
    unfold Dev.colCtrlStored
    split
    · rw [Dev.ev_csrW, Dev.csrW_setCsr_ne _ _ h]
    · rw [Dev.csrW_setCsr_ne _ _ h]
  rw [Dev.reg, hw, Dev.reg]

/-- One array bit of an entry flipped, its shadow left alone. -/
def Col.flipBit (c : Col) (k b : Nat) : Col := { c with flips := c.flips.mod 0 k (fun w => w ^^^ BitVec.ofNat 96 (2 ^ b)) }

theorem flips_flipBit (c : Col) (k b : Nat) : (c.flipBit k b).flips.get 0 k = c.flips.get 0 k ^^^ BitVec.ofNat 96 (2 ^ b) :=
  Tbl.get_mod_same 0 c.flips k (fun w => w ^^^ BitVec.ofNat 96 (2 ^ b))

theorem colInjectCmd_flips {v : W32} (h : d.domReady 2 = true) (hbit : bitsOf v.toNat 8 2 ≤ 95) (hinj : bitOf v.toNat 1 = true)
    (hent : (d.col.grp (d.reg aColCmd 5 4)).has (d.reg aColIdx 15 0) = true) :
    (colInjectCmd v d).col = d.col.flipBit (65536 * d.reg aColCmd 5 4 + d.reg aColIdx 15 0) (bitsOf v.toNat 8 2) := by
  generalize hy : d.colCtrlStored v = y
  have hcol : y.col = d.col := by rw [← hy, colCtrlStored_col]
  have hcmd : y.reg aColCmd 5 4 = d.reg aColCmd 5 4 := by rw [← hy, colCtrlStored_reg d v (by decide)]
  have hidx : y.reg aColIdx 15 0 = d.reg aColIdx 15 0 := by rw [← hy, colCtrlStored_reg d v (by decide)]
  have hrun : colInjectCmd v d = if bitOf v.toNat 1 && (y.col.grp (y.reg aColCmd 5 4)).has (y.reg aColIdx 15 0) then
      { y with col := y.col.flipBit (65536 * y.reg aColCmd 5 4 + y.reg aColIdx 15 0) (bitsOf v.toNat 8 2) } else y := by
    rw [← hy]
    simp only [colInjectCmd, h, Nat.not_lt.mpr hbit, Bool.not_true, Bool.false_eq_true, if_false]
    rfl
  rw [hrun, hcol, hcmd, hidx, hinj, hent]
  rfl

/-! ### A scrub pass (R330) -/

/-- Refilling an entry that a scrub pass found to differ. -/
def Dev.scrubRefill (t g : Nat) (d : Dev) (x : Nat × CEnt) : Dev :=
  ((d.colRefill g x.1).count aColErr 16 16).ev evColScrubMismatch 0 [.num 1 t, .num 2 x.1]

/-- The entries of a tile that differ from their shadow. -/
def Col.scrubBad (c : Col) (t : Nat) : List (Nat × CEnt) :=
  (c.grp (c.tileGroup t)).filter (fun x => decide (c.tileOf (c.tileGroup t) x.1 = t) && c.flips.has (65536 * c.tileGroup t + x.1))

theorem scrubRefill_flips (t g : Nat) (d : Dev) (x : Nat × CEnt) :
    (d.scrubRefill t g x).col.flips = d.col.flips.del (65536 * g + x.1) := by
  rw [Dev.scrubRefill, Dev.ev_col, Dev.count_col]
  rfl

theorem scrubRefills_clean (t g i : Nat) (l : List (Nat × CEnt)) (d : Dev)
    (h : (∃ x ∈ l, x.1 = i) ∨ d.col.flips.has (65536 * g + i) = false) :
    (l.foldl (Dev.scrubRefill t g) d).col.flips.has (65536 * g + i) = false := by
  induction l generalizing d with
  | nil => exact h.resolve_left (by simp)
  | cons y l ih =>
    refine ih (d.scrubRefill t g y) ?_
    rw [scrubRefill_flips]
    rcases h with ⟨x, hx, hi⟩ | hclean
    · rcases List.mem_cons.mp hx with rfl | hx
      · exact .inr (Tbl.has_del (.inl (by rw [hi])))
      · exact .inl ⟨x, hx, hi⟩
    · exact .inr (Tbl.has_del (.inr hclean))

theorem colRecheck_flips (d : Dev) (tag : Nat) : (d.colRecheck tag).col.flips = d.col.flips := by
  simp only [Dev.colRecheck]
  (repeat' split) <;> rfl

theorem scrubPass_flips {t : Nat} (hen : bitOf (d.csrW aColCtrl).toNat 0 = true) (hdom : d.domReady (5 + t / 16) = true) :
    (scrubPass t d).col.flips = ((d.col.scrubBad t).foldl (Dev.scrubRefill t (d.col.tileGroup t)) d).col.flips := by
  simp only [scrubPass, hen, hdom, Bool.not_true, Bool.or_self, Bool.false_eq_true, if_false]
  change (if d.col.tileGroup t = 1 then if (d.col.scrubBad t).isEmpty = true then
      ({ (d.col.scrubBad t).foldl (Dev.scrubRefill t (d.col.tileGroup t)) d with
        col := { ((d.col.scrubBad t).foldl (Dev.scrubRefill t (d.col.tileGroup t)) d).col with log := [] } } : Dev)
    else _ else _ : Dev).col.flips = _
  split_ifs
  · rfl
  · exact foldl_keeps (fun x => x.col.flips) Dev.colRecheck colRecheck_flips _ _
  · rfl

/-- After a pass no entry of the tile differs from its shadow. -/
theorem scrubPass_clean {t i : Nat} {e : CEnt} (hen : bitOf (d.csrW aColCtrl).toNat 0 = true) (hdom : d.domReady (5 + t / 16) = true)
    (he : (d.col.grp (d.col.tileGroup t)).get? i = some e) (ht : d.col.tileOf (d.col.tileGroup t) i = t) :
    (scrubPass t d).col.flips.has (65536 * d.col.tileGroup t + i) = false := by
  rw [scrubPass_flips hen hdom]
  refine scrubRefills_clean t _ i _ d ?_
  by_cases hflip : d.col.flips.has (65536 * d.col.tileGroup t + i) = true
  · exact .inl ⟨(i, e), List.mem_filter.mpr ⟨Tbl.mem_of_get? he, by simp [ht, hflip]⟩, rfl⟩
  · exact .inr (by simpa using hflip)

/-! ### Removals (R322) -/

@[simp] theorem mapUnits_col (d : Dev) (p n : Nat) : (d.mapUnits p n).col = d.col := by
  simp only [Dev.mapUnits]
  split <;> rfl

@[simp] theorem unmapUnits_col (d : Dev) (p n : Nat) : (d.unmapUnits p n).col = d.col := by
  simp only [Dev.unmapUnits, Dev.releaseIfEmpty]
  (repeat' split) <;> rfl

@[simp] theorem mapPut_col (d : Dev) (ns iu : Nat) (e : MapEntry) : (d.mapPut ns iu e).col = d.col := by
  have hset : (d.mapSet ns iu e).col = d.col := rfl
  simp only [Dev.mapPut]
  (repeat' split) <;> simp [hset]

theorem mapDealloc_col (d : Dev) (ns a n : Nat) : (d.mapDealloc ns a n).col = d.col :=
  foldl_keeps Dev.col (fun (d : Dev) (i : Nat) => d.mapPut ns (a + i) .dealloc) (fun x i => mapPut_col x ns (a + i) .dealloc) _ _

theorem deallocEntry_col (d : Dev) (tag : Nat) (e : CEnt) : (d.deallocEntry tag e).col = d.col := by
  simp only [Dev.deallocEntry]
  split
  · exact mapDealloc_col d _ _ _
  · exact foldl_keeps Dev.col _ (fun x i => mapDealloc_col x _ _ _) _ d

theorem colRemoveTag_rng {tag i : Nat} {e : CEnt} (h : d.col.rng.find? (fun x => x.2.tag = tag) = some (i, e)) :
    (d.colRemoveTag tag).1.col.rng = d.col.rng.del i ∧ (d.colRemoveTag tag).1.col.remWait = d.col.remWait := by
  simp only [Dev.colRemoveTag, h]
  (repeat' split) <;> exact ⟨rfl, rfl⟩

@[simp] theorem freeBufs_col (d : Dev) (l : List W32) : (d.freeBufs l).col = d.col := by
  obtain ⟨b, hb⟩ := freeBufs_eq d l
  rw [hb]

section
variable {tag i : Nat} {e : CEnt} (h : d.col.rng.filter (fun x => decide (x.2.tag = tag)) = [(i, e)])
include h

theorem find_of_filter : d.col.rng.find? (fun x => x.2.tag = tag) = some (i, e) := by
  rw [← List.head?_filter, h]
  rfl

/-- An entry that nothing holds back goes, and no removal is left waiting. -/
theorem removeTag_removes (hp : e.pending = false) (hu : d.unitsLeft [tag] = false) (hb : d.col.blockedBy tag = false)
    (hw : d.col.remWait = []) : (d.removeTag tag).col.rng = d.col.rng.del i ∧ (d.removeTag tag).col.remWait = [] := by
  simp only [Dev.removeTag, find_of_filter h, hp, hu, hb, Bool.or_self, Bool.false_eq_true, if_false]
  generalize hy : (if e.kind = 3 then d.deallocEntry tag e else d) = y
  have hcol : y.col = d.col := by
    rw [← hy]
    split
    · exact deallocEntry_col d tag e
    · rfl
  rw [freeBufs_col, hcol, hw]
  generalize hz : ({ y with col := { d.col with remWait := List.filter (fun t => decide (t ≠ tag)) [] } } : Dev) = z
  have hrng : z.col.rng = d.col.rng := by rw [← hz]
  have hwait : z.col.remWait = [] := by rw [← hz]; rfl
  obtain ⟨hgone, hleft⟩ := colRemoveTag_rng (d := z) (tag := tag) (i := i) (e := e) (by rw [hrng, find_of_filter h])
  exact ⟨hgone.trans (by rw [hrng]), hleft.trans hwait⟩

/-- An entry taken away was the only one of its tag. -/
theorem tag_gone : (d.col.rng.del i).all (fun x => decide (x.2.tag ≠ tag)) = true := by
  refine List.all_eq_true.mpr fun x hx => ?_
  obtain ⟨hmem, hne⟩ := Tbl.mem_of_mem_del hx
  refine decide_eq_true fun htag => hne ?_
  have hin : x ∈ d.col.rng.filter (fun x => decide (x.2.tag = tag)) := List.mem_filter.mpr ⟨hmem, decide_eq_true htag⟩
  rw [h, List.mem_singleton] at hin
  rw [hin]

theorem collationRemove_removes (hp : e.pending = false) (hu : d.unitsLeft [tag] = false) (hb : d.col.blockedBy tag = false)
    (hw : d.col.remWait = []) : (collationRemove tag d).col.rng = d.col.rng.del i ∧ (collationRemove tag d).col.remWait = [] := by
  obtain ⟨hrng, hwait⟩ := removeTag_removes h hp hu hb hw
  obtain ⟨hkrng, hkwait, _, _⟩ := colSettle_keeps (d.removeTag tag)
  have hcmd : collationRemove tag d = (d.removeTag tag).colSettle := by
    simp only [collationRemove, hwait, List.length_nil, List.range_zero, List.foldl_nil]
  rw [hcmd]
  exact ⟨hkrng.trans hrng, hkwait.trans hwait⟩

end

/-! ### Readers (R322) -/

theorem colReaderDone_readers (d : Dev) (tag : Nat) :
    (d.colReaderDone tag).1.col.readers = d.col.readers.put 0 tag (d.col.readers.get 0 tag - 1) := by
  simp only [Dev.colReaderDone]
  (repeat' split) <;> rfl

theorem dropReader_col (d : Dev) (tag : Nat) : (d.dropReader tag).col.readers.get 0 tag = d.col.readers.get 0 tag - 1 := by
  rw [Dev.dropReader, freeBufs_col, colReaderDone_readers, Tbl.get_put_same]

theorem dropReader_frame (d : Dev) (tag : Nat) : (d.dropReader tag).out = d.out ∧ (d.dropReader tag).hg = d.hg := by
  obtain ⟨c, hc⟩ := colReaderDone_eq d tag
  obtain ⟨b, hb⟩ := freeBufs_eq (d.colReaderDone tag).1 (d.colReaderDone tag).2
  rw [Dev.dropReader, hb, hc]
  exact ⟨rfl, rfl⟩

/-- A read none of whose units takes a block of the tag's buffers is done with the tag. -/
theorem readerRelease_releases {cs tag : Nat} {x : CSlot} (hx : d.hg.slots.get? cs = some x) (hr : x.reads = true)
    (ht : x.tags.contains tag = true)
    (hu : x.units.all (fun u => (decide (u.src ≠ 1) && decide (u.src ≠ 2)) || !(d.usesTag u tag)) = true) :
    readerRelease cs tag d = (d.modSlot cs (fun s => { s with tags := s.tags.filter (· ≠ tag) })).dropReader tag := by
  have hnone : ∀ n, n = 1 ∨ n = 2 → ∀ u ∈ x.units, (decide (u.src = n) && d.usesTag u tag) = false := by
    intro n hn u hmem
    have hsrc := List.all_eq_true.mp hu u hmem
    cases huse : d.usesTag u tag with
    | false => exact Bool.and_false _
    | true =>
      rw [huse] at hsrc
      simp only [Bool.not_true, Bool.or_false, Bool.and_eq_true, decide_eq_true_eq] at hsrc
      rw [decide_eq_false (by omega), Bool.false_and]
  have hmedia : x.units.any (fun u => decide (u.src = 2) && d.usesTag u tag) = false :=
    List.any_eq_false.mpr fun u hmem => by rw [hnone 2 (.inr rfl) u hmem]; exact Bool.false_ne_true
  have hmine : x.units.filter (fun u => decide (u.src = 1) && d.usesTag u tag) = [] :=
    List.filter_eq_nil_iff.mpr fun u hmem => by rw [hnone 1 (.inl rfl) u hmem]; exact Bool.false_ne_true
  simp only [readerRelease, hx, hr, ht, hmedia, hmine, Bool.not_true, Bool.or_self, Bool.false_eq_true, if_false, List.foldl_nil,
    Option.map_some, Option.getD_some, if_true]
  rfl

/-- Settles O36, part by part: the injector's flip, the move of the partition, the scrub pass's refills, the removal of a tag, and
the end of a reader. -/
theorem collationUpkeep : Obligations.CollationUpkeep := by
  refine fun s => ⟨fun v hdom => ⟨fun hbit hinj hent => ?_, fun hbit => ?_, fun hv => ?_, fun hv => ?_⟩, fun k hen hdom => ?_,
    fun k hoff => ?_, fun tag i e hone hp hu hw hb => ?_, fun cs tag x hx hr ht hu => ?_⟩
  · refine ⟨s.onDev (colInjectCmd v), rfl, rfl, ?_⟩
    rw [State.onDev_dev, colInjectCmd_flips hdom hbit hinj hent]
    exact ⟨fun _ => rfl, flips_flipBit _ _ _⟩
  · refine ⟨_, next_onDev (f := colInjectCmd v) (e := s.dev.ev evColParamBad 0 [.num 4 aColCtrl]) ?_, rfl, butLog_ev _ _ _ _⟩
    simp only [colInjectCmd, hdom, Bool.not_true, Bool.false_eq_true, if_false, if_pos hbit]
  · have hlt : bitsOf v.toNat 4 3 < 4 := Nat.mod_lt _ (by decide)
    have hfield := partField s.dev hlt
    refine ⟨s.onDev (colPartWrite v), rfl, rfl, ?_⟩
    rw [State.onDev_dev, colPartWrite_moves hdom hv]
    have hreg : ((s.dev.setField aColPart 4 3 (bitsOf v.toNat 4 3)).colRepart s.dev.col.tz (bitsOf v.toNat 4 3)).reg aColPart 4 3
        = bitsOf v.toNat 4 3 := by rw [Dev.reg, colRepart_csrW]; exact hfield
    by_cases hsame : bitsOf v.toNat 4 3 = s.dev.col.tg
    · rw [colRepart_same (d := s.dev.setField aColPart 4 3 (bitsOf v.toNat 4 3)) (z := s.dev.col.tz) rfl hsame]
      exact ⟨hsame.symm, rfl, rfl, hfield, fun _ => rfl, fun hne => absurd hsame hne⟩
    · obtain ⟨htg, htz, hrng, hsettled⟩ := colRepart_moves (d := s.dev.setField aColPart 4 3 (bitsOf v.toNat 4 3)) hsame
      exact ⟨htg, htz, hrng, hreg, fun h => absurd h hsame, fun _ => hsettled⟩
  · refine ⟨_, next_onDev (f := colPartWrite v) (e := s.dev.ev evColParamBad 0 [.num 4 aColPart]) ?_, rfl, butLog_ev _ _ _ _⟩
    simp only [colPartWrite, hdom, hv, Bool.not_true, Bool.false_eq_true, if_false, if_true]
  · exact ⟨s.onDev (scrubPass k), rfl, rfl, fun i e he ht => scrubPass_clean hen hdom he ht⟩
  · exact next_onDev (f := scrubPass k) (if_pos (by rw [hoff]; rfl))
  · refine ⟨s.onDev (collationRemove tag), rfl, rfl, ?_⟩
    obtain ⟨hrng, hwait⟩ := collationRemove_removes hone hp hu hb hw
    rw [State.onDev_dev, hrng]
    exact ⟨tag_gone hone, hwait⟩
  · refine ⟨s.onDev (readerRelease cs tag), rfl, rfl, ?_⟩
    rw [State.onDev_dev, readerRelease_releases hx hr ht hu]
    obtain ⟨hout, hhg⟩ := dropReader_frame (s.dev.modSlot cs (fun s => { s with tags := s.tags.filter (· ≠ tag) })) tag
    rw [hout, hhg, Dev.slots_modSlot, hx]
    exact ⟨rfl, rfl, dropReader_col _ tag⟩

end Sys2Proof.Machine
end

section
/-! PROOFS. Key changes leave the mode's state alone (R443, R447): the layer that the end of ASSEMBLE needs. -/

namespace Sys2Proof.Machine
open Sys2Proof

variable (d : Dev)

theorem modes_of_host {a b : Dev} (h : a.butHost = b.butHost) : a.modes = b.modes := by have h' := congrArg Dev.modes h; exact h'

@[simp] theorem releaseIfEmpty_modes (q s : Nat) : (d.releaseIfEmpty q s).modes = d.modes := modes_of_vitals (vitals_releaseIfEmpty d q s)
@[simp] theorem closeSb_modes (q s : Nat) : (d.closeSb q s).modes = d.modes := modes_of_vitals (vitals_closeSb d q s)
@[simp] theorem openSb_modes (q : Nat) (b : Bool) (f : Nat) : (d.openSb q b f).1.modes = d.modes := modes_of_vitals (vitals_openSb d q b f)
@[simp] theorem closeRow_modes (f : Nat) : (d.closeRow f).modes = d.modes := modes_of_vitals (vitals_closeRow d f)

@[simp] theorem dropFurrow_modes (f : Nat) : (d.dropFurrow f).modes = d.modes := by
  simp only [Dev.dropFurrow]
  (repeat' split) <;> simp

@[simp] theorem closeShared_modes (n : Nsp) (f : Nat) (x : Furrow) : (d.closeShared n f x).modes = d.modes := by
  simp only [Dev.closeShared]
  (repeat' split) <;> simp

@[simp] theorem mapUnits_modes (p n : Nat) : (d.mapUnits p n).modes = d.modes := by
  simp only [Dev.mapUnits]
  split <;> simp

@[simp] theorem unmapUnits_modes (p n : Nat) : (d.unmapUnits p n).modes = d.modes := by
  simp only [Dev.unmapUnits]
  split <;> simp

@[simp] theorem mapPut_modes (ns iu : Nat) (e : MapEntry) : (d.mapPut ns iu e).modes = d.modes := by
  have hset : (d.mapSet ns iu e).modes = d.modes := rfl
  simp only [Dev.mapPut]
  (repeat' split) <;> simp [hset]

@[simp] theorem zoneEntDel_modes (ns z : Nat) : (d.zoneEntDel ns z).modes = d.modes := by
  simp only [Dev.zoneEntDel]
  split <;> rfl

@[simp] theorem dropZoneData_modes (ns z : Nat) (n : Nsp) : (d.dropZoneData ns z n).modes = d.modes := by
  have hunmap (x : Dev) (l : List Nat) : (l.foldl (fun (x : Dev) (p : Nat) => x.unmapUnits p 1) x).modes = x.modes :=
    foldl_keeps Dev.modes _ (fun y p => unmapUnits_modes y p 1) l x
  simp only [Dev.dropZoneData]
  split <;> simp [hunmap]

@[simp] theorem colRemoveTag_modes (t : Nat) : (d.colRemoveTag t).1.modes = d.modes := by
  simp only [Dev.colRemoveTag]
  (repeat' split) <;> rfl

@[simp] theorem freeBufs_modes (l : List W32) : (d.freeBufs l).modes = d.modes := by
  obtain ⟨b, hb⟩ := freeBufs_eq d l
  rw [hb]

theorem dropZoneUnits_modes (ns a b : Nat) : (d.dropZoneUnits ns a b).modes = d.modes :=
  foldl_keeps Dev.modes _ (fun x t => by simp) _ _

@[simp] theorem finishWrites_modes : d.finishWrites.modes = d.modes := by
  refine foldl_keeps Dev.modes _ (fun x c => ?_) _ d
  (repeat' split) <;> simp

@[simp] theorem colSettle_modes : d.colSettle.modes = d.modes := by
  simp only [Dev.colSettle]
  split
  · rw [modes_of_host (butHost_createSettle _), Dev.ev_modes]
  · rfl

@[simp] theorem colRepart_modes (z g : Nat) : (d.colRepart z g).modes = d.modes := by
  simp only [Dev.colRepart]
  split
  · rfl
  · exact colSettle_modes _

theorem wipeNs_modes (ns : Nat) (n : Nsp) : (d.wipeNs ns n).modes = d.modes := by
  have hmap (x : Dev) (l : List Nat) : (l.foldl (fun (x : Dev) i => x.mapPut ns i .unwritten) x).modes = x.modes :=
    foldl_keeps Dev.modes _ (fun y i => mapPut_modes y ns i _) l x
  have hzones (x : Dev) (l : List Nat) : (l.foldl (fun (x : Dev) z => ((x.dropZoneData ns z n).zoneEntDel ns z).modZone ns z
      (fun _ => Zone.fresh)) x).modes = x.modes :=
    foldl_keeps Dev.modes (fun (x : Dev) z => ((x.dropZoneData ns z n).zoneEntDel ns z).modZone ns z (fun _ => Zone.fresh))
      (fun y z => (zoneEntDel_modes _ ns z).trans (dropZoneData_modes y ns z n)) l x
  have hfurrows (x : Dev) (l : List (Nat × Furrow)) : (l.foldl (fun (x : Dev) y =>
      if y.2.ns = some ns then x.dropFurrow y.1 else x.closeShared n y.1 y.2) x).modes = x.modes :=
    foldl_keeps Dev.modes _ (fun z y => by split <;> simp) l x
  simp only [Dev.wipeNs, colSettle_modes, finishWrites_modes, hfurrows, hzones, hmap, dropZoneUnits_modes]

@[simp] theorem keyChange_modes (ns : Nat) : (d.keyChange ns).modes = d.modes := by
  simp only [Dev.keyChange]
  split
  · rfl
  · rw [wipeNs_modes]
    rfl

theorem restartSanitize_modes : d.restartSanitize.modes = d.modes := by
  unfold Dev.restartSanitize
  split
  · rfl
  · exact foldl_keeps Dev.modes _ (fun x ns => by simp) _ d

theorem newImage_modes : d.newImage.modes = d.modes := by
  refine (foldl_keeps Dev.modes _ (fun x q => ?_) _ _).trans rfl
  dsimp only
  split <;> simp

@[simp] theorem ringWaits_modes : d.ringWaits.modes = d.modes := by
  have hkeys (x : Dev) : x.keysDone.modes = x.modes := colRepart_modes _ _ _
  have hend (x : Dev) (ok : Bool) : (x.sanEnd ok).modes = x.modes := rfl
  simp only [Dev.ringWaits]
  (repeat' split) <;> simp [hkeys, hend]

theorem ringSettle_modes : d.ringSettle.modes = d.modes := by
  have hrel (x : Dev) (l : List (Nat × Nat)) : (l.foldl (fun (x : Dev) (y : Nat × Nat) => x.releaseRing y.1 y.2) x).modes = x.modes :=
    foldl_keeps Dev.modes (fun (x : Dev) (y : Nat × Nat) => x.releaseRing y.1 y.2) (fun y z => closeSb_modes y z.1 z.2) l x
  have hdrop : d.dropErased.modes = d.modes := rfl
  simp only [Dev.ringSettle]
  (repeat' split) <;> simp [hrel, hdrop]

end Sys2Proof.Machine
end

section
/-! PROOFS. O47: the end of ASSEMBLE (R354, R177, R88, R76, R91). -/

namespace Sys2Proof.Machine
open Sys2Proof

variable {d : Dev}

/-! ### The entry into a serving mode (R76) -/

theorem makeAllReady_modes (d : Dev) : d.makeAllReady.modes = d.modes := by
  refine foldl_keeps Dev.modes _ (fun x y => ?_) _ d
  simp only [Dev.makeReady]
  (repeat' split) <;> rfl

theorem holdFloor_modes (d : Dev) : d.holdFloor.modes = d.modes := by
  have hdemand (x : Dev) (k : Nat) : (x.demand k).modes = x.modes := by
    simp only [Dev.demand]
    (repeat' split) <;> simp
  simp only [Dev.holdFloor]
  split
  · exact foldl_keeps Dev.modes _ hdemand _ d
  · rfl

theorem warmUpdate_serving (h : servingMode d.modes.mode = true) : servingMode d.warmUpdate.modes.mode = true := by
  simp only [Dev.warmUpdate]
  split
  · rw [holdFloor_modes]
    split
    · rw [Dev.ev_modes]
      exact setCond_serving h _ _
    · exact setCond_serving h _ _
  · rw [holdFloor_modes]
    exact setCond_serving (d := d.setCsr _ _) h _ _

theorem leaveIdle_mode (h : d.modes.mode ≠ .idle) : d.leaveIdle.modes.mode = d.modes.mode := by
  have hresume (x : Dev) (l : List (Nat × Die)) : (l.foldl (fun d x => if x.2.susp && decide (x.2.kind = .erase) then
      d.resumeDie (x.1 / 64) (x.1 % 64) else d) x).modes = x.modes :=
    foldl_keeps Dev.modes _ (fun y z => by split <;> simp [modes_of_sequencer (sequencer_resumeDie y _ _)]) l x
  simp only [Dev.leaveIdle, h, decide_false, Bool.false_and, Bool.false_eq_true, if_false]
  split
  · rw [hresume]
  · rfl

theorem selectPs_serving (h : servingMode d.modes.mode = true) (ps : Nat) : servingMode (d.selectPs ps).modes.mode = true := by
  have hidle : d.modes.mode ≠ .idle := ne_of_servingMode h rfl
  unfold Dev.selectPs
  split
  · rw [Dev.selectOperational, modes_of_vitals (vitals_sluPump _)]
    refine setCond_serving ?_ _ _
    split
    · rw [leaveIdle_mode (d := { d with modes := { d.modes with selPs := ps, lastOpPs := ps } }) hidle]
      exact h
    · exact h
  · simp only [Dev.selectIdle, hidle, decide_false, Bool.false_and, Bool.false_eq_true, if_false]
    exact h

theorem quireConds_serving (h : servingMode d.modes.mode = true) : servingMode d.quireConds.modes.mode = true := by
  have hconds := setCond_serving (setCond_serving (setCond_serving (setCond_serving h 3
    (d.quires.any fun x => decide (d.quireState x.1 = 2) || decide (d.quireState x.1 = 4) || (decide (d.quireState x.1 = 3) && x.2.lossWork)))
    4 ((d.quires.map (·.1)).any fun q => decide (d.quireState q = 3))) 5 ((d.quires.map (·.1)).any fun q => decide (d.quireState q = 4)))
    7 (d.quires.any fun x => x.2.spareLow)
  simp only [Dev.quireConds]
  split
  · exact setCond_serving hconds 6 true
  · exact hconds

/-- What follows the entry leaves the device in a serving mode. -/
theorem afterEntry_serving (h : servingMode d.modes.mode = true) : servingMode d.afterEntry.modes.mode = true := by
  have hfloor : servingMode ((d.setField aHgCtrl 0 0 1).makeAllReady).warmUpdate.modes.mode = true :=
    warmUpdate_serving (by rw [makeAllReady_modes]; exact h)
  refine decideServing_serving ?_
  rw [(promiseEval_mode _).1]
  refine quireConds_serving ?_
  rw [ringSettle_modes, newImage_modes, restartSanitize_modes]
  split
  · split
    · exact selectPs_serving hfloor _
    · exact hfloor
  · exact hfloor

theorem commitSvn_modes (s : State) : s.commitSvn.dev.modes = s.dev.modes := by
  simp only [State.commitSvn]
  (repeat' split) <;> simp

theorem assembleEntry_serves {s : State} (hm : s.dev.modes.mode = .assemble) (hmap : s.dev.boot.mapDone = true)
    (hmin : s.dev.minSet = none) : servingMode (assembleEntry s).dev.modes.mode = true := by
  simp only [assembleEntry, hm, hmap, hmin, ne_eq, not_true_eq_false, Bool.true_eq_false, or_self, if_false, State.onDev_dev]
  refine afterEntry_serving ?_
  rw [enterMode_mode]
  · exact servingMode_servingFor _ _
  · rw [commitSvn_modes, modes_of_vitals (vitals_signBcol _ _ _)]
    exact fun hh => absurd (hm.symm.trans hh) (by decide)

/-! ### A boot that ends (R91) -/

@[simp] theorem bootFail_modes (d : Dev) (a b : Nat) : (d.bootFail a b).modes = d.modes := by simp [Dev.bootFail]

theorem bootFail_mapFailed (d : Dev) (a b : Nat) : (d.bootFail a b).boot.mapFailed = d.boot.mapFailed := by simp [Dev.bootFail]

/-- A device in ASSEMBLE that halts has the cause and unit it is halted with. -/
theorem halt_assemble (h : d.modes.mode = .assemble) (fuse : Fuses) (cause unit : Nat) :
    (d.halt fuse cause unit).modes.mode = .halted ∧ (d.halt fuse cause unit).modes.haltCause = cause
    ∧ (d.halt fuse cause unit).modes.haltUnit = unit := by
  obtain ⟨l, hl⟩ := halt_modes (d := d) (by rw [h]; decide) (by rw [h]; decide) fuse cause unit
  rw [hl]
  exact ⟨rfl, rfl, rfl⟩

@[simp] theorem halt_boot (d : Dev) (fuse : Fuses) (cause unit : Nat) : (d.halt fuse cause unit).boot = d.boot := by
  have hsign (x : Dev) (m : Mode) : (x.signBcol fuse m).boot = x.boot := by
    simp only [Dev.signBcol]
    split <;> rfl
  simp only [Dev.halt]
  split
  · rfl
  · rw [enterMode_boot, hsign]
    split <;> rfl

theorem mapRestoreDone_fails {s : State} {r : RestoreIn} (hm : s.dev.modes.mode = .assemble) (hdram : s.dev.boot.dramDone = true)
    (hlinks : s.dev.boot.linksDone = true) (hmap : s.dev.boot.mapDone = false) (hseal : r.sealed = false) (hscan : r.scanOk = false) :
    ∃ x : Dev, x.modes = s.dev.modes ∧ x.boot.mapFailed = true ∧ mapRestoreDone r s = { s with dev := x.halt s.fuse 6 } := by
  simp only [mapRestoreDone, hm, hdram, hlinks, hmap, hseal, hscan, ne_eq, not_true_eq_false, Bool.true_eq_false, Bool.false_eq_true,
    or_self, if_false, Bool.not_false, Bool.and_self, if_true]
  exact ⟨_, by rw [bootFail_modes, Dev.ev_modes], by rw [bootFail_mapFailed], rfl⟩

theorem mapRestoreDone_restores {s : State} {r : RestoreIn} (hm : s.dev.modes.mode = .assemble) (hdram : s.dev.boot.dramDone = true)
    (hlinks : s.dev.boot.linksDone = true) (hmap : s.dev.boot.mapDone = false) (hok : r.sealed = true ∨ r.scanOk = true) :
    ∃ x : Dev, mapRestoreDone r s = { s with dev := x.restore r } := by
  have hfail : ¬ (!r.sealed && !r.scanOk) = true := by rcases hok with h | h <;> simp [h]
  simp only [mapRestoreDone, hm, hdram, hlinks, hmap, ne_eq, not_true_eq_false, Bool.true_eq_false, Bool.false_eq_true,
    or_self, if_false, if_neg hfail]
  exact ⟨_, rfl⟩

theorem restore_boot (d : Dev) (r : RestoreIn) : (d.restore r).boot.mapDone = true ∧ (d.restore r).boot.mapPm = 1000
    ∧ (d.restore r).boot.sealed = r.sealed := ⟨rfl, rfl, rfl⟩

/-! ### The channels (R354) -/

theorem mem_iff_get? {α : Type} {t : Tbl α} (h : t.wf = true) {k : Nat} {v : α} : (k, v) ∈ t ↔ t.get? k = some v :=
  ⟨Tbl.get?_of_mem h, Tbl.mem_of_get?⟩

/-- The keys of the entries that meet a condition. -/
def Tbl.keysWhere {α : Type} (t : Tbl α) (p : α → Bool) : List Nat := (t.filter (fun x => p x.2)).map (·.1)

theorem mem_keysWhere {α : Type} {t : Tbl α} {p : α → Bool} {k : Nat} : k ∈ t.keysWhere p ↔ ∃ v, (k, v) ∈ t ∧ p v = true := by
  simp [Tbl.keysWhere]

/-! A table that differs from another at one key. -/

section
variable {α : Type} {t u : Tbl α} {c : Nat} {v : α} {p : α → Bool} (ht : t.wf = true) (hu : u.wf = true) (hc : u.get? c = some v)
  (hne : ∀ k, k ≠ c → u.get? k = t.get? k)
include ht hu hne

theorem mem_of_ne {k : Nat} {w : α} (hk : k ≠ c) : (k, w) ∈ u ↔ (k, w) ∈ t := by
  rw [mem_iff_get? hu, mem_iff_get? ht, hne k hk]

include hc

/-- An entry that comes to meet the condition adds its key and no other. -/
theorem keysWhere_perm (hv : p v = true) (hold : ∀ w, t.get? c = some w → p w = false) : (u.keysWhere p).Perm (c :: t.keysWhere p) := by
  have hnodup (u : Tbl α) (hu : u.wf = true) : (u.keysWhere p).Nodup := (Tbl.nodup_keys hu).sublist (List.filter_sublist.map _)
  have hnew : c ∉ t.keysWhere p := fun hmem => by
    obtain ⟨w, hw, hp⟩ := mem_keysWhere.mp hmem
    rw [hold w ((mem_iff_get? ht).mp hw)] at hp
    cases hp
  refine (List.perm_ext_iff_of_nodup (hnodup u hu) (List.nodup_cons.mpr ⟨hnew, hnodup t ht⟩)).mpr fun k => ?_
  rw [List.mem_cons, mem_keysWhere, mem_keysWhere]
  by_cases hk : k = c
  · subst hk
    exact ⟨fun _ => .inl rfl, fun _ => ⟨v, (mem_iff_get? hu).mpr hc, hv⟩⟩
  · simp only [hk, false_or]
    exact exists_congr fun w => and_congr_left fun _ => mem_of_ne ht hu hne hk

/-- An entry that does not meet the condition leaves it to the others. -/
theorem any_others (hv : p v = false) : u.any (fun y => p y.2) = t.any (fun y => decide (y.1 ≠ c) && p y.2) := by
  refine Bool.eq_iff_iff.mpr ?_
  simp only [List.any_eq_true, Bool.and_eq_true, decide_eq_true_eq, Prod.exists]
  refine exists_congr fun k => exists_congr fun w => ?_
  by_cases hk : k = c
  · subst hk
    refine ⟨fun ⟨hmem, hp⟩ => ?_, fun ⟨_, hne, _⟩ => absurd rfl hne⟩
    have hw : w = v := Option.some.inj (((mem_iff_get? hu).mp hmem).symm.trans hc)
    rw [hw, hv] at hp
    cases hp
  · rw [mem_of_ne ht hu hne hk]
    exact ⟨fun ⟨hmem, hp⟩ => ⟨hmem, hk, hp⟩, fun ⟨hmem, _, hp⟩ => ⟨hmem, hp⟩⟩

end

/-- A channel's training ends: its entry is another, and every other channel's is as it was. -/
structure Dev.Retrained (d e : Dev) (c : Nat) (v : DChan) : Prop where
  wf    : e.dmc.chans.wf = true
  entry : e.dmc.chans.get? c = some v
  other : ∀ k, k ≠ c → e.dmc.chans.get? k = d.dmc.chans.get? k
  modes : e.modes = d.modes
  boot  : e.boot = d.boot

/-- The key of the retirement list as it is now, with the record of a list that is discarded. -/
def Dev.keyedList (d : Dev) (stale : Bool) : Dev :=
  if stale then ({ d with dmc := { d.dmc with listKey := d.listKeyNow } }).ev evDmcRetireListDiscarded 0 []
  else { d with dmc := { d.dmc with listKey := d.listKeyNow } }

theorem keyedList_frame (d : Dev) (stale : Bool) :
    (d.keyedList stale).modes = d.modes ∧ (d.keyedList stale).boot = d.boot ∧ (d.keyedList stale).dmc.chans = d.dmc.chans := by
  unfold Dev.keyedList
  split <;> simp

/-- A list under the key in force adds its pages and works on the channel; any other leaves its key alone (R370). -/
theorem applyRetireList_some (d : Dev) (c : Nat) (k : Digest) (pages soft : List Nat) : ∃ stale f,
    d.applyRetireList c (some (k, pages)) soft
      = if k = d.listKeyNow then ((d.keyedList stale).listPages c pages).modChan c f else d.keyedList stale := ⟨_, _, rfl⟩

theorem listPages_modChan_frame (d : Dev) (c : Nat) (pages : List Nat) (f : DChan → DChan) :
    ((d.listPages c pages).modChan c f).modes = d.modes ∧ ((d.listPages c pages).modChan c f).boot = d.boot
    ∧ ((d.listPages c pages).modChan c f).dmc.chans = d.dmc.chans.mod .reset c f := ⟨rfl, rfl, rfl⟩

/-- The retirement list touches the channel's own entry alone (R370). -/
theorem applyRetireList_frame (d : Dev) (c : Nat) (list : Option (Digest × List Nat)) (soft : List Nat) :
    (d.applyRetireList c list soft).modes = d.modes ∧ (d.applyRetireList c list soft).boot = d.boot
    ∧ ((d.applyRetireList c list soft).dmc.chans = d.dmc.chans
      ∨ ∃ f, (d.applyRetireList c list soft).dmc.chans = d.dmc.chans.mod .reset c f) := by
  cases list with
  | none => exact ⟨rfl, rfl, .inl rfl⟩
  | some l =>
    obtain ⟨k, pages⟩ := l
    obtain ⟨stale, f, happly⟩ := applyRetireList_some d c k pages soft
    obtain ⟨hmodes, hboot, hchans⟩ := keyedList_frame d stale
    rw [happly]
    split
    · obtain ⟨hmodes', hboot', hchans'⟩ := listPages_modChan_frame (d.keyedList stale) c pages f
      exact ⟨hmodes'.trans hmodes, hboot'.trans hboot, .inr ⟨f, hchans'.trans (by rw [hchans])⟩⟩
    · exact ⟨hmodes, hboot, .inl hchans⟩

theorem retrained_of_modChan {d y : Dev} {c : Nat} {f : DChan → DChan} (hwf : d.dmc.chans.wf = true)
    (hchans : y.dmc.chans = d.dmc.chans ∨ ∃ f, y.dmc.chans = d.dmc.chans.mod .reset c f) (hmodes : y.modes = d.modes) (hboot : y.boot = d.boot)
    (hf : (f (y.chan c)).st ≠ .absent) : Dev.Retrained d (y.modChan c f) c (f (y.chan c)) := by
  have hne : f (y.chan c) ≠ DChan.reset := fun h => hf (congrArg DChan.st h)
  have hy : y.dmc.chans.wf = true ∧ ∀ k, k ≠ c → y.dmc.chans.get? k = d.dmc.chans.get? k := by
    rcases hchans with h | ⟨g, h⟩
    · rw [h]
      exact ⟨hwf, fun _ _ => rfl⟩
    · rw [h]
      exact ⟨Tbl.wf_set? _ _ _ hwf, fun k hk => Tbl.get?_set?_ne _ _ hk⟩
  refine ⟨Tbl.wf_set? _ _ _ hy.1, ?_, fun k hk => (Tbl.get?_set?_ne _ _ hk).trans (hy.2 k hk), hmodes, hboot⟩
  refine (Tbl.get?_set?_same _ _ _).trans ?_
  exact if_neg hne

/-- The entry of a channel whose training failed. -/
def DChan.excluded (x : DChan) (step : Nat) : DChan := { x with st := .failed, step := min 7 (max 1 step) }

/-- The entry of a channel that trained and is in service. -/
def DChan.joined (x : DChan) : DChan := { x with st := .inService, step := 7 }

section
variable {s : State} {c : Nat} (hm : s.dev.modes.mode = .assemble) (hst : (s.dev.chan c).st = .training)
  (hdone : s.dev.boot.dramDone = false) (hwf : s.dev.dmc.chans.wf = true)
include hm hst hdone hwf

theorem dramTrainingDone_failed (step : Nat) : ∃ e : Dev, s.dev.Retrained e c ((s.dev.chan c).excluded step)
    ∧ dramTrainingDone c (.failed step) s = trainingOver { s with dev := e } := by
  simp only [dramTrainingDone, hm, hst, hdone, ne_eq, not_true_eq_false, if_false, decide_true, Bool.not_false, Bool.and_self, if_true]
  refine ⟨_, ?_, rfl⟩
  obtain ⟨hwf', hentry, hother, hmodes, hboot⟩ := retrained_of_modChan (f := fun x => x.excluded step) hwf (.inl rfl) rfl rfl nofun
  exact ⟨by rw [Dev.ev_dmc]; exact hwf', by rw [Dev.ev_dmc]; exact hentry, by rw [Dev.ev_dmc]; exact hother,
    (Dev.ev_modes _ _ _ _).trans hmodes, (Dev.ev_boot _ _ _ _).trans hboot⟩

theorem dramTrainingDone_trained (list : Option (Digest × List Nat)) (soft : List Nat) : ∃ (e : Dev) (x : DChan),
    s.dev.Retrained e c x.joined ∧ dramTrainingDone c (.trained list soft) s = trainingOver { s with dev := e } := by
  simp only [dramTrainingDone, hm, hst, hdone, ne_eq, not_true_eq_false, if_false, decide_true, Bool.not_false, Bool.and_self, if_true]
  obtain ⟨hmodes, hboot, hchans⟩ := applyRetireList_frame s.dev c list soft
  exact ⟨_, _, retrained_of_modChan (f := DChan.joined) hwf hchans hmodes hboot nofun, rfl⟩

end

/-- The device whose interleave is fixed (R354). -/
def Dev.interleaved (d : Dev) : Dev :=
  { d.allFresh with dmc := { d.allFresh.dmc with
    order := d.dmc.chans.keysWhere (fun x => decide (x.st = .inService)), patrolAt := 0, patrolSince := d.now } }

theorem trainingOver_eq (s : State) : trainingOver s = if s.dev.dmc.chans.any (fun x => decide (x.2.st = .training)) then s
    else if s.dev.interleaved.dmc.order.length < 6 then { s with dev := (s.dev.interleaved.bootFail 0x30 0).halt s.fuse 0x05 }
    else { s with dev := { s.dev.interleaved with boot := { s.dev.interleaved.boot with dramDone := true } } } := rfl

section
variable {e : Dev} {c : Nat} {v : DChan} (h : d.Retrained e c v) (hwf : d.dmc.chans.wf = true)
include h

theorem retrained_chan : e.chan c = v := by rw [Dev.chan, Tbl.get, h.entry]; rfl

include hwf

theorem retrained_training (hv : v.st ≠ .training) : e.dmc.chans.any (fun y => decide (y.2.st = .training))
    = d.dmc.chans.any (fun y => decide (y.1 ≠ c) && decide (y.2.st = .training)) :=
  any_others (p := fun x => decide (x.st = .training)) hwf h.wf h.entry h.other (decide_eq_false hv)

/-- A channel that comes into service makes the interleave one longer. -/
theorem retrained_order (hv : v.st = .inService) (hst : (d.chan c).st = .training) : c ∈ e.interleaved.dmc.order
    ∧ e.interleaved.dmc.order.length = (d.dmc.chans.filter (fun y => decide (y.2.st = .inService))).length + 1 := by
  have hold (w : DChan) (hw : d.dmc.chans.get? c = some w) : decide (w.st = .inService) = false := by
    have hchan : d.chan c = w := by rw [Dev.chan, Tbl.get, hw]; rfl
    rw [← hchan, hst]
    rfl
  have hperm := keysWhere_perm (p := fun x => decide (x.st = .inService)) hwf h.wf h.entry h.other (decide_eq_true hv) hold
  refine ⟨hperm.mem_iff.mpr List.mem_cons_self, hperm.length_eq.trans ?_⟩
  simp [Tbl.keysWhere]

end

/-- Settles O47: the end of training from `trainingOver_eq` and what a channel's training changes (`Dev.Retrained`), the map restore
and the entry decision from what each of their branches leaves of the mode and the boot. -/
theorem assembleEnds : Obligations.AssembleEnds := by
  intro s hm
  refine ⟨fun r hdram hlinks hmap => ⟨fun hseal hscan => ?_, fun hok => ?_⟩, fun r h => ?_, fun hmap => ⟨fun item hmin => ?_, fun hmin => ?_⟩,
    fun hmap => ?_, fun c step hst hdone hany hwf => ?_, fun c list soft hst hdone hany hwf => ⟨fun hfew => ?_, fun hmany => ?_⟩,
    fun c r hst => ?_⟩
  · obtain ⟨x, hmodes, hfail, hx⟩ := mapRestoreDone_fails hm hdram hlinks hmap hseal hscan
    obtain ⟨hmode, hcause, _⟩ := halt_assemble (d := x) (by rw [hmodes, hm]) s.fuse 6 0
    exact ⟨_, congrArg Host.Outcome.next hx, rfl, hmode, hcause, (congrArg Boot.mapFailed (halt_boot x s.fuse 6 0)).trans hfail⟩
  · obtain ⟨x, hx⟩ := mapRestoreDone_restores hm hdram hlinks hmap hok
    exact ⟨_, congrArg Host.Outcome.next hx, rfl, restore_boot x r⟩
  · refine congrArg Host.Outcome.next (if_pos ?_)
    exact .inr h
  · obtain ⟨hmode, hcause, hunit⟩ := halt_assemble (d := s.dev.bootFail 0x31 item) (by rw [bootFail_modes, hm]) s.fuse 1 item
    refine ⟨{ s with dev := (s.dev.bootFail 0x31 item).halt s.fuse 1 item }, congrArg Host.Outcome.next ?_, rfl, hmode, hcause, hunit⟩
    simp only [assembleEntry, hm, hmap, hmin, ne_eq, not_true_eq_false, Bool.true_eq_false, or_self, if_false]
  · exact ⟨_, rfl, assembleEntry_serves hm hmap hmin⟩
  · exact congrArg Host.Outcome.next (if_pos (.inr hmap))
  · obtain ⟨e, he, hx⟩ := dramTrainingDone_failed hm hst hdone hwf step
    have hwait : trainingOver { s with dev := e } = { s with dev := e } :=
      (trainingOver_eq _).trans (if_pos ((retrained_training he hwf nofun).trans hany))
    have hchan := retrained_chan he
    exact ⟨_, congrArg Host.Outcome.next (hx.trans hwait), rfl, congrArg DChan.st hchan, congrArg DChan.step hchan,
      (congrArg Boot.dramDone he.boot).trans hdone, he.modes⟩
  · obtain ⟨e, x, he, hx⟩ := dramTrainingDone_trained hm hst hdone hwf list soft
    have hnone : ¬ e.dmc.chans.any (fun y => decide (y.2.st = .training)) = true := by
      rw [retrained_training he hwf (show x.joined.st ≠ .training from nofun), hany]
      exact Bool.false_ne_true
    obtain ⟨_, hlen⟩ := retrained_order he hwf rfl hst
    have hover := (trainingOver_eq { s with dev := e }).trans ((if_neg hnone).trans (if_pos (by rw [hlen]; omega)))
    obtain ⟨hmode, hcause, _⟩ := halt_assemble (d := e.interleaved.bootFail 0x30 0)
      (by rw [bootFail_modes]; exact (congrArg Modes.mode he.modes).trans hm) s.fuse 5 0
    exact ⟨_, congrArg Host.Outcome.next (hx.trans hover), rfl, hmode, hcause⟩
  · obtain ⟨e, x, he, hx⟩ := dramTrainingDone_trained hm hst hdone hwf list soft
    have hnone : ¬ e.dmc.chans.any (fun y => decide (y.2.st = .training)) = true := by
      rw [retrained_training he hwf (show x.joined.st ≠ .training from nofun), hany]
      exact Bool.false_ne_true
    obtain ⟨hmem, hlen⟩ := retrained_order he hwf rfl hst
    have hover := (trainingOver_eq { s with dev := e }).trans ((if_neg hnone).trans (if_neg (by rw [hlen]; omega)))
    exact ⟨_, congrArg Host.Outcome.next (hx.trans hover), rfl, he.modes, rfl, congrArg DChan.st (retrained_chan he), hmem, rfl, rfl⟩
  · exact congrArg Host.Outcome.next (if_pos hst)

end Sys2Proof.Machine
end

section
/-! PROOFS. O50: DRAM refresh, promotion, fills, and a cycle of the scheduler (R357, R358, R359, R361, R366, R367). -/

namespace Sys2Proof.Machine
open Sys2Proof

variable {d : Dev}

/-! ### Ranks (R359) -/

@[simp] theorem rank_modRank (d : Dev) (c r : Nat) (f : DRank → DRank) : (d.modRank c r f).rank c r = f (d.rank c r) := by
  simp only [Dev.rank, Dev.modRank, Dev.chan_modChan]
  exact Tbl.get_mod_same _ _ _ _

/-- Owing refreshes: at 4 the refresh is forced, and counted where it was not yet. -/
theorem rank_owe (d : Dev) (c r n : Nat) :
    (d.owe c r n).rank c r = { d.rank c r with owed := n, forced := (d.rank c r).forced || decide (4 ≤ n) } := by
  simp only [Dev.owe]
  split <;> exact rank_modRank _ _ _ _

theorem counter_owe (d : Dev) (c r n : Nat) : (d.owe c r n).counter aDmcRefForced 0
    = if 4 ≤ n ∧ (d.rank c r).forced = false then sat 32 (d.counter aDmcRefForced 0 + 1) else d.counter aDmcRefForced 0 := by
  simp only [Dev.owe]
  split
  · exact Dev.counter_count d aDmcRefForced 0 32 1
  · rfl

section
variable {c r : Nat} (hc : d.inService c = true) (hr : r < d.rankCount)
include hc hr

theorem refreshInterval_owes : refreshInterval c r d = d.owe c r (min 7 ((d.rank c r).owed + 1)) := by
  simp [refreshInterval, hc, hr]

theorem mr4Poll_rises (h : (d.rank c r).hot = false) :
    mr4Poll c r true d = (d.modRank c r (fun x => { x with hot := true })).owe c r (min 7 (2 * (d.rank c r).owed)) := by
  simp [mr4Poll, hc, hr, h]

theorem mr4Poll_falls (h : (d.rank c r).hot = true) : mr4Poll c r false d
    = (d.modRank c r (fun x => { x with hot := false })).modRank c r (fun x => { x with owed := (x.owed + 1) / 2 }) := by
  simp [mr4Poll, hc, hr, h]

theorem mr4Poll_stays : mr4Poll c r (d.rank c r).hot d = d.modRank c r (fun x => { x with hot := (d.rank c r).hot }) := by
  simp [mr4Poll, hc, hr]

end

theorem refresh_idle {c r : Nat} (h : d.inService c = false ∨ d.rankCount ≤ r) :
    refreshInterval c r d = d ∧ ∀ hot, mr4Poll c r hot d = d := by
  have hcond : ¬ (d.inService c && decide (r < d.rankCount)) = true := by
    rcases h with h | h
    · simp [h]
    · simp [Nat.not_lt.mpr h]
  exact ⟨if_neg hcond, fun hot => if_neg hcond⟩

/-! ### The scheduler's choice (R357) -/

/-- A request with the fields that the choice is made by is the oldest of itself alone, and nothing waits before it. -/
theorem inArrivalOrder_single (q : DReq) : inArrivalOrder [q] = [q] := by simp [inArrivalOrder]

theorem pickReq_single (cap hits : Nat) (q : DReq) : pickReq cap hits [q] = some (q, 0) := by
  cases hrow : q.rowHit <;> simp [pickReq, oldestReq, hrow]

theorem pickReq_nil (cap hits : Nat) : pickReq cap hits [] = none := rfl

theorem pickClass_nil (d : Dev) (c sub r : Nat) : d.pickClass c sub r [] = none := by
  simp [Dev.pickClass, pickReq_nil]

theorem pickClass_single (d : Dev) (c sub r : Nat) (q : DReq) : d.pickClass c sub r [q] = some (d.reqClass q, q, 0) := by
  cases hk : d.reqClass q <;> simp [Dev.pickClass, hk, pickReq_single, pickReq_nil]

/-- The count of row hits that a pick leaves behind. -/
def Dev.withHits (d : Dev) (h : Tbl Nat) : Dev := { d with dmc := { d.dmc with hits := h } }

section
variable {c sub r : Nat}

/-- A forced refresh goes before every request, and is subchannel 0's to make. -/
theorem schedule_forced (h : (d.rank c r).forced = true) : d.schedule c sub r = if sub = 0 then d.refresh c r else d := by
  simp only [Dev.schedule, h, if_true]

variable (h : (d.rank c r).forced = false)
include h

theorem schedule_none (hready : (inArrivalOrder (d.reqsAt c sub r)).filter (fun q => d.reqReady c q) = []) :
    d.schedule c sub r = if 0 < (d.rank c r).owed ∧ sub = 0 then d.refresh c r else d := by
  simp only [Dev.schedule, h, Bool.false_eq_true, if_false, hready, List.filter_nil, oldestReq, pickClass_nil]

/-- A request that is alone and ready is issued. -/
theorem schedule_single {q : DReq} (hq : d.reqsAt c sub r = [q]) (hready : d.reqReady c q = true) :
    ∃ hits, d.schedule c sub r = (d.withHits hits).issueReq c sub q := by
  have hl : (inArrivalOrder (d.reqsAt c sub r)).filter (fun q => d.reqReady c q) = [q] := by
    rw [hq, inArrivalOrder_single, List.filter_cons_of_pos hready, List.filter_nil]
  simp only [Dev.schedule, h, Bool.false_eq_true, if_false, hl]
  cases hp : (d.dport q.port).panic with
  | true =>
    simp only [List.filter_cons, hp, if_true, List.filter_nil, oldestReq]
    exact ⟨d.dmc.hits, rfl⟩
  | false =>
    simp only [List.filter_cons, hp, Bool.false_eq_true, if_false, List.filter_nil, oldestReq, pickClass_single]
    exact ⟨_, rfl⟩

end

theorem reqsAt_single {c sub r : Nat} {q : DReq} (hr : q.rank = r) (hw : d.dmc.waiting = [⟨c, sub, q⟩]) : d.reqsAt c sub r = [q] := by
  simp [Dev.reqsAt, hw, hr]

/-! ### Issuing a request (R366, R367) -/

/-- The queue of waiting requests without those of one number. -/
def Dev.dequeued (d : Dev) (id : Nat) : Dev := { d with dmc := { d.dmc with waiting := d.dmc.waiting.filter (fun w => w.req.id ≠ id) } }

theorem issueReq_read {c sub : Nat} {q : DReq} (h : q.isWrite = false) : d.issueReq c sub q = d.dequeued q.id := by
  simp only [Dev.issueReq, h, Bool.not_false, if_true]
  rfl

theorem issueReq_whole {c sub : Nat} {q : DReq} (h : q.isWrite = true) (hp : q.part = none) :
    d.issueReq c sub q = (((d.dequeued q.id).modChan c (fun x => { x with poison := x.poison.filter (· ≠ q.word) })).writeGranule c q.page
      (q.word % 64)).spendInjector c sub := by
  simp only [Dev.issueReq, h, hp, Bool.not_true, Bool.false_eq_true, if_false]
  rfl

/-- What the last part of a write touches: the injector's arming and the granules. -/
theorem spendInjector_frame (d : Dev) (c sub : Nat) : (d.spendInjector c sub).dmc.waiting = d.dmc.waiting
    ∧ (d.spendInjector c sub).dmc.chans = d.dmc.chans ∧ ∀ g, (d.spendInjector c sub).dmc.fresh g = d.dmc.fresh g := by
  simp only [Dev.spendInjector]
  (repeat' split) <;> exact ⟨rfl, rfl, fun _ => rfl⟩

theorem fresh_false {m : Dmc} {g : Nat} (h : m.used.contains g = true ∨ m.fills.has g = true) : m.fresh g = false := by
  rcases h with h | h
  · rw [Dmc.fresh, h]
    rfl
  · rw [Dmc.fresh, h]
    exact Bool.and_false _

/-- A granule whose words written or filled are those of a map: it leaves its slot once every word is. -/
def Dev.filledTo (d : Dev) (g m : Nat) : Dev :=
  if m = 2 ^ 32768 - 1 then { d with dmc := { d.dmc with fills := d.dmc.fills.del g, used := g :: d.dmc.used } }
  else { d with dmc := { d.dmc with fills := d.dmc.fills.ins g m } }

theorem writeGranule_eq (d : Dev) (c page word : Nat) : ∃ m, d.writeGranule c page word
    = if d.dmc.used.contains (d.granuleOf c page) then d else d.filledTo (d.granuleOf c page) m := ⟨_, rfl⟩

theorem filledTo_frame (d : Dev) (g m : Nat) : (d.filledTo g m).dmc.waiting = d.dmc.waiting ∧ (d.filledTo g m).dmc.chans = d.dmc.chans
    ∧ (d.filledTo g m).dmc.fresh g = false := by
  unfold Dev.filledTo
  split
  · exact ⟨rfl, rfl, fresh_false (.inl (by simp))⟩
  · exact ⟨rfl, rfl, fresh_false (.inr (by simp [Tbl.has]))⟩

/-- A write takes its granule out of FRESH (R367). -/
theorem writeGranule_frame (d : Dev) (c page word : Nat) : (d.writeGranule c page word).dmc.waiting = d.dmc.waiting
    ∧ (d.writeGranule c page word).dmc.chans = d.dmc.chans
    ∧ (d.writeGranule c page word).dmc.fresh (d.granuleOf c page) = false := by
  obtain ⟨m, hm⟩ := writeGranule_eq d c page word
  rw [hm]
  split
  · next hused => exact ⟨rfl, rfl, fresh_false (.inl hused)⟩
  · exact filledTo_frame d _ m

theorem chan_of_chans {a b : Dev} (h : a.dmc.chans = b.dmc.chans) (c : Nat) : a.chan c = b.chan c := by rw [Dev.chan, h, Dev.chan]

/-- A whole word that is written leaves the queue, loses its poison mark, and its granule is FRESH no more. -/
theorem issueReq_writes {c sub : Nat} {q : DReq} (h : q.isWrite = true) (hp : q.part = none) :
    (d.issueReq c sub q).dmc.waiting = (d.dequeued q.id).dmc.waiting ∧ q.word ∉ ((d.issueReq c sub q).chan c).poison
    ∧ (d.issueReq c sub q).dmc.fresh (d.granuleOf c q.page) = false := by
  rw [issueReq_whole h hp]
  generalize hy : (d.dequeued q.id).modChan c (fun x => { x with poison := x.poison.filter (· ≠ q.word) }) = y
  have hwait : y.dmc.waiting = (d.dequeued q.id).dmc.waiting := by rw [← hy]; rfl
  have hgran : y.granuleOf c q.page = d.granuleOf c q.page := by rw [← hy]; rfl
  have hpoison : q.word ∉ (y.chan c).poison := by
    rw [← hy, Dev.chan_modChan]
    simp
  obtain ⟨hwait', hchans', hfresh'⟩ := writeGranule_frame y c q.page (q.word % 64)
  obtain ⟨hwait'', hchans'', hfresh''⟩ := spendInjector_frame (y.writeGranule c q.page (q.word % 64)) c sub
  refine ⟨hwait''.trans (hwait'.trans hwait), ?_, ?_⟩
  · rw [chan_of_chans (hchans''.trans hchans')]
    exact hpoison
  · rw [hfresh'', ← hgran]
    exact hfresh'

theorem dequeued_single {c sub : Nat} {q : DReq} (hw : d.dmc.waiting = [⟨c, sub, q⟩]) : (d.dequeued q.id).dmc.waiting = [] := by
  simp [Dev.dequeued, hw]

/-! ### A cycle -/

/-- A cycle takes what arrives for the rank and the FIFO levels, and then the scheduler chooses. -/
theorem dramCycle_runs {c sub r : Nat} (hc : d.inService c = true) (hs : sub < 2) (hr : r < d.rankCount) (a : List DReq)
    (f : List (Nat × Nat × Bool)) : dramCycle c sub r a f d
      = (f.foldl (fun (d : Dev) (f : Nat × Nat × Bool) => d.fifoLevel f.1 f.2.1 f.2.2)
          (a.foldl (fun (d : Dev) (q : DReq) => if q.rank = r then d.reqArrives c sub q else d) d)).schedule c sub r := by
  simp [dramCycle, hc, hs, hr]

theorem rank_refresh (d : Dev) (c r : Nat) : (d.refresh c r).rank c r
    = { d.rank c r with owed := (d.rank c r).owed - 1, forced := (d.rank c r).forced && decide (1 < (d.rank c r).owed) } :=
  rank_modRank _ _ _ _

/-- A request that the queue takes. -/
def Dev.reqQueued (d : Dev) (c sub : Nat) (q : DReq) : Dev :=
  { d with dmc := { d.dmc with waiting := d.dmc.waiting ++ [⟨c, sub, { q with promoted := false }⟩] } }

section
variable {c sub : Nat} {q : DReq} (hp : dmcPort q.port = true) (hid : d.dmc.waiting.any (fun w => w.req.id = q.id) = false)
  (hword : q.word < 64 * d.localPages)
include hp hid hword

theorem reqArrives_zero (hrd : q.isWrite = false) (hz : d.readsZero c q.page (q.word % 64) = true) : d.reqArrives c sub q = d := by
  simp only [Dev.reqArrives, hp, hid, Nat.not_le.mpr hword, hrd, hz, Bool.not_true, Bool.not_false, decide_false, Bool.or_self,
    Bool.false_eq_true, if_false, Bool.and_self, if_true]

theorem reqArrives_waits (h : q.isWrite = true ∨ d.readsZero c q.page (q.word % 64) = false) :
    d.reqArrives c sub q = d.reqQueued c sub q := by
  have hdev : ¬ (!q.isWrite && d.readsZero c q.page (q.word % 64)) = true := by rcases h with h | h <;> simp [h]
  simp only [Dev.reqArrives, hp, hid, Nat.not_le.mpr hword, Bool.not_true, decide_false, Bool.or_self, Bool.false_eq_true, if_false,
    if_neg hdev]
  rfl

end

/-- An RT port that streams below its weir (R358). -/
theorem fifoLevel_panics {p n : Nat} (hp : dmcPort p = true) (hk : d.dclass p = .rt) (hno : (d.dport p).panic = false)
    (hn : n < 1024 * (d.dport p).weir) : d.fifoLevel p n true
      = (d.count aDmcPanic 0 32).modDport p (fun x => { x with fifo := n, stream := true, panic := true }) := by
  simp [Dev.fifoLevel, hp, hk, hno, hn]

/-! ### Ages and fills (R361, R367) -/

/-- A request that has waited longer than its limit is promoted to RT. -/
def DWait.aged (id limit now : Nat) (w : DWait) : DWait :=
  if w.req.id = id ∧ w.req.arrival + limit < now then { w with req := { w.req with promoted := true } } else w

theorem waiting_dramAgeLimit (id : Nat) (d : Dev) :
    (dramAgeLimit id d).dmc.waiting = d.dmc.waiting.map (DWait.aged id (100 * d.reg aDmcCtrl 15 8) d.now) := rfl

/-- A granule that is filled leaves its slot, and is written from then on. -/
theorem granuleFilled_fills {g : Nat} (h : d.dmc.fills.has g = true) :
    granuleFilled g d = { d with dmc := { d.dmc with fills := d.dmc.fills.del g, used := g :: d.dmc.used } } := if_pos h

theorem fresh_filled_ne (m : Dmc) {g j : Nat} (h : j ≠ g) :
    ({ m with fills := m.fills.del g, used := g :: m.used } : Dmc).fresh j = m.fresh j := by
  have hused : (g :: m.used).contains j = m.used.contains j := by simp [h]
  rw [Dmc.fresh, Dmc.fresh, hused, Tbl.has, Tbl.get?_del_ne _ h, Tbl.has]

/-! ### The two halves of O50 -/

section
variable {s : State} {c r : Nat} (hc : s.dev.inService c = true) (hr : r < s.dev.rankCount)
include hc hr

theorem refreshInterval_rank : (refreshInterval c r s.dev).rank c r = { s.dev.rank c r with
      owed := min 7 ((s.dev.rank c r).owed + 1), forced := (s.dev.rank c r).forced || decide (3 ≤ (s.dev.rank c r).owed) }
    ∧ (refreshInterval c r s.dev).counter aDmcRefForced 0 = if 3 ≤ (s.dev.rank c r).owed ∧ (s.dev.rank c r).forced = false
      then sat 32 (s.dev.counter aDmcRefForced 0 + 1) else s.dev.counter aDmcRefForced 0 := by
  have hiff : (4 ≤ min 7 ((s.dev.rank c r).owed + 1)) ↔ 3 ≤ (s.dev.rank c r).owed := by omega
  rw [refreshInterval_owes hc hr, rank_owe, counter_owe]
  simp only [hiff, and_self]

theorem mr4Poll_rises_rank (h : (s.dev.rank c r).hot = false) : (mr4Poll c r true s.dev).rank c r = { s.dev.rank c r with
    hot := true, owed := min 7 (2 * (s.dev.rank c r).owed), forced := (s.dev.rank c r).forced || decide (2 ≤ (s.dev.rank c r).owed) } := by
  have hiff : (4 ≤ min 7 (2 * (s.dev.rank c r).owed)) ↔ 2 ≤ (s.dev.rank c r).owed := by omega
  rw [mr4Poll_rises hc hr h, rank_owe, rank_modRank]
  simp only [hiff]

/-- With nothing that arrives the scheduler chooses from what waits. -/
theorem dramCycle_quiet {sub : Nat} (hs : sub < 2) : dramCycle c sub r [] [] s.dev = s.dev.schedule c sub r := dramCycle_runs hc hs hr [] []

section
variable (hforced : (s.dev.rank c r).forced = true)
include hforced

theorem dramCycle_forced : dramCycle c 0 r [] [] s.dev = s.dev.refresh c r := by
  rw [dramCycle_quiet hc hr (by decide), schedule_forced hforced, if_pos rfl]

/-- Under a forced refresh, subchannel 1 takes what arrives and issues nothing. -/
theorem dramCycle_arrival {q : DReq} (hq : q.rank = r) {e : Dev} (ha : s.dev.reqArrives c 1 q = e) (he : e.rank c r = s.dev.rank c r) :
    dramCycle c 1 r [q] [] s.dev = e := by
  rw [dramCycle_runs hc (by decide) hr, List.foldl_cons, List.foldl_nil, List.foldl_nil, if_pos hq, ha,
    schedule_forced (by rw [he, hforced]), if_neg (by decide)]

theorem dramCycle_fifo {p n : Nat} {e : Dev} (hf : s.dev.fifoLevel p n true = e) (he : e.rank c r = s.dev.rank c r) :
    dramCycle c 1 r [] [(p, n, true)] s.dev = e := by
  rw [dramCycle_runs hc (by decide) hr, List.foldl_nil, List.foldl_cons, List.foldl_nil, hf, schedule_forced (by rw [he, hforced]),
    if_neg (by decide)]

end

section
variable {sub : Nat} {q : DReq} (hs : sub < 2) (hforced : (s.dev.rank c r).forced = false) (hq : q.rank = r)
  (hw : s.dev.dmc.waiting = [⟨c, sub, q⟩])
include hs hforced hq hw

theorem dramCycle_issues (hready : s.dev.reqReady c q = true) :
    ∃ hits, dramCycle c sub r [] [] s.dev = (s.dev.withHits hits).issueReq c sub q := by
  rw [dramCycle_quiet hc hr hs]
  exact schedule_single hforced (reqsAt_single hq hw) hready

theorem dramCycle_waits (hready : s.dev.reqReady c q = false) (hnone : (s.dev.rank c r).owed = 0) :
    dramCycle c sub r [] [] s.dev = s.dev := by
  have hl : (inArrivalOrder (s.dev.reqsAt c sub r)).filter (fun q => s.dev.reqReady c q) = [] := by
    rw [reqsAt_single hq hw, inArrivalOrder_single, List.filter_cons_of_neg (by rw [hready]; exact Bool.false_ne_true), List.filter_nil]
  rw [dramCycle_quiet hc hr hs, schedule_none hforced hl, if_neg (by omega)]

end

theorem dramCycle_idle (hforced : (s.dev.rank c r).forced = false) (hnone : s.dev.reqsAt c 0 r = []) :
    dramCycle c 0 r [] [] s.dev = if 0 < (s.dev.rank c r).owed then s.dev.refresh c r else s.dev := by
  rw [dramCycle_quiet hc hr (by decide), schedule_none hforced (by rw [hnone]; rfl)]
  simp only [and_true]

end

theorem mem_aged {w : DWait} {l : List DWait} (h : w ∈ l) (id limit now : Nat) :
    (w.req.id = id → w.req.arrival + limit < now → { w with req := { w.req with promoted := true } } ∈ l.map (DWait.aged id limit now))
    ∧ ((w.req.id ≠ id ∨ now ≤ w.req.arrival + limit) → w ∈ l.map (DWait.aged id limit now)) := by
  refine ⟨fun hid hold => List.mem_map.mpr ⟨w, h, if_pos ⟨hid, hold⟩⟩, fun hkeep => List.mem_map.mpr ⟨w, h, if_neg fun ⟨hid, hold⟩ => ?_⟩⟩
  rcases hkeep with hne | hle
  · exact hne hid
  · exact absurd hold (Nat.not_lt.mpr hle)

/-- Settles O50: the refreshes from what `Dev.owe` does to a rank, and a cycle from the scheduler's choice under a forced refresh, with
no request, and with one. -/
theorem dramCycles : Obligations.DramCycles := by
  refine ⟨fun s => ⟨?_, fun c r hidle => ?_, fun n => ?_, fun g hg => ?_, fun g hg => ?_⟩, ?_⟩
  · rintro c r x hc hr rfl
    refine ⟨⟨s.onDev (refreshInterval c r), rfl, rfl, refreshInterval_rank hc hr⟩,
      fun hcool => ⟨s.onDev (mr4Poll c r true), rfl, rfl, mr4Poll_rises_rank hc hr hcool⟩,
      fun hhot => ⟨_, next_onDev (mr4Poll_falls hc hr hhot), rfl, ?_⟩, ⟨_, next_onDev (mr4Poll_stays hc hr), rfl, ?_⟩⟩
    · rw [rank_modRank, rank_modRank]
    · rw [rank_modRank]
  · obtain ⟨hrefresh, hpoll⟩ := refresh_idle hidle
    exact ⟨next_onDev hrefresh, fun hot => next_onDev (hpoll hot)⟩
  · refine ⟨s.onDev (dramAgeLimit n), rfl, rfl, ?_⟩
    rw [State.onDev_dev, waiting_dramAgeLimit, List.length_map]
    exact ⟨rfl, fun w hw => mem_aged hw n _ _⟩
  · refine ⟨_, next_onDev (granuleFilled_fills hg), rfl, Tbl.get?_del_same _ _, List.mem_cons_self, fresh_false (.inl (by simp)),
      fun j hj => ⟨Tbl.get?_del_ne _ hj, fresh_filled_ne s.dev.dmc hj⟩⟩
  · exact next_onDev (f := granuleFilled g) (if_neg (by rw [hg]; exact Bool.false_ne_true))
  · rintro s c r x hc hr rfl
    refine ⟨fun hforced => ?_, fun hforced hnone => ⟨fun howed => ?_, fun howed => ?_⟩,
      fun sub q hs hforced hq hw => ⟨fun hrd => ?_, fun hwr hpart hready => ?_, fun hready howed => ?_⟩,
      fun hforced q hq hp hid hword => ⟨fun hrd hz => ?_, fun hdev => ?_⟩, fun hforced p n hp hk hno hn => ?_, fun sub a f hs => ?_⟩
    · refine ⟨_, next_onDev (dramCycle_forced hc hr hforced), rfl, ?_, rfl⟩
      rw [rank_refresh, hforced, Bool.true_and]
    · refine ⟨_, next_onDev ((dramCycle_idle hc hr hforced hnone).trans (if_pos howed)), rfl, ?_, rfl⟩
      rw [rank_refresh]
      simp [hforced]
    · exact next_onDev ((dramCycle_idle hc hr hforced hnone).trans (if_neg (by omega)))
    · have hready : s.dev.reqReady c q = true := by simp [Dev.reqReady, hrd]
      obtain ⟨hits, hissue⟩ := dramCycle_issues hc hr hs hforced hq hw hready
      exact ⟨_, next_onDev (hissue.trans (issueReq_read hrd)), rfl, dequeued_single (d := s.dev.withHits hits) hw, rfl, rfl⟩
    · obtain ⟨hits, hissue⟩ := dramCycle_issues hc hr hs hforced hq hw hready
      obtain ⟨hwait, hpoison, hfresh⟩ := issueReq_writes (d := s.dev.withHits hits) (c := c) (sub := sub) hwr hpart
      exact ⟨_, next_onDev hissue, rfl, hwait.trans (dequeued_single (d := s.dev.withHits hits) hw), hpoison, hfresh⟩
    · exact ⟨_, next_onDev (dramCycle_waits hc hr hs hforced hq hw hready howed), hw⟩
    · exact next_onDev (dramCycle_arrival hc hr hforced hq (reqArrives_zero hp hid hword hrd hz) rfl)
    · exact next_onDev (dramCycle_arrival hc hr hforced hq (reqArrives_waits hp hid hword hdev) rfl)
    · refine ⟨_, next_onDev (dramCycle_fifo hc hr hforced (fifoLevel_panics hp hk hno hn) rfl), rfl, ?_⟩
      have hport := Dev.dport_modDport (s.dev.count aDmcPanic 0 32) p (fun x => { x with fifo := n, stream := true, panic := true })
      exact ⟨congrArg DPort.panic hport, congrArg DPort.fifo hport, Dev.counter_count s.dev aDmcPanic 0 32 1⟩
    · exact next_onDev (f := dramCycle c sub r a f) (if_neg (by simp [Nat.not_lt.mpr hs]))

end Sys2Proof.Machine
end

section
/-! PROOFS. O51: DRAM errors, patrol, fixes, retirement and injection (R364, R365, R368 to R372). -/

namespace Sys2Proof.Machine
open Sys2Proof

variable {d : Dev}

/-! ### Reads that find an error (R363, R364) -/

@[simp] theorem butLog_ueRead (d : Dev) (c : Nat) (w : DWord) (stored : Bool) (src : Nat) : (d.ueRead c w stored src).butLog = d.butLog := by
  unfold Dev.ueRead
  split
  · rfl
  · rw [butLog_ev]
    rfl

/-- A word stored poisoned is counted apart from one that can't be corrected. -/
theorem counter_ueRead_stored (d : Dev) (c : Nat) (w : DWord) (src : Nat) :
    (d.ueRead c w true src).counter aDmcUeCnt 16 = sat 16 (d.counter aDmcUeCnt 16 + 1) := Dev.counter_count d aDmcUeCnt 16 16 1

theorem counter_ueRead_found (d : Dev) (c : Nat) (w : DWord) (src : Nat) :
    (d.ueRead c w false src).counter aDmcUeCnt 0 = sat 16 (d.counter aDmcUeCnt 0 + 1) := by
  rw [Dev.ueRead, if_neg Bool.false_ne_true, counter_ev _ (by decide) (by decide), Dev.counter_count]

/-- The read of a word with an error, counted by whether the word is stored poisoned. -/
def Dev.ueAt (d : Dev) (c : Nat) (w : DWord) : Dev := d.ueRead c w ((d.chan c).poison.contains (64 * w.page + w.word)) 0

theorem butLog_ueAt (d : Dev) (c : Nat) (w : DWord) : (d.ueAt c w).butLog = d.butLog := butLog_ueRead d c w _ 0

theorem counter_ueAt (d : Dev) (c : Nat) (w : DWord) :
    ((d.chan c).poison.contains (64 * w.page + w.word) = true → (d.ueAt c w).counter aDmcUeCnt 16 = sat 16 (d.counter aDmcUeCnt 16 + 1))
    ∧ ((d.chan c).poison.contains (64 * w.page + w.word) = false → (d.ueAt c w).counter aDmcUeCnt 0 = sat 16 (d.counter aDmcUeCnt 0 + 1)) :=
  ⟨fun h => by rw [Dev.ueAt, h]; exact counter_ueRead_stored d c w 0, fun h => by rw [Dev.ueAt, h]; exact counter_ueRead_found d c w 0⟩

/-- Every reader but the host's data DMA has the read counted and at most one more record. -/
theorem dramUncorrectable_counts {c n : Nat} {w : DWord} {rd : DramReader} (h : d.inService c = true)
    (hrd : rd ∈ [DramReader.other, .encode n, .core n, .mapWalk n, .journal n]) :
    dramUncorrectable c w rd d = d.ueAt c w ∨ ∃ l, dramUncorrectable c w rd d = (d.ueAt c w).ev evSigJournalRecompute 0 l := by
  have hrun : ¬ (!d.inService c) = true := by simp [h]
  simp only [List.mem_cons, List.not_mem_nil, or_false] at hrd
  obtain rfl | rfl | rfl | rfl | rfl := hrd
  · exact .inl (if_neg hrun)
  · exact .inl (if_neg hrun)
  · exact .inl (if_neg hrun)
  · exact .inl (if_neg hrun)
  · simp only [dramUncorrectable, if_neg hrun]
    split
    · exact .inr ⟨_, rfl⟩
    · exact .inl rfl

/-- Data for the host that carry the mark end the command. -/
theorem dramUncorrectable_hostDma {c cs : Nat} {w : DWord} {x : CSlot} (h : d.inService c = true) (hx : d.hg.slots.get? cs = some x) :
    dramUncorrectable c w (.hostDma cs) d = ((d.ueAt c w).dropWork cs).complete cs cqeDataTransfer := by
  have hhg : (d.ueAt c w).hg = d.hg := by have h' := congrArg Dev.hg (butLog_ueAt d c w); exact h'
  have hhas : (d.ueAt c w).hg.slots.has cs = true := by rw [hhg, Tbl.has, hx]; rfl
  simp only [dramUncorrectable, h, Bool.not_true, Bool.false_eq_true, if_false]
  exact if_pos hhas

theorem hostDma_posted {c cs : Nat} {w : DWord} {x : CSlot} (h : d.inService c = true) (hx : d.postable cs x) (hbufs : x.bufs = [])
    (hreads : x.reads = false) (hnone : d.rp.reads.any (fun r => decide (r.2.cs = some cs)) = false) :
    (dramUncorrectable c w (.hostDma cs) d).posted d.out cs x cqeDataTransfer := by
  have hkeeps : (d.ueAt c w).butLog = d.butLog := butLog_ueAt d c w
  have hslot : (d.ueAt c w).hg.slots.get? cs = some x := by
    have hhg := congrArg (fun y : Dev => y.hg.slots.get? cs) hkeeps
    exact hhg.trans hx.1
  have hfns : (d.ueAt c w).fns = d.fns := by have h' := congrArg Dev.fns hkeeps; exact h'
  have hout : (d.ueAt c w).out = d.out := by have h' := congrArg Dev.out hkeeps; exact h'
  have hrp : (d.ueAt c w).rp = d.rp := by have h' := congrArg Dev.rp hkeeps; exact h'
  obtain ⟨t, ht, hreq⟩ := slot_dropWork hslot
  have hdrop := out_dropWork_idle hslot hbufs hreads (by rw [hrp]; exact hnone)
  rw [dramUncorrectable_hostDma h hx.1]
  exact complete_posted_of_request hx ht ((dropWork_fns _ cs).trans hfns) (hdrop.trans hout) hreq _

/-! ### The patrol (R368) -/

/-- What the patrol's read of a word leaves: a word that can't be corrected is stored poisoned. -/
def Dev.patrolRead (d : Dev) (e : EccResult) (c page word : Nat) : Dev :=
  if d.readsZero c page word then d
  else match e with
    | .uncorrectable => (d.eccFound c (d.placeOf page word) e 1).poisonWord c page word
    | _ => d.eccFound c (d.placeOf page word) e 1

/-- The patrol goes on from the next word, or ends its pass where there is none. -/
def Dev.patrolOn (d : Dev) (w : Nat) : Dev :=
  match d.dmc.patrolNext (w + 1) with
  | none => ({ d with dmc := { d.dmc with patrolAt := w + 1 } } : Dev).patrolEnd
  | some _ => { d with dmc := { d.dmc with patrolAt := w + 1 } }

section
variable (hen : d.reg aDmcCtrl 0 0 ≠ 0) (hidle : d.modes.mode ≠ .idle) (hhu : d.modes.mode ≠ .holdup) (horder : d.dmc.order ≠ [])
  {w : Nat} (hw : d.dmc.patrolNext d.dmc.patrolAt = some w)
include hen hidle hhu horder hw

theorem patrolTick_reads (e : EccResult) : patrolTick e d = (d.patrolRead e ((d.dmc.order[w / 64 % d.dmc.order.length]?).getD 0)
    (w / 64 / d.dmc.order.length) (w % 64)).patrolOn w := by
  simp only [patrolTick, hen, hidle, hhu, horder, or_self, if_false, hw]
  cases e <;> rfl

theorem patrolTick_clean : patrolTick .clean d = d.patrolOn w := by
  have hread (c page word : Nat) : d.patrolRead .clean c page word = d := by
    unfold Dev.patrolRead
    split <;> rfl
  rw [patrolTick_reads hen hidle hhu horder hw, hread]

end

theorem patrolEnd_dmc (d : Dev) : d.patrolEnd.dmc = { d.dmc with
    patrolAt := 0, patrolSince := d.now, patrolLate := decide (d.dmc.patrolSince + 86400000000000 < d.now) } := by
  simp only [Dev.patrolEnd]
  split
  · rw [Dev.ev_dmc]
  · rfl

theorem patrolEnd_counter (d : Dev) : d.patrolEnd.counter aDmcUeCnt 0 = d.counter aDmcUeCnt 0 := by
  simp only [Dev.patrolEnd]
  split
  · exact counter_ev _ (by decide) (by decide)
  · rfl

/-- Going on leaves the channels and the counts of errors. -/
theorem patrolOn_frame (d : Dev) (w : Nat) : (d.patrolOn w).dmc.chans = d.dmc.chans
    ∧ (d.patrolOn w).counter aDmcUeCnt 0 = d.counter aDmcUeCnt 0 := by
  unfold Dev.patrolOn
  split
  · rw [patrolEnd_dmc, patrolEnd_counter]
    exact ⟨rfl, rfl⟩
  · exact ⟨rfl, rfl⟩

theorem mem_poisonWord (d : Dev) (c page word : Nat) : (64 * page + word) ∈ ((d.poisonWord c page word).chan c).poison := by
  rw [Dev.poisonWord, Dev.chan_modChan]
  dsimp only
  split
  · next h => exact List.contains_iff_mem.mp h
  · exact List.mem_cons_self

theorem patrolRead_poisons {c page word : Nat} (hz : d.readsZero c page word = false) :
    (64 * page + word) ∈ ((d.patrolRead .uncorrectable c page word).chan c).poison
    ∧ (d.patrolRead .uncorrectable c page word).counter aDmcUeCnt 0 = sat 16 (d.counter aDmcUeCnt 0 + 1) := by
  have hread : d.patrolRead .uncorrectable c page word = (d.ueRead c (d.placeOf page word) false 1).poisonWord c page word :=
    if_neg (by rw [hz]; exact Bool.false_ne_true)
  rw [hread]
  exact ⟨mem_poisonWord _ c page word, counter_ueRead_found d c _ 1⟩

/-! ### Fixes (R369, R370) -/

theorem fixDone_dmc (d : Dev) (v : W32) (r : Nat) : (d.fixDone v r).dmc = { d.dmc with fixResult := r } := rfl

section
variable {v : W32} {op c page : Nat} (hcv : c = bitsOf v.toNat 3 0) (hp : page = d.reg aDmcFix 23 0) (hgo : bitOf v.toNat 6 = true)
  (hc : c ≤ 11) (hop : bitsOf v.toNat 5 4 = op)
include hcv hgo hc hop

theorem fixCmd_dark (hserve : d.inService c = false) (f : Dev → Nat → Nat → Nat → Dev) : d.fixCmd v op f = d.fixDone v 3 := by
  subst hcv
  simp [Dev.fixCmd, hgo, hop, Nat.not_lt.mpr hc, hserve]

include hp

theorem fixCmd_runs (hserve : d.inService c = true) (hpage : page < d.localPages) (f : Dev → Nat → Nat → Nat → Dev) :
    d.fixCmd v op f = f d c page (d.reg aDmcFix 29 24) := by
  subst hcv hp
  simp [Dev.fixCmd, hgo, hop, Nat.not_lt.mpr hc, hserve, Nat.not_le.mpr hpage]

end

theorem rowPages_of_boot {a b : Dev} (h : a.boot = b.boot) (page : Nat) : a.rowPages page = b.rowPages page := by
  simp only [Dev.rowPages, Dev.rankCount, Dev.section, h]

theorem eccFound_boot (d : Dev) (c : Nat) (w : DWord) (e : EccResult) (src : Nat) : (d.eccFound c w e src).boot = d.boot := by
  cases e with
  | clean => rfl
  | corrected dev mask =>
    simp only [Dev.eccFound, Dev.ceEntry, Dev.ev_boot]
    split <;> rfl
  | poisoned => rfl
  | uncorrectable => rw [Dev.eccFound, Dev.ueRead, if_neg Bool.false_ne_true, Dev.ev_boot, Dev.count_boot]

/-- Pages that are listed join the retirement list. -/
theorem mem_listPages (d : Dev) (c : Nat) {pages : List Nat} {p : Nat} (h : p ∈ pages) : (c, p) ∈ (d.listPages c pages).dmc.retired := by
  by_cases hold : (c, p) ∈ d.dmc.retired
  · exact List.mem_append_left _ hold
  · exact List.mem_append_right _ (List.mem_map.mpr ⟨p, List.mem_filter.mpr ⟨h, by simpa using hold⟩, rfl⟩)

/-- A rewrite that does not read back clean lists the row's pages. -/
def Dev.hardRow (d : Dev) (e : EccResult) (c page word : Nat) (v : W32) : Dev :=
  ((if e = .uncorrectable then (d.eccFound c (d.placeOf page word) e 0).poisonWord c page word
      else d.eccFound c (d.placeOf page word) e 0).listPages c
    ((if e = .uncorrectable then (d.eccFound c (d.placeOf page word) e 0).poisonWord c page word
      else d.eccFound c (d.placeOf page word) e 0).rowPages page)).fixDone v 1

theorem hardRow_lists (d : Dev) (e : EccResult) (c page word : Nat) (v : W32) : (d.hardRow e c page word v).dmc.fixResult = 1
    ∧ ∀ p, p ∈ d.rowPages page → (c, p) ∈ (d.hardRow e c page word v).dmc.retired := by
  unfold Dev.hardRow
  generalize hy : (if e = .uncorrectable then (d.eccFound c (d.placeOf page word) e 0).poisonWord c page word
      else d.eccFound c (d.placeOf page word) e 0) = y
  have hboot : y.boot = d.boot := by
    rw [← hy]
    split <;> exact eccFound_boot d c _ e 0
  exact ⟨rfl, fun p hp => mem_listPages y c (by rw [rowPages_of_boot hboot]; exact hp)⟩

/-- Fewer than 256 remap entries leave a spare page. -/
theorem spareFree_isSome {x : DChan} (h : x.remap.length < 256) : ∃ p, x.spareFree = some p := by
  cases hfree : x.spareFree with
  | some p => exact ⟨p, rfl⟩
  | none =>
    have hall := List.find?_eq_none.mp hfree
    have hsub : List.range 256 ⊆ x.remap.map (·.2) := fun p hp => by
      have hused := hall p hp
      simp only [Bool.not_eq_true', Bool.not_eq_false, List.any_eq_true, decide_eq_true_eq] at hused
      obtain ⟨y, hy, hyp⟩ := hused
      exact List.mem_map.mpr ⟨y, hy, hyp⟩
    have hle := (List.nodup_range.subperm hsub).length_le
    simp only [List.length_range, List.length_map] at hle
    omega

/-- A page that is retired is redirected, and no other page's entry changes. -/
theorem remapPage_redirects {x : DChan} (h : x.remap.length < 256) (page : Nat) : (x.remapPage page).remap.has page = true
    ∧ ∀ j, j ≠ page → (x.remapPage page).remap.get? j = x.remap.get? j := by
  unfold DChan.remapPage
  split
  · next hhas => exact ⟨hhas, fun _ _ => rfl⟩
  · obtain ⟨p, hp⟩ := spareFree_isSome h
    rw [hp]
    exact ⟨by simp [Tbl.has], fun j hj => Tbl.get?_ins_ne _ _ hj⟩

theorem fixDone_chan (d : Dev) (v : W32) (r c : Nat) : (d.fixDone v r).chan c = d.chan c := rfl

section
variable {v : W32} {c page : Nat} (hcv : c = bitsOf v.toNat 3 0) (hp : page = d.reg aDmcFix 23 0) (hgo : bitOf v.toNat 6 = true)
  (hc : c ≤ 11) (hserve : d.inService c = true) (hpage : page < d.localPages)
include hcv hp hgo hc hserve hpage

theorem rewriteWord_soft (hop : bitsOf v.toNat 5 4 = 1) : (rewriteWord v .clean d).dmc = { d.dmc with fixResult := 0 } := by
  rw [rewriteWord, fixCmd_runs hcv hp hgo hc hop hserve hpage, Dev.ev_dmc, fixDone_dmc]

theorem rewriteWord_hard (hop : bitsOf v.toNat 5 4 = 1) {e : EccResult} (he : e ≠ .clean) :
    rewriteWord v e d = d.hardRow e c page (d.reg aDmcFix 29 24) v := by
  rw [rewriteWord, fixCmd_runs hcv hp hgo hc hop hserve hpage]
  cases e with
  | clean => exact absurd rfl he
  | corrected dev mask => rfl
  | poisoned => rfl
  | uncorrectable => rfl

theorem retirePage_redirects (hop : bitsOf v.toNat 5 4 = 2) (hroom : (d.chan c).remap.length < 256) :
    (retirePage v d).dmc.fixResult = 0 ∧ ((retirePage v d).chan c).remap.has page = true
    ∧ ∀ j, j ≠ page → ((retirePage v d).chan c).remap.get? j = (d.chan c).remap.get? j := by
  rw [retirePage, fixCmd_runs hcv hp hgo hc hop hserve hpage]
  split
  · next hhas => exact ⟨rfl, hhas, fun _ _ => rfl⟩
  · rw [if_neg (Nat.not_le.mpr hroom), fixDone_chan, Dev.chan_modChan]
    exact ⟨rfl, remapPage_redirects hroom page⟩

theorem retirePage_full (hop : bitsOf v.toNat 5 4 = 2) (hfull : 256 ≤ (d.chan c).remap.length) (hno : (d.chan c).remap.has page = false) :
    (retirePage v d).dmc = { d.dmc with fixResult := 2 } := by
  rw [retirePage, fixCmd_runs hcv hp hgo hc hop hserve hpage, hno, if_neg Bool.false_ne_true, if_pos hfull, Dev.ev_dmc, fixDone_dmc]

theorem releaseRemap_releases (hop : bitsOf v.toNat 5 4 = 3) : releaseRemap v d
    = (d.modChan c (fun x => { x with remap := x.remap.del page })).fixDone v 0 := by
  rw [releaseRemap, fixCmd_runs hcv hp hgo hc hop hserve hpage]

end

/-! ### Firmware's policy on what it pops (R369) -/

theorem promiseEval_dmc (d : Dev) : d.promiseEval.dmc = d.dmc := by
  simp only [Dev.promiseEval]
  split
  · rfl
  · rw [Dev.ev_dmc]

/-- The entries that firmware remembers for 24 h, with the one it has popped. -/
def Dev.ceDay (d : Dev) (c : Nat) (e : CeEnt) : List CeSeen :=
  ⟨d.now, c, e.w.rank, e.w.rowKey, 10 * e.w.subch + e.dev⟩ :: d.dmc.seen.filter (fun x => decide (d.now ≤ x.time + 86400000000000))

/-- The rows of the rank in which the entry's device erred within the hour. -/
def Dev.ceRows (d : Dev) (c : Nat) (e : CeEnt) : List Nat :=
  (((d.ceDay c e).filter (fun (x : CeSeen) => decide (x.ch = c) && decide (x.rank = e.w.rank) && decide (x.dev = 10 * e.w.subch + e.dev)
    && decide (d.now ≤ x.time + 3600000000000))).map (·.row)).dedup

/-- Whether the row has erred within the day before. -/
def Dev.ceAgain (d : Dev) (c : Nat) (e : CeEnt) : Bool :=
  (d.dmc.seen.filter (fun x => decide (d.now ≤ x.time + 86400000000000))).any (fun x => decide (x.ch = c) && decide (x.rank = e.w.rank)
    && decide (x.row = e.w.rowKey) && decide (x.dev / 10 = e.w.subch))

/-- The device that remembers the entry. -/
def Dev.ceSeen (d : Dev) (c : Nat) (e : CeEnt) : Dev := { d with dmc := { d.dmc with seen := d.ceDay c e } }

/-- The device failed: its rows are not retired. -/
def Dev.ceFailed (d : Dev) (c : Nat) (e : CeEnt) : Dev :=
  ({ d.ceSeen c e with dmc := { (d.ceSeen c e).dmc with
      devFailed := (2 * c + e.w.rank, 10 * e.w.subch + e.dev) :: (d.ceSeen c e).dmc.devFailed } }.ev evDmcDeviceFailed 0
    [.num 1 c, .num 1 e.w.subch, .num 1 e.w.rank, .num 1 e.dev]).promiseEval

theorem cePolicy_eq (d : Dev) (c : Nat) (e : CeEnt) : d.cePolicy c e
    = if d.dmc.devFailed.contains (2 * c + e.w.rank, 10 * e.w.subch + e.dev) then d.ceSeen c e
      else if 16 < (d.ceRows c e).length then d.ceFailed c e
      else if d.ceAgain c e then (d.ceSeen c e).listPages c ((d.ceSeen c e).rowPages e.w.page)
      else d.ceSeen c e := rfl

/-- The policy remembers the entry and leaves the channels. -/
theorem cePolicy_frame (d : Dev) (c : Nat) (e : CeEnt) : (d.cePolicy c e).dmc.seen = d.ceDay c e ∧ (d.cePolicy c e).dmc.chans = d.dmc.chans := by
  have hfailed : (d.ceFailed c e).dmc.seen = d.ceDay c e ∧ (d.ceFailed c e).dmc.chans = d.dmc.chans := by
    rw [Dev.ceFailed, promiseEval_dmc, Dev.ev_dmc]
    exact ⟨rfl, rfl⟩
  rw [cePolicy_eq]
  split_ifs
  · exact ⟨rfl, rfl⟩
  · exact hfailed
  · exact ⟨rfl, rfl⟩
  · exact ⟨rfl, rfl⟩

/-- With 15 entries or fewer remembered, no device errs in more than 16 rows. -/
theorem ceRows_few (c : Nat) (e : CeEnt) (h : d.dmc.seen.length ≤ 15) : (d.ceRows c e).length ≤ 16 :=
  calc (d.ceRows c e).length
      ≤ (d.ceDay c e).length := ((List.dedup_sublist _).length_le.trans_eq (List.length_map _)).trans (List.length_filter_le _ _)
    _ ≤ 16 := by
      have hday := List.length_filter_le (fun x : CeSeen => decide (d.now ≤ x.time + 86400000000000)) d.dmc.seen
      rw [Dev.ceDay, List.length_cons]
      omega

/-- A second error in the row within 24 h retires the row's pages. -/
theorem cePolicy_retires {c : Nat} {e : CeEnt} (hdev : d.dmc.devFailed.contains (2 * c + e.w.rank, 10 * e.w.subch + e.dev) = false)
    (hfew : d.dmc.seen.length ≤ 15) (hagain : d.ceAgain c e = true) {p : Nat} (hp : p ∈ d.rowPages e.w.page) :
    (c, p) ∈ (d.cePolicy c e).dmc.retired := by
  rw [cePolicy_eq, hdev, if_neg Bool.false_ne_true, if_neg (Nat.not_lt.mpr (ceRows_few c e hfew)), if_pos hagain]
  exact mem_listPages (d.ceSeen c e) c hp

theorem ceAgain_iff {c : Nat} {e : CeEnt} : d.ceAgain c e = d.dmc.seen.any (fun x => decide (d.now ≤ x.time + 86400000000000)
    && decide (x.ch = c) && decide (x.rank = e.w.rank) && decide (x.row = e.w.rowKey) && decide (x.dev / 10 = e.w.subch)) := by
  simp only [Dev.ceAgain, List.any_filter, Bool.and_assoc]

theorem ceLogPop_pops {c : Nat} {e : CeEnt} {l : List CeEnt} (h : (d.chan c).log = e :: l) :
    ceLogPop c d = (d.modChan c (fun x => { x with log := l })).cePolicy c e := by
  simp only [ceLogPop, h]

theorem ceLogPop_retires {c : Nat} {e : CeEnt} {l : List CeEnt} (h : (d.chan c).log = e :: l)
    (hdev : d.dmc.devFailed.contains (2 * c + e.w.rank, 10 * e.w.subch + e.dev) = false) (hfew : d.dmc.seen.length ≤ 15)
    (hagain : d.ceAgain c e = true) {p : Nat} (hp : p ∈ d.rowPages e.w.page) : (c, p) ∈ (ceLogPop c d).dmc.retired := by
  rw [ceLogPop_pops h]
  generalize hy : d.modChan c (fun x => { x with log := l }) = y
  have hfailed : y.dmc.devFailed = d.dmc.devFailed := by rw [← hy]; rfl
  have hseen : y.dmc.seen = d.dmc.seen := by rw [← hy]; rfl
  have hnow : y.now = d.now := by rw [← hy]; rfl
  have hboot : y.boot = d.boot := by rw [← hy]; rfl
  refine cePolicy_retires (by rw [hfailed, hdev]) (by rw [hseen]; exact hfew) ?_ (by rw [rowPages_of_boot hboot]; exact hp)
  rw [Dev.ceAgain, hseen, hnow]
  exact hagain

/-! ### The injector (R371, R372) -/

/-- The mask of the injector. -/
def Dev.injMask (d : Dev) : Nat :=
  (d.csrW aDmcInjMask).toNat + 2 ^ 32 * (d.csrW (aDmcInjMask + 4)).toNat + 2 ^ 64 * d.reg (aDmcInjMask + 8) 15 0

theorem injMask_halves (d : Dev) :
    (bitsOf d.injMask 39 0 ≠ 0 ↔ ((d.csrW aDmcInjMask).toNat ≠ 0 ∨ (d.csrW (aDmcInjMask + 4)).toNat % 256 ≠ 0))
    ∧ (bitsOf d.injMask 79 40 ≠ 0 ↔ ((d.csrW (aDmcInjMask + 4)).toNat / 256 ≠ 0 ∨ d.reg (aDmcInjMask + 8) 15 0 ≠ 0)) := by
  have hlow := (d.csrW aDmcInjMask).isLt
  have hmid := (d.csrW (aDmcInjMask + 4)).isLt
  have hhigh : d.reg (aDmcInjMask + 8) 15 0 < 2 ^ 16 := Nat.mod_lt _ (by decide)
  simp only [Dev.injMask, bitsOf]
  omega

theorem injectArm_arms (h : d.injLocked = false) : (injectArm d).csr = d.csr
    ∧ (injectArm d).dmc = { d.dmc with armed0 := decide (bitsOf d.injMask 39 0 ≠ 0), armed1 := decide (bitsOf d.injMask 79 40 ≠ 0) } := by
  rw [injectArm, h, if_neg Bool.false_ne_true]
  exact ⟨Dev.ev_csr _ _ _ _, Dev.ev_dmc _ _ _ _⟩

theorem injectLock_locks (d : Dev) : (injectLock d).injLocked = true := by
  have hw : (injectLock d).csrW aDmcInjCtrl = BitVec.ofNat 32 ((d.csrW aDmcInjCtrl).toNat
      - 2 ^ 10 * bitsOf (d.csrW aDmcInjCtrl).toNat 10 10 + 2 ^ 10 * (1 % 2 ^ 1)) := Dev.csrW_setCsr _ _ _
  have hlt := (d.csrW aDmcInjCtrl).isLt
  refine decide_eq_true ?_
  rw [Dev.reg, hw]
  simp only [bitsOf, BitVec.toNat_ofNat]
  omega

/-- Settles O51, part by part: errors that a read finds, the patrol's step, the three fixes, the log's pop, and the injector. -/
theorem dramErrorsAndRepair : Obligations.DramErrorsAndRepair := by
  intro s
  refine ⟨fun c w hserve => ⟨fun n rd hrd => ?_, fun cs x hx hbufs _ hreads hnone => ?_⟩, fun c w rd hdark => ?_,
    fun hen hidle hhu horder w hw => ⟨fun hmore => ?_, fun hlast => ?_, fun c page hc hpage hz => ?_⟩, fun e hpause => ?_,
    fun v c page hcv hp hgo hc => ⟨fun hserve hpage => ⟨fun hop => ⟨?_, fun e he => ?_⟩, fun hop => ⟨fun hroom => ?_, fun hfull hno => ?_⟩,
      fun hop => ?_⟩, fun hdark i e hi => ?_⟩,
    fun c e l hlog => ?_, fun c hlog => ?_, fun hopen => ?_, fun hlocked => ?_, ?_⟩
  · refine ⟨s.onDev (dramUncorrectable c w rd), rfl, rfl, ?_⟩
    rw [State.onDev_dev]
    obtain ⟨hstored, hfound⟩ := counter_ueAt s.dev c w
    obtain h | ⟨l, h⟩ := dramUncorrectable_counts (w := w) hserve hrd <;> rw [h]
    · exact ⟨butLog_ueAt _ _ _, hstored, hfound⟩
    · rw [butLog_ev, counter_ev _ (by decide) (by decide), counter_ev _ (by decide) (by decide)]
      exact ⟨butLog_ueAt _ _ _, hstored, hfound⟩
  · exact ⟨s.onDev (dramUncorrectable c w (.hostDma cs)), rfl, rfl, hostDma_posted hserve hx hbufs hreads hnone⟩
  · exact next_onDev (f := dramUncorrectable c w rd) (if_pos (by rw [hdark]; rfl))
  · obtain ⟨w', hw'⟩ := Option.isSome_iff_exists.mp hmore
    refine next_onDev ((patrolTick_clean hen hidle hhu horder hw).trans ?_)
    simp only [Dev.patrolOn, hw']
  · refine ⟨s.onDev (patrolTick .clean), rfl, rfl, ?_⟩
    rw [State.onDev_dev, patrolTick_clean hen hidle hhu horder hw]
    simp only [Dev.patrolOn, hlast]
    exact patrolEnd_dmc _
  · refine ⟨s.onDev (patrolTick .uncorrectable), rfl, rfl, ?_⟩
    rw [State.onDev_dev, patrolTick_reads hen hidle hhu horder hw, hc, Option.getD_some, ← hpage]
    obtain ⟨hchans, hcounter⟩ := patrolOn_frame (s.dev.patrolRead .uncorrectable c page (w % 64)) w
    rw [chan_of_chans hchans, hcounter]
    exact patrolRead_poisons hz
  · refine next_onDev (f := patrolTick e) (if_pos ?_)
    rcases hpause with h | h | h
    · exact .inl h
    · exact .inr (.inl h)
    · exact .inr (.inr (.inl h))
  · exact ⟨s.onDev (rewriteWord v .clean), rfl, rfl, rewriteWord_soft hcv hp hgo hc hserve hpage hop⟩
  · exact ⟨_, next_onDev (rewriteWord_hard hcv hp hgo hc hserve hpage hop he), rfl, hardRow_lists _ _ _ _ _ _⟩
  · exact ⟨s.onDev (retirePage v), rfl, rfl, retirePage_redirects hcv hp hgo hc hserve hpage hop hroom⟩
  · exact ⟨s.onDev (retirePage v), rfl, rfl, retirePage_full hcv hp hgo hc hserve hpage hop hfull hno⟩
  · refine ⟨_, next_onDev (releaseRemap_releases hcv hp hgo hc hserve hpage hop), rfl, rfl, ?_⟩
    rw [fixDone_chan, Dev.chan_modChan]
    exact ⟨by simp [Tbl.has], fun j hj => Tbl.get?_del_ne _ hj⟩
  · obtain ⟨hop, rfl⟩ | ⟨hop, rfl⟩ | ⟨hop, rfl⟩ := hi
    · exact ⟨_, next_onDev (f := rewriteWord v e) (fixCmd_dark hcv hgo hc hop hdark _), rfl, fixDone_dmc _ _ _⟩
    · exact ⟨_, next_onDev (f := retirePage v) (fixCmd_dark hcv hgo hc hop hdark _), rfl, fixDone_dmc _ _ _⟩
    · exact ⟨_, next_onDev (f := releaseRemap v) (fixCmd_dark hcv hgo hc hop hdark _), rfl, fixDone_dmc _ _ _⟩
  · refine ⟨s.onDev (ceLogPop c), rfl, rfl, ?_, ?_, fun hdev hfew hagain p hp =>
      ceLogPop_retires hlog hdev hfew (ceAgain_iff.trans hagain) hp⟩
    · rw [State.onDev_dev, ceLogPop_pops hlog, chan_of_chans (cePolicy_frame _ c e).2, Dev.chan_modChan]
    · rw [State.onDev_dev, ceLogPop_pops hlog, (cePolicy_frame _ c e).1]
      exact List.mem_cons_self
  · refine next_onDev (f := ceLogPop c) ?_
    simp only [ceLogPop, hlog]
  · refine ⟨s.onDev injectArm, rfl, rfl, ?_⟩
    obtain ⟨hcsr, hdmc⟩ := injectArm_arms hopen
    obtain ⟨hlow, hhigh⟩ := injMask_halves s.dev
    rw [State.onDev_dev, hdmc]
    exact ⟨hcsr, decide_eq_true_iff.trans hlow, decide_eq_true_iff.trans hhigh⟩
  · exact next_onDev (f := injectArm) (if_pos hlocked)
  · exact ⟨s.onDev injectLock, rfl, rfl, injectLock_locks s.dev, rfl, rfl⟩

end Sys2Proof.Machine
end
